-- ==== Sys2Proof/Word.lean ====
section
/-!
DEFINITION. The word types of the device and the sparse memory type that every RAM of the model uses.

A register and a RAM word have 32 bits (R3, R9); a byte has 8. Addresses and indexes are Nat; quantities that
the spec adds without wrapping are Nat or Int.
-/

namespace Sys2Proof

/-- A 32-bit word: a register, a sample, a word of a RAM. -/
abbrev Word := BitVec 32

/-- A byte of a file, a frame, a ring entry or a flash device. -/
abbrev Byte := BitVec 8

/-- A sparse store: (index, value) pairs with indexes strictly rising, and no pair whose value is what an unlisted
index reads as. What an unlisted index reads as is an argument of the operations (`Memory.get`, `Memory.set`). -/
abbrev Memory (α : Type) := List (Nat × α)

end Sys2Proof
end

