-- ==== Sys2Proof/Kinds.lean ====
section
/-!
DEFINITION. The small closed types that commands and state share: memory names, upsets, report and output shapes.
-/

namespace Sys2Proof

/-- A memory whose words carry check bits. Program memories count in bundle quarters (4 × bundle + quarter). -/
inductive EccMem where
  | prog0 | prog1 | facX | facY | facZ              -- inside one Facet (R97)
  | entry | replica | sinkTab | slot                -- inside one tile (R200)
  | bank | spare | xram | locket                    -- shared memories (R266)
  | dram                                            -- DRAM codewords of one channel (R286)
deriving DecidableEq, Repr

/-- A word that a disturbance has left with a correctable (`ue = false`) or an uncorrectable error. -/
structure Upset where
  mem : EccMem
  idx : Nat
  ue  : Bool
deriving DecidableEq, Repr

/-- One occurrence of one cause at one reporter, on the report network (R473, R476, R477). `dom` is the reporter's
domain, 3 when it has none. `quiet` marks an occurrence that is counted and sends no record, because its status bit
was already set (R99, R201). `detail` names the second party where a rule asks for one. -/
structure Report where
  cause  : Nat
  cls    : Nat
  inst   : Nat
  dom    : Nat
  clear  : Bool
  quiet  : Bool
  detail : Nat
deriving DecidableEq, Repr

/-- A requester of the shared banks (R261, R262). Network buffers are NET0 receive, NET0 transmit, NET1 receive,
NET1 transmit in this order. -/
inductive Requester where
  | facet (n : Nat) | tile (n : Nat) | netBuf (k : Nat)
  | tdm (n : Nat) | madi (n : Nat) | aes (n : Nat) | link (n : Nat)
  | stream (ch : Nat) | core (n : Nat) | dma (pf : Nat) | scrubber | bist
deriving DecidableEq, Repr

/-- An access kind of a shared bank (R259). A partial write carries its four byte enables, byte 0 first. -/
inductive BankOp where
  | read | write (v : Word) | partWrite (v : Word) (be : List Bool)
  | addW (u : Word) | addS (u : Word) | swap (u : Word)
deriving DecidableEq, Repr

/-- One access presented at the shared banks: requester, word address, kind. -/
structure BankReq where
  who  : Requester
  addr : Nat
  op   : BankOp
deriving DecidableEq, Repr

/-- A port-A access of the Exchange RAM that coincides with a port-B access (R274): core, write data, and whether it
starts first. -/
structure CoA where
  core  : Nat
  wr    : Option Word
  first : Bool
deriving DecidableEq, Repr

/-- A port-B access (R273, R275): source 0 PCIe, 1 SPIT0, 2 SPIT1; its partition (4: none); word; write data with byte
enables. -/
structure PortB where
  src  : Nat
  part : Nat
  word : Nat
  wr   : Option (Word × List Bool)
deriving DecidableEq, Repr

/-- A kernel call's place: Facet, X word of its parameter pointer word, the two copies of its parameter block (R170, R250), its
private areas in X, Y and Z memory, its input and output blocks in Y memory and its save area (R172 to R175, R219). `cur` is
the copy in force. -/
structure KBlock where
  node  : Nat
  call  : Nat
  facet : Nat
  ptr   : Nat
  copy0 : Nat
  copy1 : Nat
  cur   : Bool
  x     : Nat
  y     : Nat
  z     : Nat
  inp   : Nat
  out   : Nat
  save  : Nat
deriving DecidableEq, Repr

/-- A sink's place in one tile (R181, R182, R190): the SUM output, its rows, its state slot, the shared-bank words of a cross-tile
sink, and the entry of each of its crosspoints here with the input that feeds it. -/
structure SinkPlace where
  node : Nat
  out  : Nat
  tile : Nat
  row  : Nat
  rows : Nat
  slot : Nat
  word : Nat
  ents : List (Nat × Nat)
deriving DecidableEq, Repr

/-- What a delay line is for (R46, R139): a channel of a DELAY node, the pad of an output channel, or a delay hop before an
input channel. -/
inductive LineKind where
  | delay | pad | hop
deriving DecidableEq, Repr

/-- A delay line's place (R139, R143, R144, R292): the channel that it serves, its number, its Facet, the Y words of its input and
output; in Y memory a buffer of `len` words at `base`, in DRAM (`dram`) an area of channel `ch` at `area` and two rings in Y
memory. `nb` and `bundles` are what the delay-line kernel, which is not documented, issues and holds for it. -/
structure LinePlace where
  node    : Nat
  kind    : LineKind
  chan    : Nat
  id      : Nat
  facet   : Nat
  inp     : Nat
  out     : Nat
  base    : Nat
  len     : Nat
  dram    : Bool
  ch      : Nat
  area    : Nat
  wring   : Nat
  rring   : Nat
  nb      : Nat
  bundles : Nat
deriving DecidableEq, Repr

/-- What the Setter gives a Facet beside its calls: two areas of Z memory for the gather and post list, used in turn, their
length, and the shared-bank window (R87, R520); `last` below `first` gives no window. -/
structure FacPlace where
  facet : Nat
  list0 : Nat
  list1 : Nat
  cap   : Nat
  first : Nat
  last  : Nat
deriving DecidableEq, Repr

/-- What the Setter's placement, whose algorithm is not documented (R238 and the text before R233), chose for one transaction: a
capacity refusal with its detail, a dip, SIDs (node, channel, SID), pads (node, channel, samples), delay hops (node, input,
pad, SID), stream contexts (node, context, phase, sigma), lanes (node, channel, lane), places of kernel calls, sinks and lines,
new places of lines that stay, Facets that take work, the earliest achievable anchor tick, admissions shed (partition,
number). -/
structure Plan where
  refuse   : Option (Nat × Nat × Nat × Nat × Nat)
  dip      : Bool
  sids     : List (Nat × Nat × Nat)
  pads     : List (Nat × Nat × Nat)
  hops     : List (Nat × Nat × Nat × Nat)
  ctxs     : List (Nat × Nat × Nat × Nat)
  lanes    : List (Nat × Nat × Nat)
  blocks   : List KBlock
  sinks    : List SinkPlace
  lines    : List LinePlace
  geo      : List LinePlace
  facs     : List FacPlace
  earliest : Nat
  shed     : List (Nat × Nat)
deriving DecidableEq, Repr

end Sys2Proof
end

