-- ==== Sys2Proof/Machine/Mem.lean ====
section
/-!
DEFINITION. The operations of the sparse store: read, write, the canonical form and bulk forms of them.

`d` is what an unlisted index reads as. The canonical form makes equal stores equal lists.
-/

namespace Sys2Proof

/-- The value at index `a`; an unlisted index reads `d a`. -/
def Memory.get {α : Type} (d : Nat → α) : Memory α → Nat → α
  | [], a => d a
  | (k, v) :: r, a => if k = a then v else Memory.get d r a

/-- The list without index `a`. -/
def Memory.erase {α : Type} : Memory α → Nat → Memory α
  | [], _ => []
  | (k, v) :: r, a => if k = a then r else (k, v) :: Memory.erase r a

/-- The list with `v` at index `a`, indexes kept rising. -/
def Memory.insert {α : Type} : Memory α → Nat → α → Memory α
  | [], a, v => [(a, v)]
  | (k, w) :: r, a, v =>
    if a < k then (a, v) :: (k, w) :: r
    else if a = k then (a, v) :: r
    else (k, w) :: Memory.insert r a v

/-- Write `v` at index `a`; writing what an unlisted index reads as removes the entry. -/
def Memory.set {α : Type} [DecidableEq α] (d : Nat → α) (m : Memory α) (a : Nat) (v : α) : Memory α :=
  if v = d a then Memory.erase m a else Memory.insert m a v

/-- Write a list of (index, value) pairs, in order. -/
def Memory.setAll {α : Type} [DecidableEq α] (d : Nat → α) (m : Memory α) (ws : List (Nat × α)) : Memory α :=
  ws.foldl (fun m w => Memory.set d m w.1 w.2) m

/-- Write the values at consecutive indexes from `a`. -/
def Memory.setRun {α : Type} [DecidableEq α] (d : Nat → α) : Memory α → Nat → List α → Memory α
  | m, _, [] => m
  | m, a, v :: vs => Memory.setRun d (Memory.set d m a v) (a + 1) vs

/-- The `n` values from index `a`. -/
def Memory.getRun {α : Type} (d : Nat → α) (m : Memory α) (a n : Nat) : List α :=
  (List.range n).map fun i => Memory.get d m (a + i)

/-- Drop every entry whose index lies in `[a, a + n)`: the range reads as unlisted again. -/
def Memory.clearRun {α : Type} (m : Memory α) (a n : Nat) : Memory α :=
  m.filter fun e => e.1 < a || a + n ≤ e.1

/-- Every key of the list is above `b`. -/
def Memory.above {α : Type} (b : Nat) : Memory α → Bool
  | [] => true
  | (k, _) :: r => b < k && Memory.above b r

/-- The canonical form: indexes strictly rising, no entry equal to what its index reads as unlisted. -/
def Memory.wf {α : Type} [DecidableEq α] (d : Nat → α) : Memory α → Bool
  | [] => true
  | (k, v) :: r => decide (v ≠ d k) && Memory.above k r && Memory.wf d r

end Sys2Proof
end

