-- ==== Sys2Proof/Machine/DramState.lean ====
section
/-!
DEFINITION. The state of the two LPDDR4X channels and the delay-line stream engine, with the DRAM_ registers
(R143 to R145, R283 to R297).
-/

namespace Sys2Proof.Machine

/-- A DRAM delay line (R143, R144, R292): its domain, channel, area, delay, area length, Facet and the Y addresses of
its two rings. `upto` is the first period whose read-ring word has not been fetched. -/
structure DramLine where
  id    : Nat
  dom   : Nat
  ch    : Nat
  base  : Nat
  d     : Nat
  ld    : Nat
  facet : Nat
  wring : Nat
  rring : Nat
  upto  : Nat
  next  : Option (Nat × Nat × Nat × Nat × Nat)   -- from a period on: channel, area, delay, area length (R146)
deriving DecidableEq, Repr

/-- An access at a channel's controller (R291): requester, word address in the channel, words to read or to write. -/
structure DramReq where
  who  : Requester
  word : Nat
  read : Nat
  data : List Word
deriving DecidableEq, Repr

/-- The two channels. `words` is keyed by channel × 2^31 + word; error marks by channel × 2^29 + codeword. -/
structure DramSys where
  words     : Memory Word
  bad       : List Upset
  lines     : List DramLine
  waiting   : List (Nat × DramReq)
  selfRef   : Bool
  ctl       : Word
  densA     : Nat
  ranksA    : Nat
  densB     : Nat
  ranksB    : Nat
  trained   : Bool
  trainFail : Bool
  initDone  : Bool
  stat      : Word
  mibA      : Nat
  mibB      : Nat
  eccAddr   : Word
  ceCount   : Nat
  lateCount : Nat
  rateA     : Nat
  rateB     : Nat
  scrubPos  : Nat
  dqsRuns   : Nat × Nat
  refreshes : Nat × Nat
  rep       : List (Nat × Nat × Nat × Bool × Nat)   -- reports of the current step: cause, class, instance, CLEAR, detail
deriving DecidableEq, Repr

/-- The channels at power-up: not trained, nothing initialised (R296). -/
def DramSys.reset : DramSys where
  words := []
  bad := []
  lines := []
  waiting := []
  selfRef := false
  ctl := 1
  densA := 0
  ranksA := 0
  densB := 0
  ranksB := 0
  trained := false
  trainFail := false
  initDone := false
  stat := 0
  mibA := 0
  mibB := 0
  eccAddr := 0
  ceCount := 0
  lateCount := 0
  rateA := 0
  rateB := 0
  scrubPos := 0
  dqsRuns := (0, 0)
  refreshes := (0, 0)
  rep := []

end Sys2Proof.Machine
end

