-- ==== Sys2Proof/Machine/Bits.lean ====
section
/-!
DEFINITION. Bit-field, sign-extension, byte-order and saturation helpers, shared by every family.
-/

namespace Sys2Proof

/-- Field `[lo + n - 1 : lo]` of a number. -/
def fld (w lo n : Nat) : Nat := (w >>> lo) % 2 ^ n

/-- Bit `i` of a number. -/
def bit (w i : Nat) : Bool := w.testBit i

/-- Field `[lo + n - 1 : lo]` of a word. -/
def Word.fld (w : Word) (lo n : Nat) : Nat := Sys2Proof.fld w.toNat lo n

/-- Bit `i` of a word. -/
def Word.flag (w : Word) (i : Nat) : Bool := w.getLsbD i

/-- `w` with field `[lo + n - 1 : lo]` set to `v` (mod 2^n). -/
def Word.setFld (w : Word) (lo n v : Nat) : Word :=
  BitVec.ofNat 32 (w.toNat - (Sys2Proof.fld w.toNat lo n) <<< lo + (v % 2 ^ n) <<< lo)

/-- `w` with bit `i` set to `b`. -/
def Word.setFlag (w : Word) (i : Nat) (b : Bool) : Word := w.setFld i 1 (if b then 1 else 0)

/-- A word with one bit set. -/
def Word.one (i : Nat) : Word := BitVec.ofNat 32 (2 ^ i)

/-- The signed value of the low `n` bits of `w`. -/
def sext (n w : Nat) : Int :=
  let v := w % 2 ^ n
  if n = 0 then 0 else if v < 2 ^ (n - 1) then (v : Int) else (v : Int) - (2 ^ n : Nat)

/-- The low `n` bits of an integer in two's complement. -/
def wrapN (n : Nat) (i : Int) : Nat := (i % (2 ^ n : Nat)).toNat

/-- A 32-bit word from an integer, in two's complement. -/
def wordI (i : Int) : Word := BitVec.ofNat 32 (wrapN 32 i)

/-- Saturation of an integer to `n`-bit two's complement. -/
def satN (n : Nat) (i : Int) : Int :=
  let top : Int := (2 ^ (n - 1) : Nat)
  if i > top - 1 then top - 1 else if i < -top then -top else i

/-- Whether an integer lies outside `n`-bit two's complement. -/
def overN (n : Nat) (i : Int) : Bool :=
  let top : Int := (2 ^ (n - 1) : Nat)
  decide (i > top - 1) || decide (i < -top)

/-- Clamp to `[lo, hi]`. -/
def clampI (lo hi i : Int) : Int := if i < lo then lo else if i > hi then hi else i

/-- The unsigned number a list of bytes carries, lowest byte first (R3). -/
def leNat : List Byte → Nat
  | [] => 0
  | b :: r => b.toNat + 256 * leNat r

/-- The unsigned number a list of bytes carries, highest byte first (network order). -/
def beNat (bs : List Byte) : Nat := bs.foldl (fun a b => 256 * a + b.toNat) 0

/-- `n` bytes of a number, lowest first. -/
def leBytes : Nat → Nat → List Byte
  | 0, _ => []
  | n + 1, v => BitVec.ofNat 8 v :: leBytes n (v / 256)

/-- `n` bytes of a number, highest first. -/
def beBytes (n v : Nat) : List Byte := (leBytes n v).reverse

/-- The `n` bytes from offset `o`. -/
def slice (bs : List Byte) (o n : Nat) : List Byte := (bs.drop o).take n

/-- Little-endian field of `n` bytes at offset `o` of a byte list. -/
def le (bs : List Byte) (o n : Nat) : Nat := leNat (slice bs o n)

/-- Big-endian field of `n` bytes at offset `o` of a byte list. -/
def be (bs : List Byte) (o n : Nat) : Nat := beNat (slice bs o n)

/-- The byte at offset `o`; 0 beyond the end. -/
def byteAt (bs : List Byte) (o : Nat) : Byte := bs.getD o 0

/-- Words of a byte list, lowest byte first, whole words only. -/
def wordsOf : List Byte → List Word
  | a :: b :: c :: d :: r => BitVec.ofNat 32 (leNat [a, b, c, d]) :: wordsOf r
  | _ => []

/-- The four bytes of a word, byte 0 lowest (R3). -/
def bytesOfWord (w : Word) : List Byte := leBytes 4 w.toNat

/-- The bytes of a list of words. -/
def bytesOfWords (ws : List Word) : List Byte := ws.flatMap bytesOfWord

/-- `l` with element `i` replaced by `v` (`l` itself past its end). -/
def setAt {α : Type} (l : List α) (i : Nat) (v : α) : List α := l.set i v

/-- Replace the low or high half of a 64-bit register. -/
def setLo (old : Nat) (v : Word) : Nat := (old >>> 32) <<< 32 + v.toNat
def setHi (old : Nat) (v : Word) : Nat := v.toNat <<< 32 + old % 2 ^ 32

/-- `x` put before the first element of `l` that may not come before it. -/
def placeBy {α : Type} (le : α → α → Bool) (x : α) (l : List α) : List α :=
  match l with
  | [] => [x]
  | y :: r => if le x y then x :: y :: r else y :: placeBy le x r

/-- `l` in order; elements that rank alike keep theirs. -/
def sortBy {α : Type} (le : α → α → Bool) (l : List α) : List α := l.foldr (placeBy le) []

/-- `ceil (a / b)`. -/
def ceilDiv (a b : Nat) : Nat := (a + b - 1) / b

/-- Saturating increment of a counter that stops at `m`. -/
def incSat (m c : Nat) : Nat := if c < m then c + 1 else m

end Sys2Proof
end

