-- ==== Sys2Proof/Machine/FacetState.lean ====
section
/-!
DEFINITION. The state of one Facet (R66 to R169): memories, register files, FAC_ registers, loop frames, operations
in flight, the preemption state and the loop cache.
-/

namespace Sys2Proof.Machine

/-- A loop frame (R150): first bundle, END index, ROT bit, active bit. -/
structure Frame where
  start  : Nat
  stop   : Nat
  rot    : Bool
  active : Bool
deriving DecidableEq, Repr

/-- One of the three data memories of a Facet. -/
inductive FMem where
  | x | y | z
deriving DecidableEq, Repr

/-- What an operation in flight does when it lands (R82 to R84). Register numbers are physical (R156). -/
inductive Eff where
  | d (k : Nat) (v : Word)                       -- D register
  | acc (k : Nat) (v : BitVec 80)                -- accumulator
  | accPart (k j : Nat) (v : Word)               -- one part of an accumulator (R110)
  | sp (k : Nat) (v : BitVec 16)                 -- pointer, offset, base, length, LC0, LC1, ROTB, by SREG code
  | rotDec                                       -- ROTB - 1 mod 32 (R152)
  | pf (k : Nat) (b : Bool)                      -- one predicate flag
  | pfAll (v : BitVec 8)                         -- PF1 to PF7 (R116)
  | sv (k : Nat) (v : BitVec 64)                 -- survivor register
  | svHalf (k : Nat) (hi : Bool) (v : Word)      -- half a survivor register (R116)
  | mem (m : FMem) (a : Nat) (v : Word)          -- memory word
  | stat (b : Nat)                               -- FAC_STAT bit
  | frame (i : Nat) (f : Frame)                  -- loop frame i = 2 × set + level
deriving DecidableEq, Repr

/-- An operation in flight: how many bundle boundaries remain before it lands. -/
structure Flight where
  left : Nat
  eff  : Eff
deriving DecidableEq, Repr

/-- The sequencer operation of a bundle (R122). -/
inductive SeqOp where
  | none | halt | yield | resume | rotclr
deriving DecidableEq, Repr

/-- The kind of a shared-bank access (R117). -/
inductive SbKind where
  | ld | st | addW | addS | swap
deriving DecidableEq, Repr

/-- A shared-bank access for which a Facet stalls, and what its bundle still has to do when the stall ends. -/
structure SbReq where
  kind : SbKind
  addr : Nat
  data : Word
  dst  : Nat
  seq  : SeqOp
deriving DecidableEq, Repr

/-- A tick-armed write of one X word (R251). -/
structure TickWrite where
  tick : Nat
  addr : Nat
  val  : Word
deriving DecidableEq, Repr

/-- The register files and issue state of a Facet (R73, R82, R150, R160). -/
structure Uzor where
  d      : Memory Word
  a      : Memory (BitVec 80)
  sp     : Memory (BitVec 16)
  pf     : BitVec 8
  sv     : Memory (BitVec 64)
  pc     : Nat
  frames : Memory Frame
  flight : List Flight
deriving DecidableEq, Repr

/-- The memories of a Facet (R66): two program banks held as bundle quarters, X, Y and Z, and their bad words. -/
structure FacMem where
  p0  : Memory Word
  p1  : Memory Word
  x   : Memory Word
  y   : Memory Word
  z   : Memory Word
  bad : List Upset
deriving DecidableEq, Repr

/-- The FAC_ register block (R100); the 64-bit tick registers are whole. -/
structure FacRegs where
  ctl       : Word
  vec       : Word
  startTick : Nat
  swapTick  : Nat
  pstub     : Word
  rstub     : Word
  glist     : Word
  plist     : Word
  glistNext : Word
  plistNext : Word
  stat      : Word
  cycLast   : Nat
  cycMax    : Nat
  eccAddr   : Word
  sbwin     : Word
deriving DecidableEq, Repr

/-- FAC_PC.STATE (R100), in the order of its codes 0 to 7. -/
inductive FacPhase where
  | idle | gather | sample | post | background | stub | waiting | stopped
deriving DecidableEq, Repr

/-- A delay line's geometry and Z state (R139, R141, R144): its delay, in Y memory its buffer of `len` words at `base` and write
position `w`, in DRAM the rings; fill count `h` and `k`, its samples in place when `h` was last 0. -/
structure LineGeo where
  d     : Nat
  dram  : Bool
  base  : Nat
  len   : Nat
  w     : Nat
  wring : Nat
  rring : Nat
  h     : Nat
  k     : Nat
deriving DecidableEq, Repr

/-- A delay line of a Facet (R139 to R149): the Y words of its input and output, its geometry, a tap move under way (new delay,
its tick, crossfade length), the tick at which a dip starts and the geometry that comes in force 32 periods later. -/
structure DLine where
  id   : Nat
  inp  : Nat
  out  : Nat
  g    : LineGeo
  move : Option (Nat × Nat × Nat)
  dip  : Option Nat
  next : Option LineGeo
deriving DecidableEq, Repr

/-- One Facet. `lines` is what the delay-line kernel keeps in Z memory: its words are not documented (DESIGN CHOICE). `rep` holds the FAC_STAT bits whose reports the current step sends, with the quiet flag of each. -/
structure Facet where
  u          : Uzor
  m          : FacMem
  r          : FacRegs
  st         : FacPhase
  savedPc    : Nat
  savedValid : Bool
  resumed    : Bool                       -- RESUME has issued since the branch to FAC_RSTUB (R168)
  stub       : Nat                        -- stub bundles issued (R164)
  stall      : Option SbReq
  preempt    : Option Bool                -- a tick waits for the stall to end, with RELEASE as it stood then (R95, R162)
  swapDue    : Bool                       -- a bank swap waits for YIELD (R165)
  cache      : Option (Nat × Nat × Nat)   -- loop cache: first, END, first index not yet filled (R154)
  tickWrites : List TickWrite
  lines      : List DLine                 -- the Z state of the delay-line kernel
  rep        : List (Nat × Bool)
deriving DecidableEq, Repr

/-- What an unlisted frame reads as: inactive. -/
def Frame.off : Frame := ⟨0, 0, false, false⟩

/-- A Facet at power-up: every register, memory word and FAC_ register 0 (R73, R100, R279). -/
def Facet.reset : Facet where
  u := { d := [], a := [], sp := [], pf := 1, sv := [], pc := 0, frames := [], flight := [] }
  m := { p0 := [], p1 := [], x := [], y := [], z := [], bad := [] }
  r := { ctl := 0, vec := 0, startTick := 0, swapTick := 0, pstub := 0, rstub := 0, glist := 0, plist := 0,
         glistNext := 0, plistNext := 0, stat := 0, cycLast := 0, cycMax := 0, eccAddr := 0, sbwin := 0 }
  st := .idle
  savedPc := 0
  savedValid := false
  resumed := false
  stub := 0
  stall := none
  preempt := none
  swapDue := false
  cache := none
  tickWrites := []
  lines := []
  rep := []

end Sys2Proof.Machine
end

