-- ==== Sys2Proof/Machine/Flags.lean ====
section
/-!
DEFINITION. Writebacks, saturation, rounding, comparison conditions and status bits of the Facet
(R77, R78, R79, R99, R112, R114).
-/

namespace Sys2Proof.Machine

/-- R77: the 80-bit writeback of an exact result; the flag says that saturation changed it. -/
def wb80 (v : Int) (s : Bool) : BitVec 80 × Bool :=
  if s then (BitVec.ofInt 80 (satN 80 v), overN 80 v) else (BitVec.ofInt 80 v, false)

/-- R78: the 32-bit writeback of an exact result. -/
def wb32 (v : Int) (s : Bool) : Word × Bool :=
  if s then (BitVec.ofInt 32 (satN 32 v), overN 32 v) else (BitVec.ofInt 32 v, false)

/-- R79: an accumulator value with 28 fraction bits, truncated or rounded to nearest even. -/
def roundAcc (v : Int) (even : Bool) : Int :=
  let q := v / (2 ^ 28 : Nat)
  let r := v % (2 ^ 28 : Nat)
  if even then
    if r > (2 ^ 27 : Nat) || (r == (2 ^ 27 : Nat) && q % 2 == 1) then q + 1 else q
  else q

/-- R114: the comparison that SUB selects. -/
def cond (sub : Nat) (a b : Word) : Bool :=
  match sub with
  | 0 => a == b
  | 1 => a != b
  | 2 => a.slt b
  | 3 => !a.slt b
  | 4 => a.sle b
  | 5 => !a.sle b
  | 6 => a.ult b
  | _ => !a.ult b

/-- R114: the PLOG function that SUB selects. -/
def plogic (sub : Nat) (a b : Bool) : Bool :=
  match sub with
  | 0 => a && b
  | 1 => a || b
  | 2 => xor a b
  | 3 => a && !b
  | _ => !a

/-- R112: NORM, the count of bits below bit 31 that equal bit 31, before the first that differs. -/
def normCount (w : Word) : Nat :=
  let s := w.getLsbD 31
  ((List.range 31).takeWhile fun i => w.getLsbD (30 - i) == s).length

/-- FAC_STAT bits (R100). -/
def facSat : Nat := 0
def facCircOob : Nat := 1
def facMemRange : Nat := 2
def facAlign : Nat := 3
def facIllegal : Nat := 4
def facEccCe : Nat := 5
def facEccUe : Nat := 6
def facTickOverrun : Nat := 7
def facActWr : Nat := 8
def facStubLong : Nat := 9

/-- R99: set a FAC_STAT bit. SAT sends nothing; ECC_CE sends a record every time; any other bit sends a record when it
changes from 0 to 1 and is only counted when it recurs. -/
def Facet.setStat (f : Facet) (b : Nat) : Facet :=
  let was := f.r.stat.flag b
  let r := { f.r with stat := f.r.stat ||| Word.one b }
  if b = facSat then { f with r := r }
  else { f with r := r, rep := f.rep ++ [(b, was && b != facEccCe)] }

end Sys2Proof.Machine
end

