-- ==== Sys2Proof/Machine/Operands.lean ====
section
/-!
DEFINITION. The operand forms of the Facet: register reads with renaming, groups, special registers, the four address
modes, local-memory words with their error correction, and the fields of a bundle
(R67, R68, R97, R98, R102, R104, R111, R116, R119, R121, R129 to R136, R156).
-/

namespace Sys2Proof.Machine

/-- What an unlisted word of a RAM reads as (R279). -/
def zeroW : Nat → Word := fun _ => 0

/-- R156: the physical register that logical register `k` names. -/
def Uzor.phys (u : Uzor) (k : Nat) : Nat :=
  if k < 32 then k else 32 + (k - 32 + (Memory.get (fun _ => 0) u.sp 0x2A : BitVec 16).toNat) % 32

/-- Logical D register `k`, read at issue (R83, R104). -/
def Uzor.rd (u : Uzor) (k : Nat) : Word := Memory.get zeroW u.d (u.phys k)

/-- Accumulator `k`. -/
def Uzor.ra (u : Uzor) (k : Nat) : BitVec 80 := Memory.get (fun _ => 0) u.a k

/-- Pointer, offset, base, length, LC0, LC1 or ROTB, by SREG code (R116). -/
def Uzor.rsp (u : Uzor) (k : Nat) : BitVec 16 := Memory.get (fun _ => 0) u.sp k

/-- Survivor register `k`. -/
def Uzor.rsv (u : Uzor) (k : Nat) : BitVec 64 := Memory.get (fun _ => 0) u.sv k

/-- Predicate flag `k`; PF0 reads 1 (R73). -/
def Uzor.rpf (u : Uzor) (k : Nat) : Bool := k == 0 || u.pf.getLsbD k

/-- Loop frame `i` = 2 × set + level. -/
def Uzor.frame (u : Uzor) (i : Nat) : Frame := Memory.get (fun _ => Frame.off) u.frames i

/-- SREG codes of a mover's pointer, offset, base and length files (R116, R129). -/
def spP : FMem → Nat → Nat
  | .x, n => n
  | .y, n => 0x04 + n
  | .z, n => 0x08 + n
def spM : FMem → Nat → Nat
  | .x, n => 0x0C + n
  | .y, n => 0x10 + n
  | .z, n => 0x14 + n
def spB : FMem → Nat → Nat
  | .x, n => 0x20 + n
  | .y, n => 0x18 + n
  | .z, n => 0x24 + n
def spL : FMem → Nat → Nat
  | .x, n => 0x22 + n
  | .y, n => 0x1C + n
  | .z, n => 0x26 + n
def spLC (n : Nat) : Nat := 0x28 + n
def spROTB : Nat := 0x2A

/-- Words of a data memory (R66). -/
def FMem.size : FMem → Nat
  | .x => 16384
  | .y => 32768
  | .z => 16384

/-- The name of a data memory among the memories with check bits. -/
def FMem.ecc : FMem → EccMem
  | .x => .facX
  | .y => .facY
  | .z => .facZ

/-- FAC_ECC_ADDR.MEM of a data memory. -/
def FMem.code : FMem → Nat
  | .x => 1
  | .y => 2
  | .z => 3

/-- The stored words of a data memory. -/
def FacMem.of (m : FacMem) : FMem → Memory Word
  | .x => m.x
  | .y => m.y
  | .z => m.z

/-- The first mark on a word: `some ue`. -/
def markOf (bad : List Upset) (mem : EccMem) (i : Nat) : Option Bool :=
  (bad.find? fun u => u.mem == mem && u.idx == i).map (·.ue)

/-- The marks without those on one word. -/
def unmark (bad : List Upset) (mem : EccMem) (i : Nat) : List Upset :=
  bad.filter fun u => !(u.mem == mem && u.idx == i)

/-- Add disturbances: an uncorrectable mark replaces a correctable one on the same word, and a second correctable one
adds nothing. -/
def addUpsets (bad : List Upset) (ups : List Upset) : List Upset :=
  ups.foldl (fun b u =>
    match markOf b u.mem u.idx with
    | some true => b
    | some false => if u.ue then unmark b u.mem u.idx ++ [u] else b
    | none => b ++ [u]) bad

/-- A whole-word write: the value is stored and any error in the word is gone (R97). -/
def Facet.write (f : Facet) (m : FMem) (a : Nat) (v : Word) : Facet :=
  let mm := { f.m with bad := unmark f.m.bad m.ecc a }
  { f with m := match m with
    | .x => { mm with x := Memory.set zeroW mm.x a v }
    | .y => { mm with y := Memory.set zeroW mm.y a v }
    | .z => { mm with z := Memory.set zeroW mm.z a v } }

/-- Record an uncorrectable error: FAC_STAT.ECC_UE, and its location unless FAC_ECC_ADDR already holds one (R98). -/
def Facet.noteUe (f : Facet) (addr : Word) : Facet :=
  let f' := if f.r.stat.flag facEccUe then f else { f with r := { f.r with eccAddr := addr } }
  f'.setStat facEccUe

/-- FAC_ECC_ADDR for a data-memory word. -/
def eccAddrOf (m : FMem) (a : Nat) : Word := BitVec.ofNat 32 (m.code <<< 30 + a % 2 ^ 15)

/-- Read one word of a data memory with its error correction: `none` when uncorrectable (R97, R98). -/
def Facet.readEcc (f : Facet) (m : FMem) (a : Nat) : Facet × Option Word :=
  match markOf f.m.bad m.ecc a with
  | none => (f, some (Memory.get zeroW (f.m.of m) a))
  | some false => (f.setStat facEccCe, some (Memory.get zeroW (f.m.of m) a))
  | some true => (f.noteUe (eccAddrOf m a), none)

/-- R67: the aligned address of a `w`-word access. -/
def alignTo (w a : Nat) : Nat := a - a % w

/-- R67, R68, R98: the words a load of `w` words from address `a` returns. -/
def Facet.load (f : Facet) (m : FMem) (w a : Nat) : Facet × List Word :=
  let f := if a % w = 0 then f else f.setStat facAlign
  let b := alignTo w a
  if b < m.size then
    (List.range w).foldl (fun (s : Facet × List Word) i =>
      let r := s.1.readEcc m (b + i)
      (r.1, s.2 ++ [r.2.getD 0])) (f, [])
  else (f.setStat facMemRange, List.replicate w 0)

/-- R67, R68: the (address, value) pairs that a store of the words `vs` to address `a` commits. -/
def Facet.storeTo (f : Facet) (m : FMem) (a : Nat) (vs : List Word) : Facet × List (Nat × Word) :=
  let w := vs.length
  let f := if a % w = 0 then f else f.setStat facAlign
  let b := alignTo w a
  if b < m.size then (f, (List.range w).zip vs |>.map fun p => (b + p.1, p.2))
  else (f.setStat facMemRange, [])

/-- R133: circular post-modification; the flag is CIRC_OOB. -/
def circNext (p b l : Nat) (m : Int) : Nat × Bool :=
  let t : Int := p - b + m
  let t : Int := if t ≥ l then t - l else if t < 0 then t + l else t
  if t < 0 || t ≥ l then (b, true) else ((b + t.toNat) % 65536, false)

/-- R121, R131, R133: access address, next pointer (`none`: unchanged) and CIRC_OOB of an address mode. -/
def Uzor.addr (u : Uzor) (m : FMem) (am p mi : Nat) : Nat × Option Nat × Bool :=
  let pv := (u.rsp (spP m p)).toNat
  let mv := (u.rsp (spM m mi)).toInt
  match am with
  | 0 => (pv, none, false)
  | 1 => (pv, some (wrapN 16 (pv + mv)), false)
  | 2 =>
    let c := circNext pv (u.rsp (spB m p)).toNat (u.rsp (spL m p)).toNat mv
    (pv, some c.1, c.2)
  | _ => (wrapN 16 (pv + mv), none, false)

/-- The six slots of a bundle, as numbers (R102). -/
structure Slots where
  mac : Nat
  alu : Nat
  x   : Nat
  y   : Nat
  z   : Nat
  seq : Nat
deriving DecidableEq, Repr

/-- R102: the slots of a 128-bit bundle. -/
def slotsOf (b : Nat) : Slots where
  mac := fld b 88 40
  alu := fld b 60 28
  x := fld b 44 16
  y := fld b 28 16
  z := fld b 12 16
  seq := fld b 0 12

/-- MAC slot fields (R107). -/
def macOp (w : Nat) : Nat := fld w 36 4
def macS (w : Nat) : Bool := bit w 35
def macG (w : Nat) : Bool := bit w 34
def macQ (w : Nat) : Bool := bit w 33
def macCmb (w : Nat) : Nat := fld w 31 2
def macAcc (w : Nat) : Nat := fld w 28 3
def macRa (w : Nat) : Nat := fld w 22 6
def macRb (w : Nat) : Nat := fld w 16 6

/-- ALU/ACS slot fields (R111). -/
def aluOp (w : Nat) : Nat := fld w 23 5
def aluS (w : Nat) : Bool := bit w 22
def aluG (w : Nat) : Bool := bit w 21
def aluDst (w : Nat) : Nat := fld w 15 6
def aluA (w : Nat) : Nat := fld w 9 6
def aluB (w : Nat) : Nat := fld w 3 6
def aluSub (w : Nat) : Nat := fld w 0 3
def aluImm9 (w : Nat) : Nat := fld w 0 9
def aluImm16 (w : Nat) : Nat := (if bit w 22 then 2 ^ 15 else 0) + fld w 0 15
def aluSreg (w : Nat) : Nat := fld w 8 7
def loopN (w : Nat) : Nat := fld w 23 1
def loopEnd (w : Nat) : Nat := fld w 11 12
def loopRot (w : Nat) : Bool := bit w 10
def loopCount (w : Nat) : Nat := fld w 0 10

/-- Mover slot fields (R119). -/
def mvOp (w : Nat) : Nat := fld w 13 3
def mvG (w : Nat) : Bool := bit w 12
def mvP (w : Nat) : Nat := fld w 10 2
def mvM (w : Nat) : Nat := fld w 8 2
def mvD (w : Nat) : Nat := fld w 2 6
def mvAm (w : Nat) : Nat := fld w 0 2

/-- Sequencer slot fields (R122). -/
def seqPsel (w : Nat) : Nat := fld w 9 3
def seqPinv (w : Nat) : Bool := bit w 8
def seqSop (w : Nat) : Nat := fld w 4 4

/-- R116: the value MVS reads from a special register; `none` where the code is illegal. -/
def Uzor.mvs (u : Uzor) (k : Nat) : Option Word :=
  if k ≤ 0x2A then
    some (if 0x0C ≤ k && k ≤ 0x17 then (u.rsp k).signExtend 32 else (u.rsp k).zeroExtend 32)
  else if k = 0x2B then some ((u.pf ||| 1).zeroExtend 32)
  else if 0x30 ≤ k && k ≤ 0x37 then
    let v := u.rsv ((k - 0x30) / 2)
    some (if k % 2 = 0 then v.extractLsb' 0 32 else v.extractLsb' 32 32)
  else if 0x40 ≤ k && k < 0x60 then
    let v := u.ra ((k - 0x40) / 4)
    match (k - 0x40) % 4 with
    | 0 => some (v.extractLsb' 0 32)
    | 1 => some (v.extractLsb' 32 32)
    | 2 => some ((v.extractLsb' 64 16).signExtend 32)
    | _ => none
  else none

/-- R116: what MVD lands in a special register; `none` where the code is illegal. -/
def mvdEff (k : Nat) (v : Word) : Option Eff :=
  if k < 0x2A then some (.sp k (v.extractLsb' 0 16))
  else if k = 0x2A then some (.sp k ((v.extractLsb' 0 5).zeroExtend 16))
  else if k = 0x2B then some (.pfAll (v.extractLsb' 0 8))
  else if 0x30 ≤ k && k ≤ 0x37 then some (.svHalf ((k - 0x30) / 2) (k % 2 == 1) v)
  else none

end Sys2Proof.Machine
end

