-- ==== Sys2Proof/Machine/Fade.lean ====
section
/-!
DEFINITION. The gain laws shared by serial ports, taps, Links and stream contexts: fade-out, ramp-back, fade-in after a
gap, the sample conversions of the ports, and the blend of a sink reader (R147, R247, R248, R336, R342, R363, R368, R518).
-/

namespace Sys2Proof.Machine

/-- R518: the product of a sample and an exact Q4.28 gain code, rounded to nearest even. -/
def gainMul (x : Word) (code : Nat) : Word := wordI (roundAcc (x.toInt * (code : Int)) true)

/-- Phase of the laws of R368. `fadeOut j` and `rampBack j` count the periods delivered so far. -/
inductive FadePhase where
  | live | fadeOut (j : Nat) | muted | rampBack (j : Nat)
deriving DecidableEq, Repr

/-- The state of a fade over the channels of one producer. -/
structure Fade where
  phase : FadePhase
  held  : List Word      -- the values last delivered
  base  : List Word      -- the values from which the running fade-out starts
  due   : Bool           -- a recovery met during the fade-out starts a ramp-back after it (R370)
deriving DecidableEq, Repr

def Fade.reset : Fade where
  phase := .muted
  held := []
  base := []
  due := false

/-- The law of R368 for one channel: `v` the value a fade-out starts from, `x` the live value. -/
def FadePhase.gain (p : FadePhase) (v x : Word) : Word :=
  match p with
  | .live => x
  | .fadeOut j => if j ≤ 63 then gainMul v ((63 - j) * 2 ^ 22) else 0
  | .muted => 0
  | .rampBack j => if j < 512 then gainMul x ((j + 1) * 2 ^ 19) else x

/-- One period later; an ended fade stays at its end until the end event (R368). -/
def FadePhase.next : FadePhase → FadePhase
  | .fadeOut j => .fadeOut (min 64 (j + 1))
  | .rampBack j => .rampBack (min 512 (j + 1))
  | p => p

/-- The values delivered in this period for live values `xs`, and the fade after it. -/
def Fade.deliver (f : Fade) (xs : List Word) : List Word × Fade :=
  let ys := (List.range xs.length).map fun i => f.phase.gain (f.base.getD i 0) (xs.getD i 0)
  (ys, { f with phase := f.phase.next, held := ys })

/-- A new fade-out from the values last delivered (R368, R370). -/
def Fade.start (f : Fade) : Fade := { f with phase := .fadeOut 0, base := f.held, due := false }

/-- R370: a recovery: after a running fade-out, or at once when muted. -/
def Fade.recover (f : Fade) : Fade :=
  match f.phase with
  | .fadeOut _ => { f with due := true }
  | .muted => { f with phase := .rampBack 0 }
  | _ => f

/-- A fade-out ends: muted, or the pending ramp-back begins. -/
def Fade.endOut (f : Fade) : Fade :=
  match f.phase with
  | .fadeOut j => if j < 64 then f else { f with phase := if f.due then .rampBack 0 else .muted, due := false }
  | _ => f

/-- A ramp-back ends: live values. -/
def Fade.endBack (f : Fade) : Fade :=
  match f.phase with
  | .rampBack j => if j < 512 then f else { f with phase := .live }
  | _ => f

/-- Both ends as soon as they are reached, for producers without an end event of their own. -/
def Fade.settle (f : Fade) : Fade := f.endOut.endBack

/-- Whether a fade is in progress. -/
def Fade.busy (f : Fade) : Bool :=
  match f.phase with
  | .fadeOut j => j < 64
  | .rampBack j => j < 512
  | _ => false

/-- R342: the fade-in over 32 samples after a gap; `j` counts the samples faded, 32 when none is due. -/
def fadeIn32 (j : Nat) (x : Word) : Word := if j < 32 then gainMul x ((j + 1) * 2 ^ 23) else x

/-- `i / 2^k` rounded to nearest even. -/
def rneShift (k : Nat) (i : Int) : Int :=
  let q := i / (2 ^ k : Nat)
  let r := i % (2 ^ k : Nat)
  if 2 * r > (2 ^ k : Nat) || (2 * r == (2 ^ k : Nat) && q % 2 == 1) then q + 1 else q

/-- R336, R363: a Q4.28 value as a word of `bits` bits, 16 or 24, and whether it was limited. -/
def toPcm (bits : Nat) (x : Word) : Nat × Bool :=
  let v := rneShift (29 - bits) x.toInt
  (wrapN bits (satN bits v), overN bits v)

/-- R336, R363: a word of 16 or 24 bits as Q4.28. -/
def ofPcm (bits w : Nat) : Word := wordI (sext bits w * (2 ^ (29 - bits) : Nat))

/-- R363: a word of a TDM slot of 16, 24 or 32 bits (codes 0 to 2) into the plane. -/
def slotIn (code w : Nat) : Word :=
  match code with
  | 0 => ofPcm 16 w
  | 1 => ofPcm 24 w
  | _ => wordI (sext 32 w / 8)

/-- R363: a Q4.28 value as a word of a TDM slot. -/
def slotOut (code : Nat) (x : Word) : Nat :=
  match code with
  | 0 => (toPcm 16 x).1
  | 1 => (toPcm 24 x).1
  | _ => wrapN 32 (satN 32 (x.toInt * 8))

/-- R247: the blend of old value `a` and new value `b` in period `j` of a crossfade of `x` samples. -/
def blend (a b : Word) (j x : Nat) : Word :=
  if j < x then wordI (a.toInt + ((b.toInt - a.toInt) * ((j + 1 : Nat) : Int)) / (x : Int)) else b

/-- R248: a dip, period `j` from the commit tick: the old value fades out, silence until `f`, the new value fades in. -/
def dip (a b : Word) (j f : Nat) : Word :=
  if j < 32 then gainMul a ((31 - j) * 2 ^ 23)
  else if j < f then 0
  else if j < f + 32 then gainMul b ((j - f + 1) * 2 ^ 23)
  else b

/-- R375: one sample of a record tap in its FORMAT. -/
def tapOut (fmt : Nat) (x : Word) : List Byte :=
  let w := (toPcm 24 x).1
  match fmt with
  | 0 => leBytes 3 w
  | 1 => leBytes 4 (w * 256)
  | 2 => leBytes 4 (wrapN 32 (sext 24 w))
  | _ => leBytes 4 x.toNat

/-- Bytes of one sample of a tap FORMAT. -/
def tapBytes (fmt : Nat) : Nat := if fmt = 0 then 3 else 4

/-- R375: one sample of a play tap. -/
def tapIn (fmt : Nat) (bs : List Byte) : Word :=
  match fmt with
  | 0 => ofPcm 24 (leNat (bs.take 3))
  | 1 => ofPcm 24 (leNat (bs.take 4) / 256)
  | 2 => ofPcm 24 (leNat (bs.take 4) % 2 ^ 24)
  | _ => BitVec.ofNat 32 (leNat (bs.take 4))

end Sys2Proof.Machine
end

