-- ==== Sys2Proof/Machine/Reader.lean ====
section
/-!
DEFINITION. A sink reader: the SIDs that a sink channel reads and the law that leads from the old one to the new one
(R247, R248, R256).
-/

namespace Sys2Proof.Machine

/-- The law in force on a sink channel. Ticks are those of the sink's domain. -/
inductive BlendLaw where
  | direct                      -- the new SID alone
  | fade (c x : Nat)            -- a crossfade of `x` samples from tick `c`; a cut has `x` = 0
  | dip (c f : Nat)             -- a dip from tick `c` with fade-in tick `f`
  | fadeIn (f : Nat)            -- silent until the fade-in tick `f` (R256, R301)
deriving DecidableEq, Repr

/-- A sink channel's reader: old SID `a`, new SID `b`; 0 reads silence. -/
structure Reader where
  a   : Nat
  b   : Nat
  law : BlendLaw
deriving DecidableEq, Repr

/-- What the reader delivers in period `n`, given how it reads a SID. -/
def Reader.value (r : Reader) (n : Nat) (read : Nat → Word) : Word :=
  match r.law with
  | .direct => read r.b
  | .fade c x => if n < c then read r.a else blend (read r.a) (read r.b) (n - c) x
  | .dip c f => if n < c then read r.a else dip (read r.a) (read r.b) (n - c) (f - c)
  | .fadeIn f => if n < f then 0 else fadeIn32 (n - f) (read r.b)

/-- A reader of one SID. -/
def Reader.of (sid : Nat) : Reader := ⟨sid, sid, .direct⟩

end Sys2Proof.Machine
end

