-- ==== Sys2Proof/Machine/SerialState.lean ====
section
/-!
DEFINITION. The state of the serial audio ports (R357 to R378). Ports count TDM0 to TDM15 as 0 to 15, MADI0 to MADI3 as
16 to 19, AESI0 to AESI7 as 20 to 27 and AESO0 to AESO7 as 28 to 35.
-/

namespace Sys2Proof

/-- One received frame of a serial port. `words` are the slots or subframe audio words as on the wire, `count` the BCLK
count (TDM) or the active channels (MADI), `len` the frame period in core cycles. `bad` lists channels with a parity
error, `code` counts 4B5B violations. For AES3, `flags` gives V, U and C of both subframes in this order, and `block`
marks the first frame of a block. `ns` is the PTP instant t_e of R361. -/
structure RxFrame where
  ns    : Nat
  words : List Nat
  count : Nat
  len   : Nat
  bad   : List Nat
  code  : Nat
  flags : List Bool
  block : Bool
deriving DecidableEq, Repr

end Sys2Proof

namespace Sys2Proof.Machine

/-- The kinds of serial port. -/
inductive PortKind where
  | tdm | madi | aesIn | aesOut
deriving DecidableEq, Repr

/-- Kind and instance of port `p`. -/
def portKind (p : Nat) : PortKind :=
  if p < 16 then .tdm else if p < 20 then .madi else if p < 28 then .aesIn else .aesOut
def portInst (p : Nat) : Nat :=
  if p < 16 then p else if p < 20 then p - 16 else if p < 28 then p - 20 else p - 28

/-- Health class of port `p` (R476). -/
def portClass (p : Nat) : Nat :=
  match portKind p with
  | .tdm => 12
  | .madi => 13
  | .aesIn => 21
  | .aesOut => 22

/-- The shadowed settings of a TDM port (R365). `maps` holds RXMAPk at k and TXMAPk at 8 + k. -/
structure TdmCfg where
  fmt    : Word
  rxMask : Word
  txMask : Word
  maps   : Memory Word
deriving DecidableEq, Repr

/-- What an unlisted map register reads as (R376). -/
def mapReset (k : Nat) : Word := BitVec.ofNat 32 (0x03020100 + 0x04040404 * (k % 8))

def TdmCfg.reset : TdmCfg where
  fmt := 0x1601
  rxMask := 0xFFFFFFFF
  txMask := 0xFFFFFFFF
  maps := []

/-- How far a port has come (R366): stopped, waiting for its first frame start after its start point, running. -/
inductive PortRun where
  | off | waiting | running
deriving DecidableEq, Repr

/-- A serial port. Fields that a kind does not have keep their reset value. -/
structure SerPort where
  ctl     : Word
  shadow  : TdmCfg
  armed   : Option TdmCfg
  act     : TdmCfg
  run     : PortRun
  cfgStop : Bool             -- stopped because the format breaks the BCLK limit (R365)
  crcErr  : Bool
  parErr  : Bool
  cfgBad  : Bool
  chg     : Bool
  und     : Bool
  ovr     : Bool
  mis     : Bool
  slip    : Bool
  loss    : Bool
  v       : Bool
  pro     : Bool
  rate    : Nat              -- 0.01 Hz
  rband   : Nat
  repRate : Nat              -- rate at the last report
  applied : Word
  frame   : Word
  phase   : Nat
  queue   : List (List Word) -- input frames by logical channel, oldest first
  first   : Option Nat       -- start on the wire of the first frame, PTP ns, until PHASE is latched (R361)
  gap     : Bool             -- a period without a frame, not yet told a loss from an underrun (R369)
  fade    : Fade             -- of the values written into the plane
  outFade : Fade             -- of the values emitted (R370)
  refLen  : Nat              -- frame period that the 0.5 % test compares with
  stable  : Nat              -- consecutive stable frames while lost
  await   : Bool             -- waits for the loss recovery condition after RESTART (R369)
  last    : List Nat         -- last audio word of each channel, for the parity repeat
  vuc     : List Bool        -- V, U, C of both subframes of the last AES3 frame
  csBits  : List Bool        -- channel status of the block being received, channel A
  rxcs    : List Word
  rxch    : Nat
  code    : Nat
  parity  : Nat
  txcs    : Memory Word
  blkPos  : Nat              -- position in the 192-frame block being sent
  next    : List Word        -- output samples read for the frame that starts at the next tick
  outQ    : List (List Word) -- output queue of a slave in step with a domain, or on an own clock (R361, R385)
  outGap  : Bool             -- the last frame found that queue empty
  inSids  : List (Nat × Nat)    -- (logical channel, SID) written by the input
  outs    : List (Nat × Reader) -- (logical channel, reader) of the output
  vucFrom : Option (Nat × Nat) -- receive context and pair that feed an AES3 output directly (R337)
deriving DecidableEq, Repr

/-- What an unlisted AES_OUT_n_TXCSk reads as (R377). -/
def txcsReset (k : Nat) : Word := if k = 0 then 1 else 0

/-- The CTL register of port `p` at reset. -/
def portCtlReset (p : Nat) : Word :=
  match portKind p with
  | .madi => 0x200
  | .aesOut => 0x20000
  | _ => 0

/-- Port `p` at reset (R376, R377). -/
def SerPort.reset (p : Nat) : SerPort where
  ctl := portCtlReset p
  shadow := TdmCfg.reset
  armed := none
  act := TdmCfg.reset
  run := .off
  cfgStop := false
  crcErr := false
  parErr := false
  cfgBad := false
  chg := false
  und := false
  ovr := false
  mis := false
  slip := false
  loss := false
  v := false
  pro := false
  rate := 0
  rband := 0
  repRate := 0
  applied := 0
  frame := 0
  phase := 0
  queue := []
  first := none
  gap := false
  fade := Fade.reset
  outFade := Fade.reset
  refLen := 0
  stable := 0
  await := false
  last := []
  vuc := []
  csBits := []
  rxcs := []
  rxch := 0
  code := 0
  parity := 0
  txcs := []
  blkPos := 0
  next := []
  outQ := []
  outGap := false
  inSids := []
  outs := []
  vucFrom := none

/-- The serial ports with their common start event (R366). `edge` holds the PTP ns of an AUD_START edge that waits for
its tick. -/
structure Serial where
  ports   : Memory SerPort
  start   : Word
  startLo : Word
  startHi : Word
  cap     : Word
  edge    : Option Nat
  rep     : List (Nat × Nat × Bool)  -- port, cause, CLEAR: reports of the step
deriving DecidableEq, Repr

def Serial.reset : Serial where
  ports := []
  start := 0
  startLo := 0
  startHi := 0
  cap := 0
  edge := none
  rep := []

end Sys2Proof.Machine
end

