-- ==== Sys2Proof/Syntax.lean ====
section
/-!
DEFINITION. The commands of the block: one constructor per row of the spec's table of operations and events, with the
operands that the row's step takes from outside the device's state.

Readers are 0 to 3 PF0 to PF3, 4 and 5 SPIT0 and SPIT1, 6 the Setter. Serial ports count TDM0 to TDM15, MADI0 to MADI3,
AESI0 to AESI7, AESO0 to AESO7 as 0 to 35.
-/

namespace Sys2Proof

open Sys2Proof.Machine (DramReq)

/-- A command: an operation of a host or a pin, or an event of the device's engines. -/
inductive Instr where
  /-- R422: Power-on reset after the last required rail becomes valid starts the start-up timeline. -/
  | por
  /-- R423: The early-block reader finishes reading both Keepsake early-block copies from flash. `answers`: the flash device
  answers. -/
  | earlyBlockReadDone (answers : Bool)
  /-- R426: At 1.5 ms the valid early-block copy is chosen, its clock plan and pin configuration are applied and the
  lifeline PLL starts. -/
  | earlyBlockSelect
  /-- R424: The core PLL has not locked 10 ms after POR release, so BOOT_ERR_N and FAULT_N are driven low and SC0 is held.
  `edges`: CREF shows edges. -/
  | corePllStartTimeout (edges : Bool)
  /-- R298: The core PLL achieves lock after POR release or after CREF returns. -/
  | corePllLock
  /-- R424: S0 starts on SC0 once the core PLL has locked, or has held lock for 1 ms after a late lock. `sfdp`: read opcode,
  dummy cycles and MHz of the flash device's SFDP, none where it is unusable; `low`: VDDIO_C is 1.8 V. -/
  | s0Start (sfdp : Option (Nat × Nat × Nat)) (low : Bool)
  /-- R444: An accepted stage 1 takes control, trains DRAM, loads stage 2 and derives the device key. `faulty`: the banks,
  128 for the spare, that fail the bank test. -/
  | s1Start (faulty : List Nat)
  /-- R287: Training of both DRAM channels completes or fails. `ok`: every step of training passed; the fields of DRAM_CFGA
  and DRAM_CFGB. -/
  | dramTrainingDone (ok : Bool) (densA ranksA densB ranksB : Nat)
  /-- R288: Zero-initialisation of the usable DRAM regions completes. -/
  | dramInitDone
  /-- R444: Stage 2 takes control as the Setter firmware, checks the ledger and restores policy. -/
  | s2Start
  /-- R445: S2 writes a release bit so that SC1 to SC3 or the time core start at their vectors. -/
  | bootRelWrite (val : Word)
  /-- R422: BOOTSTAT reaches 0x8 and full service begins, with the Setter accepting transactions. -/
  | fullService
  /-- R470: A write of PWR_PADREL.RELEASED lets the latched pads take their configured states. -/
  | padRelease
  /-- R514: RESET_N held low resets everything except the AON domain and the Clasp, and its rise restarts boot from S0. -/
  | resetN
  /-- R452: MNT_RXD held low for 100 ms from POR release enters the recovery loader. -/
  | recoveryPinHold
  /-- R452: At least 8 bytes of 0x55 set the recovery loader's baud rate to the measured rate. -/
  | recoveryBaudDetect (baud : Nat)
  /-- R452: A recovery HELLO frame is answered with STATUS. -/
  | hello (frame : List Byte)
  /-- R452: A recovery DATA frame delivers image bytes at contiguous ascending offsets. -/
  | data (frame : List Byte)
  /-- R452: A recovery GO frame verifies the loaded recovery stage 1 and runs it as S1, or answers CODE 3. -/
  | go (frame : List Byte)
  /-- R456: A TAMPER_N pulse, voltage glitch or clock glitch wipes and locks the Locket and raises a TAMPER record. `src`: 1
  TAMPER_N, 2 voltage glitch, 3 clock glitch. -/
  | tamperEvent (src : Nat)
  /-- R277: The Locket clear completes, ending the lock for wipes other than tamper. -/
  | locketClearDone
  /-- R456: TAMPER_N has been high for 10 ms, so the Locket lock ends and the Setter re-derives the device key. -/
  | locketLockEnd
  /-- R276: A requester accesses the Locket, and accesses other than by Setter cores are refused. -/
  | locketAccess (who : Requester) (word : Nat) (wr : Option Word)
  /-- R31: A tick of a rate domain reaches the core clock and opens a new sample period. `ns`: the tick's PTP instant; `e`:
  the phase error in ns; `late`: how far Facets still posting and tiles still accumulating had come, by Facet (posts
  arrived), 64 + tile (sinks arrived) and 96 + tile (sinks completed). -/
  | domainTick (k ns : Nat) (e : Int) (late : List (Nat × Nat))
  /-- R19: A Setter core access over the control fabric reaches a unit memory or register. -/
  | controlFabricAccess (core addr : Nat) (wr : Option Word)
  /-- R88: The gather engine finishes copying the gather list into Y memory and the sample program begins at FAC_VEC. -/
  | facetGatherDone (facet : Nat)
  /-- R82: The Facet issues one bundle whose six slots execute together. -/
  | bundleIssue (facet : Nat)
  /-- R82: An operation in flight lands its result after its latency. -/
  | operationLanding (facet : Nat)
  /-- R262: The bank completes a Facet's shared-bank access in its window and the Facet resumes issue. -/
  | sharedBankStallEnd (facet : Nat)
  /-- R152: A loop counter runs out at its END and the frame becomes inactive. -/
  | loopExit (facet : Nat)
  /-- R89: The post engine issues its last plane write and the period's sample work completes. `cyc`: core cycles since the
  tick. -/
  | facetPostDone (facet cyc : Nat)
  /-- R188: A tile finishes accumulating its sinks and writes single-tile results and cross-tile partial sums. `cyc`: core
  cycles since the tick. -/
  | tileAccumulationDone (tile cyc : Nat)
  /-- R192: A write of FIL_UPD_D pushes the staged gain change into the tile's update queue. -/
  | updatePush (tile : Nat) (apply : Word)
  /-- R194: A pending gain item's zero-crossing timeout expires and its 32-period ramp begins. -/
  | gainTimeout (tile : Nat)
  /-- R194: A gain ramp reaches its target and the update slot is freed. -/
  | gainRampDone (tile : Nat)
  /-- R259: A requester's access starts at a shared bank under the priority and pacer rules. `arrive`: accesses newly
  presented. -/
  | bankAccess (bank cycle : Nat) (arrive : List BankReq) (ups : List Upset)
  /-- R260: An atomic or partial write completes at the bank at the end of the next cycle. -/
  | atomicComplete (bank : Nat)
  /-- R264: A bank's pacer releases a held access of classes 2, 4 or 5. -/
  | pacerRelease (bank cycle : Nat)
  /-- R268: The scrubber reads the next word of its periodic pass. -/
  | scrubRead (ups : List Upset)
  /-- R269: INTERVAL_S after the last lending, the BIST engine starts copying out the next bank. -/
  | bistLendStart
  /-- R270: The engine moves word k between bank and spare and advances k. -/
  | bistWordMove
  /-- R272: The March test of the lent bank completes and either copy-back starts or the spare replaces the bank. -/
  | marchTestDone (faulty : Bool)
  /-- R273: A Setter core accesses the Exchange RAM through port A. -/
  | xramPortAAccess (core word : Nat) (wr : Option Word)
  /-- R275: A BAR2 or SPI access reaches the Exchange RAM through port B, subject to page ownership. -/
  | xramPortBAccess (b : PortB) (co : Option CoA)
  /-- R278: A host DMA access to the shared banks is checked against its partition's windows. -/
  | hostDmaAccess (pf part addr : Nat) (op : BankOp)
  /-- R286: A requester's DRAM access is served in priority order with inline error correction. -/
  | dramAccess (ch : Nat) (arrive : List DramReq) (ups : List Upset)
  /-- R287: Every 100 ms the controller runs a DQS drift tracking pass. -/
  | dqsTracking (ch : Nat)
  /-- R289: Every 16 ms the controller reads MR4 and raises DRAM_HOT on an excessive rate code. -/
  | mr4Read (ch : Nat) (codes : List Nat)
  /-- R289: The controller issues a per-bank refresh at the requested rate. -/
  | dramRefresh (ch : Nat)
  /-- R291: The DRAM scrubber reads the next codeword of its 24-hour pass. -/
  | dramScrubRead (ups : List Upset)
  /-- R290: The DRAM PLL's detector sees CREF lost and the controllers place both channels in self-refresh. -/
  | dramCrefLoss
  /-- R290: After CREF returns and the DRAM PLL relocks, the controllers exit self-refresh and track DQS. -/
  | dramCrefReturn
  /-- R293: The stream engine writes 16 write-ring words of a DRAM line into DRAM. `q`: periods 16q to 16q + 15. -/
  | streamBurstWrite (line q : Nat)
  /-- R293: The stream engine fetches 16 words of a DRAM line into its read ring. `q`: periods 16q to 16q + 15. -/
  | streamBurstFetch (line q : Nat)
  /-- R145: A read-ring word has not arrived by its deadline, so the engine writes 0, counts LATE and reports. -/
  | streamDeadlineMiss (line n : Nat)
  /-- R299: The core PLL lock detector declares loss of lock and the clocks switch to the rescue oscillator. `cause`: 1 CREF
  lost, 2 frequency error. -/
  | corePllLost (cause : Nat)
  /-- R301: After the core PLL holds lock for 1 ms, the clocks switch back and RESCUE clears. -/
  | rescueExit
  /-- R301: The Setter commits a new epoch for every partition with the same placement after the Rescue condition. `p`: the
  partition. -/
  | rescueRecommit (p : Nat)
  /-- R302: A reference input meets a loss condition and loses qualification. `es`: phase errors of D0 to D2; `mean`: the
  mean DCO word. -/
  | referenceLoss (input : Nat) (es : List Int) (mean : Int)
  /-- R302: A reference stays present for QUAL_MS and becomes qualified. -/
  | referenceQualified (input : Nat) (es : List Int) (freq : Int)
  /-- R303: A write of CLK_MPLL_CTL.SOURCE acts as a loss of the old reference and a return of the new. -/
  | mpllSourceWrite (reader code : Nat) (es : List Int) (freq : Int)
  /-- R304: A write of CLK_MPLL_CTL.ENABLE starts the media PLL and calibrates its word. -/
  | mpllEnableWrite (reader : Nat) (on : Bool) (es : List Int) (freq : Int)
  /-- R313: In DZ4032 mode, 50 ms after ENABLE, PLL_LOCK goes to 1. -/
  | compatLockTimer
  /-- R312: The PLL_LOCKF voltage rises above 1.2 V and PLL_LOCK is set. -/
  | mpllLockSet
  /-- R312: The PLL_LOCKF voltage falls below 0.6 V and PLL_LOCK clears. -/
  | mpllLockClear
  /-- R309: A domain's NCO reaches its tolerance limit, holds there and reports TOL_CLAMP. -/
  | tolClamp (k : Nat)
  /-- R309: The reference's frequency returns within tolerance and the clamped domain makes its own reference return. -/
  | clampExit (k : Nat) (e : Int)
  /-- R316: A slewing domain reaches |e| of at most 1 µs and the normal loop takes over. -/
  | slewDone (k : Nat) (e : Int)
  /-- R317: The 32-period fade-in after a domain step ends. -/
  | stepFadeEnd (k : Nat)
  /-- R315: A write of CLK_Dk_CTL.POLICY takes effect at the domain's next tick. -/
  | policyWrite (reader k code : Nat)
  /-- R318: The STEP_NOW command performs one step of a held domain, or is rejected. -/
  | stepNow (reader k : Nat)
  /-- R318: The SLEW_ANY command starts a slew whatever |e| is, or is rejected. -/
  | slewAny (reader k : Nat)
  /-- R307: The Setter clears RUN and the domain stops, holding its tick count. -/
  | domainStop (k : Nat)
  /-- R308: At tick c + 32 of a rate or tolerance change, the domain restarts at tick 0 with its new rate. -/
  | domainRestart (k : Nat)
  /-- R310: A read of CLK_Dk_TICK_LO latches TICK_HI and the matching timestamp. -/
  | domainTickRead (reader k : Nat)
  /-- R321: A clock output configuration write takes effect at the next falling edge without a runt pulse. `div`: the DIV
  register, else CFG. -/
  | clkoutConfigWrite (reader out : Nat) (div : Bool) (val : Word)
  /-- R322: A qualifying SYNC_IN edge is sampled for output resynchronisation. -/
  | syncInEdge (falling : Bool) (ns : Nat)
  /-- R322: At the first tick at least 100 ns after the edge, selected fractional outputs restart their dividers. -/
  | clkoutResync
  /-- R325: A network port gains link and sends its gratuitous ARP requests. -/
  | linkUp (port : Nat)
  /-- R325: A network port loses link and raises LINK_DOWN. The status bits that the loss leaves set. -/
  | linkDown (port : Nat) (los blk ber : Bool)
  /-- R326: A write of NET_I2C.GO starts a one-byte transfer to a cage memory through the I2C switch. -/
  | i2cTransfer (reader : Nat) (val : Word)
  /-- R326: The I2C transfer completes, GO clears and ERR reports acknowledgement. -/
  | i2cDone (ack : Bool) (data : Nat)
  /-- R327: A network port receives an Ethernet frame and checks and dispatches it. `ns`: arrival; `es` and `freq` serve
  when PTP_OK changes. -/
  | frameReceive (port ns : Nat) (frame : List Byte) (es : List Int) (freq : Int)
  /-- R330: The second gratuitous ARP request is sent 1 s after link up. -/
  | gratuitousArp (port : Nat)
  /-- R330: An ARP cache entry is refreshed after 60 s. -/
  | arpRefresh (port ip : Nat)
  /-- R330: An unanswered ARP request is retried after 1 s. -/
  | arpRetry (port ip : Nat)
  /-- R330: A destination unresolved after 3 s raises ARP_UNRESOLVED. -/
  | arpUnresolved (port ip : Nat)
  /-- R332: The random delay expires and the port sends its IGMP report. -/
  | igmpQueryResponse (port : Nat)
  /-- R332: A further state-change report is sent 1 s after the previous one, up to ROBUST. -/
  | igmpReportRetransmit (port : Nat)
  /-- R343: A 2022-7 leg without link or packets for 1 ms clears its LEG_OK bit. -/
  | legLoss (ctx port ns : Nat)
  /-- R347: A receive context stops being present, raises STREAM_LOSS and releases its SSRC latch. -/
  | streamLoss (ctx ns : Nat)
  /-- R344: A transmit packet leaves at its scheduled departure, or is discarded without link. -/
  | packetDeparture (ctx ns : Nat)
  /-- R350: The announce receipt timeout expires and PTP_OK clears. -/
  | announceTimeout (port : Nat) (es : List Int) (freq : Int)
  /-- R350: No valid Sync exchange for 4 Sync intervals clears PTP_OK. -/
  | syncTimeout (port : Nat) (es : List Int) (freq : Int)
  /-- R352: A leader port sends Announce at its interval. -/
  | ptpAnnounceTx (port ns : Nat)
  /-- R352: A leader port sends Sync and Follow_Up at its interval. -/
  | ptpSyncTx (port ns : Nat)
  /-- R348: A follower port sends Delay_Req at its interval. -/
  | ptpDelayReqTx (port ns : Nat)
  /-- R361: A serial port receives a complete input frame and queues it for the plane. -/
  | portFrameRx (port : Nat) (frame : RxFrame)
  /-- R369: A port input misses frame starts or loses lock, fades out and reports INPUT_LOSS. -/
  | inputLoss (port : Nat)
  /-- R369: After 256 stable frames LOSS clears and a ramp-back starts. -/
  | lossRecovery (port : Nat)
  /-- R368: A 64-period port fade-out ends, and any pending ramp-back begins. -/
  | portFadeOutEnd (port : Nat)
  /-- R368: A 512-period ramp-back ends and the port carries live values. -/
  | portRampBackEnd (port : Nat)
  /-- R367: Every 100 ms a port updates its measured frame rate. Both in 0.01 Hz, measured against the core clock. -/
  | rateUpdate (port rate domRate : Nat)
  /-- R365: A write of TDM_n_CMD.COMMIT arms the shadow format, masks and maps. -/
  | tdmCommit (reader port : Nat)
  /-- R365: At the first frame start at least 4 BCLK after the commit, the port applies the shadow or sets CFG_BAD. -/
  | tdmCommitApply (port : Nat)
  /-- R369: A write of RESTART clears a latched SLIP or MISMATCH. -/
  | portRestart (reader port : Nat)
  /-- R366: A write of TDM_START_CTL.ARM arms the common start event. -/
  | startArm (reader : Nat) (val : Word)
  /-- R366: A rising edge of AUD_START sets the start event to the next tick at least 100 ns later. -/
  | audStartEdge (ns : Nat)
  /-- R381: A synchronous lane exceeds its elastic margin, fades out and re-centres. -/
  | linkSlip (lane : Nat)
  /-- R387: A lane's input is lost or its fill error is too large, so it fades out and acquires. `fill`: a fill error, else
  the input is lost. -/
  | linkUnlock (lane : Nat) (fill : Bool)
  /-- R384: An acquiring lane holds its lock conditions for 20 ms and becomes locked. -/
  | laneLocked (lane : Nat)
  /-- R396: A write of PRT_CLAIM_CTL.START issues a fresh nonce, or reports LOCKOUT. -/
  | claimStart (reader : Nat)
  /-- R396: A write of PRT_CLAIM_CTL.SUBMIT evaluates the MAC and consumes the nonce. -/
  | claimSubmit (reader : Nat)
  /-- R397: The claim outcome is posted, and a success makes the interface the holder or a takeover. -/
  | claimResult (p : Nat)
  /-- R420: A write of PRT_CLAIM_CTL.RELEASE by the holder ends its session. -/
  | claimRelease (reader : Nat)
  /-- R399: A write of PRT_CLAIM_CTL.ENROL wraps and stores P0's key and makes the interface its holder. -/
  | enrol (reader : Nat)
  /-- R399: The enrolment journal write completes with OK or STORE_FAIL. `stored`: the journal write succeeds. -/
  | enrolDone (stored : Bool)
  /-- R396: A claim nonce that is 1 s old becomes invalid. -/
  | nonceExpiry (p : Nat)
  /-- R398: A claim lockout interval ends for an interface. -/
  | lockoutExpiry (reader : Nat)
  /-- R420: A write of PRT_CTL.RESET resets the partition and removes its graph. -/
  | partitionReset (reader : Nat)
  /-- R405: A host writes a submission ring tail, making entries available to the fetch engine. -/
  | sqDoorbell (reader ring val : Nat)
  /-- R409: A host writes a completion ring head, freeing ring space. -/
  | cqDoorbell (reader ring val : Nat)
  /-- R419: A host writes the fault ring head, freeing ring space. -/
  | frDoorbell (reader val : Nat)
  /-- R405: A submission entry's fetch read completes and the entry goes to Setter intake. `entry`: the 64 bytes read from
  host memory; a ring in the Exchange RAM gives its own. `tie`: entries that other partitions' fetches complete in the
  same cycle. -/
  | entryFetched (p : Nat) (entry : List Byte) (tie : List (Nat × List Byte))
  /-- R407: The SUBMIT command reads a Faquin file for the Setter. -/
  | submit
  /-- R408: The RELEASE command removes the partition's whole graph with a fade-out. -/
  | release
  /-- R401: P0 sets a partition's quota for a resource, subject to QUOTA_SUM and QUOTA_IN_USE. -/
  | setQuota
  /-- R401: P0 sets a partition's shedding priority. -/
  | setPriority
  /-- R402: P0 grants a reader partition signal-sharing rights on a SID range. -/
  | grant
  /-- R29: P0 withdraws a grant and the reading path receives silence from the next tick. -/
  | revoke
  /-- R394: P0 maps or unmaps an SPI target to a partition. -/
  | mapSpi
  /-- R275: P0 sets ownership and sharing of Exchange RAM pages. -/
  | setXram
  /-- R400: P0 stores the partition policy in the Keepsake. -/
  | savePolicy
  /-- R408: P0 resets a partition and removes its graph. -/
  | resetPartition
  /-- R451: Start an image update by erasing the slot that did not boot. -/
  | imgBegin
  /-- R451: Write a chunk of image data into the update slot. -/
  | imgData
  /-- R451: Write a Written ledger record and verify the slot to Verified. -/
  | imgFinish
  /-- R451: Clear the new slot's record to Active and retire the booted slot. -/
  | imgActivate
  /-- R453: Blow anti-rollback fuses to the running image's SVN. `votp`: VOTP is present; `readback`: the blown fuses read
  back right. -/
  | rollbackRaise (votp readback : Bool)
  /-- R455: Blow the next life-cycle fuse pair, wipe the Locket and restart from S0. `votp`: VOTP is present; `readback`:
  the blown fuses read back right. -/
  | lcAdvance (votp readback : Bool)
  /-- R457: Write a host setting into the Keepsake journal. -/
  | ksPut
  /-- R457: Delete a host setting from the Keepsake journal. -/
  | ksDel
  /-- R428: Write a new early-block copy into the copy not in use. -/
  | earlyWrite
  /-- R458: Extend HM7 with a host-supplied value. -/
  | hmExtend
  /-- R458: Copy the Hallmark log records to host memory. -/
  | logRead
  /-- R458: Wrap and store a partition key in Keepsake namespace 1. -/
  | keySet
  /-- R464: Request Standby entry now. `wake`: a wake event falls in the same cycle. -/
  | pwrStandby (wake : Bool)
  /-- R464: Request Dormant entry and optionally load the AON timer. `wake`: a wake event falls in the same cycle. -/
  | pwrDormant (wake : Bool)
  /-- R409: A completion entry is written at the CQ tail once the ring has room. -/
  | completionWrite (p : Nat)
  /-- R411: The oldest unconsumed completion reaches COAL_US and the CQ's MSI-X vector fires. -/
  | interruptCoalesceTimeout (p ring : Nat)
  /-- R412: A bus-master read completes, successfully or with an error. `tap`: 0 to 63 a play tap, 64 a read for a command,
  65 a ring fetch; `data`: none for an error. -/
  | dmaReadComplete (p tap : Nat) (data : Option (List Byte))
  /-- R412: A bus-master read times out after 50 ms and fails its requester. `tap`: as for DMA_READ_COMPLETE. -/
  | dmaTimeout (p tap : Nat)
  /-- R420: A Function Level Reset ends the PCIe holder's session of that partition. -/
  | flr (pf : Nat)
  /-- R420: PERST_N resets the endpoint and ends every PCIe holder's session. PERST_N has been low and is high again; the
  link's width and speed. -/
  | perstN (width speed : Nat)
  /-- R415: A completed block is written to host memory, DEVIDX advances and OVR may be set. -/
  | recordTapBlockWrite (p tap : Nat)
  /-- R417: At the end of each metering window the meter writes its record. -/
  | meterWindowEnd (p meter : Nat)
  /-- R496: An SPI read frame returns status, register or Exchange RAM words. `bits`: command bits received; `n`: data words
  read; `co`: port-A accesses that coincide. -/
  | spiReadFrame (target cmd bits n : Nat) (co : List (Option CoA))
  /-- R497: An SPI write frame applies register or Exchange RAM words. Whole data words received. -/
  | spiWriteFrame (target cmd bits : Nat) (words : List Word) (co : List (Option CoA))
  /-- R490: A host write to a register without behaviour of its own is accepted or discarded under the write rules. `bytes`:
  how many bytes the access writes; `chip`: what a Setter core writes to the register in the same cycle; `rivals`: word
  writes of other interfaces at the same offset in the same cycle. -/
  | registerWrite (reader off bytes : Nat) (val : Word) (chip : Option Word) (rivals : List (Nat × Word))
  /-- R233: The Setter starts the next transaction in intake, checks its format and admits or refuses it. -/
  | transactionStart (plan : Plan)
  /-- R241: The Setter finishes writing and arming every affected unit for the commit. `ns`: PTP instants of tick 0 of D0 to
  D2 where they start. -/
  | armingComplete (ns : List Nat)
  /-- R243: After the last commit tick the Setter writes the completion entry and latency report. -/
  | epochCompletion (p : Nat)
  /-- R244: After the release tick the Setter removes old renderings by a further swap. -/
  | removalSwap (p : Nat)
  /-- R248: At tick c + 32 of a dip, units lose old work and gain new work. -/
  | dipSwap (p : Nat)
  /-- R248: At the fade-in tick f the dipped sinks fade in to the new rendering. -/
  | fadeInStart (p : Nat)
  /-- R147: At tick s + 32 of a delay resize the new line geometry is swapped in. -/
  | delayGeometrySwap (p : Nat)
  /-- R253: A smoothing step of kernel words applies at its tick by tick-armed writes. -/
  | smoothStep (p : Nat)
  /-- R256: The health unit retires a unit and the Setter starts a re-placement. `cls` and `unit` name the unit; `plans`:
  the re-placement of each partition. -/
  | unitRetired (cls unit : Nat) (plans : List (Nat × Plan))
  /-- R432: The Clasp copies lifeline routes and adds side-tone for one lifeline frame. `ins`: the frames that arrived, by
  port. -/
  | lifelineFrame (ins : List (Nat × List (List Nat)))
  /-- R430: The lifeline PLL locks to REFIN0 or back to CREF. `refin`: to REFIN0, else back to CREF. -/
  | lifelinePllLock (refin : Bool)
  /-- R435: The lifeline PLL aligns to the covering domain and the port clock moves to the domain. -/
  | lifelineClockMove (port : Nat)
  /-- R463: The device idle timer expires and requests Standby entry. `wake`: a wake event falls in the same cycle. -/
  | idleTimerExpiry (wake : Bool)
  /-- R465: A block answers ready or refuses, and the controller asks the next block or completes entry. -/
  | quiesceAnswer
  /-- R465: A block stays silent for 100 µs and counts as a refusal. -/
  | quiesceTimeout
  /-- R467: A qualifying WAKE_N falling edge wakes the device or aborts an entry. `held`: the pin is still low afterwards. -/
  | wakeNEdge (held : Bool)
  /-- R467: PWR_AON_TIMER reaches 0 and wakes the device. -/
  | aonTimerExpiry
  /-- R462: A unit's idle timer reaches 64 µs and the unit is gated. `kind`: 0 Facet, 1 tile, 2 lane group. -/
  | unitGate (kind unit : Nat)
  /-- R471: AON regulator overload trips brown-out, resets the AON domain and restarts as at POR. -/
  | brownOut
  /-- R506: A required rail stays invalid for 2 µs and the device treats it as Off. `aon`: VDD_AON_IN is among the rails
  lost. -/
  | supplyLoss (aon : Bool)
  /-- R506: A rail leaves its operating range while valid and SUPPLY_LIMIT is raised. -/
  | supplyLimit (rail : Nat)
  /-- R516: Junction temperature crosses the grade maximum or its clear threshold. `temp`: the sensor's code. -/
  | tempLimit (temp : Nat)
  /-- R473: A fault report reaches the health unit, is stamped and is coalesced, suppressed or opens a record. -/
  | reportArrival
  /-- R480: A record's coalescing window elapses and the record is delivered to the global and fault rings. -/
  | recordClose
  /-- R482: A write clearing HLT_STAT.FAULT releases FAULT_N when no C0 state cause remains. -/
  | faultClear (reader : Nat)
  /-- R484: A GPIO level held for the debounce time is accepted. -/
  | gpioAccept (pin : Nat) (level : Bool)
  /-- R486: An input active for STUCK_MS is marked stuck and raises GPIO_STUCK. -/
  | gpioStuck (pin : Nat)
  /-- R485: A write of GPIO_REARM unmasks a chattering input after a further debounce time. -/
  | gpioRearm (reader : Nat) (mask : Nat)
  /-- R517: TRST_N low or five TCK cycles with TMS high reset the TAP. -/
  | jtagReset
  /-- R517: JTAG BYPASS instruction. -/
  | bypass (bits : List Bool)
  /-- R517: JTAG IDCODE instruction returning 0x1806_4A3D. -/
  | idcode (bits : List Bool)
  /-- R517: JTAG SAMPLE/PRELOAD instruction. `pins`: the levels that the boundary cells capture. -/
  | samplePreload (pins bits : List Bool)
  /-- R517: JTAG EXTEST instruction. -/
  | extest (pins bits : List Bool)
  /-- R517: JTAG HIGHZ instruction. -/
  | highz (bits : List Bool)
  /-- R517: JTAG CLAMP instruction. -/
  | clamp (bits : List Bool)
  /-- R517: IEEE 1149.6 EXTEST_PULSE on the NET and PCIe lanes. -/
  | extestPulse (pins bits : List Bool)
  /-- R517: IEEE 1149.6 EXTEST_TRAIN on the NET and PCIe lanes. -/
  | extestTrain (pins bits : List Bool)
  /-- R506: A valid rail returns within its operating range, ending SUPPLY_LIMIT with a CLEAR record and letting the
  guarantee resume. -/
  | supplyExcursionEnd (rail : Nat)
  /-- R412: A PCIe configuration write of a function's Bus Master Enable stops or lets issue that function's DMA, fetches,
  writes and taps. -/
  | busMasterEnable (pf : Nat) (on : Bool)
  /-- R405: A write of SQ_CFG, CQ_CFG or FR_CFG EN enables a ring and sets its phase to 1, or disables it and discards its
  unfetched entries. `kind`: 0 submission, 1 completion, 2 fault ring. -/
  | ringEnWrite (reader kind ring : Nat) (val : Word)
  /-- R413: A write of TAP_CFG.EN lets a tap start at the next tick or stops a running tap. -/
  | tapEnWrite (reader tap : Nat) (val : Word)
  /-- R372: A write of a TDM, MADI or AES3 port's EN enables the port to start at its next tick, or disables it so its
  inputs read 0 and its outputs go idle. -/
  | portEnWrite (reader port : Nat) (val : Word)
  /-- R325: A write of NET_n_CTL.EN drives NETn_TXDIS low or high and enables or disables the network port. -/
  | netPortEnWrite (reader port : Nat) (val : Word)
  /-- R356: A write of PTP_CTL starts or stops PTP with its group join, or changes PROFILE and loads that profile's
  defaults. -/
  | ptpCtlWrite (reader : Nat) (val : Word) (es : List Int) (freq : Int)
  /-- R494: A read of a latching LO register, such as GLB_UPTIME_LO, PTP_TIME_NS or LNK_LANE_RATIO_LO, or of an RC field,
  latches or clears state for the reader. `bytes`: how many bytes the access reads. -/
  | latchingRegisterRead (reader off bytes : Nat)
  /-- R444: S1 loads stage 2 once DRAM_INIT covers stage 2's load area. `mib`: how far initialisation has come in each
  channel. -/
  | dramInitCoversLoadArea (mib : Nat)
  /-- R332: The RFC 3376 older-version querier timer runs out, and the port leaves IGMPv2 compatibility mode and clears
  IGMP_V2. -/
  | igmpCompatTimeout (port : Nat)
  /-- R430: The lifeline PLL loses CREF and runs from the rescue oscillator. -/
  | lifelineCrefLoss
deriving DecidableEq, Repr

end Sys2Proof
end

