-- ==== Sys2Proof/Machine/Check.lean ====
section
/-!
DEFINITION. The check codes of the frame and file formats: CRC-32 (Ethernet), CRC-32C, the Internet checksum.
PRESUMED: the polynomials and orders are those of IEEE 802.3, RFC 3720 and RFC 1071, which the spec names.
-/

namespace Sys2Proof

/-- One bit of a reflected 32-bit CRC. -/
def crcBit (poly c : Nat) : Nat := if c % 2 = 1 then Nat.xor (c / 2) poly else c / 2

/-- One byte of a reflected 32-bit CRC. -/
def crcByte (poly c : Nat) (b : Byte) : Nat :=
  let c := Nat.xor c b.toNat
  let c := crcBit poly (crcBit poly (crcBit poly (crcBit poly c)))
  crcBit poly (crcBit poly (crcBit poly (crcBit poly c)))

/-- A reflected 32-bit CRC with all-ones start and final inversion. -/
def crc32With (poly : Nat) (bs : List Byte) : Nat := Nat.xor (bs.foldl (crcByte poly) 0xFFFFFFFF) 0xFFFFFFFF

/-- The frame check sequence of Ethernet. -/
def crc32 (bs : List Byte) : Nat := crc32With 0xEDB88320 bs

/-- CRC-32C. -/
def crc32c (bs : List Byte) : Nat := crc32With 0x82F63B78 bs

/-- The sum of big-endian 16-bit words. -/
def sum16 : List Byte → Nat
  | [] => 0
  | [a] => a.toNat * 256
  | a :: b :: r => a.toNat * 256 + b.toNat + sum16 r

/-- The one's-complement sum, carries folded in. -/
def fold16 (n : Nat) : Nat :=
  let n := n % 65536 + n / 65536
  let n := n % 65536 + n / 65536
  n % 65536 + n / 65536

/-- The Internet checksum of a byte list. -/
def inetSum (bs : List Byte) : Nat := 65535 - fold16 (sum16 bs)

/-- Whether a byte list that holds its checksum is right. -/
def inetOk (bs : List Byte) : Bool := fold16 (sum16 bs) == 65535

end Sys2Proof
end

