-- ==== Sys2Proof/Machine/ClaspState.lean ====
section
/-!
DEFINITION. The state of the Clasp (R422 to R438): the early block in use, its ports, routes and side-tone paths, and the
lifeline PLL. A lifeline word is a slot's word left-justified in 32 bits.
-/

namespace Sys2Proof.Machine

/-- How far the Clasp has come after POR (R422): off, early block being read, read, selected, live. -/
inductive ClaspStage where
  | off | reading | read_ | selected | live
deriving DecidableEq, Repr

/-- What the lifeline PLL follows (R430, R435): CREF, REFIN0, its last frequency, the rescue oscillator, a domain. -/
inductive PllRef where
  | cref | refin | hold | rescue | domain (k : Nat)
deriving DecidableEq, Repr

/-- A declared port (R425, R431): serial port number, format, masks. `ok`: its format breaks no rule. `dom` is the domain
to which its clock has moved, `released` that R436 released it, with `fade` periods of its fade-out done. `buf` is the
elastic buffer of a MADI or AES3 input, `last` the frame it repeats, `slips` its drops and repeats. `now` is the input
frame in hand. -/
structure ClaspPort where
  port     : Nat
  fmt      : Word
  rxMask   : Word
  txMask   : Word
  ok       : Bool
  dom      : Option Nat
  released : Bool
  fade     : Nat
  buf      : List (List Nat)
  last     : List Nat
  slips    : Nat
  now      : Option (List Nat)
deriving DecidableEq, Repr

/-- What a lifeline output delivers (R435 to R438). -/
inductive Merge where
  | life | toPlane (j : Nat) | plane | toLife (j : Nat) | fadeIn (j : Nat)
deriving DecidableEq, Repr

/-- A route (R432): source and destination (port, slot), gain code; the words of the last three input frames, newest
first, and how many frames have carried valid input. -/
structure Route where
  src   : Nat × Nat
  dst   : Nat × Nat
  gain  : Nat
  hist  : List (Option Word)
  age   : Nat
  merge : Merge
deriving DecidableEq, Repr

/-- A side-tone path (R433): the words of the last two input frames, the fade-in position, frames muted. -/
structure SideTone where
  src   : Nat × Nat
  dst   : Nat × Nat
  gain  : Nat
  hist  : List Word
  fade  : Nat
  muted : Nat
deriving DecidableEq, Repr

/-- The Clasp. `copies` are the two early-block copies as read. -/
structure Clasp where
  stage   : ClaspStage
  copies  : List Byte × List Byte
  valid   : Bool × Bool
  copy    : Nat
  seq     : Nat
  skipped : Nat
  flags   : Nat
  ports   : List ClaspPort
  routes  : List Route
  tones   : List SideTone
  pll     : PllRef
deriving DecidableEq, Repr

def Clasp.reset : Clasp where
  stage := .reading
  copies := ([], [])
  valid := (false, false)
  copy := 0
  seq := 0
  skipped := 0
  flags := 0
  ports := []
  routes := []
  tones := []
  pll := .cref

end Sys2Proof.Machine
end

