-- ==== Sys2Proof/Machine/ClockState.lean ====
section
/-!
DEFINITION. The state of the core PLL, the references, the media PLL, the rate domains and the clock outputs, with the
CLK_ registers (R36, R37, R298 to R324).
-/

namespace Sys2Proof.Machine

/-- CLK_Dk_STAT.STATE, in the order of its codes 0 to 6 (R323). -/
inductive DomPhase where
  | stopped | locked | holdover | slewing | held | clamped | stepping
deriving DecidableEq, Repr

/-- A rate domain. `next` is the count of the next tick; `stepPos` counts the periods of a step begun (R317). -/
structure Dom where
  run       : Bool
  declared  : Bool
  rate      : Nat
  tol       : Nat            -- tolerance in ppm (R36)
  policy    : Nat
  policyNew : Bool           -- a POLICY write acts at the next tick (R315)
  cmd       : Option Bool    -- a command acts at the next tick: some true STEP_NOW, some false SLEW_ANY (R318)
  cmdRej    : Bool
  st        : DomPhase
  actHold   : Bool           -- SLEW acting as HOLD (R315)
  next      : Nat
  e         : Int
  stamps    : List (Nat × Nat)   -- (tick count, PTP ns) of ticks whose count is a multiple of 1,024 (R310)
  lastNs    : Nat
  t0        : Nat                -- PTP ns of tick 0 (R311)
  moved     : Int                -- samples by which steps have moved T0 (R339)
  stepDue   : Bool
  stepPos   : Nat
  latHi     : Word
  latTs     : Nat
  restart   : Option (Nat × Nat) -- rate and tolerance taken at a restart (R308)
deriving DecidableEq, Repr

/-- The clock system. -/
structure ClkSys where
  coreLock    : Bool
  rescue      : Bool
  recommit    : List Nat         -- partitions whose recommit of R301 is due
  rescueCount : Nat
  cause       : Nat
  crefLost    : Bool
  present     : Bool × Bool
  qual        : Bool × Bool
  active      : Nat              -- CLK_STAT.ACTIVE
  holdover    : Bool
  mpllCtl     : Word
  refCfg      : Word
  freq        : Int
  detLock     : Bool
  mpllLock    : Bool
  enabledAt   : Nat              -- uptime in µs at which ENABLE was set (R313)
  doms        : Memory Dom
  outCfg      : Memory Word
  outDiv      : Memory Word
  outRestart  : Memory Nat       -- tick of the last divider restart of each output (R322)
  outHiZ      : Bool             -- outputs are high-impedance before the clock plan is applied (R321)
  sync        : Word
  syncCap     : Word
  syncEdges   : List Nat         -- PTP ns of sampled SYNC_IN edges that wait for their tick
  rep         : List (Nat × Nat × Nat × Bool × Int)  -- reports of the step: cause, class, instance, CLEAR, detail
deriving DecidableEq, Repr

/-- A domain at reset (R307, R323). -/
def Dom.reset : Dom where
  run := false
  declared := false
  rate := 0
  tol := 500
  policy := 0
  policyNew := false
  cmd := none
  cmdRej := false
  st := .stopped
  actHold := false
  next := 0
  e := 0
  stamps := []
  lastNs := 0
  t0 := 0
  moved := 0
  stepDue := false
  stepPos := 0
  latHi := 0
  latTs := 0
  restart := none

/-- What an unlisted CLK_OUTn_DIV reads as (R323). -/
def outDivReset : Nat → Word := fun _ => 0x00200000

/-- The clock system at power-up (R323). -/
def ClkSys.reset : ClkSys where
  coreLock := false
  rescue := false
  recommit := []
  rescueCount := 0
  cause := 0
  crefLost := false
  present := (false, false)
  qual := (false, false)
  active := 0
  holdover := false
  mpllCtl := 0
  refCfg := 0x03E80202
  freq := 0
  detLock := false
  mpllLock := false
  enabledAt := 0
  doms := []
  outCfg := []
  outDiv := []
  outRestart := []
  outHiZ := true
  sync := 0
  syncCap := 0
  syncEdges := []
  rep := []

end Sys2Proof.Machine
end

