-- ==== Sys2Proof/Machine/Clock.lean ====
section
/-!
DEFINITION. Core PLL loss and return, references, media PLL, holdover and reference return, domain policies, steps,
clock outputs and the CLK_ registers (R298 to R324).
-/

namespace Sys2Proof.Machine

def ClkSys.dom (c : ClkSys) (k : Nat) : Dom := Memory.get (fun _ => Dom.reset) c.doms k
def ClkSys.setDom (c : ClkSys) (k : Nat) (d : Dom) : ClkSys :=
  { c with doms := Memory.set (fun _ => Dom.reset) c.doms k d }
def ClkSys.modDom (c : ClkSys) (k : Nat) (f : Dom → Dom) : ClkSys := c.setDom k (f (c.dom k))

/-- Report of class 14 from domain `k`. -/
def ClkSys.note (c : ClkSys) (cause cls inst : Nat) (clear : Bool) (detail : Int) : ClkSys :=
  { c with rep := c.rep ++ [(cause, cls, inst, clear, detail)] }

/-- CLK_MPLL_CTL fields. -/
def ClkSys.source (c : ClkSys) : Nat := c.mpllCtl.fld 0 3
def ClkSys.lockMode (c : ClkSys) : Bool := c.mpllCtl.flag 4
def ClkSys.enabled (c : ClkSys) : Bool := c.mpllCtl.flag 12

/-- R312: the lock window in ns. -/
def ClkSys.lockWin (c : ClkSys) : Nat := 100 * 2 ^ c.mpllCtl.fld 8 3

/-- R208: the base rate of a rate code, in Hz. -/
def rateHz (code : Nat) : Nat :=
  match code with
  | 0 => 32000
  | 1 => 44100
  | 2 => 48000
  | 3 => 88200
  | 4 => 96000
  | 5 => 176400
  | _ => 192000

/-- R37: the least number of core cycles of a period. -/
def nMin (hz tolPpm : Nat) : Nat := 1200000000 * 1000000 / (hz * (1000000 + tolPpm))

/-- R48: the cycle budget. -/
def budget (hz tolPpm : Nat) : Nat := nMin hz tolPpm - 1000

/-- The running domains. -/
def ClkSys.running (c : ClkSys) : List Nat := (List.range 3).filter fun k => (c.dom k).run

/-- The reference that SOURCE wants and that is qualified (R303); 0 when there is none. `ptp` is PTP_OK. -/
def ClkSys.wanted (c : ClkSys) (ptp : Bool) : Nat :=
  match c.source with
  | 1 => if c.qual.1 then 1 else 0
  | 2 => if c.qual.2 then 2 else 0
  | 3 => if c.active = 2 && c.qual.2 then 2 else if c.qual.1 then 1 else if c.qual.2 then 2 else 0
  | 4 => if ptp then 3 else 0
  | _ => 0

/-- A domain leaves SLEW-acting-as-HOLD: PHASE_HOLD ends (R315). -/
def ClkSys.endHold (c : ClkSys) (k : Nat) : ClkSys :=
  if (c.dom k).actHold then (c.modDom k fun d => { d with actHold := false }).note 0x0603 14 k true 0 else c

/-- A domain leaves Clamped: TOL_CLAMP ends (R309). -/
def ClkSys.endClamp (c : ClkSys) (k : Nat) : ClkSys :=
  if (c.dom k).st = .clamped then (c.modDom k fun d => { d with st := .holdover }).note 0x0602 14 k true 0 else c

/-- R315: domain `k` applies its POLICY to the phase error `e` at a reference return. -/
def ClkSys.domReturn (c : ClkSys) (k : Nat) (e : Int) : ClkSys :=
  let d := c.dom k
  if !d.run || d.st = .stepping then c
  else
    let c := (c.endClamp k).endHold k
    let d := { c.dom k with e := e }
    match d.policy with
    | 0 =>
      if e.natAbs ≤ 1000000 then c.setDom k { d with st := .slewing }
      else (c.setDom k { d with st := .held, actHold := true }).note 0x0603 14 k false e
    | 1 => c.setDom k { d with st := .held, stepDue := true }
    | _ => c.setDom k { d with st := .held }

/-- R315: the media PLL relocks to reference `a`; `es` gives each domain's phase error. -/
def ClkSys.refReturn (c : ClkSys) (a : Nat) (es : List Int) (freq : Int) : ClkSys :=
  let c := if c.holdover then { c with holdover := false }.note 0x0601 11 0 true 0 else c
  let c := { c with active := a, freq := freq }
  (List.range 3).foldl (fun c k => c.domReturn k (es.getD k 0)) c

/-- R314, R319: the followed reference is gone: holdover at the mean word. -/
def ClkSys.enterHoldover (c : ClkSys) (mean : Int) : ClkSys :=
  if c.source = 0 || !c.enabled then { c with active := 0 }
  else
    let c := if c.holdover then c else { c with holdover := true }.note 0x0601 11 0 false 0
    let c := { c with active := 0, freq := mean }
    (List.range 3).foldl (fun c k =>
      let d := c.dom k
      if !d.run then c
      else match d.st with
        | .clamped | .stepping | .stopped => c
        | _ => (c.endHold k).modDom k fun d => { d with st := .holdover, stepDue := false }) c

/-- R302, R303: a reference input is lost. -/
def ClkSys.refLost (c : ClkSys) (i : Nat) (ptp : Bool) (es : List Int) (mean : Int) : ClkSys :=
  let c := if i = 0 then { c with present := (false, c.present.2), qual := (false, c.qual.2) }
    else { c with present := (c.present.1, false), qual := (c.qual.1, false) }
  if c.active = i + 1 then
    let c := c.enterHoldover mean
    match c.wanted ptp with
    | 0 => c
    | a => c.refReturn a es mean
  else c

/-- R302, R315: a reference input becomes qualified. -/
def ClkSys.refQualified (c : ClkSys) (i : Nat) (ptp : Bool) (es : List Int) (freq : Int) : ClkSys :=
  let c := if i = 0 then { c with present := (true, c.present.2), qual := (true, c.qual.2) }
    else { c with present := (c.present.1, true), qual := (c.qual.1, true) }
  if c.enabled && c.holdover then
    match c.wanted ptp with
    | 0 => c
    | a => c.refReturn a es freq
  else c

/-- R303: the PTP servo counts as a reference; PTP_OK has changed to `ok`. -/
def ClkSys.ptpChange (c : ClkSys) (ok : Bool) (es : List Int) (freq : Int) : ClkSys :=
  if c.source != 4 || !c.enabled then c
  else if ok then (if c.holdover then c.refReturn 3 es freq else c)
  else if c.active = 3 then c.enterHoldover freq else c

/-- Free-run: no reference, no holdover, every running domain Locked with e = 0 (R303). -/
def ClkSys.freeRun (c : ClkSys) : ClkSys :=
  let c := if c.holdover then { c with holdover := false }.note 0x0601 11 0 true 0 else c
  let c := { c with active := 0, detLock := true }
  (List.range 3).foldl (fun c k =>
    let d := c.dom k
    if !d.run || d.st = .stepping then c
    else ((c.endClamp k).endHold k).modDom k fun d => { d with st := .locked, e := 0, stepDue := false }) c

/-- R303: a write of SOURCE; codes 5 to 7 are discarded. From free-run to a qualified reference there is no holdover between. -/
def ClkSys.setSource (c : ClkSys) (s : Nat) (ptp : Bool) (es : List Int) (freq : Int) : ClkSys :=
  if s ≥ 5 then c
  else
    let was := c.source
    let c := { c with mpllCtl := c.mpllCtl.setFld 0 3 s }
    if !c.enabled then { c with active := 0 }
    else if s = 0 then c.freeRun
    else
      let c := { c with active := 0 }
      let a := c.wanted ptp
      if a = 0 then c.enterHoldover freq
      else if was = 0 then c.refReturn a es freq
      else (c.enterHoldover freq).refReturn a es freq

/-- R304, R313, R314: a write of ENABLE; `word` is the calibrated DCO offset. -/
def ClkSys.setEnable (c : ClkSys) (on : Bool) (now : Nat) (ptp : Bool) (es : List Int) (word : Int) : ClkSys :=
  if on then
    if c.enabled then c
    else
      let c := { c with mpllCtl := c.mpllCtl.setFlag 12 true, enabledAt := now, freq := word }
      if c.source = 0 then c.freeRun
      else match c.wanted ptp with
        | 0 => c.enterHoldover word
        | a => c.refReturn a es word
  else
    let c := if c.holdover then { c with holdover := false }.note 0x0601 11 0 true 0 else c
    { c with mpllCtl := c.mpllCtl.setFlag 12 false, mpllLock := false, detLock := false, active := 0 }

/-! ### Domains at a tick -/

/-- R315, R318: at a tick a pending POLICY acts first, then a pending command. -/
def ClkSys.tickPolicy (c : ClkSys) (k : Nat) (e : Int) : ClkSys :=
  let d := c.dom k
  let c := c.setDom k { d with policyNew := false, cmd := none }
  let c := if d.policyNew && c.active != 0 && (d.st == .held || d.st == .slewing) then c.domReturn k e else c
  match d.cmd with
  | none => c
  | some step =>
    let d' := c.dom k
    if d'.st == .held && c.active != 0 && !d'.stepDue then
      if step then (c.endHold k).modDom k fun d => { d with stepDue := true }
      else (c.endHold k).modDom k fun d => { d with st := .slewing }
    else c.modDom k fun d => { d with cmdRej := true }

/-- R317: the whole samples by which the reference's timeline moves when a step aligns a phase error of `e` ns. -/
def stepCount (e : Int) (hz : Nat) : Int := -((-(e * hz)) / 1000000000)

/-- R317: a decided step begins at this tick, or a step in progress advances by one period. -/
def ClkSys.tickStep (c : ClkSys) (k : Nat) : ClkSys :=
  let d := c.dom k
  if d.st = .stepping then c.setDom k { d with stepPos := min 65 (d.stepPos + 1) }
  else if d.stepDue then
    (c.setDom k { d with st := .stepping, stepDue := false, stepPos := 0 }).note 0x0604 14 k false
      (stepCount d.e (rateHz d.rate))
  else c

/-- A phase error modulo the period of a reference of rate `hz`, within half a period. -/
def halfWrap (e : Int) (hz : Nat) : Int := let p : Int := (1000000000 / hz : Nat); (e + p / 2) % p - p / 2

/-- R311: the phase error of tick `n` of domain `d` at PTP instant `ns`, where `e` is measured: 0 in free-run and with 10 MHz, against
T0 + n/fs with the PTP servo, modulo the reference's period with a word clock or AES11. -/
def ClkSys.phase (c : ClkSys) (d : Dom) (n ns : Nat) (e : Int) : Int :=
  let cfg := fun (i : Nat) => if i = 1 then (c.refCfg.fld 6 2, c.refCfg.fld 0 3) else (c.refCfg.fld 14 2, c.refCfg.fld 8 3)
  if c.source = 0 then 0
  else if c.active = 3 then (ns : Int) - d.t0 - (n + d.moved) * 1000000000 / (rateHz d.rate : Nat)
  else if c.active = 0 then e
  else if (cfg c.active).1 = 1 then 0
  else halfWrap e (rateHz (cfg c.active).2)

/-- R305, R310, R311, R312, R315, R317: tick of domain `k` at PTP instant `ns` with measured phase error `e`. -/
def ClkSys.tick (c : ClkSys) (k ns : Nat) (e : Int) : ClkSys :=
  let d := c.dom k
  let e := c.phase d d.next ns e
  let d := { d with e := e, next := d.next + 1, lastNs := ns
                    stamps := if d.next % 1024 = 0 then (d.next, ns) :: d.stamps.take 3 else d.stamps }
  let c := { c.setDom k d with detLock := c.source = 0 || e.natAbs ≤ c.lockWin }
  (c.tickPolicy k e).tickStep k

/-- R317: the fade-in after a step ends. -/
def ClkSys.stepEnd (c : ClkSys) (k : Nat) : ClkSys :=
  let d := c.dom k
  if d.st = .stepping then
    c.setDom k { d with stepPos := 0, st := if c.holdover then .holdover else .locked }
  else c

/-- R317: the gain in 32nds that a step gives the domain's sink readers in the current period. -/
def stepGain (d : Dom) : Nat :=
  if d.st = .stepping then
    if d.stepPos < 32 then 31 - d.stepPos else if d.stepPos = 32 then 0 else min 32 (d.stepPos - 32)
  else 32

/-- R305, R314: the Setter sets RUN: the domain starts at tick 0. -/
def ClkSys.startDom (c : ClkSys) (k rate tol : Nat) : ClkSys :=
  let d := c.dom k
  let st : DomPhase := if c.source != 0 && c.holdover then .holdover else .locked
  c.setDom k { Dom.reset with run := true, declared := true, rate := rate, tol := tol, policy := d.policy, st := st }

/-- R307: the domain stops; its tick count holds. -/
def ClkSys.stopDom (c : ClkSys) (k : Nat) : ClkSys :=
  let c := (c.endClamp k).endHold k
  c.modDom k fun d => { d with run := false, st := .stopped, stepDue := false, stepPos := 0, cmd := none, policyNew := false }

/-- R309: the NCO reaches its tolerance limit. -/
def ClkSys.clamp (c : ClkSys) (k : Nat) : ClkSys :=
  let d := c.dom k
  if !d.run || d.st = .clamped || d.st = .stepping then c
  else ((c.endHold k).modDom k fun d => { d with st := .clamped }).note 0x0602 14 k false 0

/-- R316: the slew has brought |e| to at most 1 µs and into the lock window. -/
def ClkSys.slewDone (c : ClkSys) (k : Nat) (e : Int) : ClkSys :=
  let d := c.dom k
  if d.st = .slewing && e.natAbs ≤ min 1000 c.lockWin then c.setDom k { d with st := .locked, e := e } else c

/-- R318: a command; rejected at once where the domain does not hold with a qualified reference. -/
def ClkSys.command (c : ClkSys) (k : Nat) (step : Bool) : ClkSys :=
  let d := c.dom k
  if d.st == .held && c.active != 0 then
    c.setDom k { d with cmd := some (step || d.cmd == some true) }
  else c.setDom k { d with cmdRej := true }

/-- R315: a POLICY write; code 3 is discarded. -/
def ClkSys.setPolicy (c : ClkSys) (k p : Nat) : ClkSys :=
  if p ≥ 3 then c else c.modDom k fun d => { d with policy := p, policyNew := true }

/-! ### Core PLL (R298 to R301) -/

/-- R299: loss of the core PLL; cause 1 CREF lost, 2 frequency error. -/
def ClkSys.coreLost (c : ClkSys) (cause : Nat) : ClkSys :=
  if c.rescue then { c with coreLock := false, crefLost := c.crefLost || cause == 1 }
  else { c with coreLock := false, rescue := true, rescueCount := incSat 0xFFFF c.rescueCount, cause := cause
                crefLost := cause == 1 }.note 0x0600 10 0 false cause

/-- R298: the core PLL locks. -/
def ClkSys.coreLocked (c : ClkSys) : ClkSys := { c with coreLock := true, crefLost := false }

/-- R301: after 1 ms of lock the clocks switch back; the partitions `due` are to be committed again. -/
def ClkSys.rescueExit (c : ClkSys) (due : List Nat) : ClkSys :=
  if c.rescue && c.coreLock then { c with rescue := false, recommit := due }.note 0x0600 10 0 true 0 else c

/-! ### Clock outputs (R320 to R322) -/

def ClkSys.cfg (c : ClkSys) (n : Nat) : Word := Memory.get zeroW c.outCfg n
def ClkSys.div (c : ClkSys) (n : Nat) : Word := Memory.get outDivReset c.outDiv n

/-- R323: a write of CLK_OUTn_CFG, field by field. -/
def outCfgWrite (old v : Word) : Word :=
  let mult := if v.fld 16 4 ≤ 9 then v.fld 16 4 else old.fld 16 4
  let fmt := if v.fld 8 2 = 3 then old.fld 8 2 else v.fld 8 2
  let src := if v.fld 0 3 = 7 then old.fld 0 3 else v.fld 0 3
  ((((v &&& 0x80000010).setFld 16 4 mult).setFld 8 2 fmt).setFld 0 3 src)

/-- R323: a write of CLK_OUTn_DIV. -/
def outDivWrite (old v : Word) : Word := if v.fld 20 12 < 2 then old.setFld 0 20 (v.fld 0 20) else v

/-- R320: the frequency of an output in Hz, rounded down; 0 when it has no source. -/
def ClkSys.outHz (c : ClkSys) (n : Nat) : Nat :=
  let g := c.cfg n
  match g.fld 0 3 with
  | 0 => 0
  | 4 => 1966080000 * 2 ^ 20 / (c.div n).toNat
  | 5 => 1
  | 6 => 25000000
  | s => rateHz (c.dom (s - 1)).rate * 2 ^ g.fld 16 4

/-- R320, R321: whether output `n` toggles. -/
def ClkSys.outRuns (c : ClkSys) (n : Nat) : Bool :=
  let g := c.cfg n
  let s := g.fld 0 3
  let max_ := if g.fld 8 2 = 2 then 100000000 else 250000000
  !c.outHiZ && g.flag 31 && s != 0 && (if s = 4 then 1966080000 * 2 ^ 20 ≤ max_ * (c.div n).toNat else c.outHz n ≤ max_) &&
    (if 1 ≤ s && s ≤ 3 then (c.dom (s - 1)).run else if s = 6 then !c.crefLost else true)

/-- R320, R321, R503: the legs CLKOUTn_P and CLKOUTn_N: high-impedance (none), or whether they toggle, low else. -/
def ClkSys.legs (c : ClkSys) (n : Nat) : Option Bool × Option Bool :=
  if c.outHiZ then (none, none) else (some (c.outRuns n), if (c.cfg n).fld 8 2 = 2 then none else some (c.outRuns n))

/-- R322: a SYNC_IN edge; in one-shot mode it is the last one. -/
def ClkSys.syncIn (c : ClkSys) (falling : Bool) (ns : Nat) : ClkSys :=
  if c.sync.fld 2 2 != 0 && c.sync.flag 0 == falling then
    { c with syncEdges := c.syncEdges ++ [ns], sync := if c.sync.fld 2 2 = 1 then c.sync.setFld 2 2 0 else c.sync }
  else c

/-- R322: the resynchronisation at the tick now in force of the selected domain, for every edge at least 100 ns before it. -/
def ClkSys.resync (c : ClkSys) : ClkSys :=
  let k := c.sync.fld 4 2
  let d := c.dom k
  if d.run && d.next > 0 && c.syncEdges.any fun ns => ns + 100 ≤ d.lastNs then
    let outs := (List.range 8).filter fun n => c.sync.flag (8 + n) && (c.cfg n).fld 0 3 = 4
    { c with syncEdges := c.syncEdges.filter fun ns => d.lastNs < ns + 100, syncCap := BitVec.ofNat 32 (d.next - 1)
             outRestart := outs.foldl (fun m n => Memory.set (fun _ => 0) m n (d.next - 1)) c.outRestart }
  else c

/-! ### Registers (R323, R324) -/

/-- A signed value saturated to 32 bits. -/
def sat32 (i : Int) : Word := wordI (satN 32 i)

/-- STATE as a number. -/
def DomPhase.code : DomPhase → Nat
  | .stopped => 0
  | .locked => 1
  | .holdover => 2
  | .slewing => 3
  | .held => 4
  | .clamped => 5
  | .stepping => 6

/-- R310: the stamp that CLK_Dk_TS shows for the current count. -/
def Dom.stamp (d : Dom) : Nat := (d.stamps.headD (0, 0)).2

/-- The tick count that CLK_Dk_TICK shows. -/
def Dom.count (d : Dom) : Nat := d.next - 1

/-- The CLK_ register at block offset `o`; `ptp` is PTP_OK. -/
def ClkSys.readReg (c : ClkSys) (ptp : Bool) (o : Nat) : Word :=
  if 0x040 ≤ o && o < 0x0A0 then
    let d := c.dom ((o - 0x040) / 0x20)
    match (o - 0x040) % 0x20 with
    | 0x00 => BitVec.ofNat 32 (d.policy <<< 8 + d.rate <<< 4 + if d.run then 1 else 0)
    | 0x08 => BitVec.ofNat 32 ((if d.cmdRej then 0x100 else 0) + d.st.code)
    | 0x0C => sat32 d.e
    | 0x10 => BitVec.ofNat 32 d.count
    | 0x14 => d.latHi
    | 0x18 => BitVec.ofNat 32 d.latTs
    | 0x1C => BitVec.ofNat 32 (d.latTs >>> 32)
    | _ => 0
  else if 0x100 ≤ o && o < 0x140 then
    if o % 8 = 0 then c.cfg ((o - 0x100) / 8) else c.div ((o - 0x100) / 8)
  else
    let b := fun (x : Bool) (i : Nat) => if x then 2 ^ i else 0
    match o with
    | 0x000 => c.mpllCtl
    | 0x004 => c.refCfg
    | 0x008 => BitVec.ofNat 32 (b c.rescue 15 + b c.coreLock 14 + c.active <<< 8 + b ptp 7 + b c.qual.2 6 + b c.qual.1 5
        + b c.present.2 4 + b c.present.1 3 + b c.holdover 2 + b c.detLock 1 + b c.mpllLock 0)
    | 0x00C => sat32 c.freq
    | 0x010 => BitVec.ofNat 32 (c.rescueCount <<< 16 + c.cause)
    | 0x140 => c.sync
    | 0x144 => c.syncCap
    | _ => 0

/-- R310: a read of CLK_Dk_TICK_LO latches TICK_HI and the stamp. -/
def ClkSys.latchTick (c : ClkSys) (k : Nat) : ClkSys :=
  c.modDom k fun d => { d with latHi := BitVec.ofNat 32 (d.count >>> 32), latTs := d.stamp }

/-- R323: a write of CLK_REF_CFG, field by field. -/
def refCfgWrite (old v : Word) : Word :=
  let q := v.fld 16 16
  let q := if 10 ≤ q && q ≤ 10000 then q else old.fld 16 16
  let f1 := if v.fld 14 2 = 3 then old.fld 14 2 else v.fld 14 2
  let f0 := if v.fld 6 2 = 3 then old.fld 6 2 else v.fld 6 2
  BitVec.ofNat 32 (q <<< 16 + f1 <<< 14 + (v.fld 8 3) <<< 8 + f0 <<< 6 + v.fld 0 3)

/-- R323: a write of CLK_SYNC, field by field. -/
def syncWrite (old v : Word) : Word :=
  let d := if v.fld 4 2 = 3 then old.fld 4 2 else v.fld 4 2
  let m := if v.fld 2 2 = 3 then old.fld 2 2 else v.fld 2 2
  BitVec.ofNat 32 ((v.fld 8 8) <<< 8 + d <<< 4 + m <<< 2 + v.fld 0 1)

/-- R321: a configuration write of output `n` takes effect. -/
def ClkSys.writeOut (c : ClkSys) (n : Nat) (isDiv : Bool) (v : Word) : ClkSys :=
  if isDiv then { c with outDiv := Memory.set outDivReset c.outDiv n (outDivWrite (c.div n) v) }
  else { c with outCfg := Memory.set zeroW c.outCfg n (outCfgWrite (c.cfg n) v) }

/-- A write of a CLK_ register without a command of its own; SOURCE and ENABLE of CLK_MPLL_CTL go through
`setSource` and `setEnable`. -/
def ClkSys.writePlain (c : ClkSys) (o : Nat) (v : Word) : ClkSys :=
  if 0x040 ≤ o && o < 0x0A0 then
    let k := (o - 0x040) / 0x20
    match (o - 0x040) % 0x20 with
    | 0x08 => if v.flag 8 then c.modDom k fun d => { d with cmdRej := false } else c
    | _ => c
  else if 0x100 ≤ o && o < 0x140 then c.writeOut ((o - 0x100) / 8) (o % 8 == 4) v
  else match o with
    | 0x000 => { c with mpllCtl := (c.mpllCtl.setFld 8 3 (v.fld 8 3)).setFlag 4 (v.flag 4) }
    | 0x004 => { c with refCfg := refCfgWrite c.refCfg v }
    | 0x140 => { c with sync := syncWrite c.sync v }
    | _ => c

end Sys2Proof.Machine
end

