-- ==== Sys2Proof/Machine/Serial.lean ====
section
/-!
DEFINITION. Serial audio ports: start, input frames, loss, slip, mismatch and their recovery, rate measurement, formats,
masks and maps, AES3 and MADI handling, and the TDM_, MADI_ and AES_ registers (R357 to R378).
-/

namespace Sys2Proof.Machine

def Serial.port (s : Serial) (p : Nat) : SerPort := Memory.get SerPort.reset s.ports p
def Serial.setPort (s : Serial) (p : Nat) (q : SerPort) : Serial :=
  { s with ports := Memory.set SerPort.reset s.ports p q }
def Serial.note (s : Serial) (p cause : Nat) (clear : Bool) : Serial := { s with rep := s.rep ++ [(p, cause, clear)] }

/-! ### Fields of CTL -/

def SerPort.en (q : SerPort) : Bool := q.ctl.flag 0
def SerPort.startArm (q : SerPort) : Bool := q.ctl.flag 1
def SerPort.dom (q : SerPort) : Nat := q.ctl.fld 4 2
/-- R359: a TDM master; a loop output for MADI and AES3 outputs. -/
def SerPort.bit8 (q : SerPort) : Bool := q.ctl.flag 8
def isMaster (p : Nat) (q : SerPort) : Bool := portKind p == .tdm && q.bit8
def isLoop (p : Nat) (q : SerPort) : Bool := (portKind p == .madi || portKind p == .aesOut) && q.bit8
/-- A TDM slave: its output frames start at the edges of FS that it receives (R361). -/
def isSlave (p : Nat) (q : SerPort) : Bool := portKind p == .tdm && !q.bit8
def hasInput (p : Nat) : Bool := portKind p != .aesOut
def hasOutput (p : Nat) : Bool := portKind p != .aesIn

/-! ### Formats (R357, R362, R364) -/

def TdmCfg.slots (c : TdmCfg) : Nat := c.fmt.fld 0 6 + 1
def TdmCfg.width (c : TdmCfg) : Nat := 16 + 8 * c.fmt.fld 8 2
def TdmCfg.word (c : TdmCfg) : Nat := c.fmt.fld 10 2
/-- The slot that map register set `base` (0 receive, 8 transmit) gives logical channel `ch`. -/
def TdmCfg.slotOf (c : TdmCfg) (base ch : Nat) : Nat :=
  (Memory.get mapReset c.maps (base + ch / 4)).fld (8 * (ch % 4)) 5

/-- R357: whether a format at a frame rate in 0.01 Hz keeps the BCLK limit. -/
def TdmCfg.fits (c : TdmCfg) (rate : Nat) : Bool := c.slots * c.width * rate ≤ 4915200000

/-- R357, R362: whether a value of TDM_n_FMT breaks no table. -/
def fmtOk (v : Word) : Bool :=
  v.fld 8 2 ≤ 2 && v.fld 10 2 ≤ v.fld 8 2 && v.fld 12 2 ≤ 2 && v.fld 0 6 < 32 &&
    (v.fld 12 2 == 0 || v.fld 0 6 == 1)

/-- R357: channels in force of a MADI port. -/
def madiChans (q : SerPort) : Nat := (if q.ctl.flag 9 then 64 else 56) / (if q.ctl.flag 10 then 2 else 1)

/-- The BCLK or channel count that the format in force expects (R369). -/
def wantCount (p : Nat) (q : SerPort) (count : Nat) : Nat :=
  match portKind p with
  | .tdm => q.act.slots * q.act.width
  | .madi => madiChans q
  | _ => count

/-- R358, R363, R364: the input logical channels of a frame's words. -/
def inChannels (p : Nat) (q : SerPort) (ws : List Nat) : List Word :=
  match portKind p with
  | .tdm =>
    (List.range 32).map fun c =>
      let sl := q.act.slotOf 0 c
      if q.act.rxMask.flag sl && sl < q.act.slots then
        slotIn q.act.word ((ws.getD sl 0 % 2 ^ q.act.width) >>> (q.act.width - (16 + 8 * q.act.word)))
      else 0
  | .madi => (List.range 64).map fun c => if c < madiChans q then ofPcm 24 (ws.getD c 0) else 0
  | _ => (List.range 2).map fun c => ofPcm 24 (ws.getD c 0)

/-- R363, R364: what goes out for the output logical channels, by slot or channel; none is high-impedance. -/
def outFrame (p : Nat) (q : SerPort) (xs : List Word) : List (Option Nat) :=
  match portKind p with
  | .tdm =>
    (List.range q.act.slots).map fun sl =>
      if q.act.txMask.flag sl then
        match (List.range 32).find? fun c => q.act.slotOf 8 c == sl with
        | some c => some (slotOut q.act.word (xs.getD c 0) <<< (q.act.width - (16 + 8 * q.act.word)))
        | none => some 0
      else none
  | .madi => (List.range (madiChans q)).map fun c => some (toPcm 24 (xs.getD c 0)).1
  | _ => (List.range 2).map fun c => some (toPcm 24 (xs.getD c 0)).1

/-! ### AES3 channel status (R373) -/

/-- PRESUMED (AES3): the CRCC over bytes 0 to 22, x^8 + x^4 + x^3 + x^2 + 1, first bit in bit 0. -/
def crccStep (c : Nat) (b : Bool) : Nat := if (c % 2 == 1) != b then Nat.xor (c / 2) 0xB8 else c / 2
def crcc (bits : List Bool) : Nat := (bits.take 184).foldl crccStep 0xFF

/-- A number from bits, first bit lowest. -/
def natOfBits : List Bool → Nat
  | [] => 0
  | b :: r => (if b then 1 else 0) + 2 * natOfBits r

/-- The 24 channel-status bytes of an output as configured. -/
def txcsBytes (q : SerPort) : List Nat :=
  (List.range 24).map fun i => (Memory.get txcsReset q.txcs (i / 4)).fld (8 * (i % 4)) 8

/-- PRESUMED (AES3): sampling-frequency fields of bytes 0 and 4 by rate code, word-length field of byte 2, CRCC. -/
def csAuto (rate : Nat) (bs : List Nat) : List Nat :=
  let f0 := match rate with | 0 => 0xC0 | 1 => 0x40 | 2 => 0x80 | _ => 0
  let f4 := match rate with | 3 => 0x50 | 4 => 0x10 | 5 => 0x58 | 6 => 0x18 | _ => 0
  let bs := bs.set 0 (bs.getD 0 0 % 64 + f0)
  let bs := bs.set 4 (bs.getD 4 0 % 8 + f4 + (bs.getD 4 0 / 128) * 128)
  let bs := bs.set 2 (0x2C + (bs.getD 2 0 / 64) * 64)
  bs.set 23 (crcc (bs.flatMap fun b => (List.range 8).map b.testBit))

/-- R373: the channel-status bit that an AES3 output sends at position `pos` of its block. -/
def csBit (q : SerPort) (rate pos : Nat) : Bool :=
  let bs := if q.ctl.flag 17 then csAuto rate (txcsBytes q) else txcsBytes q
  (bs.getD (pos / 8) 0).testBit (pos % 8)

/-- R373: channel status, user data and validity of a received AES3 frame. -/
def aesStatus (q : SerPort) (f : RxFrame) : SerPort :=
  let bits := (if f.block then [] else q.csBits) ++ [f.flags.getD 2 false]
  let q := { q with v := f.flags.getD 3 false, vuc := f.flags, csBits := bits }
  if bits.length = 192 then
    let bytes := (List.range 24).map fun i => natOfBits (slice8 bits i)
    let pro := bits.getD 0 false
    { q with csBits := [], pro := pro, crcErr := q.crcErr || (pro && crcc bits != bytes.getD 23 0)
             rxcs := (List.range 6).map fun k => BitVec.ofNat 32
               (bytes.getD (4 * k) 0 + bytes.getD (4 * k + 1) 0 <<< 8 + bytes.getD (4 * k + 2) 0 <<< 16
                + bytes.getD (4 * k + 3) 0 <<< 24) }
  else { q with csBits := bits.take 192 }
where
  slice8 (bits : List Bool) (i : Nat) : List Bool := (bits.drop (8 * i)).take 8

/-! ### Loss, slip, mismatch (R369, R370) -/

/-- More than 0.5 % apart. -/
def offHalf (len ref : Nat) : Bool := (if len < ref then ref - len else len - ref) * 1000 > 5 * ref

/-- R369: the input is lost. -/
def Serial.lose (s : Serial) (p : Nat) : Serial :=
  let q := s.port p
  if !hasInput p || isMaster p q || q.loss || q.run != .running then s
  else
    (s.setPort p { q with loss := true, rate := 0, gap := false, stable := 0, csBits := []
                          fade := if q.gap then q.fade else q.fade.start }).note p 0x0800 false

/-- R370: a recovery, unless a latched SLIP or MISMATCH overrides it. -/
def SerPort.recover (q : SerPort) : SerPort :=
  if q.slip || q.mis then q else { q with fade := q.fade.recover }

/-- R369: 256 stable frames have left the queue: LOSS clears and a ramp-back starts at the next period. -/
def Serial.regain (s : Serial) (p : Nat) : Serial :=
  let q := s.port p
  if 256 + q.queue.length ≤ q.stable && (q.loss || q.await) then
    let s := if q.loss then s.note p 0x0800 true else s
    s.setPort p ({ q with loss := false, await := false, stable := 0 }).recover
  else s

/-- R369: a write of RESTART. -/
def Serial.restart (s : Serial) (p domRate : Nat) : Serial :=
  let q := s.port p
  let near := (if q.rate < domRate then domRate - q.rate else q.rate - domRate) * 1000000 ≤ 200 * domRate
  let wasMis := q.mis
  let q := { q with mis := q.mis && !(near && q.rate != 0) }
  let q := if q.slip then { q with slip := false, await := true, stable := 0 }
    else if wasMis && !q.mis then q.recover else q
  s.setPort p q

/-- The frame's words with the previous sample in place of one whose parity is bad (R373, R374). -/
def fixParity (p : Nat) (q : SerPort) (f : RxFrame) : List Nat :=
  if portKind p = .tdm then f.words
  else (List.range f.words.length).map fun c => if f.bad.contains c then q.last.getD c 0 else f.words.getD c 0

/-- R21: depth of a port queue. -/
def portDepth : Nat := 8

/-- R361, R366, R369: port `p` has received a complete frame. -/
def Serial.frameRx (s : Serial) (p : Nat) (f : RxFrame) : Serial :=
  let q := s.port p
  if !hasInput p || !q.en || q.run = .off then s
  else
    let ws := fixParity p q f
    let hasPar := portKind p == .madi || portKind p == .aesIn
    let q := { q with parErr := q.parErr || (hasPar && !f.bad.isEmpty)
                      parity := if portKind p = .madi then min 0xFFFF (q.parity + f.bad.length) else q.parity
                      code := if portKind p = .madi then min 0xFFFF (q.code + f.code) else q.code
                      rxch := if portKind p = .madi then min 127 f.count else q.rxch
                      last := if hasPar then ws else q.last
                      frame := if q.dom = 3 then q.frame + 1 else q.frame
                      first := if q.run = .waiting && q.dom != 3 then some (f.ns - f.len * 5 / 6) else q.first
                      run := .running }
    let q := if portKind p = .aesIn then aesStatus q f else q
    let master := isMaster p q
    let good := f.count = wantCount p q f.count
    let s := s.setPort p q
    -- a frame period off by more than 0.5 % is a loss
    let s := if !master && q.refLen != 0 && offHalf f.len q.refLen then s.lose p else s
    let q := s.port p
    let deliver := good || master
    let q :=
      if q.loss || q.await then
        if good && q.stable != 0 && !offHalf f.len q.refLen then { q with stable := min 1024 (q.stable + 1) }
        else { q with stable := if good then 1 else 0, refLen := f.len }
      else if good then { q with refLen := if q.refLen = 0 then f.len else q.refLen } else q
    let s := s.setPort p q
    let s :=
      if !q.loss && !master && !good then
        if q.slip then s
        else (s.setPort p { q with slip := true, fade := q.fade.start }).note p 0x0801 false
      else s
    let q := s.port p
    let s :=
      if q.gap && deliver then (s.setPort p ({ q with gap := false, und := true }).recover).note p 0x0805 false else s
    let q := s.port p
    if !deliver then s
    else if q.queue.length < portDepth then
      let xs := inChannels p q ws
      let (ys, fd) := if q.dom = 3 then q.fade.deliver xs else (xs, q.fade)
      s.setPort p { q with queue := q.queue ++ [ys], fade := fd }
    else
      let q := { q with ovr := true, queue := q.queue.drop (q.queue.length - 4), fade := q.fade.start }
      ((s.setPort p q.recover).note p 0x0303 false).note p 0x0804 false

/-! ### Start (R365, R366, R372) -/

/-- Judge the BCLK limit at a start, `rate` in 0.01 Hz, 0 when not known. -/
def SerPort.judge (p : Nat) (q : SerPort) (rate : Nat) : SerPort :=
  if portKind p = .tdm && rate != 0 && !q.act.fits rate then
    { q with run := .off, cfgStop := true, cfgBad := true, queue := [], fade := Fade.reset }
  else q

/-- R366: the port starts at tick `n` of its domain; `hz` the domain's base rate. -/
def SerPort.begin (p : Nat) (q : SerPort) (hz : Nat) : SerPort :=
  let now := isMaster p q || !hasInput p
  let live := { Fade.reset with phase := FadePhase.live }
  let q := { q with ctl := q.ctl.setFlag 1 false, run := if now then .running else .waiting, frame := 0, blkPos := 0
                    fade := live, outFade := live, queue := [], gap := false, refLen := 0, stable := 0
                    phase := if isMaster p q then 1000000000 / hz else 0 }
  q.judge p (if q.dom = 3 then q.rate else hz * 100)

/-- R366: whether the common start event occurs at tick `n` (PTP instant `ns`) of domain `k`. -/
def Serial.eventAt (s : Serial) (k n ns : Nat) : Bool :=
  s.start.flag 8 && s.start.fld 4 2 == k &&
    (match s.start.fld 0 2 with
     | 1 => s.startLo.toNat + s.startHi.toNat <<< 32 ≤ n
     | 2 => (match s.edge with | some t => t + 100 ≤ ns | none => false)
     | _ => false)

/-- R366: the ports that start at tick `n` of domain `k`. One that runs already goes on, its START_ARM clear (DESIGN CHOICE, log 91). -/
def Serial.startTick (s : Serial) (k n ns hz : Nat) : Serial :=
  let ev := s.eventAt k n ns
  let s := if ev then { s with start := s.start.setFlag 8 false, cap := BitVec.ofNat 32 n, edge := none } else s
  (List.range 36).foldl (fun s p =>
    let q := s.port p
    if q.en && q.run = .off && !q.cfgStop &&
        (if q.startArm then ev && (q.dom == k || q.dom == 3) else q.dom == k) then
      s.setPort p (q.begin p hz)
    else if ev && q.en && q.startArm && (q.dom == k || q.dom == 3) then s.setPort p { q with ctl := q.ctl.setFlag 1 false }
    else s) s

/-- A port on its own clock with START_ARM 0 starts when it is enabled. -/
def Serial.startOwn (s : Serial) (p : Nat) : Serial :=
  let q := s.port p
  if q.en && q.run = .off && !q.cfgStop && !q.startArm && q.dom = 3 then s.setPort p (q.begin p 48000) else s

/-- R372: EN falls: inputs read 0, outputs idle. -/
def Serial.disable (s : Serial) (p : Nat) : Serial :=
  let q := s.port p
  let s := if q.loss then s.note p 0x0800 true else s
  s.setPort p { q with run := .off, cfgStop := false, loss := false, await := false, gap := false, queue := [], outQ := [], outGap := false
                       next := [], rate := 0, first := none, fade := Fade.reset, outFade := Fade.reset
                       armed := none
                       act := match q.armed with | some c => c | none => q.act }

/-! ### Ticks (R361) -/

/-- The values that port `p` writes into the plane in the period that a tick at `ns` opens. -/
def Serial.inputTick (s : Serial) (p ns : Nat) : List Word × Serial :=
  let q := s.port p
  if q.run != .running || !hasInput p || q.dom = 3 then ([], s)
  else
    let q := { q with frame := q.frame + 1 }
    match q.queue with
    | x :: r =>
      let (ys, fd) := q.fade.deliver x
      let ph := match q.first with | some t => (ns - t) % 65536 | none => q.phase
      (ys, s.setPort p { q with queue := r, fade := fd, first := none, phase := ph })
    | [] =>
      let zeros := List.replicate 64 (0 : Word)
      if isMaster p q || q.loss || q.gap || q.frame = 1 then
        let (ys, fd) := q.fade.deliver zeros
        (ys, s.setPort p { q with fade := fd })
      else
        let (ys, fd) := q.fade.start.deliver zeros
        (ys, (s.setPort p { q with gap := true, fade := fd }).note p 0x0304 false)

/-- The logical channels that a domain-mode output emits at a tick, and the samples `xs` read for the next frame. -/
def Serial.outputTick (s : Serial) (p : Nat) (xs : List Word) : Option (List Word) × Serial :=
  let q := s.port p
  if q.run = .off || !hasOutput p || q.dom = 3 || isLoop p q then (none, s)
  else
    let (ys, fd) := q.outFade.deliver q.next
    let frame := if hasInput p then q.frame else q.frame + 1
    (some ys, s.setPort p { q with next := xs, outFade := fd, blkPos := (q.blkPos + 1) % 192, frame := frame })

/-- R21, R23, R361: at a tick the frame of that sink instant enters the queue of a slave's output, and `xs` is read for the next one.
While the input is lost no frame starts, and none waits. -/
def Serial.queueTick (s : Serial) (p : Nat) (xs : List Word) : Serial :=
  let q := s.port p
  let q' := { q with next := xs }
  if q.run != .running || q.loss then s.setPort p { q' with outQ := [] }
  else if q.outQ.length < portDepth then s.setPort p { q' with outQ := q.outQ ++ [q.next] }
  else ((s.setPort p { q' with outQ := q.outQ.drop (q.outQ.length - 4), ovr := true, outFade := q.outFade.start.recover }).note p 0x0303 false).note
    p 0x0804 false

/-- R361, R369, R385: an output that does not start its frames at ticks emits the next one of its queue when its clock gives a frame. A slave
has none before the first tick of its start. -/
def Serial.ownOutput (s : Serial) (p : Nat) : Option (List Word) × Serial :=
  let q := s.port p
  let zeros := List.replicate 64 (0 : Word)
  if q.run = .off || !q.en || !hasOutput p || !(q.dom == 3 || isLoop p q || isSlave p q) then (none, s)
  else match q.outQ with
    | x :: r =>
      let f := if q.outGap then q.outFade.recover else q.outFade
      let (ys, fd) := f.deliver x
      (some ys, s.setPort p { q with outQ := r, outGap := false, outFade := fd.settle, blkPos := (q.blkPos + 1) % 192 })
    | [] =>
      if q.dom != 3 && isSlave p q && (q.frame = 0 || q.loss) then (some zeros, s)
      else
        let fd := if q.outGap then q.outFade else q.outFade.start
        let (ys, fd) := fd.deliver zeros
        let q' := { q with outFade := fd.settle, und := true, outGap := true, blkPos := (q.blkPos + 1) % 192 }
        (some ys, if q.outGap then s.setPort p q' else ((s.setPort p q').note p 0x0304 false).note p 0x0805 false)

/-- R368: the end of a fade-out or of a ramp-back of port `p`; on its own clock a fade runs on its own frames. -/
def Serial.fadeEnd (s : Serial) (p : Nat) (back : Bool) : Serial :=
  let q := s.port p
  let own := fun (f : Fade) => if q.dom = 3 && !back then
      (match f.phase with | .fadeOut _ => { f with phase := .fadeOut 64 } | _ => f) else f
  let fin := fun (f : Fade) => if back then f.endBack else (own f).endOut
  s.setPort p { q with fade := fin q.fade, outFade := fin q.outFade }

/-! ### Rates (R365, R367, R369) -/

/-- R367: a port's measured frame rate, and the rate of its domain on the same core clock, both in 0.01 Hz. -/
def Serial.rateUpdate (s : Serial) (p rate domRate : Nat) : Serial :=
  let q := s.port p
  if !q.en || !hasInput p || q.run = .off then s
  else
    let rate := if q.loss then 0 else rate
    let q := { q with rate := rate }
    let diff := if rate < q.repRate then q.repRate - rate else rate - q.repRate
    let s := if rate != 0 && q.rband != 0 && diff > q.rband then
        (s.setPort p { q with chg := true, repRate := rate }).note p 0x0803 false
      else s.setPort p q
    let q := s.port p
    let off := (if rate < domRate then domRate - rate else rate - domRate) * 1000000 > 200 * domRate
    let s := if rate != 0 && q.dom != 3 && !isMaster p q && off && !q.mis then
        (s.setPort p { q with mis := true, fade := q.fade.start }).note p 0x0802 false
      else s
    let q := s.port p
    if q.dom = 3 then s.setPort p (q.judge p rate) else s

/-! ### Commits (R365) -/

/-- R365: a write of COMMIT; `rate` is the judged frame rate in 0.01 Hz. -/
def Serial.commit (s : Serial) (p rate : Nat) : Serial :=
  let q := s.port p
  if portKind p != .tdm then s
  else if !q.en then s.setPort p { q with act := q.shadow, armed := none, applied := q.frame }
  else if q.cfgStop then
    if q.shadow.fits rate then
      s.setPort p { q with act := q.shadow, armed := none, cfgStop := false, cfgBad := false, applied := q.frame }
    else s.setPort p { q with cfgBad := true }
  else s.setPort p { q with armed := some q.shadow }

/-- R365: the first frame start at least 4 BCLK after the commit. -/
def Serial.commitApply (s : Serial) (p rate : Nat) : Serial :=
  let q := s.port p
  match q.armed with
  | none => s
  | some c =>
    if rate = 0 || c.fits rate then s.setPort p { q with act := c, armed := none, applied := q.frame }
    else s.setPort p { q with armed := none, cfgBad := true }

/-- R366, R376: a write of TDM_START_CTL, discarded as a whole with DOMAIN or MODE 3; `past` says that START_TICK has already passed. -/
def Serial.writeStart (s : Serial) (v : Word) (past : Bool) : Serial :=
  let dom := v.fld 4 2
  let mode := v.fld 0 2
  if dom = 3 || mode = 3 then s
  else
    let late := s.start.flag 9 && !v.flag 9
    let arm := s.start.flag 8 || v.flag 8
    let late := late || (v.flag 8 && mode == 1 && past)
    { s with start := BitVec.ofNat 32 ((if late then 512 else 0) + (if arm then 256 else 0) + dom <<< 4 + mode)
             edge := if v.flag 8 then none else s.edge }

/-- R366: a rising edge of AUD_START at `ns`. -/
def Serial.audStart (s : Serial) (ns : Nat) : Serial :=
  if s.start.flag 8 && s.start.fld 0 2 = 2 && s.edge.isNone then { s with edge := some ns } else s

/-! ### Registers (R376 to R378) -/

/-- The STAT register. -/
def SerPort.stat (q : SerPort) : Word :=
  let b := fun (x : Bool) (i : Nat) => if x then 2 ^ i else 0
  BitVec.ofNat 32 (b q.v 15 + b q.pro 14 + b q.crcErr 13 + b q.parErr 12 + b q.cfgBad 11 + b q.armed.isSome 10
    + b (q.fade.busy || q.outFade.busy) 9 + b (q.run == .running) 8 + b q.chg 7 + b q.und 6 + b q.ovr 5 + b q.mis 4
    + b q.slip 3 + b q.loss 2)

/-- W1C of the STAT register (R10). -/
def SerPort.clearStat (q : SerPort) (v : Word) : SerPort :=
  { q with crcErr := q.crcErr && !v.flag 13, parErr := q.parErr && !v.flag 12, cfgBad := q.cfgBad && !v.flag 11
           chg := q.chg && !v.flag 7, und := q.und && !v.flag 6, ovr := q.ovr && !v.flag 5 }

/-- The register at offset `o` of port `p`'s own range. -/
def SerPort.readReg (p : Nat) (q : SerPort) (o : Nat) : Word :=
  match portKind p with
  | .tdm =>
    if 0x10 ≤ o && o < 0x50 then Memory.get mapReset q.shadow.maps ((o - 0x10) / 4)
    else match o with
      | 0x00 => q.ctl
      | 0x04 => q.shadow.fmt
      | 0x08 => q.shadow.rxMask
      | 0x0C => q.shadow.txMask
      | 0x54 => q.stat
      | 0x58 => BitVec.ofNat 32 q.rate
      | 0x5C => BitVec.ofNat 32 q.rband
      | 0x60 => q.applied
      | 0x64 => q.frame
      | 0x68 => BitVec.ofNat 32 q.phase
      | _ => 0
  | .madi =>
    match o with
    | 0x00 => q.ctl
    | 0x04 => q.stat
    | 0x08 => BitVec.ofNat 32 q.rate
    | 0x0C => BitVec.ofNat 32 q.rband
    | 0x14 => BitVec.ofNat 32 q.rxch
    | 0x18 => BitVec.ofNat 32 (q.code <<< 16 + q.parity)
    | 0x1C => BitVec.ofNat 32 q.phase
    | _ => 0
  | .aesIn =>
    match o with
    | 0x00 => q.ctl
    | 0x04 => q.stat
    | 0x08 => BitVec.ofNat 32 q.rate
    | 0x0C => BitVec.ofNat 32 q.rband
    | 0x14 => BitVec.ofNat 32 q.phase
    | _ => if 0x18 ≤ o && o < 0x30 then q.rxcs.getD ((o - 0x18) / 4) 0 else 0
  | .aesOut =>
    match o with
    | 0x00 => q.ctl
    | 0x04 => q.stat
    | _ => if 0x08 ≤ o && o < 0x20 then Memory.get txcsReset q.txcs ((o - 0x08) / 4) else 0

/-- R360, R376, R377: the CTL value that a write leaves, none when the whole write is discarded. `setter` may write
DOMAIN. -/
def portCtlWrite (p : Nat) (old v : Word) (setter : Bool) : Option Word :=
  let en := old.flag 0
  let dom := if setter then v.fld 4 2 else old.fld 4 2
  let base := (v.fld 0 2) + dom <<< 4
  match portKind p with
  | .tdm =>
    let m := if en then old.fld 8 1 else v.fld 8 1
    some (BitVec.ofNat 32 (base + m <<< 8))
  | .madi =>
    let m := if en then old.fld 8 3 else v.fld 8 3
    some (BitVec.ofNat 32 (base + m <<< 8))
  | .aesIn => some (BitVec.ofNat 32 base)
  | .aesOut =>
    let lp := if en then old.fld 8 1 else v.fld 8 1
    let li := if en then old.fld 12 3 else v.fld 12 3
    let cp := if en then old.fld 16 1 else v.fld 16 1
    if cp = 1 && lp = 0 then none
    else some (BitVec.ofNat 32 (base + lp <<< 8 + li <<< 12 + cp <<< 16 + (v.fld 17 1) <<< 17))

/-- A write of CTL, with the rise or fall of EN (R372). -/
def Serial.writeCtl (s : Serial) (p : Nat) (v : Word) (setter : Bool) : Serial :=
  let q := s.port p
  match portCtlWrite p q.ctl v setter with
  | none => s
  | some c =>
    let s := s.setPort p { q with ctl := c }
    if q.en && !c.flag 0 then s.disable p
    else
      -- R369: a commit that changes DOMAIN ends a mismatch
      let s := if q.en && setter && c.fld 4 2 != q.dom && q.mis then s.setPort p ({ s.port p with mis := false }).recover else s
      s.startOwn p

/-- A write of a register of port `p` other than CTL and the commands (R365, R376, R377). -/
def SerPort.writePlain (p : Nat) (q : SerPort) (o : Nat) (v : Word) : SerPort :=
  match portKind p with
  | .tdm =>
    if 0x10 ≤ o && o < 0x50 then
      { q with shadow := { q.shadow with maps := Memory.set mapReset q.shadow.maps ((o - 0x10) / 4) (v &&& 0x1F1F1F1F) } }
    else match o with
      | 0x04 => if fmtOk v then { q with shadow := { q.shadow with fmt := v &&& 0x3FF3F } } else q
      | 0x08 => { q with shadow := { q.shadow with rxMask := v } }
      | 0x0C => { q with shadow := { q.shadow with txMask := v } }
      | 0x54 => q.clearStat v
      | 0x5C => { q with rband := v.fld 0 24 }
      | _ => q
  | .madi | .aesIn =>
    match o with
    | 0x04 => q.clearStat v
    | 0x0C => { q with rband := v.fld 0 24 }
    | _ => q
  | .aesOut =>
    if o = 0x04 then q.clearStat v
    else if 0x08 ≤ o && o < 0x20 then { q with txcs := Memory.set txcsReset q.txcs ((o - 0x08) / 4) v }
    else q

/-- Ports by block offset of the TDM_ block: `some p`. -/
def tdmPortAt (o : Nat) : Option Nat := if o < 0x800 then some (o / 0x80) else none
def madiPortAt (o : Nat) : Option Nat := if o < 0x100 then some (16 + o / 0x40) else none
def aesPortAt (o : Nat) : Option Nat :=
  if o < 0x200 then some (20 + o / 0x40) else if o < 0x400 then some (28 + (o - 0x200) / 0x40) else none

/-- Register offset within a port's own range. -/
def portReg (p o : Nat) : Nat := if p < 16 then o % 0x80 else o % 0x40

/-- The start registers of the TDM_ block. -/
def Serial.readStart (s : Serial) (o : Nat) : Word :=
  match o with
  | 0x800 => s.start
  | 0x804 => s.startLo
  | 0x808 => s.startHi
  | 0x80C => s.cap
  | _ => 0

end Sys2Proof.Machine
end

