-- ==== Sys2Proof/Machine/Clasp.lean ====
section
/-!
DEFINITION. The early block, lifeline routes, side-tone and the handover to the committed graph (R425 to R438).
-/

namespace Sys2Proof.Machine

/-! ### Early block (R425, R426, R434) -/

/-- R426: a copy is valid. -/
def earlyValid (b : List Byte) : Bool :=
  b.length == 4096 && le b 0 4 == 0x42455A44 && le b 4 2 == 0x0100 && le b 0xFFC 4 == crc32c (b.take 0xFFC) &&
    le b 12 1 ≤ 24 && le b 13 1 ≤ 64 && le b 14 1 ≤ 32

/-- R426: sequence number `a` is newer than `b`. -/
def seqNewer (a b : Nat) : Bool :=
  let d := (a + 2 ^ 32 - b) % 2 ^ 32
  1 ≤ d && d < 2 ^ 31

/-- R426: the copy in use. -/
def earlyPick (c : List Byte × List Byte) : Nat :=
  match earlyValid c.1, earlyValid c.2 with
  | true, true => if seqNewer (le c.2 8 4) (le c.1 8 4) then 1 else 0
  | false, true => 1
  | _, _ => 0

/-- The serial port of a port entry's KIND and INDEX. -/
def earlyPort (kind ix : Nat) : Option Nat :=
  match kind with
  | 0 => if ix < 16 then some ix else none
  | 1 => if ix < 4 then some (16 + ix) else none
  | 2 => if ix < 8 then some (20 + ix) else none
  | 3 => if ix < 8 then some (28 + ix) else none
  | _ => none

/-- R357, R431: whether a declared port's format breaks no rule at 48 kHz. -/
def earlyFmtOk (p : Nat) (fmt : Word) : Bool :=
  match portKind p with
  | .tdm => fmtOk fmt && ({ TdmCfg.reset with fmt := fmt } : TdmCfg).fits 4800000
  | .madi => !fmt.flag 10
  | _ => true

/-- R425: the declared ports. -/
def earlyPorts (b : List Byte) : List ClaspPort :=
  (List.range (le b 12 1)).filterMap fun i =>
    let o := 0x80 + 16 * i
    (earlyPort (le b o 1) (le b (o + 1) 1)).map fun p =>
      let fmt := BitVec.ofNat 32 (le b (o + 4) 4)
      { port := p, fmt := fmt, rxMask := BitVec.ofNat 32 (le b (o + 8) 4), txMask := BitVec.ofNat 32 (le b (o + 12) 4)
        ok := earlyFmtOk p fmt, dom := none, released := false, fade := 0, buf := [], last := [], slips := 0, now := none }

/-- The serial port settings of a declared port (R431): TDM ports are masters. -/
def ClaspPort.serial (c : ClaspPort) : SerPort :=
  let q := SerPort.reset c.port
  match portKind c.port with
  | .tdm =>
    let cfg : TdmCfg := { TdmCfg.reset with fmt := c.fmt, rxMask := c.rxMask, txMask := c.txMask }
    { q with ctl := 0x101, shadow := cfg, act := cfg }
  | _ => { q with ctl := (c.fmt.setFld 0 8 1).setFlag 8 false }

/-- Slots or channels of a declared port. -/
def ClaspPort.width (c : ClaspPort) : Nat :=
  match portKind c.port with
  | .tdm => c.serial.act.slots
  | .madi => madiChans c.serial
  | _ => 2

/-- R425: an endpoint as (port, slot): source side or destination side. -/
def endpoint (v : Nat) (dst : Bool) : Nat × Nat :=
  let ix := fld v 8 5
  let p := match fld v 13 3 with
    | 0 => if ix < 16 then ix else 99
    | 1 => if ix < 4 then 16 + ix else 99
    | 2 => if ix < 8 then (if dst then 28 + ix else 20 + ix) else 99
    | _ => 99
  (p, v % 256)

/-- R434: an endpoint names a declared port and a slot of its format. -/
def endpointOk (ps : List ClaspPort) (e : Nat × Nat) : Bool := ps.any fun c => c.port == e.1 && c.ok && e.2 < c.width

/-- R432, R434: the routes that run, in order. -/
def earlyRoutes (ps : List ClaspPort) (b : List Byte) : Nat → Nat → List Route → List Route
  | 0, _, acc => acc
  | n + 1, i, acc =>
    let o := 0x200 + 8 * i
    let s := endpoint (le b o 2) false
    let d := endpoint (le b (o + 2) 2) true
    let ok := le b (o + 5) 1 % 2 == 1 && le b (o + 4) 1 ≤ 3 && endpointOk ps s && endpointOk ps d && acc.all fun r => r.dst != d
    earlyRoutes ps b n (i + 1) (if ok then acc ++ [⟨s, d, le b (o + 4) 1, [], 0, .life⟩] else acc)

/-- R433, R434: the side-tone paths that run. -/
def earlyTones (ps : List ClaspPort) (b : List Byte) : List SideTone :=
  (List.range (le b 14 1)).filterMap fun i =>
    let o := 0x400 + 8 * i
    let s := endpoint (le b o 2) false
    let d := endpoint (le b (o + 2) 2) true
    match ps.find? (·.port == s.1), ps.find? (·.port == d.1) with
    | some p, some q =>
      let ok := le b (o + 5) 1 % 2 == 1 && le b (o + 4) 1 ≤ 3 && endpointOk ps s && endpointOk ps d && portKind s.1 == .tdm &&
        portKind d.1 == .tdm && p.serial.act.width == q.serial.act.width && p.fmt.flag 15 == q.fmt.flag 15 &&
        d.2 == (s.2 + 2) % q.width
      if ok then some ⟨s, d, le b (o + 4) 1, [], 0, 0⟩ else none
    | _, _ => none

/-- R426, R427, R434: the copy is chosen and its tables take effect. -/
def Clasp.select (c : Clasp) : Clasp :=
  let v := (earlyValid c.copies.1, earlyValid c.copies.2)
  let k := earlyPick c.copies
  let b := if k = 0 then c.copies.1 else c.copies.2
  if !v.1 && !v.2 then { c with stage := .selected, valid := v, copy := 0, seq := 0, skipped := 0, flags := 0, ports := [], routes := [], tones := [] }
  else
    let ps := earlyPorts b
    let rs := earlyRoutes ps b (le b 13 1) 0 []
    let ts := earlyTones ps b
    { c with stage := .selected, valid := v, copy := k, seq := le b 8 4, flags := le b 6 2, ports := ps, routes := rs, tones := ts
             skipped := le b 12 1 + le b 13 1 + le b 14 1 - ps.length - rs.length - ts.length }

/-- The bytes of the copy in use; nothing when neither is valid. -/
def Clasp.block (c : Clasp) : List Byte :=
  if !c.valid.1 && !c.valid.2 then [] else if c.copy = 0 then c.copies.1 else c.copies.2

/-- R425: CLOCK_PLAN as words. -/
def Clasp.plan (c : Clasp) : List Word := wordsOf (slice c.block 0x10 80)

def Clasp.declared (c : Clasp) (p : Nat) : Bool := c.ports.any fun q => q.port == p && q.ok && !q.released
def Clasp.portOf (c : Clasp) (p : Nat) : Option ClaspPort := c.ports.find? fun q => q.port == p && q.ok
def Clasp.modPort (c : Clasp) (p : Nat) (f : ClaspPort → ClaspPort) : Clasp :=
  { c with ports := c.ports.map fun q => if q.port = p then f q else q }

/-! ### Words (R432, R433) -/

/-- A slot's word on the wire as a lifeline word. -/
def lifeIn (q : SerPort) (p w : Nat) : Word :=
  match portKind p with
  | .tdm => BitVec.ofNat 32 ((w % 2 ^ q.act.width) <<< (32 - q.act.width))
  | _ => BitVec.ofNat 32 ((w % 2 ^ 24) <<< 8)

/-- A lifeline word as a slot's word on the wire, rounded to the word length of the slot. -/
def lifeOut (q : SerPort) (p : Nat) (x : Word) : Nat :=
  match portKind p with
  | .tdm =>
    let bits := 16 + 8 * q.act.word
    wrapN bits (satN bits (rneShift (32 - bits) x.toInt)) <<< (q.act.width - bits)
  | _ => wrapN 24 (satN 24 (rneShift 8 x.toInt))

/-- R432: the gain codes as Q1.15. -/
def lifeGain (code : Nat) : Nat :=
  match code with
  | 0 => 32768
  | 1 => 16423
  | 2 => 8231
  | _ => 0

/-- R432: a word under a gain, rounded at 24 bits; unity passes it unchanged. -/
def lifeMul (x : Word) (code : Nat) : Word := if code = 0 then x else wordI (rneShift 23 (x.toInt * (lifeGain code : Nat)) * 256)

/-- R432, R433, R438: the fade gain (j + 1)/32, rounded at 24 bits. -/
def lifeFade (x : Word) (j : Nat) : Word := if j < 32 then wordI (rneShift 13 (x.toInt * ((j + 1 : Nat) : Int)) * 256) else x

/-- R436: the fade-out gain (31 − j)/32. -/
def lifeFadeOut (x : Word) (j : Nat) : Word := if j < 32 then wordI (rneShift 13 (x.toInt * ((31 - j : Nat) : Int)) * 256) else 0

/-- R433: a word plus side-tone, limited to 24 bits. -/
def toneAdd (x s : Word) : Word := wordI (clampI (-(2 ^ 31)) (2 ^ 31 - 256) (x.toInt + s.toInt))

/-! ### One lifeline frame (R430 to R433) -/

/-- R431: an input port takes the frames that arrived in this lifeline frame; elastic inputs drop or repeat one. -/
def ClaspPort.take (c : ClaspPort) (fs : List (List Nat)) : ClaspPort :=
  if portKind c.port = .tdm then { c with now := fs.head? }
  else
    let b := c.buf ++ fs
    let full := 2 < b.length
    let b := if full then b.drop (b.length - 2) else b
    match b with
    | x :: r => { c with buf := r, last := x, now := some x, slips := if full then c.slips + 1 else c.slips }
    | [] => if c.last.isEmpty then { c with now := none } else { c with now := some c.last, slips := c.slips + 1 }

/-- The word of a slot in the input frame in hand. -/
def Clasp.word (c : Clasp) (e : Nat × Nat) : Option Word :=
  (c.portOf e.1).bind fun q => q.now.map fun ws => lifeIn q.serial e.1 (ws.getD e.2 0)

/-- R432: what a route delivers in this frame: the word of three frames before, with its gain and fade-in. -/
def Route.out (r : Route) : Word :=
  match r.hist.getD 2 none with
  | some x => lifeFade (lifeMul x r.gain) (r.age - 1)
  | none => 0

/-- R432: a route takes the next input frame. -/
def Route.step (r : Route) (w : Option Word) : Route :=
  let hist := (w :: r.hist).take 3
  { r with hist := hist, age := if (hist.getD 2 none).isSome then r.age + 1 else r.age }

/-- R433: two ports run on one clock with common frame starts. -/
def Clasp.common (c : Clasp) (a b : Nat) : Bool :=
  match c.portOf a, c.portOf b with
  | some p, some q => p.dom == q.dom && !p.released && !q.released
  | _, _ => false

/-- R433: what a side-tone path adds in this frame, on a port of `slots` slots. -/
def SideTone.out (t : SideTone) (slots : Nat) (common : Bool) : Word :=
  if !common then 0
  else
    let x := t.hist.getD (if t.src.2 + 2 < slots then 0 else 1) 0
    lifeFade (lifeMul x t.gain) t.fade

/-- R433: a side-tone path takes the next input frame. -/
def SideTone.step (t : SideTone) (w : Option Word) (common : Bool) : SideTone :=
  { t with hist := (w.getD 0 :: t.hist).take 2
           fade := if common then min 32 (t.fade + 1) else 0
           muted := if common then t.muted else t.muted + 1 }

/-- R432, R433: the lifeline words of an output port: slot, word. -/
def Clasp.outWords (c : Clasp) (p : Nat) : List (Nat × Word) := (c.routes.filter (·.dst.1 == p)).map fun r => (r.dst.2, r.out)

/-- R433: a slot's word with every side-tone that ends in it. -/
def Clasp.addTones (c : Clasp) (p slots sl : Nat) (x : Word) : Word :=
  (c.tones.filter fun t => t.dst == (p, sl)).foldl (fun x t => toneAdd x (t.out slots (c.common t.src.1 p))) x

/-- The frame of an output port on the lifeline clock. -/
def Clasp.lifeFrame (c : Clasp) (q : ClaspPort) : List (Option Nat) :=
  let ser := q.serial
  let ws := c.outWords q.port
  (List.range q.width).map fun sl =>
    if portKind q.port == .tdm && !ser.act.txMask.flag sl then none
    else
      let x := ((ws.find? (·.1 == sl)).map (·.2)).getD 0
      some (lifeOut ser q.port (c.addTones q.port q.width sl x))

/-- R432, R433: one lifeline frame: what goes out on ports still on the lifeline clock, then the inputs are taken. `ins`
gives (port, frames that arrived). -/
def Clasp.frame (c : Clasp) (ins : List (Nat × List (List Nat))) : Clasp × List (Nat × List (Option Nat)) :=
  if c.stage != .live then (c, [])
  else
    let outs := (c.ports.filter fun q => q.ok && !q.released && q.dom.isNone && hasOutput q.port).map fun q => (q.port, c.lifeFrame q)
    let c : Clasp := { c with ports := c.ports.map fun q => if q.ok then q.take (((ins.find? (·.1 == q.port)).map (·.2)).getD []) else q }
    let c : Clasp := { c with routes := c.routes.map fun r => r.step (c.word r.src),
                              tones := c.tones.map fun t => t.step (c.word t.src) (c.common t.src.1 t.dst.1) }
    (c, outs)

/-! ### Handover (R435 to R438) -/

/-- R435: the blend of lifeline and plane words over 480 ticks. -/
def handover (a b : Word) (j : Nat) : Word := if j < 480 then wordI (a.toInt + ((b.toInt - a.toInt) * ((j + 1 : Nat) : Int)) / 480) else b

/-- One slot of a port on its domain's clock: lifeline word `a`, plane word `b`. -/
def Merge.value (m : Merge) (a b : Word) : Word :=
  match m with
  | .life => a
  | .toPlane j => handover a b j
  | .plane => b
  | .toLife j => handover b a j
  | .fadeIn j => lifeFade a j

/-- R435, R437: the next period; `cov` says that a committed epoch in force covers the output, `resc` that the Rescue
condition, or its silence until the fade-in tick, holds. -/
def Merge.next (m : Merge) (cov resc : Bool) : Merge :=
  if resc then
    match m with
    | .life => if cov then .fadeIn 32 else .life
    | .fadeIn j => .fadeIn (min 32 (j + 1))
    | _ => .fadeIn 0
  else
    match m with
    | .life => if cov then .toPlane 0 else .life
    | .toPlane j => if !cov then .toLife 0 else if j ≥ 479 then .plane else .toPlane (j + 1)
    | .plane => if cov then .plane else .toLife 0
    | .toLife j => if cov then .toPlane 0 else if j ≥ 479 then .life else .toLife (j + 1)
    | .fadeIn _ => if cov then .toPlane 0 else .life

/-- R435 to R437: the merge stage at a tick of port `p`'s domain: the slots that the plane gives, with the lifeline. `cov`
tells which slots an epoch in force covers. -/
def Clasp.merge (c : Clasp) (p : Nat) (cov : Nat → Bool) (resc : Bool) (slots : List (Option Nat)) : Clasp × List (Option Nat) :=
  match c.portOf p with
  | none => (c, slots)
  | some q =>
    if q.dom.isNone then (c, slots)
    else if q.released then
      let ser := q.serial
      if q.fade < 32 then
        let ws := c.outWords p
        (c.modPort p fun q => { q with fade := q.fade + 1 },
         (List.range slots.length).map fun sl => (slots.getD sl none).map fun _ =>
           lifeOut ser p (lifeFadeOut (((ws.find? (·.1 == sl)).map (·.2)).getD 0) q.fade))
      else (c, slots)
    else
      let ser := q.serial
      let c : Clasp := { c with routes := c.routes.map fun r => if r.dst.1 = p then { r with merge := r.merge.next (cov r.dst.2) resc } else r }
      (c, (List.range slots.length).map fun sl => (slots.getD sl none).map fun w =>
        let b := lifeIn ser p w
        let x := match c.routes.find? fun r => r.dst == (p, sl) with
          | some r => r.merge.value r.out b
          | none => b
        let y := c.addTones p q.width sl x
        if y = b then w else lifeOut ser p y)

/-- R435: the clock of port `p` moves to domain `k`. -/
def Clasp.move (c : Clasp) (p k : Nat) : Clasp := { c.modPort p fun q => { q with dom := some k } with pll := .domain k }

/-- R436: port `p` is released, its clock going to its own settings' domain. -/
def Clasp.release (c : Clasp) (p k : Nat) : Clasp := c.modPort p fun q => { q with released := true, dom := some k, fade := 0 }

/-- R430, R437, R438: ports on the domains that meet `f` go back to the lifeline PLL, which runs from CREF unless that is lost. -/
def Clasp.takeBack (c : Clasp) (f : Nat → Bool) (crefLost : Bool) : Clasp :=
  { c with ports := c.ports.map fun q => match q.dom with | some k => if f k && !q.released then { q with dom := none } else q | none => q
           routes := c.routes.map fun r =>
             match (c.portOf r.dst.1).bind (·.dom) with | some k => if f k then { r with merge := .life } else r | none => r
           pll := match c.pll with | .domain k => if f k then (if crefLost then .rescue else .cref) else c.pll | x => x }

/-- R428: the bytes of a new copy, SEQ one above the copy in use and the CRC set. -/
def earlyStamp (b : List Byte) (seq : Nat) : List Byte :=
  let b := b.take 8 ++ leBytes 4 ((seq + 1) % 2 ^ 32) ++ slice b 12 (0xFFC - 12)
  b ++ leBytes 4 (crc32c b)

end Sys2Proof.Machine
end

