-- ==== Sys2Proof/Machine/Uzor.lean ====
section
/-!
DEFINITION. The Uzor instruction set (R102 to R128, R150 to R157): legality of each slot, the operations of the six
slots, counted loops, and landing.
-/

namespace Sys2Proof.Machine

/-- What an issued slot leaves: operations in flight with their latency. -/
abbrev Landings := List (Nat × Eff)

/-! ### MAC slot -/

/-- R108, R125: a MAC slot with an illegal encoding. -/
def macIllegal (w : Nat) : Bool :=
  let op := macOp w
  let acc := macAcc w
  let ra := macRa w
  let rb := macRb w
  op != 0 &&
  (fld w 0 16 != 0 ||
   match op with
   | 1 | 3 => acc % 4 != 0 || rb % 4 != 0
   | 2 | 4 => rb % 4 != 0
   | 5 => acc % 4 != 0 || ra % 2 != 0 || rb % 4 != 0
   | 6 => acc % 2 != 0 || ra % 2 != 0 || rb % 4 != 0
   | 7 => acc % 2 != 0 || ra % 2 != 0 || rb % 2 != 0
   | 8 => rb != 0 || macQ w
   | 9 => rb ≥ 3 || macCmb w != 0 || macQ w || macS w
   | 10 => ra != 0 || macCmb w != 0 || macQ w
   | _ => true)

/-- The signed value of logical D register `k`. -/
def Uzor.rdI (u : Uzor) (k : Nat) : Int := (u.rd k).toInt

/-- R80, R76: the four products of a MAC operation, shifted for Q1.31 coefficients. -/
def macProducts (u : Uzor) (op ra rb : Nat) (q : Bool) : List Int :=
  let p : List Int :=
    if op ≤ 4 then (List.range 4).map fun k => u.rdI ra * u.rdI (rb + k)
    else if op ≤ 6 then
      (List.range 4).map fun k => u.rdI (ra + k / 2) * u.rdI (rb + k)
    else [u.rdI ra * u.rdI rb, u.rdI (ra + 1) * u.rdI (rb + 1),
          u.rdI ra * u.rdI (rb + 1), u.rdI (ra + 1) * u.rdI rb]
  if q then p.map (· / 8) else p

/-- R81: the accumulators of a MAC operation, counted from ACC, with the value each is combined with. -/
def macForm (op : Nat) (p : List Int) : List (Nat × Int) :=
  let g := fun k => p.getD k 0
  match op with
  | 1 | 3 | 5 => [(0, g 0), (1, g 1), (2, g 2), (3, g 3)]
  | 2 | 4 => [(0, g 0 + g 1 + g 2 + g 3)]
  | 6 => [(0, g 0 + g 2), (1, g 1 + g 3)]
  | _ => [(0, g 0 - g 1), (1, g 2 + g 3)]

/-- R107, R109: CMB. -/
def macComb (cmb : Nat) (old v : Int) : Int :=
  match cmb with
  | 0 => v
  | 1 => old + v
  | 2 => old - v
  | _ => -v

/-- The landings of one accumulator writeback (R77). -/
def accLand (k : Nat) (v : Int) (s : Bool) : Landings :=
  let r := wb80 v s
  (4, .acc k r.1) :: if r.2 then [(4, .stat facSat)] else []

/-- R109: M4C, M4CS, M4S, M4SS, M22, M22P, MCX. -/
def macMul (u : Uzor) (w : Nat) : Landings :=
  let a := macAcc w
  (macForm (macOp w) (macProducts u (macOp w) (macRa w) (macRb w) (macQ w))).flatMap fun e =>
    accLand (a + e.1) (macComb (macCmb w) (u.ra (a + e.1)).toInt e.2) (macS w)

/-- R109: ALD, a Q4.28 value into a Q24.56 accumulator. -/
def macAld (u : Uzor) (w : Nat) : Landings :=
  let a := macAcc w
  accLand a (macComb (macCmb w) (u.ra a).toInt (u.rdI (macRa w) * (2 ^ 28 : Nat))) (macS w)

/-- R110: APUT, one part of an accumulator. -/
def macAput (u : Uzor) (w : Nat) : Landings := [(4, .accPart (macAcc w) (macRb w % 4) (u.rd (macRa w)))]

/-- R109: ASH; a right shift never saturates. -/
def macAsh (u : Uzor) (w : Nat) : Landings :=
  let a := macAcc w
  let n := sext 6 (macRb w)
  let v := (u.ra a).toInt
  if n ≥ 0 then accLand a (v * (2 ^ n.toNat : Nat)) (macS w)
  else accLand a (v / (2 ^ (-n).toNat : Nat)) false

/-- R109: a legal MAC slot that is not predicated off. -/
def macExec (u : Uzor) (w : Nat) : Landings :=
  match macOp w with
  | 0 => []
  | 8 => macAld u w
  | 9 => macAput u w
  | 10 => macAsh u w
  | _ => macMul u w

/-! ### ALU/ACS slot -/

/-- R112 to R118, R125: an ALU/ACS slot with an illegal encoding; `ix` is the bundle's index. -/
def aluIllegal (w ix : Nat) : Bool :=
  let op := aluOp w
  let s := aluS w
  let dst := aluDst w
  let a := aluA w
  let b := aluB w
  let sub := aluSub w
  match op with
  | 0x00 | 0x01 | 0x02 | 0x03 => false
  | 0x04 | 0x05 => b != 0
  | 0x06 | 0x07 | 0x08 | 0x09 | 0x0A => s
  | 0x0B | 0x0C | 0x0D => s || sub ≥ 2 || (sub == 1 && b ≥ 32)
  | 0x0E => sub ≥ 2 || (sub == 1 && b ≥ 32)
  | 0x0F => s || b != 0
  | 0x10 => s || dst ≥ 8
  | 0x11 => s || dst ≥ 8 || b != 0
  | 0x12 => s || dst ≥ 8 || a ≥ 8 || b ≥ 8 || sub ≥ 5 || (sub == 4 && b != 0)
  | 0x13 => s
  | 0x14 => a ≥ 8 || b != 0 || sub ≥ 2
  | 0x15 =>
    s || fld w 0 8 != 0 ||
      (let k := aluSreg w
       !(k ≤ 0x2B || (0x30 ≤ k && k ≤ 0x37) || (0x40 ≤ k && k < 0x60 && k % 4 != 3)))
  | 0x16 => s || fld w 0 8 != 0 || (mvdEff (aluSreg w) 0).isNone
  | 0x17 | 0x18 => false
  | 0x19 | 0x1A => a % 2 != 0 || b % 2 != 0 || sub ≥ 4
  | 0x1B => s || b != 0 || sub != 0
  | 0x1C => s || dst != 0 || sub != 0
  | 0x1D => s || sub ≥ 3
  | _ => loopCount w == 0 || loopEnd w ≤ ix

/-- A D-register landing of latency `l` (R156: the name is resolved at issue). -/
def dLand (u : Uzor) (l k : Nat) (v : Word) : Landings := [(l, .d (u.phys k) v)]

/-- A D-register landing through the 32-bit writeback (R78). -/
def dWb (u : Uzor) (l k : Nat) (v : Int) (s : Bool) : Landings :=
  let r := wb32 v s
  (l, .d (u.phys k) r.1) :: if r.2 then [(l, .stat facSat)] else []

/-- R113: the shift amount. -/
def shiftAmount (u : Uzor) (w : Nat) : Nat :=
  if aluSub w % 2 = 0 then (u.rd (aluB w)).toNat % 32 else aluB w % 32

/-- R112 to R116: a legal ALU slot, other than add-compare-select, shared-bank access and LOOP. -/
def aluExec (u : Uzor) (w : Nat) : Landings :=
  let s := aluS w
  let dst := aluDst w
  let a := u.rd (aluA w)
  let b := u.rd (aluB w)
  let sub := aluSub w
  let n := shiftAmount u w
  match aluOp w with
  | 0x01 => dWb u 1 dst (a.toInt + b.toInt) s
  | 0x02 => dWb u 1 dst (a.toInt - b.toInt) s
  | 0x03 => dWb u 1 dst (a.toInt + sext 9 (aluImm9 w)) s
  | 0x04 => dWb u 1 dst (-a.toInt) s
  | 0x05 => dWb u 1 dst a.toInt.natAbs s
  | 0x06 => dLand u 1 dst (if a.slt b then a else b)
  | 0x07 => dLand u 1 dst (if b.slt a then a else b)
  | 0x08 => dLand u 1 dst (a &&& b)
  | 0x09 => dLand u 1 dst (a ||| b)
  | 0x0A => dLand u 1 dst (a ^^^ b)
  | 0x0B => dLand u 1 dst (BitVec.ofNat 32 (a.toNat * 2 ^ n))
  | 0x0C => dLand u 1 dst (BitVec.ofNat 32 (a.toNat / 2 ^ n))
  | 0x0D => dLand u 1 dst (wordI (a.toInt / (2 ^ n : Nat)))
  | 0x0E => dWb u 1 dst (a.toInt * (2 ^ n : Nat)) s
  | 0x0F => dLand u 1 dst (BitVec.ofNat 32 (normCount a))
  | 0x10 => [(1, .pf (dst % 8) (cond sub a b))]
  | 0x11 => [(1, .pf (dst % 8) (cond sub a 0))]
  | 0x12 => [(1, .pf (dst % 8) (plogic sub (u.rpf (aluA w % 8)) (u.rpf (aluB w % 8))))]
  | 0x13 => dLand u 1 dst (if u.rpf sub then a else b)
  | 0x14 => dWb u 1 dst (roundAcc (u.ra (aluA w % 8)).toInt (sub % 2 == 1)) s
  | 0x15 => dLand u 1 dst ((u.mvs (aluSreg w)).getD 0)
  | 0x16 =>
    match mvdEff (aluSreg w) (u.rd dst) with
    | some e => [(1, e)]
    | none => []
  | 0x17 => dLand u 1 dst (wordI (sext 16 (aluImm16 w)))
  | 0x18 => dLand u 1 dst (BitVec.ofNat 32 (aluImm16 w * 2 ^ 16 + (u.rd dst).toNat % 2 ^ 16))
  | _ => []

/-- R115: ACSMAX and ACSMIN; the survivor register is read at issue. -/
def acsExec (u : Uzor) (w : Nat) : Landings :=
  let a := aluA w
  let b := aluB w
  let k := aluSub w % 4
  let x := u.rdI a + u.rdI b
  let v := u.rdI (a + 1) + u.rdI (b + 1)
  let dec : Bool := if aluOp w = 0x19 then v > x else v < x
  dWb u 2 (aluDst w) (if dec then v else x) (aluS w) ++
    [(2, .sv k ((u.rsv k <<< 1) ||| (if dec then 1 else 0)))]

/-- R262, R520: whether an access of Facet `n` to shared-bank word address `a` reaches its bank. -/
def sbPasses (n : Nat) (win : Word) (a : Nat) : Bool :=
  a < 2 ^ 22 && fld a 1 6 == n && win.flag 31 && win.fld 0 15 ≤ fld a 7 15 && fld a 7 15 ≤ win.fld 16 15

/-- The access kind of SBLD, SBST and SBATM (R117). -/
def sbKind (w : Nat) : SbKind :=
  match aluOp w with
  | 0x1B => .ld
  | 0x1C => .st
  | _ => match aluSub w with
    | 0 => .addW
    | 1 => .addS
    | _ => .swap

/-! ### Movers -/

/-- R119 to R121, R125: a mover slot with an illegal encoding. -/
def moverIllegal (m : FMem) (w : Nat) : Bool :=
  let d := mvD w
  let am := mvAm w
  match mvOp w with
  | 0 => false
  | 1 | 4 => am == 2 && m != .y && mvP w ≥ 2
  | 2 | 5 => d % 2 != 0 || (am == 2 && m != .y && mvP w ≥ 2)
  | 3 | 6 => d % 4 != 0 || (am == 2 && m != .y && mvP w ≥ 2)
  | _ => d != 0 || am == 0 || am == 3 || (am == 2 && m != .y && mvP w ≥ 2)

/-- Words moved by a mover operation (R120). -/
def moverWords (w : Nat) : Nat :=
  match mvOp w with
  | 1 | 4 => 1
  | 2 | 5 => 2
  | 3 | 6 => 4
  | _ => 0

/-- R120, R121, R130: a legal mover slot: the access, then the pointer update with latency 1. -/
def moverExec (f : Facet) (m : FMem) (w : Nat) : Facet × Landings :=
  let op := mvOp w
  if op = 0 then (f, []) else
  let ad := f.u.addr m (mvAm w) (mvP w) (mvM w)
  let upd : Landings :=
    match ad.2.1 with
    | some p => (1, .sp (spP m (mvP w)) (BitVec.ofNat 16 p)) :: if ad.2.2 then [(1, .stat facCircOob)] else []
    | none => []
  let d := mvD w
  let n := moverWords w
  if op = 7 then (f, upd)
  else if op ≤ 3 then
    let r := f.load m n ad.1
    (r.1, ((List.range n).zip r.2).map (fun p => (3, Eff.d (f.u.phys (d + p.1)) p.2)) ++ upd)
  else
    let r := f.storeTo m ad.1 ((List.range n).map fun k => f.u.rd (d + k))
    (r.1, r.2.map (fun p => (2, Eff.mem m p.1 p.2)) ++ upd)

/-! ### Sequencer and loops -/

/-- R122, R125: a sequencer slot with a static illegal encoding. -/
def seqIllegal (w : Nat) : Bool := seqSop w ≥ 5 || fld w 0 4 != 0

/-- R122: whether the operation is valid in the state in which it issues. -/
def seqValid (sop : Nat) (st : FacPhase) : Bool :=
  match sop with
  | 1 => st == .sample || st == .background
  | 2 => st == .stub
  | 3 => st == .background
  | _ => true

/-- The sequencer operation of a legal slot. -/
def seqOf (sop : Nat) : SeqOp :=
  match sop with
  | 1 => .halt
  | 2 => .yield
  | 3 => .resume
  | 4 => .rotclr
  | _ => .none

/-- The frame set of a state (R150). -/
def frameSet (st : FacPhase) : Nat := if st = .background then 1 else 0

/-- R152: the next index after the bundle at index `e`, and the landings of its loop ENDs. -/
def loopEnds (u : Uzor) (set e : Nat) : Nat × Landings :=
  let f1 := u.frame (2 * set + 1)
  let f0 := u.frame (2 * set)
  let hit1 := f1.active && f1.stop == e
  let hit0 := f0.active && f0.stop == e
  let lc1 := (u.rsp (spLC 1)).toNat
  let lc0 := (u.rsp (spLC 0)).toNat
  let back1 := hit1 && decide (lc1 > 1)
  let see0 := hit0 && !back1
  let back0 := see0 && decide (lc0 > 1)
  let rot := (hit1 && f1.rot) || (see0 && f0.rot)
  let next := if back1 then f1.start else if back0 then f0.start else e + 1
  let l1 : Landings :=
    if back1 then [(1, .sp (spLC 1) (BitVec.ofNat 16 (lc1 - 1)))]
    else if hit1 then [(1, .sp (spLC 1) 0), (1, .frame (2 * set + 1) { f1 with active := false })] else []
  let l0 : Landings :=
    if back0 then [(1, .sp (spLC 0) (BitVec.ofNat 16 (lc0 - 1)))]
    else if see0 then [(1, .sp (spLC 0) 0), (1, .frame (2 * set) { f0 with active := false })] else []
  (next, l1 ++ l0 ++ if rot then [(1, .rotDec)] else [])

/-- R151: the landings of LOOP at index `ix`; outside states 2 and 4 no frame set is current (R150). -/
def loopOpen (st : FacPhase) (w ix : Nat) : Landings :=
  let n := loopN w
  let lc : Nat × Eff := (1, .sp (spLC n) (BitVec.ofNat 16 (loopCount w)))
  if st = .sample || st = .background then
    [lc, (1, .frame (2 * frameSet st + n) ⟨ix + 1, loopEnd w, loopRot w, true⟩)]
  else [lc]

/-- R154: the loop cache after a LOOP opens a body [lo, hi]. -/
def cacheOpen (c : Option (Nat × Nat × Nat)) (lo hi : Nat) : Option (Nat × Nat × Nat) :=
  match c with
  | some (a, b, u) =>
    if a ≤ lo && hi ≤ b then some (a, b, u)
    else if hi + 1 - lo ≤ 64 then some (lo, hi, lo) else some (a, b, u)
  | none => if hi + 1 - lo ≤ 64 then some (lo, hi, lo) else none

/-- R154: whether the bundle at index `i` comes from the loop cache. -/
def cacheHit (c : Option (Nat × Nat × Nat)) (i : Nat) : Bool :=
  match c with
  | some (a, _, u) => a ≤ i && i < u
  | none => false

/-- R154: the loop cache after the bundle at index `i` was fetched from the bank. -/
def cacheFill (c : Option (Nat × Nat × Nat)) (i : Nat) : Option (Nat × Nat × Nat) :=
  match c with
  | some (a, b, u) => if i = u && i ≤ b then some (a, b, u + 1) else some (a, b, u)
  | none => none

/-! ### One bundle -/

/-- What issuing a bundle leaves for its end: the sequencer operation and a shared-bank access that stalls. -/
structure Issued where
  f    : Facet
  seq  : SeqOp
  sb   : Option SbReq
deriving DecidableEq, Repr

/-- R105, R126: the slot's verdict: illegal, off, or executed. -/
def slotOn (illegal g guard : Bool) : Bool := !illegal && (!g || guard)

/-- Set ILLEGAL when any slot of the bundle is illegal (R126). DESIGN CHOICE (R99 counts occurrences, R126 does not say of
what): a bundle with several illegal slots is one occurrence. -/
def noteIllegal (f : Facet) (b : Bool) : Facet := if b then f.setStat facIllegal else f

/-- R117, R262, R520: the shared-bank slot of Facet `n`: an access that passes stalls, another lands 0 or nothing. -/
def sbExec (f : Facet) (n w : Nat) (seq : SeqOp) : Facet × Landings × Option SbReq :=
  let a := (f.u.rd (aluA w)).toNat
  let k := sbKind w
  if sbPasses n f.r.sbwin a then
    (f, [], some { kind := k, addr := a, data := f.u.rd (aluB w), dst := f.u.phys (aluDst w), seq := seq })
  else
    (f.setStat facMemRange, if k = .st then [] else dLand f.u 1 (aluDst w) 0, none)

/-- R82 to R86, R102 to R126: issue the bundle `b` of Facet `n` at index `f.u.pc`. Every slot reads its operands from
`f.u` as it stands; results go in flight in the order in which a later one wins at a common boundary (R84, R157):
loop ENDs, ROTCLR, Z, Y, X, ALU, MAC. After RESUME comes the bundle that follows it, or the saved one (R160). -/
def issueBundle (f : Facet) (n b : Nat) : Issued :=
  let ix := f.u.pc
  let sl := slotsOf b
  let u := f.u
  let guard := xor (u.rpf (seqPsel sl.seq)) (seqPinv sl.seq)
  let macBad := macIllegal sl.mac
  let aluBad := aluIllegal sl.alu ix
  let seqBad := seqIllegal sl.seq || !seqValid (seqSop sl.seq) f.st
  let seq := if seqBad then SeqOp.none else seqOf (seqSop sl.seq)
  let f := noteIllegal f (macBad || aluBad || moverIllegal .x sl.x || moverIllegal .y sl.y || moverIllegal .z sl.z
    || seqBad)
  let z := if slotOn (moverIllegal .z sl.z) (mvG sl.z) guard then moverExec f .z sl.z else (f, [])
  let y := if slotOn (moverIllegal .y sl.y) (mvG sl.y) guard then moverExec z.1 .y sl.y else (z.1, [])
  let x := if slotOn (moverIllegal .x sl.x) (mvG sl.x) guard then moverExec y.1 .x sl.x else (y.1, [])
  let op := aluOp sl.alu
  let isLoop := op ≥ 0x1E
  let isSb := 0x1B ≤ op && op ≤ 0x1D
  let aluOn := slotOn aluBad (aluG sl.alu && !isLoop) guard
  let sb := if aluOn && isSb then sbExec x.1 n sl.alu seq else (x.1, [], none)
  let al : Landings :=
    if aluOn then
      if isLoop then loopOpen f.st sl.alu ix
      else if isSb then sb.2.1
      else if op = 0x19 || op = 0x1A then acsExec u sl.alu
      else aluExec u sl.alu
    else []
  let mc := if slotOn macBad (macG sl.mac) guard then macExec u sl.mac else []
  let looping := f.st = .sample || f.st = .background
  let le := if looping then loopEnds u (frameSet f.st) ix else (ix + 1, [])
  let rc : Landings := if seq = .rotclr then [(1, .sp spROTB 0)] else []
  let all := le.2 ++ rc ++ z.2 ++ y.2 ++ x.2 ++ al ++ mc
  let g := sb.1
  let cache := if aluOn && isLoop && looping then cacheOpen g.cache (ix + 1) (loopEnd sl.alu) else g.cache
  { f := { g with
      u := { g.u with pc := if seq = .resume then ix + 1 else le.1, flight := g.u.flight ++ all.map fun e => ⟨e.1, e.2⟩ }
      cache := cache }
    seq := seq
    sb := sb.2.2 }

/-! ### Landing -/

/-- Replace one part of an accumulator (R110). -/
def accPut (v : BitVec 80) (j : Nat) (w : Word) : BitVec 80 :=
  match j with
  | 0 => v.extractLsb' 32 48 ++ w
  | 1 => v.extractLsb' 64 16 ++ w ++ v.extractLsb' 0 32
  | _ => w.extractLsb' 0 16 ++ v.extractLsb' 0 64

/-- What one operation does when it lands (R73, R110, R116, R157). -/
def land (f : Facet) (e : Eff) : Facet :=
  let u := f.u
  match e with
  | .d k v => { f with u := { u with d := Memory.set zeroW u.d k v } }
  | .acc k v => { f with u := { u with a := Memory.set (fun _ => 0) u.a k v } }
  | .accPart k j v => { f with u := { u with a := Memory.set (fun _ => 0) u.a k (accPut (u.ra k) j v) } }
  | .sp k v => { f with u := { u with sp := Memory.set (fun _ => 0) u.sp k v } }
  | .rotDec =>
    let v := BitVec.ofNat 16 (((u.rsp spROTB).toNat + 31) % 32)
    { f with u := { u with sp := Memory.set (fun _ => 0) u.sp spROTB v } }
  | .pf k b =>
    if k = 0 then f
    else
      let m := BitVec.ofNat 8 (2 ^ k)
      { f with u := { u with pf := if b then u.pf ||| m else u.pf &&& ~~~m } }
  | .pfAll v => { f with u := { u with pf := v ||| 1 } }
  | .sv k v => { f with u := { u with sv := Memory.set (fun _ => 0) u.sv k v } }
  | .svHalf k hi v =>
    let o := u.rsv k
    let n : BitVec 64 := if hi then v ++ o.extractLsb' 0 32 else o.extractLsb' 32 32 ++ v
    { f with u := { u with sv := Memory.set (fun _ => 0) u.sv k n } }
  | .mem m a v => f.write m a v
  | .stat b => f.setStat b
  | .frame i fr => { f with u := { u with frames := Memory.set (fun _ => Frame.off) u.frames i fr } }

/-- R82, R84: one bundle boundary: every operation comes one boundary nearer, and those that reach it land in the
order in which they are held. -/
def boundary (f : Facet) : Facet :=
  let now := f.u.flight.filter fun e => e.left ≤ 1
  let later := (f.u.flight.filter fun e => !(e.left ≤ 1)).map fun e => { e with left := e.left - 1 }
  now.foldl (fun g e => land g e.eff) { f with u := { f.u with flight := later } }

/-- R86: after four boundaries every operation in flight has landed. -/
def landAll (f : Facet) : Facet := boundary (boundary (boundary (boundary f)))

/-- R150: make the frames of one set inactive, a LOOP still in flight included. -/
def clearFrames (f : Facet) (set : Nat) : Facet :=
  let u := f.u
  { f with u := { u with
      frames := u.frames.filter fun e => e.1 / 2 != set
      flight := u.flight.filter fun e => match e.eff with
        | .frame i _ => i / 2 != set
        | _ => true } }

end Sys2Proof.Machine
end

