-- ==== Sys2Proof/Machine/Lines.lean ====
section
/-!
DEFINITION. The delay lines of a Facet, as the delay-line kernel runs them in each period (R139 to R149, R249).
-/

namespace Sys2Proof.Machine

/-- R139: the word of the tap `d` samples behind the write position. -/
def LineGeo.tap (g : LineGeo) (d : Nat) : Nat := g.base + (((g.w : Int) - g.base - d) % (g.len : Int)).toNat

/-- R141: whether the tap at `d` samples holds a sample of this line. -/
def LineGeo.filled (g : LineGeo) (d : Nat) : Bool := d ≤ min g.len (g.k + g.h)

/-- R139: the write position one period on. -/
def LineGeo.next (g : LineGeo) : LineGeo :=
  { g with w := if g.dram then g.w else if g.w + 1 = g.base + g.len then g.base else g.w + 1, h := min g.len (g.h + 1) }

/-- R149: the geometry that a resize or a dip of `g` gives the line: `n` says where it lies and how long it is; it keeps the stored
samples where its base stays. `g.w` is the write position for the period in which it comes in force. -/
def LineGeo.resize (g n : LineGeo) : LineGeo :=
  if n.dram ≠ g.dram ∨ n.base ≠ g.base then { n with w := n.base, h := 0, k := 0 }
  else if n.len = g.len then { n with w := g.w, h := 0, k := min g.len (g.k + g.h) }
  else if n.dram then { n with w := n.base, h := 0, k := 0 }
  else if g.len < n.len ∨ g.w - g.base < n.len then { n with w := g.w, h := 0, k := g.w - g.base }
  else { n with base := g.w - n.len, w := g.w - n.len, h := 0, k := n.len }

/-- R139, R141, R144: what the tap at `d` samples delivers in period `t`. -/
def Facet.tapRead (f : Facet) (g : LineGeo) (d t : Nat) : Facet × Word :=
  if !g.filled d then (f, 0)
  else
    let r := f.readEcc .y (if g.dram then g.rring + t % 256 else g.tap d)
    (r.1, r.2.getD 0)

/-- R146: whether a dip of the line has brought its new geometry by period `t`. -/
def DLine.due (l : DLine) (t : Nat) : Bool := l.dip.any fun s => s + 32 ≤ t

/-- R146, R147: the new geometry is swapped in. -/
def DLine.install (l : DLine) : DLine :=
  match l.next with
  | some n => { l with g := l.g.resize n, next := none }
  | none => l

/-- R146, R147: the gain of the line in period `t` as a number of 32nds. -/
def DLine.gain (l : DLine) (t : Nat) : Nat :=
  match l.dip with
  | none => 32
  | some s => if t < s then 32 else if t < s + 32 then s + 31 - t else min 32 (t - (s + 31))

/-- R142, R146, R247: the output of the line in period `t`, before its input is written. -/
def Facet.lineOut (f : Facet) (l : DLine) (t : Nat) : Facet × Word :=
  let a := f.tapRead l.g l.g.d t
  match l.move with
  | some (d, c, x) =>
    if t < c then a
    else
      let b := a.1.tapRead l.g d t
      (b.1, blend a.2 b.2 (t - c) x)
  | none =>
    let k := l.gain t
    (a.1, if k = 32 then a.2 else gainMul a.2 (k * 2 ^ 23))

/-- A tap move ends when its crossfade has ended; a dip when its fade-in has (R249). -/
def DLine.settle (l : DLine) (t : Nat) : DLine :=
  let l := match l.move with
    | some (d, c, x) => if c + x ≤ t + 1 then { l with g := { l.g with d := d }, move := none } else l
    | none => l
  { l with dip := l.dip.filter fun s => t + 1 < s + 64 }

/-- R139, R144: one period of a line. A delay hop without a line hands its input on (R46). -/
def Facet.runLine (f : Facet) (l : DLine) (t : Nat) : Facet × DLine :=
  let l := if l.due t then l.install else l
  let x := f.readEcc .y l.inp
  let v := x.2.getD 0
  if l.g.len = 0 then (x.1.write .y l.out v, l)
  else
    let y := x.1.lineOut l t
    let f := (y.1.write .y (if l.g.dram then l.g.wring + t % 256 else l.g.w) v).write .y l.out y.2
    (f, { l with g := l.g.next }.settle t)

/-- The lines of a Facet in period `t`, after its kernels (DESIGN CHOICE: the bundles of the delay-line kernel are not documented;
it acts when the sample program issues HALT, once the stores before it have landed). -/
def Facet.runLines (f : Facet) (t : Nat) : Facet :=
  if f.lines.isEmpty then f else
  let f := landAll f
  let r := f.lines.foldl (fun (s : Facet × List DLine) l =>
    let x := s.1.runLine l t
    (x.1, s.2 ++ [x.2])) (f, [])
  { r.1 with lines := r.2 }

end Sys2Proof.Machine
end

