-- ==== Sys2Proof/Machine/Facet.lean ====
section
/-!
DEFINITION. The Facet between bundles: fetch, gather, post, ticks, bank swaps, preemption, stubs, the stall for a
shared bank, and the FAC_ registers and window (R66 to R101, R123, R154, R159 to R169, R251).
-/

namespace Sys2Proof.Machine

/-- FAC_CTL fields. -/
def Facet.released (f : Facet) : Bool := f.r.ctl.flag 0
def Facet.domain (f : Facet) : Nat := f.r.ctl.fld 4 2
def Facet.bank (f : Facet) : Nat := f.r.ctl.fld 8 1
def Facet.bgEn (f : Facet) : Bool := f.r.ctl.flag 16
def Facet.swapArm (f : Facet) : Bool := f.r.ctl.flag 12

/-- FAC_PC.STATE as a number (R100). -/
def FacPhase.code : FacPhase → Nat
  | .idle => 0
  | .gather => 1
  | .sample => 2
  | .post => 3
  | .background => 4
  | .stub => 5
  | .waiting => 6
  | .stopped => 7

/-- A program bank: its stored quarters and its name among the memories with check bits. -/
def FacMem.prog (m : FacMem) (bank : Nat) : Memory Word := if bank = 0 then m.p0 else m.p1
def progEcc (bank : Nat) : EccMem := if bank = 0 then .prog0 else .prog1

/-- The 128 bits of bundle `i` of a bank (R70). -/
def FacMem.bundle (m : FacMem) (bank i : Nat) : Nat :=
  (List.range 4).foldl (fun a q => a + (Memory.get zeroW (m.prog bank) (4 * i + q)).toNat <<< (32 * q)) 0

/-- FAC_ECC_ADDR for a bundle quarter (R100). -/
def eccAddrProg (bank i q : Nat) : Word := BitVec.ofNat 32 (bank <<< 28 + q <<< 16 + i)

/-- R97, R98: fetch the bundle at `f.u.pc`: `none` when a quarter is uncorrectable. A bundle of the loop cache is not
read from the bank (R154). -/
def Facet.fetch (f : Facet) : Facet × Option Nat :=
  let i := f.u.pc
  let b := f.bank
  if cacheHit f.cache i then (f, some (f.m.bundle b i))
  else
    let r := (List.range 4).foldl (fun (s : Facet × Bool) q =>
      match markOf s.1.m.bad (progEcc b) (4 * i + q) with
      | none => s
      | some false => (s.1.setStat facEccCe, s.2)
      | some true => (s.1.noteUe (eccAddrProg b i q), true)) (f, false)
    if r.2 then (r.1, none)
    else ({ r.1 with cache := cacheFill r.1.cache i }, some (f.m.bundle b i))

/-- R96: the bank swap. -/
def Facet.swap (f : Facet) : Facet :=
  let nx := fun (w : Word) => (w.setFld 0 12 (w.fld 16 12))
  let r := f.r
  { f with
    r := { r with
      ctl := (r.ctl.setFlag 12 false).setFlag 8 (!r.ctl.flag 8)
      vec := nx r.vec, pstub := nx r.pstub, rstub := nx r.rstub
      glist := r.glistNext &&& 0x1FFF3FFF, plist := r.plistNext &&& 0x1FFF3FFF }
    u := { f.u with frames := [], flight := f.u.flight.filter fun e => match e.eff with
      | .frame _ _ => false
      | _ => true }
    cache := none
    savedValid := false
    swapDue := false }

/-- R96: whether the swap is due at tick count `t`. -/
def Facet.swapNow (f : Facet) (t : Nat) : Bool := f.swapArm && f.r.swapTick ≤ t

/-- R251: apply the tick-armed writes whose tick has come, in the order in which they were armed. -/
def Facet.applyArmed (f : Facet) (t : Nat) : Facet :=
  let due := f.tickWrites.filter fun w => w.tick ≤ t
  due.foldl (fun g w => g.write .x w.addr w.val) { f with tickWrites := f.tickWrites.filter fun w => !(w.tick ≤ t) }

/-- The gather of tick `t` begins: a due swap first (R165), then the tick-armed writes (R251). -/
def Facet.beginGather (f : Facet) (t : Nat) : Facet :=
  let g := if f.swapDue then f.swap else f
  { g.applyArmed t with st := .gather, stall := none, preempt := none, stub := 0 }

/-- R162, R168: the tick takes background code at a bundle boundary: the stub starts, or, before RESUME, the gather. A next
bundle past index 4,095 is index 0, with ILLEGAL set (R124). -/
def Facet.takeBackground (f : Facet) (t : Nat) : Facet :=
  if f.resumed then
    let g := if f.u.pc < 4096 then f else f.setStat facIllegal
    { g with
        st := .stub, savedPc := f.u.pc % 4096, savedValid := true, stub := 0, preempt := none
        u := { f.u with pc := f.r.pstub.fld 0 12 } }
  else (landAll f).beginGather t

/-- R96, R251: a tick of count `t` at which the Facet does not restart: a due swap, then the tick-armed writes. -/
def Facet.restTick (f : Facet) (t : Nat) : Facet := (if f.swapDue then f.swap else f).applyArmed t

/-- R94: a Facet whose RELEASE was 0 at the tick of count `t` stops: operations land, state Idle. -/
def Facet.stopIdle (f : Facet) (t : Nat) : Facet :=
  { (landAll { f with stall := none }).restTick t with st := .idle, preempt := none }

/-- R93, R100: sample work or post is unfinished at a tick: TICK_OVERRUN, and LAST, with it MAX, is 0xFFFF. DESIGN CHOICE
(the spec does not say what becomes of it): a shared-bank access for which the Facet stalls is dropped and never served. -/
def Facet.overrun (f : Facet) : Facet :=
  let g := f.setStat facTickOverrun
  { g with stall := none, r := { g.r with cycLast := 0xFFFF, cycMax := 0xFFFF } }

/-- R92 to R96, R162, R166, R168: a tick of the Facet's domain, of count `t`. -/
def Facet.tick (f : Facet) (t : Nat) : Facet :=
  let f := { f with swapDue := f.swapNow t }
  match f.st with
  | .idle =>
    if f.released && f.r.startTick ≤ t then
      ({ f with u := { f.u with frames := [] }, savedValid := false } : Facet).beginGather t
    else f.restTick t
  | .background =>
    if f.stall.isSome then { f with preempt := some f.released }
    else if f.released then f.takeBackground t
    else f.stopIdle t
  | .waiting | .stopped => if f.released then f.beginGather t else f.stopIdle t
  | .gather | .sample | .post | .stub =>
    if f.released then f.overrun.beginGather t else f.overrun.stopIdle t

/-- R165: the stub has ended. -/
def Facet.endStub (f : Facet) (t : Nat) : Facet := (landAll f).beginGather t

/-- R122, R123, R160, R164: what the sequencer operation does at the end of its bundle. -/
def Facet.finish (f : Facet) (t : Nat) (seq : SeqOp) : Facet :=
  match f.st, seq with
  | .sample, .halt => { (clearFrames f 0).runLines t with st := .post }
  | .background, .halt => { clearFrames f 1 with st := .waiting, savedValid := false }
  | .background, .resume =>
    { f with u := { f.u with pc := if f.savedValid then f.savedPc else f.u.pc }, savedValid := false, resumed := true }
  | .stub, .yield => f.endStub t
  | .stub, _ =>
    if f.stub + 1 ≥ 52 then (f.setStat facStubLong).endStub t else { f with stub := f.stub + 1 }
  | _, _ => f

/-- R98: an uncorrectable bundle is not issued. -/
def Facet.badFetch (f : Facet) (t : Nat) : Facet :=
  let g := boundary f
  match g.st with
  | .sample => { g with st := .stopped, r := { g.r with cycLast := 0xFFFF, cycMax := 0xFFFF } }
  | .stub => ({ g with savedValid := false } : Facet).endStub t
  | _ => { g with st := .waiting, savedValid := false }

/-- Whether the Facet issues bundles (R85, R122). -/
def Facet.issuing (f : Facet) : Bool :=
  (f.st == .sample || f.st == .background || f.st == .stub) && f.stall.isNone

/-- R82: the Facet `n` issues one bundle; `t` is its domain's tick count. -/
def Facet.issue (f : Facet) (n t : Nat) : Facet :=
  if !f.issuing then f else
  let f := if f.u.pc < 4096 then f else ({ f with u := { f.u with pc := 0 } } : Facet).setStat facIllegal
  match f.fetch with
  | (g, none) => g.badFetch t
  | (g, some b) =>
    let r := issueBundle g n b
    match r.sb with
    | some q => { r.f with stall := some q }
    | none => (boundary r.f).finish t r.seq

/-- R82, R86: a core cycle in which the Facet issues nothing and does not stall. -/
def Facet.idleCycle (f : Facet) : Facet :=
  if f.issuing || f.stall.isSome then f else boundary f

/-- R95, R117, R162, R262: the stall ends; `v` is the value the bank returned. A tick that came during it acts on the RELEASE
of its own cycle. -/
def Facet.endStall (f : Facet) (t : Nat) (v : Word) : Facet :=
  match f.stall with
  | none => f
  | some q =>
    let u := f.u
    let fl := if q.kind = .st then u.flight else u.flight ++ [⟨1, .d q.dst v⟩]
    let g := (boundary { f with stall := none, u := { u with flight := fl } }).finish t q.seq
    match g.preempt with
    | none => g
    | some false => g.stopIdle t
    | some true => if g.st = .background then g.takeBackground t else g.beginGather t

/-- R87, R98: entry `i` of a list at Z word `base`: (YADDR, SID), `none` where the engine skips it. DESIGN CHOICE (the spec
is silent): an entry past Z word 16,383 is skipped, without a flag. -/
def Facet.listEntry (f : Facet) (base i : Nat) : Facet × Option (Nat × Nat) :=
  if base + i < FMem.z.size then
    let r := f.readEcc .z (base + i)
    (r.1, r.2.map fun w => (w.fld 16 15, w.fld 0 15))
  else (f, none)

/-- R88: the gather: each listed SID's value, read by `rd`, goes to its Y word. With a non-empty list at least 17
cycles pass, so every operation in flight has landed. -/
def Facet.gather (f : Facet) (rd : Nat → Word) : Facet :=
  let n := f.r.glist.fld 16 13
  let f := if n = 0 then f else landAll f
  let base := f.r.glist.fld 0 14
  let g := (List.range n).foldl (fun g i =>
    match g.listEntry base i with
    | (h, some e) => h.write .y e.1 (rd e.2)
    | (h, none) => h) f
  { g with st := .sample, u := { g.u with pc := g.r.vec.fld 0 12 } }

/-- R89: the post: the (SID, value) pairs it writes, in list order, from entry `from_` up to entry `to_`. -/
def Facet.postRange (f : Facet) (from_ to_ : Nat) : Facet × List (Nat × Word) :=
  let base := f.r.plist.fld 0 14
  let k := min to_ (f.r.plist.fld 16 13)
  ((List.range k).drop from_).foldl (fun (s : Facet × List (Nat × Word)) i =>
    match s.1.listEntry base i with
    | (h, some e) =>
      let v := h.readEcc .y e.1
      (v.1, s.2 ++ [(e.2, v.2.getD 0)])
    | (h, none) => (h, s.2)) ((if f.r.plist.fld 16 13 = 0 then f else landAll f), [])

/-- R89, R159: the period's sample work completes `cyc` cycles after the tick. -/
def Facet.complete (f : Facet) (cyc : Nat) : Facet :=
  let c := min cyc 0xFFFF
  let r := { f.r with cycLast := c, cycMax := max f.r.cycMax c }
  if f.bgEn then { f with r := r, st := .background, resumed := false, u := { f.u with pc := r.rstub.fld 0 12 } }
  else { f with r := r, st := .waiting }

/-! ### Window and registers (R69, R70, R100) -/

/-- The FAC_ register at block offset `o` of Facet `n` (R100). DESIGN CHOICE (the spec is silent): while the Facet stalls or
issues nothing, FAC_PC.PC shows the index of the bundle it would issue next. -/
def Facet.readReg (f : Facet) (n o : Nat) : Word :=
  let r := f.r
  match o with
  | 0x000 => r.ctl
  | 0x004 => r.vec
  | 0x008 => BitVec.ofNat 32 r.startTick
  | 0x00C => BitVec.ofNat 32 (r.startTick >>> 32)
  | 0x010 => BitVec.ofNat 32 r.swapTick
  | 0x014 => BitVec.ofNat 32 (r.swapTick >>> 32)
  | 0x018 => r.pstub
  | 0x01C => r.rstub
  | 0x020 => r.glist
  | 0x024 => r.plist
  | 0x028 => r.glistNext
  | 0x02C => r.plistNext
  | 0x030 => r.stat
  | 0x034 => BitVec.ofNat 32 (f.st.code <<< 16 + f.u.pc % 4096)
  | 0x038 => BitVec.ofNat 32 (r.cycMax <<< 16 + r.cycLast)
  | 0x03C => r.eccAddr
  | 0x040 => BitVec.ofNat 32 n
  | 0x044 => r.sbwin
  | _ => 0

/-- A list register with a new value: a COUNT above 4,096 is discarded (R100). -/
def listReg (old v : Word) : Word :=
  let c := v.fld 16 13
  BitVec.ofNat 32 ((if c ≤ 4096 then c else old.fld 16 13) <<< 16 + v.fld 0 14)

/-- R10, R12, R94, R100: a Setter write of FAC_CTL. -/
def ctlWrite (old v : Word) : Word :=
  let d := if old.flag 0 || v.fld 4 2 = 3 then old.fld 4 2 else v.fld 4 2
  (((old.setFlag 16 (v.flag 16)).setFlag 12 (v.flag 12)).setFld 4 2 d).setFlag 0 (v.flag 0)

/-- R100: a Setter write of a FAC_ register. -/
def Facet.writeReg (f : Facet) (o : Nat) (v : Word) : Facet :=
  let r := f.r
  { f with r := match o with
    | 0x000 => { r with ctl := ctlWrite r.ctl v }
    | 0x004 => { r with vec := v &&& 0x0FFF0FFF }
    | 0x008 => { r with startTick := setLo r.startTick v }
    | 0x00C => { r with startTick := setHi r.startTick v }
    | 0x010 => { r with swapTick := setLo r.swapTick v }
    | 0x014 => { r with swapTick := setHi r.swapTick v }
    | 0x018 => { r with pstub := v &&& 0x0FFF0FFF }
    | 0x01C => { r with rstub := v &&& 0x0FFF0FFF }
    | 0x020 => { r with glist := listReg r.glist v }
    | 0x024 => { r with plist := listReg r.plist v }
    | 0x028 => { r with glistNext := listReg r.glistNext v }
    | 0x02C => { r with plistNext := listReg r.plistNext v }
    | 0x030 => { r with stat := r.stat &&& ~~~v }
    | 0x038 => { r with cycMax := r.cycMax - (r.cycMax &&& v.fld 16 16) }
    | 0x044 => { r with sbwin := v &&& 0xFFFF7FFF }
    | _ => r }

/-- R69, R97, R154: a control-fabric write of one word of a program bank. -/
def Facet.writeProg (f : Facet) (bank i : Nat) (v : Word) : Facet :=
  let active := f.bank = bank
  let f := if active then { f with cache := none } else f
  if active && f.released then f.setStat facActWr
  else
    let m := { f.m with bad := unmark f.m.bad (progEcc bank) i }
    { f with m := if bank = 0 then { m with p0 := Memory.set zeroW m.p0 i v }
                  else { m with p1 := Memory.set zeroW m.p1 i v } }

/-- R70: a control-fabric write at window offset `o`; `none` at a hole. -/
def Facet.writeWin (f : Facet) (o : Nat) (v : Word) : Option Facet :=
  if o < 0x20000 then some (f.writeProg (o / 0x10000) (o % 0x10000 / 4) v)
  else if o < 0x30000 then some (f.write .x ((o - 0x20000) / 4) v)
  else if 0x40000 ≤ o && o < 0x60000 then some (f.write .y ((o - 0x40000) / 4) v)
  else if 0x60000 ≤ o && o < 0x70000 then some (f.write .z ((o - 0x60000) / 4) v)
  else if 0x70000 ≤ o && o < 0x70100 then some (f.writeReg (o - 0x70000) v)
  else none

/-- R70, R97: a control-fabric read at window offset `o` of Facet `n`; the value is `none` at a hole. DESIGN CHOICE (R98
names no such reader): an uncorrectable word or bundle quarter reads 0 and is recorded as R98 records one. -/
def Facet.readWin (f : Facet) (n o : Nat) : Facet × Option Word :=
  let data := fun (m : FMem) (a : Nat) => let r := f.readEcc m a; (r.1, some (r.2.getD 0))
  if o < 0x20000 then
    let b := o / 0x10000
    let i := o % 0x10000 / 4
    match markOf f.m.bad (progEcc b) i with
    | none => (f, some (Memory.get zeroW (f.m.prog b) i))
    | some false => (f.setStat facEccCe, some (Memory.get zeroW (f.m.prog b) i))
    | some true => (f.noteUe (eccAddrProg b (i / 4) (i % 4)), some 0)
  else if o < 0x30000 then data .x ((o - 0x20000) / 4)
  else if 0x40000 ≤ o && o < 0x60000 then data .y ((o - 0x40000) / 4)
  else if 0x60000 ≤ o && o < 0x70000 then data .z ((o - 0x60000) / 4)
  else if 0x70000 ≤ o && o < 0x70100 then (f, some (f.readReg n (o - 0x70000)))
  else (f, none)

/-- New disturbances in the Facet's memories. -/
def Facet.upset (f : Facet) (ups : List Upset) : Facet :=
  { f with m := { f.m with bad := addUpsets f.m.bad ups } }

end Sys2Proof.Machine
end

