-- ==== Sys2Proof/Machine/Requester.lean ====
section
/-!
DEFINITION. The requesters of shared banks and DRAM as the fault records name them (R15, R26, R476).
-/

namespace Sys2Proof.Machine

/-- A number that names a requester in a report's detail. -/
def reqCode : Requester → Nat
  | .facet n => n
  | .tile n => 0x100 + n
  | .netBuf k => 0x200 + k
  | .tdm n => 0x300 + n
  | .madi n => 0x340 + n
  | .aes n => 0x380 + n
  | .link n => 0x1000 + n
  | .stream c => 0x400 + c
  | .core n => 0x500 + n
  | .dma n => 0x600 + n
  | .scrubber => 0x700
  | .bist => 0x701

/-- R26, R476: block class and instance of a requester. DESIGN CHOICE (log 83): the stream engine reports as the DRAM channel, DMA as the
function's partition, the network's buffers as a port, scrubber and BIST as the shared banks. -/
def reqUnit : Requester → Nat × Nat
  | .facet n => (1, n)
  | .tile n => (2, n)
  | .netBuf k => (6, k % 2)
  | .tdm n => (12, n)
  | .madi n => (13, n)
  | .aes n => (portClass (20 + n), portInst (20 + n))
  | .link n => (15, n)
  | .stream c => (5, c)
  | .core n => (16, n)
  | .dma n => (17, n)
  | .scrubber => (4, 0)
  | .bist => (4, 0)

end Sys2Proof.Machine
end

