-- ==== Sys2Proof/Machine/Dram.lean ====
section
/-!
DEFINITION. External memory: training, initialisation, accesses with inline error correction, refresh housekeeping,
the DRAM scrubber and the delay-line stream engine (R143 to R145, R283 to R297).
-/

namespace Sys2Proof.Machine

/-- DRAM_STAT bits that are set by events (R296). -/
def dramCe : Nat := 3
def dramUe : Nat := 4
def dramLate : Nat := 5

/-- R284, R296: populated GiB of a DENSITY code; 0 when not trained. -/
def densityGiB (c : Nat) : Nat :=
  match c with
  | 1 => 1
  | 2 => 2
  | 3 => 3
  | 4 => 4
  | 5 => 6
  | 6 => 8
  | _ => 0

/-- R285: usable MiB of a channel: seven eighths of the populated size. -/
def usableMiB (dens : Nat) : Nat := densityGiB dens * 896

/-- The density code of a channel. -/
def DramSys.dens (m : DramSys) (ch : Nat) : Nat := if ch = 0 then m.densA else m.densB

/-- R285: usable words of a channel. -/
def DramSys.usable (m : DramSys) (ch : Nat) : Nat := usableMiB (m.dens ch) * 262144

/-- Initialised MiB of a channel (R288). -/
def DramSys.inited (m : DramSys) (ch : Nat) : Nat := if ch = 0 then m.mibA else m.mibB

/-- The key of a word of a channel. -/
def dramKey (ch w : Nat) : Nat := ch * 2 ^ 31 + w

/-- The mark index of the codeword that holds a word. -/
def dramCw (ch w : Nat) : Nat := ch * 2 ^ 29 + w / 4

/-- R286: an uncorrectable codeword is recorded and reported. -/
def DramSys.noteUe (m : DramSys) (ch cw : Nat) (who : Nat) : DramSys :=
  let a := if m.stat.flag dramUe then m.eccAddr else BitVec.ofNat 32 (ch <<< 31 + cw % 2 ^ 29)
  { m with eccAddr := a, stat := m.stat ||| Word.one dramUe, rep := m.rep ++ [(0x0504, 5, ch, false, cw + who <<< 32)] }

/-- R286: a corrected codeword is counted, reported and written back. -/
def DramSys.noteCe (m : DramSys) (ch cw : Nat) (who : Nat) : DramSys :=
  { m with ceCount := incSat 0xFFFFFFFF m.ceCount, stat := m.stat ||| Word.one dramCe
           bad := unmark m.bad .dram (ch * 2 ^ 29 + cw), rep := m.rep ++ [(0x0503, 5, ch, false, cw + who <<< 32)] }

/-- R286: check one codeword on a read: the flag says that it reads 0. -/
def DramSys.check (m : DramSys) (ch cw who : Nat) : DramSys × Bool :=
  match markOf m.bad .dram (ch * 2 ^ 29 + cw) with
  | none => (m, false)
  | some false => (m.noteCe ch cw who, false)
  | some true => (m.noteUe ch cw who, true)

/-- The codewords, by channel and number, that hold listed words. -/
def dramCws (l : List (Nat × Nat)) : List (Nat × Nat) := (l.map fun x => (x.1, x.2 / 4)).eraseDups

/-- R286: read the listed words (channel, word): each codeword is read once, and an uncorrectable one reads 0. -/
def DramSys.readAt (m : DramSys) (l : List (Nat × Nat)) (who : Nat) : DramSys × List Word :=
  let r := (dramCws l).foldl (fun (s : DramSys × List (Nat × Nat)) c =>
    let k := s.1.check c.1 c.2 who
    (k.1, if k.2 then s.2 ++ [c] else s.2)) (m, [])
  (r.1, l.map fun x => if r.2.contains (x.1, x.2 / 4) then 0 else Memory.get zeroW r.1.words (dramKey x.1 x.2))

/-- R286: write the listed words. A codeword only partly covered is read, merged and written. -/
def DramSys.writeAt (m : DramSys) (l : List ((Nat × Nat) × Word)) (who : Nat) : DramSys :=
  let at_ := l.map (·.1)
  let m := (dramCws at_).foldl (fun (m : DramSys) c =>
    let full := (List.range 4).all fun i => at_.contains (c.1, 4 * c.2 + i)
    let k := if full then (m, false) else m.check c.1 c.2 who
    let z := if k.2 then Memory.clearRun k.1.words (dramKey c.1 (4 * c.2)) 4 else k.1.words
    { k.1 with words := z, bad := unmark k.1.bad .dram (c.1 * 2 ^ 29 + c.2) }) m
  { m with words := l.foldl (fun w x => Memory.set zeroW w (dramKey x.1.1 x.1.2) x.2) m.words }

/-- `n` words of a channel from word `w` on. -/
def dramRun (ch w n : Nat) : List (Nat × Nat) := (List.range n).map fun i => (ch, w + i)

def DramSys.read (m : DramSys) (ch w n who : Nat) : DramSys × List Word := m.readAt (dramRun ch w n) who
def DramSys.write (m : DramSys) (ch w : Nat) (vs : List Word) (who : Nat) : DramSys := m.writeAt ((dramRun ch w vs.length).zip vs) who

/-- R285, R26: whether an access lies in the usable region of its channel. -/
def DramSys.inRegion (m : DramSys) (ch w n : Nat) : Bool := w + n ≤ m.usable ch

/-- R26, R286: perform an access; a hole reads 0 and reports ADDR_HOLE. -/
def DramSys.access (m : DramSys) (ch : Nat) (q : DramReq) : DramSys × List Word :=
  let n := max q.read q.data.length
  if !m.inRegion ch q.word n then
    ({ m with rep := m.rep ++ [(0x0302, (reqUnit q.who).1, (reqUnit q.who).2, false, q.word + reqCode q.who <<< 32)] }, List.replicate q.read 0)
  else if q.read > 0 then m.read ch q.word q.read (reqCode q.who)
  else (m.write ch q.word q.data (reqCode q.who), [])

/-- R291: the priority of a requester; lower is served first. -/
def dramRank : Requester → Nat
  | .stream _ => 0
  | .core n => 1 + n
  | .bist => 10
  | .scrubber => 11
  | _ => 12

/-- R291: the first access of a channel's waiting list. -/
def dramFirst (l : List (Nat × DramReq)) (ch : Nat) : Option DramReq :=
  l.foldl (fun b e =>
    if e.1 != ch then b
    else match b with
      | none => some e.2
      | some q => if dramRank e.2.who < dramRank q.who then some e.2 else some q) none

/-- R290, R291: present accesses and serve the first, unless the channel is in self-refresh. -/
def DramSys.serve (m : DramSys) (ch : Nat) (arrive : List DramReq) : DramSys × Option (DramReq × List Word) :=
  let m := { m with waiting := m.waiting ++ arrive.map fun q => (ch, q) }
  if m.selfRef || !m.trained then (m, none)
  else match dramFirst m.waiting ch with
    | none => (m, none)
    | some q =>
      let r := ({ m with waiting := m.waiting.erase (ch, q) } : DramSys).access ch q
      (r.1, some (q, r.2))

/-- R284, R287: training ends; the flag says that S1 halts with BOOTSTAT 0xC. -/
def DramSys.train (m : DramSys) (ok : Bool) (dA rA dB rB : Nat) : DramSys × Bool :=
  let m := { m with densA := dA, ranksA := rA, densB := dB, ranksB := rB }
  if !ok then ({ m with trainFail := true }, true)
  else if dA != dB || rA != rB || densityGiB dA = 0 || !(rA = 1 || rA = 2) then (m, true)
  else ({ m with trained := true }, false)

/-- R288: initialisation has reached `mib` MiB of each channel. -/
def DramSys.initTo (m : DramSys) (mib : Nat) : DramSys :=
  let a := min mib (usableMiB m.densA)
  let b := min mib (usableMiB m.densB)
  if m.trained then
    { m with mibA := max m.mibA a, mibB := max m.mibB b
             initDone := m.initDone || (max m.mibA a == usableMiB m.densA && max m.mibB b == usableMiB m.densB) }
  else m

/-- R289: MR4 of a channel's ranks reads `codes`; DRAM_HOT begins or ends. -/
def DramSys.mr4 (m : DramSys) (ch : Nat) (codes : List Nat) : DramSys :=
  let r := codes.foldl max 0 % 8
  let old := if ch = 0 then m.rateA else m.rateB
  let m := if ch = 0 then { m with rateA := r } else { m with rateB := r }
  if r > 3 && old ≤ 3 then { m with rep := m.rep ++ [(0x0510, 5, ch, false, r)] }
  else if r ≤ 3 && old > 3 then { m with rep := m.rep ++ [(0x0510, 5, ch, true, r)] }
  else m

/-- R291: the codeword that the scrubber reads next: channel and number. The pass runs through both channels. -/
def DramSys.scrubNext (m : DramSys) : Nat × Nat :=
  let per := m.usable 0 / 4
  let p := if m.scrubPos < 2 * per then m.scrubPos else 0
  (p / per, p % per)

/-- R291: the scrubber reads its next codeword. -/
def DramSys.scrub (m : DramSys) : DramSys :=
  if !m.ctl.flag 0 || !m.trained || m.selfRef then m
  else
    let p := if m.scrubPos < 2 * (m.usable 0 / 4) then m.scrubPos else 0
    { (m.check m.scrubNext.1 m.scrubNext.2 0x700).1 with scrubPos := p + 1 }

/-! ### Stream engine (R144, R145, R293) -/

/-- The line of number `id`. -/
def DramSys.line (m : DramSys) (id : Nat) : Option DramLine := m.lines.find? fun l => l.id == id

/-- Replace a line. -/
def DramSys.setLine (m : DramSys) (l : DramLine) : DramSys :=
  { m with lines := m.lines.map fun k => if k.id = l.id then l else k }

/-- R146: the line with the geometry that holds for period `n`. -/
def DramLine.from_ (l : DramLine) (n : Nat) : DramLine :=
  match l.next with
  | some (t, ch, b, d, ld) => if n < t then l else { l with ch := ch, base := b, d := d, ld := ld }
  | none => l

/-- R292: the word of a line's area that holds period `n`'s input, `back` periods earlier. -/
def DramLine.wordOf (l : DramLine) (n back : Nat) : Nat :=
  l.base + (n + l.ld * (back / l.ld + 1) - back) % l.ld

/-- R145: the stream engine, and the line that it serves, in a report's detail. -/
def DramLine.who (l : DramLine) : Nat := 0x400 + l.ch + 2 ^ 16 * (l.id + 1)

/-- R146, R292: where DRAM holds what a line reads or writes in the periods 16q to 16q + 15, `back` periods earlier. -/
def DramLine.burst (l : DramLine) (q : Nat) (back : DramLine → Nat) : List (Nat × Nat) :=
  (List.range 16).map fun i => let k := l.from_ (16 * q + i); (k.ch, k.wordOf (16 * q + i) (back k))

/-- R293: the 16 write-ring words of periods 16q to 16q + 15 go to DRAM as one burst. -/
def DramSys.burstWrite (m : DramSys) (l : DramLine) (q : Nat) (f : Facet) : DramSys × Facet :=
  let r := (List.range 16).foldl (fun (s : Facet × List Word) i =>
    let x := s.1.readEcc .y ((l.wring + (16 * q + i) % 256) % 32768)
    (x.1, s.2 ++ [x.2.getD 0])) (f, [])
  (m.writeAt ((l.burst q fun _ => 0).zip r.2) l.who, r.1)

/-- R144, R145, R293: the 16 read-ring words of periods 16q to 16q + 15 are fetched as one burst; `t` is the domain's tick count.
A word whose period is `t + 1` or earlier arrives too late and is discarded. -/
def DramSys.burstFetch (m : DramSys) (l : DramLine) (q t : Nat) (f : Facet) : DramSys × Facet :=
  let r := m.readAt (l.burst q fun k => k.d) l.who
  (r.1.setLine { l with upto := max l.upto (16 * q + 16) },
   ((List.range 16).zip r.2).foldl (fun f x =>
     if 16 * q + x.1 ≤ t + 1 then f else f.write .y ((l.rring + (16 * q + x.1) % 256) % 32768) x.2) f)

/-- R145, R293: period `n`'s word has not arrived in time. DESIGN CHOICE (log 85): R145 has the fault name the line, R474 has no field for
it: the report is the channel's, and the line id is in its detail, which no record carries. -/
def DramSys.miss (m : DramSys) (l : DramLine) (n : Nat) (f : Facet) : DramSys × Facet :=
  (({ m with lateCount := incSat 0xFFFF m.lateCount, stat := m.stat ||| Word.one dramLate
             rep := m.rep ++ [(0x0505, 5, l.ch, false, l.who <<< 32)] } : DramSys).setLine { l with upto := max l.upto (n + 1) },
   f.write .y ((l.rring + n % 256) % 32768) 0)

/-! ### Registers (R296, R297) -/

/-- The DRAM_ register at block offset `o`. -/
def DramSys.readReg (m : DramSys) (o : Nat) : Word :=
  match o with
  | 0x000 => m.ctl
  | 0x004 => BitVec.ofNat 32 (m.densA <<< 4 + m.ranksA)
  | 0x008 => BitVec.ofNat 32 (m.densB <<< 4 + m.ranksB)
  | 0x00C => m.stat ||| BitVec.ofNat 32
      ((if m.trainFail then 4 else 0) + (if m.initDone then 2 else 0) + if m.trained then 1 else 0)
  | 0x010 => BitVec.ofNat 32 (m.mibB <<< 16 + m.mibA)
  | 0x014 => m.eccAddr
  | 0x018 => BitVec.ofNat 32 m.ceCount
  | 0x01C => BitVec.ofNat 32 (m.lateCount <<< 16 + m.lines.length)
  | 0x020 => BitVec.ofNat 32 (m.rateB <<< 8 + m.rateA)
  | _ => 0

/-- An S1 or Setter write of a DRAM_ register. -/
def DramSys.writeReg (m : DramSys) (o : Nat) (v : Word) : DramSys :=
  match o with
  | 0x000 => { m with ctl := v &&& 1 }
  | 0x00C => { m with stat := m.stat &&& ~~~v, ceCount := if v.flag dramCe then 0 else m.ceCount }
  | _ => m

/-- New disturbances in DRAM. -/
def DramSys.upset (m : DramSys) (ups : List Upset) : DramSys := { m with bad := addUpsets m.bad ups }

end Sys2Proof.Machine
end

