-- ==== Sys2Proof/Machine/HealthState.lean ====
section
/-!
DEFINITION. The state of the health unit and of the GPIO inputs (R473 to R488).
-/

namespace Sys2Proof.Machine

/-- A report that has arrived, with its stamps, the partitions that its cause affects and its C0 mark (R473, R475, R481). -/
structure Arrived where
  inst  : Nat
  ptp   : Nat
  tick  : Nat
  parts : List Nat
  c0    : Bool
deriving DecidableEq, Repr

/-- An open record (R480): its key, the uptime in µs at which it opened, its reports in order of arrival. `solo` marks a
GPIO_EVENT, which nothing joins (R485). -/
structure Open where
  cause : Nat
  cls   : Nat
  dom   : Nat
  hi    : Nat
  clear : Bool
  solo  : Bool
  since : Nat
  reps  : List Arrived
deriving DecidableEq, Repr

/-- A started state cause: cause, class, instance; whether a record of its start was delivered, and whether that record
carries C0 (R475, R482). -/
structure Started where
  cause     : Nat
  cls       : Nat
  inst      : Nat
  delivered : Bool
  c0        : Bool
deriving DecidableEq, Repr

/-- The health unit. `flying` holds the reports on the report network, oldest first. `retired` lists retired units whose
re-placement is not committed (class, instance). -/
structure Health where
  flying  : List Report
  openRecs : List Open
  started : List Started
  total   : Memory Nat
  supp    : Memory Nat
  window  : Nat
  ovf     : Bool
  fault   : Bool
  ring    : Memory (List Byte)
  seq     : Nat
  cntSel  : Memory Nat
  grSel   : Memory Nat
  retired : List (Nat × Nat)
deriving DecidableEq, Repr

def Health.reset : Health where
  flying := []
  openRecs := []
  started := []
  total := []
  supp := []
  window := 1
  ovf := false
  fault := false
  ring := []
  seq := 0
  cntSel := []
  grSel := []
  retired := []

/-- A GPIO input (R484 to R488). `level` is the accepted pin level, `since` the uptime in µs of the last accepted change,
`edges` the uptimes of the accepted changes that the chatter window holds, `told` the last level delivered. -/
structure Gpio where
  cfg    : Word
  lim    : Word
  events : Nat
  stuck  : Bool
  masked : Bool
  level  : Bool
  since  : Nat
  edges  : List Nat
  told   : Bool
deriving DecidableEq, Repr

def Gpio.reset : Gpio where
  cfg := 0x00080000
  lim := 0x00000A00
  events := 0
  stuck := false
  masked := false
  level := false
  since := 0
  edges := []
  told := false

end Sys2Proof.Machine
end

