-- ==== Sys2Proof/Machine/LinkState.lean ====
section
/-!
DEFINITION. The state of the Link array (R379 to R391).
-/

namespace Sys2Proof.Machine

/-- LNK_LANE_STAT.STATE, codes 0 to 6 (R390). -/
inductive LaneSt where
  | idle | acquiring | locked | fading | ramping | recentring | retired
deriving DecidableEq, Repr

/-- Why a lane fades out (R387). -/
inductive LaneWhy where
  | none | input | fill | slip | step
deriving DecidableEq, Repr

/-- A lane. Domain 3 is an own clock; `ownIn` is then a port or 64 + a receive context with the channel, `ownOut` a port
with the channel (R385). `fresh` marks a lane that has not locked since it was allocated (R389). `inp` holds the samples that its input
side has taken, newest first, each with its instant; for an own-clock input this is the own-clock queue (R16). `pad` is the padding of
R44 in output samples, a fraction; `phase` the interval in ns between the two domains' ticks at lock, `pos` the outputs since, modulo 4
(R380). -/
structure Lane where
  used   : Bool
  async  : Bool
  cls    : Nat
  part   : Nat
  inDom  : Nat
  outDom : Nat
  inSid  : Nat
  outSid : Nat
  ownIn  : Option (Nat × Nat)
  ownOut : Option (Nat × Nat)
  st     : LaneSt
  why    : LaneWhy
  fresh  : Bool
  ratio  : Nat              -- r × 2^40
  fill   : Int              -- units of 2^-8 input samples
  inp    : List (Nat × Word)
  pad    : Nat × Nat
  phase  : Int
  pos    : Nat
  fade   : Fade
  relock : Nat
  slips  : Nat
deriving DecidableEq, Repr

def Lane.reset : Lane where
  used := false
  async := false
  cls := 0
  part := 0
  inDom := 0
  outDom := 0
  inSid := 0
  outSid := 0
  ownIn := none
  ownOut := none
  st := .idle
  why := .none
  fresh := false
  ratio := 0
  fill := 0
  inp := []
  pad := (0, 1)
  phase := 0
  pos := 0
  fade := Fade.reset
  relock := 0
  slips := 0

/-- The Link array. `sel` and `latHi` are per reader: 0 to 3 PF0 to PF3, 4 and 5 SPIT0 and SPIT1, 6 the Setter (R390). -/
structure LinkSys where
  lanes   : Memory Lane
  retired : Nat              -- bit g: lane group g retired
  sel     : Memory Nat
  latHi   : Memory Nat
  rep     : List (Nat × Nat) -- lane, cause: reports of the step
deriving DecidableEq, Repr

def LinkSys.reset : LinkSys where
  lanes := []
  retired := 0
  sel := []
  latHi := []
  rep := []

end Sys2Proof.Machine
end

