-- ==== Sys2Proof/Machine/NetState.lean ====
section
/-!
DEFINITION. The state of the media network ports, the stream contexts and the time core (R325 to R356).
-/

namespace Sys2Proof.Machine

/-- An entry of a port's ARP cache (R330). Times are device uptime in µs. `asked` is the time of the first unanswered
request, `lastReq` of the latest. -/
structure Arp where
  ip      : Nat
  mac     : Option Nat
  at_     : Nat
  asked   : Option Nat
  lastReq : Nat
  raised  : Bool
deriving DecidableEq, Repr

/-- A state-change report of RFC 3376 that is repeated: group, record type, sources, reports left (R332). -/
structure IgmpRec where
  grp  : Nat
  typ  : Nat
  srcs : List Nat
  left : Nat
deriving DecidableEq, Repr

/-- A port: its registers, link, ARP and IGMP state. -/
structure NetPort where
  ctl      : Word
  link     : Bool
  hiBer    : Bool
  blkLock  : Bool
  los      : Bool
  conflict : Bool
  macLo    : Word
  macHi    : Word
  ip       : Word
  mask     : Word
  gw       : Word
  vlan     : Word
  ipcfg    : Word             -- ROBUST and TTL; IGMP_V2 is `compat`
  compat   : Option Nat       -- querier version 1 or 2 whose compatibility mode is in force (R332)
  rxFrames : Word
  rxDrop   : Word
  rxFcs    : Word
  txFrames : Word
  arp      : List Arp
  garp     : Bool             -- the second gratuitous request is due (R330)
  resend   : List IgmpRec     -- state-change reports left to send (R332)
  queries  : List (Option Nat) -- responses due: a group, or none for a general query (R332)
  icmp     : List Nat         -- uptimes in µs of echo replies of the last second (R331)
deriving DecidableEq, Repr

def NetPort.reset : NetPort where
  ctl := 0x100
  link := false
  hiBer := false
  blkLock := false
  los := false
  conflict := false
  macLo := 0
  macHi := 0
  ip := 0
  mask := 0
  gw := 0
  vlan := 0
  ipcfg := 0x240
  compat := none
  rxFrames := 0
  rxDrop := 0
  rxFcs := 0
  txFrames := 0
  arp := []
  garp := false
  resend := []
  queries := []
  icmp := []

/-- A receive context (R338 to R343, R347). Leg values are (NET0, NET1). Domain 3 is the sender's clock. -/
structure RxCtx where
  used    : Bool
  part    : Nat
  node    : Nat
  cls     : Nat
  sid     : Nat
  sids    : List Nat
  dom     : Nat
  ports   : Nat               -- bit 0 NET0, bit 1 NET1
  addr    : Nat × Nat
  udp     : Nat × Nat
  srcf    : Nat × Nat
  pt      : Nat
  fmt     : Nat               -- 0 L16, 1 L24, 2 AM824
  ch      : Nat
  ptime   : Nat
  hz      : Nat               -- rate of the stream
  lo      : Nat               -- link offset in samples (R341)
  ssrc    : Option Nat
  present : Bool
  legOk   : Bool × Bool
  lastNs  : Nat × Nat         -- PTP ns of the last accepted packet of each leg
  late    : Nat
  early   : Nat
  dup     : Nat
  lost    : Nat
  buf     : Memory (Option (List Nat))  -- by RTP timestamp: the channels' words of one sample
  pkts    : List (Nat × Nat)  -- first timestamp and sequence number of packets not yet released
  lastSeq : Option Nat        -- sequence number of the last packet released
  lastTs  : Nat               -- timestamp of the next sample of a stream on its sender's clock (R340)
  relAt   : Nat               -- PTP ns from which a stream on its sender's clock is released (R340)
  heard   : Bool              -- some sample has been released since the stream became present
  fadePos : Nat               -- samples faded in after a gap, 32 when done (R342)
  vuc     : List Nat          -- AM824 label bits of the last sample of each channel (R337)
deriving DecidableEq, Repr

def RxCtx.reset : RxCtx where
  used := false
  part := 0
  node := 0
  cls := 0
  sid := 0
  sids := []
  dom := 0
  ports := 0
  addr := (0, 0)
  udp := (0, 0)
  srcf := (0, 0)
  pt := 0
  fmt := 0
  ch := 0
  ptime := 0
  hz := 0
  lo := 0
  ssrc := none
  present := false
  legOk := (false, false)
  lastNs := (0, 0)
  late := 0
  early := 0
  dup := 0
  lost := 0
  buf := []
  pkts := []
  lastSeq := none
  lastTs := 0
  relAt := 0
  heard := false
  fadePos := 32
  vuc := []

/-- A packet that waits for its departure: the tick of R344, its RTP timestamp, its payload. -/
structure TxPkt where
  tick    : Nat
  ts      : Nat
  payload : List Byte
deriving DecidableEq, Repr

/-- A transmit context (R344, R345). -/
structure TxCtx where
  used  : Bool
  part  : Nat
  cls   : Nat
  sids  : List Reader
  dom   : Nat
  ports : Nat
  addr  : Nat × Nat
  udp   : Nat × Nat
  dscp  : Nat
  pt    : Nat
  ssrc  : Nat
  tsOff : Nat
  fmt   : Nat
  ptime : Nat
  phase : Nat
  sigma : Nat
  seq   : Option Nat          -- next sequence number, none before the random start
  cur   : Option (Nat × List Byte)   -- timestamp and payload of the packet being built
  count : Nat                 -- samples in it
  ready : List TxPkt
  late  : Nat
  sat   : Nat
  sent  : Bool                -- packets have been scheduled
  vucFrom : Option (Nat × Nat)  -- receive context and first channel that feed it directly (R337)
  blk   : Nat                 -- position in the channel-status block
deriving DecidableEq, Repr

def TxCtx.reset : TxCtx where
  used := false
  part := 0
  cls := 0
  sids := []
  dom := 0
  ports := 0
  addr := (0, 0)
  udp := (0, 0)
  dscp := 0
  pt := 0
  ssrc := 0
  tsOff := 0
  fmt := 0
  ptime := 0
  phase := 0
  sigma := 0
  seq := none
  cur := none
  count := 0
  ready := []
  late := 0
  sat := 0
  sent := false
  vucFrom := none
  blk := 0

/-- An Announce as a dataset for the comparison of IEEE 1588. -/
structure Announce where
  prio1  : Nat
  cls    : Nat
  acc    : Nat
  var    : Nat
  prio2  : Nat
  gm     : Nat                -- grandmaster clockIdentity
  steps  : Nat
  sender : Nat                -- clockIdentity and port number of the sender, 80 bits
deriving DecidableEq, Repr

/-- A sender of Announce heard on a port: its latest dataset and the uptimes in µs of its latest two messages. -/
structure Foreign where
  ann   : Announce
  times : List Nat
deriving DecidableEq, Repr

/-- The clock of one port (R348): state codes of PTP_STAT. -/
structure PtpPort where
  state   : Nat               -- 0 disabled, 1 listening, 2 follower, 3 leader
  foreign : List Foreign
  parent  : Option Announce
  sync    : Option (Nat × Nat × Int)  -- two-step Sync that waits: sequence, receive ns, correction
  t1t2    : Option (Nat × Nat)        -- last corrected t1 and t2
  dreq    : Option (Nat × Nat)        -- Delay_Req sent: sequence, departure ns
  delay   : Nat
  offset  : Int
  annSeq  : Nat
  syncSeq : Nat
  dreqSeq : Nat
deriving DecidableEq, Repr

def PtpPort.reset : PtpPort where
  state := 0
  foreign := []
  parent := none
  sync := none
  t1t2 := none
  dreq := none
  delay := 0
  offset := 0
  annSeq := 0
  syncSeq := 0
  dreqSeq := 0

/-- The time core (R348 to R353, R356). -/
structure PtpSys where
  ctl     : Word
  prio    : Word
  intv    : Word
  p0      : PtpPort
  p1      : PtpPort
  ok      : Bool              -- CLK_STAT.PTP_OK
  good    : Nat               -- consecutive Sync messages with |offset| ≤ 1 µs
  bad     : Nat               -- consecutive Sync messages with |offset| > 10 µs
  follow  : Nat
  gm      : Nat
  gmChg   : Bool
  stepped : Bool
  first   : Bool              -- the next offset measurement is the first since PTP_OK cleared
  offset  : Int
  delay   : Nat
  step    : Int
  latSec  : Nat
deriving DecidableEq, Repr

def PtpSys.reset : PtpSys where
  ctl := 0x7F20
  prio := 0x8080
  intv := 0x03FEFDFD
  p0 := PtpPort.reset
  p1 := PtpPort.reset
  ok := false
  good := 0
  bad := 0
  follow := 0
  gm := 0
  gmChg := false
  stepped := false
  first := true
  offset := 0
  delay := 0
  step := 0
  latSec := 0

/-- A report of the network: cause, class, instance, domain (3 for none), CLEAR. -/
structure NetRep where
  cause : Nat
  cls   : Nat
  inst  : Nat
  dom   : Nat
  clear : Bool
deriving DecidableEq, Repr

/-- The media network. `od` is O_d of each domain (R339). `sent` holds the frames that the step puts on the media, as
(port, bytes). -/
structure NetSys where
  n0     : NetPort
  n1     : NetPort
  rx     : Memory RxCtx
  tx     : Memory TxCtx
  od     : Memory Nat
  ptp    : PtpSys
  i2c    : Word
  ctxSel : Word
  sent   : List (Nat × List Byte)
  rep    : List NetRep
deriving DecidableEq, Repr

def NetSys.reset : NetSys where
  n0 := NetPort.reset
  n1 := NetPort.reset
  rx := []
  tx := []
  od := []
  ptp := PtpSys.reset
  i2c := 0
  ctxSel := 0
  sent := []
  rep := []

end Sys2Proof.Machine
end

