-- ==== Sys2Proof/Machine/Health.lean ====
section
/-!
DEFINITION. The health unit: arrival of reports, suppression and withdrawal, coalescing, the record's bytes, counters and
HLT_ registers; GPIO conditioning and GPIO_ registers (R473 to R488).
-/

namespace Sys2Proof.Machine

/-- R477: the state causes. -/
def stateCauses : List Nat := [0x510, 0x600, 0x601, 0x602, 0x603, 0x700, 0x703, 0x800, 0xB03, 0xB04, 0xC02]

/-- R478: what the scopes of the dependency map look up. -/
structure HScope where
  lane     : Nat → Lane
  portSids : Nat → List Nat
  ctx      : Nat → RxCtx
  tx       : Nat → TxCtx

/-- R476: the serial port of a class and instance. -/
def portOfClass (cls inst : Nat) : Option Nat :=
  if cls = 7 ∧ inst < 36 then some inst else if cls = 12 then some inst else if cls = 13 then some (16 + inst)
  else if cls = 21 then some (20 + inst) else if cls = 22 then some (28 + inst) else none

/-- Whether a lane has a side in domain `k`. -/
def Lane.inDomain (l : Lane) (k : Nat) : Bool := l.inDom == k || l.outDom == k

/-- R478: whether parent `p` has a report (cause, class, instance, domain) in its scope. -/
def HScope.covers (s : HScope) (p : Report) (cause cls inst dom : Nat) : Bool :=
  let lane := cls == 15
  let inDom := fun k => if lane then (s.lane inst).inDomain k else dom == k
  if p.cause = 0x600 then decide ((0x100 ≤ cause ∧ cause ≤ 0x304) ∨ (0x703 ≤ cause ∧ cause ≤ 0x902))
  else if p.cause = 0x601 then
    [0x703, 0x704, 0x802, 0x900, 0x901, 0x902].contains cause && (inDom 0 || inDom 1 || inDom 2)
  else if p.cause = 0x603 then [0x703, 0x704].contains cause && inDom p.inst
  else if p.cause = 0x604 then [0x704, 0x900, 0x901, 0x902].contains cause && inDom p.inst
  else if p.cause = 0x700 then
    (cause == 0x701 && inst == p.inst) ||
    ([0x703, 0x704].contains cause && ((cls == 8 && (s.ctx inst).ports.testBit p.inst) || (cls == 9 && (s.tx inst).ports.testBit p.inst)))
  else if p.cause = 0x800 then
    (cause == 0x304 && cls == 7 && portOfClass p.cls p.inst == some inst) ||
    ([0x900, 0x902].contains cause && lane &&
      (portOfClass p.cls p.inst).any fun q =>
        (s.lane inst).ownIn.any (fun o => o.1 == q) || ((s.lane inst).inSid != 0 && (s.portSids q).contains (s.lane inst).inSid))
  else if p.cause = 0x703 then
    [0x900, 0x902].contains cause && lane &&
      ((s.lane inst).ownIn.any (fun o => o.1 == 64 + p.inst) ||
        ((s.lane inst).inSid != 0 && (s.ctx p.inst).sids.contains (s.lane inst).inSid))
  else if p.cause = 0xA00 then cause != 0xA00 && cls == p.cls && (if lane then inst / 64 == p.inst / 64 else inst == p.inst)
  else false

/-- The causes that are parents. -/
def parentCauses : List Nat := [0x600, 0x601, 0x603, 0x604, 0x700, 0x800, 0x703, 0xA00]

def zeroN : Nat → Nat := fun _ => 0

/-- R483: a saturating count. -/
def bump (m : Memory Nat) (c n : Nat) : Memory Nat := Memory.set zeroN m c (min (2 ^ 32 - 1) (Memory.get zeroN m c + n))

/-- R479: a parent's report withdraws the reports in its scope from the open records. -/
def Health.withdraw (h : Health) (s : HScope) (p : Report) : Health :=
  h.openRecs.foldl (fun h o =>
    let keep := o.reps.filter fun a => !s.covers p o.cause o.cls a.inst o.dom
    let h := { h with supp := if keep.length = o.reps.length then h.supp else bump h.supp o.cause (o.reps.length - keep.length) }
    if keep.isEmpty then h else { h with openRecs := h.openRecs ++ [{ o with reps := keep }] }) { h with openRecs := [] }

/-- R480: whether a report belongs to an open record. -/
def Open.takes (o : Open) (r : Report) (dom : Nat) : Bool :=
  !o.solo && r.cause != 0xC00 && o.cause == r.cause && o.cls == r.cls && o.dom == dom && o.clear == r.clear
    && o.hi == (if r.cls = 15 then r.inst / 1024 else 0)

/-- Whether the window of a record has run out at uptime `now` (R480); a GPIO_EVENT waits for nothing (R485). -/
def Health.ripe (h : Health) (now : Nat) (o : Open) : Bool := o.solo || decide (o.since + h.window * 1000 ≤ now)

/-- Replace the first open record that takes the report and whose window has not run out. -/
def joinRec (ripe : Open → Bool) (r : Report) (dom : Nat) (a : Arrived) : List Open → Option (List Open)
  | [] => none
  | o :: l =>
    if o.takes r dom && !ripe o then some ({ o with reps := o.reps ++ [a] } :: l) else (joinRec ripe r dom a l).map (o :: ·)

/-- R480: the report joins its record or opens one; with 256 open it is counted as suppressed. -/
def Health.hold (h : Health) (r : Report) (dom now : Nat) (a : Arrived) : Health :=
  match joinRec (h.ripe now) r dom a h.openRecs with
  | some l => { h with openRecs := l }
  | none =>
    if h.openRecs.length < 256 then
      { h with openRecs := h.openRecs ++
          [⟨r.cause, r.cls, dom, if r.cls = 15 then r.inst / 1024 else 0, r.clear, r.cause == 0xC00, now, [a]⟩] }
    else { h with ovf := true, supp := bump h.supp r.cause 1 }

/-- The entry of a started state cause. -/
def Health.startOf (h : Health) (r : Report) : Option Started :=
  h.started.find? fun s => s.cause == r.cause && s.cls == r.cls && s.inst == r.inst

/-- R475: whether a record of the start that names the reporter was delivered or is open. -/
def Health.startShown (h : Health) (r : Report) : Bool :=
  (h.startOf r).any (·.delivered) ||
    h.openRecs.any fun o => o.cause == r.cause && o.cls == r.cls && !o.clear && o.reps.any (·.inst == r.inst)

/-- R473 to R483: a report arrives at uptime `now` µs. `active` are the parents in force, `dom` the record's domain. -/
def Health.arrive (h : Health) (s : HScope) (active : List Report) (r : Report) (dom now : Nat) (a : Arrived) : Health :=
  let shown := h.startShown r
  let h := { h with total := bump h.total r.cause 1, fault := h.fault || (a.c0 && !r.clear) }
  if r.quiet then h
  else
    let gone := h.started.filter fun s => !(s.cause == r.cause && s.cls == r.cls && s.inst == r.inst)
    let h := if stateCauses.contains r.cause then
        { h with started := if r.clear then gone else gone ++ [⟨r.cause, r.cls, r.inst, false, a.c0⟩] }
      else h
    let h := if parentCauses.contains r.cause && !r.clear then h.withdraw s r else h
    if active.any (fun p => s.covers p r.cause r.cls r.inst (if r.dom < 3 then r.dom else dom)) || (r.clear && !shown) then
      { h with supp := bump h.supp r.cause 1 }
    else h.hold r dom now a

/-! ### Records (R474) -/

/-- The distinct reporters of a record, lowest first. -/
def Open.reporters (o : Open) : List Nat :=
  sortBy (· ≤ ·) (o.reps.map (·.inst)).eraseDups

/-- A field of 10 bits for each of the 16 lowest reporters. -/
def reporterBits (l : List Nat) : Nat :=
  (List.range 16).foldl (fun n k => n + (if k < l.length then l.getD k 0 % 1024 else 0x3FF) <<< (10 * k)) 0

/-- R474: the 48 bytes of a record. -/
def Open.bytes (o : Open) : List Byte :=
  let rs := o.reporters
  let f := (o.reps.head?).getD ⟨0, 0, 0, [], false⟩
  let l := (o.reps.getLast?).getD f
  let c0 := o.reps.any (·.c0)
  leBytes 2 o.cause ++ leBytes 2 (o.cls <<< 11 + rs.headD 0 % 2048) ++ leBytes 4 (min (2 ^ 32 - 1) o.reps.length)
    ++ leBytes 8 f.ptp ++ leBytes 4 (l.ptp - f.ptp) ++ leBytes 4 f.tick ++ leBytes 2 (l.tick - f.tick)
    ++ leBytes 2 ((if o.clear then 2 ^ 15 else 0) + (if c0 then 2 ^ 14 else 0) + o.dom % 4 <<< 11 + rs.length % 2048)
    ++ leBytes 20 (reporterBits rs)

/-- R481: the partitions that a record goes to; P0 receives every one. -/
def Open.affected (o : Open) : List Nat :=
  (List.range 4).filter fun p => p == 0 || [0, 10, 11, 14, 18, 19].contains o.cls || o.reps.any fun a => a.parts.contains p

/-- The oldest open record whose window has run out (R480). -/
def Health.due (h : Health) (now : Nat) : Option Open := h.openRecs.find? (h.ripe now)

/-- R475, R480, R481: the oldest record that is due closes; its bytes go to the global ring. -/
def Health.close (h : Health) (now : Nat) : Health :=
  match h.due now with
  | none => h
  | some o =>
    { h with
        openRecs := h.openRecs.erase o
        ring := Memory.set (fun _ => []) h.ring (h.seq % 1024) o.bytes
        seq := (h.seq + 1) % 2 ^ 32
        started := h.started.map fun s =>
          if s.cause = o.cause ∧ s.cls = o.cls ∧ !o.clear ∧ o.reps.any (·.inst == s.inst) then { s with delivered := true } else s }

/-- R482: whether a latched C0 report or an active C0 state cause holds FAULT_N low. -/
def Health.asserted (h : Health) : Bool := h.fault || h.started.any (·.c0)

/-- R482: a write that clears HLT_STAT.FAULT. -/
def Health.clearFault (h : Health) : Health := { h with fault := false }

/-- The HLT_ register at offset `o` for reader `r`; `low` tells whether FAULT_N is low. -/
def Health.readReg (h : Health) (temp r o : Nat) (low : Bool) : Word :=
  let sel := Memory.get zeroN h.cntSel r
  if o = 0 then BitVec.ofNat 32 h.window
  else if o = 4 then
    BitVec.ofNat 32 (h.openRecs.length <<< 16 + (if h.ovf then 4 else 0) + (if h.fault then 2 else 0) + if low then 1 else 0)
  else if o = 8 then BitVec.ofNat 32 sel
  else if o = 0xC then BitVec.ofNat 32 (Memory.get zeroN h.total sel)
  else if o = 0x10 then BitVec.ofNat 32 (Memory.get zeroN h.supp sel)
  else if o = 0x14 then BitVec.ofNat 32 h.seq
  else if o = 0x18 then BitVec.ofNat 32 (Memory.get zeroN h.grSel r)
  else if 0x20 ≤ o ∧ o < 0x50 then
    BitVec.ofNat 32 (le (Memory.get (fun _ => []) h.ring (Memory.get zeroN h.grSel r)) (o - 0x20) 4)
  else if o = 0x50 then BitVec.ofNat 32 (temp % 65536)
  else 0

/-- R487: a write of HLT_CTL, HLT_STAT.OVF or a selector. `own` tells whether the writer is P0's host or the Setter;
HLT_STAT.FAULT has a command of its own. -/
def Health.writeReg (h : Health) (r o : Nat) (v : Word) (own : Bool) : Health :=
  if o = 8 then { h with cntSel := Memory.set zeroN h.cntSel r (v.fld 0 16) }
  else if o = 0x18 then { h with grSel := Memory.set zeroN h.grSel r (v.fld 0 10) }
  else if !own then h
  else if o = 0 then { h with window := if v.fld 0 8 = 0 ∨ v.fld 0 8 > 250 then h.window else v.fld 0 8 }
  else if o = 4 then { h with ovf := h.ovf && !v.flag 2 }
  else h

/-! ### GPIO (R484 to R488) -/

def Gpio.en (g : Gpio) : Bool := g.cfg.flag 31

/-- R484: whether the accepted level is active. -/
def Gpio.active (g : Gpio) : Bool := g.en && (g.level != g.cfg.flag 30)

/-- R485: whether EDGE selects the change to the present level. -/
def Gpio.wants (g : Gpio) : Bool := if g.active then g.cfg.flag 28 else g.cfg.flag 29

/-- An event is delivered. -/
def Gpio.tell (g : Gpio) : Gpio := { g with events := incSat 0xFFFF g.events, told := g.level }

/-- R484 to R486: a new level is accepted at uptime `now` µs; the reports (cause, CLEAR). -/
def Gpio.accept (g : Gpio) (level : Bool) (now : Nat) : Gpio × List (Nat × Bool) :=
  if !g.en || level == g.level then (g, [])
  else
    let win := g.lim.fld 8 8 * 1000
    let max := g.lim.fld 0 8
    let edges := (g.edges.filter fun t => now < t + win) ++ [now]
    let wasStuck := g.stuck
    let g := { g with level := level, since := now, edges := edges }
    if g.masked then (g, [])
    else if max ≠ 0 ∧ edges.length > max then ({ g with masked := true }, [(0xC01, false)])
    else
      let g := { g with stuck := g.stuck && g.active }
      let tell := g.wants || (wasStuck && !g.active)
      (if tell then g.tell else g, (if tell then [(0xC00, false)] else []) ++ if wasStuck && !g.active then [(0xC02, true)] else [])

/-- R486: the input has stayed active for STUCK_MS. -/
def Gpio.goStuck (g : Gpio) (now : Nat) : Gpio × List (Nat × Bool) :=
  let ms := g.lim.fld 16 16
  if ms ≠ 0 ∧ g.active ∧ !g.masked ∧ !g.stuck ∧ g.since + ms * 1000 ≤ now then ({ g with stuck := true }, [(0xC02, false)])
  else (g, [])

/-- R485: a re-arm, the level having stayed accepted for one further debounce time. An input that was stuck and became
inactive while it was masked is stuck no longer (R486; DEDUCED, log 75). -/
def Gpio.rearm (g : Gpio) (now : Nat) : Gpio × List (Nat × Bool) :=
  if g.masked then
    let freed := g.stuck && !g.active
    let g := { g with masked := false, edges := [], since := now, stuck := g.stuck && g.active }
    let tell := g.level != g.told
    (if tell then g.tell else g, (if tell then [(0xC00, false)] else []) ++ if freed then [(0xC02, true)] else [])
  else (g, [])

/-- The GPIO_n register at offset `o` of its 16 bytes. -/
def Gpio.readReg (g : Gpio) (o : Nat) : Word :=
  if o = 0 then g.cfg
  else if o = 4 then g.lim
  else if o = 8 then
    BitVec.ofNat 32 (g.events <<< 16 + (if g.stuck then 4 else 0) + (if g.masked then 2 else 0) + if g.active then 1 else 0)
  else 0

/-- R488: a write of GPIO_n_CFG or GPIO_n_LIM, field by field. -/
def Gpio.writeReg (g : Gpio) (o : Nat) (v : Word) : Gpio :=
  if o = 0 then
    let d := if v.fld 16 8 = 0 then g.cfg.fld 16 8 else v.fld 16 8
    { g with cfg := BitVec.ofNat 32 (v.fld 26 6 <<< 26 + d <<< 16) }
  else if o = 4 then
    let w := if v.fld 8 8 = 0 then g.lim.fld 8 8 else v.fld 8 8
    { g with lim := BitVec.ofNat 32 (v.fld 16 16 <<< 16 + w <<< 8 + v.fld 0 8) }
  else g

end Sys2Proof.Machine
end

