-- ==== Sys2Proof/Machine/Crypto.lean ====
section
/-!
DEFINITION. The cryptographic functions that the spec names: SHA-256, SHA-384, HMAC-SHA-256, AES-256-GCM and ECDSA P-384
verification (R396, R399, R441 to R444, R454). PRESUMED: they are those of FIPS 180-4, FIPS 198-1, FIPS 197, SP 800-38D
and FIPS 186-4, which the spec names and does not restate.
-/

namespace Sys2Proof

def sha256K : List Nat :=
  [0x428A2F98, 0x71374491, 0xB5C0FBCF, 0xE9B5DBA5, 0x3956C25B, 0x59F111F1,
   0x923F82A4, 0xAB1C5ED5, 0xD807AA98, 0x12835B01, 0x243185BE, 0x550C7DC3,
   0x72BE5D74, 0x80DEB1FE, 0x9BDC06A7, 0xC19BF174, 0xE49B69C1, 0xEFBE4786,
   0x0FC19DC6, 0x240CA1CC, 0x2DE92C6F, 0x4A7484AA, 0x5CB0A9DC, 0x76F988DA,
   0x983E5152, 0xA831C66D, 0xB00327C8, 0xBF597FC7, 0xC6E00BF3, 0xD5A79147,
   0x06CA6351, 0x14292967, 0x27B70A85, 0x2E1B2138, 0x4D2C6DFC, 0x53380D13,
   0x650A7354, 0x766A0ABB, 0x81C2C92E, 0x92722C85, 0xA2BFE8A1, 0xA81A664B,
   0xC24B8B70, 0xC76C51A3, 0xD192E819, 0xD6990624, 0xF40E3585, 0x106AA070,
   0x19A4C116, 0x1E376C08, 0x2748774C, 0x34B0BCB5, 0x391C0CB3, 0x4ED8AA4A,
   0x5B9CCA4F, 0x682E6FF3, 0x748F82EE, 0x78A5636F, 0x84C87814, 0x8CC70208,
   0x90BEFFFA, 0xA4506CEB, 0xBEF9A3F7, 0xC67178F2]
def sha256H : List Nat :=
  [0x6A09E667, 0xBB67AE85, 0x3C6EF372, 0xA54FF53A, 0x510E527F, 0x9B05688C,
   0x1F83D9AB, 0x5BE0CD19]
def sha512K0 : List Nat :=
  [0x428A2F98D728AE22, 0x7137449123EF65CD, 0xB5C0FBCFEC4D3B2F, 0xE9B5DBA58189DBBC,
   0x3956C25BF348B538, 0x59F111F1B605D019, 0x923F82A4AF194F9B, 0xAB1C5ED5DA6D8118,
   0xD807AA98A3030242, 0x12835B0145706FBE, 0x243185BE4EE4B28C, 0x550C7DC3D5FFB4E2,
   0x72BE5D74F27B896F, 0x80DEB1FE3B1696B1, 0x9BDC06A725C71235, 0xC19BF174CF692694,
   0xE49B69C19EF14AD2, 0xEFBE4786384F25E3, 0x0FC19DC68B8CD5B5, 0x240CA1CC77AC9C65,
   0x2DE92C6F592B0275, 0x4A7484AA6EA6E483, 0x5CB0A9DCBD41FBD4, 0x76F988DA831153B5,
   0x983E5152EE66DFAB, 0xA831C66D2DB43210, 0xB00327C898FB213F, 0xBF597FC7BEEF0EE4,
   0xC6E00BF33DA88FC2, 0xD5A79147930AA725, 0x06CA6351E003826F, 0x142929670A0E6E70,
   0x27B70A8546D22FFC, 0x2E1B21385C26C926, 0x4D2C6DFC5AC42AED, 0x53380D139D95B3DF,
   0x650A73548BAF63DE, 0x766A0ABB3C77B2A8, 0x81C2C92E47EDAEE6, 0x92722C851482353B,
   0xA2BFE8A14CF10364, 0xA81A664BBC423001, 0xC24B8B70D0F89791, 0xC76C51A30654BE30,
   0xD192E819D6EF5218, 0xD69906245565A910, 0xF40E35855771202A, 0x106AA07032BBD1B8,
   0x19A4C116B8D2D0C8, 0x1E376C085141AB53, 0x2748774CDF8EEB99, 0x34B0BCB5E19B48A8,
   0x391C0CB3C5C95A63, 0x4ED8AA4AE3418ACB, 0x5B9CCA4F7763E373, 0x682E6FF3D6B2B8A3,
   0x748F82EE5DEFB2FC, 0x78A5636F43172F60, 0x84C87814A1F0AB72, 0x8CC702081A6439EC,
   0x90BEFFFA23631E28, 0xA4506CEBDE82BDE9, 0xBEF9A3F7B2C67915, 0xC67178F2E372532B]
def sha512K1 : List Nat :=
  [0xCA273ECEEA26619C, 0xD186B8C721C0C207, 0xEADA7DD6CDE0EB1E, 0xF57D4F7FEE6ED178,
   0x06F067AA72176FBA, 0x0A637DC5A2C898A6, 0x113F9804BEF90DAE, 0x1B710B35131C471B,
   0x28DB77F523047D84, 0x32CAAB7B40C72493, 0x3C9EBE0A15C9BEBC, 0x431D67C49C100D4C,
   0x4CC5D4BECB3E42B6, 0x597F299CFC657E2A, 0x5FCB6FAB3AD6FAEC, 0x6C44198C4A475817]
def sha512K : List Nat := sha512K0 ++ sha512K1
def sha384H : List Nat :=
  [0xCBBB9D5DC1059ED8, 0x629A292A367CD507, 0x9159015A3070DD17, 0x152FECD8F70E5939,
   0x67332667FFC00B31, 0x8EB44A8768581511, 0xDB0C2E0D64F98FA7, 0x47B5481DBEFA4FA4]
def aesSbox0 : List Nat :=
  [0x63, 0x7C, 0x77, 0x7B, 0xF2, 0x6B, 0x6F, 0xC5, 0x30, 0x01, 0x67, 0x2B, 0xFE, 0xD7, 0xAB, 0x76,
   0xCA, 0x82, 0xC9, 0x7D, 0xFA, 0x59, 0x47, 0xF0, 0xAD, 0xD4, 0xA2, 0xAF, 0x9C, 0xA4, 0x72, 0xC0,
   0xB7, 0xFD, 0x93, 0x26, 0x36, 0x3F, 0xF7, 0xCC, 0x34, 0xA5, 0xE5, 0xF1, 0x71, 0xD8, 0x31, 0x15,
   0x04, 0xC7, 0x23, 0xC3, 0x18, 0x96, 0x05, 0x9A, 0x07, 0x12, 0x80, 0xE2, 0xEB, 0x27, 0xB2, 0x75]
def aesSbox1 : List Nat :=
  [0x09, 0x83, 0x2C, 0x1A, 0x1B, 0x6E, 0x5A, 0xA0, 0x52, 0x3B, 0xD6, 0xB3, 0x29, 0xE3, 0x2F, 0x84,
   0x53, 0xD1, 0x00, 0xED, 0x20, 0xFC, 0xB1, 0x5B, 0x6A, 0xCB, 0xBE, 0x39, 0x4A, 0x4C, 0x58, 0xCF,
   0xD0, 0xEF, 0xAA, 0xFB, 0x43, 0x4D, 0x33, 0x85, 0x45, 0xF9, 0x02, 0x7F, 0x50, 0x3C, 0x9F, 0xA8,
   0x51, 0xA3, 0x40, 0x8F, 0x92, 0x9D, 0x38, 0xF5, 0xBC, 0xB6, 0xDA, 0x21, 0x10, 0xFF, 0xF3, 0xD2]
def aesSbox2 : List Nat :=
  [0xCD, 0x0C, 0x13, 0xEC, 0x5F, 0x97, 0x44, 0x17, 0xC4, 0xA7, 0x7E, 0x3D, 0x64, 0x5D, 0x19, 0x73,
   0x60, 0x81, 0x4F, 0xDC, 0x22, 0x2A, 0x90, 0x88, 0x46, 0xEE, 0xB8, 0x14, 0xDE, 0x5E, 0x0B, 0xDB,
   0xE0, 0x32, 0x3A, 0x0A, 0x49, 0x06, 0x24, 0x5C, 0xC2, 0xD3, 0xAC, 0x62, 0x91, 0x95, 0xE4, 0x79,
   0xE7, 0xC8, 0x37, 0x6D, 0x8D, 0xD5, 0x4E, 0xA9, 0x6C, 0x56, 0xF4, 0xEA, 0x65, 0x7A, 0xAE, 0x08]
def aesSbox3 : List Nat :=
  [0xBA, 0x78, 0x25, 0x2E, 0x1C, 0xA6, 0xB4, 0xC6, 0xE8, 0xDD, 0x74, 0x1F, 0x4B, 0xBD, 0x8B, 0x8A,
   0x70, 0x3E, 0xB5, 0x66, 0x48, 0x03, 0xF6, 0x0E, 0x61, 0x35, 0x57, 0xB9, 0x86, 0xC1, 0x1D, 0x9E,
   0xE1, 0xF8, 0x98, 0x11, 0x69, 0xD9, 0x8E, 0x94, 0x9B, 0x1E, 0x87, 0xE9, 0xCE, 0x55, 0x28, 0xDF,
   0x8C, 0xA1, 0x89, 0x0D, 0xBF, 0xE6, 0x42, 0x68, 0x41, 0x99, 0x2D, 0x0F, 0xB0, 0x54, 0xBB, 0x16]
def aesSbox : List Nat := aesSbox0 ++ aesSbox1 ++ aesSbox2 ++ aesSbox3

/-! ### SHA-2 -/

/-- Rotation right of a `w`-bit number. -/
def rotr (w x n : Nat) : Nat := (x >>> n + x <<< (w - n)) % 2 ^ w

/-- The parameters of one word size: width and the rotations of the four sigma functions. -/
structure ShaPar where
  w  : Nat
  s0 : List Nat   -- rotate, rotate, rotate of the big sigma 0
  s1 : List Nat
  t0 : List Nat   -- rotate, rotate, shift of the small sigma 0
  t1 : List Nat

def sha256Par : ShaPar := ⟨32, [2, 13, 22], [6, 11, 25], [7, 18, 3], [17, 19, 10]⟩
def sha512Par : ShaPar := ⟨64, [28, 34, 39], [14, 18, 41], [1, 8, 7], [19, 61, 6]⟩

/-- The big sigma with rotations `r`. -/
def shaBig (w : Nat) (r : List Nat) (x : Nat) : Nat :=
  Nat.xor (Nat.xor (rotr w x (r.getD 0 0)) (rotr w x (r.getD 1 0))) (rotr w x (r.getD 2 0))

/-- The small sigma with rotations and shift `r`. -/
def shaSmall (w : Nat) (r : List Nat) (x : Nat) : Nat :=
  Nat.xor (Nat.xor (rotr w x (r.getD 0 0)) (rotr w x (r.getD 1 0))) (x >>> r.getD 2 0)

/-- Extend a message schedule held latest word first by `n` words. -/
def shaExpand (p : ShaPar) : Nat → List Nat → List Nat
  | 0, ws => ws
  | n + 1, ws =>
    let v := (shaSmall p.w p.t1 (ws.getD 1 0) + ws.getD 6 0 + shaSmall p.w p.t0 (ws.getD 14 0) + ws.getD 15 0) % 2 ^ p.w
    shaExpand p n (v :: ws)

/-- One round on the eight working words. -/
def shaRound (p : ShaPar) (s : List Nat) (kw : Nat) : List Nat :=
  match s with
  | [a, b, c, d, e, f, g, h] =>
    let m := 2 ^ p.w
    let ch := Nat.xor (Nat.land e f) (Nat.land (m - 1 - e) g)
    let t1 := h + shaBig p.w p.s1 e + ch + kw
    let maj := Nat.xor (Nat.xor (Nat.land a b) (Nat.land a c)) (Nat.land b c)
    let t2 := shaBig p.w p.s0 a + maj
    [(t1 + t2) % m, a, b, c, (d + t1) % m, e, f, g]
  | _ => s

/-- One block, given as 16 words. -/
def shaBlock (p : ShaPar) (k h : List Nat) (ws : List Nat) : List Nat :=
  let sched := (shaExpand p (k.length - 16) ws.reverse).reverse
  let s := (k.zip sched).foldl (fun s x => shaRound p s (x.1 + x.2)) h
  (h.zip s).map fun x => (x.1 + x.2) % 2 ^ p.w

/-- The words of a byte list, `b` bytes each, highest byte first, at most `n` of them. -/
def beWords (b : Nat) : Nat → List Byte → List Nat
  | 0, _ => []
  | n + 1, bs => beNat (bs.take b) :: beWords b n (bs.drop b)

/-- All blocks of a padded message. -/
def shaBlocks (p : ShaPar) (k : List Nat) : Nat → List Byte → List Nat → List Nat
  | 0, _, h => h
  | n + 1, bs, h => shaBlocks p k n (bs.drop (2 * p.w)) (shaBlock p k h (beWords (p.w / 8) 16 (bs.take (2 * p.w))))

/-- The padded message: 1 bit, zeros, length in bits. -/
def shaPad (p : ShaPar) (bs : List Byte) : List Byte :=
  let blk := 2 * p.w
  let len := p.w / 4
  let z := (2 * blk - (bs.length + 1 + len) % blk) % blk
  bs ++ [0x80] ++ List.replicate z 0 ++ beBytes len (8 * bs.length)

/-- A SHA-2 hash as a list of words. -/
def sha2 (p : ShaPar) (k h : List Nat) (bs : List Byte) : List Nat :=
  let m := shaPad p bs
  shaBlocks p k (m.length / (2 * p.w)) m h

def sha256 (bs : List Byte) : List Byte := (sha2 sha256Par sha256K sha256H bs).flatMap (beBytes 4)
def sha384 (bs : List Byte) : List Byte := ((sha2 sha512Par sha512K sha384H bs).take 6).flatMap (beBytes 8)

/-- HMAC-SHA-256. -/
def hmac256 (key msg : List Byte) : List Byte :=
  let k := if key.length ≤ 64 then key else sha256 key
  let k := k ++ List.replicate (64 - k.length) 0
  sha256 (k.map (· ^^^ 0x5C) ++ sha256 (k.map (· ^^^ 0x36) ++ msg))

/-! ### AES-256-GCM -/

/-- Doubling in the field of AES. -/
def aesX2 (a : Nat) : Nat := if a < 128 then 2 * a else Nat.xor (2 * a - 256) 0x1B

def aesSub (a : Nat) : Nat := aesSbox.getD a 0

/-- The column of the round mixing. -/
def aesMix (c : List Nat) : List Nat :=
  match c with
  | [a, b, c, d] =>
    let t := Nat.xor (Nat.xor a b) (Nat.xor c d)
    [Nat.xor a (Nat.xor t (aesX2 (Nat.xor a b))), Nat.xor b (Nat.xor t (aesX2 (Nat.xor b c))),
     Nat.xor c (Nat.xor t (aesX2 (Nat.xor c d))), Nat.xor d (Nat.xor t (aesX2 (Nat.xor d a)))]
  | _ => c

def xorL (a b : List Nat) : List Nat := (a.zip b).map fun x => Nat.xor x.1 x.2

/-- The key schedule of AES-256, words latest first; `i` counts words, `rc` the round constant. -/
def aesExpand : Nat → Nat → Nat → List (List Nat) → List (List Nat)
  | 0, _, _, ws => ws
  | n + 1, i, rc, ws =>
    let t := ws.getD 0 []
    let t' := if i % 8 = 0 then xorL ((t.drop 1 ++ t.take 1).map aesSub) [rc, 0, 0, 0]
      else if i % 8 = 4 then t.map aesSub else t
    aesExpand n (i + 1) (if i % 8 = 0 then aesX2 rc else rc) (xorL (ws.getD 7 []) t' :: ws)

/-- The 15 round keys. -/
def aesKeys (key : List Byte) : List (List Nat) :=
  let k := key.map BitVec.toNat
  let ws := (aesExpand 52 8 1 ((List.range 8).map fun i => (k.drop (4 * i)).take 4).reverse).reverse
  (List.range 15).map fun r => ((ws.drop (4 * r)).take 4).flatten

/-- Row shift of the state, column by column. -/
def aesShift (s : List Nat) : List Nat := (List.range 16).map fun i => s.getD ((i + 4 * (i % 4)) % 16) 0

/-- AES-256 encryption of one block. -/
def aesEnc (key : List Byte) (blk : List Nat) : List Nat :=
  let ks := aesKeys key
  let s := xorL blk (ks.getD 0 [])
  let s := (List.range 13).foldl (fun s r =>
    let s := aesShift (s.map aesSub)
    xorL ((List.range 4).flatMap fun c => aesMix ((s.drop (4 * c)).take 4)) (ks.getD (r + 1) [])) s
  xorL (aesShift (s.map aesSub)) (ks.getD 14 [])

/-- Product in the field of GCM, most significant bit first. -/
def gcmMul (x y : Nat) : Nat :=
  ((List.range 128).foldl (fun (zv : Nat × Nat) i =>
    let z := if x.testBit (127 - i) then Nat.xor zv.1 zv.2 else zv.1
    let v := if zv.2 % 2 = 1 then Nat.xor (zv.2 / 2) (0xE1 <<< 120) else zv.2 / 2
    (z, v)) (0, y)).1

/-- The 16-byte pieces of a byte list, the last padded with zeros, at most `n` of them. -/
def chunk16 : Nat → List Byte → List Nat
  | 0, _ => []
  | n + 1, bs => beNat (bs.take 16 ++ List.replicate (16 - (bs.take 16).length) 0) :: chunk16 n (bs.drop 16)

/-- The key stream of GCM for `n` blocks from counter `c`. -/
def gcmStream (key iv : List Byte) (c n : Nat) : List Byte :=
  (List.range n).flatMap fun i =>
    (aesEnc key ((iv ++ beBytes 4 (c + i)).map BitVec.toNat)).map fun x => BitVec.ofNat 8 x

/-- Encryption and decryption of a text with a 12-byte nonce. -/
def gcmCrypt (key iv text : List Byte) : List Byte :=
  (text.zip (gcmStream key iv 2 ((text.length + 15) / 16))).map fun x => x.1 ^^^ x.2

/-- The tag over a ciphertext without associated data. -/
def gcmTag (key iv cipher : List Byte) : List Byte :=
  let h := beNat ((aesEnc key (List.replicate 16 0)).map fun x => BitVec.ofNat 8 x)
  let blocks := chunk16 ((cipher.length + 15) / 16) cipher ++ [8 * cipher.length]
  let g := blocks.foldl (fun y b => gcmMul (Nat.xor y b) h) 0
  beBytes 16 (Nat.xor g (beNat (gcmStream key iv 1 1)))

/-! ### ECDSA P-384 -/

def p384P : Nat := 2 ^ 384 - 2 ^ 128 - 2 ^ 96 + 2 ^ 32 - 1
def p384N : Nat :=
  0xFFFFFFFFFFFFFFFFFFFFFFFFFFFFFFFFFFFFFFFFFFFFFFFFC7634D81F4372DDF581A0DB248B0A77AECEC196ACCC52973
def p384B : Nat :=
  0xB3312FA7E23EE7E4988E056BE3F82D19181D9C6EFE8141120314088F5013875AC656398D8A2ED19D2A85C8EDD3EC2AEF
def p384G : Nat × Nat :=
  (0xAA87CA22BE8B05378EB1C71EF320AD746E1D3B628BA79B9859F741E082542A385502F25DBF55296C3A545E3872760AB7,
   0x3617DE4A96262C6F5D9E98BF9292DC29F8F41DBD289A147CE9DA3113B5F0B8C00A60B1CE1D7E819D7A431D7C90EA0E5F)

/-- `b ^ e mod m` over the low `n` bits of `e`. -/
def powMod (m : Nat) : Nat → Nat → Nat → Nat
  | 0, _, _ => 1
  | n + 1, b, e => (if e % 2 = 1 then b else 1) * powMod m n (b * b % m) (e / 2) % m

/-- Inverse modulo a prime. -/
def invMod (m a : Nat) : Nat := powMod m 384 (a % m) (m - 2)

/-- Sum of two points; none is the neutral one. -/
def ecAdd (a b : Option (Nat × Nat)) : Option (Nat × Nat) :=
  match a, b with
  | none, q => q
  | q, none => q
  | some (x1, y1), some (x2, y2) =>
    let p := p384P
    if x1 = x2 ∧ (y1 + y2) % p = 0 then none
    else
      let l := if x1 = x2 then (3 * x1 * x1 + (p - 3)) * invMod p (2 * y1) % p
        else (y2 + p - y1) * invMod p (x2 + p - x1) % p
      let x3 := (l * l + 2 * p - x1 - x2) % p
      some (x3, (l * (x1 + p - x3) + p - y1) % p)

/-- The low `n` bits of `k` times a point. -/
def ecMul : Nat → Nat → Option (Nat × Nat) → Option (Nat × Nat)
  | 0, _, _ => none
  | n + 1, k, q => ecAdd (if k % 2 = 1 then q else none) (ecMul n (k / 2) (ecAdd q q))

/-- Whether a signature r ‖ s over `msg` verifies under the key X ‖ Y, hashing with SHA-384. -/
def ecdsaOk (pub sig msg : List Byte) : Bool :=
  let x := be pub 0 48
  let y := be pub 48 48
  let r := be sig 0 48
  let s := be sig 48 48
  let p := p384P
  let n := p384N
  if x < p ∧ y < p ∧ y * y % p = (x * x * x + (p - 3) * x + p384B) % p ∧ 0 < r ∧ r < n ∧ 0 < s ∧ s < n then
    let e := beNat (sha384 msg)
    let w := invMod n s
    match ecAdd (ecMul 384 (e * w % n) (some p384G)) (ecMul 384 (r * w % n) (some (x, y))) with
    | some (vx, _) => vx % n == r
    | none => false
  else false

end Sys2Proof
end

