-- ==== Sys2Proof/Machine/HostState.lean ====
section
/-!
DEFINITION. The state of the host interface: PCIe functions, SPI targets, partition blocks with claims, rings, taps and
meters, and the policy that P0 sets (R392 to R421, R495 to R498). Readers are 0 to 3 PF0 to PF3, 4 and 5 SPIT0 and
SPIT1; interfaces are 0 PCIe, 1 SPIT0, 2 SPIT1.
-/

namespace Sys2Proof.Machine

/-- What the device puts on its interfaces. `txFrame` gives the slots of an output frame (none: high-impedance) and, for
AES3, the V, U, C bits of both subframes. `core` is what a read over the control fabric returns to a Setter core, `bank`
what a shared bank returns to a requester, `xram` what port B returns to a source, `reg` what a register read returns to its
reader. `busy` says that an SPI target drives BUSY. -/
inductive Out where
  | busWrite (part addr : Nat) (bytes : List Byte)
  | busRead (part addr len : Nat)
  | msix (part addr : Nat) (data : Word)
  | netFrame (port : Nat) (bytes : List Byte)
  | txFrame (port : Nat) (slots : List (Option Nat)) (status : List Bool)
  | spi (target : Nat) (words : List Word)
  | uart (bytes : List Byte)
  | cage (cage dev reg : Nat) (wr : Option Nat)
  | jtag (bits : List Bool)
  | core (core addr : Nat) (v : Word)
  | bank (who : Requester) (addr : Nat) (v : Word)
  | xram (src word : Nat) (v : Word)
  | reg (reader off : Nat) (v : Word)
  | busy (target : Nat)
deriving DecidableEq, Repr

/-- A ring: base, configuration, device and host index, phase. `since` holds, for each unconsumed
completion from the oldest, the uptime in µs at which it was written, none once its age has been announced. -/
structure Ring where
  lo    : Word
  hi    : Word
  cfg   : Word
  dev   : Nat
  host  : Nat
  phase : Bool
  since : List (Option Nat)
deriving DecidableEq, Repr

def Ring.reset : Ring where
  lo := 0
  hi := 0
  cfg := 0
  dev := 0
  host := 0
  phase := false
  since := []

/-- The node that a tap descriptor serves (R413). -/
structure TapNode where
  play : Bool
  fmt  : Nat
  dom  : Nat
  sids : List Reader    -- a play tap writes each reader's new SID
deriving DecidableEq, Repr

/-- A tap descriptor with its engine. `block` is the block being recorded, `done` the recorded blocks that wait to be
written, `frames` the play frames read, `reads` the play blocks being read with the HOSTIDX at their tick; `wait`: the
present period's frame lies in a block that is still being read. -/
structure Tap where
  cfg     : Word
  lo      : Word
  hi      : Word
  frames_ : Nat
  hostIdx : Nat
  devIdx  : Nat
  start   : Word
  dmaErr  : Bool
  und     : Bool
  ovr     : Bool
  run     : Bool
  n0      : Nat
  node    : Option TapNode
  block   : List Byte
  done    : List (Nat × List Byte)
  frames  : List (Nat × List Word)
  reads   : List (Nat × Nat)
  wait    : Bool
  fade    : Fade
deriving DecidableEq, Repr

def Tap.reset : Tap where
  cfg := 0
  lo := 0
  hi := 0
  frames_ := 0
  hostIdx := 0
  devIdx := 0
  start := 0
  dmaErr := false
  und := false
  ovr := false
  run := false
  n0 := 0
  node := none
  block := []
  done := []
  frames := []
  reads := []
  wait := false
  fade := Fade.reset

/-- A METER node at work (R417). -/
structure Meter where
  node   : Nat
  sids   : List Nat
  dom    : Nat
  kind   : Nat
  block  : Nat
  ms     : Nat
  peak   : List Nat
  sumSq  : List Nat
  n      : Nat               -- samples of the running window
  count  : Nat               -- updates so far
deriving DecidableEq, Repr

/-- A completion that waits for its ring (R409, R410). -/
structure Compl where
  cq      : Nat
  cmdId   : Nat
  sq      : Nat
  c2shed  : Bool
  report  : Bool
  status  : Nat
  outcome : Nat
  tag     : Nat
  epoch   : Nat
  applied : Nat
  anchor  : Nat
  domains : Nat
  errOff  : Nat
  cticks  : List Nat
  rptOff  : Nat
  rptLen  : Nat
  res     : Nat
  sub     : Nat
  inst    : Nat
  need    : Nat
  have_   : Nat
deriving DecidableEq, Repr

/-- A partition block. -/
structure Part where
  holder   : Option Nat
  takeover : Bool
  nonce    : Option (Nat × Nat)      -- the nonce and the uptime in µs at which it was issued
  nonceReg : Nat                     -- the value that PRT_CLAIM_NONCEk shows
  mac      : Memory Word
  resp     : Nat
  result   : Nat
  claim    : Option (Nat × Nat × Nat) -- a SUBMIT being evaluated: reader, result, response
  enrol    : Option (Nat × List Byte) -- an ENROL being stored: reader, key
  lastTag  : Nat
  irqStat  : Word
  irqMask  : Word
  ringErr  : Word
  sq       : Memory Ring
  cq       : Memory Ring
  fr       : Ring
  frOvf    : Nat
  frSeq    : Nat
  rptLo    : Word
  rptHi    : Word
  rptLen   : Word
  mtrLo    : Word
  mtrHi    : Word
  mtrCfg   : Word
  qSel     : Word
  taps     : Memory Tap
  meters   : List Meter
  lastSq   : Nat                     -- the ring last served (R405)
  compl    : List Compl
  session  : Nat                     -- session ends so far: a completion of an earlier session is discarded (R420)
  msix     : Memory Word
  pba      : Nat
  waits    : List Out                -- writes and messages that wait for Bus Master Enable, oldest first (R412)
deriving DecidableEq, Repr

def Part.reset : Part where
  holder := none
  takeover := false
  nonce := none
  nonceReg := 0
  mac := []
  resp := 0
  result := 0
  claim := none
  enrol := none
  lastTag := 0
  irqStat := 0
  irqMask := 0
  ringErr := 0
  sq := []
  cq := []
  fr := Ring.reset
  frOvf := 0
  frSeq := 0
  rptLo := 0
  rptHi := 0
  rptLen := 0
  mtrLo := 0
  mtrHi := 0
  mtrCfg := 0
  qSel := 0x20
  taps := []
  meters := []
  lastSq := 7
  compl := []
  session := 0
  msix := []
  pba := 0
  waits := []

/-- What an unlisted word of an MSI-X table reads as: vector control has the mask bit set (PRESUMED: PCIe). -/
def msixReset (k : Nat) : Word := if k % 4 = 3 then 1 else 0

/-- The PCIe endpoint (R392, R494). -/
structure Pcie where
  bme   : Nat
  d3    : Nat
  width : Nat
  speed : Nat
deriving DecidableEq, Repr

/-- An SPI target's flags for its next status word (R495). -/
structure SpiTgt where
  map      : Nat             -- mapped partition, 0xFF unmapped
  err      : Bool
  conflict : Bool
deriving DecidableEq, Repr

/-- A grant (R402). -/
structure Grant where
  reader : Nat
  first  : Nat
  count  : Nat
deriving DecidableEq, Repr

/-- Policy that P0 sets and that outlives sessions (R400, R401). `quota` is keyed by
(1,024 × partition) + (16 × resource) + SUB and holds LIMIT and C0_LIMIT. -/
structure Policy where
  quota  : Memory (Nat × Nat)
  prio   : Memory Nat
  grants : List Grant
deriving DecidableEq, Repr

/-- The host interface. `fails` and `until_` are the consecutive failed SUBMITs and the end of the lockout (uptime in µs)
of each reader (R398). -/
structure HostSys where
  parts   : Memory Part
  pcie    : Pcie
  spi0    : SpiTgt
  spi1    : SpiTgt
  fails   : Memory Nat
  until_  : Memory Nat
  pol     : Policy
  uptLat  : Memory Nat        -- GLB_UPTIME_HI latched per reader
  scratch : Memory Word
  outs    : List Out          -- outputs of the step
  rep     : List (Nat × Nat × Nat)  -- reports of the step: cause, partition, domain (8: none, a C0 admission shed)
deriving DecidableEq, Repr

/-- What an unlisted priority reads as (R401). -/
def prioReset (p : Nat) : Nat := if p = 0 then 255 else 0

def HostSys.reset : HostSys where
  parts := []
  pcie := ⟨0, 0, 0, 0⟩
  spi0 := ⟨0xFF, false, false⟩
  spi1 := ⟨0xFF, false, false⟩
  fails := []
  until_ := []
  pol := ⟨[], [], []⟩
  uptLat := []
  scratch := []
  outs := []
  rep := []

end Sys2Proof.Machine
end

