-- ==== Sys2Proof/Machine/Host.lean ====
section
/-!
DEFINITION. The host interface: views, claims, rings, completions, interrupts, taps, meters and the PRT_ registers
(R392 to R421).
-/

namespace Sys2Proof.Machine

def HostSys.part (h : HostSys) (p : Nat) : Part := Memory.get (fun _ => Part.reset) h.parts p
def HostSys.setPart (h : HostSys) (p : Nat) (q : Part) : HostSys :=
  { h with parts := Memory.set (fun _ => Part.reset) h.parts p q }
def HostSys.modPart (h : HostSys) (p : Nat) (f : Part → Part) : HostSys := h.setPart p (f (h.part p))
def HostSys.emit (h : HostSys) (o : Out) : HostSys := { h with outs := h.outs ++ [o] }

def HostSys.spi (h : HostSys) (t : Nat) : SpiTgt := if t = 0 then h.spi0 else h.spi1
def HostSys.setSpi (h : HostSys) (t : Nat) (v : SpiTgt) : HostSys := if t = 0 then { h with spi0 := v } else { h with spi1 := v }

/-- The interface code of a reader (R396). -/
def ifaceOf (r : Nat) : Nat := if r < 4 then 0 else r - 3

/-- R489: the partition whose block a reader sees. -/
def HostSys.view (h : HostSys) (r : Nat) : Option Nat :=
  if r < 4 then some r
  else
    let m := (h.spi (r - 4)).map
    if m < 4 then some m else none

/-- R397: whether reader `r` holds the partition it sees. -/
def HostSys.holds (h : HostSys) (r : Nat) : Bool :=
  match h.view r with
  | some p => (h.part p).holder == some (ifaceOf r)
  | none => false

/-- R490: whether reader `r` holds P0. -/
def HostSys.holdsP0 (h : HostSys) (r : Nat) : Bool := h.view r == some 0 && h.holds r

def Part.ring (q : Part) (sq : Bool) (r : Nat) : Ring := Memory.get (fun _ => Ring.reset) (if sq then q.sq else q.cq) r
def Part.setRing (q : Part) (sq : Bool) (r : Nat) (v : Ring) : Part :=
  if sq then { q with sq := Memory.set (fun _ => Ring.reset) q.sq r v }
  else { q with cq := Memory.set (fun _ => Ring.reset) q.cq r v }
def Part.tap (q : Part) (t : Nat) : Tap := Memory.get (fun _ => Tap.reset) q.taps t
def Part.setTap (q : Part) (t : Nat) (v : Tap) : Part := { q with taps := Memory.set (fun _ => Tap.reset) q.taps t v }

def Ring.en (r : Ring) : Bool := r.cfg.flag 31
def Ring.size (r : Ring) : Nat := 2 ^ r.cfg.fld 0 4
/-- R404: entries between head and tail. -/
def Ring.used (head tail size : Nat) : Nat := (tail + size - head) % size
/-- R404: whether a completion or fault ring has room. -/
def Ring.room (r : Ring) : Bool := r.en && (r.dev + 1) % r.size != r.host
/-- R395: SPACE. -/
def spaceOf (lo : Word) : Bool := lo.flag 0
/-- The host address of a base pair. -/
def hostBase (lo hi : Word) : Nat := hi.toNat <<< 32 + (lo.fld 12 20) <<< 12
/-- R395: the byte offset of a base in the Exchange RAM. -/
def xramBase (lo : Word) : Nat := (lo.fld 12 6) <<< 12

/-! ### Interrupts (R411) -/

/-- R412: function `p` sends `o`, once its Bus Master Enable is 1. -/
def HostSys.send (h : HostSys) (p : Nat) (o : Out) : HostSys :=
  if h.pcie.bme.testBit p then h.emit o else h.modPart p fun q => { q with waits := q.waits ++ [o] }

/-- Send or hold the MSI-X message of vector `v` of partition `p`. -/
def HostSys.msi (h : HostSys) (p v : Nat) : HostSys :=
  let q := h.part p
  if q.holder != some 0 then h
  else
    let w := fun (k : Nat) => Memory.get msixReset q.msix (4 * v + k)
    if (w 3).flag 0 then h.setPart p { q with pba := q.pba ||| 2 ^ v }
    else h.send p (.msix p ((w 1).toNat <<< 32 + (w 0).toNat) (w 2))

/-- PRT_IRQ_STAT bit `b` is set. -/
def HostSys.irq (h : HostSys) (p b : Nat) : HostSys := h.modPart p fun q => { q with irqStat := q.irqStat ||| Word.one b }

/-- A write of word `k` of the MSI-X table; unmasking sends a held message. -/
def HostSys.writeMsix (h : HostSys) (p k : Nat) (v : Word) : HostSys :=
  let q := h.part p
  let v := if k % 4 = 3 then v &&& 1 else if k % 4 = 0 then v &&& 0xFFFFFFFC else v
  let h := h.setPart p { q with msix := Memory.set msixReset q.msix k v }
  if k % 4 = 3 && !v.flag 0 && q.pba.testBit (k / 4) then
    (h.modPart p fun q => { q with pba := q.pba - 2 ^ (k / 4) }).msi p (k / 4)
  else h

/-! ### Session ends (R420) -/

/-- R413: a tap stops. -/
def Tap.stop (t : Tap) : Tap :=
  { t with cfg := t.cfg.setFlag 31 false, run := false, block := [], done := [], frames := [], reads := [], wait := false, fade := Fade.reset }

/-- A ring is disabled: its unfetched entries are discarded. -/
def Ring.disable (r : Ring) (sq : Bool) : Ring :=
  { r with cfg := r.cfg.setFlag 31 false, dev := if sq then r.host else r.dev, since := [] }

/-- R420: the session state of partition `p` is reset. -/
def HostSys.sessionReset (h : HostSys) (p : Nat) : HostSys :=
  h.modPart p fun q =>
    { q with sq := (q.sq.map fun e => (e.1, e.2.disable true)).filter fun e => e.2 != Ring.reset
             cq := (q.cq.map fun e => (e.1, e.2.disable false)).filter fun e => e.2 != Ring.reset
             fr := q.fr.disable false
             taps := (q.taps.map fun e => (e.1, e.2.stop)).filter fun e => e.2 != Tap.reset
             mtrCfg := q.mtrCfg.setFlag 31 false, rptLen := 0
             msix := [], pba := 0, waits := [], irqStat := 0, compl := [], session := q.session + 1 }

/-- R420: the holder of partition `p` ends its session. -/
def HostSys.endSession (h : HostSys) (p : Nat) : HostSys :=
  (h.sessionReset p).modPart p fun q => { q with holder := none }

/-! ### Claims (R396 to R399) -/

/-- The 44-byte message of a claim; it begins with the letters DZ8064CL. -/
def claimMsg (p iface nonce : Nat) : List Byte :=
  [0x44, 0x5A, 0x38, 0x30, 0x36, 0x34, 0x43, 0x4C] ++ [BitVec.ofNat 8 p, BitVec.ofNat 8 iface, 0, 0]
    ++ leBytes 32 nonce

/-- The bytes of PRT_CLAIM_MAC0 to PRT_CLAIM_MAC7. -/
def Part.macBytes (q : Part) : List Byte := (List.range 8).flatMap fun k => leBytes 4 (Memory.get (fun _ => (0 : Word)) q.mac k).toNat

/-- R396, R398: START from reader `r` at uptime `now` µs; `n` the fresh nonce. -/
def HostSys.claimStart (h : HostSys) (r now : Nat) (enrolled : Bool) (n : Nat) : HostSys :=
  match h.view r with
  | none => h
  | some p =>
    let q := h.part p
    if now < Memory.get (fun _ => 0) h.until_ r then h.setPart p { q with result := 5 }
    else if q.claim.isSome || q.enrol.isSome then h.setPart p { q with result := 6 }
    else if !enrolled then h.setPart p { q with result := 4, nonce := none }
    else h.setPart p { q with result := 0, nonce := some (n % 2 ^ 256, now), nonceReg := n % 2 ^ 256 }

/-- R396, R399: SUBMIT from reader `r`; `key` the partition's key, none when it is not available. -/
def HostSys.claimSubmit (h : HostSys) (r now : Nat) (key : Option (List Byte)) : HostSys :=
  match h.view r with
  | none => h
  | some p =>
    let q := h.part p
    if q.claim.isSome || q.enrol.isSome then h.setPart p { q with result := 6 }
    else
      let (res, resp) := match key, q.nonce with
        | none, _ => (4, 0)
        | some _, none => (3, 0)
        | some k, some (n, t) =>
          if t + 1000000 ≤ now then (3, 0)
          else
            let m := claimMsg p (ifaceOf r) n
            if hmac256 k m = q.macBytes then -- the letters DZ8064RS come first
              (1, leNat (hmac256 k ([0x44, 0x5A, 0x38, 0x30, 0x36, 0x34, 0x52, 0x53] ++ m.drop 8 ++ q.macBytes)))
            else (2, 0)
      h.setPart p { q with nonce := none, claim := some (r, res, resp) }

/-- R397, R398: the outcome of the SUBMIT being evaluated is posted. -/
def HostSys.claimResult (h : HostSys) (p now : Nat) : HostSys :=
  let q := h.part p
  match q.claim with
  | none => h
  | some (r, res, resp) =>
    let h := h.setPart p { q with claim := none, result := res }
    if res = 1 then
      let taken := match q.holder with | some i => i != ifaceOf r | none => false
      let h := if taken then h.endSession p else h
      let h := { h with fails := Memory.set (fun _ => 0) h.fails r 0 }
      (h.modPart p fun q => { q with holder := some (ifaceOf r), takeover := taken, resp := resp }).irq p 10
    else
      let f := Memory.get (fun _ => 0) h.fails r + 1
      ({ h with fails := Memory.set (fun _ => 0) h.fails r f
                until_ := Memory.set (fun _ => 0) h.until_ r (now + 1000000 * min 64 (2 ^ (f - 1))) }).irq p 10

/-- R396: a nonce that is 1 s old becomes invalid. -/
def HostSys.nonceExpiry (h : HostSys) (p now : Nat) : HostSys :=
  h.modPart p fun q => match q.nonce with
    | some (_, t) => if t + 1000000 ≤ now then { q with nonce := none } else q
    | none => q

/-- R398: a lockout interval ends. -/
def HostSys.lockoutExpiry (h : HostSys) (r now : Nat) : HostSys :=
  if Memory.get (fun _ => 0) h.until_ r ≤ now then { h with until_ := Memory.set (fun _ => 0) h.until_ r 0 } else h

/-- R420: RELEASE by the holder. -/
def HostSys.claimRelease (h : HostSys) (r : Nat) : HostSys :=
  match h.view r with
  | some p => if h.holds r then h.endSession p else h
  | none => h

/-- R399: ENROL from reader `r`; `may` says that P0 may be enrolled without a claim. -/
def HostSys.enrol (h : HostSys) (r now : Nat) (may : Bool) : HostSys :=
  match h.view r with
  | none => h
  | some p =>
    let q := h.part p
    if now < Memory.get (fun _ => 0) h.until_ r then h.setPart p { q with result := 5 }
    else if p != 0 || !may then h.setPart p { q with result := 4 }
    else if q.enrol.isSome || q.claim.isSome then h.setPart p { q with result := 6 }
    else h.setPart p { q with enrol := some (r, q.macBytes) }

/-- R399: the enrolment's journal write ends. -/
def HostSys.enrolDone (h : HostSys) (ok : Bool) : HostSys :=
  let q := h.part 0
  match q.enrol with
  | none => h
  | some (r, _) =>
    (if ok then h.setPart 0 { q with enrol := none, result := 1, holder := some (ifaceOf r) }
     else h.setPart 0 { q with enrol := none, result := 7 }).irq 0 10

/-! ### Submission rings (R404, R405) -/

/-- Whether the structure of partition `p` based at `lo` can be served: Bus Master Enable for host memory (R412). -/
def HostSys.reach (h : HostSys) (p : Nat) (lo : Word) : Bool := spaceOf lo || h.pcie.bme.testBit p

/-- R405: the ring that the fetch engine of partition `p` serves next. -/
def HostSys.nextRing (h : HostSys) (p : Nat) : Option Nat :=
  let q := h.part p
  ((List.range 8).map fun i => (q.lastSq + 1 + i) % 8).find? fun r =>
    let g := q.ring true r
    g.en && g.dev != g.host && h.reach p g.lo

/-- R405: the entry that a fetch of ring `r` reads: its SPACE, and its address there. -/
def Part.entryAt (q : Part) (r : Nat) : Bool × Nat :=
  let g := q.ring true r
  if spaceOf g.lo then (true, xramBase g.lo + 64 * g.dev) else (false, hostBase g.lo g.hi + 64 * g.dev)

/-- R405: the fetch of ring `r` completes: HEAD advances. -/
def HostSys.fetched (h : HostSys) (p r : Nat) : HostSys :=
  h.modPart p fun q =>
    let g := q.ring true r
    { q.setRing true r { g with dev := (g.dev + 1) % g.size } with lastSq := r }

/-- R412: the fetch of ring `r` fails: the ring is disabled. -/
def HostSys.fetchFail (h : HostSys) (p r : Nat) : HostSys :=
  h.modPart p fun q => { q.setRing true r ((q.ring true r).disable true) with ringErr := q.ringErr ||| Word.one r, lastSq := r }

/-- R404, R405, R409, R419: a doorbell write; `kind` 0 submission, 1 completion, 2 fault ring. -/
def Part.doorbell (q : Part) (kind r v : Nat) : Part :=
  let g := if kind = 2 then q.fr else q.ring (kind == 0) r
  if v < g.size then
    let g := { g with host := v }
    let g := if kind = 1 then { g with since := g.since.drop (g.since.length - Ring.used v g.dev g.size) } else g
    if kind = 2 then { q with fr := g } else q.setRing (kind == 0) r g
  else { q with ringErr := q.ringErr ||| Word.one (if kind = 0 then r else if kind = 1 then 8 + r else 16) }

/-- R404, R395: a write of a ring's CFG by a holder with interface `iface`; `kind` as in `doorbell`. -/
def Part.writeRingCfg (q : Part) (kind r : Nat) (v : Word) (iface : Nat) : Part :=
  let g := if kind = 2 then q.fr else q.ring (kind == 0) r
  let mask : Word := match kind with
    | 0 => 0x8000070F
    | 1 => 0xBFFFF00F
    | _ => 0xBF00000F
  let v := v &&& mask
  let okK := 1 ≤ v.fld 0 4 && v.fld 0 4 ≤ 10
  let v := if g.en then v.setFld 0 4 (g.cfg.fld 0 4) else v
  let en := v.flag 31
  let v := if en && !g.en && (!okK || (iface != 0 && !spaceOf g.lo)) then v.setFlag 31 false else v
  let g' := { g with cfg := v }
  let g' := if !g.en && v.flag 31 then
      { g' with phase := true, dev := if kind = 0 then g'.dev else 0, host := if kind = 0 then g'.host else 0, since := [] }
    else if g.en && !v.flag 31 then g'.disable (kind == 0) else g'
  if kind = 2 then { q with fr := g' } else q.setRing (kind == 0) r g'

/-! ### Completions (R409 to R411) -/

/-- R410: the 64 bytes of a completion. -/
def Compl.bytes (c : Compl) (phase : Bool) (sqHead : Nat) : List Byte :=
  let flags := (if phase then 1 else 0) + (if c.c2shed then 2 else 0) + if c.report then 4 else 0
  leBytes 2 c.cmdId ++ leBytes 1 c.sq ++ leBytes 1 flags ++ leBytes 2 sqHead ++ leBytes 1 c.status ++ leBytes 1 c.outcome
    ++ leBytes 4 c.tag ++ leBytes 4 c.epoch ++ leBytes 8 c.applied ++ leBytes 1 c.anchor ++ leBytes 1 c.domains ++ leBytes 2 0
    ++ leBytes 4 c.errOff ++ (List.range 3).flatMap (fun k => leBytes 4 (c.cticks.getD k 0)) ++ leBytes 4 c.rptOff
    ++ leBytes 4 c.rptLen ++ leBytes 1 c.res ++ leBytes 1 c.sub ++ leBytes 2 c.inst ++ leBytes 4 c.need ++ leBytes 4 c.have_

/-- A write by the device into a structure: to host memory, or into the Exchange RAM as the second component. -/
def HostSys.put (h : HostSys) (p : Nat) (lo hi : Word) (off : Nat) (bs : List Byte) : HostSys × List (Nat × List Byte) :=
  if spaceOf lo then (h, [(xramBase lo + off, bs)]) else (h.send p (.busWrite p (hostBase lo hi + off) bs), [])

/-- R409, R411: the oldest completion of partition `p` whose ring has room is written at uptime `now`. -/
def HostSys.writeCompl (h : HostSys) (p now : Nat) : HostSys × List (Nat × List Byte) :=
  let q := h.part p
  match q.compl.find? fun c => let g := q.ring false c.cq; g.room && h.reach p g.lo with
  | none => (h, [])
  | some c =>
    let g := q.ring false c.cq
    let head := if c.sq < 8 then (q.ring true c.sq).dev else 0
    let tail := (g.dev + 1) % g.size
    let g' := { g with dev := tail, phase := if tail = 0 then !g.phase else g.phase
                       since := g.since ++ [if g.cfg.fld 16 8 = 0 then none else some now] }
    let n := Ring.used g'.host g'.dev g'.size
    let cnt := max 1 (g.cfg.fld 12 4)
    let h := h.setPart p { q.setRing false c.cq g' with compl := q.compl.erase c }
    let (h, xs) := h.put p g.lo g.hi (64 * g.dev) (c.bytes g.phase head)
    let h := h.irq p c.cq
    (if cnt ≤ n || g.cfg.fld 16 8 = 0 then h.msi p (g.cfg.fld 24 6) else h, xs)

/-- R411: the oldest unconsumed entry of a completion ring has waited COAL_US. -/
def HostSys.coalesce (h : HostSys) (p r now : Nat) : HostSys :=
  let g := (h.part p).ring false r
  match g.since with
  | some t :: rest =>
    if g.en && t + g.cfg.fld 16 8 ≤ now then
      (h.modPart p fun q => q.setRing false r { g with since := none :: rest }).msi p (g.cfg.fld 24 6)
    else h
  | _ => h

/-- R419: a fault record goes to the fault ring of partition `p`. -/
def HostSys.putFault (h : HostSys) (p : Nat) (rec : List Byte) : HostSys × List (Nat × List Byte) :=
  let q := h.part p
  let g := q.fr
  let seq := q.frSeq
  if !g.en then (h.setPart p { q with frSeq := seq + 1 }, [])
  else if !g.room then
    (h.setPart p { q with frSeq := seq + 1, frOvf := incSat 0xFF q.frOvf }, [])
  else
    let tail := (g.dev + 1) % g.size
    let bs := rec.take 48 ++ leBytes 8 seq ++ leBytes 1 (if g.phase then 1 else 0) ++ leBytes 7 0
    let g' := { g with dev := tail, phase := if tail = 0 then !g.phase else g.phase }
    let h := h.setPart p { q with fr := g', frSeq := seq + 1 }
    let (h, xs) := h.put p g.lo g.hi (64 * g.dev) bs
    ((h.irq p 8).msi p (g.cfg.fld 24 6), xs)

/-! ### Taps (R413 to R416) -/

def Tap.en (t : Tap) : Bool := t.cfg.flag 31
def Tap.blk (t : Tap) : Nat := t.cfg.fld 0 11
/-- Bytes of a frame. -/
def Tap.frameLen (t : Tap) : Nat :=
  match t.node with
  | some n => n.sids.length * tapBytes n.fmt
  | none => 0

/-- DEDUCED from R415 and R416 (log 91): frame numbers and the 32-bit host index are compared modulo 2^32. -/
def hostAhead (host f : Nat) : Int := sext 32 ((host + 2 ^ 32 - f % 2 ^ 32) % 2 ^ 32)

/-- R413: the limits of FRAMES. -/
def Tap.shapeOk (t : Tap) : Bool :=
  0 < t.blk && 0 < t.frames_ && t.frames_ % t.blk == 0 && t.frames_ * t.frameLen ≤ 16 * 2 ^ 20

/-- R413: a tap starts at the first tick at which its node is in force and EN is 1. -/
def Tap.startAt (t : Tap) (n : Nat) : Tap :=
  if t.run || !t.en || t.node.isNone || !t.shapeOk then t
  else { t with run := true, n0 := n, start := BitVec.ofNat 32 n, devIdx := 0, block := [], done := [], frames := [], reads := [], wait := false
                fade := { Fade.reset with phase := .live } }

/-- R415: at tick `n` a record tap reads frame `n − n0`; a full block waits to be written. -/
def Tap.record (t : Tap) (n : Nat) (xs : List Word) : Tap :=
  match t.node with
  | some nd =>
    if !t.run || nd.play || n < t.n0 then t
    else
      let b := t.block ++ xs.flatMap (tapOut nd.fmt)
      let f := n - t.n0
      if (f + 1) % t.blk = 0 then { t with block := [], done := t.done ++ [(f + 1, b)] } else { t with block := b }
  | none => t

/-- R416: at tick `n` a play tap begins the block reads that are due: (first frame, HOSTIDX at this tick). -/
def Tap.dueReads (t : Tap) (n : Nat) : List (Nat × Nat) :=
  let b := t.blk
  if n = t.n0 then [(0, t.hostIdx), (b, t.hostIdx), (2 * b, t.hostIdx)]
  else if (n - t.n0) % b = 0 then [(n - t.n0 + 2 * b, t.hostIdx)] else []

/-- R371: a period without data: the fade-out runs, and an underrun begins when none ran. -/
def Tap.starve (t : Tap) (c : Nat) : List Word × Tap × Bool :=
  let fresh := match t.fade.phase with | .live | .rampBack _ => true | _ => false
  let fd := if fresh then t.fade.start else { t.fade with due := false }
  let (ys, fd) := fd.deliver (List.replicate c 0)
  (ys, { t with fade := fd.settle, und := true, wait := false }, fresh)

/-- R371: the values of frame `f` when it is present. -/
def Tap.frame (t : Tap) (f : Nat) (xs : List Word) : List Word × Tap :=
  let fd := match t.fade.phase with | .fadeOut _ | .muted => t.fade.recover | _ => t.fade
  let (ys, fd) := fd.deliver xs
  (ys, { t with fade := fd.settle, frames := t.frames.filter fun x => x.1 != f, wait := false })

/-- R371, R416: at tick `n` a play tap's values for the period, and whether an underrun begins. A frame whose block is still
being read comes with it; one that has not come by the next tick is missing. -/
def Tap.play (t : Tap) (n : Nat) : List Word × Tap × Bool :=
  match t.node with
  | some nd =>
    let f := n - t.n0
    let t1 := if t.wait then (t.starve nd.sids.length).2.1 else t
    let late := t.wait && (t.starve nd.sids.length).2.2
    match t1.frames.find? fun x => x.1 == f with
    | some (_, xs) => let r := t1.frame f xs; (r.1, r.2, late)
    | none =>
      if t1.reads.any fun b => b.1 ≤ f && f < b.1 + t1.blk && 0 < hostAhead b.2 f then ([], { t1 with wait := true }, late)
      else
        let r := t1.starve nd.sids.length
        (r.1, r.2.1, late || r.2.2)
  | none => ([], t, false)

/-- R416: the frame of period `n` that its tap waits for has come. -/
def Tap.playLate (t : Tap) (n : Nat) : List Word × Tap :=
  match t.frames.find? fun x => t.wait && x.1 == n - t.n0 with
  | some (f, xs) => t.frame f xs
  | none => ([], t)

/-- R416: the data of the oldest block read arrives: its frames below the noted HOSTIDX are present. -/
def Tap.readDone (t : Tap) (data : List Byte) : Tap :=
  match t.reads, t.node with
  | (f0, lim) :: rest, some nd =>
    let b := tapBytes nd.fmt
    let c := nd.sids.length
    let fs := ((List.range t.blk).filter fun i => 0 < hostAhead lim (f0 + i)).map fun i =>
      (f0 + i, (List.range c).map fun j => tapIn nd.fmt (data.drop ((i * c + j) * b)))
    { t with reads := rest, frames := t.frames ++ fs }
  | _, _ => t

/-- R412: a tap read fails: its frames stay missing. -/
def Tap.readFail (t : Tap) : Tap := { t with reads := t.reads.drop 1, dmaErr := true }

/-- R415: the oldest completed block of tap `k` of partition `p` is written. -/
def HostSys.writeBlock (h : HostSys) (p k : Nat) : HostSys × List (Nat × List Byte) :=
  let q := h.part p
  let t := q.tap k
  match t.done with
  | [] => (h, [])
  | (f1, bs) :: rest =>
    if !h.reach p t.lo then (h, [])
    else
      let first := f1 - t.blk
      let off := (first % t.frames_) * t.frameLen
      let late := decide (hostAhead t.hostIdx f1 < -t.frames_)
      let t' := { t with done := rest, devIdx := f1 % 2 ^ 32, ovr := t.ovr || late }
      let (h, xs) := (h.setPart p (q.setTap k t')).put p t.lo t.hi off bs
      ((h.irq p 9).msi p (t.cfg.fld 24 6), xs)

/-! ### Meters (R417) -/

/-- A meter reads its inputs at a tick. -/
def Meter.take (m : Meter) (xs : List Word) : Meter :=
  let mag := fun (x : Word) => x.toInt.natAbs
  { m with n := m.n + 1
           peak := (List.range xs.length).map fun i => max (m.peak.getD i 0) (mag (xs.getD i 0))
           sumSq := (List.range xs.length).map fun i => m.sumSq.getD i 0 + mag (xs.getD i 0) * mag (xs.getD i 0) }

/-- The integer square root by bisection of `n` bits. -/
def isqrtBits (v : Nat) : Nat → Nat → Nat
  | 0, r => r
  | n + 1, r => isqrtBits v n (if (r + 2 ^ n) * (r + 2 ^ n) ≤ v then r + 2 ^ n else r)
def isqrtM (v : Nat) : Nat := isqrtBits v 64 0

/-- R417: VALUE of channel `i` at the end of a window; `u` an open value. A peak is exact; RMS is one of the two codes
about the exact root; the library kernels' values are open. -/
def Meter.value (m : Meter) (i u : Nat) : Word :=
  match m.kind with
  | 0 => BitVec.ofNat 32 (min 0x7FFFFFFF (m.peak.getD i 0))
  | 2 => BitVec.ofNat 32 (min 0x7FFFFFFF (isqrtM (m.sumSq.getD i 0 / max 1 m.n) + u % 2))
  | 3 => wordI (max (-17920) (sext 32 u))
  | _ => BitVec.ofNat 32 u

/-- R417: the window of the `j`-th meter of partition `p` ends; `u` gives open values by channel. -/
def HostSys.meterEnd (h : HostSys) (p j ns : Nat) (u : Nat → Nat) : HostSys × List (Nat × List Byte) :=
  let q := h.part p
  match q.meters[j]? with
  | none => (h, [])
  | some m =>
    let m' := { m with count := (m.count + 1) % 2 ^ 32, n := 0, peak := [], sumSq := [] }
    let h := h.setPart p { q with meters := q.meters.set j m' }
    let bs := (List.range m.sids.length).flatMap fun c =>
      leBytes 4 (m.value c (u c)).toNat ++ leBytes 4 m'.count ++ leBytes 8 ns
    if q.mtrCfg.flag 31 && m.n != 0 then h.put p q.mtrLo q.mtrHi (16 * m.block) bs else (h, [])

/-! ### Registers (R421) -/

/-- A base pair write. -/
def baseLo (v : Word) : Word := v &&& 0xFFFFF001

/-- The PRT_ register at offset `o` of partition `p` for reader `r`. `armed` and `epoch` come from the Setter, `quota`
gives the three values of the selected resource. -/
def HostSys.readPrt (h : HostSys) (p r now : Nat) (armed : Bool) (epoch : Nat) (quota : Nat × Nat × Nat) (o : Nat) : Word :=
  let q := h.part p
  let b := fun (x : Bool) (i : Nat) => if x then 2 ^ i else 0
  let ringWord := fun (g : Ring) (k : Nat) (ovf : Nat) => match k with
    | 0 => g.lo
    | 4 => g.hi
    | 8 => g.cfg.setFld 16 8 (if ovf = 0 then g.cfg.fld 16 8 else ovf)
    | _ => BitVec.ofNat 32 (g.dev <<< 16 + g.host)
  if 0x020 ≤ o && o < 0x040 then BitVec.ofNat 32 (q.nonceReg >>> (8 * (o - 0x020)))
  else if 0x060 ≤ o && o < 0x080 then BitVec.ofNat 32 (q.resp >>> (8 * (o - 0x060)))
  else if 0x100 ≤ o && o < 0x180 then ringWord (q.ring true ((o - 0x100) / 16)) (o % 16) 0
  else if 0x180 ≤ o && o < 0x200 then ringWord (q.ring false ((o - 0x180) / 16)) (o % 16) 0
  else if 0x200 ≤ o && o < 0x210 then ringWord q.fr (o % 16) q.frOvf
  else if 0x400 ≤ o && o < 0xC00 then
    let t := q.tap ((o - 0x400) / 0x20)
    match o % 0x20 with
    | 0x00 => t.cfg.setFlag 30 (match t.node with | some n => n.play | none => false)
    | 0x04 => t.lo
    | 0x08 => t.hi
    | 0x0C => BitVec.ofNat 32 t.frames_
    | 0x10 => BitVec.ofNat 32 t.hostIdx
    | 0x14 => BitVec.ofNat 32 t.devIdx
    | 0x18 => t.start
    | _ => BitVec.ofNat 32 (b t.run 3 + b t.dmaErr 2 + b t.und 1 + b t.ovr 0)
  else match o with
    | 0x000 => BitVec.ofNat 32 (ifaceOf r <<< 8 + p)
    | 0x008 => BitVec.ofNat 32 (b armed 10 + (q.holder.getD 0) <<< 8 + b q.takeover 4 + b q.holder.isSome 0)
    | 0x00C => BitVec.ofNat 32 epoch
    | 0x010 => BitVec.ofNat 32 q.lastTag
    | 0x018 =>
      let left := Memory.get (fun _ => 0) h.until_ r - now
      BitVec.ofNat 32 (ceilDiv left 1000000 <<< 16 + b q.nonce.isSome 8 + q.result)
    | 0x080 => q.irqStat
    | 0x084 => q.irqMask
    | 0x088 => q.ringErr
    | 0x210 => q.rptLo
    | 0x214 => q.rptHi
    | 0x218 => q.rptLen
    | 0x220 => q.mtrLo
    | 0x224 => q.mtrHi
    | 0x228 => q.mtrCfg
    | 0x230 => q.qSel.setFld 24 8 (Memory.get prioReset h.pol.prio p)
    | 0x234 => BitVec.ofNat 32 quota.1
    | 0x238 => BitVec.ofNat 32 quota.2.1
    | 0x23C => BitVec.ofNat 32 quota.2.2
    | _ => 0

/-- R413, R421: a write of a tap register by a holder with interface `iface`. -/
def Tap.write (t : Tap) (o : Nat) (v : Word) (iface : Nat) : Tap :=
  match o with
  | 0x00 =>
    let blk := if 1 ≤ v.fld 0 11 && v.fld 0 11 ≤ 1024 then v.fld 0 11 else t.blk
    let en := v.flag 31 && (t.en || iface == 0 || spaceOf t.lo)
    let t' := { t with cfg := BitVec.ofNat 32 ((if en then 2 ^ 31 else 0) + (v.fld 24 6) <<< 24 + blk) }
    if t.en && !en then t'.stop else t'
  | 0x04 => if t.en then t else { t with lo := baseLo v }
  | 0x08 => if t.en then t else { t with hi := v }
  | 0x0C => if t.en then t else { t with frames_ := v.fld 0 24 }
  | 0x10 => { t with hostIdx := v.toNat }
  | 0x1C => { t with dmaErr := t.dmaErr && !v.flag 2, und := t.und && !v.flag 1, ovr := t.ovr && !v.flag 0 }
  | _ => t

/-- R421: a write of a PRT_ register that has no action of its own, by a holder with interface `iface`. DESIGN CHOICE (log 82; the spec
states neither): RPT_LEN.SIZE drops the low four bits written, and PRT_Q_SEL.RESOURCE keeps its value when a code outside 0x20 to
0x29 is written. -/
def Part.writePlain (q : Part) (o : Nat) (v : Word) (iface : Nat) : Part :=
  let ringBase := fun (g : Ring) (hi : Bool) => if g.en then g else if hi then { g with hi := v } else { g with lo := baseLo v }
  if 0x100 ≤ o && o < 0x200 then
    let sq := o < 0x180
    let r := (o / 16) % 8
    match o % 16 with
    | 0x0 => q.setRing sq r (ringBase (q.ring sq r) false)
    | 0x4 => q.setRing sq r (ringBase (q.ring sq r) true)
    | 0x8 => q.writeRingCfg (if sq then 0 else 1) r v iface
    | _ => q.doorbell (if sq then 0 else 1) r (v.fld 0 16)
  else if 0x400 ≤ o && o < 0xC00 then
    let k := (o - 0x400) / 0x20
    q.setTap k ((q.tap k).write (o % 0x20) v iface)
  else match o with
    | 0x008 => { q with takeover := q.takeover && !v.flag 4 }
    | 0x080 => { q with irqStat := q.irqStat &&& ~~~v }
    | 0x084 => { q with irqMask := v &&& 0x7FF }
    | 0x088 => { q with ringErr := q.ringErr &&& ~~~v }
    | 0x200 => { q with fr := ringBase q.fr false }
    | 0x204 => { q with fr := ringBase q.fr true }
    | 0x208 => q.writeRingCfg 2 0 v iface
    | 0x20C => q.doorbell 2 0 (v.fld 0 16)
    | 0x210 => { q with rptLo := baseLo v }
    | 0x214 => { q with rptHi := v }
    | 0x218 => { q with rptLen := v &&& 0x00FFFFF0 }
    | 0x220 => if q.mtrCfg.flag 31 then q else { q with mtrLo := baseLo v }
    | 0x224 => if q.mtrCfg.flag 31 then q else { q with mtrHi := v }
    | 0x228 =>
      let en := v.flag 31 && (q.mtrCfg.flag 31 || iface == 0 || spaceOf q.mtrLo)
      { q with mtrCfg := (v &&& 0x0000FFFF).setFlag 31 en }
    | 0x230 =>
      let res := v.fld 0 8
      { q with qSel := BitVec.ofNat 32 ((v.fld 8 4) <<< 8 + if 0x20 ≤ res && res ≤ 0x29 then res else q.qSel.fld 0 8) }
    | _ => q

/-- R396, R397: a write of PRT_CLAIM_MACk, open to every interface. -/
def Part.writeMac (q : Part) (k : Nat) (v : Word) : Part := { q with mac := Memory.set (fun _ => 0) q.mac k v }

/-! ### Endpoint events (R412, R420) -/

/-- R412: Bus Master Enable of function `n`; with 1 what waited for it goes out. -/
def HostSys.setBme (h : HostSys) (n : Nat) (on : Bool) : HostSys :=
  let w := h.pcie.bme
  let w := if on then w ||| 2 ^ n else if w.testBit n then w - 2 ^ n else w
  let h := { h with pcie := { h.pcie with bme := w } }
  if on then { h.modPart n fun q => { q with waits := [] } with outs := h.outs ++ (h.part n).waits } else h

/-- R420: a Function Level Reset: the session state of its partition is reset, and a PCIe holder ends. -/
def HostSys.flr (h : HostSys) (n : Nat) : HostSys :=
  (if (h.part n).holder = some 0 then h.endSession n else h.sessionReset n).setBme n false

/-- R420: PERST_N; the link trains again to `width` lanes at `speed`. -/
def HostSys.perst (h : HostSys) (width speed : Nat) : HostSys :=
  let h := (List.range 4).foldl (fun h n => if (h.part n).holder = some 0 then h.endSession n else h) h
  { h with pcie := ⟨0, 0, width, speed⟩ }

/-- R394, R407: MAP_SPI of target `t`. -/
def HostSys.mapSpi (h : HostSys) (t m : Nat) : HostSys :=
  let old := (h.spi t).map
  let h := if old < 4 && old != m && (h.part old).holder = some (t + 1) then h.endSession old else h
  h.setSpi t { h.spi t with map := m }

/-- R494: GLB_PCIE. -/
def Pcie.reg (c : Pcie) : Word := BitVec.ofNat 32 (c.bme <<< 16 + c.d3 <<< 12 + c.width <<< 4 + c.speed)

/-- R411: whether SPI target `t` drives IRQ_N low. -/
def HostSys.irqLow (h : HostSys) (t : Nat) : Bool :=
  let m := (h.spi t).map
  m < 4 && ((h.part m).irqStat &&& (h.part m).irqMask) != 0

end Sys2Proof.Machine
end

