-- ==== Sys2Proof/Machine/BootState.lean ====
section
/-!
DEFINITION. The state of secure boot and of the stores outside the chip's RAMs: OTP, flash, Hallmark registers and log,
image update, recovery loader, tamper logic, the Keepsake's keys (R439 to R460).
-/

namespace Sys2Proof.Machine

/-- The OTP shadow (R454). `lc` holds the four fuse pairs in bits 2k and 2k + 1, `fuses` the thermometer. `bad` says which
fields fail their integrity check: bit 0 root key hashes, life-cycle or anti-rollback, bit 1 any other (R447, R448). -/
structure Otp where
  keys     : List (List Byte)
  prog     : Nat
  revoked  : Nat
  fuses    : Nat
  lc       : Nat
  imageKey : List Byte
  secret   : List Byte
  devId    : Nat
  bad      : Nat
deriving DecidableEq, Repr

/-- How far boot has come. -/
inductive BootAt where
  | wait          -- SC0 held until the core PLL locks (R424)
  | recovery      -- the recovery loader runs (R452)
  | stage1        -- an accepted stage 1 is about to take control
  | s1            -- S1 runs
  | stage2        -- an accepted stage 2 is about to take control
  | s2            -- S2 runs
  | full          -- full service
  | halt          -- a halt of R447 or R448
deriving DecidableEq, Repr

/-- A record of the Hallmark log (R451). `event` is EVENT, whose codes the spec does not give. -/
structure HmRec where
  seq   : Nat
  hm    : Nat
  event : Nat
  us    : Nat
  m     : List Byte
deriving DecidableEq, Repr

/-- An image update in progress (R451): slot, LEN, bytes written. -/
structure Update where
  slot    : Nat
  len     : Nat
  written : Nat
deriving DecidableEq, Repr

/-- Secure boot. `flash` is the flash device by byte offset. `svn` is the running image's. `skip` is SKIP_A and SKIP_B.
`hm` holds HM0 to HM7; `rec_` the bytes that the recovery loader has taken, `baud` its rate. `devKey` is the device key,
which only the Locket holds (R454). `startFail` is the condition of R424, `flUntil` the uptime in µs up to which
FL_RESET_N is low. `vendor` is the ROM's list of key hashes (R455). `votp` tells whether VOTP is present. `next2` is the
offset of stage 2 in its slot. `flRead` is how the flash is read in 8D-8D-8D mode (opcode, dummy cycles, MHz), none in 1S-1S-1S mode at
50 MHz (R439, R440). -/
structure Boot where
  flash     : Memory Byte
  otp       : Otp
  vendor    : List (List Byte)
  votp      : Bool
  at_       : BootAt
  code      : Nat
  source    : Nat
  anomaly   : Bool
  skip      : Nat
  imgVer    : Nat
  svn       : Nat
  next2     : Nat
  hm        : Memory (List Byte)
  log       : List HmRec
  trunc     : Bool
  rel       : Nat
  vec       : Memory Word
  hmSel     : Memory Nat
  upd       : Option Update
  rec_      : List Byte
  baud      : Nat
  tamperN   : Bool
  tampers   : Nat
  lastTamper : Nat
  devKey    : Option (List Byte)
  startFail : Bool
  flUntil   : Nat
  flRead    : Option (Nat × Nat × Nat)
deriving DecidableEq, Repr

/-- What an unlisted byte of flash reads as: erased. -/
def erased : Nat → Byte := fun _ => 0xFF

/-- What an unlisted HM register reads as (R444). -/
def hmReset : Nat → List Byte := fun _ => List.replicate 48 0

/-- An OTP with no fuse blown. -/
def Otp.blank : Otp where
  keys := []
  prog := 0
  revoked := 0
  fuses := 0
  lc := 0
  imageKey := []
  secret := []
  devId := 0
  bad := 0

/-- Secure boot at POR, with an erased flash device and a blank OTP (R459, R460). -/
def Boot.reset : Boot where
  flash := []
  otp := Otp.blank
  vendor := []
  votp := false
  at_ := .wait
  code := 0
  source := 0
  anomaly := false
  skip := 0
  imgVer := 0
  svn := 0
  next2 := 0
  hm := []
  log := []
  trunc := false
  rel := 0
  vec := []
  hmSel := []
  upd := none
  rec_ := []
  baud := 115200
  tamperN := true
  tampers := 0
  lastTamper := 0
  devKey := none
  startFail := false
  flUntil := 10
  flRead := none

end Sys2Proof.Machine
end

