-- ==== Sys2Proof/Machine/Boot.lean ====
section
/-!
DEFINITION. Secure boot: images and their acceptance, the ledger, the chain of stages, the recovery loader, the Hallmark
registers, BOOT_ and SEC_ registers (R439 to R460).
-/

namespace Sys2Proof.Machine

/-! ### OTP -/

/-- R453: the anti-rollback count c, the consecutive blown fuses from fuse 0. -/
def Otp.count (o : Otp) : Nat := ((List.range 64).takeWhile fun i => o.fuses.testBit i).length

/-- R454, R455: the life-cycle state, the count of blown pairs; a pair with either fuse blown counts. -/
def Otp.state (o : Otp) : Nat := ((List.range 4).filter fun k => o.lc.testBit (2 * k) || o.lc.testBit (2 * k + 1)).length

/-- R455: the next pair blown, both fuses. -/
def Otp.advance (o : Otp) : Otp := { o with lc := o.lc ||| 3 <<< (2 * o.state) }

/-- R453: fuses blown up to count `c`. -/
def Otp.raise (o : Otp) (c : Nat) : Otp := { o with fuses := o.fuses ||| (2 ^ c - 1) }

/-- R454: the device key, from the letters DZDK and the life-cycle state. -/
def Otp.deviceKey (o : Otp) : List Byte :=
  hmac256 o.secret ([0x44, 0x5A, 0x44, 0x4B] ++ [BitVec.ofNat 8 o.state])

/-! ### Flash -/

def Boot.read (b : Boot) (a n : Nat) : List Byte := Memory.getRun erased b.flash a n

/-- Programming clears bits. -/
def Boot.program (b : Boot) (a : Nat) (bs : List Byte) : Boot :=
  { b with flash := Memory.setRun erased b.flash a ((bs.zip (b.read a bs.length)).map fun x => x.1 &&& x.2) }

def Boot.erase (b : Boot) (a n : Nat) : Boot := { b with flash := Memory.clearRun b.flash a n }

/-- R439: the slots. -/
def slotBase (s : Nat) : Nat := if s = 0 then 0x00200000 else 0x02000000
def slotSize : Nat := 30 * 2 ^ 20

/-! ### Images (R441 to R443) -/

/-- The fields of a stage header that decide its acceptance and its start. -/
structure Stage where
  stage   : Nat
  flags   : Nat
  svn     : Nat
  keyIdx  : Nat
  blocks  : Nat
  load    : Nat
  loadOff : Nat
  entry   : Nat
  next    : Nat
  imgVer  : Nat
  bodyLen : Nat
deriving DecidableEq, Repr

def stageOf (h : List Byte) : Stage where
  stage := le h 6 1
  flags := le h 7 1
  svn := le h 8 1
  keyIdx := le h 9 1
  blocks := le h 0xC 4
  load := le h 0x14 1
  loadOff := le h 0x18 4
  entry := le h 0x1C 4
  next := le h 0x20 4
  imgVer := le h 0x24 4
  bodyLen := le h 0x10 4

/-- Bytes of a stage's block table, with padding. -/
def Stage.tableLen (t : Stage) : Nat := ceilDiv (64 * t.blocks) 4096 * 4096

/-- R443: one block against its table entry; decryption follows the hash check. -/
def blockOk (key iv : List Byte) (enc : Bool) (i : Nat) (entry block : List Byte) : Bool :=
  sha384 block == entry.take 48 && (!enc || gcmTag key (iv ++ beBytes 4 i) block == slice entry 48 16)

/-- The first block of a stage that fails, read through `rd`. -/
def badBlock (o : Otp) (rd : Nat → Nat → List Byte) (h : List Byte) (t : Stage) : Option Nat :=
  (List.range t.blocks).find? fun i =>
    !blockOk o.imageKey (slice h 0xC0 8) (t.flags.testBit 0) i (rd (0x1000 + 64 * i) 64) (rd (0x1000 + t.tableLen + 4096 * i) 4096)

/-- R443: why stage `want` whose bytes `rd` gives (offset, count) is not accepted: the BOOTSTAT code of R446 and the offset
of what fails. `keyOk` judges the signing key by slot and hash, `svn` is the other stage's SVN when it is known. -/
def stageFault (o : Otp) (rd : Nat → Nat → List Byte) (want : Nat) (keyOk : Nat → List Byte → Bool) (svn : Option Nat) :
    Option (Nat × Nat) :=
  let h := rd 0 512
  let t := stageOf h
  if slice h 0 4 ≠ [0x44, 0x5A, 0x49, 0x4D] then some (9, 0)
  else if le h 4 2 ≠ 0x0100 then some (9, 4)
  else if t.stage ≠ want then some (9, 6)
  else if !keyOk t.keyIdx (sha384 (slice h 0x60 96)) then some (9, 9)
  else if !ecdsaOk (slice h 0x60 96) (rd 0x200 96) h then some (9, 0x200)
  else if t.svn < o.count then some (0xB, 8)
  else if svn.any (· ≠ t.svn) then some (0xB, 8)
  else if sha384 (rd 0x1000 t.tableLen) ≠ slice h 0x30 48 then some (0xA, 0x1000)
  else (badBlock o rd h t).map fun i => (0xA, 0x1000 + t.tableLen + 4096 * i)

/-- R444: how many blocks of a stage load: all of an accepted one, those before the block that fails, none where it fails before. -/
def blocksLoaded (o : Otp) (rd : Nat → Nat → List Byte) (want : Nat) (keyOk : Nat → List Byte → Bool) (svn : Option Nat) : Nat :=
  let t := stageOf (rd 0 512)
  match stageFault o rd want keyOk svn with
  | none => t.blocks
  | some (_, at_) => if at_ < 0x1000 + t.tableLen then 0 else (at_ - (0x1000 + t.tableLen)) / 4096

/-- R443, R455: a root key of the OTP: programmed, not revoked, the hash equal; key slot 0 alone in state Returned. -/
def Otp.keyOk (o : Otp) (k : Nat) (hash : List Byte) : Bool :=
  k < 4 && o.prog.testBit k && !o.revoked.testBit k && o.keys.getD k [] == hash && (o.state != 3 || k == 0)

/-- R452, R455: the keys that the recovery loader accepts. -/
def Boot.recoveryKey (b : Boot) (k : Nat) (hash : List Byte) : Bool :=
  match b.otp.state with
  | 0 => b.vendor.contains hash
  | 1 | 2 => b.otp.keyOk k hash
  | _ => false

/-- The bytes of slot `s`. -/
def Boot.slotRd (b : Boot) (s : Nat) : Nat → Nat → List Byte := fun o n => b.read (slotBase s + o) n

/-! ### Ledger (R449, R450) -/

/-- A ledger record. `at_` is its position in its copy. -/
structure Ledger where
  slot  : Nat
  state : Nat
  seq   : Nat
  len   : Nat
  hhash : List Byte
  at_   : Nat
deriving DecidableEq, Repr

def ledgerBase (copy : Nat) : Nat := if copy = 0 then 0x10000 else 0x20000
def ledgerSize : Nat := 2048

/-- R449: the state that a STATE byte gives. -/
def ledgerState (v : Byte) : Nat := min 4 ((List.range 8).takeWhile fun i => !v.getLsbD (7 - i)).length

/-- R449: the STATE byte of a state. -/
def stateByte (s : Nat) : Byte := [0xFF, 0x7F, 0x3F, 0x1F, 0x0F].getD s 0x0F

/-- The bytes of a record. -/
def Ledger.bytes (r : Ledger) : List Byte :=
  let front := [0x44, 0x4C, BitVec.ofNat 8 r.slot]
  let back := leBytes 4 r.seq ++ leBytes 4 r.len ++ r.hhash ++ List.replicate (16 - r.hhash.length) 0
  front ++ [stateByte r.state] ++ back ++ leBytes 4 (crc32c (front ++ [0xFF] ++ back))

/-- R449: the valid record at position `i` of a copy. -/
def Boot.ledgerAt (b : Boot) (copy i : Nat) : Option Ledger :=
  let r := b.read (ledgerBase copy + 32 * i) 32
  if r.take 2 = [0x44, 0x4C] ∧ crc32c (r.take 3 ++ [0xFF] ++ slice r 4 24) = le r 0x1C 4 then
    some ⟨le r 2 1, ledgerState (byteAt r 3), le r 4 4, le r 8 4, slice r 0xC 16, i⟩
  else none

/-- R450: the current record of a slot in one copy: the valid one that lies last. -/
def Boot.currentIn (b : Boot) (copy slot : Nat) : Option Ledger :=
  (((List.range ledgerSize).filterMap fun i => b.ledgerAt copy i).filter fun r => r.slot == slot).getLast?

/-- R450: between two copies the higher SEQ, then the more advanced state. -/
def newerRec (a b : Option Ledger) : Option Ledger :=
  match a, b with
  | some x, some y => if y.seq > x.seq ∨ y.seq = x.seq ∧ y.state > x.state then b else a
  | none, _ => b
  | _, none => a

/-- R450: the current record of a slot. -/
def Boot.current (b : Boot) (slot : Nat) : Option Ledger := newerRec (b.currentIn 0 slot) (b.currentIn 1 slot)

/-- Free record positions of a copy. -/
def Boot.freeAt (b : Boot) (copy : Nat) : List Nat :=
  (List.range ledgerSize).filter fun i => b.read (ledgerBase copy + 32 * i) 32 == List.replicate 32 0xFF

/-- Write a record at the first free position of both copies, A first (R449). -/
def Boot.addRecord (b : Boot) (r : Ledger) : Boot :=
  [0, 1].foldl (fun b c => match (b.freeAt c).head? with
    | some i => b.program (ledgerBase c + 32 * i) r.bytes
    | none => b) b

/-- R449: advance a slot's current record in both copies to `s`, by clearing bits. -/
def Boot.advance (b : Boot) (slot s : Nat) : Boot :=
  [0, 1].foldl (fun b c => match b.currentIn c slot with
    | some r => b.program (ledgerBase c + 32 * r.at_ + 3) [stateByte s]
    | none => b) b

/-- R450: whether two Active slots have equal SEQ. -/
def Boot.tie (b : Boot) : Bool :=
  match b.current 0, b.current 1 with
  | some x, some y => x.state == 3 && y.state == 3 && x.seq == y.seq
  | _, _ => false

/-- Two records, the higher SEQ first; slot A first where they are equal. -/
def bySeq : List Ledger → List Ledger
  | [x, y] => if y.seq > x.seq then [y, x] else [x, y]
  | l => l

/-- R450: the slots in the order in which S0 tries them. -/
def Boot.slotOrder (b : Boot) : List Ledger :=
  let rs : List Ledger := [b.current 0, b.current 1].filterMap fun r => r
  bySeq (rs.filter fun r => r.state == 3) ++ bySeq (rs.filter fun r => r.state == 2 || r.state == 4)

/-- R450: S2 reprograms each copy's current records to the states chosen, and completes a pending retirement. -/
def Boot.reprogram (b : Boot) : Boot :=
  let b := [0, 1].foldl (fun b s => match b.current s with
    | none => b
    | some r => [0, 1].foldl (fun b c => match b.currentIn c s with
      | some q =>
        if q.seq = r.seq then b.program (ledgerBase c + 32 * q.at_ + 3) [stateByte r.state]
        else match (b.freeAt c).head? with
          | some i => b.program (ledgerBase c + 32 * i) r.bytes
          | none => b
      | none => match (b.freeAt c).head? with
        | some i => b.program (ledgerBase c + 32 * i) r.bytes
        | none => b) b) b
  if b.source < 2 then
    match b.current b.source, b.current (1 - b.source) with
    | some x, some y => if x.state = 3 ∧ y.state = 3 ∧ y.seq < x.seq then b.advance (1 - b.source) 4 else b
    | _, _ => b
  else b

/-- R450: compaction, when copy A has fewer than 8 free positions. -/
def Boot.compact (b : Boot) : Boot :=
  if (b.freeAt 0).length < 8 then
    let rs : List Ledger := [b.current 0, b.current 1].filterMap fun r => r
    let put := fun (b : Boot) (c : Nat) =>
      let e := b.erase (ledgerBase c) 0x10000
      e.program (ledgerBase c) (rs.flatMap Ledger.bytes)
    put (put b 1) 0
  else b

/-! ### Hallmark (R444, R451) -/

def Boot.hmOf (b : Boot) (k : Nat) : List Byte := Memory.get hmReset b.hm k

/-- R444: extend HMk with `m`; a value longer than 48 bytes is extended as its SHA-384. `event` is the EVENT byte. -/
def Boot.extend (b : Boot) (k : Nat) (m : List Byte) (us event : Nat) : Boot :=
  let v := if m.length > 48 then sha384 m else m
  let b := { b with hm := Memory.set hmReset b.hm k (sha384 (b.hmOf k ++ v)) }
  if b.log.length < 4096 then
    { b with log := b.log ++ [⟨b.log.length, k, event % 256, us, v ++ List.replicate (48 - v.length) 0⟩] }
  else { b with trunc := true }

/-- R451: the bytes of a log record. -/
def HmRec.bytes (r : HmRec) : List Byte :=
  leBytes 4 r.seq ++ leBytes 1 r.hm ++ leBytes 1 r.event ++ [0, 0] ++ leBytes 8 r.us ++ r.m

/-! ### The chain of stages (R444 to R448) -/

/-- A halt with a BOOTSTAT code. -/
def Boot.haltWith (b : Boot) (code : Nat) : Boot := { b with at_ := .halt, code := code }

/-- R448: S1 halts; the slot that it came from is skipped from now on. -/
def Boot.haltS1 (b : Boot) (code : Nat) : Boot :=
  { b.haltWith code with skip := if b.source < 2 then b.skip ||| 2 ^ b.source else b.skip }

/-- The recovery loader takes over (R452). -/
def Boot.enterRecovery (b : Boot) : Boot := { b with at_ := .recovery, code := 4, rec_ := [], source := 2 }

/-- R447: whether slot record `r` passes at S0. -/
def Boot.slotPasses (b : Boot) (r : Ledger) : Bool :=
  let rd := b.slotRd r.slot
  !b.skip.testBit r.slot && (sha384 (rd 0 512)).take 16 == r.hhash && (stageFault b.otp rd 1 b.otp.keyOk none).isNone

/-- R447, R450: the slots that S0 tries, up to the one that passes. -/
def Boot.tried (b : Boot) : List Ledger :=
  let o := b.slotOrder
  o.take ((o.findIdx b.slotPasses) + 1)

/-- R440: how copy `k` of the boot header has the flash read (opcode, dummy cycles, MHz), where it is valid. -/
def Boot.header (b : Boot) (k : Nat) : Option (Nat × Nat × Nat) :=
  let h := b.read (0x1000 * k) 0x1000
  let dummy := le h 7 1
  let mhz := le h 8 2
  if slice h 0 4 = [0x44, 0x5A, 0x42, 0x48] ∧ le h 4 2 = 0x0100 ∧ 4 ≤ dummy ∧ dummy ≤ 30 ∧ 50 ≤ mhz ∧ mhz ≤ 200 ∧ crc32c (slice h 0 0xFFC) = le h 0xFFC 4 then
    some (le h 6 1, dummy, mhz)
  else none

/-- R439, R440, R503: S0 takes a valid header copy before SFDP; with neither it reads in 1S-1S-1S mode. Above 1.8 V on VDDIO_C
(`low` false) the flash runs at no more than 133 MHz. -/
def Boot.flashMode (b : Boot) (sfdp : Option (Nat × Nat × Nat)) (low : Bool) : Option (Nat × Nat × Nat) :=
  (([b.header 0, b.header 1, sfdp].filterMap id).head?).map fun x => (x.1, x.2.1, min x.2.2 (if low then 200 else 133))

/-- R444: stage 1 with header `h` is accepted: HM0 and HM1 are extended. -/
def Boot.accept1 (b : Boot) (h : List Byte) (us : Nat) (ev : Nat → Nat) : Boot :=
  let t := stageOf h
  let b := (b.extend 0 (sha384 h) us (ev 0)).extend 1 [BitVec.ofNat 8 b.otp.state, BitVec.ofNat 8 b.otp.count] us (ev 1)
  { b with at_ := .stage1, imgVer := t.imgVer, svn := t.svn, next2 := t.next }

/-- R424, R444, R447, R450, R455: S0 runs. -/
def Boot.s0 (b : Boot) (us : Nat) (ev : Nat → Nat) : Boot :=
  let b := { b with startFail := false }
  if b.otp.bad.testBit 0 then b.haltWith 0xE
  else if b.otp.state = 4 then b.haltWith 0xD
  else if b.otp.state = 0 then b.enterRecovery
  else match b.slotOrder.find? b.slotPasses with
    | none => b.enterRecovery
    | some r => { b with source := r.slot, code := 2 + r.slot }.accept1 (b.slotRd r.slot 0 512) us ev

/-- R444, R448, R454: stage 1 takes control; an integrity failure of any other OTP field halts it. The device key is
derived. -/
def Boot.s1Start (b : Boot) : Boot :=
  if b.at_ ≠ .stage1 then b
  else if b.otp.bad.testBit 1 then { b with code := 6 }.haltS1 0xE
  else { b with at_ := .s1, code := 6, devKey := some b.otp.deviceKey }

/-- R444: S1 loads stage 2 from its slot; `cfg` are DRAM_CFGA and DRAM_CFGB. -/
def Boot.loadStage2 (b : Boot) (cfg : List Word) (us : Nat) (ev : Nat → Nat) : Boot :=
  if b.at_ ≠ .s1 then b
  else if 2 ≤ b.source then { b with at_ := .stage2 }
  else
    let rd := fun o n => b.slotRd b.source (b.next2 + o) n
    match stageFault b.otp rd 2 b.otp.keyOk (some b.svn) with
    | some (code, _) => b.haltS1 code
    | none =>
      let b := (b.extend 2 (sha384 (rd 0 512)) us (ev 0)).extend 3 (bytesOfWords cfg) us (ev 1)
      { b with at_ := .stage2 }

/-- R444: where stage 2's load area lies: LOAD, first byte, bytes. -/
def Boot.loadArea (b : Boot) : Nat × Nat × Nat :=
  let t := stageOf (b.slotRd b.source b.next2 512)
  (t.load, t.loadOff, t.bodyLen)

/-- R444, R450: S2 takes control: the ledger is served, HM4 is extended with the early block and the policy record, and a
tie becomes an anomaly with extend value `anom`. -/
def Boot.s2Start (b : Boot) (early policy anom : List Byte) (us : Nat) (ev : Nat → Nat) : Boot :=
  if b.at_ ≠ .stage2 then b
  else
    let t := b.tie
    let b := { b with at_ := .s2, code := 7 }
    let b := if t then { (b.extend 6 anom us (ev 0)) with anomaly := true } else b
    let b := b.reprogram.compact
    (b.extend 4 early us (ev 1)).extend 4 policy us (ev 2)

/-- R445: a write of BOOT_REL; bits once set stay set. -/
def Boot.release (b : Boot) (v : Word) : Boot := { b with rel := b.rel ||| v.fld 0 4 }

/-! ### Update (R451) -/

/-- R451: why the image in slot `s` of `len` bytes is not verified: the failing offset. Both stages are judged. -/
def Boot.imageFault (b : Boot) (s : Nat) : Option Nat :=
  let rd := b.slotRd s
  match stageFault b.otp rd 1 b.otp.keyOk none with
  | some (_, o) => some o
  | none =>
    let t := stageOf (rd 0 512)
    (stageFault b.otp (fun o n => rd (t.next + o) n) 2 b.otp.keyOk (some t.svn)).map fun e => t.next + e.2

/-- R451: the slot that an update writes: the one that did not boot. -/
def Boot.updateSlot (b : Boot) : Nat := if b.source = 0 then 1 else 0

/-- The highest SEQ in the ledger. -/
def Boot.topSeq (b : Boot) : Nat :=
  ([0, 1].flatMap fun c => (List.range ledgerSize).filterMap fun i => b.ledgerAt c i).foldl (fun m r => max m r.seq) 0

/-- IMG_BEGIN: none when an update is in progress. -/
def Boot.imgBegin (b : Boot) (len : Nat) : Option Boot :=
  match b.upd with
  | some _ => none
  | none =>
    let s := b.updateSlot
    some { b.erase (slotBase s) slotSize with upd := some ⟨s, len, 0⟩ }

/-- IMG_DATA. -/
def Boot.imgData (b : Boot) (off : Nat) (bs : List Byte) : Option Boot :=
  match b.upd with
  | some u =>
    if off = u.written ∧ u.written + bs.length ≤ u.len then
      some { b.program (slotBase u.slot + off) bs with upd := some { u with written := u.written + bs.length } }
    else none
  | none => none

/-- IMG_FINISH, steps 2 and 3 of R451: none out of turn; else the failing offset, if any. -/
def Boot.imgFinish (b : Boot) : Option (Boot × Option Nat) :=
  match b.upd with
  | some u =>
    if u.written = u.len then
      let b := { b.addRecord ⟨u.slot, 1, b.topSeq + 1, u.len, (sha384 (b.slotRd u.slot 0 512)).take 16, 0⟩ with upd := none }
      match b.imageFault u.slot with
      | some o => some (b, some o)
      | none => some (b.advance u.slot 2, none)
    else none
  | none => none

/-- IMG_ACTIVATE, steps 4 and 5 of R451: none unless the slot is Verified. -/
def Boot.imgActivate (b : Boot) : Option Boot :=
  let s := b.updateSlot
  match b.current s with
  | some r =>
    if r.state = 2 ∧ b.upd = none then
      let b := b.advance s 3
      some (if b.source < 2 then b.advance b.source 4 else b)
    else none
  | none => none

/-! ### Recovery loader (R452) -/

/-- A recovery frame: type and payload, none on a frame error. -/
def recFrame (bs : List Byte) : Option (Nat × List Byte) :=
  let n := le bs 2 2
  if byteAt bs 0 = 0xA5 ∧ n ≤ 4096 ∧ bs.length = 8 + n ∧ crc32c (slice bs 1 (3 + n)) = le bs (4 + n) 4 then
    some (le bs 1 1, slice bs 4 n)
  else none

/-- A STATUS frame. -/
def Boot.status (b : Boot) (code : Nat) : List Byte :=
  let body := leBytes 1 0x81 ++ leBytes 2 11 ++ leBytes 1 code ++ leBytes 8 b.otp.devId ++ leBytes 1 b.otp.count
    ++ leBytes 1 b.otp.state
  [0xA5] ++ body ++ leBytes 4 (crc32c body)

/-- A HELLO. -/
def Boot.recHello (b : Boot) (bs : List Byte) : Boot × List Byte :=
  (b, b.status (if recFrame bs = some (1, []) then 0 else 1))

/-- A DATA: contiguous ascending offsets from 0, at most 3 MiB in all. -/
def Boot.recData (b : Boot) (bs : List Byte) : Boot × List Byte :=
  match recFrame bs with
  | some (2, p) =>
    if p.length < 4 then (b, b.status 1)
    else
      let b := { b with code := 5 }
      let off := le p 0 4
      if off = b.rec_.length ∧ off + (p.length - 4) ≤ 3 * 2 ^ 20 then
        ({ b with rec_ := b.rec_ ++ p.drop 4 }, b.status 0)
      else (b, b.status 2)
  | _ => (b, b.status 1)

/-- A GO: an accepted image with its RECOVERY flag is about to run as S1; any other answers CODE 3. -/
def Boot.recGo (b : Boot) (bs : List Byte) (us : Nat) (ev : Nat → Nat) : Boot × List Byte :=
  match recFrame bs with
  | some (3, []) =>
    let rd := fun o n => slice b.rec_ o n
    let h := rd 0 512
    if b.rec_ ≠ [] ∧ (stageOf h).flags.testBit 1 ∧ (stageFault b.otp rd 1 b.recoveryKey none).isNone then
      ({ b with source := 2 }.accept1 h us ev, b.status 0)
    else ({ b with code := 4, rec_ := [] }, b.status 3)
  | _ => (b, b.status 1)

/-! ### Resets -/

/-- R444, R448, R459: RESET_N and a wake from Dormant: everything but the skip bits, OTP, flash and the tamper logic. -/
def Boot.restart (b : Boot) : Boot :=
  { Boot.reset with flash := b.flash, otp := b.otp, vendor := b.vendor, votp := b.votp, skip := b.skip,
                    tamperN := b.tamperN, tampers := b.tampers, lastTamper := b.lastTamper, startFail := b.startFail }

/-- POR. -/
def Boot.por (b : Boot) (us : Nat) : Boot :=
  { b.restart with skip := 0, tampers := 0, lastTamper := 0, startFail := false, flUntil := us + 10 }

/-! ### Registers (R459, R460) -/

def slotInfo (b : Boot) (s : Nat) : Word :=
  match b.current s with
  | none => 0
  | some r => BitVec.ofNat 32 (2 ^ 15 + (stageOf (b.slotRd s 0 512)).svn % 64 <<< 8 + r.state)

/-- The BOOT_ register at offset `o` for reader `r`. -/
def Boot.readReg (b : Boot) (r o : Nat) : Word :=
  if o = 0 then
    BitVec.ofNat 32 (b.code + (if b.source < 4 then b.source else 0) <<< 4 + (if b.anomaly then 2 ^ 8 else 0) + b.skip % 4 <<< 9)
  else if o = 4 then BitVec.ofNat 32 b.imgVer
  else if o = 8 ∨ o = 0x10 then BitVec.ofNat 32 (((b.current ((o - 8) / 8)).map (·.seq)).getD 0)
  else if o = 0xC ∨ o = 0x14 then slotInfo b ((o - 0xC) / 8)
  else if o = 0x18 then BitVec.ofNat 32 (b.log.length + if b.trunc then 2 ^ 31 else 0)
  else if o = 0x1C then BitVec.ofNat 32 b.rel
  else if 0x20 ≤ o ∧ o < 0x30 then Memory.get (fun _ => 0) b.vec ((o - 0x20) / 4)
  else if o = 0x30 then BitVec.ofNat 32 (Memory.get (fun _ => 0) b.hmSel r)
  else if 0x40 ≤ o ∧ o < 0x70 then BitVec.ofNat 32 (le (b.hmOf (Memory.get (fun _ => 0) b.hmSel r)) (o - 0x40) 4)
  else 0

/-- R459: a write of a BOOT_ register; hosts and SPI readers select only the HM shown to them. -/
def Boot.writeReg (b : Boot) (r o : Nat) (v : Word) : Boot :=
  if o = 0x30 then { b with hmSel := Memory.set (fun _ => 0) b.hmSel r (v.fld 0 3) }
  else if r ≠ 6 then b
  else if o = 0x1C then b.release v
  else if 0x20 ≤ o ∧ o < 0x30 then { b with vec := Memory.set (fun _ => 0) b.vec ((o - 0x20) / 4) v }
  else b

/-- The SEC_ register at offset `o`. -/
def Boot.readSec (b : Boot) (o : Nat) : Word :=
  if o = 0 then BitVec.ofNat 32 (b.otp.state + if b.votp then 2 ^ 8 else 0)
  else if o = 4 then BitVec.ofNat 32 b.otp.count
  else if o = 8 then BitVec.ofNat 32 (b.tampers <<< 16 + (if b.tamperN then 2 ^ 8 else 0) + b.lastTamper)
  else if o = 0xC then BitVec.ofNat 32 (b.otp.devId % 2 ^ 32)
  else if o = 0x10 then BitVec.ofNat 32 (b.otp.devId / 2 ^ 32)
  else if o = 0x14 then BitVec.ofNat 32 (b.otp.prog % 16 + b.otp.revoked % 16 <<< 4)
  else 0

/-- R10, R460: P0's host and the Setter clear bits of SEC_TAMPER.LAST. -/
def Boot.writeSec (b : Boot) (o : Nat) (v : Word) : Boot :=
  if o = 8 then { b with lastTamper := b.lastTamper &&& (7 - v.fld 0 3) } else b

/-- R456: a tamper event from source `src`: 1 TAMPER_N, 2 voltage glitch, 3 clock glitch. -/
def Boot.tamper (b : Boot) (src : Nat) : Boot :=
  { b with tampers := incSat 0xFFFF b.tampers, lastTamper := src, devKey := none,
           tamperN := if src = 1 then false else b.tamperN }

end Sys2Proof.Machine
end

