-- ==== Sys2Proof/Machine/Keepsake.lean ====
section
/-!
DEFINITION. The Keepsake journal in flash, its transactions, and the wrapped partition keys (R454, R457, R399).
-/

namespace Sys2Proof.Machine

def journalBase : Nat := 0x00102000
def journalSectors : Nat := 254
def sectorSize : Nat := 4096

/-- A record of the journal (R457), with the sector it lies in. -/
structure KRec where
  key    : Nat
  del    : Bool
  txn    : Nat
  val    : List Byte
  sector : Nat
deriving DecidableEq, Repr

/-- Bytes that a value of `n` bytes takes with its header and padding. -/
def recLen (n : Nat) : Nat := 16 + ceilDiv n 8 * 8

/-- The bytes of a record. -/
def KRec.bytes (r : KRec) : List Byte :=
  let h := [0x4B, 0x4A] ++ leBytes 2 r.key ++ leBytes 2 r.val.length ++ [if r.del then 1 else 0, 0] ++ leBytes 4 r.txn
  let crc := crc32c (h ++ [0, 0, 0, 0] ++ r.val)
  h ++ leBytes 4 crc ++ r.val ++ List.replicate (recLen r.val.length - 16 - r.val.length) 0

/-- The records of sector `s` from offset `o`, and the offset at which they end. A record whose CRC is wrong is passed
over. -/
def Boot.sectorFrom (b : Boot) (s : Nat) : Nat → Nat → List KRec × Nat
  | 0, o => ([], o)
  | n + 1, o =>
    let a := journalBase + sectorSize * s + o
    let h := b.read a 16
    let len := le h 4 2
    if o + 16 > sectorSize ∨ h.take 2 ≠ [0x4B, 0x4A] ∨ len > 4064 then ([], o)
    else
      let v := b.read (a + 16) len
      let rest := b.sectorFrom s n (o + recLen len)
      if crc32c (h.take 12 ++ [0, 0, 0, 0] ++ v) = le h 12 4 then
        (⟨le h 2 2, bit (le h 6 1) 0, le h 8 4, v, s⟩ :: rest.1, rest.2)
      else rest

def Boot.sector (b : Boot) (s : Nat) : List KRec × Nat := b.sectorFrom s 256 0

/-- Every record of the journal. -/
def Boot.journal (b : Boot) : List KRec := (List.range journalSectors).flatMap fun s => (b.sector s).1

/-- The key of a marker. -/
def markerKey : Nat := 0xFFFF

/-- R457: a transaction is committed when its marker counts every record of it. -/
def committed (l : List KRec) (txn : Nat) : Bool :=
  let n := (l.filter fun r => r.txn == txn && r.key != markerKey).length
  l.any fun r => r.txn == txn && r.key == markerKey && r.val.length == 4 && leNat r.val == n

/-- The later of two records. -/
def laterRec (a : Option KRec) (r : KRec) : Option KRec :=
  match a with
  | some x => if r.txn > x.txn then some r else a
  | none => some r

/-- The record in force for a key: the one of the highest committed transaction, unless it is a DELETE. -/
def inForce (l : List KRec) (key : Nat) : Option KRec :=
  match ((l.filter fun r => r.key == key).filter fun r => committed l r.txn).foldl laterRec none with
  | some r => if r.del then none else some r
  | none => none

/-- R457: the value of a key. -/
def Boot.setting (b : Boot) (key : Nat) : Option (List Byte) := (inForce b.journal key).map (·.val)

/-- The live records. -/
def liveRecs (l : List KRec) : List KRec :=
  (((l.map (·.key)).eraseDups).filter (· != markerKey)).filterMap fun k => inForce l k

/-- Bytes of live values. -/
def liveBytes (l : List KRec) : Nat := (liveRecs l).foldl (fun n r => n + r.val.length) 0

/-- The sector in which the latest transaction lies. -/
def lastSector (l : List KRec) : Nat := (l.foldl (fun (m : Nat × Nat) r => if r.txn ≥ m.1 then (r.txn, r.sector) else m) (0, 0)).2

/-- Free sectors: nothing written at their front. -/
def Boot.freeSectors (b : Boot) : List Nat :=
  (List.range journalSectors).filter fun s => b.read (journalBase + sectorSize * s) 16 == List.replicate 16 0xFF

/-- Append one record, in the sector in use or in the next one round-robin. -/
def Boot.appendRec (b : Boot) (s : Nat) (r : KRec) : Boot × Nat :=
  let o := (b.sector s).2
  if o + recLen r.val.length ≤ sectorSize then (b.program (journalBase + sectorSize * s + o) r.bytes, s)
  else
    let t := (s + 1) % journalSectors
    (b.program (journalBase + sectorSize * t) r.bytes, t)

/-- R457: write one transaction: its records, then its marker. -/
def Boot.writeTxn (b : Boot) (rs : List (Nat × Bool × List Byte)) : Boot :=
  let l := b.journal
  let txn := l.foldl (fun m r => max m r.txn) 0 + 1
  let all := rs.map (fun r => (⟨r.1, r.2.1, txn, r.2.2, 0⟩ : KRec)) ++ [⟨markerKey, false, txn, leBytes 4 rs.length, 0⟩]
  (all.foldl (fun (w : Boot × Nat) r => w.1.appendRec w.2 r) (b, lastSector l)).1

/-- The oldest sector in use: the first written one after the sector in use, round-robin. -/
def Boot.oldestSector (b : Boot) : Option Nat :=
  let s := lastSector b.journal
  ((List.range journalSectors).map fun i => (s + 1 + i) % journalSectors).find? fun t => !b.freeSectors.contains t

/-- R457: while fewer than 16 sectors are free, the live records of the oldest sector go forward as one transaction and
the sector is erased. Live records of a transaction that has records in that sector go with them. -/
def Boot.reclaim : Nat → Boot → Boot
  | 0, b => b
  | n + 1, b =>
    if b.freeSectors.length < 16 then
      match b.oldestSector with
      | none => b
      | some s =>
        let l := b.journal
        let txns := ((l.filter fun r => r.sector == s).map (·.txn)).eraseDups
        let mv := (liveRecs l).filter fun r => txns.contains r.txn
        let b := if mv.isEmpty then b else b.writeTxn (mv.map fun r => (r.key, false, r.val))
        Boot.reclaim n (b.erase (journalBase + sectorSize * s) sectorSize)
    else b

/-- R457: store a value under a key; none when the live settings would exceed 512 KiB. -/
def Boot.put (b : Boot) (key : Nat) (v : List Byte) : Option Boot :=
  let l := b.journal
  if v.length > 4064 ∨ liveBytes l - ((inForce l key).elim 0 fun r => r.val.length) + v.length > 512 * 1024 then none
  else some ((Boot.reclaim journalSectors b).writeTxn [(key, false, v)])

/-- R458: delete a key. -/
def Boot.del (b : Boot) (key : Nat) : Boot := (Boot.reclaim journalSectors b).writeTxn [(key, true, [])]

/-! ### Partition keys (R454, R399) -/

def keyOf (p : Nat) : Nat := 0x1000 + p

/-- R454: a wrapped key: IV, ciphertext, tag. -/
def wrapKey (dev iv k : List Byte) : List Byte :=
  let c := gcmCrypt dev iv k
  iv ++ c ++ gcmTag dev iv c

/-- R399: the key of partition `p` as the device key unwraps it; none when there is none or the tag fails. -/
def Boot.partKey (b : Boot) (p : Nat) : Option (List Byte) :=
  match b.devKey, b.setting (keyOf p) with
  | some dev, some w =>
    let iv := slice w 0 12
    let c := slice w 12 32
    if w.length = 60 ∧ gcmTag dev iv c = slice w 44 16 then some (gcmCrypt dev iv c) else none
  | _, _ => none

/-- R399, R458: wrap and store the key of partition `p`; `iv` is a fresh 12-byte nonce. -/
def Boot.storeKey (b : Boot) (p : Nat) (k iv : List Byte) : Option Boot :=
  match b.devKey with
  | some dev => b.put (keyOf p) (wrapKey dev iv k)
  | none => none

end Sys2Proof.Machine
end

