-- ==== Sys2Proof/Config.lean ====
section
/-!
DEFINITION. The values that the spec leaves open and the machine goes on with: constants without a body, so that nothing
can prove a value of them. A step applies them to the counter `State.free`, which it then advances.
-/

namespace Sys2Proof

/-- A fresh open value. What stands for it is named where it is used, and in the assumption log. -/
opaque Config.freeNat : Nat → Nat

/-- A fresh open word. -/
def Config.freeWord (n : Nat) : Word := BitVec.ofNat 32 (Config.freeNat n)

/-- A fresh open integer; it takes two open values. -/
def Config.freeInt (n : Nat) : Int := (Config.freeNat n : Int) - (Config.freeNat (n + 1) : Int)

/-- R380: what a synchronous lane's filter makes: of its ratio × 2^40, the phase in ns that it has locked to, the outputs since, modulo
4, and the input samples before the output tick, newest first. The spec gives the filter's performance and not its coefficients. -/
opaque Config.syncLane : Nat → Int → Nat → List Word → Word

/-- R382, R383: what an asynchronous lane interpolates: of an open value that stands for the instant, the padding in output samples as
a fraction, and the input samples before, newest first. -/
opaque Config.asyncLane : Nat → Nat × Nat → List Word → Word

/-- The 48 interpolator coefficients of TPE1, library constants that R174 does not give. -/
opaque Config.tpe1 : Nat → Word

/-- R55, R508: whether the device is of the industrial grade (DZ8064-I), whose junction limit is 105 °C in place of 100 °C. -/
opaque Config.industrial : Bool

/-- The words of the boot ROM, whose contents the spec does not give (R25). -/
opaque Config.bootRom : Nat → Word

end Sys2Proof
end

