-- ==== Sys2Proof/Machine/Link.lean ====
section
/-!
DEFINITION. Link lanes: conversion at a tick, loss, fill error, slip, step, lock, retirement and the LNK_ registers
(R379 to R391). The spec gives the filters' performance and not their coefficients: a locked lane's output is an open function of the
samples that it has taken, and an asynchronous lane's ratio and fill error are open values.
-/

namespace Sys2Proof.Machine

def LinkSys.lane (s : LinkSys) (n : Nat) : Lane := Memory.get (fun _ => Lane.reset) s.lanes n
def LinkSys.setLane (s : LinkSys) (n : Nat) (l : Lane) : LinkSys :=
  { s with lanes := Memory.set (fun _ => Lane.reset) s.lanes n l }
def LinkSys.note (s : LinkSys) (n cause : Nat) : LinkSys := { s with rep := s.rep ++ [(n, cause)] }

/-- Listed lanes: every allocated lane is listed. -/
def LinkSys.listed (s : LinkSys) : List Nat := s.lanes.map Prod.fst

/-! ### The input side (R16, R380, R385) -/

/-- The samples that a lane keeps. DEDUCED from R380 and R383: no filter of the stated group delays reaches further back. -/
def laneTaps : Nat := 512

/-- An allocated lane that works: neither retired (R379) nor idle in the Rescue condition (R388). -/
def Lane.active (l : Lane) : Bool := l.used && l.st != .idle && l.st != .retired

/-- A lane takes an input sample at an instant. -/
def Lane.take (l : Lane) (ns : Nat) (x : Word) : Lane :=
  if l.active then { l with inp := ((ns, x) :: l.inp).take laneTaps } else l

/-- R16, R380: the lanes whose input side lies in domain `k` read their SIDs at its tick. -/
def LinkSys.takeTick (s : LinkSys) (k ns : Nat) (rd : Nat → Word) : LinkSys :=
  { s with lanes := s.lanes.map fun e => if e.2.inDom = k ∧ e.2.ownIn.isNone then (e.1, e.2.take ns (rd e.2.inSid)) else e }

/-- R385: a frame of own-clock source `q` (a port, or 64 + a receive context) goes to the queues of the lanes that it feeds. -/
def LinkSys.takeOwn (s : LinkSys) (q ns : Nat) (xs : List Word) : LinkSys :=
  { s with lanes := s.lanes.map fun e => match e.2.ownIn with
      | some (p, ch) => if p = q then (e.1, e.2.take ns (xs.getD ch 0)) else e
      | none => e }

/-! ### Loss, slip, step and lock -/

/-- R387: start a fade-out for reason `w` from the value last delivered (R388). -/
def Lane.fadeFor (l : Lane) (w : LaneWhy) : Lane :=
  { l with st := .fading, why := w, fade := l.fade.start, relock := incSat 0xFFFF l.relock }

/-- R387: input lost (`fill = false`) or fill error (asynchronous lanes). -/
def LinkSys.unlock (s : LinkSys) (n : Nat) (fill : Bool) : LinkSys :=
  let l := s.lane n
  if !l.active || (fill && !l.async) then s
  else (s.setLane n (l.fadeFor (if fill then .fill else .input))).note n 0x0900

/-- R381: a synchronous lane slips. -/
def LinkSys.slip (s : LinkSys) (n : Nat) : LinkSys :=
  let l := s.lane n
  if !l.active || l.async then s
  else
    let l := l.fadeFor .slip
    (s.setLane n { l with slips := incSat 0xFFFF l.slips }).note n 0x0901

/-- R387, R388: a step of domain `k`; a loss at the same tick is handled instead. -/
def LinkSys.stepped (s : LinkSys) (k : Nat) : LinkSys :=
  s.listed.foldl (fun s n =>
    let l := s.lane n
    if l.active && (l.inDom == k || l.outDom == k) &&
        !(l.why == .input && l.fade.phase == .fadeOut 0) then
      (s.setLane n (l.fadeFor .step)).note n 0x0902
    else s) s

/-- R380: a synchronous lane locks to the interval `phase` between its domains' ticks. -/
def Lane.lockTo (l : Lane) (phase : Int) : Lane := if l.async then l else { l with phase := phase, pos := 0 }

/-- R384, R387, R389: lock conditions held for 20 ms. A lane that locks for the first time delivers at unity gain, another ramps back. -/
def LinkSys.lockedAt (s : LinkSys) (n : Nat) (phase : Int) : LinkSys :=
  let l := s.lane n
  if l.used && (l.st == .acquiring || l.st == .recentring) then
    let l := l.lockTo phase
    if l.fresh then s.setLane n { l with st := .locked, why := .none, fresh := false, fade := { l.fade with phase := .live } }
    else s.setLane n { l with st := .ramping, why := .none, fade := { l.fade with phase := .rampBack 0 } }
  else s

/-- The lane after a period: ended fades lead to the next state (R387, R388); a slip re-centres to `phase` at the end of its fade-out. -/
def Lane.settle (l : Lane) (phase : Int) : Lane :=
  match l.st, l.fade.phase with
  | .fading, .fadeOut j =>
    if j < 64 then l
    else match l.why with
      | .slip => { l.lockTo phase with st := .ramping, why := .none, fade := { l.fade with phase := .rampBack 0 } }
      | .step => { l with st := .recentring, fade := { l.fade with phase := .muted } }
      | _ => { l with st := .acquiring, inp := [], fade := { l.fade with phase := .muted } }
  | .ramping, .rampBack j => if j < 512 then l else { l with st := .locked, fade := { l.fade with phase := .live } }
  | _, _ => l

/-- R44, R380, R382: what lane `n` makes of the samples that it took before `ns`; the pad of a synchronous lane is a whole number of
input samples. -/
def Lane.filtered (l : Lane) (n c ns : Nat) : Word :=
  let xs := (l.inp.filter fun e => e.1 < ns).map (·.2)
  if l.async then Config.asyncLane (c + 3 * n) l.pad xs
  else Config.syncLane l.ratio l.phase l.pos (xs.drop (l.pad.1 * 2 ^ 40 / (l.pad.2 * l.ratio)))

/-- R380, R382: lane `n` makes one output sample, `phase` ns after a tick of its input domain; open values from counter `c`. -/
def Lane.convert (l : Lane) (n c ns : Nat) (phase : Int) : Word × Lane :=
  let x := l.filtered n c ns
  let l := { l with pos := (l.pos + 1) % 4 }
  let l := if l.async && l.active then
      { l with ratio := Config.freeNat (c + 3 * n + 1) % 2 ^ 43
               fill := sext 16 (Config.freeNat (c + 3 * n + 2)) }
    else l
  match l.st with
  | .locked | .fading | .ramping =>
    let (ys, fd) := l.fade.deliver [x]
    (ys.getD 0 0, ({ l with fade := fd }).settle phase)
  | _ => (0, l)

/-- Open values that a pass over the lanes may take. -/
def laneFree : Nat := 3 * 2048

/-- R380: at a tick of domain `k` every lane whose output side is in it converts: (lane, SID written, value). `last` gives the instant of
a domain's latest tick. -/
def LinkSys.tick (s : LinkSys) (k c ns : Nat) (last : Nat → Nat) : List (Nat × Nat × Word) × LinkSys :=
  s.listed.foldl (fun (r : List (Nat × Nat × Word) × LinkSys) n =>
    let l := r.2.lane n
    if l.active && l.outDom == k then
      let (x, l') := l.convert n c ns ((ns : Int) - last l.inDom)
      (r.1 ++ [(n, l.outSid, x)], r.2.setLane n l')
    else r) ([], s)

/-- R385: the lanes that serve own-clock output port `p` make one frame: (channel, value). An own-clock output belongs to an asynchronous
lane, which locks to no phase. -/
def LinkSys.ownFrame (s : LinkSys) (p c ns : Nat) : List (Nat × Word) × LinkSys :=
  s.listed.foldl (fun (r : List (Nat × Word) × LinkSys) n =>
    let l := r.2.lane n
    match l.ownOut with
    | some (q, ch) =>
      if l.used && q == p && l.st != .retired then
        let (x, l') := l.convert n c ns 0
        (r.1 ++ [(ch, x)], r.2.setLane n l')
      else r
    | none => r) ([], s)

/-- Every lane that meets `f` starts unlocked and acquires (R301, R308, R387, R388). -/
def LinkSys.acquire (s : LinkSys) (f : Lane → Bool) (fresh : Bool) : LinkSys :=
  { s with lanes := s.lanes.map fun e =>
      if e.2.used && e.2.st != .retired && f e.2 then
        (e.1, { e.2 with st := .acquiring, why := .none, fresh := fresh, inp := [], fade := { e.2.fade with phase := .muted } })
      else e }

/-- R388: in the Rescue condition lanes issue nothing. -/
def LinkSys.stop (s : LinkSys) : LinkSys :=
  { s with lanes := s.lanes.map fun e =>
      if e.2.active then (e.1, { e.2 with st := .idle, why := .none, inp := [], fade := { e.2.fade with phase := .muted } }) else e }

/-- R388: at a resume from Standby every lane re-centres and ramps back. -/
def LinkSys.resume (s : LinkSys) : LinkSys :=
  { s with lanes := s.lanes.map fun e =>
      if e.2.active then
        (e.1, { e.2 with st := .recentring, why := .none, fade := { e.2.fade with phase := .muted } })
      else e }

/-- R379: a retired filter engine takes its whole group of 64 lanes. -/
def LinkSys.retire (s : LinkSys) (g : Nat) : LinkSys :=
  if g < 32 && !s.retired.testBit g then
    { s with retired := s.retired + 2 ^ g
             lanes := s.lanes.map fun e => if e.1 / 64 = g then (e.1, { e.2 with st := .retired }) else e }
  else s

/-! ### Registers (R390, R391) -/

def LaneSt.code : LaneSt → Nat
  | .idle => 0
  | .acquiring => 1
  | .locked => 2
  | .fading => 3
  | .ramping => 4
  | .recentring => 5
  | .retired => 6

/-- The LNK_ register at offset `o`, for reader `r`. -/
def LinkSys.readReg (s : LinkSys) (r o : Nat) : Word :=
  let n := Memory.get (fun _ => 0) s.sel r
  let l := s.lane n
  let b := fun (x : Bool) (i : Nat) => if x then 2 ^ i else 0
  match o with
  | 0x000 => BitVec.ofNat 32 n
  | 0x004 => BitVec.ofNat 32 (b l.used 31 + b l.async 30 + l.cls <<< 24 + l.part <<< 22 + l.outDom <<< 20
      + l.inDom <<< 18 + l.outSid)
  | 0x008 => BitVec.ofNat 32 (if s.retired.testBit (n / 64) then 6 else l.st.code)
  | 0x00C => BitVec.ofNat 32 l.ratio
  | 0x010 => BitVec.ofNat 32 (Memory.get (fun _ => 0) s.latHi r)
  | 0x014 => BitVec.ofNat 32 (wrapN 16 (satN 16 l.fill))
  | 0x018 => BitVec.ofNat 32 (l.relock <<< 16 + l.slips)
  | 0x01C =>
    let us := s.lanes.filter fun e => e.2.used
    BitVec.ofNat 32 ((us.filter fun e => e.2.st != .locked).length <<< 16 + us.length)
  | 0x020 => BitVec.ofNat 32 s.retired
  | _ => 0

/-- R390: a read of LNK_LANE_RATIO_LO latches R_HI for the reader. -/
def LinkSys.latch (s : LinkSys) (r : Nat) : LinkSys :=
  let l := s.lane (Memory.get (fun _ => 0) s.sel r)
  { s with latHi := Memory.set (fun _ => 0) s.latHi r (fld l.ratio 32 11) }

/-- R390: LNK_SEL is the only register written. -/
def LinkSys.writeReg (s : LinkSys) (r o : Nat) (v : Word) : LinkSys :=
  if o = 0x000 then { s with sel := Memory.set (fun _ => 0) s.sel r (v.fld 0 11) } else s

end Sys2Proof.Machine
end

