-- ==== Sys2Proof/Machine/Packet.lean ====
section
/-!
DEFINITION. Frames, packets and messages of the media network as bytes: what a port sends and how it reads what it
receives (R327 to R333, R338, R348). PRESUMED: the layouts are those of IEEE 802.3, IEEE 1588 and the RFCs that the spec
names.
-/

namespace Sys2Proof.Machine

/-! ### Port identity -/

/-- The port's MAC address as a 48-bit number. -/
def NetPort.mac (p : NetPort) : Nat := (p.macHi.fld 0 16) <<< 32 + p.macLo.toNat
def NetPort.en (p : NetPort) : Bool := p.ctl.flag 0
def NetPort.tagged (p : NetPort) : Bool := p.vlan.flag 16
def NetPort.vid (p : NetPort) : Nat := p.vlan.fld 0 12

/-- The RFC 1112 address of a group. -/
def groupMac (g : Nat) : Nat := 0x01005E000000 + g % 2 ^ 23

/-- A multicast IPv4 address. -/
def isGroup (a : Nat) : Bool := a / 2 ^ 28 == 0xE

def bcastMac : Nat := 0xFFFFFFFFFFFF
def ptpGroup : Nat := 0xE0000181
def allHosts : Nat := 0xE0000001

/-! ### Sending -/

/-- A frame from port `p`: header, tag under R328, padding, FCS. -/
def ethFrame (p : NetPort) (dst type : Nat) (body : List Byte) : List Byte :=
  let tag := if p.tagged then beBytes 2 0x8100 ++ beBytes 2 (p.vlan.fld 13 3 <<< 13 + p.vid) else []
  let f := beBytes 6 dst ++ beBytes 6 p.mac ++ tag ++ beBytes 2 type ++ body
  let f := f ++ List.replicate ((if p.tagged then 64 else 60) - f.length) 0
  f ++ leBytes 4 (crc32 f)

/-- R329: an IPv4 packet with DF 1 and the port's TTL; `opt` the options. -/
def ipv4 (p : NetPort) (tos proto dst : Nat) (opt payload : List Byte) : List Byte :=
  let hl := 20 + opt.length
  let h := fun (c : Nat) => [BitVec.ofNat 8 (0x40 + hl / 4), BitVec.ofNat 8 tos] ++ beBytes 2 (hl + payload.length)
    ++ beBytes 2 0 ++ beBytes 2 0x4000 ++ [BitVec.ofNat 8 (p.ipcfg.fld 0 8), BitVec.ofNat 8 proto] ++ beBytes 2 c
    ++ beBytes 4 p.ip.toNat ++ beBytes 4 dst ++ opt
  h (inetSum (h 0)) ++ payload

/-- R333: a UDP datagram with its checksum. -/
def udp (p : NetPort) (dst sport dport : Nat) (payload : List Byte) : List Byte :=
  let len := 8 + payload.length
  let u := fun (c : Nat) => beBytes 2 sport ++ beBytes 2 dport ++ beBytes 2 len ++ beBytes 2 c ++ payload
  let pseudo := beBytes 4 p.ip.toNat ++ beBytes 4 dst ++ beBytes 2 17 ++ beBytes 2 len
  let c := inetSum (pseudo ++ u 0)
  u (if c = 0 then 0xFFFF else c)

/-- An ARP message of operation `op`. -/
def arpBody (p : NetPort) (op tmac tip : Nat) : List Byte :=
  beBytes 2 1 ++ beBytes 2 0x0800 ++ beBytes 1 6 ++ beBytes 1 4 ++ beBytes 2 op ++ beBytes 6 p.mac
    ++ beBytes 4 p.ip.toNat ++ beBytes 6 tmac ++ beBytes 4 tip

/-- R330: an ARP request for `ip`. -/
def arpRequest (p : NetPort) (ip : Nat) : List Byte := ethFrame p bcastMac 0x0806 (arpBody p 1 0 ip)

/-- An IGMP message to group `dst`, with Router Alert. -/
def igmpFrame (p : NetPort) (dst : Nat) (msg : Nat → List Byte) : List Byte :=
  ethFrame p (groupMac dst) 0x0800 (ipv4 p 0xC0 2 dst (beBytes 4 0x94040000) (msg (inetSum (msg 0))))

/-- A group record of an IGMPv3 report. -/
def igmpRecord (typ grp : Nat) (srcs : List Nat) : List Byte :=
  beBytes 1 typ ++ beBytes 1 0 ++ beBytes 2 srcs.length ++ beBytes 4 grp ++ srcs.flatMap (beBytes 4)

/-- R332: a report of group records, in the version in force. -/
def igmpReport (p : NetPort) (recs : List (Nat × Nat × List Nat)) : List (List Byte) :=
  match p.compat with
  | none =>
    if recs.isEmpty then []
    else [igmpFrame p 0xE0000016 fun c => beBytes 1 0x22 ++ beBytes 1 0 ++ beBytes 2 c ++ beBytes 2 0
      ++ beBytes 2 recs.length ++ recs.flatMap fun r => igmpRecord r.1 r.2.1 r.2.2]
  | some v =>
    recs.flatMap fun r =>
      let leave := (r.1 == 3 && r.2.2.isEmpty) || r.1 == 6
      let msg := fun (t c : Nat) => beBytes 1 t ++ beBytes 1 0 ++ beBytes 2 c ++ beBytes 4 r.2.1
      if leave then (if v = 1 then [] else [igmpFrame p 0xE0000002 (msg 0x17)])
      else [igmpFrame p r.2.1 (msg (if v = 1 then 0x12 else 0x16))]

/-! ### PTP messages -/

/-- A PTP timestamp of `ns`. -/
def ptpStamp (ns : Nat) : List Byte := beBytes 6 (ns / 1000000000) ++ beBytes 4 (ns % 1000000000)

/-- The clock identity: EUI-64 from NET0's MAC address. -/
def clockId (mac : Nat) : Nat := (mac / 2 ^ 24) <<< 40 + 0xFFFE <<< 24 + mac % 2 ^ 24

/-- A PTP header and body: type, flags, port identity (80 bits), sequence, log interval. -/
def ptpMsg (typ dom flags ident seq ctrl logI : Nat) (body : List Byte) : List Byte :=
  beBytes 1 typ ++ beBytes 1 2 ++ beBytes 2 (34 + body.length) ++ beBytes 1 dom ++ beBytes 1 0 ++ beBytes 2 flags
    ++ beBytes 8 0 ++ beBytes 4 0 ++ beBytes 10 ident ++ beBytes 2 seq ++ beBytes 1 ctrl ++ beBytes 1 logI ++ body

/-- R329, R348: a PTP message as a multicast frame with DSCP 46. -/
def ptpFrame (p : NetPort) (event : Bool) (msg : List Byte) : List Byte :=
  let port := if event then 319 else 320
  ethFrame p (groupMac ptpGroup) 0x0800 (ipv4 p (46 * 4) 17 ptpGroup [] (udp p ptpGroup port port msg))

/-! ### Receiving -/

/-- An accepted frame without its FCS. -/
structure L2 where
  dst  : Nat
  src  : Nat
  type : Nat
  body : List Byte
deriving DecidableEq, Repr

/-- Why a frame is not accepted: a wrong FCS, or another test of R327 and R328. -/
inductive Drop where
  | fcs | other
deriving DecidableEq, Repr

/-- R327, R328: length, FCS, tag and EtherType. -/
def parseEth (p : NetPort) (f : List Byte) : Except Drop L2 :=
  let n := f.length
  let isTag := be f 12 2 == 0x8100
  if n < 8 || crc32 (f.take (n - 4)) != le f (n - 4) 4 then .error .fcs
  else if (if isTag then n < 68 || 1522 < n else n < 64 || 1518 < n) then .error .other
  else
    let vid := be f 14 2 % 4096
    let tagOk := if p.tagged then isTag && vid == p.vid else !isTag || vid == 0
    let type := if isTag then be f 16 2 else be f 12 2
    if tagOk && (type == 0x0800 || type == 0x0806) then
      .ok ⟨be f 0 6, be f 6 6, type, (f.take (n - 4)).drop (if isTag then 18 else 14)⟩
    else .error .other

/-- An accepted IPv4 packet. -/
structure Ip4 where
  src     : Nat
  dst     : Nat
  proto   : Nat
  payload : List Byte
deriving DecidableEq, Repr

/-- R329: version, IHL, checksum, MF and fragment offset. -/
def parseIp (b : List Byte) : Option Ip4 :=
  let len := be b 2 2
  if 20 ≤ b.length && be b 0 1 == 0x45 && inetOk (b.take 20) && be b 6 2 % 0x4000 == 0 && 20 ≤ len && len ≤ b.length then
    some ⟨be b 12 4, be b 16 4, be b 9 1, (b.take len).drop 20⟩
  else none

/-- R333: a UDP datagram: destination port and payload, when its length and its checksum are right. -/
def parseUdp (ip : Ip4) : Option (Nat × List Byte) :=
  let u := ip.payload
  let len := be u 4 2
  let pseudo := beBytes 4 ip.src ++ beBytes 4 ip.dst ++ beBytes 2 17 ++ beBytes 2 len
  if 8 ≤ len && len ≤ u.length && (be u 6 2 == 0 || inetOk (pseudo ++ u.take len)) then
    some (be u 2 2, (u.take len).drop 8)
  else none

/-- An RTP packet: payload type, sequence number, timestamp, SSRC, payload. -/
structure Rtp where
  pt   : Nat
  seq  : Nat
  ts   : Nat
  ssrc : Nat
  data : List Byte
deriving DecidableEq, Repr

/-- R338: version 2; any CSRC list, header extension and padding are skipped. -/
def parseRtp (b : List Byte) : Option Rtp :=
  let b0 := be b 0 1
  let csrc := 12 + 4 * (b0 % 16)
  let ext := if b0.testBit 4 then 4 + 4 * be b (csrc + 2) 2 else 0
  let pad := if b0.testBit 5 then be b (b.length - 1) 1 else 0
  if b.length < csrc + ext + pad || b.length < 12 || b0 / 64 != 2 then none
  else some ⟨be b 1 1 % 128, be b 2 2, be b 4 4, be b 8 4, (b.take (b.length - pad)).drop (csrc + ext)⟩

end Sys2Proof.Machine
end

