-- ==== Sys2Proof/Machine/Ptp.lean ====
section
/-!
DEFINITION. The time core: the clock of each port, its best-master choice, the servo, grandmaster changes and the PTP_
registers (R348 to R353, R356).
-/

namespace Sys2Proof.Machine

def NetSys.port (s : NetSys) (i : Nat) : NetPort := if i = 0 then s.n0 else s.n1
def NetSys.setPort (s : NetSys) (i : Nat) (p : NetPort) : NetSys := if i = 0 then { s with n0 := p } else { s with n1 := p }
def NetSys.note (s : NetSys) (cause cls inst dom : Nat) (clear : Bool) : NetSys :=
  { s with rep := s.rep ++ [⟨cause, cls, inst, dom, clear⟩] }

/-- Put a frame on port `i` and count it. -/
def NetSys.send (s : NetSys) (i : Nat) (f : List Byte) : NetSys :=
  let p := s.port i
  { s.setPort i { p with txFrames := p.txFrames + 1 } with sent := s.sent ++ [(i, f)] }
def NetSys.sendAll (s : NetSys) (i : Nat) (fs : List (List Byte)) : NetSys := fs.foldl (fun s f => s.send i f) s

def PtpSys.en (t : PtpSys) : Bool := t.ctl.flag 16
def PtpSys.domNum (t : PtpSys) : Nat := t.ctl.fld 8 8
def PtpSys.leaderEn (t : PtpSys) : Bool := t.ctl.flag 7
def PtpSys.servo (t : PtpSys) : Nat := t.ctl.fld 4 2
def PtpSys.aes67 (t : PtpSys) : Bool := t.ctl.flag 0
def PtpSys.port (t : PtpSys) (i : Nat) : PtpPort := if i = 0 then t.p0 else t.p1
def PtpSys.setPort (t : PtpSys) (i : Nat) (p : PtpPort) : PtpSys := if i = 0 then { t with p0 := p } else { t with p1 := p }

def NetSys.withPtp (s : NetSys) (f : PtpSys → PtpSys) : NetSys := { s with ptp := f s.ptp }

/-- The identity of port `i`: the clock identity and the port number. -/
def NetSys.ident (s : NetSys) (i : Nat) : Nat := clockId s.n0.mac <<< 16 + (i + 1)

/-- An interval of `2^log` seconds in µs, `log` an 8-bit signed field. -/
def logUs (f : Nat) : Nat :=
  match sext 8 f with
  | .ofNat n => 1000000 * 2 ^ n
  | .negSucc n => 1000000 / 2 ^ (n + 1)

/-! ### Best master (PRESUMED: the dataset comparison of IEEE 1588) -/

/-- Whether key list `a` comes before `b`. -/
def lexLt : List Nat → List Nat → Bool
  | a :: r, b :: t => a < b || (a == b && lexLt r t)
  | _, _ => false

/-- The order of two datasets. -/
def Announce.better (a b : Announce) : Bool :=
  if a.gm = b.gm then lexLt [a.steps, a.sender] [b.steps, b.sender]
  else lexLt [a.prio1, a.cls, a.acc, a.var, a.prio2, a.gm] [b.prio1, b.cls, b.acc, b.var, b.prio2, b.gm]

/-- R352: the device's own dataset. -/
def NetSys.own (s : NetSys) : Announce :=
  ⟨s.ptp.prio.fld 8 8, 248, 0xFE, 0xFFFF, s.ptp.prio.fld 0 8, clockId s.n0.mac, 0, 0⟩

/-- R353: a sender is qualified once two of its messages have arrived within 4 announce intervals. -/
def Foreign.qualified (f : Foreign) (intv now : Nat) : Bool :=
  match f.times with
  | _ :: b :: _ => now ≤ b + 4 * intv
  | _ => false

/-- The best qualified sender of a port. -/
def PtpPort.best (p : PtpPort) (intv now : Nat) : Option Announce :=
  (p.foreign.filter fun f => f.qualified intv now).foldl (fun b f =>
    match b with
    | none => some f.ann
    | some a => if f.ann.better a then some f.ann else some a) none

/-- R351: the port that the servo follows: a fixed port, or the one whose parent wins; none when no port follows. -/
def PtpSys.choice (t : PtpSys) : Option Nat :=
  let has := fun (i : Nat) => (t.port i).state == 2
  match t.servo with
  | 0 => if has 0 then some 0 else none
  | 1 => if has 1 then some 1 else none
  | _ =>
    match has 0, has 1 with
    | true, true =>
      match t.p0.parent, t.p1.parent with
      | some a, some b =>
        let key := fun (x : Announce) => [x.prio1, x.cls, x.acc, x.var, x.prio2, x.gm, x.steps]
        if lexLt (key b) (key a) then some 1 else some 0
      | _, _ => some 0
    | true, false => some 0
    | false, true => some 1
    | _, _ => none

/-- PTP_OK clears (R350). -/
def PtpSys.lose (t : PtpSys) : PtpSys := { t with ok := false, good := 0, bad := 0, first := true }

/-- R350, R351, R353: the servo takes up its choice. A switch to the same grandmaster with an agreeing offset keeps
PTP_OK; any other change of grandmaster clears it and is recorded. -/
def NetSys.refollow (s : NetSys) : NetSys :=
  let t := s.ptp
  match t.choice with
  | none => s
  | some i =>
    let p := t.port i
    match p.parent with
    | none => s
    | some a =>
      if a.gm = t.gm then
        if i = t.follow then s
        else
          let agree := (p.offset - (t.port t.follow).offset).natAbs ≤ 1000
          s.withPtp fun t => { if agree then t else t.lose with follow := i, offset := p.offset, delay := p.delay }
      else
        let known := t.gm != 0
        let s := s.withPtp fun t => { t.lose with follow := i, gm := a.gm, gmChg := t.gmChg || known }
        if known then s.note 0x0605 11 0 3 false else s

/-- R348, R352: the state of port `i` from its senders. `timeout` says that the announce receipt timeout has passed. -/
def NetSys.elect (s : NetSys) (i now : Nat) (timeout : Bool) : NetSys :=
  let t := s.ptp
  let p := t.port i
  let n := s.port i
  let p' : PtpPort :=
    if !t.en || !n.en || !n.link then { PtpPort.reset with delay := p.delay, offset := p.offset }
    else match p.best (logUs (t.intv.fld 16 8)) now with
      | some a =>
        if t.leaderEn && s.own.better a then { p with state := 3, parent := none }
        else { p with state := 2, parent := some a
                      sync := if p.parent.map Announce.sender = some a.sender then p.sync else none }
      | none =>
        if t.leaderEn && (timeout || p.state = 3) then { p with state := 3, parent := none }
        else { p with state := 1, parent := none }
  (s.withPtp fun t => t.setPort i p').refollow

/-! ### Servo (R350) -/

/-- R350: an offset measurement in ns on port `i`; the second component is the step of the timescale. -/
def NetSys.measure (s : NetSys) (i : Nat) (off : Int) : NetSys × Int :=
  let t := s.ptp
  let t := t.setPort i { t.port i with offset := off }
  if i != t.follow || (t.port i).state != 2 then ({ s with ptp := t }, 0)
  else
    let t := { t with offset := off, delay := (t.port i).delay }
    let step : Bool := !t.ok && t.first && off.natAbs > 1000
    let t := { t with first := false }
    if step then
      let clr := fun (p : PtpPort) => { p with t1t2 := none, dreq := none, sync := none }
      ({ s with ptp := { t with step := -off, stepped := true, good := 0, p0 := clr t.p0, p1 := clr t.p1 } }, -off)
    else
      let t := { t with good := if off.natAbs ≤ 1000 then min 16 (t.good + 1) else 0
                        bad := if off.natAbs > 10000 then t.bad + 1 else 0 }
      let t := if !t.ok && 16 ≤ t.good then { t with ok := true, bad := 0 } else t
      let t := if t.ok && 8 ≤ t.bad then t.lose else t
      ({ s with ptp := t }, 0)

/-- R349, R350: a Sync exchange is complete with corrected sender time `t1` and receive time `t2`. -/
def NetSys.syncDone (s : NetSys) (i : Nat) (t1 : Int) (t2 : Nat) : NetSys × Int :=
  let p := s.ptp.port i
  let s := s.withPtp fun t => t.setPort i { p with sync := none, t1t2 := some (t1.toNat, t2) }
  s.measure i ((t2 : Int) - t1 - p.delay)

/-- The nanoseconds of a correction field. -/
def corrNs (b : List Byte) : Int := sext 64 (be b 8 8) / 65536

/-- The nanoseconds of the timestamp at offset 34. -/
def stampNs (b : List Byte) : Nat := be b 34 6 * 1000000000 + be b 40 4

/-- R348, R349: a PTP message `b` on port `i`, received at PTP instant `ns` and uptime `now` µs. -/
def NetSys.ptpRx (s : NetSys) (i : Nat) (event : Bool) (b : List Byte) (ns now : Nat) : NetSys × Int :=
  let t := s.ptp
  let p := t.port i
  let typ := be b 0 1 % 16
  let sender := be b 20 10
  let seq := be b 30 2
  let unicast := (be b 6 1).testBit 2
  let twoStep := (be b 6 1).testBit 1
  let fromParent := p.state = 2 && (p.parent.map Announce.sender) = some sender
  if !t.en || be b 1 1 % 16 != 2 || be b 4 1 != t.domNum || b.length < 44 || sender / 65536 = clockId s.n0.mac || unicast then
    (s, 0)
  else match typ, event with
    | 0xB, false =>
      if b.length < 64 then (s, 0)
      else
        let a : Announce := ⟨be b 47 1, be b 48 1, be b 49 1, be b 50 2, be b 52 1, be b 53 8, be b 61 2, sender⟩
        let old := p.foreign.find? fun f => f.ann.sender == sender
        let times := match old with | some f => now :: f.times.take 1 | none => [now]
        let rest := p.foreign.filter fun f => f.ann.sender != sender
        ((s.withPtp fun t => t.setPort i { p with foreign := (⟨a, times⟩ :: rest).take 8 }).elect i now false, 0)
    | 0x0, true =>
      if !fromParent then (s, 0)
      else if twoStep then (s.withPtp fun t => t.setPort i { p with sync := some (seq, ns, corrNs b) }, 0)
      else s.syncDone i ((stampNs b : Int) + corrNs b) ns
    | 0x8, false =>
      match p.sync with
      | some (q, t2, c) =>
        if fromParent && q = seq then s.syncDone i ((stampNs b : Int) + corrNs b + c) t2 else (s, 0)
      | none => (s, 0)
    | 0x9, false =>
      match p.dreq, p.t1t2 with
      | some (q, t3), some (t1, t2) =>
        if fromParent && 54 ≤ b.length && q = seq && be b 44 10 = s.ident i then
          let t4 : Int := (stampNs b : Int) - corrNs b
          let d := (((t2 : Int) - t1) + (t4 - t3)) / 2
          let d := d.toNat
          let s := s.withPtp fun t => t.setPort i { p with delay := d, dreq := none }
          (if i = t.follow then s.withPtp fun t => { t with delay := d } else s, 0)
        else (s, 0)
      | _, _ => (s, 0)
    | 0x1, true =>
      if p.state = 3 then
        let body := ptpStamp ns ++ beBytes 10 sender
        let m := ptpMsg 0x9 t.domNum 0 (s.ident i) seq 3 (t.intv.fld 0 8) body
        -- the correction of the request is returned
        let m := m.take 8 ++ slice b 8 8 ++ m.drop 16
        (s.send i (ptpFrame (s.port i) false m), 0)
      else (s, 0)
    | _, _ => (s, 0)

/-- R350, R353: the announce receipt timeout of port `i`. -/
def NetSys.announceTimeout (s : NetSys) (i now : Nat) : NetSys :=
  let p := s.ptp.port i
  if p.state = 0 then s
  else
    let wasFollowed := i = s.ptp.follow && p.state = 2
    let s := s.withPtp fun t => t.setPort i { p with foreign := [] }
    let s := s.elect i now true
    if wasFollowed && s.ptp.follow = i then s.withPtp fun t => t.lose else s

/-- R350, R351: no valid Sync exchange for 4 Sync intervals on the followed port. -/
def NetSys.syncTimeout (s : NetSys) (i : Nat) : NetSys :=
  let t := s.ptp
  if i != t.follow || !t.en then s
  else
    let o := 1 - i
    let q := t.port o
    let same := q.state = 2 && q.parent.map Announce.gm = some t.gm && (q.offset - (t.port i).offset).natAbs ≤ 1000
    if same && t.servo = 2 then s.withPtp fun t => { t with follow := o, offset := q.offset, delay := q.delay }
    else s.withPtp fun t => t.lose

/-- R352: a leader's Announce. -/
def NetSys.announceTx (s : NetSys) (i ns : Nat) : NetSys :=
  let t := s.ptp
  let p := t.port i
  if p.state != 3 then s
  else
    let a := s.own
    let body := ptpStamp ns ++ beBytes 2 0 ++ beBytes 1 0 ++ beBytes 1 a.prio1 ++ beBytes 1 a.cls ++ beBytes 1 a.acc
      ++ beBytes 2 a.var ++ beBytes 1 a.prio2 ++ beBytes 8 a.gm ++ beBytes 2 0 ++ beBytes 1 0xA0
    let m := ptpMsg 0xB t.domNum 0 (s.ident i) p.annSeq 5 (t.intv.fld 16 8) body
    (s.withPtp fun t => t.setPort i { p with annSeq := (p.annSeq + 1) % 65536 }).send i (ptpFrame (s.port i) false m)

/-- R352: a leader's Sync, departing at `ns`, and its Follow_Up. -/
def NetSys.syncTx (s : NetSys) (i ns : Nat) : NetSys :=
  let t := s.ptp
  let p := t.port i
  if p.state != 3 then s
  else
    let sy := ptpMsg 0x0 t.domNum 0x0200 (s.ident i) p.syncSeq 0 (t.intv.fld 8 8) (ptpStamp 0)
    let fu := ptpMsg 0x8 t.domNum 0 (s.ident i) p.syncSeq 2 (t.intv.fld 8 8) (ptpStamp ns)
    let s := s.withPtp fun t => t.setPort i { p with syncSeq := (p.syncSeq + 1) % 65536 }
    (s.send i (ptpFrame (s.port i) true sy)).send i (ptpFrame (s.port i) false fu)

/-- R348: a follower's Delay_Req, departing at `ns`. -/
def NetSys.delayReqTx (s : NetSys) (i ns : Nat) : NetSys :=
  let t := s.ptp
  let p := t.port i
  if p.state != 2 then s
  else
    let m := ptpMsg 0x1 t.domNum 0 (s.ident i) p.dreqSeq 1 0x7F (ptpStamp 0)
    (s.withPtp fun t => t.setPort i { p with dreq := some (p.dreqSeq, ns), dreqSeq := (p.dreqSeq + 1) % 65536 }).send i
      (ptpFrame (s.port i) true m)

/-! ### Registers (R356) -/

/-- A signed value in a range. -/
def inRangeI (lo hi : Int) (f : Nat) : Bool := let v := sext 8 f; decide (lo ≤ v) && decide (v ≤ hi)

/-- R356: a write of PTP_INTV, field by field. -/
def intvWrite (old v : Word) (aes67 : Bool) : Word :=
  let pick := fun (o : Nat) (ok : Bool) => if ok then v.fld o 8 else old.fld o 8
  let ann := if aes67 then inRangeI 0 4 (v.fld 16 8) else inRangeI (-3) 1 (v.fld 16 8)
  let syn := if aes67 then inRangeI (-4) 1 (v.fld 8 8) else inRangeI (-7) (-1) (v.fld 8 8)
  BitVec.ofNat 32 ((pick 24 (2 ≤ v.fld 24 8 && v.fld 24 8 ≤ 10)) <<< 24 + (pick 16 ann) <<< 16 + (pick 8 syn) <<< 8
    + pick 0 (inRangeI (-3) 5 (v.fld 0 8)))

/-- R348: a profile's defaults: domain number and PTP_INTV. -/
def profileDefaults (aes67 : Bool) : Nat × Word := if aes67 then (0, 0x0301FD00) else (127, 0x03FEFDFD)

/-- R356: a write of PTP_CTL. -/
def NetSys.writePtpCtl (s : NetSys) (v : Word) (now : Nat) : NetSys :=
  let t := s.ptp
  let en := t.en
  let prof := if en then t.aes67 else v.flag 0
  let dom := if en then t.domNum else v.fld 8 8
  let servo := if v.fld 4 2 = 3 then t.servo else v.fld 4 2
  let chg := prof != t.aes67
  let dom := if chg then (profileDefaults prof).1 else dom
  let intv := if chg then (profileDefaults prof).2 else t.intv
  let ctl := BitVec.ofNat 32 ((v.fld 16 1) <<< 16 + dom <<< 8 + (v.fld 7 1) <<< 7 + servo <<< 4 + if prof then 1 else 0)
  let t := { t with ctl := ctl, intv := intv }
  let off := fun (t : PtpSys) => if en && !v.flag 16 then { t.lose with gm := 0 } else t
  ((({ s with ptp := off t }).elect 0 now false).elect 1 now false).withPtp off

/-- The PTP_ register at offset `o`; `ns` is the timescale. -/
def PtpSys.readReg (t : PtpSys) (ns o : Nat) : Word :=
  let b := fun (x : Bool) (i : Nat) => if x then 2 ^ i else 0
  match o with
  | 0x000 => t.ctl
  | 0x004 => t.prio
  | 0x008 => t.intv
  | 0x00C => BitVec.ofNat 32 (b t.stepped 9 + b t.gmChg 8 + t.follow <<< 5 + b t.ok 4 + t.p1.state <<< 2 + t.p0.state)
  | 0x010 => BitVec.ofNat 32 t.gm
  | 0x014 => BitVec.ofNat 32 (t.gm >>> 32)
  | 0x018 => wordI (satN 32 t.offset)
  | 0x01C => BitVec.ofNat 32 t.delay
  | 0x020 => BitVec.ofNat 32 (ns % 1000000000)
  | 0x024 => BitVec.ofNat 32 t.latSec
  | 0x028 => BitVec.ofNat 32 (fld t.latSec 32 16)
  | 0x02C => wordI (satN 32 t.step)
  | _ => 0

/-- R356: a write of a PTP_ register other than PTP_CTL. -/
def PtpSys.writePlain (t : PtpSys) (o : Nat) (v : Word) : PtpSys :=
  match o with
  | 0x004 => { t with prio := v &&& 0xFFFF }
  | 0x008 => { t with intv := intvWrite t.intv v t.aes67 }
  | 0x00C => { t with stepped := t.stepped && !v.flag 9, gmChg := t.gmChg && !v.flag 8 }
  | _ => t

/-- R356: a read of PTP_TIME_NS latches the seconds. -/
def PtpSys.latch (t : PtpSys) (ns : Nat) : PtpSys := { t with latSec := ns / 1000000000 }

end Sys2Proof.Machine
end

