-- ==== Sys2Proof/Machine/Net.lean ====
section
/-!
DEFINITION. Network ports: link, cages, frame reception, ARP, ICMP, IGMP, receive and transmit contexts, stream timing,
merging, loss, and the NET_ registers (R325 to R347, R354, R355).
-/

namespace Sys2Proof.Machine

def NetSys.rxc (s : NetSys) (n : Nat) : RxCtx := Memory.get (fun _ => RxCtx.reset) s.rx n
def NetSys.setRx (s : NetSys) (n : Nat) (c : RxCtx) : NetSys := { s with rx := Memory.set (fun _ => RxCtx.reset) s.rx n c }
def NetSys.txc (s : NetSys) (n : Nat) : TxCtx := Memory.get (fun _ => TxCtx.reset) s.tx n
def NetSys.setTx (s : NetSys) (n : Nat) (c : TxCtx) : NetSys := { s with tx := Memory.set (fun _ => TxCtx.reset) s.tx n c }
def NetSys.modPort (s : NetSys) (i : Nat) (f : NetPort → NetPort) : NetSys := s.setPort i (f (s.port i))

/-- The leg of port `i` of a pair. -/
def leg {α : Type} (p : α × α) (i : Nat) : α := if i = 0 then p.1 else p.2
def setLeg {α : Type} (p : α × α) (i : Nat) (v : α) : α × α := if i = 0 then (v, p.2) else (p.1, v)

/-! ### Groups and IGMP (R332) -/

/-- The source filters that the contexts of port `i` contribute to group `g`. -/
def NetSys.filters (s : NetSys) (i g : Nat) : List Nat :=
  (s.rx.filter fun e => e.2.used && e.2.ports.testBit i && leg e.2.addr i == g).map fun e => leg e.2.srcf i

/-- The groups that port `i` has joined through its contexts and, while PTP runs, for PTP. -/
def NetSys.groups (s : NetSys) (i : Nat) : List Nat :=
  let gs := (s.rx.filter fun e => e.2.used && e.2.ports.testBit i && isGroup (leg e.2.addr i)).map fun e => leg e.2.addr i
  ((if s.ptp.en then [ptpGroup] else []) ++ gs).eraseDups

/-- The reception state of group `g`: none not joined, some [] for EXCLUDE {}, else the INCLUDE list. -/
def NetSys.joined (s : NetSys) (i g : Nat) : Option (List Nat) :=
  if !(s.groups i).contains g then none
  else
    let fs := s.filters i g
    if fs.isEmpty || fs.contains 0 then some [] else some fs.eraseDups

/-- R332: the state-change records from reception state `a` to `b` of group `g`. -/
def changeRecs (g : Nat) (a b : Option (List Nat)) : List (Nat × Nat × List Nat) :=
  if a = b then []
  else match a, b with
    | _, some [] => [(4, g, [])]
    | some (x :: r), none => [(6, g, x :: r)]
    | _, none => [(3, g, [])]
    | some [], some ys => [(3, g, ys)]
    | none, some ys => [(5, g, ys)]
    | some xs, some ys =>
      let new := ys.filter fun y => !xs.contains y
      let old := xs.filter fun x => !ys.contains x
      (if new.isEmpty then [] else [(5, g, new)]) ++ (if old.isEmpty then [] else [(6, g, old)])

/-- R332: contexts or PTP have changed from `old` to `s`: each port sends its state-change reports and plans the rest. -/
def NetSys.reportJoins (s old : NetSys) : NetSys :=
  [0, 1].foldl (fun s i =>
    let p := s.port i
    let gs := (old.groups i ++ s.groups i).eraseDups
    let recs := gs.flatMap fun g => changeRecs g (old.joined i g) (s.joined i g)
    if recs.isEmpty || !p.en || !p.link then s
    else
      let s := s.sendAll i (igmpReport p recs)
      let left := p.ipcfg.fld 8 4 - 1
      let kept := p.resend.filter fun r => !(recs.map fun x => x.2.1).contains r.grp
      let more := recs.map fun r => (⟨r.2.1, r.1, r.2.2, left⟩ : IgmpRec)
      if left = 0 then s else s.modPort i fun p => { p with resend := kept ++ more }) s

/-- R332: a further state-change report, 1 s after the previous one. -/
def NetSys.igmpResend (s : NetSys) (i : Nat) : NetSys :=
  let p := s.port i
  if p.resend.isEmpty then s
  else
    let s := s.sendAll i (igmpReport p (p.resend.map fun r => (r.typ, r.grp, r.srcs)))
    s.modPort i fun p =>
      { p with resend := (p.resend.filter fun r => 1 < r.left).map fun r => { r with left := r.left - 1 } }

/-- R332: the delay of the oldest query has run out: current-state reports. -/
def NetSys.igmpAnswer (s : NetSys) (i : Nat) : NetSys :=
  let p := s.port i
  match p.queries with
  | [] => s
  | q :: r =>
    let gs := match q with | none => s.groups i | some g => (s.groups i).filter (· == g)
    let recs := gs.filterMap fun g => match s.joined i g with
      | some [] => some (2, g, [])
      | some ys => some (1, g, ys)
      | none => none
    (s.modPort i fun p => { p with queries := r }).sendAll i (igmpReport p recs)

/-- R332: an IGMP message on port `i`. -/
def NetSys.igmpRx (s : NetSys) (i : Nat) (ip : Ip4) : NetSys :=
  let b := ip.payload
  if be b 0 1 = 0x11 && inetOk b && 8 ≤ b.length then
    let g := be b 4 4
    let ver := if 12 ≤ b.length then 3 else if be b 1 1 = 0 then 1 else 2
    s.modPort i fun p =>
      { p with queries := p.queries ++ [if g = 0 then none else some g]
               compat := if ver = 3 then p.compat
                 else some (match p.compat with | some v => min v ver | none => ver) }
  else s

/-- R332: the older-version querier timer runs out. -/
def NetSys.igmpCompatEnd (s : NetSys) (i : Nat) : NetSys := s.modPort i fun p => { p with compat := none }

/-! ### ARP (R329, R330) -/

/-- R329: the address to resolve for a unicast destination; none when no gateway can reach it. -/
def NetPort.nextHop (p : NetPort) (dst : Nat) : Option Nat :=
  if (BitVec.ofNat 32 dst &&& p.mask) = (p.ip &&& p.mask) then some dst
  else if p.gw = 0 then none else some p.gw.toNat

/-- The cache entry of `ip`. -/
def NetPort.arpOf (p : NetPort) (ip : Nat) : Option Arp := p.arp.find? fun a => a.ip == ip
def NetPort.setArp (p : NetPort) (a : Arp) : NetPort :=
  { p with arp := if (p.arpOf a.ip).isSome then p.arp.map fun x => if x.ip = a.ip then a else x
                  else if p.arp.length < 64 then p.arp ++ [a] else p.arp.drop 1 ++ [a] }

/-- R330: make sure destination `dst` is being resolved. -/
def NetSys.wantArp (s : NetSys) (i dst now : Nat) : NetSys :=
  let p := s.port i
  match p.nextHop dst with
  | some ip =>
    if (p.arpOf ip).isSome then s
    else (s.setPort i (p.setArp ⟨ip, none, now, some now, now, false⟩)).send i (arpRequest p ip)
  | none =>
    if (p.arpOf dst).isSome then s else s.setPort i (p.setArp ⟨dst, none, now, some now, now, false⟩)

/-- The MAC address for a destination, when resolved. -/
def NetPort.resolve (p : NetPort) (dst : Nat) : Option Nat :=
  if isGroup dst then some (groupMac dst)
  else match p.nextHop dst with
    | some ip => (p.arpOf ip).bind Arp.mac
    | none => none

/-- R330: refresh after 60 s. -/
def NetSys.arpRefresh (s : NetSys) (i ip now : Nat) : NetSys :=
  let p := s.port i
  match p.arpOf ip with
  | some a =>
    if a.mac.isSome && a.asked.isNone && a.at_ + 60000000 ≤ now then
      (s.setPort i (p.setArp { a with asked := some now, lastReq := now })).send i (arpRequest p ip)
    else s
  | none => s

/-- R330: retry after 1 s without an answer. -/
def NetSys.arpRetry (s : NetSys) (i ip now : Nat) : NetSys :=
  let p := s.port i
  match p.arpOf ip with
  | some a =>
    if a.asked.isSome && a.lastReq + 1000000 ≤ now && (p.nextHop ip).isSome then
      (s.setPort i (p.setArp { a with lastReq := now })).send i (arpRequest p ip)
    else s
  | none => s

/-- R330: unresolved after 3 s. -/
def NetSys.arpUnresolved (s : NetSys) (i ip now : Nat) : NetSys :=
  let p := s.port i
  match p.arpOf ip with
  | some a =>
    match a.asked with
    | some t =>
      if t + 3000000 ≤ now && !a.raised then
        (s.setPort i (p.setArp { a with mac := none, raised := true })).note 0x0701 6 i 3 false
      else s
    | none => s
  | none => s

/-- R330: an ARP message on port `i`. -/
def NetSys.arpRx (s : NetSys) (i now : Nat) (b : List Byte) : NetSys :=
  let p := s.port i
  if be b 0 2 != 1 || be b 2 2 != 0x0800 || be b 4 2 != 0x0604 || b.length < 28 then
    s.modPort i fun p => { p with rxDrop := p.rxDrop + 1 }
  else
    let smac := be b 8 6
    let sip := be b 14 4
    let s := s.modPort i fun p => { p with rxFrames := p.rxFrames + 1 }
    let s := if sip = p.ip.toNat && smac != p.mac then
        (s.modPort i fun p => { p with conflict := true }).note 0x0702 6 i 3 false
      else s
    let s := match (s.port i).arpOf sip with
      | some a => s.modPort i fun p => p.setArp { a with mac := some smac, at_ := now, asked := none, raised := false }
      | none => s
    if be b 6 2 = 1 && be b 24 4 = p.ip.toNat then
      s.send i (ethFrame p smac 0x0806 (arpBody p 2 smac sip))
    else s

/-! ### ICMP (R331) -/

/-- R331: an echo request. -/
def NetSys.icmpRx (s : NetSys) (i now : Nat) (src : Nat) (ip : Ip4) : NetSys :=
  let p := s.port i
  let b := ip.payload
  let recent := p.icmp.filter fun t => now < t + 1000000
  if p.ctl.flag 8 && be b 0 2 = 0x0800 && inetOk b && b.length ≤ 1480 && 8 ≤ b.length && ip.dst = p.ip.toNat && recent.length < 100 then
    let body := b.drop 4
    let msg := fun (c : Nat) => beBytes 2 0 ++ beBytes 2 c ++ body
    (s.modPort i fun p => { p with icmp := recent ++ [now], rxFrames := p.rxFrames + 1 }).send i
      (ethFrame p src 0x0800 (ipv4 p 0 1 ip.src [] (msg (inetSum (msg 0)))))
  else s.modPort i fun p => { p with icmp := recent, rxDrop := p.rxDrop + 1 }

/-! ### Stream timing (R339, R341, R342) -/

/-- O_d of domain `k`. -/
def NetSys.offsetOf (s : NetSys) (k : Nat) : Nat := Memory.get (fun _ => 0) s.od k

/-- R339: M(n) of domain `k`. -/
def NetSys.mediaCount (s : NetSys) (k n : Nat) : Nat := (n + s.offsetOf k) % 2 ^ 32

/-- Bytes of one sample of one channel. -/
def fmtBytes (fmt : Nat) : Nat := fmt + 2

/-- The PTP instant at which tick `cur + d` of a domain is expected, at its nominal period. -/
def tickNs (d : Dom) (diff : Int) : Int := (d.lastNs : Int) + diff * 1000000000 / (rateHz d.rate : Nat)

/-- Samples that a context's buffer holds per channel (R341). -/
def RxCtx.cap (c : RxCtx) : Nat := c.lo + c.ptime + c.hz / 1000 + 16

/-- R341: ticks from the current one to the release of timestamp `ts`. -/
def NetSys.ahead (s : NetSys) (c : RxCtx) (d : Dom) (ts : Nat) : Int :=
  sext 32 (wrapN 32 ((ts : Int) + c.lo - s.offsetOf c.dom - d.count))

/-- The words of a sample, one per channel. -/
def sampleWords (c : RxCtx) (data : List Byte) (k : Nat) : List Nat :=
  let b := fmtBytes c.fmt
  (List.range c.ch).map fun j => be data ((k * c.ch + j) * b) b

/-- R336: the Q4.28 value of a stream word. -/
def rxSample (fmt w : Nat) : Word := if fmt = 0 then ofPcm 16 w else ofPcm 24 (w % 2 ^ 24)

/-- R338: whether a packet has the payload type and length of context `c`, and its source once that is latched. -/
def RxCtx.fits (c : RxCtx) (r : Rtp) : Bool :=
  r.pt == c.pt && r.data.length == c.ch * c.ptime * fmtBytes c.fmt && (match c.ssrc with | some x => x == r.ssrc | none => true)

/-- R338, R342, R343: an RTP packet for context `n` on leg `i`, wholly received at PTP instant `ns`. -/
def NetSys.rtpRx (s : NetSys) (doms : Nat → Dom) (n i ns : Nat) (r : Rtp) : NetSys :=
  let c := s.rxc n
  let d := doms c.dom
  if !c.fits r then s
  else
    let own := c.dom = 3
    let diff : Int := if own then sext 32 (wrapN 32 ((r.ts : Int) - c.lastTs)) + 1 else s.ahead c d r.ts
    let late : Bool := if own then c.heard && diff ≤ 0
      else diff ≤ 0 || (ns : Int) + 4000 > tickNs d diff
    let early : Bool := (!own || c.heard) && diff + c.ptime - 1 > c.cap
    if late then (s.setRx n { c with late := incSat 0xFFFF c.late }).note 0x0704 8 n c.dom false
    else if early then (s.setRx n { c with early := incSat 0xFFFF c.early }).note 0x0704 8 n c.dom false
    else
      let ts := fun (k : Nat) => (r.ts + k) % 2 ^ 32
      let have_ := fun (k : Nat) => (Memory.get (fun _ => none) c.buf (ts k)).isSome
      let dup := (List.range c.ptime).all have_
      let buf := (List.range c.ptime).foldl (fun b k =>
        if have_ k then b else Memory.set (fun _ => none) b (ts k) (some (sampleWords c r.data k))) c.buf
      let startOwn := own && !c.present && c.buf.isEmpty
      let s := if c.present then s else s.note 0x0703 8 n c.dom true
      s.setRx n { c with
        ssrc := some r.ssrc, present := true, legOk := setLeg c.legOk i true, lastNs := setLeg c.lastNs i ns
        dup := if dup then incSat 0xFFFF c.dup else c.dup, buf := buf
        pkts := if dup then c.pkts else c.pkts ++ [(r.ts, r.seq)]
        lastTs := if startOwn then r.ts else c.lastTs
        relAt := if startOwn then ns + c.lo * 1000000000 / max 1 c.hz else c.relAt }

/-- R333: the contexts that take a packet: destination, port, and the more specific source filter; with one context of a node its other
one too, where the packet matches both. -/
def NetSys.ctxsFor (s : NetSys) (i : Nat) (ip : Ip4) (dport : Nat) : List Nat :=
  let m := s.rx.filter fun e => e.2.used && e.2.ports.testBit i && leg e.2.addr i == ip.dst && leg e.2.udp i == dport
  let exact := m.filter fun e => leg e.2.srcf i == ip.src
  let any := m.filter fun e => leg e.2.srcf i == 0
  let best := if exact.isEmpty then any else exact
  ((exact ++ any).filter fun e => best.any fun b => b.2.part == e.2.part && b.2.node == e.2.node).map Prod.fst

/-- R327 to R333, R349: a frame on port `i` at uptime `now` µs, received at PTP instant `ns`. The second component is a
step of the timescale. -/
def NetSys.frameRx (s : NetSys) (doms : Nat → Dom) (i now ns : Nat) (f : List Byte) : NetSys × Int :=
  let p := s.port i
  let drop := s.modPort i fun p => { p with rxDrop := p.rxDrop + 1 }
  if !p.en || !p.link then (s, 0)
  else match parseEth p f with
  | .error .fcs => (s.modPort i fun p => { p with rxFcs := p.rxFcs + 1 }, 0)
  | .error .other => (drop, 0)
  | .ok l =>
    let groups := s.groups i
    let macOk := l.dst == p.mac || (l.dst == bcastMac && l.type == 0x0806)
      || (allHosts :: groups).any fun g => l.dst == groupMac g
    if !macOk then (drop, 0)
    else if l.type = 0x0806 then (s.arpRx i now l.body, 0)
    else match parseIp l.body with
      | none => (drop, 0)
      | some ip =>
        let dstOk := ip.dst == p.ip.toNat || groups.contains ip.dst || ip.dst == ptpGroup || ip.dst == allHosts
        if !dstOk then (drop, 0)
        else match ip.proto with
          | 1 => (s.icmpRx i now l.src ip, 0)
          | 2 => ((s.igmpRx i ip).modPort i fun p => { p with rxFrames := p.rxFrames + 1 }, 0)
          | 17 =>
            match parseUdp ip with
            | none => (drop, 0)
            | some (dport, data) =>
              if (dport = 319 || dport = 320) && (ip.dst = ptpGroup || ip.dst = p.ip.toNat) then
                (s.modPort i fun p => { p with rxFrames := p.rxFrames + 1 }).ptpRx i (dport == 319) data ns now
              else match s.ctxsFor i ip dport, parseRtp data with
                | [], _ => (drop, 0)
                | _, none => (drop, 0)
                | ns', some r =>
                  if ns'.any fun n => (s.rxc n).fits r then
                    (ns'.foldl (fun s n => s.rtpRx doms n i ns r) (s.modPort i fun p => { p with rxFrames := p.rxFrames + 1 }), 0)
                  else (drop, 0)
          | _ => (drop, 0)

/-! ### Release (R340 to R343, R354) -/

/-- One sample released at a tick: values by channel, none when it is missing; `t` its timestamp. -/
def RxCtx.release (c : RxCtx) (t : Nat) : Option (List Word) × RxCtx :=
  let c := match c.pkts.find? fun x => x.1 == t with
    | some (_, q) =>
      let gap := match c.lastSeq with | some l => (q + 65536 - l - 1) % 65536 | none => 0
      { c with lastSeq := some q, lost := if gap < 32768 then min 0xFFFF (c.lost + gap) else c.lost
               pkts := c.pkts.filter fun x => x.1 != t }
    | none => c
  match Memory.get (fun _ => none) c.buf t with
  | some ws =>
    let ys := ws.map fun w => fadeIn32 c.fadePos (rxSample c.fmt w)
    (some ys, { c with buf := Memory.set (fun _ => none) c.buf t none, heard := true, fadePos := min 32 (c.fadePos + 1)
                       vuc := if c.fmt = 2 then ws.map (· / 2 ^ 24) else c.vuc })
  | none => (none, { c with fadePos := if c.heard then 0 else c.fadePos })

/-- R341: at tick `n` of domain `k` each context of the domain releases the samples due: the SIDs written. -/
def NetSys.releaseTick (s : NetSys) (k n : Nat) : List (Nat × Nat × Word) × NetSys :=
  (s.rx.map Prod.fst).foldl (fun (r : List (Nat × Nat × Word) × NetSys) i =>
    let c := r.2.rxc i
    if c.used && c.dom == k then
      let (ys, c') := c.release (wrapN 32 ((n : Int) + r.2.offsetOf k - c.lo))
      let ws := match ys with | some ys => (c.sids.zip ys).map fun w => (i, w.1, w.2) | none => []
      (r.1 ++ ws, r.2.setRx i c')
    else r) ([], s)

/-- R340, R342: a stream on its sender's clock releases its next sample, 0 for a missing one, to the lanes that it feeds. -/
def NetSys.releaseOwn (s : NetSys) (i ns : Nat) : Option (List Word) × NetSys :=
  let c := s.rxc i
  if c.used && c.dom = 3 && c.present && c.relAt ≤ ns then
    let r := c.release c.lastTs
    (some (r.1.getD []), s.setRx i { r.2 with lastTs := (c.lastTs + 1) % 2 ^ 32 })
  else (none, s)

/-- R354: the `k` samples from timestamp `t` on, whose release ticks are skipped, are discarded; they are no loss. -/
def RxCtx.skip (c : RxCtx) (t k : Nat) : RxCtx :=
  let gone := fun (x : Nat) => decide ((x + 2 ^ 32 - t) % 2 ^ 32 < k)
  { c with buf := c.buf.filter fun e => !gone e.1, pkts := c.pkts.filter fun x => !gone x.1
           lastSeq := match (c.pkts.filter fun x => gone x.1).getLast? with | some x => some x.2 | none => c.lastSeq }

/-- R339, R354: a step of domain `k`, in the tick that opens period `n`, by `j` samples adds `j` to O_d. -/
def NetSys.stepOffset (s : NetSys) (k n : Nat) (j : Int) : NetSys :=
  let rx := if j ≤ 0 then s.rx else s.rx.map fun e =>
    if e.2.used && e.2.dom == k then (e.1, e.2.skip (wrapN 32 ((n : Int) + s.offsetOf k - e.2.lo)) j.toNat) else e
  { s with od := Memory.set (fun _ => 0) s.od k (wrapN 32 ((s.offsetOf k : Int) + j)), rx := rx }

/-- R343: a leg without packets for 1 ms clears its LEG_OK bit. -/
def NetSys.legLoss (s : NetSys) (n i ns : Nat) : NetSys :=
  let c := s.rxc n
  if c.used && leg c.legOk i && (!(s.port i).link || leg c.lastNs i + 1000000 ≤ ns) then
    s.setRx n { c with legOk := setLeg c.legOk i false }
  else s

/-- R347: the time without an accepted packet after which a context is not present, in ns. -/
def RxCtx.holdNs (c : RxCtx) : Nat := max (4 * c.ptime * 1000000000 / max 1 c.hz) 1000000

/-- R347: the context stops being present. -/
def NetSys.streamLoss (s : NetSys) (n ns : Nat) : NetSys :=
  let c := s.rxc n
  if c.used && c.present && max c.lastNs.1 c.lastNs.2 + c.holdNs < ns then
    (s.setRx n { c with present := false, ssrc := none, legOk := (false, false), lastSeq := none, pkts := [] }).note
      0x0703 8 n c.dom false
  else s

/-! ### Transmission (R336 to R338, R344, R345) -/

/-- R336, R337: the bytes of one sample in a packet, and whether it was limited; `label` the AM824 label bits. -/
def txSample (fmt label : Nat) (x : Word) : List Byte × Bool :=
  let (w, sat) := toPcm (if fmt = 0 then 16 else 24) x
  (if fmt = 2 then beBytes 1 label ++ beBytes 3 w else beBytes (fmtBytes fmt) w, sat)

/-- R344: at tick `n` of its domain context `i` takes the samples `xs` of period n − 1 into the packet being built.
`labels` gives the AM824 label of each channel. DEDUCED (log 84): the departure is that of R344, tick m + PTIME + 1, where R43 counted
with R41 and R42 gives one tick more. -/
def NetSys.packetise (s : NetSys) (i n : Nat) (xs : List Word) (labels : List Nat) : NetSys :=
  let c := s.txc i
  if n = 0 then s
  else
    let m := n - 1
    let startNow := decide ((((m : Int) - c.phase) % (max 1 c.ptime : Nat)) = 0)
    let c := if startNow then { c with cur := some ((s.mediaCount c.dom m + c.tsOff) % 2 ^ 32, []), count := 0 } else c
    match c.cur with
    | none => s.setTx i c
    | some (ts, acc) =>
      let enc := (List.range xs.length).map fun j => txSample c.fmt (labels.getD j 0) (xs.getD j 0)
      let acc := acc ++ enc.flatMap Prod.fst
      let sats := (enc.filter Prod.snd).length
      let c := { c with sat := min 0xFFFF (c.sat + sats), count := c.count + 1, cur := some (ts, acc), blk := (c.blk + 1) % 192 }
      if c.count = c.ptime then
        s.setTx i { c with cur := none, count := 0, sent := true, ready := c.ready ++ [⟨m - (c.ptime - 1) + c.ptime + 1, ts, acc⟩] }
      else s.setTx i c

/-- R338, R344, R345: the oldest packet of context `i` departs at PTP instant `ns`. `seq0` is the open start of its
sequence numbers; `on` says that ports may transmit. -/
def NetSys.depart (s : NetSys) (doms : Nat → Dom) (i ns now seq0 : Nat) (on : Bool) : NetSys :=
  let c := s.txc i
  match c.ready with
  | [] => s
  | k :: rest =>
    let d := doms c.dom
    let due := tickNs d ((k.tick : Int) - d.count) + c.sigma
    let tol : Nat := if c.cls = 2 then 20000 else 1000
    let seq := match c.seq with | some q => q | none => seq0 % 65536
    let off := decide (((ns : Int) - due).natAbs > tol)
    let c := { c with ready := rest, seq := some ((seq + 1) % 65536), late := if off then incSat 0xFFFF c.late else c.late }
    let s := s.setTx i c
    let rtp := beBytes 1 0x80 ++ beBytes 1 c.pt ++ beBytes 2 seq ++ beBytes 4 k.ts ++ beBytes 4 c.ssrc ++ k.payload
    [0, 1].foldl (fun s l =>
      let p := s.port l
      if !c.ports.testBit l then s
      else if !on || !p.en || !p.link then
        let c := s.txc i
        s.setTx i { c with late := incSat 0xFFFF c.late }
      else
        let dst := leg c.addr l
        match p.resolve dst with
        | some mac =>
          let port := leg c.udp l
          s.send l (ethFrame p mac 0x0800 (ipv4 p (c.dscp * 4) 17 dst [] (udp p dst port port rtp)))
        | none => s.wantArp l dst now) s

/-! ### Link and cages (R325, R326, R330) -/

/-- R325, R330: port `i` gains link. -/
def NetSys.linkUp (s : NetSys) (i now : Nat) : NetSys :=
  let p := s.port i
  if p.link then s
  else
    let s := (s.setPort i { p with link := true, blkLock := true, hiBer := false, los := false, garp := p.en }).note 0x0700 6 i 3 true
    let s := if p.en then s.send i (arpRequest p p.ip.toNat) else s
    s.elect i now false

/-- R325: port `i` loses link. -/
def NetSys.linkDown (s : NetSys) (i now : Nat) (los blk ber : Bool) : NetSys :=
  let p := s.port i
  let p' := { p with link := false, los := los, blkLock := blk, hiBer := ber, garp := false, resend := [], queries := [] }
  if los || !blk || ber then
    let s := s.setPort i p'
    let s := if p.link then s.note 0x0700 6 i 3 false else s
    s.elect i now false
  else s

/-- R330: the second gratuitous request, 1 s after link up. -/
def NetSys.garpAgain (s : NetSys) (i : Nat) : NetSys :=
  let p := s.port i
  if p.garp && p.link then (s.setPort i { p with garp := false }).send i (arpRequest p p.ip.toNat) else s

/-- R326, R355: a write of NET_I2C. -/
def NetSys.writeI2c (s : NetSys) (v : Word) : NetSys :=
  if s.i2c.flag 31 then s
  else
    let dev := if v.fld 17 7 = 0x50 || v.fld 17 7 = 0x51 then v.fld 17 7 else s.i2c.fld 17 7
    { s with i2c := BitVec.ofNat 32 ((v.fld 31 1) <<< 31 + (s.i2c.fld 30 1) <<< 30 + (v.fld 27 1) <<< 27
        + (v.fld 26 1) <<< 26 + dev <<< 17 + v.fld 0 16) }

/-- R326: the transfer in progress completes. -/
def NetSys.i2cDone (s : NetSys) (ack : Bool) (data : Nat) : NetSys :=
  if !s.i2c.flag 31 then s
  else
    let w := (s.i2c.setFlag 31 false).setFlag 30 (!ack)
    { s with i2c := if ack && !w.flag 26 then w.setFld 0 8 data else w }

/-! ### Registers (R355) -/

/-- The NET_ register at offset `o`. -/
def NetSys.readReg (s : NetSys) (o : Nat) : Word :=
  let b := fun (x : Bool) (i : Nat) => if x then 2 ^ i else 0
  if o < 0x080 then
    let p := s.port (o / 0x40)
    match o % 0x40 with
    | 0x00 => p.ctl
    | 0x04 => BitVec.ofNat 32 (b p.conflict 4 + b p.hiBer 3 + b p.blkLock 2 + b p.los 1 + b p.link 0)
    | 0x08 => p.macLo
    | 0x0C => p.macHi
    | 0x10 => p.ip
    | 0x14 => p.mask
    | 0x18 => p.gw
    | 0x1C => p.vlan
    | 0x20 => p.ipcfg.setFlag 16 p.compat.isSome
    | 0x24 => p.rxFrames
    | 0x28 => p.rxDrop
    | 0x2C => p.rxFcs
    | 0x30 => p.txFrames
    | _ => 0
  else
    let n := s.ctxSel.fld 0 10
    let t := s.txc n
    let r := s.rxc n
    let tx := s.ctxSel.flag 31
    match o with
    | 0x080 => s.i2c
    | 0x084 => s.ctxSel
    | 0x088 =>
      if tx then BitVec.ofNat 32 (b t.used 31 + b t.sent 30 + t.cls <<< 24 + t.part <<< 22 + (match t.sids with | r :: _ => r.b | [] => 0))
      else BitVec.ofNat 32 (b r.used 31 + b r.present 30 + b r.legOk.2 29 + b r.legOk.1 28 + b r.ssrc.isSome 27
        + r.cls <<< 24 + r.part <<< 22 + r.sid)
    | 0x08C => if tx then BitVec.ofNat 32 (t.late <<< 16 + t.sat) else BitVec.ofNat 32 (r.late <<< 16 + r.early)
    | 0x090 => if tx then 0 else BitVec.ofNat 32 (r.dup <<< 16 + r.lost)
    | 0x094 => if tx then BitVec.ofNat 32 (t.phase <<< 16 + t.sigma) else 0
    | _ => 0

/-- R355: a write of NET_n_CTL, EN included. -/
def NetSys.writeCtl (s : NetSys) (i : Nat) (v : Word) (now : Nat) : NetSys :=
  let p := s.port i
  let speed := if p.en then p.ctl.fld 4 1 else v.fld 4 1
  let p' := { p with ctl := BitVec.ofNat 32 ((v.fld 8 1) <<< 8 + speed <<< 4 + v.fld 0 1) }
  let p' := if p.en && !v.flag 0 then { p' with arp := [], garp := false, resend := [], queries := [] } else p'
  (s.setPort i p').elect i now false

/-- R355: a write of a NET_ register other than NET_n_CTL and NET_I2C. -/
def NetSys.writePlain (s : NetSys) (o : Nat) (v : Word) : NetSys :=
  if o < 0x080 then
    let i := o / 0x40
    let p := s.port i
    match o % 0x40 with
    | 0x04 => s.setPort i { p with conflict := p.conflict && !v.flag 4 }
    | 0x08 => if p.en then s else s.setPort i { p with macLo := v }
    | 0x0C => if p.en then s else s.setPort i { p with macHi := v &&& 0xFFFF }
    | 0x10 => if p.en then s else s.setPort i { p with ip := v }
    | 0x14 => if p.en then s else s.setPort i { p with mask := v }
    | 0x18 => if p.en then s else s.setPort i { p with gw := v }
    | 0x1C =>
      if p.en || (v.flag 16 && (v.fld 0 12 = 0 || v.fld 0 12 = 4095)) then s
      else s.setPort i { p with vlan := v &&& 0x1EFFF }
    | 0x20 =>
      let rob := if 1 ≤ v.fld 8 4 && v.fld 8 4 ≤ 7 then v.fld 8 4 else p.ipcfg.fld 8 4
      let ttl := if v.fld 0 8 = 0 then p.ipcfg.fld 0 8 else v.fld 0 8
      s.setPort i { p with ipcfg := BitVec.ofNat 32 (rob <<< 8 + ttl) }
    | _ => s
  else match o with
    | 0x084 => { s with ctxSel := v &&& 0x800003FF }
    | _ => s

end Sys2Proof.Machine
end

