-- ==== Sys2Proof/Machine/PowerState.lean ====
section
/-!
DEFINITION. The state of the power controller, the supplies and the JTAG port (R461 to R472, R503 to R506, R517).
-/

namespace Sys2Proof.Machine

/-- The power states with the steps between them (R461, R465, R472). -/
inductive PwrPhase where
  | run | quiescing | standby | dormant | off
deriving DecidableEq, Repr

/-- The power controller. Times are device uptime in µs: `idleAt` is when the idle timer expires, `entered` when Standby
or Dormant was entered. `stopped` counts the blocks of R465 that have stopped, `toDormant` is the state asked for. `gated`
lists gated units as (0 Facet, 1 tile, 2 lane group; number). `wakeN` and `wakeArmed` are the WAKE_N pin's level and its
arming; `wakeOut` drives PCIE_WAKE_N low; `pads` is PWR_PADREL.RELEASED. `railsOut` has a bit per rail
out of its operating range, `hot` that TEMP_LIMIT is in force, `temp` is the sensor's code. -/
structure Power where
  phase     : PwrPhase
  toDormant : Bool
  stopped   : Nat
  idleS     : Nat
  idleAt    : Nat
  abortWake : Bool
  wakeSrc   : Nat
  refused   : Option (Nat × Nat)
  aonS      : Nat
  entered   : Nat
  pads      : Bool
  bor       : Bool
  borCount  : Nat
  gated     : List (Nat × Nat)
  wakeN     : Bool
  wakeOut   : Bool
  railsOut  : Nat
  hot       : Bool
  temp      : Nat
deriving DecidableEq, Repr

/-- The controller at POR (R472). -/
def Power.reset : Power where
  phase := .run
  toDormant := false
  stopped := 0
  idleS := 30
  idleAt := 30000000
  abortWake := false
  wakeSrc := 0
  refused := none
  aonS := 0
  entered := 0
  pads := true
  bor := false
  borCount := 0
  gated := []
  wakeN := true
  wakeOut := false
  railsOut := 0
  hot := false
  temp := 0

/-- The JTAG instruction in force (R517). -/
inductive JtagInstr where
  | idcode | bypass | sample | extest | highz | clamp | pulse | train
deriving DecidableEq, Repr

/-- The JTAG port: instruction, and the boundary cells' update values, which EXTEST and CLAMP drive. -/
structure Jtag where
  ir    : JtagInstr
  cells : List Bool
deriving DecidableEq, Repr

/-- The TAP after reset; PRESUMED (IEEE 1149.1): IDCODE is the instruction in force. -/
def Jtag.reset : Jtag where
  ir := .idcode
  cells := []

end Sys2Proof.Machine
end

