-- ==== Sys2Proof/Machine/Power.lean ====
section
/-!
DEFINITION. The power controller's own operations and registers, and the JTAG port (R461 to R472, R517). What blocks do
when they stop lies with the operations over the whole state.
-/

namespace Sys2Proof.Machine

/-- R461: whether core logic runs. -/
def Power.awake (p : Power) : Bool := p.phase == .run || p.phase == .quiescing

/-- R463: the idle timer reloads at uptime `now`. -/
def Power.reload (p : Power) (now : Nat) : Power := { p with idleAt := now + p.idleS * 1000000 }

/-- R466: a refusal by block `b` for reason `r`. -/
def Power.refuse (p : Power) (b r now : Nat) : Power := { p with refused := some (b, r), phase := .run, stopped := 0 }.reload now

/-- R464: an entry request that the controller takes up. -/
def Power.request (p : Power) (dormant : Bool) : Power := { p with phase := .quiescing, toDormant := dormant, stopped := 0 }

/-- R465: the second phase: entry completes. -/
def Power.enter (p : Power) (now : Nat) : Power :=
  { p with phase := if p.toDormant then .dormant else .standby, entered := now, stopped := 0,
           pads := if p.toDormant then false else p.pads }

/-- R472: seconds left on the AON timer. -/
def Power.aonLeft (p : Power) (now : Nat) : Nat :=
  if p.phase = .standby ∨ p.phase = .dormant then p.aonS - (now - p.entered) / 1000000 else p.aonS

/-- R462: a unit becomes active again. -/
def Power.ungate (p : Power) (kind n : Nat) : Power := { p with gated := p.gated.filter (· != (kind, n)) }

/-- R462: a unit is gated. -/
def Power.gate (p : Power) (kind n : Nat) : Power := { p.ungate kind n with gated := (p.ungate kind n).gated ++ [(kind, n)] }

/-- R472: PWR_STAT.STATE. -/
def PwrPhase.code : PwrPhase → Nat
  | .quiescing => 1
  | .standby => 2
  | .dormant => 4
  | _ => 0

/-- The PWR_ register at offset `o`. -/
def Power.readReg (p : Power) (now o : Nat) : Word :=
  if o = 0 then BitVec.ofNat 32 p.idleS
  else if o = 4 then BitVec.ofNat 32 (p.phase.code + (if p.abortWake then 16 else 0) + p.wakeSrc <<< 8)
  else if o = 8 then
    match p.refused with
    | some (b, r) => BitVec.ofNat 32 (2 ^ 31 + b <<< 8 + r)
    | none => 0
  else if o = 0xC then BitVec.ofNat 32 (p.aonLeft now)
  else if o = 0x10 then BitVec.ofNat 32 (if p.pads then 1 else 0)
  else if o = 0x14 then BitVec.ofNat 32 (p.borCount <<< 16 + if p.bor then 1 else 0)
  else if o = 0x18 then
    let n := fun k => (p.gated.filter fun g => g.1 == k).length
    BitVec.ofNat 32 (n 2 <<< 16 + n 1 <<< 8 + n 0)
  else 0

/-- R463, R472: a write of a PWR_ register by P0's host or the Setter; PWR_PADREL is a command of its own. -/
def Power.writeReg (p : Power) (now o : Nat) (v : Word) : Power :=
  if o = 0 then
    let s := v.fld 0 17
    if s > 86400 then p
    else if p.idleS = 0 then { p with idleS := s }.reload now
    else { p with idleS := s }
  else if o = 4 then { p with abortWake := p.abortWake && !v.flag 4 }
  else if o = 8 then { p with refused := if v.flag 31 then none else p.refused }
  else if o = 0xC then { p with aonS := if v.fld 0 17 > 86400 then p.aonS else v.fld 0 17 }
  else if o = 0x14 then { p with bor := p.bor && !v.flag 0 }
  else p

/-- R471: brown-out: the AON domain resets; PWR_BOR survives. -/
def Power.brownOut (p : Power) : Power :=
  { Power.reset with bor := true, borCount := incSat 0xFFFF p.borCount, wakeN := p.wakeN, railsOut := p.railsOut,
                     temp := p.temp, hot := p.hot }

/-! ### JTAG (R517) -/

def idcodeBits : List Bool := (List.range 32).map fun i => Nat.testBit 0x18064A3D i

/-- What a register that has captured `cap` gives on TDO while `bits` are shifted in. -/
def shiftOut (cap bits : List Bool) : List Bool := (cap ++ bits).take bits.length

/-- What the register holds then, first bit nearest TDO. -/
def shiftIn (cap bits : List Bool) : List Bool := (cap ++ bits).drop bits.length

end Sys2Proof.Machine
end

