-- ==== Sys2Proof/Machine/Asm.lean ====
section
/-!
DEFINITION. The words of a bundle's slots from the tables of R102 to R122, written in the notation of R128: what the Setter
writes into a program bank for the library kernels.
-/

namespace Sys2Proof.Machine

/-! ### The slots -/

/-- R102: a bundle from its slots. -/
def bun (mac alu x y z seq : Nat) : Nat := mac <<< 88 + alu <<< 60 + x <<< 44 + y <<< 28 + z <<< 12 + seq

/-- R107: a MAC slot with S = 1, without a guard. `q` is Q, `cmb` CMB. -/
def macSat (op cmb q acc ra rb : Nat) : Nat :=
  op <<< 36 + 1 <<< 35 + q <<< 33 + cmb <<< 31 + acc <<< 28 + ra <<< 22 + rb <<< 16

/-- R108: M4C and M4S with CMB replace (0), add (1) or subtract (2), coefficients Q4.28, and the same with Q1.31. -/
def m4c (cmb acc ra rb : Nat) : Nat := macSat 1 cmb 0 acc ra rb
def m4cQ (cmb acc ra rb : Nat) : Nat := macSat 1 cmb 1 acc ra rb
def m4sQ (cmb acc ra rb : Nat) : Nat := macSat 3 cmb 1 acc ra rb

/-- R111: an ALU/ACS slot of format R without a guard. -/
def aluR (op s dst a b sub : Nat) : Nat := op <<< 23 + s <<< 22 + dst <<< 15 + a <<< 9 + b <<< 3 + sub

/-- The same slot with its G bit set. -/
def guarded (w : Nat) : Nat := w + 1 <<< 21

/-- R112: the operations that the library kernels use. -/
def subOp (d a b : Nat) : Nat := aluR 0x02 0 d a b 0
def negOp (d a : Nat) : Nat := aluR 0x04 0 d a 0 0
def absSat (d a : Nat) : Nat := aluR 0x05 1 d a 0 0
def maxOp (d a b : Nat) : Nat := aluR 0x07 0 d a b 0
def andOp (d a b : Nat) : Nat := aluR 0x08 0 d a b 0
def xorOp (d a b : Nat) : Nat := aluR 0x0A 0 d a b 0
def normOp (d a : Nat) : Nat := aluR 0x0F 0 d a 0 0
def pnot (d a : Nat) : Nat := aluR 0x12 0 d a 0 4
def por (d a b : Nat) : Nat := aluR 0x12 0 d a b 1
def mvaE (d a : Nat) : Nat := aluR 0x14 1 d a 0 1
def acsMax (d a b k : Nat) : Nat := aluR 0x19 1 d a b k
def acsMin (d a b k : Nat) : Nat := aluR 0x1A 1 d a b k

/-- R111, R116: MVS and MVD, format SR. -/
def mvs (d sreg : Nat) : Nat := 0x15 <<< 23 + d <<< 15 + sreg <<< 8
def mvd (sreg d : Nat) : Nat := 0x16 <<< 23 + d <<< 15 + sreg <<< 8

/-- R111: the 16-bit immediate of format K in slot word `w`. -/
def putImm16 (w v : Nat) : Nat := w - fld w 22 1 <<< 22 - fld w 0 15 + fld v 15 1 <<< 22 + fld v 0 15

/-- R112: MOVIL. -/
def movil (d v : Nat) : Nat := putImm16 (0x17 <<< 23 + d <<< 15) v

/-- R118: LOOP on LC0 with its END in the active bank. -/
def loop0 (stop rot count : Nat) : Nat := 0x1E <<< 23 + stop <<< 11 + rot <<< 10 + count

/-- R118, R219: a LOOP of an object whose bundle 0 is loaded at index `base`; another slot word stays. -/
def loadEnd (base w : Nat) : Nat := if aluOp w ≥ 0x1E then w - loopEnd w <<< 11 + ((loopEnd w + base) % 4096) <<< 11 else w

/-- R121: the addressing of a mover: pointer, offset register, mode. -/
structure Adr where
  p  : Nat
  m  : Nat
  am : Nat
deriving DecidableEq, Repr

/-- `[Pn]`, `[Pn+=Mm]`, `[Pn%=Mm]` and `[Pn+Mm]`. -/
def atP (p : Nat) : Adr := ⟨p, 0, 0⟩
def post (p m : Nat) : Adr := ⟨p, m, 1⟩
def circ (p m : Nat) : Adr := ⟨p, m, 2⟩
def offs (p m : Nat) : Adr := ⟨p, m, 3⟩

/-- R119, R120: a mover slot without a guard. -/
def mover (op d : Nat) (a : Adr) : Nat := op <<< 13 + a.p <<< 10 + a.m <<< 8 + d <<< 2 + a.am
def ld1 (d : Nat) (a : Adr) : Nat := mover 1 d a
def ld2 (d : Nat) (a : Adr) : Nat := mover 2 d a
def ld4 (d : Nat) (a : Adr) : Nat := mover 3 d a
def st1 (d : Nat) (a : Adr) : Nat := mover 4 d a
def st2 (d : Nat) (a : Adr) : Nat := mover 5 d a
def st4 (d : Nat) (a : Adr) : Nat := mover 6 d a
def pmod (a : Adr) : Nat := mover 7 0 a

/-- R122: sequencer slots. -/
def seqIf (pf : Nat) : Nat := pf <<< 9
def seqHalt : Nat := 1 <<< 4
def seqRotclr : Nat := 4 <<< 4

/-- Bundles in which only one or two slots are no NOP. -/
def alu1 (w : Nat) : Nat := bun 0 w 0 0 0 0
def mac1 (w : Nat) : Nat := bun w 0 0 0 0 0

/-! ### Whole programs -/

/-- R171: a bundle with sequencer operation `sop`. -/
def putSop (b sop : Nat) : Nat := b - fld b 4 4 <<< 4 + sop <<< 4

/-- R118: a bundle of an object that is loaded at index `base`. -/
def loadBundle (base b : Nat) : Nat := b - (slotsOf b).alu <<< 60 + loadEnd base (slotsOf b).alu <<< 60

/-- R220: a bundle whose MOVIL takes the 16-bit immediate `v`. -/
def patchImm (b v : Nat) : Nat := b - (slotsOf b).alu <<< 60 + putImm16 (slotsOf b).alu v <<< 60

end Sys2Proof.Machine
end

