-- ==== Sys2Proof/Machine/Graph.lean ====
section
/-!
DEFINITION. A partition's graph as the Setter holds it (R209 to R222): nodes with their parameters and what placement gave
them, edges, latency groups, kernel objects.
-/

namespace Sys2Proof.Machine

/-- A refusal of a transaction or command (R228, R237, R410): status, file offset, and the detail fields. -/
structure Refuse where
  code  : Nat
  off   : Nat
  sub   : Nat
  inst  : Nat
  need  : Nat
  have_ : Nat
deriving DecidableEq, Repr

/-- What ERR_OFFSET holds when there is none (R410). -/
def noOffset : Nat := 0xFFFFFFFF

/-- A format refusal (R228). -/
def Refuse.at (code off : Nat) : Refuse := ⟨code, off, 0, 0, 0, 0⟩

/-- An admission refusal (R237). -/
def Refuse.adm (code sub inst need have_ : Nat) : Refuse := ⟨code, noOffset, sub, inst, need, have_⟩

/-- A node (R209). `slots` are its parameter slots (word 0, word 1); `adm` its admission sequence number (R60). `sids` gives
the SID of each output channel; `cross` lists the output channels of a SUM that are placed across tiles (R239); `pads` the
padding in samples on an output channel, `hops` the delay hops before its inputs (input, pad in samples, SID; R46); `ctx` the stream context, `lanes` the lanes of a LINK. `off` is the byte offset of
the node's entry in the file being judged. -/
structure GNode where
  id    : Nat
  typ   : Nat
  cls   : Nat
  dom   : Nat
  nIn   : Nat
  nOut  : Nat
  name  : List Byte
  attr  : List Byte
  slots : List (Word × Word)
  adm   : Nat
  sids  : List Nat
  cross : List Nat
  pads  : List (Nat × Nat)
  hops  : List (Nat × Nat × Nat)
  ctx   : Nat
  lanes : List Nat
  off   : Nat
deriving DecidableEq, Repr

/-- An edge of `width` channels (R214); source 0xFFFFFFFF is the shared SID `srcCh`. -/
structure GEdge where
  src   : Nat
  srcCh : Nat
  dst   : Nat
  dstCh : Nat
  width : Nat
  off   : Nat
deriving DecidableEq, Repr

/-- What SRC_NODE holds for a shared SID. -/
def sharedSid : Nat := 0xFFFFFFFF

/-- A member record of a latency group (R221). -/
structure GMember where
  src   : Nat
  srcCh : Nat
  snk   : Nat
  snkCh : Nat
  width : Nat
  off   : Nat
deriving DecidableEq, Repr

/-- A latency group (R221): the target named with it, 0 for the longest member; `stood` is the target in force (R61). -/
structure GGroup where
  target  : Nat
  stood   : Nat
  name    : List Byte
  members : List GMember
  off     : Nat
deriving DecidableEq, Repr

/-- A partition's graph. -/
structure Graph where
  nodes  : List GNode
  edges  : List GEdge
  groups : List GGroup
  objs   : List (List Byte)
deriving DecidableEq, Repr

def Graph.empty : Graph := ⟨[], [], [], []⟩

/-- Node types (R210). -/
def tSrcPort : Nat := 1
def tSnkPort : Nat := 2
def tSrcStream : Nat := 3
def tSnkStream : Nat := 4
def tKernel : Nat := 5
def tSum : Nat := 6
def tDelay : Nat := 7
def tLink : Nat := 8
def tTapIn : Nat := 9
def tTapOut : Nat := 10
def tMeter : Nat := 11
def tConst : Nat := 12

/-- ATTR fields. -/
def GNode.a8 (n : GNode) (o : Nat) : Nat := le n.attr o 1
def GNode.a16 (n : GNode) (o : Nat) : Nat := le n.attr o 2
def GNode.a32 (n : GNode) (o : Nat) : Nat := le n.attr o 4

/-- The domain on a node's output side: OUT_DOMAIN for a LINK (R210). -/
def GNode.outDom (n : GNode) : Nat := if n.typ = tLink then n.a8 1 else n.dom

def Graph.node (g : Graph) (id : Nat) : Option GNode := g.nodes.find? (·.id == id)
def Graph.setNode (g : Graph) (n : GNode) : Graph := { g with nodes := g.nodes.map fun m => if m.id = n.id then n else m }

/-- The edge that feeds input channel `c` of node `id`, and the source channel that reaches it (R214). -/
def Graph.feed (g : Graph) (id c : Nat) : Option (Nat × Nat) :=
  (g.edges.find? fun e => e.dst == id && e.dstCh ≤ c && c < e.dstCh + e.width).map fun e => (e.src, e.srcCh + (c - e.dstCh))

/-- Padding on output channel `ch` of a node, and the delay hop before input `c` (pad, SID). -/
def GNode.pad (n : GNode) (ch : Nat) : Nat := ((n.pads.find? (·.1 == ch)).map (·.2)).getD 0
def GNode.hop (n : GNode) (c : Nat) : Option (Nat × Nat) := (n.hops.find? (·.1 == c)).map (·.2)
def GNode.hopPad (n : GNode) (c : Nat) : Nat := ((n.hop c).map (·.1)).getD 0

/-- The SID that feeds input channel `c` of node `id`: 0 when nothing does (R215). -/
def Graph.feedSid (g : Graph) (id c : Nat) : Nat :=
  match g.feed id c with
  | none => 0
  | some (s, ch) =>
    if s = sharedSid then ch else
    match g.node s with
    | none => 0
    | some n => n.sids.getD ch 0

/-- The SID that input channel `c` of node `id` reads: a delay hop's before it (R46), else the one that feeds it. -/
def Graph.inSid (g : Graph) (id c : Nat) : Nat :=
  match (g.node id).bind fun n => n.hop c with
  | some h => h.2
  | none => g.feedSid id c

/-- What is left of an edge when the inputs `[c, c + w)` of its destination lose their feed. -/
def GEdge.cut (e : GEdge) (c w : Nat) : List GEdge :=
  let lo := min e.width (c - e.dstCh)
  let hi := (c + w) - e.dstCh
  if e.dstCh + e.width ≤ c ∨ c + w ≤ e.dstCh then [e]
  else
    (if lo = 0 then [] else [{ e with width := lo }]) ++
    (if hi < e.width then [{ e with srcCh := e.srcCh + hi, dstCh := e.dstCh + hi, width := e.width - hi }] else [])

/-- The graph without the edges that feed the inputs `[c, c + w)` of node `id`. -/
def Graph.unfeed (g : Graph) (id c w : Nat) : Graph :=
  { g with edges := g.edges.flatMap fun e => if e.dst = id then e.cut c w else [e] }

/-- The crosspoint slot of a SUM: input, output, gain word (R216). -/
def xpIn (w : Word) : Nat := w.fld 0 16
def xpOut (w : Word) : Nat := w.fld 16 16

/-- Domains that a graph uses, as a bit mask: numbered domains of its nodes, both sides of a LINK. -/
def Graph.domains (g : Graph) : Nat :=
  g.nodes.foldl (fun m n => (if n.dom < 3 then m ||| 2 ^ n.dom else m) ||| (if n.outDom < 3 then 2 ^ n.outDom else 0)) 0

/-- Admissions of a graph: (sequence number, class), each once. -/
def Graph.admissions (g : Graph) : List (Nat × Nat) :=
  (g.nodes.map fun n => (n.adm, n.cls)).eraseDups

end Sys2Proof.Machine
end

