-- ==== Sys2Proof/Machine/Kernel.lean ====
section
/-!
DEFINITION. Kernel objects (R218 to R220) and the Setter's examination of their bundles (R125, R127, R155, R163, R167).
-/

namespace Sys2Proof.Machine

/-- The header of a kernel object (R219). -/
structure KObj where
  len    : Nat
  n      : Nat
  flags  : Nat
  pstub  : Nat
  rstub  : Nat
  save   : Nat
  xw     : Nat
  yw     : Nat
  zw     : Nat
  inCh   : Nat
  outCh  : Nat
  params : Nat
  nreloc : Nat
  resv   : Nat
deriving DecidableEq, Repr

/-- R219: the header at the front of an object's bytes. -/
def kobj (b : List Byte) : KObj where
  len := le b 0 4
  n := le b 4 2
  flags := le b 6 2
  pstub := le b 8 2
  rstub := le b 10 2
  save := le b 12 2
  xw := le b 14 2
  yw := le b 16 2
  zw := le b 18 2
  inCh := le b 20 2
  outCh := le b 22 2
  params := le b 24 2
  nreloc := le b 26 2
  resv := le b 28 4

/-- R219: the length that the counts of the header give. -/
def KObj.size (k : KObj) : Nat := 32 + 16 * k.n + 8 * k.nreloc
def KObj.bg (k : KObj) : Bool := k.flags % 2 == 1

/-- R70: bundle `i` of an object. -/
def kobjBundle (b : List Byte) (i : Nat) : Nat := le b (32 + 16 * i) 16

/-- The bundles of an object. -/
def kobjBundles (b : List Byte) : List Nat := (List.range (kobj b).n).map (kobjBundle b)

/-- R127: the first illegal slot of a bundle at index `ix`, MAC 0 to sequencer 5. -/
def bundleIllegal (b ix : Nat) : Option Nat :=
  let s := slotsOf b
  if macIllegal s.mac then some 0
  else if aluIllegal s.alu ix then some 1
  else if moverIllegal .x s.x then some 2
  else if moverIllegal .y s.y then some 3
  else if moverIllegal .z s.z then some 4
  else if seqIllegal s.seq then some 5
  else none

/-- A register or memory, as the stub rules count them. D32 to D63 rotate (R156) and count as one. -/
inductive Res where
  | d (k : Nat) | acc (k : Nat) | sp (k : Nat) | pf (k : Nat) | sv (k : Nat) | mem (m : FMem)
deriving DecidableEq, Repr

/-- A D register under the rotation of R156. -/
def resD (k : Nat) : Res := .d (if k < 32 then k else 32)

/-- What an effect writes. -/
def effRes : Eff → List Res
  | .d k _ => [resD k]
  | .acc k _ => [.acc k]
  | .accPart k _ _ => [.acc k]
  | .sp k _ => [.sp k]
  | .rotDec => [.sp spROTB]
  | .pf k _ => [.pf k]
  | .pfAll _ => (List.range 7).map fun k => .pf (k + 1)
  | .sv k _ => [.sv k]
  | .svHalf k _ _ => [.sv k]
  | .mem m _ _ => [.mem m]
  | .stat _ => []
  | .frame _ _ => []

/-- R107 to R121: what a bundle writes, with the latency of each write. -/
def bundleWrites (b : Nat) : List (Nat × Res) :=
  let s := slotsOf b
  let u := Facet.reset.u
  let op := aluOp s.alu
  let alu : Landings :=
    if op = 0x19 ∨ op = 0x1A then acsExec u s.alu
    else if op = 0x1B ∨ op = 0x1D then dLand u 1 (aluDst s.alu) 0
    else if op ≥ 0x1E then [(1, .sp (spLC (loopN s.alu)) 0)]
    else aluExec u s.alu
  let seq : List (Nat × Res) := if seqSop s.seq = 4 then [(1, .sp spROTB)] else []
  let mv := fun (m : FMem) (w : Nat) => (moverExec Facet.reset m w).2
  ((macExec u s.mac ++ alu ++ mv .x s.x ++ mv .y s.y ++ mv .z s.z).flatMap fun e => (effRes e.2).map fun r => (e.1, r)) ++ seq

/-- The D registers `k` to `k + n - 1`. -/
def resRun (k n : Nat) : List Res := (List.range n).map fun i => resD (k + i)

/-- R109: what a MAC slot reads. -/
def macReads (w : Nat) : List Res :=
  let op := macOp w
  let acc := macAcc w
  let n := if op = 1 ∨ op = 3 ∨ op = 5 then 4 else if op = 2 ∨ op = 4 ∨ op = 8 ∨ op = 10 then 1 else 2
  let old : List Res :=
    if op = 10 ∨ macCmb w = 1 ∨ macCmb w = 2 then (List.range n).map fun i => .acc (acc + i) else []
  match op with
  | 0 => []
  | 1 | 2 | 3 | 4 => resRun (macRa w) 1 ++ resRun (macRb w) 4 ++ old
  | 5 | 6 => resRun (macRa w) 2 ++ resRun (macRb w) 4 ++ old
  | 7 => resRun (macRa w) 2 ++ resRun (macRb w) 2 ++ old
  | 8 => resRun (macRa w) 1 ++ old
  | 9 => resRun (macRa w) 1
  | _ => old

/-- R116: the register that a special-register code names. -/
def sregRes (k : Nat) : List Res :=
  if k ≤ 0x2A then [.sp k]
  else if k = 0x2B then (List.range 7).map fun i => .pf (i + 1)
  else if 0x30 ≤ k ∧ k ≤ 0x37 then [.sv ((k - 0x30) / 2)]
  else if 0x40 ≤ k ∧ k < 0x60 then [.acc ((k - 0x40) / 4)]
  else []

/-- R112 to R118: what an ALU/ACS slot reads. -/
def aluReads (w : Nat) : List Res :=
  let a := aluA w
  let b := aluB w
  let ab := [resD a, resD b]
  match aluOp w with
  | 0x03 | 0x04 | 0x05 | 0x0F | 0x11 => [resD a]
  | 0x01 | 0x02 | 0x06 | 0x07 | 0x08 | 0x09 | 0x0A | 0x10 => ab
  | 0x0B | 0x0C | 0x0D | 0x0E => if aluSub w % 2 = 1 then [resD a] else ab
  | 0x12 => [.pf a, .pf b]
  | 0x13 => .pf (aluSub w) :: ab
  | 0x14 => [.acc a]
  | 0x15 => sregRes (aluSreg w)
  | 0x16 | 0x18 => [resD (aluDst w)]
  | 0x19 | 0x1A => resRun a 2 ++ resRun b 2 ++ [.sv (aluSub w)]
  | 0x1B => [resD a]
  | 0x1C | 0x1D => ab
  | _ => []

/-- R119 to R121: what a mover slot reads: its pointer, offset, circular registers, stored registers, loaded memory. -/
def moverReads (m : FMem) (w : Nat) : List Res :=
  let op := mvOp w
  let am := mvAm w
  if op = 0 then [] else
  [.sp (spP m (mvP w))] ++ (if am ≠ 0 then [.sp (spM m (mvM w))] else []) ++
    (if am = 2 then [.sp (spB m (mvP w)), .sp (spL m (mvP w))] else []) ++
    (if op ≤ 3 then [.mem m] else if op ≤ 6 then resRun (mvD w) (moverWords w) else [])

/-- Whether any operation of the bundle is predicated on its guard flag (R105). -/
def guardReads (b : Nat) : List Res :=
  let s := slotsOf b
  if macG s.mac || aluG s.alu || mvG s.x || mvG s.y || mvG s.z then [.pf (seqPsel s.seq)] else []

/-- What a bundle reads. D registers named by number 32 and above also read ROTB (R156). -/
def bundleReads (b : Nat) : List Res :=
  let s := slotsOf b
  let r := macReads s.mac ++ aluReads s.alu ++ moverReads .x s.x ++ moverReads .y s.y ++ moverReads .z s.z ++ guardReads b
  if r.contains (.d 32) then .sp spROTB :: r else r

/-- R163: the first stub bundle whose read of the resource sees its final value. -/
def resFinal : Res → Nat
  | .d _ => 3
  | .acc _ => 4
  | .sp _ => 1
  | .pf _ => 1
  | .sv _ => 2
  | .mem _ => 2

/-- A LOOP of a program: its index, level and END. -/
structure LoopAt where
  ix    : Nat
  level : Nat
  stop  : Nat
deriving DecidableEq, Repr

/-- The LOOPs of a program. -/
def loopsOf (bs : List Nat) : List LoopAt :=
  ((List.range bs.length).zip bs).filterMap fun e =>
    let w := (slotsOf e.2).alu
    if aluOp w ≥ 0x1E then some ⟨e.1, loopN w, loopEnd w⟩ else none

/-- Whether index `i` lies in the loop's body (R118). -/
def LoopAt.body (l : LoopAt) (i : Nat) : Bool := l.ix < i && i ≤ l.stop

/-- The index of the first bundle from `i` with sequencer operation `sop`. -/
def seqFrom (bs : List Nat) (i sop : Nat) : Option Nat :=
  ((bs.drop i).findIdx? fun b => seqSop (slotsOf b).seq == sop).map (· + i)

/-- R155 items 1 to 3, with a LOOP at the END of a body: the index of an offending bundle. -/
def badLoops (bs : List Nat) : Option Nat :=
  let ls := loopsOf bs
  let inner := ls.find? fun l => ls.any fun o =>
    (o.level == l.level && o.body l.ix) ||
    (o.level == 0 && l.level == 1 && o.body (l.ix + 1) && o.stop < l.stop) ||
    o.stop == l.ix
  match inner with
  | some l => some l.ix
  | none =>
    (((List.range bs.length).zip bs).find? fun e =>
      let sop := seqSop (slotsOf e.2).seq
      (sop == 1 || sop == 2 || sop == 3) && ls.any (·.body e.1)).map (·.1)

/-- R155 item 4: an MVD to LC0 or LC1 outside `[lo, hi)`. -/
def badLcMove (bs : List Nat) (lo hi : Nat) : Option Nat :=
  (((List.range bs.length).zip bs).find? fun e =>
    let w := (slotsOf e.2).alu
    aluOp w == 0x16 && (aluSreg w == 0x28 || aluSreg w == 0x29) && !(lo ≤ e.1 && e.1 < hi)).map (·.1)

/-- R155 item 5: the preempt stub from index `ps` with its YIELD at `y`. -/
def badPreempt (bs : List Nat) (ps y : Nat) : Option Nat :=
  if y + 1 - ps > 52 then some y else
  (((List.range bs.length).zip bs).find? fun e =>
    let s := slotsOf e.2
    let op := aluOp s.alu
    let sop := seqSop s.seq
    ps ≤ e.1 && e.1 ≤ y && (op ≥ 0x1B && op ≤ 0x1F || sop == 1 || sop == 3)).map (·.1)

/-- R155 item 6: the resume stub from index `rs` with its RESUME at `ρ`. -/
def badResume (bs : List Nat) (rs ρ : Nat) : Option Nat :=
  let ls := loopsOf bs
  (((List.range bs.length).zip bs).find? fun e =>
    let s := slotsOf e.2
    rs ≤ e.1 && e.1 ≤ ρ &&
      (aluOp s.alu ≥ 0x1E || (4 ≤ mvOp s.z && mvOp s.z ≤ 6) || ls.any (·.body e.1))).map (·.1)

/-- R155 item 7: background code that writes PZ3 or MZ3. `code` gives the indexes of the background code. -/
def badSaveBase (bs code : List Nat) : Option Nat :=
  code.find? fun i => (bundleWrites (bs.getD i 0)).any fun w => w.2 == .sp (spP .z 3) || w.2 == .sp (spM .z 3)

/-- R155 item 8, R163: a stub bundle that breaks the landing-zone rules. -/
def badLanding (bs code : List Nat) (ps y : Nat) : Option Nat :=
  let wr := code.flatMap fun i => (bundleWrites (bs.getD i 0)).map (·.2)
  ((List.range (y + 1 - ps)).find? fun k =>
    let b := bs.getD (ps + k) 0
    let t := k + 1
    (bundleReads b).any (fun r => wr.contains r && t < resFinal r) ||
    (bundleWrites b).any (fun w =>
      match w.2 with
      | .d _ => wr.contains w.2 && t + w.1 < 3
      | _ => false)).map (· + ps)

/-- R155 item 9, R167: an operation of the resume stub that lands after its RESUME. -/
def badRestore (bs : List Nat) (rs ρ : Nat) : Option Nat :=
  ((List.range (ρ + 1 - rs)).find? fun k =>
    (bundleWrites (bs.getD (rs + k) 0)).any fun w => rs + k + w.1 > ρ + 1).map (· + rs)

/-- R155: the index of a bundle that an item of the list refuses. -/
def kernelRules (k : KObj) (bs : List Nat) : Option Nat :=
  if k.bg then
    match seqFrom bs k.pstub 2, seqFrom bs k.rstub 3 with
    | none, _ => some k.pstub
    | _, none => some k.rstub
    | some y, some ρ =>
      let inP := fun i => k.pstub ≤ i && i ≤ y
      let inR := fun i => k.rstub ≤ i && i ≤ ρ
      let code := (List.range bs.length).filter fun i => !inP i && !inR i
      (badLoops bs).orElse fun _ => (badLcMove bs k.rstub (ρ + 1)).orElse fun _ => (badPreempt bs k.pstub y).orElse fun _ =>
        (badResume bs k.rstub ρ).orElse fun _ => (badSaveBase bs code).orElse fun _ =>
        (badLanding bs code k.pstub y).orElse fun _ => badRestore bs k.rstub ρ
  else (badLoops bs).orElse fun _ => badLcMove bs 0 0

/-- R219: the fields of an object's header are in range. -/
def kobjFields (b : List Byte) : Bool :=
  let k := kobj b
  let bs := kobjBundles b
  let last := seqSop (slotsOf (bs.getD (k.n - 1) 0)).seq
  1 ≤ k.n && k.n ≤ 4096 && k.flags ≤ 1 && k.resv == 0 &&
    (if k.bg then k.pstub < k.n && k.rstub < k.n && 1 ≤ k.save && k.save ≤ 256
     else k.pstub == 0xFFFF && k.rstub == 0xFFFF && k.save == 0 && last ≤ 1)

/-- R220: relocation record `i` of an object is in range and names a bundle with a MOVIL. -/
def relocOk (b : List Byte) (i : Nat) : Bool :=
  let k := kobj b
  let r := slice b (32 + 16 * k.n + 8 * i) 8
  let bun := le r 0 2
  bun < k.n && aluOp (slotsOf ((kobjBundles b).getD bun 0)).alu == 0x17 && le r 2 1 ≤ 7 && (le r 2 1 != 6 || k.bg) && le r 3 1 == 0 &&
    le r 6 2 == 0

/-- R127, R155, R219, R220: the Setter's examination of one object at file offset `off`; a relocation record that fails is
named itself. The bundle index goes to INSTANCE and the slot to SUB, where a rule names them (DESIGN CHOICE, log 41). -/
def kobjCheck (b : List Byte) (off : Nat) : Option Refuse :=
  let bs := kobjBundles b
  let k := kobj b
  if !kobjFields b then some (Refuse.at 0x0C off)
  else match (List.range k.nreloc).find? fun i => !relocOk b i with
    | some i => some (Refuse.at 0x0C (off + 32 + 16 * k.n + 8 * i))
    | none =>
      match ((List.range bs.length).zip bs).findSome? fun e => (bundleIllegal e.2 e.1).map fun s => (e.1, s) with
      | some (i, s) => some { Refuse.at 0x0C off with inst := i, sub := s }
      | none => (kernelRules k bs).map fun i => { Refuse.at 0x0C off with inst := i }

/-- Channel counts and parameter words of a kernel (R218, R219): library kernels by their ID. -/
structure KShape where
  inCh   : Nat
  outCh  : Nat
  params : Option Nat      -- none: 1 + 5S words, S in word 0
  bg     : Bool
deriving DecidableEq, Repr

/-- R218: the shape of a library kernel. -/
def libShape (id : Nat) : Option KShape :=
  if id = 0x80000001 then some ⟨8, 8, none, false⟩
  else if id = 0x80000002 then some ⟨2, 8, some 256, false⟩
  else if id = 0x80000003 then some ⟨1, 1, some 1, false⟩
  else if id = 0x80000004 then some ⟨2, 1, some 2, false⟩
  else none

/-- The shape of the kernel that KOBJ names (R210, R219). -/
def shapeOf (objs : List (List Byte)) (kobjId : Nat) : Option KShape :=
  if kobjId ≥ 2 ^ 31 then libShape kobjId
  else (objs[kobjId]?).map fun b => ⟨(kobj b).inCh, (kobj b).outCh, some (kobj b).params, (kobj b).bg⟩

/-- Number of calls k of a KERNEL node (R210), none when the channel counts are not k × IN_CH and k × OUT_CH. -/
def KShape.calls (s : KShape) (nIn nOut : Nat) : Option Nat :=
  let k := if s.inCh ≠ 0 then nIn / s.inCh else if s.outCh ≠ 0 then nOut / s.outCh else 1
  if k ≥ 1 ∧ nIn = k * s.inCh ∧ nOut = k * s.outCh then some k else none

/-- R218, R219: whether input `i` of a call reaches output `o` of the same call. -/
def kernelReaches (id i o : Nat) : Bool :=
  if id = 0x80000001 then i == o
  else if id = 0x80000002 then i == o / 4
  else true

end Sys2Proof.Machine
end

