-- ==== Sys2Proof/Machine/Library.lean ====
section
/-!
DEFINITION. The library kernels as the Setter loads them (R170 to R176): setup blocks, listings, the words of their areas
and parameter blocks.
-/

namespace Sys2Proof.Machine

/-! ### Setup blocks (R170, R171) -/

/-- SREG codes by their names in R116. -/
def sPX (n : Nat) : Nat := spP .x n
def sPY (n : Nat) : Nat := spP .y n
def sPZ (n : Nat) : Nat := spP .z n
def sMX (n : Nat) : Nat := spM .x n
def sMY (n : Nat) : Nat := spM .y n
def sMZ (n : Nat) : Nat := spM .z n
def sBY (n : Nat) : Nat := spB .y n
def sLY (n : Nat) : Nat := spL .y n

/-- A setup table: the distinct values of the direct entries in order of first appearance, each with its registers. -/
abbrev Setup := List (Nat × List Nat)

/-- R170: the direct entries, one ALU operation per bundle. -/
def setupOps (t : Setup) : List Nat := t.flatMap fun e => movil 31 e.1 :: e.2.map fun r => mvd r 31

/-- R170: the setup block with the parameter pointer word at X word `pw`. -/
def setupBlock (pw : Nat) (t : Setup) : List Nat :=
  let third := ld1 30 (atP 0)
  match setupOps t with
  | [] => []
  | w :: ws => [alu1 (movil 30 pw), alu1 (mvd (sPX 0) 30), bun 0 w third 0 0 0] ++ ws.map alu1 ++ [alu1 (mvd (sPX 0) 30)]

def bqSetup (yd inp zd : Nat) : Setup :=
  [(4, [sMX 0, sMY 1, sMZ 1]), (yd, [sPY 0]), (inp, [sPY 1]), (8, [sMY 0, sMZ 0]), (12, [sMY 2, sMZ 2]), (zd, [sPZ 0])]
def fbSetup (la lb out inp zs : Nat) : Setup :=
  [(4, [sMX 0, sMY 1]), (la, [sBY 0]), (66, [sLY 0, sLY 1]), (lb, [sBY 1]), (1, [sMY 0]), (out, [sPY 2]), (inp, [sPY 3]), (zs, [sPZ 0])]
def tpSetup (lt inp zs : Nat) : Setup :=
  [(4, [sMX 0, sMZ 1]), (lt, [sBY 0]), (14, [sLY 0]), (1, [sMY 0]), (inp, [sPY 2]), (zs, [sPZ 0])]
def lagSetup (g zc : Nat) : Setup :=
  [(g, [sPY 0]), (g + 1, [sPY 1]), (1, [sMY 0]), (4, [sMY 1, sMZ 0, sMX 0]), (8, [sMY 2, sMX 1]), (9, [sMY 3]), (zc, [sPZ 0])]

/-! ### Listings -/

/-- BQC8 from its own bundle 0 (after the setup block): the four bundles before the loop. -/
def bqHead (stop sects : Nat) : List Nat :=
  [bun 0 (pnot 1 0) (ld4 20 (post 0 0)) (ld4 4 (atP 0)) (ld4 8 (atP 0)) 0,
   bun 0 0 (ld1 24 (post 0 0)) (ld4 32 (offs 0 1)) (ld4 36 (offs 0 1)) 0,
   bun 0 0 0 (ld4 0 (atP 1)) 0 0,
   bun 0 (loop0 stop 0 sects) 0 (ld4 28 (offs 1 1)) 0 0]

/-- The first eleven bundles of the BQC8 loop. -/
def bqBody0 : List Nat :=
  [bun (m4c 0 0 20 4) (guarded (mvaE 2 2)) 0 0 0 (seqIf 1),
   bun 0 (guarded (mvaE 3 3)) 0 (ld4 12 (offs 0 0)) 0 (seqIf 1),
   bun (m4c 0 4 20 32) (guarded (mvaE 28 4)) 0 0 (ld4 16 (offs 0 0)) (seqIf 1),
   bun 0 (guarded (mvaE 29 5)) 0 (st4 0 (atP 0)) 0 (seqIf 1),
   bun (m4c 1 0 21 8) (guarded (mvaE 30 6)) 0 0 0 (seqIf 1),
   bun 0 (guarded (mvaE 31 7)) 0 (ld4 40 (offs 0 2)) (st4 4 (atP 0)) (seqIf 1),
   bun (m4c 1 4 21 36) (por 1 0 0) 0 0 (ld4 44 (offs 0 2)) 0,
   bun 0 0 0 (st4 28 (offs 0 1)) 0 0,
   bun (m4c 2 0 22 12) 0 0 0 (ld4 8 (offs 0 0)) 0,
   bun 0 0 0 (ld4 4 (offs 0 0)) (st4 32 (offs 0 1)) 0,
   bun (m4c 2 4 22 40) 0 0 0 (ld4 36 (offs 0 2)) 0]

/-- The other eleven. -/
def bqBody1 : List Nat :=
  [bun 0 0 0 (ld4 32 (offs 0 2)) 0 0,
   bun (m4c 2 0 23 16) 0 (ld4 20 (post 0 0)) 0 0 0,
   bun 0 0 0 (pmod (post 0 0)) (pmod (post 0 0)) 0,
   mac1 (m4c 2 4 23 44),
   0,
   bun (m4c 1 0 24 0) 0 (ld1 24 (post 0 0)) 0 0 0,
   0,
   mac1 (m4c 1 4 24 28),
   0,
   alu1 (mvaE 0 0),
   alu1 (mvaE 1 1)]

/-- The seven bundles after it. -/
def bqTail : List Nat :=
  [bun 0 (mvaE 2 2) 0 0 (st4 4 (atP 0)) 0,
   bun 0 (mvaE 3 3) 0 0 (st4 32 (offs 0 1)) 0,
   bun 0 (mvaE 28 4) 0 (st4 0 (atP 0)) 0 0,
   alu1 (mvaE 29 5), alu1 (mvaE 30 6), alu1 (mvaE 31 7),
   bun 0 0 0 (st4 28 (offs 0 1)) 0 seqHalt]

/-- FBK64: the bundles before its loop. -/
def fbHead (stop : Nat) : List Nat :=
  [bun 0 0 (ld4 20 (post 0 0)) (ld2 0 (atP 3)) (ld2 50 (atP 0)) 0,
   0,
   0,
   bun (m4sQ 0 0 0 20) (mvd (sPY 0) 50) (ld4 20 (post 0 0)) 0 0 0,
   bun 0 (mvd (sPY 1) 51) 0 (st1 0 (circ 0 0)) 0 0,
   bun (m4sQ 0 4 1 20) 0 0 (st1 1 (circ 1 0)) 0 0,
   bun 0 0 0 (ld1 0 (circ 0 0)) 0 0,
   bun 0 0 0 (ld1 1 (circ 1 0)) 0 0,
   alu1 (loop0 stop 0 63)]

def fbBody : List Nat :=
  [mac1 (m4sQ 1 0 0 20),
   bun 0 0 (ld4 20 (post 0 0)) (ld1 0 (circ 0 0)) 0 0,
   mac1 (m4sQ 1 4 1 20),
   bun 0 0 0 (ld1 1 (circ 1 0)) 0 0]

def fbTail : List Nat :=
  [alu1 (mvs 50 (sPY 0)), alu1 (mvs 51 (sPY 1)), bun 0 (mvaE 40 0) 0 0 (st2 50 (atP 0)) 0, alu1 (mvaE 41 1), alu1 (mvaE 42 2),
   alu1 (mvaE 43 3), bun 0 (mvaE 44 4) 0 (st4 40 (atP 2)) 0 0, alu1 (mvaE 45 5), alu1 (mvaE 46 6), alu1 (mvaE 47 7),
   bun 0 0 0 (st4 44 (offs 2 1)) 0 seqHalt]

/-- TPE1: the bundles before its loop. -/
def tpHead (stop : Nat) : List Nat :=
  [bun 0 0 (ld4 20 (post 0 0)) (ld1 0 (atP 2)) (ld4 52 (atP 0)) 0,
   bun 0 0 0 0 (ld2 58 (offs 0 1)) 0,
   0,
   bun (m4sQ 0 0 0 20) (mvd (sPY 0) 52) (ld4 20 (post 0 0)) 0 0 0,
   bun 0 0 0 (st1 0 (circ 0 0)) 0 0,
   bun 0 0 0 (ld1 0 (circ 0 0)) 0 0,
   0,
   alu1 (loop0 stop 0 11)]

def tpBody : List Nat :=
  [mac1 (m4sQ 1 0 0 20), bun 0 0 (ld4 20 (post 0 0)) (ld1 0 (circ 0 0)) 0 0, 0, 0]

def tpTail : List Nat :=
  [bun (m4cQ 0 4 20 52) (mvaE 40 0) 0 0 0 0,
   alu1 (mvaE 41 1), alu1 (absSat 40 40), alu1 (absSat 41 41), alu1 (mvaE 42 2), alu1 (mvaE 43 3), alu1 (absSat 42 42),
   alu1 (absSat 43 43), alu1 (maxOp 40 40 41), alu1 (maxOp 42 42 43), alu1 (mvaE 57 6), alu1 (maxOp 56 40 42), alu1 (mvd 0x30 53),
   alu1 (acsMax 54 56 58 0), alu1 (mvs 52 (sPY 0)), alu1 (mvs 53 0x30),
   bun 0 0 0 (st1 54 (offs 2 0)) (st4 52 (atP 0)) seqHalt]

/-- LAG8: step 1, leak and metric. -/
def lagLeak : List Nat :=
  [bun 0 0 (ld4 4 (offs 0 0)) (ld4 8 (atP 0)) 0 seqRotclr,
   bun 0 0 0 (ld4 12 (offs 0 1)) (ld4 32 (atP 0)) 0,
   bun 0 0 0 (ld1 16 (offs 0 2)) (ld4 36 (offs 0 0)) 0,
   bun 0 0 (ld4 0 (atP 0)) (st1 8 (post 1 0)) 0 0,
   bun (m4cQ 0 0 7 32) 0 (ld4 40 (offs 0 1)) (st1 9 (post 1 0)) 0 0,
   bun (m4cQ 0 4 7 36) 0 0 (st1 10 (post 1 0)) 0 0,
   bun 0 0 0 (st1 11 (post 1 0)) 0 0,
   bun 0 0 0 (st1 12 (post 1 0)) 0 0,
   bun (m4cQ 2 0 16 8) 0 0 (st1 13 (post 1 0)) 0 0,
   bun (m4cQ 2 4 16 12) 0 0 (st1 14 (post 1 0)) 0 0,
   0,
   0]

/-- LAG8: half-steps A and B. -/
def lagSteps : List Nat :=
  [alu1 (mvaE 32 0), alu1 (mvaE 33 1), alu1 (acsMin 32 32 0 0), alu1 (acsMin 33 32 2 0),
   alu1 (mvaE 34 2), alu1 (mvaE 35 3), alu1 (acsMin 34 34 0 0), alu1 (acsMin 35 34 2 0),
   alu1 (mvaE 36 4), alu1 (mvaE 37 5), alu1 (acsMin 36 36 0 0), alu1 (acsMin 37 36 2 0),
   alu1 (mvaE 38 6), alu1 (mvaE 39 7), alu1 (acsMin 38 38 0 0), alu1 (acsMin 39 38 2 0),
   alu1 (mvd spROTB 42), alu1 (acsMin 32 32 0 0), alu1 (acsMin 33 32 2 0), alu1 (acsMin 34 34 0 0), alu1 (acsMin 35 34 2 0),
   alu1 (acsMin 36 36 0 0), bun 0 (acsMin 37 36 2 0) 0 0 0 seqRotclr]

/-- LAG8: the stores of the costs, the scan and the output. -/
def lagScan (stop : Nat) : List Nat :=
  [bun 0 0 0 0 (st4 32 (atP 0)) 0, bun 0 (mvd spROTB 43) 0 0 (st4 36 (offs 0 0)) 0, alu1 (loop0 stop 1 8),
   alu1 (acsMin 32 32 4 1), 0, bun 0 (mvs 20 0x32) 0 0 0 seqRotclr, alu1 (xorOp 20 20 6), alu1 (negOp 21 20),
   alu1 (andOp 20 20 21), alu1 (normOp 21 20), alu1 (subOp 22 41 21), bun 0 0 0 (st1 22 (offs 0 3)) 0 seqHalt]

/-! ### The kernels by their IDs -/

/-- A library kernel (R218). -/
inductive LibK where
  | bqc8 | fbk64 | tpe1 | lag8
deriving DecidableEq, Repr

def libOf (id : Nat) : Option LibK :=
  if id = 0x80000001 then some .bqc8
  else if id = 0x80000002 then some .fbk64
  else if id = 0x80000003 then some .tpe1
  else if id = 0x80000004 then some .lag8
  else none

/-- R170 to R175: the bundles of one call of a library kernel at its place `k`, loaded at index `base`. `sects` is S. -/
def LibK.program (l : LibK) (k : KBlock) (sects base : Nat) : List Nat :=
  match l with
  | .bqc8 => setupBlock k.ptr (bqSetup k.y k.inp k.z) ++ bqHead (base + 19 + 25) sects ++ bqBody0 ++ bqBody1 ++ bqTail
  | .fbk64 => setupBlock k.ptr (fbSetup k.y (k.y + 66) k.out k.inp k.z) ++ fbHead (base + 21 + 12) ++ fbBody ++ fbTail
  | .tpe1 => setupBlock k.ptr (tpSetup k.y k.inp k.z) ++ tpHead (base + 16 + 11) ++ tpBody ++ tpTail
  | .lag8 => setupBlock k.ptr (lagSetup k.y k.z) ++ lagLeak ++ lagSteps ++ lagScan (base + 20 + 39)

/-- R176: Nb of one call. -/
def LibK.nb (l : LibK) (sects : Nat) : Nat :=
  match l with
  | .bqc8 => 30 + 22 * sects
  | .fbk64 => 293
  | .tpe1 => 85
  | .lag8 => 81

/-- R176: the bundles that one call holds in the program bank. -/
def LibK.bundles (l : LibK) : Nat :=
  match l with
  | .bqc8 => 52
  | .fbk64 => 45
  | .tpe1 => 45
  | .lag8 => 67

/-- R172 to R175: X words of one copy of the parameter block, Y words at `k.y`, Z words at `k.z`. -/
def LibK.areas (l : LibK) (sects : Nat) : Nat × Nat × Nat :=
  match l with
  | .bqc8 => (8 * (sects + 1), 8 * (sects + 1), 8 * (sects + 1))
  | .fbk64 => (260, 132, 2)
  | .tpe1 => (52, 14, 6)
  | .lag8 => (12, 10, 8)

/-- R172 to R175: where the inputs and outputs of a call lie in Y memory. -/
def LibK.inAt (l : LibK) (k : KBlock) (c : Nat) : Nat :=
  match l with
  | .lag8 => k.y + 8 * c
  | _ => k.inp + c
def LibK.outAt (l : LibK) (k : KBlock) (sects c : Nat) : Nat :=
  match l with
  | .bqc8 => k.y + 8 * sects + c
  | .fbk64 => k.out + c
  | .tpe1 => k.inp + 1
  | .lag8 => k.y + 9

/-- The Y words of a call's input and output blocks, beside its area at `k.y`. -/
def LibK.blocks (l : LibK) (k : KBlock) : List (Nat × Nat) :=
  match l with
  | .bqc8 => [(k.inp, 8)]
  | .fbk64 => [(k.inp, 2), (k.out, 8)]
  | .tpe1 => [(k.inp, 2)]
  | .lag8 => []

/-- R172, R173: addresses that must be multiples of 4, and those that must be even. -/
def LibK.aligned (l : LibK) (k : KBlock) : Bool :=
  k.copy0 % 4 == 0 && k.copy1 % 4 == 0 &&
    match l with
    | .bqc8 => k.y % 4 == 0 && k.z % 4 == 0 && k.inp % 4 == 0
    | .fbk64 => k.out % 4 == 0 && k.inp % 2 == 0 && k.z % 2 == 0
    | .tpe1 => k.z % 4 == 0
    | .lag8 => k.y % 4 == 0 && k.z % 4 == 0

/-- The interpolator coefficients of TPE1 (R174), library constants that the spec does not give. -/
def interpWord (i : Nat) : Word := Config.tpe1 i

/-- R172: block `i` of BQC8 from the node's words S, then b0, b1, b2, a1, a2 per section. -/
def bqBlock (ws : List Word) (i : Nat) : List Word :=
  let w := fun j => ws.getD (1 + 5 * i + j) 0
  [w 1, w 2, w 3, w 4, w 0, 0, 0, 0]

/-- R172 to R175, R218: the X words of a parameter block from the node's parameter words. Words that a kernel reads and never
uses are 0. -/
def LibK.block (l : LibK) (ws : List Word) : List Word :=
  let w := fun j => ws.getD j 0
  match l with
  | .bqc8 => (List.range (w 0).toNat).flatMap (bqBlock ws) ++ List.replicate 8 0
  | .fbk64 => (List.range 256).map w ++ List.replicate 4 0
  | .tpe1 => (List.range 48).map interpWord ++ [w 0, 0, 0, 0]
  | .lag8 => [0, w 0, w 0, 0, 0, 0, 0xFFFFFFFF, w 1, 0x7FFFFFFF, 30, 1, 7]

/-- R172 to R175: the words of Z memory that are not 0 at placement: write positions at their line bases. -/
def LibK.zInit (l : LibK) (k : KBlock) : List (Nat × Word) :=
  match l with
  | .fbk64 => [(k.z, BitVec.ofNat 32 k.y), (k.z + 1, BitVec.ofNat 32 (k.y + 66))]
  | .tpe1 => [(k.z, BitVec.ofNat 32 k.y)]
  | _ => []

/-! ### User objects (R118, R219, R220) -/

/-- R220: what a relocation record gives for a call at place `k`. -/
def relocBase (k : KBlock) (region : Nat) : Nat :=
  match region with
  | 0 => k.x
  | 1 => k.y
  | 2 => k.z
  | 3 => k.inp
  | 4 => k.out
  | 5 => k.ptr
  | 6 => k.save
  | _ => k.call

/-- R220: the bundles of an object with record `i` applied. -/
def reloc (b : List Byte) (k : KBlock) (bs : List Nat) (i : Nat) : List Nat :=
  let r := slice b (32 + 16 * (kobj b).n + 8 * i) 8
  let at_ := le r 0 2
  let v := wrapN 16 (relocBase k (le r 2 1) + sext 16 (le r 4 2))
  bs.set at_ (patchImm (bs.getD at_ 0) v)

/-- R118, R219, R220: the bundles of a call of a user object at place `k`, loaded at index `base`. -/
def objProgram (b : List Byte) (k : KBlock) (base : Nat) : List Nat :=
  ((List.range (kobj b).nreloc).foldl (reloc b k) (kobjBundles b)).map (loadBundle base)

/-- The COUNT of the LOOP at index `i` of a program. -/
def loopCountAt (bs : List Nat) (i : Nat) : Nat := loopCount (slotsOf (bs.getD i 0)).alu

/-- R90, R155: how often the bundle at index `i` issues: the product of the COUNTs of the loops around it. -/
def issuesAt (bs : List Nat) (i : Nat) : Nat :=
  ((loopsOf bs).filter (·.body i)).foldl (fun n l => n * loopCountAt bs l.ix) 1

/-- R90: the bundles that a program issues. -/
def issueCount (bs : List Nat) : Nat := (List.range bs.length).foldl (fun n i => n + issuesAt bs i) 0

/-- R262: the shared-bank accesses that a program issues. -/
def bankAccesses (bs : List Nat) : Nat :=
  (List.range bs.length).foldl (fun n i =>
    let op := aluOp (slotsOf (bs.getD i 0)).alu
    if 0x1B ≤ op ∧ op ≤ 0x1D then n + issuesAt bs i else n) 0

/-- R171: whether a program's final bundle is the END of a loop body. -/
def endsInLoop (bs : List Nat) : Bool := (loopsOf bs).any fun l => l.stop + 1 == bs.length

end Sys2Proof.Machine
end

