-- ==== Sys2Proof/Machine/Paths.lean ====
section
/-!
DEFINITION. Paths of a graph and their latency (R42 to R47, R51, R140, R231, R385), and the latency report (R229 to R232).

`hz` gives the rate of a domain.
-/

namespace Sys2Proof.Machine

/-- A node channel: node ID and output channel; a shared SID is (0xFFFFFFFF, SID). -/
abbrev Chan := Nat × Nat

/-- The inputs of node `n` that reach its output channel `ch` (R216, R218, R219). -/
def GNode.reach (n : GNode) (objs : List (List Byte)) (ch : Nat) : List Nat :=
  if n.typ = tKernel then
    match shapeOf objs (n.a32 0) with
    | none => []
    | some s =>
      let call := ch / s.outCh
      ((List.range s.inCh).filter fun i => kernelReaches (n.a32 0) i (ch % s.outCh)).map (· + call * s.inCh)
  else if n.typ = tSum then n.slots.filterMap fun s => if xpOut s.1 = ch then some (xpIn s.1) else none
  else if n.typ = tDelay ∨ n.typ = tLink then [ch]
  else []

/-- The channels that feed channel `c` of the graph. -/
def Graph.preds (g : Graph) (c : Chan) : List Chan :=
  if c.1 = sharedSid then [] else
  match g.node c.1 with
  | none => []
  | some n => (n.reach g.objs c.2).filterMap fun i => g.feed n.id i

/-- Whether a channel is a source (R231). -/
def Graph.source (g : Graph) (c : Chan) : Bool :=
  c.1 == sharedSid ||
  match g.node c.1 with
  | some n => [tSrcPort, tSrcStream, tTapIn, tConst].contains n.typ
  | none => false

/-- Whether a node's inputs are sinks (R231). -/
def GNode.sink (n : GNode) : Bool := [tSnkPort, tSnkStream, tTapOut, tMeter].contains n.typ

/-- The paths that end at channel `c`, each from its source, visiting no channel twice (R231). -/
def Graph.pathsTo (g : Graph) : Nat → List Chan → Chan → List (List Chan)
  | 0, _, _ => []
  | k + 1, seen, c =>
    if seen.contains c then []
    else if g.source c then [[c]]
    else (g.preds c).flatMap fun p => (g.pathsTo k (c :: seen) p).map (· ++ [c])

/-- The number of channels of a graph, an upper bound of a path's length. -/
def Graph.size (g : Graph) : Nat := g.nodes.foldl (fun k n => k + n.nOut) 0 + 2

/-- The paths into input channel `i` of sink node `n`. -/
def Graph.sinkPaths (g : Graph) (n : GNode) (i : Nat) : List (List Chan) :=
  match g.feed n.id i with
  | none => []
  | some c => g.pathsTo g.size [] c

/-- R380, R383: the stated group delay of a LINK in output samples, from its mode and rates. -/
def linkDelay (mode hzIn hzOut : Nat) : Nat :=
  if mode ≠ 0 then 40
  else if hzOut = 2 * hzIn then 32
  else if hzOut = 4 * hzIn then 64
  else 16

/-- Samples along a path: `lat` in samples of domain `dom` (0xFF while on a source's own clock), `ownNs` the link offset of
an own-clock stream, `pad` the padding met. -/
structure Walk where
  lat   : Nat
  dom   : Nat
  ownNs : Nat
  pad   : Nat
  prev  : Option Chan
deriving DecidableEq, Repr

/-- R42: the samples that a source counts, in the domain of rate `hz` samples per second. -/
def srcSamples (linkOffset hz : Nat) : Nat := ceilDiv (linkOffset * hz) 1000000000 + 1

/-- R46: the pad of the delay hop between channel `c` and input `i` of node `n`, where one stands. -/
def Walk.overHop (w : Walk) (n : GNode) (i : Nat) : Walk := { w with lat := w.lat + n.hopPad i, pad := w.pad + n.hopPad i }

/-- The input by which channel `c` reaches output `ch` of node `n`. -/
def Graph.inputOf (g : Graph) (n : GNode) (ch : Nat) (c : Option Chan) : Nat :=
  match c with
  | some c => ((n.reach g.objs ch).find? fun i => g.feed n.id i == some c).getD n.nIn
  | none => n.nIn

/-- R42, R44, R46, R140, R385: one node channel more on a path. -/
def Walk.step (hz : Nat → Nat) (w : Walk) (n : GNode) (ch : Nat) : Walk :=
  let p := n.pad ch
  let w := { w with pad := w.pad + p }
  let own := n.dom ≥ 3
  if n.typ = tSrcPort then { w with lat := (if own then 0 else 1) + p, dom := n.dom }
  else if n.typ = tSrcStream then
    { w with lat := (if own then 0 else srcSamples (n.a32 28) (hz n.dom)) + p, dom := n.dom, ownNs := if own then n.a32 28 else 0 }
  else if n.typ = tTapIn ∨ n.typ = tConst then { w with lat := 1 + p, dom := n.dom }
  else if n.typ = tSum then { w with lat := w.lat + (if n.cross.contains ch then 2 else 1) + p }
  else if n.typ = tDelay then { w with lat := w.lat + 1 + n.a32 0 + p }
  else if n.typ = tLink then
    let o := n.outDom
    if w.dom ≥ 3 then { w with lat := w.lat + srcSamples w.ownNs (hz o) + linkDelay 1 0 0 + p, dom := o }
    else { w with lat := ceilDiv (w.lat * hz o) (hz w.dom) + linkDelay (n.a8 0) (hz w.dom) (hz o) + p, dom := o }
  else { w with lat := w.lat + 1 + p }

/-- R42, R385: the sink's contribution. A sink on its own clock is counted in the lane's input domain `lnIn`: the path up
to the LINK has been converted to its OUT_DOMAIN and is converted back. -/
def Walk.finish (hz : Nat → Nat) (w : Walk) (n : GNode) (lnIn : Nat) : Walk :=
  if n.typ = tSnkStream then { w with lat := w.lat + 1 + n.a16 4 }
  else if n.dom ≥ 3 then { w with lat := ceilDiv (w.lat * hz lnIn) (hz w.dom) + 1, dom := lnIn }
  else { w with lat := w.lat + 1 }

/-- A shared SID starts in its reader's domain and counts nothing (R42). -/
def walkStart (dom : Nat) : Walk := ⟨0, dom, 0, 0, none⟩

/-- The walk of a path of graph `g` up to input `i` of node `n`. -/
def Graph.walkTo (g : Graph) (hz : Nat → Nat) (path : List Chan) (n : GNode) (i : Nat) : Walk :=
  let first := ((path.filterMap fun c => g.node c.1).head?.map (·.dom)).getD n.dom
  let w := path.foldl (fun w c => match g.node c.1 with
    | some m => { (w.overHop m (g.inputOf m c.2 w.prev)).step hz m c.2 with prev := some c }
    | none => { w with prev := some c }) (walkStart first)
  w.overHop n i

/-- R44: the fraction of an output sample, as a quotient, by which the lane of channel `i` of LINK `n` pads its delay. DESIGN CHOICE
(log 88): for the longest path into it. -/
def Graph.lanePad (g : Graph) (hz : Nat → Nat) (n : GNode) (i : Nat) : Nat × Nat :=
  if n.dom ≥ 3 ∨ n.outDom ≥ 3 then (0, 1)
  else
    let lat := (g.sinkPaths n i).foldl (fun m path => max m (g.walkTo hz path n i).lat) 0
    let (a, b) := (hz n.dom, hz n.outDom)
    (ceilDiv (lat * b) a * a - lat * b, a)

/-- The walk of a path of graph `g` into input `i` of sink `n`. -/
def Graph.walk (g : Graph) (hz : Nat → Nat) (path : List Chan) (n : GNode) (i : Nat) : Walk :=
  let w := g.walkTo hz path n i
  let ln := (path.reverse.filterMap fun c => (g.node c.1).bind fun m => if m.typ = tLink then some m.dom else none).head?.getD n.dom
  w.finish hz n ln

/-- R51: the class of a path. -/
def Graph.pathClass (g : Graph) (path : List Chan) (n : GNode) : Nat :=
  path.foldl (fun k c => match g.node c.1 with | some m => max k m.cls | none => k) n.cls

/-- One path of the report. -/
structure PathEntry where
  src     : Chan
  snk     : Chan
  srcSid  : Nat
  snkSid  : Nat
  lat     : Nat
  hz      : Nat
  pad     : Nat
  group   : Nat
  cls     : Nat
  changed : Bool
  dom     : Nat
deriving DecidableEq, Repr

/-- The group whose member the pair is (R221); 0xFFFF for none. -/
def Graph.groupOf (g : Graph) (src snk : Chan) : Nat :=
  (g.groups.findIdx? fun q => q.members.any fun m =>
    m.src == src.1 && m.snk == snk.1 && m.srcCh ≤ src.2 && src.2 < m.srcCh + m.width &&
    m.snkCh ≤ snk.2 && snk.2 < m.snkCh + m.width && src.2 - m.srcCh == snk.2 - m.snkCh).getD 0xFFFF

/-- The entry of one path. `chg` tells whether a channel of it is new or changed in this epoch. -/
def Graph.pathEntry (g : Graph) (hz : Nat → Nat) (chg : Chan → Bool) (n : GNode) (i : Nat) (path : List Chan) : PathEntry :=
  let src := path.headD (0, 0)
  let w := g.walk hz path n i
  { src := src
    snk := (n.id, i)
    srcSid := if src.1 = sharedSid then src.2 else ((g.node src.1).map fun m => m.sids.getD src.2 0).getD 0
    snkSid := g.inSid n.id i
    lat := w.lat
    hz := hz w.dom
    pad := w.pad
    group := g.groupOf src (n.id, i)
    cls := g.pathClass path n
    changed := path.any chg || chg (n.id, i)
    dom := w.dom }

/-- R231: every path of the graph, ordered by SNK_NODE, SNK_CH, SRC_NODE, SRC_CH. -/
def Graph.paths (g : Graph) (hz : Nat → Nat) (chg : Chan → Bool) : List PathEntry :=
  let sinks := sortBy (fun a b => a.id ≤ b.id) (g.nodes.filter GNode.sink)
  sinks.flatMap fun n => (List.range n.nIn).flatMap fun i =>
    sortBy (fun a b => a.src.1 < b.src.1 || (a.src.1 == b.src.1 && a.src.2 ≤ b.src.2)) ((g.sinkPaths n i).map (g.pathEntry hz chg n i))

/-- A run of the report (R230): its first path, RUN code, COUNT. -/
structure RunEntry where
  e     : PathEntry
  run   : Nat
  count : Nat
deriving DecidableEq, Repr

/-- R230, R231: whether `q` continues the run as RUN 1 or RUN 2; the code that it then has. -/
def RunEntry.take (r : RunEntry) (q : PathEntry) : Option Nat :=
  let p := r.e
  let same := p.lat == q.lat && p.pad == q.pad && p.group == q.group && p.cls == q.cls && p.changed == q.changed && p.dom == q.dom &&
    p.src.1 == q.src.1 && p.snk.1 == q.snk.1 && q.src.2 == p.src.2 + r.count && q.srcSid == p.srcSid + r.count
  if !same || r.count ≥ 0xFFFF then none
  else if r.run ≠ 2 && p.snk == q.snk && p.snkSid == q.snkSid then some 1
  else if r.run ≠ 1 && q.snk.2 == p.snk.2 + r.count && q.snkSid == p.snkSid + r.count then some 2
  else none

/-- R231: paths in order, grouped into runs of neighbours. -/
def groupRuns : List RunEntry → List PathEntry → List RunEntry
  | acc, [] => acc.reverse
  | [], q :: r => groupRuns [⟨q, 0, 1⟩] r
  | a :: acc, q :: r =>
    match a.take q with
    | some k => groupRuns ({ a with run := k, count := a.count + 1 } :: acc) r
    | none => groupRuns (⟨q, 0, 1⟩ :: a :: acc) r

/-- R6: samples as time in 0.1 µs, ties away from zero. -/
def timeTenths (n hz : Nat) : Nat := (2 * n * 10000000 + hz) / (2 * hz)

/-- R230: the bytes of one entry; SRC_CH of a shared SID is the SID, as in R214 (DEDUCED, log 72). -/
def RunEntry.bytes (r : RunEntry) : List Byte :=
  let e := r.e
  leBytes 4 e.src.1 ++ leBytes 4 e.snk.1 ++ leBytes 2 e.src.2 ++ leBytes 2 e.snk.2 ++
  leBytes 2 e.srcSid ++ leBytes 2 e.snkSid ++ leBytes 4 e.lat ++ leBytes 4 (timeTenths e.lat e.hz) ++ leBytes 4 e.pad ++
  leBytes 2 e.group ++ leBytes 2 r.count ++ leBytes 1 r.run ++ leBytes 1 (e.cls + if e.changed then 4 else 0) ++
  leBytes 1 e.dom ++ leBytes 5 0

/-- R229, R232: the report of an epoch in a half of `room` bytes; nothing where not even the header fits. -/
def reportBytes (part epoch dom tick room : Nat) (runs : List RunEntry) : Option (List Byte) :=
  if room < 32 then none else
  let n := min runs.length ((room - 32) / 40)
  some (leBytes 4 0x524C5146 ++ leBytes 2 0x0100 ++ leBytes 1 part ++ leBytes 1 (if n < runs.length then 1 else 0) ++
    leBytes 4 epoch ++ leBytes 4 n ++ leBytes 4 runs.length ++ leBytes 1 dom ++ leBytes 3 0 ++ leBytes 8 tick ++
    (runs.take n).flatMap RunEntry.bytes)

/-- R46: the padded latencies of a group's members, with the offset of each member record; none when one names no path. -/
def Graph.memberLats (g : Graph) (hz : Nat → Nat) (q : GGroup) : List (GMember × List (PathEntry)) :=
  q.members.map fun m => (m,
    (List.range m.width).flatMap fun i =>
      match g.node m.snk with
      | some n => if n.sink then ((g.sinkPaths n (m.snkCh + i)).filter fun p => p.headD (0, 0) == (m.src, m.srcCh + i)).map
                    (g.pathEntry hz (fun _ => false) n (m.snkCh + i)) else []
      | none => [])

end Sys2Proof.Machine
end

