-- ==== Sys2Proof/Machine/Faquin.lean ====
section
/-!
DEFINITION. The Faquin graph format (R204 to R228): the checks of a file, patch records, and the graph that a transaction
leaves.

Checks follow the order of the codes of R228, then the sections in index order, then the whole graph (DESIGN CHOICE, log
42). ERR_OFFSET names the start of the header field, section header, entry, record or object.
-/

namespace Sys2Proof.Machine

/-- What the Setter knows when it judges a file: partition, its graph and epoch, declared domains (rate code, tolerance),
domains used by committed or armed epochs of partitions other than P0 and other than this one, grants held, SIDs of other
partitions with their domain, domains that follow the PTP servo, meter records, port CTL registers, and the domains of
other partitions' nodes on each TDM port, and the domains that run. -/
structure FqEnv where
  part    : Nat
  graph   : Graph
  epoch   : Nat
  decl    : List (Option (Nat × Nat))
  usedP   : Nat               -- domains used by P1 to P3
  usedO   : Nat               -- domains used by partitions other than the file's
  grants  : List (Nat × Nat)
  sidDom  : List (Nat × Nat)
  ptpDoms : Nat
  records : Nat
  ctl     : List Word
  tdmDom  : List (Nat × Nat)
  running : Nat
deriving DecidableEq, Repr

/-- The first refusal of a list of checks. -/
def firstOf (l : List (Option Refuse)) : Option Refuse := l.findSome? id

/-- A check: refuse with `code` at `off` unless `b`. -/
def need (b : Bool) (code off : Nat) : Option Refuse := if b then none else some (Refuse.at code off)

/-- Section `k`: its offset, COUNT and EXTRA; absent sections count 0. -/
def secOff (f : List Byte) (k : Nat) : Nat := le f (0x18 + 4 * k) 4
def secCount (f : List Byte) (k : Nat) : Nat := if secOff f k = 0 then 0 else le f (secOff f k) 4
def secExtra (f : List Byte) (k : Nat) : Nat := if secOff f k = 0 then 0 else le f (secOff f k + 4) 4

/-- R207: bytes of section `k` with its header. -/
def secLen (f : List Byte) (k : Nat) : Nat :=
  let c := secCount f k
  let e := secExtra f k
  8 + match k with
  | 0 => 16 * c
  | 1 => 48 * c
  | 2 => 16 * c
  | 3 => 8 * c
  | 4 => 16 * c + 16 * e
  | _ => e

/-- Entry `i` of section `k`, of `n` bytes: its offset. -/
def entOff (f : List Byte) (k n i : Nat) : Nat := secOff f k + 8 + n * i

/-- R222: a string of 1 to 63 bytes with its 0 at the front of a body: its length without the 0. -/
def strLen (b : List Byte) : Option Nat :=
  match b.findIdx? (· == 0) with
  | some n => if 1 ≤ n ∧ n ≤ 63 then some n else none
  | none => none

/-- Whether bytes are well-formed UTF-8. -/
def utf8Ok : List Byte → Bool
  | [] => true
  | a :: r =>
    let c := fun (b : Byte) => decide (0x80 ≤ b.toNat ∧ b.toNat < 0xC0)
    if a.toNat < 0x80 then utf8Ok r
    else match r with
      | [] => false
      | b :: r2 =>
        if 0xC2 ≤ a.toNat ∧ a.toNat < 0xE0 then c b && utf8Ok r2
        else match r2 with
          | [] => false
          | d :: r3 =>
            if 0xE0 ≤ a.toNat ∧ a.toNat < 0xF0 then
              c b && c d && !(a == 0xE0 && b.toNat < 0xA0) && !(a == 0xED && b.toNat ≥ 0xA0) && utf8Ok r3
            else match r3 with
              | [] => false
              | e :: r4 =>
                decide (0xF0 ≤ a.toNat ∧ a.toNat < 0xF5) && c b && c d && c e &&
                  !(a == 0xF0 && b.toNat < 0x90) && !(a == 0xF4 && b.toNat ≥ 0x90) && utf8Ok r4

/-- What a body of variable entries holds: the places of its well-formed entries in order, and the refusal of the first
entry that is none. -/
structure Body where
  starts : List Nat
  bad    : Option Refuse
deriving DecidableEq, Repr

/-- A body with one more entry in front. -/
def Body.cons (o : Nat) (b : Body) : Body := { b with starts := o :: b.starts }

/-- R222: the `n` strings of a body whose rest `b` begins at offset `o` of the body, which begins at `base` in the file. -/
def strBody (base : Nat) : Nat → List Byte → Nat → Body
  | 0, b, o => ⟨[], need b.isEmpty 0x04 (base + o)⟩
  | n + 1, b, o =>
    match strLen b with
    | none => ⟨[], some (Refuse.at 0x04 (base + o))⟩
    | some l => if utf8Ok (b.take l) then (strBody base n (b.drop (l + 1)) (o + l + 1)).cons o else ⟨[], some (Refuse.at 0x04 (base + o))⟩

/-- R219: the `n` objects of a body of which `room` bytes are left at offset `o` of the file. -/
def objBody (f : List Byte) : Nat → Nat → Nat → Body
  | 0, o, room => ⟨[], need (room == 0) 0x04 o⟩
  | n + 1, o, room =>
    let k := kobj (slice f o 32)
    if 32 ≤ room ∧ k.len = k.size ∧ k.len ≤ room then (objBody f n (o + k.len) (room - k.len)).cons o
    else ⟨[], some (Refuse.at 0x04 o)⟩

/-- R223: the LEN of a record by its OP and FLAGS; none for an operation or flags that R223 does not have. -/
def patchLen (op fl : Nat) : Option Nat :=
  match op, fl with
  | 0x01, 0 => some 24
  | 0x02, 0 => some 8
  | 0x02, 1 => some 16
  | 0x03, 0 => some 24
  | 0x03, 1 => some 56
  | 0x04, 0 => some 24
  | 0x0F, 0 => some 24
  | _, _ => none

/-- R223: the `n` patch records of a body of which `room` bytes are left at offset `o` of the file. -/
def recBody (f : List Byte) : Nat → Nat → Nat → Body
  | 0, o, room => ⟨[], need (room == 0) 0x04 o⟩
  | n + 1, o, room =>
    let l := le f (o + 2) 2
    if room < 8 then ⟨[], some (Refuse.at 0x04 o)⟩
    else if patchLen (le f o 1) (le f (o + 1) 1) ≠ some l then ⟨[], some (Refuse.at 0x0F o)⟩
    else if room < l then ⟨[], some (Refuse.at 0x04 o)⟩
    else (recBody f n (o + l) (room - l)).cons o

def fqObjBody (f : List Byte) : Body := if secOff f 5 = 0 then ⟨[], none⟩ else objBody f (secCount f 5) (secOff f 5 + 8) (secExtra f 5)
def fqRecBody (f : List Byte) : Body := if secOff f 7 = 0 then ⟨[], none⟩ else recBody f (secCount f 7) (secOff f 7 + 8) (secExtra f 7)
def fqStrBody (f : List Byte) : Body :=
  if secOff f 6 = 0 then ⟨[], none⟩ else strBody (secOff f 6 + 8) (secCount f 6) (slice f (secOff f 6 + 8) (secExtra f 6)) 0

/-- The bytes of the string that NAME points to. -/
def fqName (f : List Byte) (name : Nat) : List Byte :=
  if name = 0xFFFFFFFF then [] else (slice f (secOff f 6 + 8 + name) 63).takeWhile (· != 0)

/-- R209, R221, R222: NAME names the first byte of a string, or none. -/
def nameOk (f : List Byte) (name : Nat) : Bool := name == 0xFFFFFFFF || (fqStrBody f).starts.contains name

/-- R204, R206, R207: the layout of the file. -/
def layoutCheck (f : List Byte) : Option Refuse :=
  let total := le f 8 4
  let secs := (List.range 8).filter fun k => secOff f k != 0
  let kind := le f 6 1
  firstOf <|
    [need (kind ≤ 1) 0x04 6, need (total % 8 == 0 && 64 ≤ total) 0x04 8] ++
    secs.map (fun k => need (secOff f k % 8 == 0 && 64 ≤ secOff f k && secOff f k + 8 ≤ total && secOff f k + secLen f k ≤ total) 0x04 (0x18 + 4 * k)) ++
    secs.map (fun k => need (secs.all fun j => j == k || secOff f j + secLen f j ≤ secOff f k || secOff f k + secLen f k ≤ secOff f j)
      0x04 (0x18 + 4 * k)) ++
    [need (le f 0x38 8 == 0) 0x04 0x38] ++
    secs.map (fun k => need (k ≥ 4 || secExtra f k == 0) 0x04 (secOff f k)) ++
    [need (kind == 1 || secOff f 1 != 0) 0x04 0x1C, need (secOff f 7 != 0) 0x04 0x34,
     (fqStrBody f).bad, (fqObjBody f).bad, (fqRecBody f).bad.filter (·.code == 0x04)]

/-- R227: limits of one file. -/
def fileLimits (f : List Byte) : Option Refuse :=
  firstOf [need (le f 8 4 ≤ 64 * 2 ^ 20) 0x11 8, need (secCount f 7 ≤ 65535) 0x11 (secOff f 7)]

/-- R205: the header, then the layout, PARTITION and EPOCH_BASE (R226). -/
def headerCheck (e : FqEnv) (f : List Byte) : Option Refuse :=
  let crc := crc32c (f.take 12 ++ leBytes 4 0 ++ f.drop 16)
  let base := le f 0x10 4
  firstOf
    [need (le f 0 4 == 0x314E5146) 0x01 0, need (le f 4 2 == 0x0100) 0x02 4, need (crc == le f 12 4) 0x03 12,
     layoutCheck f, need (le f 7 1 == e.part) 0x05 7, need (secOff f 0 == 0 || e.part == 0) 0x05 0x18,
     need (base == e.epoch || (base == 0xFFFFFFFF && le f 6 1 == 0)) 0x06 0x10, fileLimits f]

/-- R208: one domain record against the device. -/
def domCheck (e : FqEnv) (f : List Byte) (i : Nat) : Option Refuse :=
  let o := entOff f 0 16 i
  let d := le f o 1
  let fl := le f (o + 2) 1
  let tol := le f (o + 4) 4
  let und := fl % 2 == 1
  let now := (e.decl.getD d none)
  let earlier := (List.range i).any fun j => le f (entOff f 0 16 j) 1 == d
  let want := (le f (o + 1) 1, if tol = 0 then 500 else tol)
  firstOf
    [need (d ≤ 2 && !earlier && fl ≤ 1 && le f (o + 3) 1 == 0 && le f (o + 8) 8 == 0) 0x12 o,
     need (und || (le f (o + 1) 1 ≤ 6 && (tol == 0 || (500 ≤ tol && tol ≤ 50000)))) 0x12 o,
     need (und || now.isNone || now == some want || !e.usedP.testBit d) 0x12 o,
     need (!und || !e.usedO.testBit d) 0x12 o]

/-- The domain section's records: domain and its new declaration (none: undeclared). -/
def fqDomains (f : List Byte) : List (Nat × Option (Nat × Nat)) :=
  (List.range (secCount f 0)).map fun i =>
    let o := entOff f 0 16 i
    let tol := le f (o + 4) 4
    (le f o 1, if le f (o + 2) 1 % 2 = 1 then none else some (le f (o + 1) 1, if tol = 0 then 500 else tol))

def domsCheck (e : FqEnv) (f : List Byte) : Option Refuse :=
  firstOf (need (secCount f 0 ≤ 3) 0x12 (secOff f 0) :: (List.range (secCount f 0)).map (domCheck e f))

/-- The declaration of domain `d` after the file. -/
def declAfter (e : FqEnv) (f : List Byte) (d : Nat) : Option (Nat × Nat) :=
  match (fqDomains f).find? (·.1 == d) with
  | some r => r.2
  | none => e.decl.getD d none

/-- Node entry `i` of the file, with its parameter slots (R209, R216). -/
def fqNode (f : List Byte) (i : Nat) : GNode :=
  let o := entOff f 1 48 i
  let attr := slice f (o + 16) 32
  let typ := le f (o + 4) 1
  let ps := if typ = tKernel ∨ typ = tSum then
      (List.range (le attr 28 4)).map fun j =>
        let q := entOff f 3 8 (le attr 24 4 + j)
        (BitVec.ofNat 32 (le f q 4), BitVec.ofNat 32 (le f (q + 4) 4))
    else []
  { id := le f o 4, typ := typ, cls := le f (o + 5) 1, dom := le f (o + 6) 1, nIn := le f (o + 8) 2, nOut := le f (o + 10) 2
    name := fqName f (le f (o + 12) 4), attr := attr, slots := ps, adm := 0, sids := [], cross := [], pads := [], hops := [], ctx := 0
    lanes := [], off := o }

/-- ATTR bytes `[a, b)` are 0. -/
def attrZero (n : GNode) (a b : Nat) : Bool := (slice n.attr a (b - a)).all (· == 0)

/-- R334, R335: whether profile, level, format, channels and packet time go together at rate `hz`. -/
def streamFits (prof lev fmt ch ptime hz : Nat) : Bool :=
  let b := if fmt = 0 then 2 else if fmt = 1 then 3 else 4
  let ms1 := ptime * 1000 == hz
  let us125 := ptime * 8000 == hz
  let k48 := hz == 48000
  let k96 := hz == 96000
  let pay := ch * ptime * b ≤ 1440
  let legal := match prof with
    | 0 =>
      fmt ≤ 1 &&
      match lev with
      | 0 => k48 && ms1 && ch ≤ 8
      | 1 => ms1 && ((k48 && ch ≤ 8) || (k96 && ch ≤ 4))
      | 2 => k48 && (ms1 || us125) && ch ≤ 8
      | 3 => (k48 && (ms1 || us125) && ch ≤ 8) || (k96 && ((ms1 && ch ≤ 4) || (us125 && ch ≤ 8)))
      | 4 => k48 && ((ms1 && ch ≤ 8) || (us125 && ch ≤ 64))
      | 5 => (k48 && ((ms1 && ch ≤ 8) || (us125 && ch ≤ 64))) || (k96 && ((ms1 && ch ≤ 4) || (us125 && ch ≤ 32)))
      | _ => false
    | 1 => fmt == 2 && lev == 0 && ch % 2 == 0 && 2 ≤ ch && (k48 || k96) && (ms1 || us125)
    | 2 =>
      fmt ≤ 1 && lev == 0 && ch ≤ 8 &&
        (if hz = 44100 then [6, 11, 15, 44, 176].contains ptime
         else if hz = 48000 then [6, 12, 16, 48, 192].contains ptime
         else if hz = 96000 then [12, 24, 32, 96, 384].contains ptime else false)
    | _ => false
  legal && pay && 1 ≤ ch

/-- R213, R341: the fields of a stream node. An own-clock stream (DOMAIN 0xFF) has no domain whose rate could be taken: any rate
of R334 may fit (DESIGN CHOICE, log 43). -/
def streamOk (n : GNode) (hz : Nat) : Bool :=
  let rx := n.typ == tSrcStream
  let fits := streamFits (n.a8 0) (n.a8 1) (n.a8 2) (if rx then n.nOut else n.nIn) (n.a16 4)
  (if n.dom = 0xFF then fits 44100 || fits 48000 || fits 96000 else fits hz) &&
    1 ≤ n.a8 3 && n.a8 3 ≤ 3 && 96 ≤ n.a8 6 && n.a8 6 ≤ 127 &&
    (if rx then n.a8 7 == 0 && 125000 ≤ n.a32 28 && n.a32 28 ≤ 20000000 else n.a8 7 ≤ 63 && n.a32 28 == 0)

/-- The serial port that a port node uses on its side (R210): 0 to 35; none for an index that does not exist. -/
def nodePort (n : GNode) : Option Nat :=
  let i := n.a8 1
  match n.a8 0 with
  | 0 => if i < 16 then some i else none
  | 1 => if i < 4 then some (16 + i) else none
  | 2 => if i < 8 then some ((if n.typ = tSrcPort then 20 else 28) + i) else none
  | _ => none

/-- R360: whether a node of the port's side may run on the port's own clock, and whether it must. MADI keeps one CTL for
both directions. -/
def ownClockFit (ctl : List Word) (n : GNode) : Bool × Bool :=
  match nodePort n with
  | none => (false, false)
  | some p =>
    let c := ctl.getD p 0
    match portKind p with
    | .tdm => (!c.flag 8, false)
    | .aesIn => (true, false)
    | .madi => if n.typ = tSrcPort then (true, false) else (c.flag 8, c.flag 8)
    | .aesOut => (c.flag 8, c.flag 8)

/-- R210 to R213, R357 to R360, R417: one node by itself. `hz` gives the rate of a declared domain. -/
def nodeFields (e : FqEnv) (hz : Nat → Nat) (n : GNode) : Bool :=
  let portMax := if n.a8 0 = 0 then 32 else if n.a8 0 = 1 then 64 else 2
  let port := fun (ch : Nat) =>
    (nodePort n).isSome && attrZero n 4 32 && n.a16 2 + ch ≤ portMax &&
      (let o := ownClockFit e.ctl n
       if n.dom = 0xFF then o.1 else !o.2)
  match n.typ with
  | 1 => n.nIn == 0 && 1 ≤ n.nOut && n.nOut ≤ 64 && port n.nOut
  | 2 => n.nOut == 0 && 1 ≤ n.nIn && n.nIn ≤ 64 && port n.nIn
  | 3 => n.nIn == 0 && 1 ≤ n.nOut && n.nOut ≤ 64 && streamOk n (hz n.dom)
  | 4 => n.nOut == 0 && 1 ≤ n.nIn && n.nIn ≤ 64 && streamOk n (hz n.dom)
  | 5 => attrZero n 4 24
  | 6 => 1 ≤ n.nIn && n.nIn ≤ 4096 && 1 ≤ n.nOut && n.nOut ≤ 4096 && n.a8 0 ≤ 2 && n.a8 1 == 0 && attrZero n 4 24
  | 7 => 1 ≤ n.nIn && n.nIn ≤ 4096 && n.nOut == n.nIn && attrZero n 4 32 && 1 ≤ n.a32 0 && n.a32 0 ≤ 60 * hz n.dom
  | 8 => 1 ≤ n.nIn && n.nIn ≤ 2048 && n.nOut == n.nIn && attrZero n 2 32 && n.a8 0 ≤ 1 && n.a8 1 ≤ 2
  | 9 => n.nIn == 0 && 1 ≤ n.nOut && n.nOut ≤ 4096 && n.a8 0 ≤ 3 && n.a8 1 == 0 && n.a16 2 ≤ 63 && attrZero n 4 32
  | 10 => n.nOut == 0 && 1 ≤ n.nIn && n.nIn ≤ 4096 && n.a8 0 ≤ 3 && n.a8 1 == 0 && n.a16 2 ≤ 63 && attrZero n 4 32
  | 11 => n.nOut == 0 && 1 ≤ n.nIn && n.nIn ≤ 4096 && n.a8 0 ≤ 3 && n.a8 1 == 0 && attrZero n 8 32 && n.cls == 2 &&
      10 ≤ n.a32 4 && n.a16 2 + n.nIn ≤ e.records
  | 12 => n.nIn == 0 && 1 ≤ n.nOut && n.nOut ≤ 4096 && attrZero n 4 32
  | _ => false

/-- R381, R382: the ratio of a LINK's two sides. -/
def linkRatio (hz : Nat → Nat) (n : GNode) : Bool :=
  let a := hz n.dom
  let b := hz n.outDom
  if n.a8 0 = 0 then b == 2 * a || b == 4 * a || a == 2 * b || a == 4 * b else b ≤ 4 * a && a ≤ 4 * b

/-- R209 to R213, R339: a node of the file or of a graph. A domain that is neither declared nor running is a matter of R234
(DEDUCED, log 81). -/
def nodeCheck (e : FqEnv) (hz : Nat → Nat) (decl : Nat → Bool) (n : GNode) : Option Refuse :=
  firstOf
    [need (1 ≤ n.id && n.id ≤ 0xFFFFFFFE && 1 ≤ n.typ && n.typ ≤ 12 && n.cls ≤ 2) 0x07 n.off,
     need (n.dom ≤ 2 || (n.dom == 0xFF && n.typ ≤ 3)) 0x07 n.off,
     need (n.dom > 2 || decl n.dom || !e.running.testBit n.dom) 0x07 n.off,
     need (n.typ != tLink || n.outDom > 2 || decl n.outDom || !e.running.testBit n.outDom) 0x07 n.off,
     need (nodeFields e hz n) 0x07 n.off,
     need ((n.typ != tSrcStream && n.typ != tSnkStream) || n.dom == 0xFF || e.ptpDoms.testBit n.dom || !decl n.dom) 0x07 n.off,
     if n.typ = tLink && decl n.dom && decl n.outDom && !linkRatio hz n then
       some { Refuse.at 0x07 n.off with need := n.dom, have_ := n.outDom } else none]

/-- R209: node entries of the file: OWNER, NAME and fields. -/
def nodesCheck (e : FqEnv) (f : List Byte) (hz : Nat → Nat) (decl : Nat → Bool) : Option Refuse :=
  (List.range (secCount f 1)).findSome? fun i =>
    let o := entOff f 1 48 i
    firstOf [need (le f (o + 7) 1 == e.part) 0x05 o, nodeCheck e hz decl (fqNode f i), need (nameOk f (le f (o + 12) 4)) 0x04 o]

/-- R214: the edge entries of the file. -/
def fqEdge (f : List Byte) (i : Nat) : GEdge :=
  let o := entOff f 2 16 i
  ⟨le f o 4, le f (o + 8) 2, le f (o + 4) 4, le f (o + 10) 2, le f (o + 12) 2, o⟩

def edgesCheck (f : List Byte) : Option Refuse :=
  (List.range (secCount f 2)).findSome? fun i =>
    let o := entOff f 2 16 i
    let e := fqEdge f i
    need (1 ≤ e.width && e.width ≤ 4096 && (e.src != sharedSid || e.width == 1) && le f (o + 14) 2 == 0) 0x09 o

/-- R219: the objects of the file. -/
def objsCheck (f : List Byte) : Option Refuse :=
  (fqObjBody f).starts.findSome? fun o => kobjCheck (slice f o (le f o 4)) o

def fqObjects (f : List Byte) : List (List Byte) := (fqObjBody f).starts.map fun o => slice f o (le f o 4)

/-- R221: the groups of the file. -/
def fqGroups (f : List Byte) : List GGroup :=
  let c := secCount f 4
  (List.range c).map fun i =>
    let o := entOff f 4 16 i
    { target := le f (o + 8) 4, stood := le f (o + 8) 4, name := fqName f (le f (o + 12) 4), off := o
      members := (List.range (le f (o + 4) 4)).map fun j =>
        let q := entOff f 4 16 (c + le f o 4 + j)
        ⟨le f q 4, le f (q + 8) 2, le f (q + 4) 4, le f (q + 10) 2, le f (q + 12) 2, q⟩ }

def groupsCheck (f : List Byte) : Option Refuse :=
  let c := secCount f 4
  firstOf <|
    (List.range c).map (fun i =>
      let o := entOff f 4 16 i
      firstOf [need (2 ≤ le f (o + 4) 4 && le f o 4 + le f (o + 4) 4 ≤ secExtra f 4) 0x0E o, need (nameOk f (le f (o + 12) 4)) 0x04 o]) ++
    (List.range (secExtra f 4)).map (fun j =>
      let q := entOff f 4 16 (c + j)
      need (le f (q + 14) 2 == 0 && 1 ≤ le f (q + 12) 2) 0x0E q)

/-- R216, R217: crosspoint slots of a SUM node, each in range; `set` admits RAMP and REMOVE (R223). -/
def xpOk (n : GNode) (set : Bool) (s : Word × Word) : Bool :=
  xpIn s.1 < n.nIn && xpOut s.1 < n.nOut && s.2.fld 25 5 == 0 && (set || s.2.fld 30 2 == 0)

/-- Whether a list of crosspoint slots names one pair twice (R217). -/
def xpDup (l : List (Word × Word)) : Bool :=
  let ks := l.map (·.1)
  !(decide ks.Nodup)

/-- The words of parameter slots. -/
def slotWords (l : List (Word × Word)) : List Word := l.flatMap fun s => [s.1, s.2]

/-- R172: |a2| ≥ 1 or |a1| ≥ 1 + a2 for section `k` of BQC8. -/
def bqUnstable (ws : List Word) (k : Nat) : Bool :=
  let a1 := (ws.getD (4 + 5 * k) 0).toInt
  let a2 := (ws.getD (5 + 5 * k) 0).toInt
  let one : Int := 2 ^ 28
  a2.natAbs ≥ 2 ^ 28 || (a1.natAbs : Int) ≥ one + a2

/-- R218, R172: parameter words of a library kernel: whether in range, and an unstable section. -/
def libParams (id : Nat) (ws : List Word) : Bool × Option Nat :=
  if id = 0x80000001 then
    let s := (ws.getD 0 0).toNat
    (1 ≤ s && s ≤ 32, if 1 ≤ s ∧ s ≤ 32 then (List.range s).find? (bqUnstable ws) else none)
  else if id = 0x80000003 then (decide (0 ≤ (ws.getD 0 0).toInt), none)
  else if id = 0x80000004 then (decide (0 ≤ (ws.getD 0 0).toInt), none)
  else (true, none)

/-- R210, R216 to R219: a KERNEL node against its object and parameters, with refusals at `off`, and at `slot j` where
parameter slot `j` breaks the rule. -/
def kernelNode (objs : List (List Byte)) (n : GNode) (off : Nat) (slot : Nat → Nat) : Option Refuse :=
  let id := n.a32 0
  match shapeOf objs id with
  | none => some (Refuse.at 0x0C off)
  | some s =>
    let ws := slotWords n.slots
    let words := match s.params with
      | some p => p
      | none => 1 + 5 * (ws.getD 0 0).toNat
    firstOf
      [need (s.calls n.nIn n.nOut).isSome 0x07 off,
       need (!s.bg || n.cls == 2) 0x07 off,
       need (n.slots.length == (words + 1) / 2) 0x0D off,
       need ((ws.drop words).all (· == 0)) 0x0D (slot (n.slots.length - 1)),
       need (libParams id ws).1 0x0D (slot 0),
       (libParams id ws).2.map fun k => { Refuse.at 0x0D (slot ((4 + 5 * k) / 2)) with inst := k }]

/-- R216, R217: the crosspoint slots of a SUM entry, of which slot `j` stands at `slot j` of the file. -/
def xpCheck (n : GNode) (slot : Nat → Nat) : Option Refuse :=
  (List.range n.slots.length).findSome? fun j =>
    let x := n.slots.getD j (0, 0)
    firstOf [need (xpOk n false x) 0x0D (slot j), need (!(n.slots.take j).any (·.1 == x.1)) 0x08 (slot j)]

/-- R216 to R219: the parameters of node entry `i`: its slots exist, no earlier entry has one of them, and each is in
range. -/
def paramCheck (f : List Byte) (objs : List (List Byte)) (i : Nat) : Option Refuse :=
  let n := fqNode f i
  let first := n.a32 24
  let slot := fun j => entOff f 3 8 (first + j)
  let span := fun (m : GNode) => if m.typ = tKernel ∨ m.typ = tSum then (m.a32 24, m.a32 28) else (0, 0)
  if n.typ ≠ tKernel ∧ n.typ ≠ tSum then none
  else if n.a32 28 ≠ 0 ∧ secCount f 3 < first + n.a32 28 then some (Refuse.at 0x0D n.off)
  else
    let earlier := (List.range i).map fun k => span (fqNode f k)
    firstOf
      [((List.range (n.a32 28)).find? fun j => earlier.any fun m => m.1 ≤ first + j && first + j < m.1 + m.2).map fun j => Refuse.at 0x0D (slot j),
       if n.typ = tKernel then kernelNode objs n n.off slot else xpCheck n slot]

/-- R216 to R219: the parameters of every node entry of the file. -/
def paramsCheck (f : List Byte) (objs : List (List Byte)) : Option Refuse :=
  (List.range (secCount f 1)).findSome? (paramCheck f objs)

/-- R215 items 1, 3, 4, R211, R30: an edge of a graph. -/
def edgeCheck (e : FqEnv) (g : Graph) (d : GEdge) : Option Refuse :=
  match g.node d.dst with
  | none => some (Refuse.at 0x09 d.off)
  | some t =>
    if t.nIn < d.dstCh + d.width then some (Refuse.at 0x09 d.off)
    else if d.src = sharedSid then
      if !(e.grants.any fun r => r.1 ≤ d.srcCh && d.srcCh < r.1 + r.2) then some (Refuse.at 0x0B d.off)
      else match e.sidDom.find? (·.1 == d.srcCh) with
        | some s => need (s.2 == t.dom) 0x0B d.off
        | none => some (Refuse.at 0x0B d.off)
    else match g.node d.src with
      | none => some (Refuse.at 0x09 d.off)
      | some s =>
        let async := fun (n : GNode) => n.typ == tLink && n.a8 0 == 1
        if s.nOut < d.srcCh + d.width then some (Refuse.at 0x09 d.off)
        else if s.dom = 0xFF then need (async t) 0x07 d.off
        else if t.dom = 0xFF then need (async s) 0x07 d.off
        else if s.outDom = t.dom then none
        else some { Refuse.at 0x0A d.off with need := s.outDom, have_ := t.dom }

/-- R215 item 2: an input has at most one feeding edge; the later edge is named. -/
def edgeDup : List GEdge → List GEdge → Option Refuse
  | _, [] => none
  | seen, d :: r =>
    if seen.any fun s => s.dst == d.dst && s.dstCh < d.dstCh + d.width && d.dstCh < s.dstCh + s.width then some (Refuse.at 0x09 d.off)
    else edgeDup (d :: seen) r

/-- R358: all nodes of one TDM port name one domain. -/
def tdmCheck (e : FqEnv) (g : Graph) : Option Refuse :=
  let tdm := fun (n : GNode) => if (n.typ = tSrcPort ∨ n.typ = tSnkPort) ∧ n.a8 0 = 0 then some (n.a8 1) else none
  g.nodes.findSome? fun n =>
    match tdm n with
    | none => none
    | some p => need (g.nodes.all (fun m => tdm m != some p || m.dom == n.dom) && e.tdmDom.all fun q => q.1 != p || q.2 == n.dom) 0x07 n.off

/-- R227: limits of the graph. -/
def graphLimits (g : Graph) : Bool :=
  g.nodes.length ≤ 16384 && g.edges.length ≤ 65536 && (g.nodes.foldl (fun k n => k + n.slots.length) 0) ≤ 6291456 &&
    g.groups.length ≤ 1024 && (g.groups.foldl (fun k q => k + q.members.length) 0) ≤ 65536 && g.objs.length ≤ 256

/-- R46, R47, R221: the groups of a section, against the graph after the transaction. -/
def groupRules (g : Graph) (hz : Nat → Nat) : Option Refuse :=
  let all : List (GGroup × List (GMember × List PathEntry)) := g.groups.map fun q => (q, g.memberLats hz q)
  let ends : List (Chan × Chan × Nat) := all.flatMap fun a => a.2.flatMap fun m => m.2.map fun p => (p.src, p.snk, m.1.off)
  firstOf
    [all.findSome? fun a => a.2.findSome? fun m => need ((List.range m.1.width).all fun i => m.2.any fun p => p.snk.2 == m.1.snkCh + i) 0x0E m.1.off,
     (List.range ends.length).findSome? fun i => match ends[i]? with
       | some p => need (!(ends.take i).any fun q => q.1 == p.1 && q.2.1 == p.2.1) 0x0E p.2.2
       | none => none,
     all.findSome? fun a =>
       let ds := a.2.flatMap fun m => m.2.map (·.dom)
       need (ds.all (· == ds.headD 0)) 0x0E a.1.off,
     all.findSome? fun a =>
       let un : List (Nat × Nat) := a.2.map fun m => (m.1.off, (m.2.map fun p => p.lat - p.pad).foldl max 0)
       let longest : Nat := (un.map (·.2)).foldl max 0
       if a.1.target != 0 && a.1.target < longest then (un.find? (·.2 == longest)).map fun m => Refuse.at 0x0E m.1 else none]

/-- The unpadded latencies of a group's members, record by record. -/
def Graph.bareLats (g : Graph) (hz : Nat → Nat) (q : GGroup) : List (List Nat) :=
  (g.memberLats hz q).map fun m => m.2.map fun p => p.lat - p.pad

/-- R47, R61: whether the group's target is found anew: its section is new, or a member's unpadded latency has changed. -/
def Graph.moves (old g : Graph) (hz0 hz : Nat → Nat) (fresh : Bool) (q : GGroup) : Bool := fresh || old.bareLats hz0 q != g.bareLats hz q

/-- R46, R61: the graph with its groups' targets in force. -/
def Graph.targets (old g : Graph) (hz0 hz : Nat → Nat) (fresh : Bool) : Graph :=
  { g with groups := g.groups.map fun q =>
      if q.target ≠ 0 then { q with stood := q.target }
      else if old.moves g hz0 hz fresh q then { q with stood := (g.bareLats hz q).flatten.foldl max 0 } else q }

/-- R46, R47: an edit that takes a member of a group past the target named with it is refused; its file has no member record
to name (DESIGN CHOICE, log 81: the COMMIT record is named). -/
def groupsOutgrown (old g : Graph) (hz0 hz : Nat → Nat) (last : Nat) : Option Refuse :=
  need (!g.groups.any fun q => q.target != 0 && old.moves g hz0 hz false q && (g.bareLats hz q).flatten.any (q.target < ·)) 0x0E last

/-- The checks of a graph as a whole (R224); a limit names the COMMIT record at `last`. With a domain section the nodes that
the graph keeps are judged again by its rates. -/
def graphCheck (e : FqEnv) (hz0 hz : Nat → Nat) (decl : Nat → Bool) (g : Graph) (newGroups newDoms : Bool) (last : Nat) : Option Refuse :=
  firstOf
    [g.nodes.findSome? fun n => need ((g.nodes.filter (·.id == n.id)).length == 1 || !(g.nodes.any fun m => m.id == n.id && m.off < n.off)) 0x08 n.off,
     g.edges.findSome? (edgeCheck e g), edgeDup [] g.edges, tdmCheck e g,
     if newDoms then g.nodes.findSome? (nodeCheck e hz decl) else none,
     if newGroups then groupRules g hz else groupsOutgrown e.graph g hz0 hz last,
     need (graphLimits g) 0x11 last]

/-- A change that a SET makes to parameters of its node, for a parameter transaction (R250). -/
inductive PChange where
  | word (node idx : Nat) (old new : Word) (smooth : Nat)
  | gain (node inp out : Nat) (w : Word) (timeout : Nat)
deriving DecidableEq, Repr

/-- The working copy of a transaction (R224). -/
structure Work where
  g    : Graph
  only : Bool                -- so far nothing but parameter changes
  chgs : List PChange
deriving DecidableEq, Repr

/-- The parameter words of SET: section slots `[first, first + n)`. -/
def fqSlots (f : List Byte) (first n : Nat) : List (Word × Word) :=
  (List.range n).map fun j =>
    let q := entOff f 3 8 (first + j)
    (BitVec.ofNat 32 (le f q 4), BitVec.ofNat 32 (le f (q + 4) 4))

/-- Words as slots, with a trailing 0 where their number is odd. -/
def toSlots : List Word → List (Word × Word)
  | a :: b :: r => (a, b) :: toSlots r
  | [a] => [(a, 0)]
  | [] => []

/-- R223: a replacement ATTR changes none of the fields it must keep: channel counts follow the kernel object, the port or
stream identity (R333: ports, destination, UDP port, on receive the source filter) and the LINK's sides (R389) stay. -/
def attrKeeps (n : GNode) (attr : List Byte) : Bool :=
  let same := fun (a b : Nat) => slice n.attr a (b - a) == slice attr a (b - a)
  match n.typ with
  | 1 | 2 => same 0 4
  | 3 => same 3 4 && same 8 28
  | 4 => same 3 4 && same 8 20
  | 5 => same 0 4
  | 8 => same 0 2
  | _ => true

/-- Apply one SUM slot of a SET: change, add or remove a crosspoint (R223). -/
def setXp (n : GNode) (s : Word × Word) : Option GNode :=
  let has := n.slots.any (·.1 == s.1)
  let v := (s.1, s.2.setFld 30 2 0)
  if s.2.flag 30 then if has then some { n with slots := n.slots.filter (·.1 != s.1) } else none
  else some { n with slots := if has then n.slots.map fun t => if t.1 == s.1 then v else t else n.slots ++ [v] }

/-- Apply the slots of a SET to a SUM. -/
def setXps : GNode → List (Word × Word) → Option GNode
  | n, [] => some n
  | n, s :: r =>
    match setXp n s with
    | some m => setXps m r
    | none => none

/-- R223: one SET record at offset `o`. -/
def patchSet (e : FqEnv) (hz : Nat → Nat) (f : List Byte) (o : Nat) (w : Work) : Work × Option Refuse :=
  let attrs := le f (o + 1) 1
  let first := le f (o + 8) 4
  let cnt := le f (o + 12) 4
  let wo := le f (o + 16) 4
  let smooth := le f (o + 20) 2
  let tmo := le f (o + 22) 2
  match w.g.node (le f (o + 4) 4) with
  | none => (w, some (Refuse.at 0x0F o))
  | some n =>
    let nw := slice f (o + 24) 32
    let n1 := if attrs = 1 then { n with attr := if n.typ = tKernel ∨ n.typ = tSum then nw.take 24 ++ n.attr.drop 24 else nw } else n
    let slots := fqSlots f first cnt
    let bad := firstOf
      [need (first + cnt ≤ secCount f 3 || cnt == 0) (if secOff f 3 = 0 then 0x04 else 0x0F) o,
       need (attrs == 0 || attrKeeps n nw) 0x0F o,
       if attrs = 1 then (nodeCheck e hz (fun _ => true) { n1 with off := o }) else none,
       need (cnt == 0 || n.typ == tKernel || n.typ == tSum) 0x0F o]
    match bad with
    | some r => (w, some r)
    | none =>
      if n.typ = tKernel then
        let old := slotWords n.slots
        let want := slotWords slots
        let total := if n.a32 0 = 0x80000001 then 162 else ((shapeOf w.g.objs (n.a32 0)).bind (·.params)).getD old.length
        let bq := n.a32 0 == 0x80000001
        let upd := (if bq then old ++ List.replicate (wo - old.length) 0 else old).take wo ++ want ++ old.drop (wo + want.length)
        -- the trailing word of the last slot may fall outside an odd parameter block
        let fits := wo + want.length ≤ old.length
        let n2 := { n1 with slots := toSlots (upd.take old.length) }
        -- BQC8 takes its length from word 0 (R218)
        let s := (upd.getD 0 0).toNat
        let n2 := if bq then { n2 with slots := toSlots ((upd ++ List.replicate 162 0).take (1 + 5 * s)) } else n2
        let fits := if bq then decide (wo + want.length ≤ 2 * ((2 + 5 * s) / 2)) else fits
        let chg := (List.range want.length).filterMap fun i =>
          let a := old.getD (wo + i) 0
          let b := want.getD i 0
          if total ≤ wo + i then none else some (PChange.word n.id (wo + i) a b smooth)
        if !fits then (w, some (Refuse.at 0x0D o))
        else match kernelNode w.g.objs n2 o fun _ => o with
          | some r => (w, some r)
          | none => ({ g := w.g.setNode n2, only := w.only && n1.attr == n.attr, chgs := w.chgs ++ chg }, none)
      else if n.typ = tSum then
        if wo ≠ 0 then (w, some (Refuse.at 0x0F o))
        else if !(slots.all (xpOk n true)) then (w, some (Refuse.at 0x0D o))
        else if xpDup slots then (w, some (Refuse.at 0x08 o))
        else match setXps n1 slots with
          | none => (w, some (Refuse.at 0x0D o))
          | some n2 =>
            let exist := slots.all fun s => n.slots.any (·.1 == s.1)
            let t := if tmo = 0 then n1.a16 2 else tmo
            ({ g := w.g.setNode n2, only := w.only && n1.attr == n.attr && exist,
               chgs := w.chgs ++ slots.map fun s => PChange.gain n.id (xpIn s.1) (xpOut s.1) s.2 (if t = 0 then 480 else t) }, none)
      else ({ g := w.g.setNode n1, only := w.only && n1.attr == n.attr, chgs := w.chgs }, none)

/-- R223: one patch record at offset `o`, other than COMMIT. -/
def patchRec (e : FqEnv) (hz : Nat → Nat) (f : List Byte) (w : Work) (o : Nat) : Work × Option Refuse :=
  let op := le f o 1
  let fl := le f (o + 1) 1
  let tgt := le f (o + 4) 4
  let bad := (w, some (Refuse.at 0x0F o))
  if op = 1 then
    let fn := le f (o + 8) 4
    let nn := le f (o + 12) 4
    let fe := le f (o + 16) 4
    let ne := le f (o + 20) 4
    let ns := (List.range nn).map fun i => fqNode f (fn + i)
    if tgt ≠ 0 then bad
    else if (nn ≠ 0 ∧ secOff f 1 = 0) ∨ (ne ≠ 0 ∧ secOff f 2 = 0) then (w, some (Refuse.at 0x04 o))
    else if secCount f 1 < fn + nn ∧ nn ≠ 0 ∨ secCount f 2 < fe + ne ∧ ne ≠ 0 then bad
    else if ns.any fun n => (w.g.node n.id).isSome then (w, some (Refuse.at 0x08 o))
    else ({ g := { w.g with nodes := w.g.nodes ++ ns, edges := w.g.edges ++ (List.range ne).map fun i => fqEdge f (fe + i) }
            only := false, chgs := w.chgs }, none)
  else if op = 2 ∧ fl = 0 then
    if (w.g.node tgt).isNone then bad
    else ({ w with g := { w.g with nodes := w.g.nodes.filter (·.id != tgt), edges := w.g.edges.filter fun d => d.src != tgt && d.dst != tgt }, only := false }, none)
  else if op = 2 ∧ fl = 1 then
    let c := le f (o + 8) 2
    let wd := le f (o + 10) 2
    match w.g.node tgt with
    | none => bad
    | some n =>
      if le f (o + 12) 4 ≠ 0 ∨ wd = 0 ∨ n.nIn < c + wd then bad
      else ({ w with g := w.g.unfeed tgt c wd, only := false }, none)
  else if op = 3 then patchSet e hz f o w
  else if op = 4 then
    let c := le f (o + 8) 2
    let wd := le f (o + 10) 2
    let src := le f (o + 12) 4
    if le f (o + 18) 2 ≠ 0 ∨ le f (o + 20) 4 ≠ 0 ∨ (w.g.node tgt).isNone ∨ (src ≠ sharedSid ∧ (w.g.node src).isNone) then bad
    else if wd = 0 ∨ 4096 < wd ∨ (src = sharedSid ∧ wd ≠ 1) then (w, some (Refuse.at 0x09 o))
    else
      let g := w.g.unfeed tgt c wd
      ({ w with g := { g with edges := g.edges ++ [⟨src, le f (o + 16) 2, tgt, c, wd, o⟩] }, only := false }, none)
  else bad

/-- COMMIT (R225). -/
structure Commit where
  mode  : Nat
  dom   : Nat
  xfade : Nat
  at_   : Nat
deriving DecidableEq, Repr

def fqCommit (f : List Byte) (o : Nat) : Commit :=
  let x := le f (o + 10) 2
  ⟨le f (o + 8) 1, le f (o + 9) 1, if x = 0xFFFF then 240 else x, le f (o + 16) 8⟩

/-- R223, R225, R306: the COMMIT record at offset `o`; its TARGET is a matter of R223, and MODE 0 names a domain that runs. -/
def commitCheck (f : List Byte) (o : Nat) (runs : Nat → Bool) : Option Refuse :=
  let c := fqCommit f o
  firstOf
    [need (le f (o + 4) 4 == 0) 0x0F o,
     need (le f (o + 12) 4 == 0 && c.mode ≤ 2 && (if c.mode = 0 then c.dom ≤ 2 && runs c.dom else c.dom == 0) &&
       (c.mode != 2 || c.at_ == 0) && c.xfade ≤ 4800) 0x10 o]

/-- R224: the records in file order, with the refusal `bad` of what follows them in the body: the last record is the one
COMMIT. -/
def patchAll (e : FqEnv) (hz : Nat → Nat) (f : List Byte) (runs : Nat → Bool) (bad : Option Refuse) : Work → List Nat → Work × Option Refuse
  | w, [] => (w, bad <|> some (Refuse.at 0x0F (secOff f 7)))
  | w, o :: r =>
    let end_ := r.isEmpty && bad.isNone
    if le f o 1 = 0x0F then (w, if end_ then commitCheck f o runs else some (Refuse.at 0x0F o))
    else match patchRec e hz f w o with
      | (w2, none) => if end_ then (w2, some (Refuse.at 0x0F o)) else patchAll e hz f runs bad w2 r
      | (w2, some x) => (w2, some x)

/-- What a file that passes the format checks asks for. -/
structure Fq where
  part   : Nat
  full   : Bool
  tag    : Nat
  graph  : Graph
  doms   : List (Nat × Option (Nat × Nat))
  commit : Commit
  param  : Bool              -- a parameter transaction (R224)
  chgs   : List PChange
  recs   : Nat
  groups : Bool              -- it carries its latency groups
deriving DecidableEq, Repr

/-- Carry over to a full graph what placement holds for nodes that it keeps (R60, R238): the age, and what stays is
decided when the graphs are compared. -/
def keepNode (old : Graph) (n : GNode) : GNode :=
  match old.node n.id with
  | some m => if m.typ = n.typ ∧ m.cls = n.cls then { n with adm := m.adm, sids := m.sids, cross := m.cross, pads := m.pads, hops := m.hops, ctx := m.ctx, lanes := m.lanes } else n
  | none => n

/-- R204 to R228: judge a file. -/
def fqJudge (e : FqEnv) (rate : Nat → Nat) (f : List Byte) : Except Refuse Fq :=
  let refuse := fun r => (Except.error r : Except Refuse Fq)
  match headerCheck e f with
  | some r => refuse r
  | none =>
    let decl := fun d => (declAfter e f d).isSome
    let hz := fun d => match declAfter e f d with | some x => rate x.1 | none => 48000
    let recs := (fqRecBody f).starts
    let full := le f 6 1 == 0
    let last := recs.getLastD 0
    let objs := if full then fqObjects f else e.graph.objs ++ fqObjects f
    match firstOf [domsCheck e f, nodesCheck e f hz decl, edgesCheck f, paramsCheck f objs, groupsCheck f, objsCheck f] with
    | some r => refuse r
    | none =>
      let runs := fun d => e.running.testBit d
      let base : Work := { g := { e.graph with nodes := e.graph.nodes.map fun n => { n with off := last }
                                               edges := e.graph.edges.map fun d => { d with off := last }, objs := objs }
                           only := true, chgs := [] }
      let fresh : Graph := { nodes := (List.range (secCount f 1)).map fun i => keepNode e.graph (fqNode f i)
                             edges := (List.range (secCount f 2)).map (fqEdge f), groups := fqGroups f, objs := objs }
      let bad := (fqRecBody f).bad
      let w : Work × Option Refuse :=
        if full then
          ({ g := fresh, only := false, chgs := [] },
            firstOf [bad, need (recs.length == 1 && le f last 1 == 0x0F) 0x04 (secOff f 7), commitCheck f last runs])
        else patchAll e hz f runs bad base recs
      match w.2 with
      | some r => refuse r
      | none =>
        let newGroups := secOff f 4 != 0
        let g := if newGroups then { w.1.g with groups := fqGroups f } else w.1.g
        let hz0 := fun d => match e.decl.getD d none with | some x => rate x.1 | none => 48000
        match graphCheck e hz0 hz decl g (newGroups || full) (secOff f 0 != 0) last with
        | some r => refuse r
        | none =>
          -- R208: a domain that the file undeclares is used by no partition afterwards
          let dead := (fqDomains f).findIdx? fun d => d.2.isNone && g.domains.testBit d.1
          match dead with
          | some i => refuse (Refuse.at 0x12 (entOff f 0 16 i))
          | none =>
            .ok { part := e.part, full := full, tag := le f 0x14 4, graph := g, doms := fqDomains f, commit := fqCommit f last
                  param := !full && w.1.only && recs.length ≥ 2 && secOff f 0 == 0 && !newGroups
                  chgs := w.1.chgs, recs := recs.length, groups := newGroups || full }

end Sys2Proof.Machine
end

