-- ==== Sys2Proof/Machine/SetterState.lean ====
section
/-!
DEFINITION. The state of the Setter: intake, the committed and armed epochs of the partitions, the placement that it keeps
(R233 to R257).
-/

namespace Sys2Proof.Machine

/-- An entry of intake (R405, R406): the ring it came from, its fields, and the data that ADDR names once read. `wait`: a
read has been issued; `fail`: it failed (R412); `session`: the session of the partition in which it was fetched. -/
structure Entry where
  part    : Nat
  sq      : Nat
  cq      : Nat
  cmdId   : Nat
  op      : Nat
  addr    : Nat
  len     : Nat
  args    : List Byte
  data    : Option (List Byte)
  wait    : Bool
  fail    : Bool
  session : Nat
deriving DecidableEq, Repr

/-- How an armed epoch changes over: crossfade or cut, dip, removal (R408), fade-in after a failure (R256, R301), or a
parameter transaction (R250). -/
inductive Law where
  | blend | dip | remove | fadeIn | param
deriving DecidableEq, Repr

/-- A sink channel whose reading changes: node and channel, domain, old and new SID. `gone`: the node is that of the old graph,
whose channel the new one does not have in its place. -/
structure SinkChg where
  node : Nat
  ch   : Nat
  dom  : Nat
  a    : Nat
  b    : Nat
  gone : Bool
deriving DecidableEq, Repr

/-- A call of a kernel at its place (R170, R219): partition, domain, class, KOBJ and the object's bytes, S of a BQC8, the SID
gathered into each input (none once nothing that stays reads it) and posted from each output (0 once nothing does). -/
structure Call where
  part  : Nat
  dom   : Nat
  cls   : Nat
  kern  : Nat
  obj   : List Byte
  sects : Nat
  at_   : KBlock
  ins   : List (Option Nat)
  outs  : List Nat
deriving DecidableEq, Repr

/-- A delay line at its place: its delay, the SID gathered into its input (none for a pad, which a kernel or another line feeds)
and the SID posted from its output. -/
structure LineRec where
  part  : Nat
  dom   : Nat
  cls   : Nat
  at_   : LinePlace
  d     : Nat
  inSid : Option Nat
  sid   : Nat
deriving DecidableEq, Repr

/-- A sink's part in one tile: its SID, SCALE, XMODE (R181), the SID of each entry, and whether the swap that brings it
initialises its slot. -/
structure SinkRec where
  part  : Nat
  dom   : Nat
  cls   : Nat
  at_   : SinkPlace
  sid   : Nat
  scale : Nat
  mode  : Nat
  sids  : List (Nat × Nat)
  fresh : Bool
deriving DecidableEq, Repr

/-- What the Setter has placed in Facets and tiles. -/
structure Placed where
  calls : List Call
  lines : List LineRec
  sinks : List SinkRec
deriving DecidableEq, Repr

def Placed.none_ : Placed := ⟨[], [], []⟩

/-- An epoch under way (R241 to R248). `from_` is the completion's entry, none for a re-placement. Ticks by domain:
`p` pre-roll, `c` commit, `f` fade-in. Masks of domains: `doms` used, `begun` pre-roll or fade-in work started, `force`
commit tick reached, `gone` old work removed, `swaps` new work taken. `pre` is P_time in units of `timeUnit`. -/
structure Armed where
  part   : Nat
  from_  : Option Entry
  tag    : Nat
  number : Nat
  law    : Law
  old    : Graph
  new    : Graph
  sinks  : List SinkChg
  x      : Nat
  pre    : Nat
  anchor : Nat
  doms   : Nat
  p      : List Nat
  c      : List Nat
  f      : List Nat
  begun  : Nat
  force  : Nat
  gone   : Nat
  done   : Bool
  chg    : List Chan         -- channels with a new rendering,
  marks  : List Chan         -- and what the latency report marks as changed (R230)
  dip    : Bool              -- a delay dip beside the law (R236)
  shed   : Bool
  geo    : List LinePlace    -- geometries to come of lines that stay
  redo   : Nat               -- domains that restart at c + 32 (R308)
  undecl : Nat               -- domains that stop after the last removal (R307)
  tap    : Bool              -- a delay changes without a geometry swap (R249)
  work   : Placed              -- what the arming placed
  swaps  : Nat               -- domains in which Facets and tiles have taken it (R244, R248)
  use0   : Memory (Nat × Nat) -- the admitted use before the arming
  cuts   : List (Nat × Nat × Nat)  -- crosspoints removed before, to be deactivated: node, input, output (R250)
deriving DecidableEq, Repr

/-- An epoch of partition `p` from graph `old` to graph `new` with nothing in it. -/
def Armed.base (p : Nat) (law : Law) (old new : Graph) : Armed where
  part := p
  from_ := none
  tag := 0
  number := 0
  law := law
  old := old
  new := new
  sinks := []
  x := 0
  pre := 0
  anchor := 0
  doms := 0
  p := []
  c := []
  f := []
  begun := 0
  force := 0
  gone := 0
  done := false
  chg := []
  marks := []
  dip := false
  shed := false
  geo := []
  redo := 0
  undecl := 0
  tap := false
  work := Placed.none_
  swaps := 0
  use0 := []
  cuts := []

/-- A transaction that has been admitted, or a re-placement that is being built, and is not armed yet. -/
structure Build where
  entry : Entry
  law   : Law
  fq    : Fq
  plan  : Plan
  graph : Graph              -- the new graph with its placement
  chg   : List Chan          -- channels with a new rendering,
  marks : List Chan          -- what the latency report marks as changed
  sinks : List SinkChg
deriving DecidableEq, Repr

/-- A parameter word that moves from `old` to `new` from apply tick `at_` on with SMOOTH `n` (R253). -/
structure SmoothWord where
  idx : Nat
  old : Word
  new : Word
  at_ : Nat
  n   : Nat
deriving DecidableEq, Repr

/-- Changes of a node's parameter words that are under way (R250, R253); `last` is the tick of the last armed step. -/
structure Smooth where
  part  : Nat
  node  : Nat
  words : List SmoothWord
  last  : Option Nat
deriving DecidableEq, Repr

/-- What the Setter holds of a partition: committed epoch and graph, admitted use by 16 × resource + SUB, the work that runs for
it. -/
structure SetPart where
  epoch : Nat
  live  : Bool               -- a committed epoch is held (R11)
  graph : Graph
  use   : Memory (Nat × Nat)
  work  : Placed
  gone  : List (Nat × Nat × Nat)  -- crosspoints removed by a parameter transaction: node, input, output (R250)
  tag   : Nat
deriving DecidableEq, Repr

def SetPart.reset : SetPart where
  epoch := 0
  live := false
  graph := Graph.empty
  use := []
  work := Placed.none_
  gone := []
  tag := 0

/-- A gain change that waits for a free place in its tile's update queue (R193). -/
structure GainWait where
  tile  : Nat
  entry : Nat
  tick  : Nat
  word  : Word
  tmo   : Nat
deriving DecidableEq, Repr

/-- A CONST output in the distributor (R519). -/
structure ConstOut where
  dom  : Nat
  sid  : Nat
  val  : Word
deriving DecidableEq, Repr

/-- The Setter. `seq` is the next admission sequence number (R60); `cleanup` lists partitions whose graph is to be removed
once their armed epoch is in force, with the command that asked for it (R408, R420); `facs` what each Facet with work holds
beside it; `gains` pushes that wait; `retired` Facets and tiles out of service (class, instance); `drams` counts the DRAM lines placed
so far (R292). -/
structure SetterSys where
  parts   : Memory SetPart
  intake  : List Entry
  builds  : List Build
  armed   : List Armed
  smooth  : List Smooth
  consts  : List ConstOut
  seq     : Nat
  cleanup : List (Nat × Entry)
  facs    : List FacPlace
  gains   : List GainWait
  retired : List (Nat × Nat)
  drams   : Nat
deriving DecidableEq, Repr

def SetterSys.reset : SetterSys where
  parts := []
  intake := []
  builds := []
  armed := []
  smooth := []
  consts := []
  seq := 1
  cleanup := []
  facs := []
  gains := []
  retired := []
  drams := 0

end Sys2Proof.Machine
end

