-- ==== Sys2Proof/Machine/TileState.lean ====
section
/-!
DEFINITION. The state of one Filigree tile (R177 to R203): entries, sink table banks, state slots, update queue,
FIL_ registers. Accumulators and the replica hold nothing between steps beyond the plane itself (R35).
-/

namespace Sys2Proof.Machine

/-- A pending gain change (R192 to R194). `sign` is the kept sign of the last period handled, `last` that period. -/
structure GainItem where
  entry : Nat
  tgt   : Int
  t     : Nat
  ramp  : Bool
  n0    : Nat
  g0    : Int
  sign  : Option Bool
  last  : Option Nat
deriving DecidableEq, Repr

/-- A sink state slot (R178, R195, R196): applied scale, last N, ramp periods left, the ramp's start and destination,
and whether a swap asks for initialisation (R197). -/
structure SinkSlot where
  scale : Nat
  lastN : Nat
  left  : Nat
  from_ : Nat
  dest  : Nat
  init  : Bool
deriving DecidableEq, Repr

/-- FIL_STATE.STATE (R202), in the order of its codes 0 to 3. -/
inductive TilePhase where
  | idle | publishing | accumulating | waiting
deriving DecidableEq, Repr

/-- The FIL_ register block (R202), with the staging registers of a push. -/
structure FilRegs where
  ctl       : Word
  count     : Nat
  countNext : Nat
  startTick : Nat
  swapTick  : Nat
  updA      : Word
  updB      : Word
  updC      : Word
  stat      : Word
  row       : Nat
  cycLast   : Nat
  cycMax    : Nat
  stExpect  : Nat
  stLast    : Nat
  stNext    : Nat
  eccAddr   : Word
deriving DecidableEq, Repr

/-- One tile. Entries are 48-bit numbers by entry index; the sink tables hold 128-bit descriptors by
4096 × bank + index. `rep` holds the FIL_STAT bits whose reports the current step sends. -/
structure Tile where
  entries : Memory (BitVec 48)
  sinks   : Memory (BitVec 128)
  slots   : Memory SinkSlot
  queue   : List GainItem
  r       : FilRegs
  st      : TilePhase
  bad     : List Upset
  rep     : List (Nat × Bool)
deriving DecidableEq, Repr

/-- What an unlisted state slot reads as (R279). -/
def SinkSlot.zero : SinkSlot := ⟨0, 0, 0, 0, 0, false⟩

/-- A tile at power-up: every memory word and FIL_ register 0 (R202, R279). -/
def Tile.reset : Tile where
  entries := []
  sinks := []
  slots := []
  queue := []
  r := { ctl := 0, count := 0, countNext := 0, startTick := 0, swapTick := 0, updA := 0, updB := 0, updC := 0,
         stat := 0, row := 0, cycLast := 0, cycMax := 0, stExpect := 0, stLast := 0, stNext := 0, eccAddr := 0 }
  st := .idle
  bad := []
  rep := []

end Sys2Proof.Machine
end

