-- ==== Sys2Proof/Machine/Tile.lean ====
section
/-!
DEFINITION. The Filigree tile: entries, sinks, gain changes, scaling, accumulation, ticks and swaps, and the FIL_
registers and window (R177 to R203).
-/

namespace Sys2Proof.Machine

/-- FIL_STAT bits (R202). -/
def filSat : Nat := 0
def filActWr : Nat := 3
def filEccCe : Nat := 4
def filEccUe : Nat := 5
def filTickOverrun : Nat := 6
def filUpdqFull : Nat := 7
def filUpdBad : Nat := 8
def filStallMismatch : Nat := 9
def filDescBad : Nat := 10

/-- R201 with R99: set a FIL_STAT bit. -/
def Tile.setStat (t : Tile) (b : Nat) : Tile :=
  let was := t.r.stat.flag b
  let r := { t.r with stat := t.r.stat ||| Word.one b }
  if b = filSat then { t with r := r } else { t with r := r, rep := t.rep ++ [(b, was && b != filEccCe)] }

def Tile.released (t : Tile) : Bool := t.r.ctl.flag 0
def Tile.domain (t : Tile) : Nat := t.r.ctl.fld 4 2
def Tile.bank (t : Tile) : Nat := t.r.ctl.fld 8 1

/-- Entry fields (R179). -/
def entSid (e : BitVec 48) : Nat := fld e.toNat 33 15
def entGain (e : BitVec 48) : Nat := fld e.toNat 9 24
def entActive (e : BitVec 48) : Bool := e.getLsbD 8
def entInv (e : BitVec 48) : Bool := e.getLsbD 6
def entLast (e : BitVec 48) : Bool := e.getLsbD 4

/-- R179: the signed gain of an entry. -/
def entSigned (e : BitVec 48) : Int := if entInv e then -(entGain e : Int) else entGain e

/-- An entry with one bit set to `b`. -/
def entPut (e : BitVec 48) (i : Nat) (b : Bool) : BitVec 48 :=
  let m := BitVec.ofNat 48 (2 ^ i)
  if b then e ||| m else e &&& ~~~m

/-- An entry with a signed gain; the sign of a zero gain is positive. -/
def entSetGain (e : BitVec 48) (g : Int) : BitVec 48 :=
  let m := BitVec.ofNat 48 ((2 ^ 24 - 1) <<< 9)
  entPut ((e &&& ~~~m) ||| BitVec.ofNat 48 ((g.natAbs % 2 ^ 24) <<< 9)) 6 (g < 0)

def Tile.entry (t : Tile) (e : Nat) : BitVec 48 := Memory.get (fun _ => 0) t.entries e
def Tile.setEntry (t : Tile) (e : Nat) (v : BitVec 48) : Tile :=
  { t with entries := Memory.set (fun _ => 0) t.entries e v }

/-- The entries of the device (R177). -/
def entryCount : Nat := 163840

/-- Descriptor `i` of sink-table bank `b`. -/
def Tile.desc (t : Tile) (b i : Nat) : Nat := (Memory.get (fun _ => (0 : BitVec 128)) t.sinks (4096 * b + i)).toNat

/-- Descriptor fields (R181). -/
def descRow (d : Nat) : Nat := fld d 16 15
def descSid (d : Nat) : Nat := fld d 0 15
def descInit (d : Nat) : Bool := bit d 63
def descSlot (d : Nat) : Nat := fld d 48 12
def descXmode (d : Nat) : Nat := fld d 34 2
def descScale (d : Nat) : Nat := fld d 32 2
def descWord (d : Nat) : Nat := fld d 64 22

/-- R182: a reserved code, or scaling on a cross-tile sink. -/
def descFaulty (d : Nat) : Bool := descXmode d == 3 || descScale d == 3 || (descScale d != 0 && descXmode d != 0)

/-- R182: the XMODE and SCALE the tile acts on. -/
def descModes (d : Nat) : Nat × Nat := if descFaulty d then (0, 0) else (descXmode d, descScale d)

/-- R182: the rows of a sink from `row`, at most `fuel` of them; the flag says that SINK_LAST was found. -/
def sinkRows (t : Tile) : Nat → Nat → List Nat × Bool
  | 0, _ => ([], false)
  | fuel + 1, row =>
    if entLast (t.entry (8 * row + 7)) then ([row], true)
    else
      let r := sinkRows t fuel (row + 1)
      (row :: r.1, r.2)

/-- R182: the descriptors that a period takes; a bank holds 4,096. -/
def Tile.descCount (t : Tile) : Nat := min t.r.count 4096

/-- The rows that the first `n` descriptors of bank `b` reference. -/
def Tile.rowsOf (t : Tile) (b n : Nat) : List Nat :=
  (List.range n).flatMap fun i => (sinkRows t 512 (descRow (t.desc b i))).1

/-- R187: the stalls of one row. -/
def rowStalls (t : Tile) (row : Nat) : Nat :=
  let banks := (List.range 8).filterMap fun k =>
    let e := t.entry (8 * row + k)
    if entActive e && !([0, 1].any fun h => markOf t.bad .entry (2 * (8 * row + k) + h) == some true) then some (entSid e % 8) else none
  (List.range 8).foldl (fun m b => max m (banks.count b)) 1 - 1

/-- R200: note an uncorrectable error at `addr`, or a corrected one. -/
def Tile.noteErr (t : Tile) (addr : Nat) (ue : Bool) : Tile :=
  if ue then
    let t' := if t.r.stat.flag filEccUe then t else { t with r := { t.r with eccAddr := BitVec.ofNat 32 addr } }
    t'.setStat filEccUe
  else t.setStat filEccCe

/-- The 32-bit words, each with its own check bits (R177), of an entry, a descriptor and a state slot. -/
def entWords (e : Nat) : List Nat := [2 * e, 2 * e + 1]
def descWords (k : Nat) : List Nat := [4 * k, 4 * k + 1, 4 * k + 2, 4 * k + 3]
def stateWords (j : Nat) : List Nat := [2 * j, 2 * j + 1]

/-- FIL_ECC_ADDR of word `i` of a tile memory (R202): it names the entry, SID, descriptor or slot. -/
def filEccAddr (m : EccMem) (i : Nat) : Nat :=
  match m with
  | .entry => i / 2
  | .replica => 1 <<< 30 + (i / 32768) <<< 28 + i % 32768
  | .sinkTab => 2 <<< 30 + (i / 16384) <<< 28 + i / 4 % 4096
  | _ => 3 <<< 30 + i / 2

/-- Check one word of a tile memory: the flag says that it is uncorrectable. -/
def Tile.check (t : Tile) (m : EccMem) (i : Nat) : Tile × Bool :=
  match markOf t.bad m i with
  | none => (t, false)
  | some ue => (t.noteErr (filEccAddr m i) ue, ue)

/-- Check the words of an item: the flag says that one of them is uncorrectable. -/
def Tile.checks (t : Tile) (m : EccMem) (is : List Nat) : Tile × Bool :=
  is.foldl (fun r i => let c := r.1.check m i; (c.1, r.2 || c.2)) (t, false)

/-- Whether a word of an item is uncorrectable. -/
def Tile.broken (t : Tile) (m : EccMem) (is : List Nat) : Bool := is.any fun i => markOf t.bad m i == some true

/-- R200: the words of an item are written whole, which clears their errors. -/
def Tile.fresh (t : Tile) (m : EccMem) (is : List Nat) : Tile := { t with bad := is.foldl (fun b i => unmark b m i) t.bad }

/-- R189, R200: what SID `sid` reads for this tile: value and presence. `rd` is the previous buffer, the parity of `pb` its index. -/
def Tile.source (t : Tile) (rd : Nat → Option Word) (pb sid : Nat) : Tile × Word × Bool :=
  let v := rd sid
  let c := t.check .replica (32768 * (pb % 2) + sid)
  if sid = 0 then (t, 0, true) else (c.1, (if c.2 then 0 else v.getD 0), v.isSome)

/-! ### Gain changes (R192 to R194) -/

/-- R194: the gain in force in period `n` for an item whose time has come, and whether the item is done; `x` is the
source value. -/
def gainStep (it : GainItem) (active : Bool) (n : Nat) (x : Word) : Int × Bool :=
  let ramp := fun (j : Nat) =>
    if j ≥ 31 then (it.tgt, true) else (it.g0 + ((it.tgt - it.g0) * ((j : Int) + 1)) / 32, false)
  if !active then (it.tgt, true)
  else if it.ramp then ramp (n - it.n0)
  else if n < it.n0 + it.t then
    let zc := x.toInt.natAbs < 256 || (n > it.n0 && (match it.sign with
      | some s => s != x.getLsbD 31
      | none => false))
    if zc then (it.tgt, true) else (it.g0, false)
  else ramp (n - (it.n0 + it.t))

/-- The gain phase of an item in period `n`: 0 not yet, 1 waiting for a crossing, 2 the ramp's first period, 3 inside
the ramp, 4 its last period or beyond (R194). -/
def gainPhase (it : GainItem) (n : Nat) : Nat :=
  if n < it.n0 then 0
  else
    let w := if it.ramp then 0 else it.t
    if n < it.n0 + w then 1
    else if n = it.n0 + w then 2
    else if n < it.n0 + w + 31 then 3 else 4

/-- R193, R194: handle one pending item in period `n`, unless it was handled already or its time has not come. An
entry with an uncorrectable error is not handled (R200); a corrected error is reported. The errors of the source's
replica word are reported by the accumulation, whose read it is. -/
def Tile.handle (t : Tile) (rd : Nat → Option Word) (pb n : Nat) (it : GainItem) : Tile :=
  if n < it.n0 || it.last == some n || t.broken .entry (entWords it.entry) then t
  else
    let e := t.entry it.entry
    let x := (t.source rd pb (entSid e)).2
    let s := (((t.checks .entry (entWords it.entry)).1.fresh .entry (entWords it.entry)), x)
    let g := gainStep it (entActive e) n s.2.1
    let e' := entSetGain e g.1
    if g.2 then
      { (s.1.setEntry it.entry (entPut e' 7 false)) with
        queue := t.queue.filter fun q => q.entry != it.entry }
    else
      { (s.1.setEntry it.entry (entPut e' 7 true)) with
        queue := t.queue.map fun q =>
          if q.entry = it.entry then { q with sign := some (s.2.1.getLsbD 31), last := some n } else q }

/-- Handle every pending item of period `n` whose phase `p` admits. -/
def Tile.handleAll (t : Tile) (rd : Nat → Option Word) (pb n : Nat) (p : Nat → Bool) : Tile :=
  t.queue.foldl (fun t it => if p (gainPhase it n) then t.handle rd pb n it else t) t

/-- R192: the start period of a push; `next` is the count of the domain's next tick. -/
def pushStart (next : Nat) (atTick : Bool) (apply : Nat) : Nat :=
  if !atTick then next
  else
    let cur := (next + (2 ^ 32 - 1)) % 2 ^ 32
    if (cur + 2 ^ 32 - apply % 2 ^ 32) % 2 ^ 32 ≤ 2 ^ 31 then next
    else next + (apply % 2 ^ 32 + 2 ^ 32 - cur - 1) % 2 ^ 32

/-- R192, R193: push the staged item. A pending item of the same entry first has its due period. -/
def Tile.push (t : Tile) (rd : Nat → Option Word) (pb next : Nat) (apply : Word) : Tile :=
  let e := t.r.updA.fld 0 18
  if e ≥ entryCount then t.setStat filUpdBad
  else
    let t : Tile := match t.queue.find? fun q => q.entry == e with
      | some it => if next = 0 || t.st == TilePhase.idle then t else t.handle rd pb (next - 1) it
      | none => t
    let g := (t.r.updB.fld 0 24 : Int)
    let item : GainItem :=
      { entry := e, tgt := if t.r.updB.flag 31 then -g else g
        t := if t.r.updC.fld 0 16 = 0 then 480 else t.r.updC.fld 0 16
        ramp := t.r.updA.flag 30
        n0 := pushStart next (t.r.updA.flag 31) apply.toNat
        g0 := entSigned (t.entry e), sign := none, last := none }
    let u := (t.setEntry e (entPut (t.entry e) 7 true)).fresh .entry [2 * e]
    if t.queue.any (fun (q : GainItem) => q.entry == e) then
      { u with queue := t.queue.map fun q => if q.entry = e then item else q }
    else if t.queue.length ≥ 4096 then t.setStat filUpdqFull
    else { u with queue := t.queue ++ [item] }

/-! ### Scaling (R195, R196) -/

/-- Integer square root, by bits from `2^k` down. -/
def isqrtFrom (n : Nat) : Nat → Nat → Nat
  | 0, r => r
  | k + 1, r =>
    let c := r + 2 ^ k
    isqrtFrom n k (if c * c ≤ n then c else r)

/-- The integer square root of a number below 2^64. -/
def isqrt (n : Nat) : Nat := isqrtFrom n 32 0

/-- R195: the target scale for N contributing sources. -/
def targetScale (mode n : Nat) : Nat :=
  if n = 0 then 2 ^ 23
  else match mode with
    | 1 => (2 ^ 24 + n) / (2 * n)
    | 2 => (isqrt (2 ^ 48 / n) + 1) / 2
    | _ => 2 ^ 23

/-- R196: the slot after one period with the given target; its `scale` is the applied scale. -/
def SinkSlot.step (s : SinkSlot) (n target : Nat) : SinkSlot :=
  if s.init then { scale := target, lastN := n, left := 0, from_ := target, dest := target, init := false }
  else
    let goal := if s.left > 0 then s.dest else s.scale
    let s := if target = goal then s else { s with from_ := s.scale, dest := target, left := 64 }
    if s.left = 0 then { s with lastN := n }
    else
      let j : Int := 64 - s.left
      let v : Int := s.from_ + (((s.dest : Int) - s.from_) * (j + 1)) / 64
      { s with scale := v.toNat, left := s.left - 1, lastN := n }

/-! ### Accumulation (R188, R195, R200, R201) -/

/-- Round `v / 2^k` to the nearest integer, ties to even. -/
def roundEven (v : Int) (k : Nat) : Int :=
  let d : Int := (2 ^ k : Nat)
  let q := v / d
  let r := v % d
  if 2 * r > d || (2 * r == d && q % 2 == 1) then q + 1 else q

/-- One entry of a sink: accumulator, N, presence. The write of the presence, in the entry's first word, clears that word's
error (R200). -/
def Tile.accEntry (s : Tile × Int × Nat) (rd : Nat → Option Word) (pb e : Nat) : Tile × Int × Nat :=
  let ent := s.1.entry e
  let c := s.1.checks .entry (entWords e)
  if !entActive ent || c.2 then (c.1, s.2)
  else
    let x := c.1.source rd pb (entSid ent)
    let t' := x.1.setEntry e (entPut ent 5 x.2.2)
    (t'.fresh .entry [2 * e], s.2.1 + x.2.1.toInt * entSigned ent,
      if entGain ent != 0 && x.2.2 then s.2.2 + 1 else s.2.2)

/-- What a tile's accumulation puts out: plane writes and adds to shared-bank words. -/
structure TileOut where
  t     : Tile
  plane : List (Nat × Word)
  adds  : List (Nat × Word)
  stall : Nat
deriving DecidableEq, Repr

/-- R182, R188, R195: one sink of the active bank in period `n`. -/
def Tile.accSink (o : TileOut) (rd : Nat → Option Word) (pb n i : Nat) : TileOut :=
  let b := o.t.bank
  let c := o.t.checks .sinkTab (descWords (4096 * b + i))
  if c.2 then { o with t := c.1 }
  else
    let d := o.t.desc b i
    let rows := sinkRows c.1 512 (descRow d)
    let t := if rows.2 then c.1 else c.1.setStat filDescBad
    let t := if descFaulty d then t.setStat filDescBad else t
    let m := descModes d
    let st := rows.1.foldl (fun a r => a + rowStalls t r) 0
    let r := rows.1.foldl (fun s row =>
      (List.range 8).foldl (fun s k => Tile.accEntry s rd pb (8 * row + k)) s) (t, (0 : Int), 0)
    let out := fun (t : Tile) (y : Int) =>
      let t := if overN 32 y then t.setStat filSat else t
      (t, wordI (satN 32 y))
    if m.1 = 0 then
      let ck := r.1.checks .slot (stateWords (descSlot d))
      let sl := Memory.get (fun _ => SinkSlot.zero) ck.1.slots (descSlot d)
      let sl := if ck.2 then { sl with init := true } else sl
      let sl := sl.step r.2.2 (targetScale m.2 r.2.2)
      let t := { ck.1.fresh .slot (stateWords (descSlot d)) with
                 slots := Memory.set (fun _ => SinkSlot.zero) ck.1.slots (descSlot d) sl }
      let y := out t (roundEven (r.2.1 * sl.scale) 43)
      { t := y.1, plane := o.plane ++ [(descSid d, y.2)], adds := o.adds, stall := o.stall + st }
    else
      let y := out r.1 (roundEven r.2.1 20)
      { t := y.1, plane := o.plane, adds := o.adds ++ [(descWord d + n % 2, y.2)], stall := o.stall + st }

/-- The first `m` sinks of the active bank in period `n`. -/
def Tile.accSinks (t : Tile) (rd : Nat → Option Word) (pb n m : Nat) : TileOut :=
  (List.range m).foldl (fun o i => Tile.accSink o rd pb n i) { t := t, plane := [], adds := [], stall := 0 }

/-- R188, R201, R202: the accumulation of period `n` ends `cyc` cycles after the tick. -/
def Tile.accumulate (t : Tile) (rd : Nat → Option Word) (pb n cyc : Nat) : TileOut :=
  let t := t.handleAll rd pb n fun p => p != 0
  let o := t.accSinks rd pb n t.descCount
  let c := min cyc 0xFFFF
  let l := min o.stall 0xFFFF
  let row := (t.rowsOf t.bank t.descCount).getLastD o.t.r.row % 32768
  let t := { o.t with st := .waiting, r := { o.t.r with cycLast := c, cycMax := max o.t.r.cycMax c, stLast := l, row := row } }
  { o with t := if l = t.r.stExpect then t else t.setStat filStallMismatch }

/-- R200: what an accumulation that the next tick cuts off has done: its first `m` sinks and the gain changes in their
rows. -/
def Tile.accCut (t : Tile) (rd : Nat → Option Word) (pb n m : Nat) : TileOut :=
  let k := min m t.descCount
  let rows := t.rowsOf t.bank k
  let t := t.queue.foldl (fun t it => if rows.contains (it.entry / 8) then t.handle rd pb n it else t) t
  t.accSinks rd pb n k

/-! ### Ticks and swaps (R190, R197, R198) -/

/-- R190, R198, R200: the owner descriptors' (OUT_SID, bank word of the previous period) to publish at tick `n`. DEDUCED (R97,
R200: every access that finds an error reports it): the owner reads every descriptor of its bank for this. -/
def Tile.publications (t : Tile) (n : Nat) : Tile × List (Nat × Nat) :=
  (List.range t.descCount).foldl (fun r i =>
    let c := r.1.checks .sinkTab (descWords (4096 * t.bank + i))
    let d := t.desc t.bank i
    (c.1, if (descModes d).1 = 2 && !c.2 then r.2 ++ [(descSid d, descWord d + (n + 1) % 2)] else r.2)) (t, [])

/-- R197, R202: the tile begins a period: it publishes first where it has cross-tile sums to publish, and its first row is in
process. -/
def Tile.begin_ (t : Tile) (pub : List (Nat × Nat)) : Tile :=
  { t with st := if pub.isEmpty then .accumulating else .publishing
           r := { t.r with row := (t.rowsOf t.bank (min 1 t.descCount)).headD t.r.row % 32768 } }

/-- R38, R202: the publication is over and the accumulation goes on. -/
def Tile.published (t : Tile) : Tile := if t.st = .publishing then { t with st := .accumulating } else t

/-- Whether the tile works on a period (R202). -/
def Tile.busy (t : Tile) : Bool := t.st == .publishing || t.st == .accumulating

/-- R197: the sink-table swap; entry memory stays as it is. -/
def Tile.swap (t : Tile) : Tile :=
  let b := 1 - t.bank
  let r := { t.r with ctl := (t.r.ctl.setFlag 12 false).setFld 8 1 b, count := t.r.countNext, stExpect := t.r.stNext }
  let t := { t with r := r }
  let slots := (List.range t.descCount).foldl (fun m i =>
    let d := t.desc b i
    if descInit d then
      Memory.set (fun _ => SinkSlot.zero) m (descSlot d)
        { Memory.get (fun _ => SinkSlot.zero) m (descSlot d) with init := true }
    else m) t.slots
  let rows := t.rowsOf b t.descCount
  { t with slots := slots, queue := t.queue.filter fun q => rows.contains (q.entry / 8) }

/-- R35: the replica's buffer that opens with period `n` is written anew, which clears the errors in it. -/
def Tile.freshReplica (t : Tile) (n : Nat) : Tile :=
  { t with bad := t.bad.filter fun u => !(u.mem == .replica && u.idx / 32768 == n % 2) }

/-- R40, R92, R194, R197, R200: a tick of the tile's domain, of count `n`; the second part is what the owner publishes. Gain
changes are handled with their rows, later in the period. -/
def Tile.tick (t : Tile) (n : Nat) : Tile × List (Nat × Nat) :=
  let running := t.st != .idle
  let t := t.freshReplica n
  let t := if t.busy then
    let u := t.setStat filTickOverrun
    { u with r := { u.r with cycLast := 0xFFFF, cycMax := 0xFFFF } } else t
  let go := t.released && (running || decide (t.r.startTick ≤ n))
  let pub := if go && running then t.publications n else (t, [])
  let t := if pub.1.r.ctl.flag 12 && decide (pub.1.r.swapTick ≤ n) then pub.1.swap else pub.1
  if go then (t.begin_ pub.2, pub.2) else ({ t with st := .idle }, [])

/-! ### Window and registers (R178, R184, R202) -/

/-- The FIL_ register at block offset `o` of tile `n` (R202); staging registers are write-only. -/
def Tile.readReg (t : Tile) (n o : Nat) : Word :=
  let r := t.r
  match o with
  | 0x000 => r.ctl
  | 0x004 => BitVec.ofNat 32 (r.countNext <<< 16 + r.count)
  | 0x008 => BitVec.ofNat 32 r.startTick
  | 0x00C => BitVec.ofNat 32 (r.startTick >>> 32)
  | 0x010 => BitVec.ofNat 32 r.swapTick
  | 0x014 => BitVec.ofNat 32 (r.swapTick >>> 32)
  | 0x028 => BitVec.ofNat 32 (t.queue.length <<< 16 + (4096 - t.queue.length))
  | 0x030 => r.stat
  | 0x034 => BitVec.ofNat 32 ((match t.st with
      | .idle => 0
      | .publishing => 1
      | .accumulating => 2
      | .waiting => 3) <<< 16 + r.row)
  | 0x038 => BitVec.ofNat 32 (r.cycMax <<< 16 + r.cycLast)
  | 0x03C => BitVec.ofNat 32 (r.stExpect <<< 16 + r.stLast)
  | 0x040 => BitVec.ofNat 32 r.stNext
  | 0x044 => r.eccAddr
  | 0x048 => BitVec.ofNat 32 n
  | _ => 0

/-- R10, R12, R94 under R197: a Setter write of FIL_CTL. -/
def filCtlWrite (old v : Word) : Word :=
  let d := if old.flag 0 || v.fld 4 2 = 3 then old.fld 4 2 else v.fld 4 2
  ((old.setFlag 12 (v.flag 12)).setFld 4 2 d).setFlag 0 (v.flag 0)

/-- R184: a Setter write of FIL_SINKS: COUNT is discarded while released, NEXT above 4,096 is discarded. DESIGN CHOICE (the
Setter writes NEXT, in the same word, to arm a swap): a write that gives COUNT the value it has is no write to it and sets
nothing. -/
def Tile.writeSinks (t : Tile) (v : Word) : Tile :=
  let nx := if v.fld 16 13 ≤ 4096 then v.fld 16 13 else t.r.countNext
  if t.released then
    let t := { t with r := { t.r with countNext := nx } }
    if v.fld 0 13 = t.r.count then t else t.setStat filActWr
  else { t with r := { t.r with countNext := nx, count := v.fld 0 13 } }

/-- R202: a Setter write of a FIL_ register other than FIL_UPD_D. -/
def Tile.writeReg (t : Tile) (o : Nat) (v : Word) : Tile :=
  let r := t.r
  if o = 0x004 then t.writeSinks v
  else { t with r := match o with
    | 0x000 => { r with ctl := filCtlWrite r.ctl v }
    | 0x008 => { r with startTick := setLo r.startTick v }
    | 0x00C => { r with startTick := setHi r.startTick v }
    | 0x010 => { r with swapTick := setLo r.swapTick v }
    | 0x014 => { r with swapTick := setHi r.swapTick v }
    | 0x018 => { r with updA := v &&& 0xC003FFFF }
    | 0x01C => { r with updB := v &&& 0x80FFFFFF }
    | 0x020 => { r with updC := v &&& 0x0000FFFF }
    | 0x030 => { r with stat := r.stat &&& ~~~v }
    | 0x038 => { r with cycMax := r.cycMax - (r.cycMax &&& v.fld 16 16) }
    | 0x040 => { r with stNext := v.fld 0 16 }
    | _ => r }

/-- R184: whether the active bank references the row of entry `e`. -/
def Tile.references (t : Tile) (e : Nat) : Bool := (t.rowsOf t.bank t.descCount).contains (e / 8)

/-- R179, R184: a control-fabric write of half `h` of entry `e`; bits [3:0] are reserved. -/
def Tile.writeEntry (t : Tile) (e h : Nat) (v : Word) : Tile :=
  if t.released && t.references e then t.setStat filActWr
  else
    let old := (t.entry e).toNat
    let n := if h = 0 then (old >>> 32) <<< 32 + v.toNat / 16 * 16 else (v.toNat % 2 ^ 16) <<< 32 + old % 2 ^ 32
    (t.setEntry e (BitVec.ofNat 48 n)).fresh .entry [2 * e + h]

/-- The writable bits of a descriptor word (R181). -/
def descMask (j : Nat) : Word :=
  match j with
  | 0 => 0x7FFF7FFF
  | 1 => 0x8FFF000F
  | 2 => 0x003FFFFF
  | _ => 0

/-- R184: a control-fabric write of word `j` of descriptor `i` of bank `b`. -/
def Tile.writeDesc (t : Tile) (b i j : Nat) (v : Word) : Tile :=
  if t.released && b == t.bank then t.setStat filActWr
  else
    let k := 4096 * b + i
    let old := Memory.get (fun _ => (0 : BitVec 128)) t.sinks k
    let m : BitVec 128 := BitVec.ofNat 128 ((2 ^ 32 - 1) <<< (32 * j))
    let w : BitVec 128 := BitVec.ofNat 128 ((v &&& descMask j).toNat <<< (32 * j))
    { t.fresh .sinkTab [4 * k + j] with sinks := Memory.set (fun _ => 0) t.sinks k ((old &&& ~~~m) ||| w) }

/-- R178: a control-fabric write at window offset `o`; `none` at a hole. FIL_UPD_D is a command of its own. -/
def Tile.writeWin (t : Tile) (o : Nat) (v : Word) : Option Tile :=
  if o < 0x140000 then some (t.writeEntry (o / 8) (o / 4 % 2) v)
  else if o < 0x180000 then some t
  else if o < 0x1A0000 then
    let k := (o - 0x180000) / 16
    some (t.writeDesc (k / 4096) (k % 4096) (o / 4 % 4) v)
  else if o < 0x1A8000 then some t
  else if 0x1F0000 ≤ o && o < 0x1F0100 then some (t.writeReg (o - 0x1F0000) v)
  else none

/-- R178, R200: a control-fabric read at window offset `o` of tile `n`; `rep b s` reads replica buffer `b`. -/
def Tile.readWin (t : Tile) (rep : Nat → Nat → Word) (n o : Nat) : Tile × Option Word :=
  let chk := fun (m : EccMem) (i : Nat) (v : Word) =>
    let c := t.check m i
    (c.1, some (if c.2 then 0 else v))
  if o < 0x140000 then
    let e := (t.entry (o / 8)).toNat
    chk .entry (o / 4) (BitVec.ofNat 32 (if o / 4 % 2 = 0 then e else e >>> 32))
  else if o < 0x180000 then
    let k := (o - 0x140000) / 4
    chk .replica k (rep (k / 32768) (k % 32768))
  else if o < 0x1A0000 then
    let k := (o - 0x180000) / 16
    chk .sinkTab ((o - 0x180000) / 4) (BitVec.ofNat 32 (t.desc (k / 4096) (k % 4096) >>> (32 * (o / 4 % 4))))
  else if o < 0x1A8000 then
    let k := (o - 0x1A0000) / 8
    let s := Memory.get (fun _ => SinkSlot.zero) t.slots k
    chk .slot ((o - 0x1A0000) / 4) (BitVec.ofNat 32 (if o / 4 % 2 = 0 then s.scale else s.lastN <<< 16 + s.left))
  else if 0x1F0000 ≤ o && o < 0x1F0100 then (t, some (t.readReg n (o - 0x1F0000)))
  else (t, none)

/-- New disturbances in the tile's memories. -/
def Tile.upset (t : Tile) (ups : List Upset) : Tile := { t with bad := addUpsets t.bad ups }

end Sys2Proof.Machine
end

