-- ==== Sys2Proof/Machine/Setter.lean ====
section
/-!
DEFINITION. The Setter's judgement of a transaction (R224, R233 to R242, R246): duplicated channels, what the plan gives
each node, admission, commit ticks, quotas and shedding.
-/

namespace Sys2Proof.Machine

def SetterSys.part (s : SetterSys) (p : Nat) : SetPart := Memory.get (fun _ => SetPart.reset) s.parts p
def SetterSys.setPart (s : SetterSys) (p : Nat) (q : SetPart) : SetterSys := { s with parts := Memory.set (fun _ => SetPart.reset) s.parts p q }

/-- R234: whether the partition holds an armed epoch: one whose commit tick is still to come in a domain it uses. -/
def Armed.pending (a : Armed) : Bool := a.law != .param && a.force != a.doms
def SetterSys.armedOf (s : SetterSys) (p : Nat) : Bool := s.armed.any fun a => a.part == p && a.pending

/-! ### Kept and changed nodes (R60, R246) -/

/-- A node that a transaction keeps (R60): a full graph keeps one with the same NODE_ID, TYPE and CLASS, a patch one that it
does not delete. A node that it adds has no admission yet. -/
def Graph.kept (old : Graph) (n : GNode) : Option GNode := (old.node n.id).filter fun m => m.typ == n.typ && m.cls == n.cls && m.adm == n.adm

/-- What defines a node channel by itself. -/
structure ChanDef where
  typ   : Nat
  cls   : Nat
  dom   : Nat
  attr  : List Byte
  obj   : List Byte
  slots : List (Word × Word)
  feeds : List (Option Chan × Nat)
  pad   : Bool
deriving DecidableEq, Repr

/-- R46, R47: what a pad asks of a delay hop: nothing, a hop alone, a hop with a line. -/
def hopForm (p : Nat) : Nat := min p 2

/-- The attributes that define a node's renderings: the delay of a DELAY, the timeout of a SUM and the slots' place are left out
(R236, R249). -/
def GNode.form (n : GNode) : List Byte :=
  if n.typ = tDelay then [] else if n.typ = tKernel then n.attr.take 4 else if n.typ = tSum then n.attr.take 1 else n.attr

/-- The definition of channel `c`. -/
def Graph.chanDef (g : Graph) (c : Chan) : Option ChanDef :=
  (g.node c.1).map fun n =>
    { typ := n.typ, cls := n.cls, dom := n.dom, attr := n.form
      obj := if n.typ = tKernel ∧ n.a32 0 < 2 ^ 31 then g.objs.getD (n.a32 0) [] else []
      slots := if n.typ = tSum then n.slots.filter fun s => xpOut s.1 == c.2 else n.slots
      feeds := (n.reach g.objs c.2).map fun i => (g.feed n.id i, hopForm (n.hopPad i)), pad := n.pad c.2 != 0 }

/-- Every output channel of a graph. -/
def Graph.chans (g : Graph) : List Chan := g.nodes.flatMap fun n => (List.range n.nOut).map fun i => (n.id, i)

/-- Whether the node of a channel is new. -/
def Graph.isNew (old new : Graph) (c : Chan) : Bool := (new.node c.1).any fun n => (old.kept n).isNone

/-- One round: the channels whose node is new, whose own definition differs or that a listed channel feeds. -/
def dupRound (old new : Graph) (l : List Chan) : List Chan :=
  new.chans.filter fun c => l.contains c || old.isNew new c || old.chanDef c != new.chanDef c || (new.preds c).any l.contains

/-- R246: the duplicated channels, after as many rounds as there are channels; `l` is duplicated in any case. -/
def dupChans (old new : Graph) : Nat → List Chan → List Chan
  | 0, l => l
  | k + 1, l =>
    let l' := dupRound old new l
    if l'.length = l.length then l' else dupChans old new k l'

/-- R308: the channels of nodes with a side in one of the domains of `m`. -/
def Graph.chansIn (g : Graph) (m : Nat) : List Chan :=
  g.chans.filter fun c => (g.node c.1).any fun n => m.testBit n.dom || m.testBit n.outDom

/-! ### Delay lines of a graph (R46, R139, R249) -/

/-- A delay line by what it serves: node, kind, channel. -/
abbrev LineKey := Nat × LineKind × Nat

/-- The lines that a graph asks for, with their delays: a DELAY's channels, pads, delay hops with a line of pad − 1 samples. -/
def GNode.lines (n : GNode) : List (LineKey × Nat) :=
  (if n.typ = tDelay then (List.range n.nOut).map fun c => ((n.id, .delay, c), n.a32 0) else []) ++
  (n.pads.filter (·.2 != 0)).map (fun p => ((n.id, .pad, p.1), p.2)) ++
  (n.hops.filter (·.2.1 != 0)).map fun h => ((n.id, .hop, h.1), h.2.1 - 1)
def Graph.lines (g : Graph) : List (LineKey × Nat) := g.nodes.flatMap GNode.lines

/-- The channel that a line feeds: an output, or for a hop the feed of its input with the input itself. -/
def Graph.lineDup (g : Graph) (dup : List Chan) (old : Graph) (k : LineKey) : Bool :=
  match k.2.1 with
  | .hop =>
    let feed := g.feed k.1 k.2.2
    feed.any dup.contains || old.feed k.1 k.2.2 != feed ||
      ((old.node k.1).map fun n => hopForm (n.hopPad k.2.2)) != ((g.node k.1).map fun n => hopForm (n.hopPad k.2.2)) || old.isNew g (k.1, 0)
  | _ => dup.contains (k.1, k.2.2)

/-- R249: lines without a second rendering whose delay changes, with the new delay. -/
def lineChanges (old new : Graph) (dup : List Chan) : List (LineKey × Nat) :=
  new.lines.filter fun x => !new.lineDup dup old x.1 && (old.lines.any fun y => y.1 == x.1 && y.2 != x.2)

/-- The node channels, or the sink channel, whose paths a line's delay changes. -/
def Graph.lineChans (g : Graph) (k : LineKey) : List Chan :=
  match k.2.1, g.node k.1 with
  | .hop, some n => if n.sink then [(n.id, k.2.2)] else
      ((List.range n.nOut).filter fun c => (n.reach g.objs c).contains k.2.2).map fun c => (n.id, c)
  | _, _ => [(k.1, k.2.2)]

/-! ### Sinks (R246, R247) -/

/-- Where a sink channel of a node is: its kind, port, context, tap or meter, channel there, domain; and what else defines it. -/
structure SinkPos where
  typ  : Nat
  unit : Nat
  ch   : Nat
  dom  : Nat
  attr : List Byte
deriving DecidableEq, Repr

def GNode.sinkPos (n : GNode) (c : Nat) : SinkPos :=
  if n.typ = tSnkPort then ⟨n.typ, (nodePort n).getD 0, n.a16 2 + c, n.dom, []⟩
  else if n.typ = tSnkStream then ⟨n.typ, n.ctx, c, n.dom, n.attr⟩
  else if n.typ = tTapOut then ⟨n.typ, n.a16 2, c, n.dom, n.attr⟩
  else ⟨n.typ, n.id, c, n.dom, n.attr⟩

/-- The sink channels of a graph: (node, channel, domain). -/
def Graph.sinkChans (g : Graph) : List (Nat × Nat × Nat) :=
  (g.nodes.filter GNode.sink).flatMap fun n => (List.range n.nIn).map fun i => (n.id, i, n.dom)

/-- Every sink channel of a graph by its place, with node, channel and the SID that it reads. -/
def Graph.readers (g : Graph) : List (SinkPos × Nat × Nat × Nat) :=
  (g.nodes.filter GNode.sink).flatMap fun n => (List.range n.nIn).map fun i => (n.sinkPos i, n.id, i, g.inSid n.id i)

/-- R246, R247: the sink channels that the new graph removes, and those that are new or read another SID. -/
def sinkChanges (old new : Graph) : List SinkChg :=
  let ro := old.readers
  let rn := new.readers
  (ro.filter fun x => rn.all fun y => y.1 != x.1).map (fun x => ⟨x.2.1, x.2.2.1, x.1.dom, x.2.2.2, 0, true⟩) ++
  rn.filterMap fun y =>
    let a := ((ro.find? fun x => x.1 == y.1).map (·.2.2.2))
    if a = some y.2.2.2 then none else some ⟨y.2.1, y.2.2.1, y.1.dom, a.getD 0, y.2.2.2, false⟩

/-! ### What the plan gives (R60, R231, R238, R239) -/

/-- R60: the admission number of a new node: consecutive by class among the classes that the transaction adds. -/
def newAdm (old new : Graph) (seq cls : Nat) : Nat :=
  let has := fun k => new.nodes.any fun n => n.cls == k && (old.kept n).isNone
  seq + ((List.range cls).filter has).length

/-- The number of admissions that the transaction makes. -/
def admCount (old new : Graph) : Nat :=
  ((List.range 3).filter fun k => new.nodes.any fun n => n.cls == k && (old.kept n).isNone).length

/-- What a plan gives node `id`, where it gives it anything; 0 samples take a pad or a hop away. -/
def planPads (pl : Plan) (id : Nat) (was : List (Nat × Nat)) : List (Nat × Nat) :=
  let l := (pl.pads.filter (·.1 == id)).map (·.2)
  (was.filter fun p => l.all fun q => q.1 != p.1) ++ l.filter (·.2 != 0)
def planHops (pl : Plan) (id : Nat) (was : List (Nat × Nat × Nat)) : List (Nat × Nat × Nat) :=
  let l := (pl.hops.filter (·.1 == id)).map (·.2)
  (was.filter fun p => l.all fun q => q.1 != p.1) ++ l.filter (·.2.1 != 0)

/-- R239: the outputs of a SUM that lie across tiles: those that the plan places hold the form it gives them, the others theirs. -/
def planCross (pl : Plan) (id : Nat) (was : List Nat) : List Nat :=
  let outs := ((pl.sinks.filter (·.node == id)).map (·.out)).eraseDups
  (was.filter fun o => !outs.contains o) ++ outs.filter fun o => decide (1 < (pl.sinks.filter fun x => x.node == id && x.out == o).length)

/-- The graph with ages, forms of sums, pads and hops, before its SIDs. -/
def placeForms (old new : Graph) (pl : Plan) (seq : Nat) : Graph :=
  { new with nodes := new.nodes.map fun n =>
      let k := old.kept n
      { n with adm := match k with | some m => m.adm | none => newAdm old new seq n.cls
               cross := planCross pl n.id ((k.map (·.cross)).getD [])
               pads := planPads pl n.id ((k.map (·.pads)).getD [])
               hops := planHops pl n.id ((k.map (·.hops)).getD [])
               sids := (k.map (·.sids)).getD []
               ctx := match pl.ctxs.find? (·.1 == n.id) with | some c => c.2.1 | none => (k.map (·.ctx)).getD 0
               lanes := (k.map (·.lanes)).getD [] } }

/-- The SID that the plan gives channel `i` of node `id`. -/
def planSid (pl : Plan) (id i : Nat) : Nat := ((pl.sids.find? fun s => s.1 == id && s.2.1 == i).map (·.2.2)).getD 0

/-- R231, R238: SIDs and lanes: kept channels keep them, duplicated ones take those of the plan. -/
def placeSids (g : Graph) (pl : Plan) (dup : List Chan) : Graph :=
  { g with nodes := g.nodes.map fun n =>
      { n with sids := (List.range n.nOut).map fun i => if dup.contains (n.id, i) then planSid pl n.id i else n.sids.getD i 0
               lanes := if n.typ = tLink then (List.range n.nOut).map fun i =>
                   if dup.contains (n.id, i) then ((pl.lanes.find? fun s => s.1 == n.id && s.2.1 == i).map (·.2.2)).getD 0 else n.lanes.getD i 0
                 else [] } }

/-- Every SID that a graph's nodes and delay hops write. -/
def Graph.sids (g : Graph) : List Nat :=
  g.nodes.flatMap fun n => n.sids.filter (· != 0) ++ (n.hops.map (·.2.2)).filter (· != 0)

/-- R46: every member of a group has the group's target latency. -/
def groupsMeet (g : Graph) (hz : Nat → Nat) : Bool :=
  g.groups.all fun q => ((g.memberLats hz q).flatMap fun m => m.2).all fun p => p.lat == q.stood

/-! ### Quotas (R401) -/

/-- The device's capacity of resource `r`, SUB `u` (R401; DESIGN CHOICE where no rule states a figure, log 44). `facets` and
`tiles` are those in service, `lanes` the lanes in service, `dramWords` the initialised DRAM. -/
def capacity (facets tiles lanes dramWords r u : Nat) : Nat :=
  match r, u with
  | 0x20, 0 => facets * 1024
  | 0x20, 1 => facets * 4096
  | 0x20, 2 => facets * 16384
  | 0x20, 3 => facets * 32768
  | 0x20, 4 => facets * 16384
  | 0x21, 0 => tiles * 1024
  | 0x21, 1 => tiles * 20480
  | 0x21, 2 => 16384
  | 0x21, 3 => tiles * 4096
  | 0x22, 0 => 4096
  | 0x22, 1 => 16384
  | 0x23, 0 => 32767
  | 0x24, 0 => lanes
  | 0x25, 0 => 2048
  | 0x25, 1 => dramWords
  | 0x26, 0 => 1024
  | 0x26, 1 => 1024
  | 0x26, 2 => 45000
  | 0x27, 0 => 16 * 64 + 4 * 128 + 8 * 4
  | 0x28, 0 => 128 * 32768
  | 0x28, 1 => 64 * 128
  | 0x29, 0 => 8192
  | _, _ => 0

/-- The (resource, SUB) pairs of R237 that a quota may name. -/
def quotaKeys : List (Nat × Nat) :=
  [(0x20, 0), (0x20, 1), (0x20, 2), (0x20, 3), (0x20, 4), (0x21, 0), (0x21, 1), (0x21, 2), (0x21, 3), (0x22, 0), (0x22, 1), (0x23, 0),
   (0x24, 0), (0x25, 0), (0x25, 1), (0x26, 0), (0x26, 1), (0x26, 2), (0x27, 0), (0x28, 0), (0x28, 1), (0x29, 0)]

def quotaKey (p r u : Nat) : Nat := 1024 * p + 16 * r + u

/-- R401: LIMIT and C0_LIMIT of a partition; P0 holds what P1 to P3 leave. -/
def quotaOf (q : Memory (Nat × Nat)) (cap p r u : Nat) : Nat × Nat :=
  let of := fun k => Memory.get (fun _ => (0, 0)) q (quotaKey k r u)
  if p = 0 then (cap - ((of 1).1 + (of 2).1 + (of 3).1), cap - ((of 1).2 + (of 2).2 + (of 3).2)) else of p

/-- R235 item 6: the first resource in which the plan's use breaks the partition's quota. -/
def quotaBreak (q : Memory (Nat × Nat)) (cap : Nat → Nat → Nat) (p : Nat) (use : List (Nat × Nat × Nat)) : Option Refuse :=
  use.findSome? fun e =>
    let r := e.1 / 16
    let u := e.1 % 16
    let l := quotaOf q (cap r u) p r u
    if e.2.1 > l.1 then some (Refuse.adm 0x2A r 0xFFFF e.2.1 l.1)
    else if e.2.2 > l.2 then some (Refuse.adm 0x2A r 0xFFFF e.2.2 l.2) else none

/-! ### Shedding (R53, R59) -/

/-- R59: the order in which admissions are shed: C2 of all partitions, then C1, partition by partition from the lowest
priority (the higher number first among equals), newest first; then C0, the newest of any partition first. -/
def shedOrder (parts : List (Nat × Nat × Graph)) : List (Nat × Nat × Nat) :=
  let ps := sortBy (fun a b => a.2.1 < b.2.1 || (a.2.1 == b.2.1 && a.1 ≥ b.1)) parts
  let of := fun (c : Nat) (e : Nat × Nat × Graph) =>
    (sortBy (· ≥ ·) ((e.2.2.admissions.filter (·.2 == c)).map (·.1))).map fun a => (e.1, a, c)
  ps.flatMap (of 2) ++ ps.flatMap (of 1) ++ sortBy (fun a b => a.2.1 ≥ b.2.1) (parts.flatMap (of 0))

/-- R53, R59: the plan sheds in that order. -/
def shedLegal (order : List (Nat × Nat × Nat)) (l : List (Nat × Nat)) (c2Only : Bool) : Bool :=
  let o := (if c2Only then order.filter (·.2.2 == 2) else order).map fun e => (e.1, e.2.1)
  -- admissions that do not hold the capacity in question may be passed over, but the order holds
  (l.filterMap fun x => o.findIdx? (· == x)).length == l.length &&
    decide ((l.filterMap fun x => o.findIdx? (· == x)).Pairwise (· < ·))

/-- R61: the graph without an admission. -/
def Graph.shed (g : Graph) (adm : Nat) : Graph :=
  let gone := (g.nodes.filter (·.adm == adm)).map (·.id)
  { g with nodes := g.nodes.filter (·.adm != adm), edges := g.edges.filter fun e => !gone.contains e.src && !gone.contains e.dst }

/-! ### Capacity that the graphs alone decide (R235) -/

/-- The port side and channels that a port node claims: (side key, channel). -/
def claims (n : GNode) : List (Nat × Nat) :=
  match nodePort n with
  | some p =>
    if n.typ = tSrcPort then (List.range n.nOut).map fun i => (2 * p, n.a16 2 + i)
    else if n.typ = tSnkPort then (List.range n.nIn).map fun i => (2 * p + 1, n.a16 2 + i)
    else []
  | none => []

/-- R235 item 5: two nodes with one stream identity: same direction, and one port with the same destination and, on
receive, the same source filter. -/
def sameStream (a b : GNode) : Bool :=
  let on := fun (i : Nat) => a.a8 3 / 2 ^ i % 2 == 1 && b.a8 3 / 2 ^ i % 2 == 1 && a.a32 (8 + 4 * i) == b.a32 (8 + 4 * i) &&
    a.a16 (16 + 2 * i) == b.a16 (16 + 2 * i) && (a.typ == tSnkStream || a.a32 (20 + 4 * i) == b.a32 (20 + 4 * i))
  a.typ == b.typ && (a.typ == tSrcStream || a.typ == tSnkStream) && (on 0 || on 1)

/-- R346: the bytes of a packet of a stream on the wire. -/
def streamBytes (n : GNode) (tagged : Bool) : Nat :=
  (if tagged then 82 else 78) + (if n.typ = tSrcStream then n.nOut else n.nIn) * n.a16 4 * (n.a8 2 + 2)

/-- R346: bit/s of a stream on one port. -/
def streamRate (n : GNode) (hz : Nat) (tagged : Bool) : Nat := 8 * streamBytes n tagged * hz / max 1 (n.a16 4)

/-- R341: the shared-bank words of the jitter buffer of a SRC_STREAM node. -/
def jitterWords (n : GNode) (hz : Nat) : Nat := n.nOut * (ceilDiv (n.a32 0x1C * hz) 1000000000 + n.a16 4 + hz / 1000 + 16)

/-- R185, R235: what the graphs of all partitions together ask of the device. `mbps` gives each port's limit, `tagged`
whether it tags; `lanes` are in service. -/
def admitGraphs (gs : List Graph) (own : Graph) (hz : Nat → Nat) (mbps : Nat → Nat) (tagged : Nat → Bool) (lanes lines : Nat) : Option Refuse :=
  let all := gs.flatMap (·.nodes)
  let count := fun (p : GNode → Bool) (f : GNode → Nat) => ((all.filter p).map f).foldl (· + ·) 0
  let outs := count (·.typ == tSum) (·.nOut)
  let xmax := (own.nodes.filter (·.typ == tSum)).foldl (fun k n =>
    (List.range n.nOut).foldl (fun k o => max k (n.slots.filter fun s => xpOut s.1 == o).length) k) 0
  let prod := count (fun n => !n.sink) (·.nOut) + count (fun _ => true) (·.hops.length)
  let ln := count (·.typ == tLink) (·.nOut)
  let rx := count (·.typ == tSrcStream) (fun _ => 1)
  let tx := count (·.typ == tSnkStream) (fun _ => 1)
  let bw := fun (t i : Nat) => count (fun n => n.typ == t && n.a8 3 / 2 ^ i % 2 == 1) fun n => streamRate n (if n.dom < 3 then hz n.dom else 48000) (tagged i)
  let beyond := fun (b : Bool) (r : Refuse) => if b then some r else none
  let cl := all.flatMap claims
  let dupPort := own.nodes.find? fun n => (claims n).any fun c => (cl.filter (· == c)).length > 1
  let dupStream := own.nodes.find? fun n => (all.filter (sameStream n)).length > 1
  let tin := count (·.typ == tTapIn) (·.nOut)
  let tout := count (·.typ == tTapOut) (·.nIn)
  firstOf <|
    [beyond (xmax > 4096) (Refuse.adm 0x22 0 0xFFFF xmax 4096), beyond (outs > 16384) (Refuse.adm 0x22 1 0xFFFF outs 16384),
     beyond (prod > 32767) (Refuse.adm 0x23 0 0xFFFF prod 32767), beyond (ln > lanes) (Refuse.adm 0x24 0 0xFFFF ln lanes),
     beyond (lines > 2048) (Refuse.adm 0x25 0 0xFFFF lines 2048),
     beyond (rx > 1024) (Refuse.adm 0x26 0 0xFFFF rx 1024), beyond (tx > 1024) (Refuse.adm 0x26 1 0xFFFF tx 1024)] ++
    ([0, 1].flatMap fun i => [tSrcStream, tSnkStream].map fun t =>
      beyond (bw t i > mbps i * 1000000) (Refuse.adm 0x26 2 i (ceilDiv (bw t i) 1000000) (mbps i))) ++
    [dupPort.map fun n => Refuse.adm 0x27 0 ((nodePort n).map portInst |>.getD 0xFFFF) (max n.nIn n.nOut) 0,
     dupStream.map fun n => Refuse.adm 0x27 0 0xFFFF (max n.nIn n.nOut) 0,
     beyond (tin > 4096) (Refuse.adm 0x29 0 0xFFFF tin 4096), beyond (tout > 4096) (Refuse.adm 0x29 0 0xFFFF tout 4096)]

/-! ### Times (R241 to R248) -/

/-- Units of a second in which periods of every rate and nanoseconds are whole. -/
def timeUnit : Nat := 441000000000
def nsUnits : Nat := 441

/-- A domain's timeline: tick `n0` falls at instant `t0`, in units, and its rate. -/
structure Line where
  n0 : Int
  t0 : Int
  hz : Nat
deriving DecidableEq, Repr

def Line.per (l : Line) : Nat := timeUnit / max 1 l.hz
def Line.at (l : Line) (n : Int) : Int := l.t0 + (n - l.n0) * l.per

/-- The first tick whose instant is not earlier than `t`; no tick before 0 exists. -/
def Line.first (l : Line) (t : Int) : Nat := (l.n0 + (t - l.t0 + l.per - 1) / l.per).toNat

/-- R244: P_time in units: longest new latency of a changed path, lock time of a new asynchronous lane on one (50 ms,
R386), one period of the slowest domain used. -/
def preTime (g : Graph) (hz : Nat → Nat) (chg : List Chan) (newAsync : Bool) (doms : Nat) : Nat :=
  let ps := (g.paths hz fun c => chg.contains c).filter (·.changed)
  let lat := ps.foldl (fun k p => max k (p.lat * (timeUnit / max 1 p.hz))) 0
  let slow := ((List.range 3).filter doms.testBit).foldl (fun k d => max k (timeUnit / max 1 (hz d))) 0
  lat + (if newAsync then timeUnit / 20 else 0) + slow

/-- R241: L_far in units. -/
def farTime (pre : Nat) : Nat := if pre > 50 * timeUnit then pre + 10 * timeUnit else 60 * timeUnit

/-- The lowest-numbered domain of a mask. -/
def lowDom (m : Nat) : Nat := ((List.range 3).find? m.testBit).getD 0

/-- R242: the anchor domain. -/
def anchorDom (c : Commit) (doms : Nat) : Nat := if c.mode = 0 then c.dom else lowDom doms

/-- R242: the anchor's instant in units; `early` is the earliest achievable tick of the anchor domain. -/
def anchorAt (c : Commit) (doms early : Nat) (ln : Nat → Line) : Int :=
  match c.mode with
  | 0 => (ln c.dom).at c.at_
  | 1 => (c.at_ : Int) * nsUnits
  | _ => (ln (lowDom doms)).at early

/-- R241: TOO_LATE and TOO_FAR; `now` is the instant now. A tick is measured from the anchor domain's current tick. -/
def timeCheck (c : Commit) (doms early pre : Nat) (ln : Nat → Line) (now : Int) : Option Refuse :=
  if c.mode = 2 then none else
  let l := ln (anchorDom c doms)
  let at_ := anchorAt c doms early ln
  let n := if c.mode = 0 then c.at_ else l.first at_
  let base := if c.mode = 0 then l.t0 else now
  if n < early then some (Refuse.adm 0x2B 0 0xFFFF (early % 2 ^ 32) (n % 2 ^ 32))
  else if at_ > base + farTime pre then
    some (Refuse.adm 0x2C 0 0xFFFF (((n : Int) - l.n0).toNat % 2 ^ 32) (farTime pre / l.per))
  else none

/-- R242, R244, R248: commit, pre-roll and fade-in ticks of domains 0 to 2. -/
def commitTicks (anchor : Int) (ln : Nat → Line) : List Nat := (List.range 3).map fun d => (ln d).first anchor
def preTicks (anchor : Int) (pre : Nat) (ln : Nat → Line) : List Nat := (List.range 3).map fun d => (ln d).first (anchor - pre)
def fadeTicks (c : List Nat) (pre : Nat) (ln : Nat → Line) : List Nat :=
  (List.range 3).map fun d => c.getD d 0 + 32 + ceilDiv pre (ln d).per

/-- R253: the tick of smoothing step `i` (from 1) of K = min(N, 32), and the value of a word there. -/
def smoothTick (t n i : Nat) : Nat := t + (i - 1) * n / max 1 (min n 32)

/-- Rounding to the nearest, ties away from zero. -/
def roundAway (num : Int) (den : Nat) : Int :=
  if num ≥ 0 then (2 * num + den) / (2 * den) else -((2 * (-num) + den) / (2 * den))

def smoothWord (n i : Nat) (a b : Word) : Word :=
  let k := max 1 (min n 32)
  wordI (a.toInt + roundAway ((b.toInt - a.toInt) * i) k)

/-- The ticks of a word's steps. -/
def SmoothWord.ticks (w : SmoothWord) : List Nat := (List.range (max 1 (min w.n 32))).map fun i => smoothTick w.at_ w.n (i + 1)

/-- The value of a word that its steps up to tick `t` leave. -/
def SmoothWord.value (w : SmoothWord) (t : Nat) : Word := smoothWord w.n (w.ticks.filter (· ≤ t)).length w.old w.new

/-- The tick of the next step to arm. -/
def Smooth.next (q : Smooth) : Option Nat :=
  ((q.words.flatMap SmoothWord.ticks).filter fun t => match q.last with | some l => decide (l < t) | none => true).min?

/-- The value of word `j` at tick `t`: `w` where the word is not moving. -/
def Smooth.value (q : Smooth) (j t : Nat) (w : Word) : Word :=
  match q.words.find? (·.idx == j) with
  | some x => x.value t
  | none => w

/-! ### Completions -/

/-- A completion of an entry (R410), with nothing but its identity and status. -/
def complOf (e : Entry) (status : Nat) : Compl :=
  { cq := e.cq, cmdId := e.cmdId, sq := e.sq, c2shed := false, report := false, status := status, outcome := 0, tag := 0, epoch := 0
    applied := 0, anchor := 0, domains := 0, errOff := noOffset, cticks := [0, 0, 0], rptOff := 0, rptLen := 0, res := 0, sub := 0
    inst := 0, need := 0, have_ := 0 }

/-- R228, R237: the completion of a refusal. RESOURCE is 0 unless it is an admission refusal. -/
def refusal (e : Entry) (tag epoch : Nat) (r : Refuse) : Compl :=
  { complOf e r.code with
    tag := tag, epoch := epoch, errOff := r.off, res := if 0x20 ≤ r.code ∧ r.code < 0x40 then r.code else 0, sub := r.sub, inst := r.inst
    need := r.need % 2 ^ 32, have_ := r.have_ % 2 ^ 32 }

/-- R257, R301: the entry that a completion without a command names. -/
def Entry.none_ (p session : Nat) : Entry := ⟨p, 0xFF, 0, 0xFFFF, 0, 0, 0, [], none, false, false, session⟩

/-- R243: the outcome byte. -/
def Armed.outcome (a : Armed) : Nat :=
  let any := !a.chg.isEmpty || !a.sinks.isEmpty || a.tap
  let base := match a.law with
    | .blend => if any then (if a.x = 0 then 4 else 1) else 0
    | .dip => if any then 2 else 0
    | .remove => 2
    | .fadeIn => 2
    | .param => 0
  if a.dip then base ||| 2 else base

end Sys2Proof.Machine
end

