-- ==== Sys2Proof/Machine/MemState.lean ====
section
/-!
DEFINITION. The state of the shared bank array, the Exchange RAM, the Locket, memory BIST, the scrubber and the host
DMA windows, with the MEM_ and XRAM_ registers (R258 to R282).
-/

namespace Sys2Proof.Machine

/-- MEM_BIST_STAT.PHASE (R269). -/
inductive BistPhase where
  | idle | copyOut | test | copyBack | replaced
deriving DecidableEq, Repr

/-- The MEM_ and XRAM_ register fields that are not engine state (R280, R281). -/
structure MemRegs where
  ctl      : Word
  passes   : Nat
  periodMs : Nat
  interval : Nat
  stat     : Word
  eccAddr  : Word
  ceCount  : Nat
  wipes    : Nat
  winSel   : Word
  prot     : Word
  xown     : Memory Word
  xconf    : Word
  xaconf   : Word
  xprot    : Word
deriving DecidableEq, Repr

/-- The shared memories. `banks` is keyed by word address (bank = a mod 128), `spare` by word index. -/
structure MemSys where
  banks      : Memory Word
  spare      : Memory Word
  xram       : Memory Word
  locket     : Memory Word
  bad        : List Upset
  phase      : BistPhase
  bistBank   : Nat
  k          : Nat
  nextBank   : Nat
  spareFor   : Option Nat
  retired    : List Nat
  waiting    : List BankReq            -- presented at their bank, not yet started (R261)
  held       : List BankReq            -- held by the banks' pacers (R264)
  releases   : List (Nat × Nat)        -- (bank, cycle) of recent pacer releases
  completing : List (BankReq × Word)   -- atomics and partial writes in their second cycle, with the old value (R259)
  scrubPos   : Nat
  scrubStart : Nat                     -- uptime in µs at which the pass over the banks began
  locked     : Bool
  wiping     : Bool
  tamper     : Bool                    -- the lock ends with TAMPER_N, not with the clear (R277)
  wins       : Memory Word             -- MEM_WIN by 8 × partition + window
  r          : MemRegs
  rep        : List (Nat × Nat × Nat × Nat)   -- reports of the current step: cause, class, instance, detail
deriving DecidableEq, Repr

/-- MEM_ and XRAM_ registers at reset (R280, R281). -/
def MemRegs.reset : MemRegs where
  ctl := 0x00000003
  passes := 0
  periodMs := 2000
  interval := 60
  stat := 0
  eccAddr := 0
  ceCount := 0
  wipes := 0
  winSel := 0
  prot := 0
  xown := []
  xconf := 0
  xaconf := 0
  xprot := 0

/-- What an unlisted XRAM_OWNk reads as (R281). -/
def xownReset : Nat → Word := fun _ => 0x88888888

/-- The shared memories at power-up: every word a codeword of 0 (R279). -/
def MemSys.reset : MemSys where
  banks := []
  spare := []
  xram := []
  locket := []
  bad := []
  phase := .idle
  bistBank := 0
  k := 0
  nextBank := 0
  spareFor := none
  retired := []
  waiting := []
  held := []
  releases := []
  completing := []
  scrubPos := 0
  scrubStart := 0
  locked := false
  wiping := false
  tamper := false
  wins := []
  r := MemRegs.reset
  rep := []

end Sys2Proof.Machine
end

