-- ==== Sys2Proof/Machine/SharedMem.lean ====
section
/-!
DEFINITION. The shared bank array with its arbiter, pacer, atomics and error correction, bank lending, the Exchange
RAM's two ports, the Locket and the host DMA windows (R258 to R282).
-/

namespace Sys2Proof.Machine

/-- MEM_STAT bits (R280). -/
def memUe : Nat := 0
def memCe : Nat := 1
def memScrubLate : Nat := 2
def memReplaced : Nat := 3
def memLocketDenied : Nat := 4
def memProtViol : Nat := 5

/-- R261: class, kind and instance as one rank; lower is served first. -/
def reqRank : Requester → Nat
  | .facet n => n
  | .tile n => 0x10000 + n
  | .netBuf k => 0x20000 + k
  | .tdm n => 0x30000 + n
  | .madi n => 0x31000 + n
  | .aes n => 0x32000 + n
  | .link n => 0x33000 + n
  | .stream c => 0x40000 + c
  | .core n => 0x50000 + n
  | .dma n => 0x60000 + n
  | .scrubber => 0x70000
  | .bist => 0x80000

/-- R264: whether a requester passes through the pacer. -/
def reqPaced (w : Requester) : Bool := [2, 4, 5].contains (reqRank w / 0x10000)

/-- The bank and the word index within it of a word address (R258). -/
def bankOf (a : Nat) : Nat := a % 128
def indexOf (a : Nat) : Nat := a / 128 % 32768

/-- Words of the shared bank array. -/
def bankWords : Nat := 4194304

/-- R267: a report and a MEM_STAT bit. -/
def MemSys.note (m : MemSys) (b cls inst detail : Nat) : MemSys :=
  { m with r := { m.r with stat := m.r.stat ||| Word.one b }, rep := m.rep ++ [(0x0400 + b, cls, inst, detail)] }

/-- MEM_ECC_ADDR of a word (R280). -/
def memEccAddr (e : EccMem) (i : Nat) : Word :=
  BitVec.ofNat 32 ((match e with
    | .bank => 0
    | .spare => 1
    | .xram => 2
    | _ => 3) <<< 30 + i % 2 ^ 22)

/-- The instance that reports for a shared memory word: the bank (R15). DESIGN CHOICE (log 83; R15 numbers the banks alone): 128 for
the spare, 129 for the Exchange RAM, 130 for the Locket. -/
def memInst (e : EccMem) (i : Nat) : Nat :=
  match e with
  | .bank => bankOf i
  | .spare => 128
  | .xram => 129
  | _ => 130

/-- R267: what finding a word in error does. -/
def MemSys.found (m : MemSys) (e : EccMem) (i : Nat) (ue : Bool) (who : Requester) : MemSys :=
  let d := i + reqCode who <<< 22
  if ue then
    let m := if m.r.stat.flag memUe then m else { m with r := { m.r with eccAddr := memEccAddr e i } }
    m.note memUe 4 (memInst e i) d
  else
    ({ m with r := { m.r with ceCount := incSat 0xFFFFFFFF m.r.ceCount } } : MemSys).note memCe 4 (memInst e i) d

/-- The stored words of a shared memory. -/
def MemSys.raw (m : MemSys) (e : EccMem) (i : Nat) : Word :=
  match e with
  | .bank => Memory.get zeroW m.banks i
  | .spare => Memory.get zeroW m.spare i
  | .xram => Memory.get zeroW m.xram i
  | _ => Memory.get zeroW m.locket i

/-- A whole-word write of a shared memory: it clears any error (R267). -/
def MemSys.put (m : MemSys) (e : EccMem) (i : Nat) (v : Word) : MemSys :=
  let m := { m with bad := unmark m.bad e i }
  match e with
  | .bank => { m with banks := Memory.set zeroW m.banks i v }
  | .spare => { m with spare := Memory.set zeroW m.spare i v }
  | .xram => { m with xram := Memory.set zeroW m.xram i v }
  | _ => { m with locket := Memory.set zeroW m.locket i v }

/-- R267: read a word with its error correction. -/
def MemSys.fetch (m : MemSys) (e : EccMem) (i : Nat) (who : Requester) : MemSys × Word :=
  match markOf m.bad e i with
  | none => (m, m.raw e i)
  | some false => (m.found e i false who, m.raw e i)
  | some true => (m.found e i true who, 0)

/-- R269, R272: the current copy of word address `a`: the spare's word index, or the bank itself. -/
def MemSys.copy (m : MemSys) (a : Nat) : EccMem × Nat :=
  let b := bankOf a
  let i := indexOf a
  if m.spareFor = some b then (.spare, i)
  else if m.bistBank = b then
    match m.phase with
    | .copyOut => if i < m.k then (.spare, i) else (.bank, a)
    | .test => (.spare, i)
    | .copyBack => if i < m.k then (.bank, a) else (.spare, i)
    | _ => (.bank, a)
  else (.bank, a)

/-- R260: the new value of an atomic. -/
def atomicValue (op : BankOp) (v : Word) : Word :=
  match op with
  | .addW u => v + u
  | .addS u => wordI (satN 32 (v.toInt + u.toInt))
  | .swap u => u
  | _ => v

/-- R259: a word with the enabled bytes replaced. -/
def mergeBytes (old v : Word) (be : List Bool) : Word :=
  (List.range 4).foldl (fun w i => if be.getD i false then w.setFld (8 * i) 8 (v.fld (8 * i) 8) else w) old

/-- R259, R260, R266, R267: one access at its bank; the second part is what it returns. A retired bank's words are
holes (R272, R26). -/
def MemSys.access (m : MemSys) (q : BankReq) : MemSys × Word :=
  let a := q.addr % bankWords
  if m.retired.contains (bankOf a) then
    ({ m with rep := m.rep ++ [(0x0302, (reqUnit q.who).1, (reqUnit q.who).2, a + reqCode q.who <<< 22)] }, 0)
  else
    let c := m.copy a
    match q.op with
    | .read => m.fetch c.1 c.2 q.who
    | .write v => (m.put c.1 c.2 v, 0)
    | .partWrite v be =>
      let r := m.fetch c.1 c.2 q.who
      (r.1.put c.1 c.2 (mergeBytes r.2 v be), r.2)
    | op =>
      let r := m.fetch c.1 c.2 q.who
      (r.1.put c.1 c.2 (atomicValue op r.2), r.2)

/-- Whether an access kind ends in its second cycle (R259). -/
def opTwoCycle : BankOp → Bool
  | .read => false
  | .write _ => false
  | _ => true

/-- The request of a list that is served first (R261). -/
def firstReq (l : List BankReq) : Option BankReq :=
  l.foldl (fun b q => match b with
    | none => some q
    | some p => if reqRank q.who < reqRank p.who then some q else some p) none

/-- The list without the first copy of a request. -/
def dropReq (l : List BankReq) (q : BankReq) : List BankReq := l.erase q

/-- R262: the frame phase of bank `b` in core cycle `t`. -/
def framePhase (b t : Nat) : Nat := (t + 8 - b % 8) % 8

/-- R261, R264: new requests: paced ones are held, the others wait at their bank. -/
def MemSys.present (m : MemSys) (l : List BankReq) : MemSys :=
  { m with waiting := m.waiting ++ l.filter fun q => !reqPaced q.who
           held := m.held ++ l.filter fun q => reqPaced q.who }

/-- R264: bank `b`'s pacer releases one held access in cycle `t`, at most two in any 8 consecutive cycles. -/
def MemSys.paceRelease (m : MemSys) (b t : Nat) : MemSys :=
  let recent := m.releases.filter fun r => t < r.2 + 8
  if (recent.filter fun r => r.1 == b).length ≥ 2 then m
  else
    match firstReq (m.held.filter fun q => bankOf q.addr == b) with
    | none => m
    | some q => { m with held := dropReq m.held q, waiting := m.waiting ++ [q], releases := recent ++ [(b, t)] }

/-- R261, R264: whether other accesses compete at bank `b` with a new one of a requester: those that wait at the bank and, for a
paced requester, those that its pacer holds. -/
def MemSys.contended (m : MemSys) (who : Requester) (b : Nat) : Bool :=
  (m.waiting.any fun q => bankOf q.addr == b) || (reqPaced who && m.held.any fun q => bankOf q.addr == b)

/-- R261, R263, R265: bank `b` starts the first waiting access in cycle `t`, unless the cycle is a Facet window whose
owner waits (`facetWaits`). The second part is the request with its result. -/
def MemSys.start (m : MemSys) (b t : Nat) (facetWaits : Bool) : MemSys × Option (BankReq × Word) :=
  if framePhase b t = 0 && facetWaits then (m, none)
  else
    match firstReq (m.waiting.filter fun q => bankOf q.addr == b) with
    | none => (m, none)
    | some q =>
      let r := ({ m with waiting := dropReq m.waiting q } : MemSys).access q
      let m := if opTwoCycle q.op then { r.1 with completing := r.1.completing ++ [(q, r.2)] } else r.1
      (m, some (q, r.2))

/-- R259: the oldest second-cycle access of bank `b` completes. -/
def MemSys.complete (m : MemSys) (b : Nat) : MemSys × Option (BankReq × Word) :=
  match m.completing.find? fun e => bankOf e.1.addr == b with
  | none => (m, none)
  | some e => ({ m with completing := m.completing.erase e }, some e)

/-! ### Lending (R269 to R272) -/

/-- R269: the next bank is lent. -/
def MemSys.lend (m : MemSys) : MemSys :=
  if m.r.ctl.flag 1 && m.phase == .idle && m.spareFor.isNone && !m.retired.contains 128 then
    { m with phase := .copyOut, bistBank := m.nextBank, k := 0 }
  else m

/-- R270, R271: one word move, then k advances; a phase ends when k reaches 32,768. -/
def MemSys.moveWord (m : MemSys) : MemSys :=
  let a := 128 * m.k + m.bistBank
  let go := fun (src dst : EccMem × Nat) =>
    let r := m.fetch src.1 src.2 .bist
    let n := r.1.put dst.1 dst.2 r.2
    let n := if markOf m.bad src.1 src.2 == some true then
      { n with bad := n.bad ++ [⟨dst.1, dst.2, true⟩] } else n
    { n with k := m.k + 1 }
  match m.phase with
  | .copyOut =>
    let n := go (.bank, a) (.spare, m.k)
    if n.k = 32768 then { n with phase := .test } else n
  | .copyBack =>
    let n := go (.spare, m.k) (.bank, a)
    if n.k = 32768 then { n with phase := .idle, k := 0, nextBank := (m.bistBank + 1) % 128 } else n
  | _ => m

/-- R272: bank `b` fails: the spare replaces it for good, or, with the spare in use or out of service, the bank is
retired. A spare that fails (128) is out of service. -/
def MemSys.bankFails (m : MemSys) (b : Nat) : MemSys :=
  if b = 128 ∨ m.spareFor.isSome ∨ m.retired.contains 128 ∨ (m.phase ≠ .idle ∧ m.bistBank ≠ b) then
    { m with retired := if m.retired.contains b then m.retired else m.retired ++ [b] }
  else ({ m with phase := .replaced, bistBank := b, spareFor := some b } : MemSys).note memReplaced 4 b b

/-- R272: the March test ends. -/
def MemSys.marchDone (m : MemSys) (faulty : Bool) : MemSys :=
  if m.phase != .test then m
  else if faulty then m.bankFails m.bistBank
  else { m with phase := .copyBack, k := 0 }

/-! ### Exchange RAM (R273 to R275) -/

/-- XRAM_OWNk nibble of a page. -/
def MemSys.pageOwn (m : MemSys) (page : Nat) : Nat := (Memory.get xownReset m.r.xown (page / 8)).fld (4 * (page % 8)) 4

/-- R275: whether port B admits an access. -/
def MemSys.portBAdmits (m : MemSys) (b : PortB) : Bool :=
  let o := m.pageOwn (b.word / 1024)
  bit o 3 && b.part < 4 && (o % 4 == b.part || (b.wr.isNone && bit o 2))

/-- R275: record the first refusal. -/
def MemSys.refuseB (m : MemSys) (b : PortB) : MemSys :=
  if m.r.xprot.flag 31 then m
  else
    let v := 2 ^ 31 + b.src <<< 29 + (b.part % 4) <<< 27 + (if b.wr.isSome then 2 ^ 26 else 0) + b.word
    { m with r := { m.r with xprot := BitVec.ofNat 32 v } }

/-- R274: port B is warned. -/
def MemSys.warnB (m : MemSys) (b : PortB) (ww : Bool) : MemSys :=
  let c := m.r.xconf
  let n := if c.flag 31 then c.setFld 16 8 (incSat 255 (c.fld 16 8))
    else BitVec.ofNat 32 (2 ^ 31 + (if ww then 2 ^ 30 else 0) + b.src <<< 28 + (b.part % 4) <<< 26 + 1 <<< 16 + b.word)
  { m with r := { m.r with xconf := n } }

/-- R274: port A is warned; the register keeps the first warning. -/
def MemSys.warnA (m : MemSys) (core word : Nat) : MemSys :=
  if m.r.xaconf.flag 31 then m
  else { m with r := { m.r with xaconf := BitVec.ofNat 32 (2 ^ 31 + core <<< 16 + word) } }

/-- A port-B write, whole or by byte enables (R273, R267). -/
def MemSys.writeB (m : MemSys) (word : Nat) (w : Word × List Bool) : MemSys :=
  if w.2 = [true, true, true, true] then m.put .xram word w.1
  else
    let r := m.fetch .xram word (.dma 0)
    r.1.put .xram word (mergeBytes r.2 w.1 w.2)

/-- What a pair of Exchange RAM accesses gives back: data for port A, data for port B, and whether port B was warned.
`undef` stands for the data that R274 leaves undefined. -/
structure XOut where
  m     : MemSys
  dataA : Word
  dataB : Word
  warnB : Bool
deriving DecidableEq, Repr

/-- R273 to R275: a port-B access, with the port-A access that coincides with it, if any. -/
def MemSys.portB (m : MemSys) (b : PortB) (co : Option CoA) (undef : Word) : XOut :=
  let aloneA := fun (m : MemSys) (c : CoA) =>
    match c.wr with
    | some v => (m.put .xram b.word v, (0 : Word))
    | none => m.fetch .xram b.word (.core c.core)
  if !m.portBAdmits b then
    let m := m.refuseB b
    match co with
    | none => ⟨m, 0, 0, false⟩
    | some c => let r := aloneA m c; ⟨r.1, r.2, 0, false⟩
  else
    match co, b.wr with
    | none, none => let r := m.fetch .xram b.word (.dma 0); ⟨r.1, 0, r.2, false⟩
    | none, some w => ⟨m.writeB b.word w, 0, 0, false⟩
    | some c, none =>
      match c.wr with
      | none =>
        let r := m.fetch .xram b.word (.core c.core)
        let q := r.1.fetch .xram b.word (.dma 0)
        ⟨q.1, r.2, q.2, false⟩
      | some v =>
        let n := m.put .xram b.word v
        if c.first then ⟨n.warnB b false, 0, undef, true⟩ else ⟨n.warnA c.core b.word, 0, undef, false⟩
    | some c, some w =>
      match c.wr with
      | none =>
        let n := m.writeB b.word w
        if c.first then ⟨n.warnB b false, undef, 0, true⟩ else ⟨n.warnA c.core b.word, undef, 0, false⟩
      | some v => ⟨(m.put .xram b.word v).warnB b true, 0, 0, true⟩

/-- R273: a port-A access that meets no port-B access. -/
def MemSys.portA (m : MemSys) (core word : Nat) (wr : Option Word) : MemSys × Word :=
  match wr with
  | some v => (m.put .xram word v, 0)
  | none => m.fetch .xram word (.core core)

/-! ### Locket (R276, R277) -/

/-- R276, R277: a Locket access. -/
def MemSys.locketAccess (m : MemSys) (who : Requester) (word : Nat) (wr : Option Word) : MemSys × Word :=
  if m.locked then (m, 0)
  else
    match who with
    | .core n =>
      match wr with
      | some v => (m.put .locket word v, 0)
      | none => m.fetch .locket word (.core n)
    | w => (m.note memLocketDenied 4 130 (reqCode w <<< 22), 0)

/-- R277: a wipe request. -/
def MemSys.wipe (m : MemSys) (tamper : Bool) : MemSys :=
  { m with locket := [], bad := m.bad.filter (fun u => u.mem != .locket), locked := true, wiping := true
           tamper := tamper || m.tamper, r := { m.r with wipes := incSat 0xFFFF m.r.wipes } }

/-- R277: the clear completes. -/
def MemSys.clearDone (m : MemSys) : MemSys := { m with wiping := false, locked := m.locked && m.tamper }

/-! ### Host DMA windows (R278) -/

/-- R278: whether a window of the partition covers the page and permits the direction. -/
def MemSys.dmaPermits (m : MemSys) (part page : Nat) (write : Bool) : Bool :=
  (List.range 8).any fun w =>
    let v := Memory.get zeroW m.wins (8 * part + w)
    v.flag 31 && (if write then v.flag 30 else v.flag 29) && v.fld 0 12 ≤ page && page ≤ v.fld 16 12

/-- Whether an operation writes its word. -/
def opWrites : BankOp → Bool
  | .read => false
  | _ => true

/-- R278: the refusal of a host DMA access of partition `part` to a page outside its windows. -/
def MemSys.refuseDma (m : MemSys) (part page : Nat) (write : Bool) : MemSys :=
  let p := if m.r.prot.flag 31 then m.r.prot
    else BitVec.ofNat 32 (2 ^ 31 + part <<< 29 + (if write then 2 ^ 28 else 0) + page)
  ({ m with r := { m.r with prot := p } } : MemSys).note memProtViol 17 part page

/-! ### Registers (R280 to R282) -/

/-- PHASE as a number. -/
def BistPhase.code : BistPhase → Nat
  | .idle => 0
  | .copyOut => 1
  | .test => 2
  | .copyBack => 3
  | .replaced => 4

/-- The MEM_ register at block offset `o`. -/
def MemSys.readReg (m : MemSys) (o : Nat) : Word :=
  let r := m.r
  match o with
  | 0x000 => r.ctl
  | 0x004 => BitVec.ofNat 32 (r.passes <<< 16 + r.periodMs)
  | 0x008 => BitVec.ofNat 32 r.interval
  | 0x00C => BitVec.ofNat 32 (m.phase.code <<< 29 + m.bistBank <<< 22 + m.k)
  | 0x010 => match m.spareFor with
    | none => 0
    | some b => BitVec.ofNat 32 (2 ^ 31 + b)
  | 0x014 => r.stat
  | 0x018 => r.eccAddr
  | 0x01C => BitVec.ofNat 32 r.ceCount
  | 0x020 => BitVec.ofNat 32 (r.wipes <<< 16 + (if m.wiping then 2 else 0) + if m.locked then 1 else 0)
  | 0x024 => r.winSel
  | 0x028 => Memory.get zeroW m.wins (8 * r.winSel.fld 4 2 + r.winSel.fld 0 3)
  | 0x02C => r.prot
  | _ => 0

/-- A Setter or health-unit write of a MEM_ register (R280). -/
def MemSys.writeReg (m : MemSys) (o : Nat) (v : Word) : MemSys :=
  let r := m.r
  match o with
  | 0x000 => { m with r := { r with ctl := v &&& 3 } }
  | 0x004 =>
    if 100 ≤ v.fld 0 16 && v.fld 0 16 ≤ 60000 then { m with r := { r with periodMs := v.fld 0 16 } } else m
  | 0x008 => if v.fld 0 16 = 0 then m else { m with r := { r with interval := v.fld 0 16 } }
  | 0x014 =>
    { m with r := { r with stat := r.stat &&& ~~~v, ceCount := if v.flag memCe then 0 else r.ceCount } }
  | 0x024 => { m with r := { r with winSel := v &&& 0x37 } }
  | 0x028 => { m with wins := Memory.set zeroW m.wins (8 * r.winSel.fld 4 2 + r.winSel.fld 0 3) (v &&& 0xEFFF0FFF) }
  | 0x02C => if v.flag 31 then { m with r := { r with prot := 0 } } else m
  | _ => m

/-- The XRAM_ register at block offset `o` (R281). -/
def MemSys.readXreg (m : MemSys) (o : Nat) : Word :=
  if o < 0x20 then Memory.get xownReset m.r.xown (o / 4)
  else match o with
    | 0x020 => m.r.xconf
    | 0x024 => m.r.xaconf
    | 0x028 => m.r.xprot
    | _ => 0

/-- A Setter write of an XRAM_ register (R281). -/
def MemSys.writeXreg (m : MemSys) (o : Nat) (v : Word) : MemSys :=
  let r := m.r
  if o < 0x20 then { m with r := { r with xown := Memory.set xownReset r.xown (o / 4) v } }
  else match o with
    | 0x020 => if v.flag 31 then { m with r := { r with xconf := 0 } } else m
    | 0x024 => if v.flag 31 then { m with r := { r with xaconf := r.xaconf.setFlag 31 false } } else m
    | 0x028 => if v.flag 31 then { m with r := { r with xprot := r.xprot.setFlag 31 false } } else m
    | _ => m

/-- New disturbances in the shared memories. -/
def MemSys.upset (m : MemSys) (ups : List Upset) : MemSys := { m with bad := addUpsets m.bad ups }

/-- R279: power-up and wake from Dormant clear every word; MEM_SPARE is kept through Dormant (R272). -/
def MemSys.cleared (m : MemSys) (keepSpare : Bool) : MemSys :=
  if keepSpare then
    match m.spareFor with
    | none => MemSys.reset
    | some b => { MemSys.reset with spareFor := some b, phase := .replaced, bistBank := b }
  else MemSys.reset

end Sys2Proof.Machine
end

