-- ==== Sys2Proof/Machine/State.lean ====
section
/-!
DEFINITION. The state of the whole device and of the queue of commands that wait for it, and its value after reset.
-/

namespace Sys2Proof.Machine

/-- Why the machine stops with a fault. -/
inductive Fault where
  /-- Raised by nothing: every command of the table ends in a next state. Safe. -/
  | unreachable
deriving DecidableEq, Repr

/-- Why the model refuses a command. -/
inductive Refusal where
  /-- Raised by `exec` for a command that has no meaning yet. Safe: the model stops where the device goes on. -/
  | notModelled (mnemonic : String)
deriving DecidableEq, Repr

/-- A slot's content in one buffer of the signal plane (R27, R32): the sample, and its writer as kind and instance in the
order of R34. A slot that is not listed has a clear valid bit. -/
structure PCell where
  val  : Word
  kind : Nat
  inst : Nat
deriving DecidableEq, Repr

/-- A slot without a valid bit. -/
def PCell.empty : PCell := ⟨0, 0, 0⟩

/-- The device. `us` counts microseconds since POR, `ns` is the PTP timescale. `free` is the model's own: it numbers the open values that
the step takes from Config. `plane` holds the slots' two buffers, by SID + 32,768 × (2 × domain + parity of the period).
`sram` is the Setter's local memory. `out` is what the last command put on the interfaces. -/
structure State where
  pending : List Instr
  free    : Nat
  us      : Nat
  ns      : Nat
  facets  : Memory Facet
  tiles   : Memory Tile
  plane   : Memory PCell
  mem     : MemSys
  sram    : Memory Word
  dram    : DramSys
  clk     : ClkSys
  ports   : Serial
  links   : LinkSys
  net     : NetSys
  host    : HostSys
  setter  : SetterSys
  clasp   : Clasp
  boot    : Boot
  power   : Power
  health  : Health
  gpio    : Memory Gpio
  jtag    : Jtag
  out     : List Out
deriving DecidableEq, Repr

/-- The device at POR release (R422): every register has its reset value, every memory holds zeros, flash is erased, OTP is
blank, and no command waits. -/
def State.reset : State where
  pending := []
  free := 0
  us := 0
  ns := 0
  facets := []
  tiles := []
  plane := []
  mem := MemSys.reset
  sram := []
  dram := DramSys.reset
  clk := ClkSys.reset
  ports := Serial.reset
  links := LinkSys.reset
  net := NetSys.reset
  host := HostSys.reset
  setter := SetterSys.reset
  clasp := Clasp.reset
  boot := Boot.reset
  power := Power.reset
  health := Health.reset
  gpio := []
  jtag := Jtag.reset
  out := []

end Sys2Proof.Machine
end

