-- ==== Sys2Proof/WellFormed.lean ====
section
/-!
DEFINITION. Well-formed commands: instance numbers that the device has (R15), fields within their width.
-/

namespace Sys2Proof

/-- Instance numbers of a requester (R15, R261). -/
def Requester.wf (r : Requester) : Bool :=
  match r with
  | .facet n => n < 64
  | .tile n => n < 32
  | .netBuf k => k < 4
  | .tdm n => n < 16
  | .madi n => n < 4
  | .aes n => n < 16
  | .link n => n < 2048
  | .stream ch => ch < 2
  | .core n => n < 4
  | .dma pf => pf < 4
  | .scrubber => true
  | .bist => true

/-- R499: the order of the interfaces whose writes meet: SPIT0, SPIT1, PCIe; the Setter is none of them. -/
def ifaceRank (r : Nat) : Nat := if r < 4 then 2 else if r = 6 then 3 else r - 4

/-- Writes that meet come from different interfaces. -/
def rivalsWf (reader : Nat) (rivals : List (Nat × Word)) : Bool :=
  rivals.isEmpty || (reader < 6 && (rivals.map (·.1)).all (· < 6) && decide ((reader :: rivals.map (·.1)).map ifaceRank).Nodup)

/-- R259: whether a requester's class makes an access of this kind. -/
def BankOp.by_ (o : BankOp) (who : Requester) : Bool :=
  match o with
  | .read => true
  | .write _ => true
  | .partWrite _ be => be.length == 4 && (match who with
      | .dma _ => true
      | .netBuf _ => true
      | _ => false)
  | .addW _ => (match who with
      | .facet _ => true
      | .tile _ => true
      | .core _ => true
      | _ => false)
  | .addS _ => (match who with
      | .facet _ => true
      | .tile _ => true
      | .core _ => true
      | _ => false)
  | .swap _ => (match who with
      | .facet _ => true
      | .tile _ => true
      | .core _ => true
      | _ => false)

/-- An access that competes for bank `b` (R261): Facets have their windows instead. -/
def BankReq.wf (q : BankReq) (b : Nat) : Bool :=
  q.who.wf && q.addr < 2 ^ 22 && q.addr % 128 == b && q.op.by_ q.who && (match q.who with
    | .facet _ => false
    | _ => true)

/-- An access at a channel's controller (R291): a read or a write of words of the channel. -/
def Machine.DramReq.wf (q : Machine.DramReq) : Bool :=
  q.word < 2 ^ 31 && (match q.who with
    | .core n => n < 4
    | .stream ch => ch < 2
    | .scrubber => true
    | _ => false)
    && ((q.read == 0 && !q.data.isEmpty) || (0 < q.read && q.data.isEmpty))

/-- Whether every operand of a command lies in the range that the device's instances and fields give it. -/
def Instr.wf (i : Instr) : Bool :=
  match i with
  | .por => true
  | .earlyBlockReadDone _ => true
  | .earlyBlockSelect => true
  | .corePllStartTimeout _ => true
  | .corePllLock => true
  | .s0Start sfdp _ => sfdp.all fun x => decide (x.1 < 256) && decide (x.2.1 < 32) && decide (x.2.2 ≤ 200)
  | .s1Start faulty => faulty.all fun b => decide (b ≤ 128)
  | .dramTrainingDone _ densA ranksA densB ranksB => densA < 16 && ranksA < 4 && densB < 16 && ranksB < 4
  | .dramInitDone => true
  | .s2Start => true
  | .bootRelWrite _ => true
  | .fullService => true
  | .padRelease => true
  | .resetN => true
  | .recoveryPinHold => true
  | .recoveryBaudDetect _ => true
  | .hello _ => true
  | .data _ => true
  | .go _ => true
  | .tamperEvent src => 1 ≤ src && src ≤ 3
  | .locketClearDone => true
  | .locketLockEnd => true
  | .locketAccess _ word _ => word < 65536
  | .domainTick k _ _ late => k < 3 && (late.all fun l => decide (l.1 < 128))
  | .controlFabricAccess core addr _ => core < 4 && addr < 2 ^ 40
  | .facetGatherDone facet => facet < 64
  | .bundleIssue facet => facet < 64
  | .operationLanding facet => facet < 64
  | .sharedBankStallEnd facet => facet < 64
  | .loopExit facet => facet < 64
  | .facetPostDone facet _ => facet < 64
  | .tileAccumulationDone tile _ => tile < 32
  | .updatePush tile _ => tile < 32
  | .gainTimeout tile => tile < 32
  | .gainRampDone tile => tile < 32
  | .bankAccess bank _ arrive _ => bank < 128 && arrive.all fun q => q.wf bank
  | .atomicComplete bank => bank < 128
  | .pacerRelease bank _ => bank < 128
  | .scrubRead _ => true
  | .bistLendStart => true
  | .bistWordMove => true
  | .marchTestDone _ => true
  | .xramPortAAccess core word _ => core < 4 && word < 65536
  | .xramPortBAccess b _ => b.src < 3 && b.part < 5 && b.word < 65536
  | .hostDmaAccess pf part addr op => pf < 4 && part < 4 && addr < 2 ^ 22 && op.by_ (.dma pf)
  | .dramAccess ch arrive _ => ch < 2 && arrive.all fun q => q.wf
  | .dqsTracking ch => ch < 2
  | .mr4Read ch _ => ch < 2
  | .dramRefresh ch => ch < 2
  | .dramScrubRead _ => true
  | .dramCrefLoss => true
  | .dramCrefReturn => true
  | .streamBurstWrite _ _ => true
  | .streamBurstFetch _ _ => true
  | .streamDeadlineMiss _ _ => true
  | .corePllLost cause => 1 ≤ cause && cause ≤ 2
  | .rescueExit => true
  | .rescueRecommit p => p < 4
  | .referenceLoss input es _ => input < 2 && es.length = 3
  | .referenceQualified input es _ => input < 2 && es.length = 3
  | .mpllSourceWrite reader code es _ => reader < 7 && code < 8 && es.length = 3
  | .mpllEnableWrite reader _ es _ => reader < 7 && es.length = 3
  | .compatLockTimer => true
  | .mpllLockSet => true
  | .mpllLockClear => true
  | .tolClamp k => k < 3
  | .clampExit k _ => k < 3
  | .slewDone k _ => k < 3
  | .stepFadeEnd k => k < 3
  | .policyWrite reader k code => reader < 7 && k < 3 && code < 4
  | .stepNow reader k => reader < 7 && k < 3
  | .slewAny reader k => reader < 7 && k < 3
  | .domainStop k => k < 3
  | .domainRestart k => k < 3
  | .domainTickRead reader k => reader < 7 && k < 3
  | .clkoutConfigWrite reader out _ _ => reader < 7 && out < 8
  | .syncInEdge _ _ => true
  | .clkoutResync => true
  | .linkUp port => port < 2
  | .linkDown port _ _ _ => port < 2
  | .i2cTransfer reader _ => reader < 7
  | .i2cDone _ d => d < 256
  | .frameReceive port _ _ es _ => port < 2 && es.length = 3
  | .gratuitousArp port => port < 2
  | .arpRefresh port ip => port < 2 && ip < 2 ^ 32
  | .arpRetry port ip => port < 2 && ip < 2 ^ 32
  | .arpUnresolved port ip => port < 2 && ip < 2 ^ 32
  | .igmpQueryResponse port => port < 2
  | .igmpReportRetransmit port => port < 2
  | .legLoss ctx port _ => ctx < 1024 && port < 2
  | .streamLoss ctx _ => ctx < 1024
  | .packetDeparture ctx _ => ctx < 1024
  | .announceTimeout port es _ => port < 2 && es.length = 3
  | .syncTimeout port es _ => port < 2 && es.length = 3
  | .ptpAnnounceTx port _ => port < 2
  | .ptpSyncTx port _ => port < 2
  | .ptpDelayReqTx port _ => port < 2
  | .portFrameRx port _ => port < 36
  | .inputLoss port => port < 36
  | .lossRecovery port => port < 36
  | .portFadeOutEnd port => port < 36
  | .portRampBackEnd port => port < 36
  | .rateUpdate port _ _ => port < 36
  | .tdmCommit reader port => reader < 7 && port < 16
  | .tdmCommitApply port => port < 16
  | .portRestart reader port => reader < 7 && port < 36
  | .startArm reader _ => reader < 7
  | .audStartEdge _ => true
  | .linkSlip lane => lane < 2048
  | .linkUnlock lane _ => lane < 2048
  | .laneLocked lane => lane < 2048
  | .claimStart reader => reader < 7
  | .claimSubmit reader => reader < 7
  | .claimResult p => p < 4
  | .claimRelease reader => reader < 7
  | .enrol reader => reader < 7
  | .enrolDone _ => true
  | .nonceExpiry p => p < 4
  | .lockoutExpiry reader => reader < 7
  | .partitionReset reader => reader < 7
  | .sqDoorbell reader ring val => reader < 7 && ring < 8 && val < 2 ^ 16
  | .cqDoorbell reader ring val => reader < 7 && ring < 8 && val < 2 ^ 16
  | .frDoorbell reader val => reader < 7 && val < 2 ^ 16
  | .entryFetched p entry tie => p < 4 && entry.length = 64 && (p :: tie.map (·.1)).Nodup && tie.all fun x => decide (x.1 < 4) && x.2.length == 64
  | .submit => true
  | .release => true
  | .setQuota => true
  | .setPriority => true
  | .grant => true
  | .revoke => true
  | .mapSpi => true
  | .setXram => true
  | .savePolicy => true
  | .resetPartition => true
  | .imgBegin => true
  | .imgData => true
  | .imgFinish => true
  | .imgActivate => true
  | .rollbackRaise _ _ => true
  | .lcAdvance _ _ => true
  | .ksPut => true
  | .ksDel => true
  | .earlyWrite => true
  | .hmExtend => true
  | .logRead => true
  | .keySet => true
  | .pwrStandby _ => true
  | .pwrDormant _ => true
  | .completionWrite p => p < 4
  | .interruptCoalesceTimeout p ring => p < 4 && ring < 8
  | .dmaReadComplete p tap _ => p < 4 && tap ≤ 65
  | .dmaTimeout p tap => p < 4 && tap ≤ 65
  | .flr pf => pf < 4
  | .perstN width speed => (width == 0 || width == 1 || width == 2 || width == 4) && speed ≤ 4
  | .recordTapBlockWrite p tap => p < 4 && tap < 64
  | .meterWindowEnd p _ => p < 4
  | .spiReadFrame target cmd bits _ _ => target < 2 && cmd < 2 ^ 32 && bits ≤ 32
  | .spiWriteFrame target cmd bits _ _ => target < 2 && cmd < 2 ^ 32 && bits ≤ 32
  | .registerWrite reader off bytes _ _ rivals => reader < 7 && off < 2 ^ 20 && 1 ≤ bytes && bytes ≤ 4 && rivalsWf reader rivals
  | .transactionStart _ => true
  | .armingComplete ns => ns.length = 3
  | .epochCompletion p => p < 4
  | .removalSwap p => p < 4
  | .dipSwap p => p < 4
  | .fadeInStart p => p < 4
  | .delayGeometrySwap p => p < 4
  | .smoothStep p => p < 4
  | .unitRetired cls unit plans =>
    ((cls == 1 && unit < 64) || (cls == 2 && unit < 32) || (cls == 4 && unit < 128) || (cls == 15 && unit < 32))
      && plans.all fun x => decide (x.1 < 4)
  | .lifelineFrame ins => ins.all fun x => decide (x.1 < 36)
  | .lifelinePllLock _ => true
  | .lifelineClockMove port => port < 36
  | .idleTimerExpiry _ => true
  | .quiesceAnswer => true
  | .quiesceTimeout => true
  | .wakeNEdge _ => true
  | .aonTimerExpiry => true
  | .unitGate kind unit => (kind == 0 && unit < 64) || ((kind == 1 || kind == 2) && unit < 32)
  | .brownOut => true
  | .supplyLoss _ => true
  | .supplyLimit rail => rail < 11
  | .tempLimit temp => temp < 2 ^ 16
  | .reportArrival => true
  | .recordClose => true
  | .faultClear reader => reader < 7
  | .gpioAccept pin _ => pin < 16
  | .gpioStuck pin => pin < 16
  | .gpioRearm reader mask => reader < 7 && mask < 2 ^ 16
  | .jtagReset => true
  | .bypass _ => true
  | .idcode _ => true
  | .samplePreload _ _ => true
  | .extest _ _ => true
  | .highz _ => true
  | .clamp _ => true
  | .extestPulse _ _ => true
  | .extestTrain _ _ => true
  | .supplyExcursionEnd rail => rail < 11
  | .busMasterEnable pf _ => pf < 4
  | .ringEnWrite reader kind ring _ => reader < 7 && kind < 3 && ring < 8
  | .tapEnWrite reader tap _ => reader < 7 && tap < 64
  | .portEnWrite reader port _ => reader < 7 && port < 36
  | .netPortEnWrite reader port _ => reader < 7 && port < 2
  | .ptpCtlWrite reader _ es _ => reader < 7 && es.length = 3
  | .latchingRegisterRead reader off bytes => reader < 7 && off < 2 ^ 20 && 1 ≤ bytes && bytes ≤ 4
  | .dramInitCoversLoadArea _ => true
  | .igmpCompatTimeout port => port < 2
  | .lifelineCrefLoss => true

end Sys2Proof
end

