-- ==== Sys2Proof/Machine/Ops.lean ====
section
/-!
DEFINITION. Operations over the whole state that the families share: units by number, the signal plane, open values, time,
and what every command does at its end (reports go to the report network, outputs to the interfaces).
-/

namespace Sys2Proof.Machine

/-! ### Units -/

def State.facet (s : State) (n : Nat) : Facet := Memory.get (fun _ => Facet.reset) s.facets n
def State.setFacet (s : State) (n : Nat) (f : Facet) : State :=
  { s with facets := Memory.set (fun _ => Facet.reset) s.facets n f }
def State.modFacet (s : State) (n : Nat) (g : Facet → Facet) : State := s.setFacet n (g (s.facet n))

def State.tile (s : State) (n : Nat) : Tile := Memory.get (fun _ => Tile.reset) s.tiles n
def State.setTile (s : State) (n : Nat) (t : Tile) : State :=
  { s with tiles := Memory.set (fun _ => Tile.reset) s.tiles n t }
def State.modTile (s : State) (n : Nat) (g : Tile → Tile) : State := s.setTile n (g (s.tile n))

def State.pin (s : State) (n : Nat) : Gpio := Memory.get (fun _ => Gpio.reset) s.gpio n
def State.setPin (s : State) (n : Nat) (g : Gpio) : State := { s with gpio := Memory.set (fun _ => Gpio.reset) s.gpio n g }

def State.withMem (s : State) (f : MemSys → MemSys) : State := { s with mem := f s.mem }
def State.withDram (s : State) (f : DramSys → DramSys) : State := { s with dram := f s.dram }
def State.withClk (s : State) (f : ClkSys → ClkSys) : State := { s with clk := f s.clk }
def State.withPorts (s : State) (f : Serial → Serial) : State := { s with ports := f s.ports }
def State.withLinks (s : State) (f : LinkSys → LinkSys) : State := { s with links := f s.links }
def State.withNet (s : State) (f : NetSys → NetSys) : State := { s with net := f s.net }
def State.withHost (s : State) (f : HostSys → HostSys) : State := { s with host := f s.host }
def State.withSetter (s : State) (f : SetterSys → SetterSys) : State := { s with setter := f s.setter }
def State.withClasp (s : State) (f : Clasp → Clasp) : State := { s with clasp := f s.clasp }
def State.withBoot (s : State) (f : Boot → Boot) : State := { s with boot := f s.boot }
def State.withPower (s : State) (f : Power → Power) : State := { s with power := f s.power }
def State.withHealth (s : State) (f : Health → Health) : State := { s with health := f s.health }

/-- PTP_OK. -/
def State.ptpOk (s : State) : Bool := s.net.ptp.ok

/-- The base rate of domain `k` in Hz; a domain that is not declared counts as 48 kHz. -/
def State.hz (s : State) (k : Nat) : Nat := rateHz (s.clk.dom k).rate

/-- Domain `k`'s record. -/
def State.dom (s : State) (k : Nat) : Dom := s.clk.dom k

/-! ### Open values and time -/

/-- Take `n` open values: the number of the first, and the state from which the next are taken. -/
def State.take (s : State) (n : Nat) : Nat × State := (s.free, { s with free := s.free + n })

/-- Time is PTP instant `ns`; the uptime has moved on by as much. -/
def State.at_ (s : State) (ns : Nat) : State := { s with ns := ns, us := s.us + (ns / 1000 - s.ns / 1000) }

/-- The timescale is stepped by `d` ns (R350). -/
def State.stepNs (s : State) (d : Int) : State := { s with ns := (s.ns + d).toNat }

/-! ### Reports -/

def State.note (s : State) (r : Report) : State := s.withHealth fun h => { h with flying := h.flying ++ [r] }

/-- A report without a domain of its own. -/
def State.report (s : State) (cause cls inst : Nat) (clear : Bool) : State := s.note ⟨cause, cls, inst, 3, clear, false, 0⟩

def State.notes (s : State) (rs : List Report) : State := s.withHealth fun h => { h with flying := h.flying ++ rs }

/-- The domain of a reporter, 3 for none. -/
def domOr3 (k : Nat) : Nat := if k < 3 then k else 3

/-- The reports that the Facets hold. -/
def facetReports (m : Memory Facet) : List Report :=
  m.flatMap fun e => e.2.rep.map fun r => ⟨0x100 + r.1, 1, e.1, domOr3 e.2.domain, false, r.2, 0⟩

/-- The Facets without their reports. -/
def quietFacets (m : Memory Facet) : Memory Facet :=
  (m.map fun e => (e.1, { e.2 with rep := [] })).filter fun e => e.2 != Facet.reset

def tileReports (m : Memory Tile) : List Report :=
  m.flatMap fun e => e.2.rep.map fun r => ⟨0x200 + r.1, 2, e.1, domOr3 e.2.domain, false, r.2, 0⟩

def quietTiles (m : Memory Tile) : Memory Tile :=
  (m.map fun e => (e.1, { e.2 with rep := [] })).filter fun e => e.2 != Tile.reset

/-- The reports that the units hold, in the order of their block classes. R23: a queue that fills or runs empty reports as itself.
DESIGN CHOICE (log 89; R15 numbers no queues): its instance is the port's place among all ports. -/
def State.unitReports (s : State) : List Report :=
  facetReports s.facets ++ tileReports s.tiles
    ++ (s.mem.rep.map fun r => ⟨r.1, r.2.1, r.2.2.1, 3, false, false, r.2.2.2⟩)
    ++ (s.dram.rep.map fun r => ⟨r.1, r.2.1, r.2.2.1, 3, r.2.2.2.1, false, r.2.2.2.2⟩)
    ++ (s.net.rep.map fun r => ⟨r.cause, r.cls, r.inst, domOr3 r.dom, r.clear, false, 0⟩)
    ++ (s.clk.rep.map fun r => ⟨r.1, r.2.1, r.2.2.1, if r.2.1 = 14 then r.2.2.1 else 3, r.2.2.2.1, false, r.2.2.2.2.toNat⟩)
    ++ (s.ports.rep.map fun r =>
        let who := if r.2.1 = 0x303 ∨ r.2.1 = 0x304 then (7, r.1) else (portClass r.1, portInst r.1)
        ⟨r.2.1, who.1, who.2, domOr3 (s.ports.port r.1).dom, r.2.2, false, 0⟩)
    ++ (s.links.rep.map fun r =>
        let l := s.links.lane r.1
        ⟨r.2, 15, r.1, if l.outDom < 3 then l.outDom else domOr3 l.inDom, false, false, 0⟩)
    ++ (s.host.rep.map fun r => ⟨r.1, 17, r.2.1, domOr3 r.2.2, false, false, r.2.2 / 8⟩)

/-- R325: whether the network transmitters are on. -/
def State.txOn (s : State) : Bool := s.boot.at_ == .full && s.power.awake && !(s.power.phase == .quiescing && decide (1 < s.power.stopped))

/-- What every command does at its end: reports leave for the health unit (R473), outputs reach the interfaces. -/
def State.settle (s : State) : State :=
  { s with
      health := { s.health with flying := s.health.flying ++ s.unitReports },
      out := s.host.outs ++ if s.txOn then s.net.sent.map fun f => Out.netFrame f.1 f.2 else [],
      facets := quietFacets s.facets,
      tiles := quietTiles s.tiles,
      mem := { s.mem with rep := [] },
      dram := { s.dram with rep := [] },
      clk := { s.clk with rep := [] },
      ports := { s.ports with rep := [] },
      links := { s.links with rep := [] },
      net := { s.net with rep := [], sent := [] },
      host := { s.host with rep := [], outs := [] } }

/-- How command `i` ends: in `t`, its effect on `s`, when its operands name things that the device has and it can occur
(`on`), else in `s` as it was. -/
def done (s : State) (i : Instr) (on : Bool) (t : State) : Host.Outcome State Fault Refusal :=
  .next (if i.wf && on then t else s).settle

/-- An output of the step. -/
def State.emit (s : State) (o : Out) : State := s.withHost fun h => h.emit o

/-! ### The signal plane (R27 to R34) -/

/-- SIDs of the plane. -/
def planeSize : Nat := 32768

/-- The key of a slot in the buffer of domain `k` that the parity of period `n` selects. -/
def planeKey (k n sid : Nat) : Nat := sid + planeSize * (2 * k + n % 2)

def noCell : Nat → PCell := fun _ => PCell.empty

/-- R31: the period that is open in domain `k`. -/
def State.period (s : State) (k : Nat) : Nat := (s.dom k).count

/-- R31, R32: SID `sid` as read in domain `k`: the previous buffer, none when its valid bit is clear. -/
def State.readSid? (s : State) (k sid : Nat) : Option Word :=
  if sid = 0 ∨ planeSize ≤ sid then none
  else
    let key := planeKey k (s.period k + 1) sid
    (s.plane.find? fun e => e.1 == key).map fun e => e.2.val

/-- R27, R32: the value that a reader in domain `k` sees. -/
def State.readSid (s : State) (k sid : Nat) : Word := (s.readSid? k sid).getD 0

/-- Block class and instance of a writer, by its kind in R34. -/
def writerClass (kind inst : Nat) : Nat × Nat :=
  match kind with
  | 0 => (3, 0)
  | 1 => (1, inst)
  | 2 => (2, inst)
  | 3 => (15, inst)
  | 4 => (12, inst)
  | 5 => (13, inst)
  | 6 => (21, inst)
  | 7 => (8, inst)
  | _ => (17, inst)

/-- R34: PLANE_CONFLICT from one of the two writers. -/
def conflictOf (k kind inst : Nat) : Report :=
  ⟨0x301, (writerClass kind inst).1, (writerClass kind inst).2, k, false, false, 0⟩

/-- R33, R34: a write into the current buffer of domain `k`; of two writers the higher-ranked one is kept. -/
def State.writeSid (s : State) (k kind inst sid : Nat) (v : Word) : State :=
  if sid = 0 ∨ planeSize ≤ sid then s
  else
    let key := planeKey k (s.period k) sid
    let c : PCell := ⟨v, kind, inst⟩
    match s.plane.find? fun e => e.1 == key with
    | none => { s with plane := Memory.insert s.plane key c }
    | some (_, o) =>
      if o.kind = kind ∧ o.inst = inst then { s with plane := Memory.insert s.plane key c }
      else
        let keep := if kind < o.kind ∨ kind = o.kind ∧ inst < o.inst then c else o
        { s with plane := Memory.insert s.plane key keep }.notes [conflictOf k o.kind o.inst, conflictOf k kind inst]

def State.writeSids (s : State) (k kind inst : Nat) (ws : List (Nat × Word)) : State :=
  ws.foldl (fun s w => s.writeSid k kind inst w.1 w.2) s

/-- R31, R32: the flip at a tick that opens period `n` of domain `k`: the valid bits of the new current buffer clear. -/
def State.flip (s : State) (k n : Nat) : State :=
  { s with plane := Memory.clearRun s.plane (planeKey k n 0) planeSize }

/-! ### Power -/

/-- Whether core logic runs (R461). -/
def State.awake (s : State) : Bool := s.power.awake

/-- R463: whether a partition holds a committed or an armed epoch. -/
def State.held (s : State) : Bool := (List.range 4).any fun p => (s.setter.part p).live || s.setter.armedOf p

/-- R465: whether block `b` of the quiesce handshake runs: the device is awake and has not asked it to stop. -/
def State.blockUp (s : State) (b : Nat) : Bool := s.power.awake && !(s.power.phase == .quiescing && decide (b < s.power.stopped))

/-- Whether the units on the core PLL's clock work normally: not in the Rescue condition (R299). -/
def State.working (s : State) : Bool := s.awake && !s.clk.rescue

/-- R299, R465: whether the Facets, and whether the tiles, work. -/
def State.facetsRun (s : State) : Bool := s.working && s.blockUp 5
def State.tilesRun (s : State) : Bool := s.working && s.blockUp 4

/-- Whether the device has its supplies. -/
def State.powered (s : State) : Bool := s.power.phase != .off

/-- R462: a control-fabric access ungates a unit. -/
def State.ungate (s : State) (kind n : Nat) : State := s.withPower fun p => p.ungate kind n

/-! ### Memory writes of the host block -/

/-- Words of the Exchange RAM. -/
def xramWords : Nat := 65536

/-- Word `k` of the Exchange RAM takes the bytes of `bs`, which begin at byte `a`, that lie in it; other bytes stay. -/
def MemSys.putBytes (m : MemSys) (a : Nat) (bs : List Byte) (k : Nat) : MemSys :=
  let old := bytesOfWord (m.raw .xram (k % xramWords))
  m.put .xram (k % xramWords) (BitVec.ofNat 32 (leNat ((List.range 4).map fun i =>
    if a ≤ 4 * k + i ∧ 4 * k + i < a + bs.length then byteAt bs (4 * k + i - a) else byteAt old i)))

/-- Put bytes into the Exchange RAM as the device's own writes (R395); a structure that runs past its end wraps. -/
def State.putXram (s : State) (ws : List (Nat × List Byte)) : State :=
  s.withMem fun m => ws.foldl (fun m w =>
    (List.range (ceilDiv (w.1 % 4 + w.2.length) 4)).foldl (fun m k => m.putBytes w.1 w.2 (w.1 / 4 + k)) m) m

/-- A host-block operation that also writes into the Exchange RAM. -/
def State.hostPut (s : State) (f : HostSys → HostSys × List (Nat × List Byte)) : State :=
  let r := f s.host
  { s with host := r.1 }.putXram r.2

/-- R267, R395: `n` bytes of the Exchange RAM from byte `a`, read for host interface function `p`; an uncorrectable word
reads 0. -/
def State.xramRead (s : State) (p a n : Nat) : State × List Byte :=
  let r := (List.range (ceilDiv (a % 4 + n) 4)).foldl (fun (r : State × List Byte) k =>
    let x := r.1.mem.fetch .xram ((a / 4 + k) % xramWords) (.dma p)
    (r.1.withMem fun _ => x.1, r.2 ++ bytesOfWord x.2)) (s, [])
  (r.1, (r.2.drop (a % 4)).take n)

/-! ### The dependency map (R478, R479) -/

/-- A parent of R478 as the report of its start. -/
def parentOf (cause cls inst : Nat) : Report := ⟨cause, cls, inst, 3, false, false, 0⟩

/-- R478: the parents in force. -/
def State.activeParents (s : State) : List Report :=
  let doms := List.range 3
  let st := fun k => (s.dom k).st
  (if s.clk.rescue || !s.clk.recommit.isEmpty then [parentOf 0x600 10 0] else [])
    ++ (if s.clk.holdover || doms.any (fun k => st k == .slewing || st k == .held || st k == .clamped || st k == .stepping) then
          [parentOf 0x601 11 0] else [])
    ++ (doms.filter fun k => st k == .held || (s.dom k).actHold).map (parentOf 0x603 14)
    ++ (doms.filter fun k => st k == .stepping).map (parentOf 0x604 14)
    ++ ([0, 1].filter fun i => !(s.net.port i).link).map (parentOf 0x700 6)
    ++ ((List.range 36).filter fun p => (s.ports.port p).loss).map (fun p => parentOf 0x800 (portClass p) (portInst p))
    ++ ((s.net.rx.map Prod.fst).filter fun i => (s.net.rxc i).used && !(s.net.rxc i).present).map (parentOf 0x703 8)
    ++ s.health.retired.map fun u => parentOf 0xA00 u.1 (if u.1 = 15 then 64 * u.2 else u.2)

/-- What the scopes of R478 look up. -/
def State.scope (s : State) : HScope where
  lane := s.links.lane
  portSids := fun p => (s.ports.port p).inSids.map (·.2)
  ctx := s.net.rxc
  tx := s.net.txc

/-- R479: the state with what the parents in force withdraw: a report in the scope of one that stands in an open record came before it. -/
def State.screened (s : State) : State := { s with health := s.activeParents.foldl (fun h p => h.withdraw s.scope p) s.health }

end Sys2Proof.Machine
end

