-- ==== Sys2Proof/Machine/Placement.lean ====
section
/-!
DEFINITION. What the Setter places in Facets and tiles: areas, lists and counts of calls, lines and sinks, and the tests of
admission (R90, R135, R143, R169, R172 to R176, R183, R185, R187, R235, R238).
-/

namespace Sys2Proof.Machine

/-! ### Calls -/

/-- The library kernel of a call, if it is one. -/
def Call.lib (c : Call) : Option LibK := libOf c.kern

/-- Whether the call is background code (R219). -/
def Call.bg (c : Call) : Bool := c.lib.isNone && (kobj c.obj).bg

/-- R170 to R175, R219: the bundles of the call, loaded at index `base`. -/
def Call.program (c : Call) (base : Nat) : List Nat :=
  match c.lib with
  | some l => l.program c.at_ c.sects base
  | none => objProgram c.obj c.at_ base

/-- R90, R155, R176: the bundles that a sample call issues. -/
def Call.nb (c : Call) : Nat :=
  match c.lib with
  | some l => l.nb c.sects
  | none => if c.bg then 0 else issueCount (kobjBundles c.obj)

/-- R176, R219: the bundles that the call holds in the program bank. -/
def Call.bundles (c : Call) : Nat :=
  match c.lib with
  | some l => l.bundles
  | none => (kobj c.obj).n

/-- R171: whether a HALT bundle follows the call where it is the last. -/
def Call.endsInLoop (c : Call) : Bool := c.lib.isNone && Machine.endsInLoop (kobjBundles c.obj)

/-- R262: the shared-bank accesses of a period. -/
def Call.accesses (c : Call) : Nat := if c.lib.isSome then 0 else bankAccesses (kobjBundles c.obj)

/-- R172 to R175, R219: the Y words of input and output channel `i` of the call. -/
def Call.inAt (c : Call) (i : Nat) : Nat :=
  match c.lib with
  | some l => l.inAt c.at_ i
  | none => c.at_.inp + i
def Call.outAt (c : Call) (i : Nat) : Nat :=
  match c.lib with
  | some l => l.outAt c.at_ c.sects i
  | none => c.at_.out + i

/-- The words of one copy of the call's parameter block. -/
def Call.paramWords (c : Call) : Nat :=
  match c.lib with
  | some l => (l.areas c.sects).1
  | none => (kobj c.obj).params

/-- R172 to R175, R218, R219: the contents of a parameter block with the node's words `ws`. -/
def Call.block (c : Call) (ws : List Word) : List Word :=
  match c.lib with
  | some l => l.block ws
  | none => ws.take (kobj c.obj).params

/-- A region of a memory: whose it is, its first word and its length. -/
structure Area where
  tag : Nat × Nat
  at_ : Nat
  len : Nat
deriving DecidableEq, Repr

/-- The X words of a call: the parameter pointer and block, which the calls of a node in one Facet may share, and its own. -/
def Call.xAreas (c : Call) : List Area :=
  let k := c.at_
  let n := c.paramWords
  [⟨(k.node, 0), k.ptr, 1⟩, ⟨(k.node, 0), k.copy0, n⟩, ⟨(k.node, 0), k.copy1, n⟩] ++
    if c.lib.isSome then [] else [⟨(k.node, k.call + 1), k.x, (kobj c.obj).xw⟩]

/-- The Y words of a call. -/
def Call.yAreas (c : Call) : List Area :=
  let k := c.at_
  let t := (k.node, k.call + 1)
  match c.lib with
  | some l => ⟨t, k.y, (l.areas c.sects).2.1⟩ :: (l.blocks k).map fun b => ⟨t, b.1, b.2⟩
  | none => let o := kobj c.obj; [⟨t, k.y, o.yw⟩, ⟨t, k.inp, o.inCh⟩, ⟨t, k.out, o.outCh⟩]

/-- The Z words of a call, with its save area (R169). -/
def Call.zAreas (c : Call) : List Area :=
  let k := c.at_
  let t := (k.node, k.call + 1)
  match c.lib with
  | some l => [⟨t, k.z, (l.areas c.sects).2.2⟩]
  | none => let o := kobj c.obj; [⟨t, k.z, o.zw⟩, ⟨t, k.save, o.save⟩]

/-- Whether the call's addresses keep the alignments of R172 to R175. -/
def Call.aligned (c : Call) : Bool := match c.lib with | some l => l.aligned c.at_ | none => true

/-! ### Lines -/

/-- The Y words of a line: its input and output words, its buffer or its rings (R139, R144). A pad reads the word that it
follows. -/
def LineRec.yAreas (l : LineRec) : List Area :=
  let p := l.at_
  let t := (p.id, 0)
  let k : Nat := match p.kind with | .delay => 1 | .pad => 2 | .hop => 3
  let tag := (t.1, k)
  (if p.kind = .pad then [] else [⟨tag, p.inp, 1⟩]) ++ [⟨tag, p.out, 1⟩] ++
    if p.dram then [⟨tag, p.wring, 256⟩, ⟨tag, p.rring, 256⟩] else [⟨tag, p.base, p.len⟩]

/-- R292: the words of a line's DRAM area. -/
def dramLen (d : Nat) : Nat := 16 * ceilDiv d 16

/-- The geometry of a line at its place (R139, R144). -/
def lineGeo (p : LinePlace) (d : Nat) : LineGeo :=
  { d := d, dram := p.dram, base := if p.dram then p.area else p.base, len := if p.dram then dramLen d else p.len
    w := p.base, wring := p.wring, rring := p.rring, h := 0, k := 0 }

/-- A new line of a Facet. -/
def LineRec.start (l : LineRec) : DLine := ⟨l.at_.id, l.at_.inp, l.at_.out, lineGeo l.at_ l.d, none, none, none⟩

/-! ### Placed work -/

def Placed.add (a b : Placed) : Placed := ⟨a.calls ++ b.calls, a.lines ++ b.lines, a.sinks ++ b.sinks⟩
def Placed.join (l : List Placed) : Placed := l.foldl Placed.add Placed.none_

/-- The part of the work whose domain and node meet `f`. -/
def Placed.pick (w : Placed) (f : Nat → Nat → Bool) : Placed :=
  ⟨w.calls.filter fun c => f c.dom c.at_.node, w.lines.filter fun l => f l.dom l.at_.node, w.sinks.filter fun s => f s.dom s.at_.node⟩

/-- The work in one Facet, in one tile, in one domain. -/
def Placed.facet (w : Placed) (f : Nat) : Placed := ⟨w.calls.filter (·.at_.facet == f), w.lines.filter (·.at_.facet == f), []⟩
def Placed.tile (w : Placed) (t : Nat) : Placed := ⟨[], [], w.sinks.filter (·.at_.tile == t)⟩
def Placed.inDom (w : Placed) (k : Nat) : Placed := w.pick fun d _ => d == k

/-- The Facets and tiles that hold some of the work. -/
def Placed.facets (w : Placed) : List Nat := (w.calls.map (·.at_.facet) ++ w.lines.map (·.at_.facet)).eraseDups
def Placed.tiles (w : Placed) : List Nat := (w.sinks.map (·.at_.tile)).eraseDups

/-- What of a call is left once the channels that `keep` does not name have gone: inputs that no output left depends on go too. -/
def Call.trim (c : Call) (keep : List Nat) : Call :=
  let outs := c.outs.map fun s => if keep.contains s then s else 0
  { c with
    outs := outs
    ins := (List.range c.ins.length).map fun i =>
      if (List.range outs.length).any fun o => outs.getD o 0 != 0 && kernelReaches c.kern i o then (c.ins.getD i none) else none }

/-- R244, R248: what stays in domain `k` of the work of a partition once graph `g` alone is rendered: what writes a SID of it. A call
without outputs stays where its node does and `more`, which is to come or has come, holds no other one for it. -/
def Placed.kept (w : Placed) (g : Graph) (more : Placed) (k : Nat) : Placed :=
  let keep := g.sids
  { calls := w.calls.filterMap fun c =>
      if c.dom ≠ k || more.calls.contains c then some c
      else if c.outs.isEmpty then
        if (g.node c.at_.node).any (·.typ == tKernel) && more.calls.all fun d => d.at_.node != c.at_.node || d.at_.call != c.at_.call then some c
        else none
      else
        let t := c.trim keep
        if t.outs.any (· != 0) then some t else none
    lines := w.lines.filter fun l => l.dom != k || keep.contains l.sid
    sinks := w.sinks.filter fun s => s.dom != k || keep.contains s.sid }

/-- The work without that of the nodes `ids` (R61). -/
def Placed.without (w : Placed) (ids : List Nat) : Placed := w.pick fun _ n => !ids.contains n

/-- The work whose crosspoints `cuts` (node, input, output), which a parameter transaction removed, are inactive (R250). -/
def Placed.prune (w : Placed) (cuts : List (Nat × Nat × Nat)) (k : Nat) : Placed :=
  { w with sinks := w.sinks.map fun s =>
      let ents := s.at_.ents.filter fun e => !(s.dom == k && cuts.contains (s.at_.node, e.2, s.at_.out))
      { s with at_ := { s.at_ with ents := ents }, sids := s.sids.filter fun e => ents.any (·.1 == e.1) } }

/-- Its sinks have been initialised. -/
def Placed.settled (w : Placed) : Placed := { w with sinks := w.sinks.map fun s => { s with fresh := false } }

/-! ### Gather and post lists (R87, R171, R219) -/

/-- The gather list of the work of one Facet: (Y word, SID). -/
def Placed.gathers (w : Placed) : List (Nat × Nat) :=
  (w.calls.flatMap fun c => (List.range c.ins.length).filterMap fun i => (c.ins.getD i none).map fun s => (c.inAt i, s)) ++
  w.lines.filterMap fun l => l.inSid.map fun s => (l.at_.inp, s)

/-- The post list: a padded channel leaves from its line. -/
def Placed.posts (w : Placed) : List (Nat × Nat) :=
  let padded := fun s => w.lines.any fun l => l.at_.kind == .pad && l.sid == s
  ((w.calls.flatMap fun c => (List.range c.outs.length).map fun o => (c.outAt o, c.outs.getD o 0)) ++
    (w.lines.filter (·.at_.kind != .pad)).map fun l => (l.at_.out, l.sid)).filter (fun e => e.2 != 0 && !padded e.2) ++
  (w.lines.filter (·.at_.kind == .pad)).map fun l => (l.at_.out, l.sid)

/-! ### Programs (R171) -/

/-- The sample calls of a Facet, and its background call. -/
def Placed.sample (w : Placed) : List Call := w.calls.filter fun c => !c.bg
def Placed.background (w : Placed) : Option Call := w.calls.find? (·.bg)

/-- The programs of sample calls back to back from index `base`, each ending in a NOP sequencer slot. -/
def chain : Nat → List Call → List Nat
  | _, [] => []
  | base, c :: r =>
    let bs := c.program base
    bs.set (bs.length - 1) (putSop (bs.getLastD 0) 0) ++ chain (base + bs.length) r

/-- R171: the sample program of a Facet: the last bundle carries HALT, or one with HALT follows it. -/
def Placed.sampleProgram (w : Placed) : List Nat :=
  let bs := chain 0 w.sample
  match w.sample.getLast? with
  | none => [bun 0 0 0 0 0 seqHalt]
  | some c => if c.endsInLoop then bs ++ [bun 0 0 0 0 0 seqHalt] else bs.set (bs.length - 1) (putSop (bs.getLastD 0) 1)

/-- The program of a Facet, its background code after the sample program. -/
def Placed.program (w : Placed) : List Nat :=
  let bs := w.sampleProgram
  bs ++ (match w.background with | some c => c.program bs.length | none => [])

/-- R90: the bundles issued up to HALT. -/
def Placed.nb (w : Placed) : Nat :=
  let last := match w.sample.getLast? with | none => 1 | some c => if c.endsInLoop then 1 else 0
  (w.calls.map Call.nb).foldl (· + ·) 0 + (w.lines.map (·.at_.nb)).foldl (· + ·) 0 + last

/-- R90: T of a Facet. -/
def Placed.time (w : Placed) : Nat := 16 + ceilDiv w.gathers.length 2 + w.nb + 8 + ceilDiv w.posts.length 2

/-- R176: the program bundles of a Facet. -/
def Placed.bundles (w : Placed) : Nat :=
  let last := match w.sample.getLast? with | none => 1 | some c => if c.endsInLoop then 1 else 0
  (w.calls.map Call.bundles).foldl (· + ·) 0 + (w.lines.map (·.at_.bundles)).foldl (· + ·) 0 + last

/-! ### Rows of a tile (R185, R187) -/

/-- R187: the cycles of row `r` for active entries with their SIDs. -/
def rowCycles (ents : List (Nat × Nat)) (r : Nat) : Nat :=
  let banks := (ents.filter fun e => e.1 / 8 == r).map (·.2 % 8)
  (List.range 8).foldl (fun m b => max m (banks.count b)) 1

/-- R187: T_tile of the sinks of a tile. -/
def Placed.tileTime (w : Placed) : Nat :=
  (w.sinks.map fun s => ((List.range s.at_.rows).map fun i => rowCycles s.sids (s.at_.row + i)).foldl (· + ·) 0).foldl (· + ·) 0

/-- The rows of a tile's sinks. -/
def Placed.rows (w : Placed) : Nat := (w.sinks.map (·.at_.rows)).foldl (· + ·) 0

/-- R185: the rows that a tile may be given. -/
def rowsMax (hz : Nat) : Nat := min 20480 (983040000 / max 1 hz)

/-! ### Regions -/

/-- Whether two regions share a word. -/
def Area.meets (a b : Area) : Bool := a.len != 0 && b.len != 0 && a.at_ < b.at_ + b.len && b.at_ < a.at_ + a.len

/-- R135: regions that are apart and lie inside a memory of `size` words; one named twice counts once. -/
def areasApart (l : List Area) (size : Nat) : Bool :=
  let l := l.eraseDups
  l.all (fun a => a.at_ + a.len ≤ size) && decide (l.Pairwise fun a b => a.meets b = false)

/-- The first gap of at least `n` words among regions of a memory of `size` words, from word `from_` up. -/
def gapFrom (l : List Area) (size n : Nat) : Nat → Nat → Option Nat
  | 0, _ => none
  | fuel + 1, from_ =>
    if size < from_ + n then none
    else match l.find? fun a => a.meets ⟨(0, 0), from_, n⟩ with
      | none => some from_
      | some a => gapFrom l size n fuel (a.at_ + a.len)
def hasGap (l : List Area) (size n : Nat) : Bool := (gapFrom l size n (l.length + 1) 0).isSome

/-! ### The tests of a Facet and of a tile (R235, R238) -/

/-- R22, R238: every part of a unit's work is of one domain. -/
def oneDom (ds : List Nat) : Bool := ds.all (· == ds.headD 0)

/-- R87, R169: the list areas of a Facet. -/
def facAreas (p : FacPlace) : List Area := [⟨(0, 1), p.list0, p.cap⟩, ⟨(0, 2), p.list1, p.cap⟩]

/-- Regions of the three memories that the work of a Facet holds. -/
def Placed.xs (w : Placed) : List Area := w.calls.flatMap Call.xAreas
def Placed.ys (w : Placed) : List Area := w.calls.flatMap Call.yAreas ++ w.lines.flatMap LineRec.yAreas
def Placed.zs (w : Placed) : List Area := w.calls.flatMap Call.zAreas

/-- R90, R87, R124, R135, R169, R238, R262, R520: whether a Facet can hold work `w` with budget `b`; `was` is its X content beside
it, which a dip leaves in place until its swap. -/
def facetFits (w : Placed) (was : List Area) (p : FacPlace) (b : Nat) : Bool :=
  oneDom (w.calls.map (·.dom) ++ w.lines.map (·.dom)) && w.time ≤ b && w.bundles ≤ 4096 &&
  w.gathers.length + w.posts.length ≤ p.cap && w.gathers.length ≤ 4096 && w.posts.length ≤ 4096 &&
  areasApart (w.xs ++ was) FMem.x.size && areasApart w.ys FMem.y.size && areasApart (facAreas p ++ w.zs) FMem.z.size &&
  w.calls.all Call.aligned && (w.calls.filter Call.bg).length ≤ 1 &&
  9 * (w.calls.map Call.accesses).foldl (· + ·) 0 ≤ 128 && p.last < 32768

/-- R143: what a line's place must be for its delay. A delay hop may go without a line. -/
def LineRec.fits (l : LineRec) (hz : Nat) : Bool :=
  if l.at_.dram then 512 ≤ l.d && l.d ≤ 60 * hz && l.at_.ch < 2 && l.at_.area % 16 == 0
  else if l.d = 0 then l.at_.kind == .hop && l.at_.len == 0 else l.d ≤ l.at_.len

/-- The rows that sinks hold, as regions. -/
def sinkRegions (l : List SinkRec) : List Area := l.map fun s => ⟨(s.sid, 0), s.at_.row, s.at_.rows⟩

/-- R183, R185, R187, R238: whether a tile can hold the sinks of `w` with budget `b` in a domain of rate `hz`. `was` are the sinks whose
rows are taken: rows are written where the active table does not reference them (R184). -/
def tileFits (w : Placed) (was : List SinkRec) (b hz : Nat) : Bool :=
  oneDom (w.sinks.map (·.dom)) && w.tileTime ≤ b && w.rows ≤ rowsMax hz && w.sinks.length ≤ 4096 &&
  areasApart (sinkRegions (w.sinks ++ was.filter fun s => !w.sinks.contains s)) 20480 &&
  decide ((w.sinks.filter (·.mode == 0)).map (·.at_.slot)).Nodup && w.sinks.all fun s =>
    s.at_.slot < 4096 && 1 ≤ s.at_.rows && s.at_.rows ≤ 512 && decide (s.at_.ents.map (·.1)).Nodup &&
    s.at_.ents.all fun e => s.at_.row ≤ e.1 / 8 && e.1 / 8 < s.at_.row + s.at_.rows

/-- R238: whether a tile with the sinks of `w` has room for one of `rows` rows more. -/
def tileRoom (w : Placed) (rows b hz : Nat) : Bool :=
  w.tileTime + rows ≤ b && w.rows + rows ≤ rowsMax hz && w.sinks.length < 4096 && (w.sinks.filter (·.mode == 0)).length < 4096 &&
    hasGap (sinkRegions w.sinks) 20480 rows

/-! ### Records from a plan -/

/-- The calls of a node: its kernel, object and S. -/
def callOf (part : Nat) (g : Graph) (n : GNode) (dup : List Chan) (k : KBlock) : Call :=
  let id := n.a32 0
  let sh := (shapeOf g.objs id).getD ⟨0, 0, none, false⟩
  let outs := (List.range sh.outCh).map fun o => let ch := k.call * sh.outCh + o
    if dup.contains (n.id, ch) then n.sids.getD ch 0 else 0
  let c : Call :=
    { part := part, dom := n.dom, cls := n.cls, kern := id, obj := if id < 2 ^ 31 then g.objs.getD id [] else []
      sects := if id = 0x80000001 then ((slotWords n.slots).getD 0 0).toNat else 0, at_ := { k with cur := false }
      ins := (List.range sh.inCh).map fun i => some (g.inSid n.id (k.call * sh.inCh + i)), outs := outs }
  if outs.isEmpty then c else c.trim (outs.filter (· != 0))

/-- A line at its place. -/
def lineOf (part : Nat) (g : Graph) (n : GNode) (p : LinePlace) : LineRec :=
  let d := ((n.lines.find? fun x => x.1 == (p.node, p.kind, p.chan)).map (·.2)).getD 0
  let r : LineRec := { part := part, dom := n.dom, cls := n.cls, at_ := p, d := d, inSid := none, sid := n.sids.getD p.chan 0 }
  match p.kind with
  | .delay => { r with inSid := some (g.inSid n.id p.chan) }
  | .pad => r
  | .hop => { r with inSid := some (g.feedSid n.id p.chan), sid := ((n.hop p.chan).map (·.2)).getD 0 }

/-- R190: the XMODE of a place among the places of its output: the lowest tile owns a cross-tile sink. -/
def sinkMode (l : List SinkPlace) (p : SinkPlace) : Nat :=
  let ts := (l.filter fun x => x.node == p.node && x.out == p.out).map (·.tile)
  if ts.length ≤ 1 then 0 else if ts.all fun t => p.tile ≤ t then 2 else 1

/-- A sink at its place. -/
def sinkOf (part : Nat) (g : Graph) (n : GNode) (l : List SinkPlace) (p : SinkPlace) : SinkRec :=
  { part := part, dom := n.dom, cls := n.cls, at_ := p, sid := n.sids.getD p.out 0, scale := n.a8 0, mode := sinkMode l p
    sids := p.ents.map fun e => (e.1, g.inSid n.id e.2), fresh := true }

/-- What a plan places for graph `g`, whose channels `dup` take a new rendering. -/
def planWork (part : Nat) (g : Graph) (dup : List Chan) (pl : Plan) : Placed :=
  { calls := pl.blocks.filterMap fun k => (g.node k.node).map fun n => callOf part g n dup k
    lines := pl.lines.filterMap fun p => (g.node p.node).map fun n => lineOf part g n p
    sinks := pl.sinks.filterMap fun p => (g.node p.node).map fun n => sinkOf part g n pl.sinks p }

/-! ### What a plan must place (R190, R192, R238) -/

/-- Whether call `c` of node `n` takes a new rendering. A call without outputs does where its node is new or changed. -/
def callDup (old g : Graph) (dup : List Chan) (n : GNode) (sh : KShape) (c : Nat) : Bool :=
  if sh.outCh = 0 then
    old.isNew g (n.id, 0) || old.chanDef (n.id, 0) != g.chanDef (n.id, 0) ||
      (List.range sh.inCh).any fun i => (old.inSid n.id (c * sh.inCh + i)) != g.inSid n.id (c * sh.inCh + i)
  else (List.range sh.outCh).any fun o => dup.contains (n.id, c * sh.outCh + o)

/-- The calls that a plan must place: (node, call). -/
def callsDue (old g : Graph) (dup : List Chan) : List (Nat × Nat) :=
  (g.nodes.filter (·.typ == tKernel)).flatMap fun n =>
    match shapeOf g.objs (n.a32 0) with
    | none => []
    | some sh => ((List.range ((sh.calls n.nIn n.nOut).getD 0)).filter (callDup old g dup n sh)).map fun c => (n.id, c)

/-- The lines that a plan must place. -/
def linesDue (old g : Graph) (dup : List Chan) : List (LineKey × Nat) := g.lines.filter fun x => g.lineDup dup old x.1

/-- The crosspoints of an output of a SUM. -/
def GNode.xps (n : GNode) (o : Nat) : List Nat := (n.slots.filter fun s => xpOut s.1 == o).map fun s => xpIn s.1

/-- The sinks that a plan must place: outputs of a SUM with a crosspoint (R217). -/
def sumsDue (g : Graph) (dup : List Chan) : List (GNode × Nat) :=
  (g.nodes.filter (·.typ == tSum)).flatMap fun n =>
    ((List.range n.nOut).filter fun o => dup.contains (n.id, o) && !(n.xps o).isEmpty).map fun o => (n, o)

/-- R183, R190, R238: the places of one sink hold each of its crosspoints once, in tiles of their own; a scaled one lies in one
tile. -/
def sumPlaced (pl : Plan) (n : GNode) (o : Nat) : Bool :=
  let ps := pl.sinks.filter fun p => p.node == n.id && p.out == o
  let ins : List Nat := ps.flatMap fun p => p.ents.map (·.2)
  !ps.isEmpty && decide (ps.map (·.tile)).Nodup && decide ins.Nodup && ins.length == (n.xps o).length && ins.all (n.xps o).contains &&
    (ps.length == 1 || n.a8 0 == 0 && ps.all (fun p => p.word % 2 == 0 && p.word + 1 < 2 ^ 22 && p.word == (ps.map (·.word)).headD 0))

/-- Whether the plan places exactly calls `due`, lines `ld` and sinks `sd`. -/
def placesExactly (pl : Plan) (due : List (Nat × Nat)) (ld : List LineKey) (sd : List (GNode × Nat)) : Bool :=
  let cs := pl.blocks.map fun k => (k.node, k.call)
  let ls : List LineKey := pl.lines.map fun p => (p.node, p.kind, p.chan)
  decide cs.Nodup && cs.all due.contains && due.all cs.contains && decide ls.Nodup && ls.all ld.contains && ld.all ls.contains &&
    sd.all (fun x => sumPlaced pl x.1 x.2) && pl.sinks.all (fun p => sd.any fun x => x.1.id == p.node && x.2 == p.out)

/-- Whether the plan places exactly what it must. -/
def planComplete (pl : Plan) (old g : Graph) (dup : List Chan) : Bool :=
  placesExactly pl (callsDue old g dup) ((linesDue old g dup).map (·.1)) (sumsDue g dup)

/-- R46: a pad in a Facet stands behind a kernel or a DELAY of the same Facet, and reads its output. -/
def padPlaced (w : Placed) (l : LineRec) : Bool :=
  l.at_.kind != .pad ||
    (w.calls.any (fun c => c.at_.facet == l.at_.facet && (List.range c.outs.length).any fun o => c.outs.getD o 0 == l.sid && c.outAt o == l.at_.inp)) ||
    w.lines.any fun m => m.at_.kind == .delay && m.at_.facet == l.at_.facet && m.sid == l.sid && m.at_.out == l.at_.inp

/-! ### Where pads stand (R46) -/

/-- The elements of a path: its channels, each before the step to what reads it. -/
def pathParts (path : List Chan) (sink : Chan) : List (Chan × Chan) :=
  let l := path ++ [sink]
  (l.zip (l.drop 1)).flatMap fun e => [(e.1, e.1), e]

/-- The pad that stands on an element of a path. -/
def Graph.padOn (g : Graph) (x : Chan × Chan) : Nat :=
  match g.node x.2.1 with
  | none => 0
  | some n => if x.1 = x.2 then n.pad x.1.2 else if n.sink then n.hopPad x.2.2 else n.hopPad (g.inputOf n x.2.2 (some x.1))

/-- R46: a member's pad lies on the last stretch of its path that no member with another pad shares. -/
def padsWell (g : Graph) (hz : Nat → Nat) (q : GGroup) : Bool :=
  let ms : List (Nat × List (Chan × Chan)) := (g.memberLats hz q).flatMap fun m => m.2.flatMap fun e =>
    (match g.node e.snk.1 with
      | some n => (g.sinkPaths n e.snk.2).filter fun (p : List Chan) => p.headD (0, 0) == e.src
      | none => []).map fun p => (q.stood - (e.lat - e.pad), pathParts p e.snk)
  ms.all fun m =>
    let shared := fun x => ms.any fun o => o.1 != m.1 && o.2.contains x
    let tail := m.2.reverse.dropWhile shared
    let part := tail.takeWhile fun x => !shared x
    m.2.all fun x => g.padOn x == 0 || part.contains x || (ms.all fun o => !o.2.contains x || o.1 = m.1)

end Sys2Proof.Machine
end

