-- ==== Sys2Proof/Machine/Legal.lean ====
section
/-!
DEFINITION. What the device holds beside a plan, what a partition uses of it, and whether a plan keeps the promises of placement
(R28, R53, R59, R65, R87, R143, R149, R183, R231, R235, R238, R239, R249, R292, R401, R520).
-/

namespace Sys2Proof.Machine

/-! ### Rates and capacity after a transaction's domain records -/

/-- Rates in Hz and tolerances in ppm after domain records (rate code, tolerance). -/
def State.hzAfter (s : State) (ds : List (Nat × Option (Nat × Nat))) (k : Nat) : Nat :=
  match ds.find? (·.1 == k) with
  | some (_, some x) => rateHz x.1
  | _ => s.hz k
def State.tolAfter (s : State) (ds : List (Nat × Option (Nat × Nat))) (k : Nat) : Nat :=
  match ds.find? (·.1 == k) with
  | some (_, some x) => x.2
  | _ => (s.dom k).tol

/-- Lanes in service (R379). -/
def State.lanesUp (s : State) : Nat := 2048 - 64 * ((List.range 32).filter s.links.retired.testBit).length

/-- R295: the words at the bottom of channel A that are the Setter's own: 256 MiB. -/
def setterDram (ch : Nat) : Nat := if ch = 0 then 2 ^ 26 else 0

/-- DRAM words for delay lines (R288, R295). -/
def State.dramUp (s : State) : Nat := (s.dram.inited 0 * 2 ^ 18 - setterDram 0) + s.dram.inited 1 * 2 ^ 18

/-- Facets and tiles in service, by block class. -/
def State.unitsUp (s : State) (cls n : Nat) : List Nat := (List.range n).filter fun i => !s.setter.retired.contains (cls, i)

/-- The device's capacity (R401). -/
def State.cap (s : State) (r u : Nat) : Nat := capacity (s.unitsUp 1 64).length (s.unitsUp 2 32).length s.lanesUp s.dramUp r u

/-! ### The work beside a plan -/

/-- The work of a partition once its armed epoch `a` has entered domain `k`. -/
def Armed.enter (a : Armed) (w : Placed) (k : Nat) : Placed :=
  match a.law with
  | .blend => (w.prune a.cuts k).add (a.work.inDom k)
  | .param => w
  | _ => ((w.prune a.cuts k).kept a.new a.work k).add (a.work.inDom k)

/-- Armed epoch `a` enters the domains of `ks` that it has not entered yet. -/
def Armed.enterAll (a : Armed) (w : Placed) (ks : List Nat) : Placed :=
  (ks.filter fun k => a.doms.testBit k && !a.swaps.testBit k).foldl a.enter w

/-- The work of partition `p` once every epoch armed now has entered the domains of `ks`. -/
def State.workAfter (s : State) (p : Nat) (ks : List Nat) : Placed :=
  (s.setter.armed.filter (·.part == p)).foldl (fun w a => a.enterAll w ks) (s.setter.part p).work

/-- Every graph of a partition that holds SIDs, contexts or lanes: the committed one, those of epochs under way and of one that
is being built. -/
def State.graphsOf (s : State) (p : Nat) : List Graph :=
  (s.setter.part p).graph :: ((s.setter.armed.filter (·.part == p)).flatMap fun a => [a.old, a.new]) ++
    (s.setter.builds.filter (·.entry.part == p)).map (·.graph)
def State.allGraphs (s : State) : List Graph := (List.range 4).flatMap s.graphsOf

/-- The nodes of partition `q` that a list of shed admissions takes. -/
def State.shedNodes (s : State) (q : Nat) (shed : List (Nat × Nat)) : List Nat :=
  ((s.graphsOf q).flatMap (·.nodes)).filterMap fun n => if shed.contains (q, n.adm) then some n.id else none

/-- What a plan is judged against: work of the other partitions, the own work now, what of it the new graph keeps, what the plan
adds. -/
structure Site where
  others : Placed
  own    : Placed
  keep   : Placed
  new    : Placed
deriving DecidableEq, Repr

/-- The site of a plan of partition `p` for graph `g`; a retired unit's work is lost (R256). -/
def State.site (s : State) (p : Nat) (pl : Plan) (g : Graph) (dup : List Chan) : Site :=
  let all := [0, 1, 2]
  let own := s.workAfter p all
  let new := planWork p g dup pl
  { others := Placed.join (((List.range 4).filter (· != p)).map fun q => (s.workAfter q all).without (s.shedNodes q pl.shed))
    own := own, keep := all.foldl (fun w k => w.kept g new k) own, new := new }

/-- What runs together: for a dip the kept work, else all of the own work, with the new. -/
def Site.after (t : Site) (dip : Bool) : Placed := (t.others.add (if dip then t.keep else t.own)).add t.new

/-! ### What a partition uses (R401) -/

def Placed.ofClass (w : Placed) (c : Nat) : Placed :=
  ⟨w.calls.filter (·.cls == c), w.lines.filter (·.cls == c), w.sinks.filter (·.cls == c)⟩
def Graph.ofClass (g : Graph) (c : Nat) : Graph := { g with nodes := g.nodes.filter (·.cls == c) }

def sumOf (l : List Nat) : Nat := l.foldl (· + ·) 0

/-- The words of regions, each counted once. -/
def areaWords (l : List Area) : Nat := sumOf (l.eraseDups.map (·.len))

/-- R401: what work `w` and graph `g` use of resource `r`, SUB `u`; `b` gives each domain's budget, `hz` its rate. DESIGN CHOICE (the
spec does not divide a shared unit): a unit is counted with the T that the partition's part of it would have alone. -/
def useOf (w : Placed) (g : Graph) (b hz : Nat → Nat) (tagged : Nat → Bool) (facs : List FacPlace) (r u : Nat) : Nat :=
  let count := fun (p : GNode → Bool) (f : GNode → Nat) => sumOf ((g.nodes.filter p).map f)
  let facets := w.facets.map fun f => w.facet f
  let tiles := w.tiles.map fun t => w.tile t
  let domOf := fun (x : Placed) => ((x.calls.map (·.dom)) ++ (x.lines.map (·.dom)) ++ x.sinks.map (·.dom)).headD 0
  match r, u with
  | 0x20, 0 => sumOf (facets.map fun x => ceilDiv (1024 * x.time) (max 1 (b (domOf x))))
  | 0x20, 1 => sumOf (facets.map Placed.bundles)
  | 0x20, 2 => areaWords w.xs
  | 0x20, 3 => areaWords w.ys
  | 0x20, 4 => areaWords w.zs + sumOf (facets.map fun x => x.gathers.length + x.posts.length)
  | 0x21, 0 => sumOf (tiles.map fun x => ceilDiv (1024 * x.tileTime) (max 1 (b (domOf x))))
  | 0x21, 1 => w.rows
  | 0x21, 2 => w.sinks.length
  | 0x21, 3 => (w.sinks.filter (·.mode == 0)).length
  | 0x22, 0 => (g.nodes.filter (·.typ == tSum)).foldl (fun k n => (List.range n.nOut).foldl (fun k o => max k (n.xps o).length) k) 0
  | 0x22, 1 => count (·.typ == tSum) (·.nOut)
  | 0x23, 0 => g.sids.length
  | 0x24, 0 => count (·.typ == tLink) (·.nOut)
  | 0x25, 0 => (w.lines.filter (·.at_.dram)).length
  | 0x25, 1 => sumOf ((w.lines.filter (·.at_.dram)).map fun l => dramLen l.d)
  | 0x26, 0 => count (·.typ == tSrcStream) fun _ => 1
  | 0x26, 1 => count (·.typ == tSnkStream) fun _ => 1
  | 0x26, 2 => sumOf ([0, 1].map fun i => ceilDiv (count (fun n => (n.typ == tSrcStream || n.typ == tSnkStream) && n.a8 3 / 2 ^ i % 2 == 1)
      fun n => streamRate n (if n.dom < 3 then hz n.dom else 48000) (tagged i)) 1000000)
  | 0x27, 0 => count (fun _ => true) fun n => (claims n).length
  | 0x28, 0 => 2 * ((w.sinks.filter (·.mode == 2)).length + sumOf (facs.map fun p =>
      if w.calls.any (fun c => c.at_.facet == p.facet && c.accesses != 0) then p.last + 1 - p.first else 0)) +
      count (·.typ == tSrcStream) fun n => jitterWords n (if n.dom < 3 then hz n.dom else 48000)
  | 0x28, 1 => 9 * sumOf (w.calls.map Call.accesses)
  | 0x29, 0 => count (·.typ == tTapIn) (·.nOut) + count (·.typ == tTapOut) (·.nIn)
  | _, _ => 0

/-- The use of every resource that is not 0: (16 × resource + SUB, use, use of C0 work). -/
def State.usage (s : State) (ds : List (Nat × Option (Nat × Nat))) (facs : List FacPlace) (w : Placed) (g : Graph) : List (Nat × Nat × Nat) :=
  let u := fun w g => useOf w g (fun k => budget (s.hzAfter ds k) (s.tolAfter ds k)) (s.hzAfter ds) (fun i => (s.net.port i).tagged) facs
  quotaKeys.filterMap fun k =>
    let n := u w g k.1 k.2
    if n = 0 then none else some (16 * k.1 + k.2, n, u (w.ofClass 0) (g.ofClass 0) k.1 k.2)

/-! ### SIDs, contexts and lanes (R28, R231, R238) -/

/-- Whether `m` numbers in a row below `top` are free, from 1 on. -/
def freeRun (taken : List Nat) (top m : Nat) : Bool :=
  (0 :: taken).any fun a => a + m < top && taken.all fun b => b ≤ a || a + m < b

/-- The SIDs that a plan gives: those of node channels, by node, and those of delay hops. -/
def freshSids (g : Graph) (pl : Plan) (dup : List Chan) : List (List Nat) :=
  (g.nodes.map fun n => ((List.range n.nOut).filter fun i => dup.contains (n.id, i)).map (planSid pl n.id)).filter (!·.isEmpty)
def hopSids (g : Graph) (pl : Plan) : List Nat :=
  (pl.lines.filter (·.kind == .hop)).filterMap fun p => ((g.node p.node).bind fun n => n.hop p.chan).map (·.2)

/-- R28, R231: fresh SIDs are free, and those of one node follow each other where a free run is long enough. -/
def sidsLegal (g : Graph) (pl : Plan) (dup : List Chan) (taken : List Nat) : Bool :=
  let nodes := freshSids g pl dup
  let all := nodes.flatten ++ hopSids g pl
  decide all.Nodup && all.all (fun i => 0 < i && i < planeSize && !taken.contains i) &&
    nodes.all fun l => l == (List.range l.length).map (fun i => l.headD 0 + i) ||
      !freeRun (taken ++ all.filter fun i => !l.contains i) planeSize l.length

/-- A delay hop that stays keeps its SID. -/
def hopsKept (old g : Graph) (pl : Plan) : Bool :=
  g.nodes.all fun n => n.hops.all fun h =>
    pl.lines.any (fun p => p.kind == .hop && p.node == n.id && p.chan == h.1) || (((old.node n.id).bind fun m => m.hop h.1).map (·.2)) == some h.2.2

/-- Stream nodes that take a context: sources with a new rendering, sinks that are new or whose place or attributes change. -/
def ctxDue (old : Graph) (dup : List Chan) (n : GNode) : Bool :=
  if n.typ = tSrcStream then dup.any (·.1 == n.id)
  else if n.typ = tSnkStream then
    match old.kept n with
    | some m => m.attr != n.attr || m.dom != n.dom || m.nIn != n.nIn
    | none => true
  else false

/-- The contexts of nodes of type `t`. -/
def ctxsOf (gs : List Graph) (t : Nat) : List Nat := gs.flatMap fun g => (g.nodes.filter (·.typ == t)).map (·.ctx)

/-- Contexts that the plan gives are due, free and different. -/
def ctxsLegal (old g : Graph) (pl : Plan) (dup : List Chan) (gs : List Graph) : Bool :=
  [tSrcStream, tSnkStream].all fun t =>
    let ns := g.nodes.filter fun n => n.typ == t && ctxDue old dup n
    let cs : List Nat := ns.map (·.ctx)
    decide cs.Nodup && cs.all (fun c => c < 1024 && !(ctxsOf gs t).contains c) && ns.all fun n => pl.ctxs.any (·.1 == n.id)

/-- The lanes of a graph, and those of channels that are not duplicated. -/
def Graph.lanes (g : Graph) : List Nat := g.nodes.flatMap (·.lanes)
def keptLanes (g : Graph) (dup : List Chan) : List Nat :=
  g.nodes.flatMap fun n => ((List.range n.lanes.length).filter fun i => !dup.contains (n.id, i)).map fun i => n.lanes.getD i 0

/-- Lanes that the plan gives are in service, free and different (R379). -/
def lanesLegal (g : Graph) (dup : List Chan) (taken : List Nat) (retired : Nat) : Bool :=
  let ls : List Nat := (g.nodes.filter (·.typ == tLink)).flatMap fun n => ((List.range n.nOut).filter fun i => dup.contains (n.id, i)).map fun i => n.lanes.getD i 0
  decide ls.Nodup && ls.all fun l => l < 2048 && !retired.testBit (l / 64) && !taken.contains l

/-! ### Facets and tiles (R22, R87, R238, R520) -/

/-- What a Facet is given beside its calls: as it stands while work is there, else as the plan says. -/
def State.facOf (s : State) (pl : Plan) (t : Site) (f : Nat) : Option FacPlace :=
  let busy := ((t.others.add t.own).facets).contains f
  match s.setter.facs.find? (·.facet == f) with
  | some p => if busy then some p else pl.facs.find? (·.facet == f)
  | none => pl.facs.find? (·.facet == f)

/-- The Facets' gifts after the plan. -/
def State.facsAfter (s : State) (pl : Plan) (t : Site) : List FacPlace := (List.range 64).filterMap (s.facOf pl t)

/-- A unit that takes a swap is in service, in the domain of its work once released, and no swap of it is armed. -/
def unitFree (up released armed : Bool) (dom : Nat) (ds : List Nat) : Bool := up && !armed && (!released || ds.all (· == dom))

/-- R235, R238: a Facet with what it will hold. -/
def State.facetLegal (s : State) (ds : List (Nat × Option (Nat × Nat))) (pl : Plan) (t : Site) (dip : Bool) (f : Nat) : Bool :=
  let w := (t.after dip).facet f
  let c := s.facet f
  let doms := w.calls.map (·.dom) ++ w.lines.map (·.dom)
  let k := doms.headD 0
  unitFree ((s.unitsUp 1 64).contains f) c.released c.swapArm c.domain doms &&
  match s.facOf pl t f with
  | some p => facetFits w (if dip then (t.own.facet f).xs else []) p (budget (s.hzAfter ds k) (s.tolAfter ds k)) &&
      (w.calls.all (fun c => c.accesses == 0) || p.first ≤ p.last)
  | none => w.calls.isEmpty && w.lines.isEmpty

/-- R183, R185, R238: a tile with what it will hold. -/
def State.tileLegal (s : State) (ds : List (Nat × Option (Nat × Nat))) (t : Site) (dip : Bool) (n : Nat) : Bool :=
  let w := (t.after dip).tile n
  let c := s.tile n
  let doms := w.sinks.map (·.dom)
  let k := doms.headD 0
  unitFree ((s.unitsUp 2 32).contains n) c.released (c.r.ctl.flag 12) c.domain doms &&
    tileFits w (t.own.tile n).sinks (budget (s.hzAfter ds k) (s.tolAfter ds k)) (s.hzAfter ds k)

/-- The units in which the plan or the dip changes something. -/
def Site.facets (t : Site) (dip : Bool) : List Nat :=
  (t.new.facets ++ if dip then t.own.facets.filter fun f => t.own.facet f != t.keep.facet f else []).eraseDups
def Site.tiles (t : Site) (dip : Bool) (cuts : List (Nat × Nat × Nat)) : List Nat :=
  (t.new.tiles ++ (t.own.sinks.filter fun k => cuts.any fun x => x.1 == k.at_.node && x.2.2 == k.at_.out).map (·.at_.tile) ++ if dip then t.own.tiles.filter fun f => t.own.tile f != t.keep.tile f else []).eraseDups

/-- Rows that a tile can still take. -/
def rowsFree (w : Placed) (b hz : Nat) : Nat :=
  if w.sinks.length < 4096 then min (rowsMax hz - w.rows) (b - w.tileTime) else 0

/-- R238: a sink lies across tiles only where no tile can hold it, and over the fewest that can. -/
def State.spreadLegal (s : State) (ds : List (Nat × Option (Nat × Nat))) (t : Site) (dip : Bool) (k : SinkRec) : Bool :=
  let mine := fun (x : SinkRec) => x.at_.node == k.at_.node && x.at_.out == k.at_.out && t.new.sinks.contains x
  let ps := t.new.sinks.filter mine
  if ps.length ≤ 1 then true
  else
    let all := (t.after dip).sinks.filter fun x => !mine x
    let b := budget (s.hzAfter ds k.dom) (s.tolAfter ds k.dom)
    let hz := s.hzAfter ds k.dom
    let ts := ((s.unitsUp 2 32).map fun n => (Placed.tile ⟨[], [], all⟩ n)).filter fun w => w.sinks.all (·.dom == k.dom)
    let need := ceilDiv (sumOf (ps.map (·.sids.length))) 8
    let most := (sortBy (· ≥ ·) (ts.map fun w => rowsFree w b hz)).take (ps.length - 1)
    ts.all (fun w => !tileRoom w need b hz) && sumOf most < need

/-- The receive streams of graphs, one for each context. -/
def rxNodes (gs : List Graph) : List GNode :=
  (gs.flatMap fun g => g.nodes.filter (·.typ == tSrcStream)).foldl (fun l n => if l.any (·.ctx == n.ctx) then l else l ++ [n]) []

/-- R39, R341, R520: the words of cross-tile sinks differ, lie in banks in service and outside every Facet's window, and the banks
have room for the jitter buffers of `rx` beside them. -/
def State.wordsLegal (s : State) (w : Placed) (facs : List FacPlace) (rx : List GNode) (hz : Nat → Nat) : Bool :=
  let ws : List Nat := (w.sinks.filter (·.mode == 2)).map (·.at_.word)
  let windows := sumOf (facs.map fun p => if w.calls.any (fun c => c.at_.facet == p.facet && c.accesses != 0) then p.last + 1 - p.first else 0)
  2 * (ws.length + windows) + sumOf (rx.map fun n => jitterWords n (if n.dom < 3 then hz n.dom else 48000)) ≤ (128 - s.mem.retired.length) * 32768 &&
  decide ws.Nodup && ws.all fun a => [a, a + 1].all fun x =>
    !s.mem.retired.contains (x % 128) && facs.all fun p => p.facet != x % 128 / 2 || x / 128 < p.first || p.last < x / 128

/-! ### Delay lines (R143, R149, R249, R292) -/

/-- The SID of the channel that a line serves. -/
def Graph.lineSid (g : Graph) (k : LineKey) : Nat :=
  match g.node k.1 with
  | some n => if k.2.1 = .hop then ((n.hop k.2.2).map (·.2)).getD 0 else n.sids.getD k.2.2 0
  | none => 0

def LineRec.key (l : LineRec) : LineKey := (l.at_.node, l.at_.kind, l.at_.chan)

/-- The line of the own work that serves a key in graph `g`. -/
def Placed.line (w : Placed) (g : Graph) (k : LineKey) : Option LineRec := w.lines.find? fun l => l.key == k && l.sid == g.lineSid k

/-- R142, R146: whether a new delay needs a new geometry. -/
def needsGeo (l : LineRec) (d : Nat) : Bool := if l.at_.dram then dramLen d != dramLen l.d else l.at_.len < d

/-- The DRAM area of a line, keyed by channel. -/
def LineRec.dramArea (l : LineRec) : Area := ⟨(l.at_.id, l.at_.ch), l.at_.area + 2 ^ 32 * l.at_.ch, dramLen l.d⟩

/-- R143, R292: the DRAM lines among `l` lie in initialised DRAM, apart. -/
def State.dramLegal (s : State) (l : List LineRec) : Bool :=
  let ds := l.filter (·.at_.dram)
  let as := (ds.map LineRec.dramArea).eraseDups
  ds.all (fun x => setterDram x.at_.ch ≤ x.at_.area && x.at_.area + dramLen x.d ≤ s.dram.inited x.at_.ch * 2 ^ 18) && decide (as.Pairwise fun a b => a.meets b = false)

/-- R149: the new geometry of a line that stays: in its Facet, on the same words; in place where it can grow there. -/
def geoLegal (w : Placed) (l : LineRec) (d : Nat) (q : LinePlace) : Bool :=
  let p := l.at_
  let others := (w.facet p.facet).ys.filter fun a => !l.yAreas.contains a
  let grown := areasApart (others ++ [⟨(p.id, 9), p.base, d⟩]) FMem.y.size
  q.facet == p.facet && q.inp == p.inp && q.out == p.out && q.id == p.id && q.nb == p.nb && q.bundles == p.bundles &&
    (if q.dram == p.dram && (if p.dram then q.area == p.area && q.ch == p.ch else q.base == p.base) then true
     else (p.dram || !grown) && ({ l with at_ := q, d := d } : LineRec).yAreas.all fun a => l.yAreas.all fun b => a.tag.2 != b.tag.2 || a.len ≤ 1 || a.meets b == false)

/-- R249: the delays that change: each takes a new geometry exactly where it needs one. -/
def geosLegal (t : Site) (old g : Graph) (pl : Plan) (dup : List Chan) (hz : Nat → Nat) : Bool :=
  let cs := lineChanges old g dup
  decide ((pl.geo.map fun q => (q.node, q.kind, q.chan) : List LineKey)).Nodup &&
  pl.geo.all (fun q => cs.any fun c => c.1 == (q.node, q.kind, q.chan)) && cs.all fun c =>
    match t.own.line g c.1, pl.geo.find? fun q => (q.node, q.kind, q.chan) == c.1 with
    | none, _ => false
    | some l, none => !needsGeo l c.2
    | some l, some q => geoLegal t.own l c.2 q && ({ l with at_ := q, d := c.2 } : LineRec).fits (hz l.dom)

/-- The own lines with their new delays and geometries. -/
def Placed.redelay (w : Placed) (old g : Graph) (pl : Plan) (dup : List Chan) : Placed :=
  { w with lines := w.lines.map fun l =>
      match (lineChanges old g dup).find? fun c => c.1 == l.key && l.sid == g.lineSid c.1 with
      | some c => { l with d := c.2, at_ := (pl.geo.find? fun q => (q.node, q.kind, q.chan) == c.1).getD l.at_ }
      | none => l }

/-- R143, R292: a new DRAM line has no room in Y memory; the two channels are taken in turn. -/
def linesLegal (w : Placed) (new : List LineRec) (count : Nat) (hz : Nat → Nat) : Bool :=
  let ds := new.filter (·.at_.dram)
  let ids : List Nat := w.lines.map (·.at_.id)
  decide ids.Nodup && new.all (fun l => l.fits (hz l.dom) && padPlaced w l && l.at_.id < 65536) &&
    ds.all (fun l => !hasGap ((w.facet l.at_.facet).ys.filter fun a => !l.yAreas.contains a) FMem.y.size l.d) &&
    (ds.zip (List.range ds.length)).all fun x => x.1.at_.ch == (count + x.2) % 2

/-! ### Transmit frames (R344, R345) -/

/-- A transmit stream with its phase φ and offset σ. -/
abbrev TxSlot := GNode × Nat × Nat

/-- R344: whether two streams of one domain of rate `hz`, whose frames take `a` and `b` ns with 100 ns between, never overlap: modulo the
common period of their packets, in units of 1/fs ns. -/
def framesApart (x y : TxSlot) (a b hz : Nat) : Bool :=
  let g := Nat.gcd (x.1.a16 4) (y.1.a16 4) * 1000000000
  let d := ((((x.2.1 : Int) - y.2.1) * 1000000000 + ((x.2.2 : Int) - y.2.2) * hz) % (g : Int)).toNat
  b * hz ≤ d && d + a * hz ≤ g

/-- R344, R345: the ns that a frame of a stream takes on port `i`, and the 100 ns that are allowed for it. -/
def State.frameNs (s : State) (n : GNode) (i : Nat) : Nat :=
  ceilDiv (8 * streamBytes n (s.net.port i).tagged) (if (s.net.port i).ctl.fld 4 1 = 0 then 25 else 10) + 100

/-- R344: each new transmit stream has φ below PTIME and σ at most T − 2 µs, and no frame of C0 or C1 overlaps another one of its port.
DESIGN CHOICE (log 91): frames of different domains, whose rates are not locked together, are not compared. -/
def State.txLegal (s : State) (old g : Graph) (pl : Plan) (gs : List Graph) (hz : Nat → Nat) (dip : Bool) : Bool :=
  let tx := fun (h : Graph) => h.nodes.filter (·.typ == tSnkStream)
  let due := (tx g).filter fun n => pl.ctxs.any fun c => c.1 == n.id && c.2.1 == n.ctx
  let new : List TxSlot := due.map fun n => (n, ((pl.ctxs.find? (·.1 == n.id)).map (·.2.2)).getD (0, 0))
  let kept := fun (n : GNode) => !due.any (·.ctx == n.ctx) && (!dip || (tx g).any (·.ctx == n.ctx) || (tx old).all (·.ctx != n.ctx))
  let was : List TxSlot := ((gs.flatMap tx).filter kept).map fun n => (n, (s.net.txc n.ctx).phase, (s.net.txc n.ctx).sigma)
  new.all fun x => x.2.1 < x.1.a16 4 && x.2.2 * hz x.1.dom + 2000 * hz x.1.dom ≤ 1000000000 &&
    (x.1.cls == 2 || (new ++ was).all fun y => y.1.ctx == x.1.ctx || y.1.cls == 2 || y.1.dom != x.1.dom ||
      [0, 1].all fun i => !(x.1.a8 3).testBit i || !(y.1.a8 3).testBit i || framesApart x y (s.frameNs x.1 i) (s.frameNs y.1 i) (hz x.1.dom))

/-! ### A legal plan -/

/-- R46: the pads of every group that the transaction computes. -/
def padsLegal (g : Graph) (hz : Nat → Nat) (due : Bool) : Bool := !due || g.groups.all (padsWell g hz)

/-- Whether a plan keeps the promises, as a dip or side by side with the old rendering. `due`: its groups are computed anew. -/
def State.planLegal (s : State) (p : Nat) (ds : List (Nat × Option (Nat × Nat))) (pl : Plan) (old g : Graph) (dup : List Chan) (due dip : Bool) :
    Bool :=
  let t := s.site p pl g dup
  let t := { t with own := t.own.redelay old g pl dup, keep := t.keep.redelay old g pl dup }
  let w := t.after dip
  let hz := s.hzAfter ds
  let gs := s.allGraphs
  let lanes := ((gs.filter (· != old)).flatMap Graph.lanes) ++ if dip then keptLanes g dup else old.lanes
  sidsLegal g pl dup (gs.flatMap Graph.sids) && hopsKept old g pl && ctxsLegal old g pl dup gs && lanesLegal g dup lanes s.links.retired &&
  planComplete pl old g dup && groupsMeet g hz && padsLegal g hz due && geosLegal t old g pl dup hz &&
  linesLegal w t.new.lines s.setter.drams hz && s.dramLegal (w.lines ++ t.own.lines) &&
  t.new.calls.all (fun c => t.own.calls.all fun o => o.at_.facet != c.at_.facet || c.xAreas.all fun a => o.xAreas.all fun b => !a.meets b) &&
  (t.facets dip).all (s.facetLegal ds pl t dip) && (t.tiles dip (s.setter.part p).gone).all (s.tileLegal ds t dip) && t.new.sinks.all (s.spreadLegal ds t dip) &&
  s.wordsLegal w (s.facsAfter pl t) (rxNodes (g :: gs)) hz && s.txLegal old g pl gs hz dip

/-! ### Refusals that a plan may name (R237) -/

/-- R237: the codes for which the placement, whose algorithm is not documented, finds no room: an instance of the unit, or none, and
more needed than there is. -/
def refuseLegal (r : Nat × Nat × Nat × Nat × Nat) : Bool :=
  let n := match r.1 with | 0x20 => 64 | 0x21 => 32 | 0x25 => 2 | 0x28 => 128 | _ => 0
  ([(0x20, 0), (0x20, 1), (0x20, 2), (0x20, 3), (0x20, 4), (0x21, 0), (0x21, 1), (0x21, 2), (0x21, 3), (0x25, 1), (0x28, 0), (0x28, 1)].contains
    (r.1, r.2.1)) && (r.2.2.1 == 0xFFFF || r.2.2.1 < n) && r.2.2.2.2 < r.2.2.2.1

/-- R143: a latency-group pad beyond 60 s. -/
def padRefusal (g : Graph) (hz : Nat → Nat) : Option Refuse :=
  let tooLong := g.nodes.findSome? fun n =>
    ((n.pads.map fun x => (x.2, hz n.outDom)) ++ n.hops.map fun x => (x.2.1, hz n.dom)).find? fun x => x.1 > 60 * x.2
  tooLong.map fun x => Refuse.adm 0x25 1 0xFFFF x.1 (60 * x.2)

/-- R236: SIDs, contexts and lanes for new renderings beside those that are held (DESIGN CHOICE: a dip takes fresh SIDs and transmit
contexts too). -/
def State.freshRefusal (s : State) (old g : Graph) (dup : List Chan) (dip : Bool) : Option Refuse :=
  let gs := s.allGraphs
  let sids := (gs.flatMap Graph.sids).eraseDups.length + dup.length
  let ctxs := fun t => (ctxsOf gs t).eraseDups.length + (g.nodes.filter fun n => n.typ == t && ctxDue old dup n).length
  let lanes := (gs.flatMap Graph.lanes).eraseDups.length +
    (dup.filter fun c => (g.node c.1).any (·.typ == tLink)).length
  if sids > 32767 then some (Refuse.adm 0x23 0 0xFFFF sids 32767)
  else if ctxs tSrcStream > 1024 then some (Refuse.adm 0x26 0 0xFFFF (ctxs tSrcStream) 1024)
  else if ctxs tSnkStream > 1024 then some (Refuse.adm 0x26 1 0xFFFF (ctxs tSnkStream) 1024)
  else if !dip && lanes > s.lanesUp then some (Refuse.adm 0x24 0 0xFFFF lanes s.lanesUp)
  else none

/-! ### Shedding (R53, R59, R63) -/

/-- R59: the order in which admissions are shed. -/
def State.shedOrder (s : State) : List (Nat × Nat × Nat) :=
  Machine.shedOrder ((List.range 4).map fun q => (q, Memory.get prioReset s.host.pol.prio q, (s.setter.part q).graph))

/-- R53: an admission sheds C2 admissions only, for C0 or C1 work, in order, and none that the plan could do without: `fits` tells whether
the plan is legal when it sheds the given ones. -/
def shedDue (order : List (Nat × Nat × Nat)) (old g : Graph) (shed : List (Nat × Nat)) (fits : List (Nat × Nat) → Bool) : Bool :=
  shed.isEmpty ||
    (g.nodes.any (fun n => n.cls < 2 && (old.kept n).isNone) && shedLegal order shed true && !fits (shed.take (shed.length - 1)))

/-- R59: a re-placement sheds from the front of the order. -/
def shedFront (order : List (Nat × Nat × Nat)) (shed : List (Nat × Nat)) : Bool := shed == (order.map fun e => (e.1, e.2.1)).take shed.length

end Sys2Proof.Machine
end

