-- ==== Sys2Proof/Machine/Image.lean ====
section
/-!
DEFINITION. What the Setter writes into Facets and tiles to bring work into them and to take it away: program banks, lists,
parameter blocks, private areas, sink tables, swaps, delay lines (R69, R70, R96, R118, R139 to R149, R169 to R175, R181, R184, R197,
R198, R219, R220, R238, R244, R248, R251, R520).
-/

namespace Sys2Proof.Machine

/-! ### Facets -/

/-- Words of a data memory from `a` on. -/
def Facet.putRun (f : Facet) (m : FMem) (a : Nat) (ws : List Word) : Facet :=
  ((List.range ws.length).zip ws).foldl (fun f w => f.write m (a + w.1) w.2) f

/-- R219: a region becomes 0. -/
def Facet.zero (f : Facet) (m : FMem) (l : List Area) : Facet := l.foldl (fun f a => f.putRun m a.at_ (List.replicate a.len 0)) f

/-- R70: a program in a bank, from bundle 0 on. -/
def Facet.putProgram (f : Facet) (bank : Nat) (bs : List Nat) : Facet :=
  ((List.range bs.length).zip bs).foldl (fun f b =>
    (List.range 4).foldl (fun f q => f.writeProg bank (4 * b.1 + q) (BitVec.ofNat 32 (b.2 >>> (32 * q)))) f) f

/-- R87: an entry of a gather or post list: Y word and SID. -/
def listWord (e : Nat × Nat) : Word := BitVec.ofNat 32 (e.1 <<< 16 + e.2)

/-- R520: FAC_SBWIN for a Facet's window. -/
def windowWord (p : FacPlace) : Word := if p.last < p.first then 0 else BitVec.ofNat 32 (2 ^ 31 + p.last <<< 16 + p.first)

/-- R69, R96, R238: work `w` in the shadow bank, its lists in the list area of that bank, for a swap at tick `t` of domain `k`. A Facet
that is not released starts there (R92). -/
def Facet.image (f : Facet) (w : Placed) (p : FacPlace) (k t : Nat) : Facet :=
  let bank := 1 - f.bank
  let base := if bank = 0 then p.list0 else p.list1
  let gs := w.gathers.map listWord
  let ps := w.posts.map listWord
  let f := (f.putProgram bank w.program).putRun .z base (gs ++ ps)
  let at_ := w.sampleProgram.length
  let stub := fun (x : KObj → Nat) => match w.background with | some c => at_ + x (kobj c.obj) | none => 0
  let r := f.r
  let ctl := if f.released then r.ctl else (r.ctl.setFld 4 2 k).setFlag 0 true
  { f with r := { r with
      ctl := ctl.setFlag 12 true, startTick := if f.released then r.startTick else t, swapTick := t
      vec := r.vec.setFld 16 12 0, pstub := r.pstub.setFld 16 12 (stub (·.pstub)), rstub := r.rstub.setFld 16 12 (stub (·.rstub))
      glistNext := BitVec.ofNat 32 (gs.length <<< 16 + base), plistNext := BitVec.ofNat 32 (ps.length <<< 16 + base + gs.length)
      sbwin := windowWord p } }

/-- R94: the Facet stops at its next tick; no swap stays armed. -/
def Facet.unload (f : Facet) : Facet :=
  { f with r := { f.r with ctl := ((f.r.ctl.setFlag 0 false).setFlag 12 false).setFlag 16 false } }

/-- R170 to R175, R219: the X words of a new call: both copies of the parameter block, the pointer word, the private area. -/
def Facet.placeX (f : Facet) (c : Call) (ws : List Word) : Facet :=
  let k := c.at_
  let b := c.block ws
  ((((f.zero .x (c.xAreas.drop 3)).putRun .x k.copy0 b).putRun .x k.copy1 b)).write .x k.ptr (BitVec.ofNat 32 k.copy0)

/-- R169, R172 to R175, R219: its Y and Z words are 0, or what the kernel starts from. -/
def Facet.placeYZ (f : Facet) (c : Call) : Facet :=
  let f := (f.zero .y c.yAreas).zero .z c.zAreas
  match c.lib with
  | some l => (l.zInit c.at_).foldl (fun f w => f.write .z w.1 w.2) f
  | none => f

/-! ### Tiles -/

/-- R179: an active entry for a crosspoint with its gain word, or an inactive one; `last` marks the last row. -/
def crossEntry (sid : Option Nat) (gain : Word) (last : Bool) : BitVec 48 :=
  let e : BitVec 48 := match sid with
    | some i => BitVec.ofNat 48 (i <<< 33 + (gain.fld 0 24) <<< 9 + 2 ^ 8 + if gain.flag 24 then 2 ^ 6 else 0)
    | none => 0
  if last then entPut e 4 true else e

/-- R182, R184: the rows of a new sink, in entry memory that no table references; `gain` gives the gain word of an input. -/
def Tile.placeSink (t : Tile) (k : SinkRec) (gain : Nat → Word) : Tile :=
  let p := k.at_
  (List.range (8 * p.rows)).foldl (fun t i =>
    let e := 8 * p.row + i
    let sid := (k.sids.find? (·.1 == e)).map (·.2)
    let g := ((p.ents.find? (·.1 == e)).map fun x => gain x.2).getD 0
    (t.setEntry e (crossEntry sid g (i + 1 == 8 * p.rows))).fresh .entry (entWords e)) t

/-- R181: the descriptor of a sink. -/
def SinkRec.desc (k : SinkRec) : BitVec 128 :=
  let w1 := (if k.fresh then 2 ^ 31 else 0) + k.at_.slot <<< 16 + k.mode <<< 2 + k.scale
  BitVec.ofNat 128 (k.at_.row <<< 16 + k.sid + w1 <<< 32 + (if k.mode = 0 then 0 else k.at_.word) <<< 64)

/-- R184, R187, R197, R238: the sinks of `w` in the shadow table, with their stall total, for a swap at tick `t` of domain `k`. -/
def Tile.image (c : Tile) (w : Placed) (k t : Nat) : Tile :=
  let b := 1 - c.bank
  let u := ((List.range w.sinks.length).zip w.sinks).foldl (fun (u : Tile) e =>
    { u.fresh .sinkTab (descWords (4096 * b + e.1)) with sinks := Memory.set (fun _ => 0) u.sinks (4096 * b + e.1) e.2.desc }) c
  let r := u.r
  let ctl := if c.released then r.ctl else (r.ctl.setFld 4 2 k).setFlag 0 true
  { u with r := { r with
      ctl := ctl.setFlag 12 true, startTick := if c.released then r.startTick else t, swapTick := t, countNext := w.sinks.length
      stNext := min (w.tileTime - w.rows) 0xFFFF } }

/-- R197: the tile stops at its next tick. -/
def Tile.unload (t : Tile) : Tile := { t with r := { t.r with ctl := (t.r.ctl.setFlag 0 false).setFlag 12 false } }

/-! ### Units of the device -/

/-- The work of all partitions: as it runs, or (`all`) as it will be once every armed epoch has entered its domains. -/
def State.work (s : State) (all : Bool) : Placed :=
  Placed.join ((List.range 4).map fun p => if all then s.workAfter p [0, 1, 2] else (s.setter.part p).work)

/-- A Facet is loaded anew: with a swap armed it keeps that swap's tick, else it swaps at tick `t` of domain `k`. Without work it
stops (R94). -/
def State.loadFacet (s : State) (f k t : Nat) (all : Bool) : State :=
  let c := s.facet f
  let w := (s.work (all || c.swapArm)).facet f
  if w.calls.isEmpty && w.lines.isEmpty then
    if all then s else (s.modFacet f Facet.unload).withSetter fun x => { x with facs := x.facs.filter (·.facet != f) }
  else match s.setter.facs.find? (·.facet == f) with
    | some p => s.setFacet f (c.image w p k (if c.swapArm then c.r.swapTick else t))
    | none => s

def State.loadTile (s : State) (n k t : Nat) (all : Bool) : State :=
  let c := s.tile n
  let w := (s.work (all || c.r.ctl.flag 12)).tile n
  if w.sinks.isEmpty then if all then s else s.modTile n Tile.unload
  else s.setTile n (c.image w k (if c.r.ctl.flag 12 then c.r.swapTick else t))

/-- Facets `fs` and tiles `ts` are loaded over the control fabric, which ungates them (R462). -/
def State.loadUnits (s : State) (fs ts : List Nat) (k t : Nat) (all : Bool) : State :=
  ts.foldl (fun s n => (s.ungate 1 n).loadTile n k t all) (fs.foldl (fun s f => (s.ungate 0 f).loadFacet f k t all) s)

/-- The units in which two states of a partition's work differ. -/
def facetsDiffer (a b : Placed) : List Nat := ((a.add b).facets).filter fun f => a.facet f != b.facet f
def tilesDiffer (a b : Placed) : List Nat := ((a.add b).tiles).filter fun n => a.tile n != b.tile n

/-! ### Placing new work -/

/-- The parameter words of a node of graph `g`. -/
def GNode.words (n : GNode) : List Word := n.slots.flatMap fun w => [w.1, w.2]
def Graph.wordsOf (g : Graph) (id : Nat) : List Word := ((g.node id).map GNode.words).getD []

/-- R216: the gain word of the crosspoint from input `i` to output `o` of a node. -/
def Graph.gainOf (g : Graph) (id o i : Nat) : Word :=
  ((g.node id).bind fun n => (n.slots.find? fun w => xpIn w.1 == i && xpOut w.1 == o).map (·.2)).getD 0

/-- The X words of new calls and the rows of new sinks: where nothing that runs reads. -/
def State.placeIdle (s : State) (g : Graph) (w : Placed) : State :=
  let s := w.calls.foldl (fun s c => (s.ungate 0 c.at_.facet).modFacet c.at_.facet fun f => f.placeX c (g.wordsOf c.at_.node)) s
  w.sinks.foldl (fun s k => (s.ungate 1 k.at_.tile).modTile k.at_.tile fun t => t.placeSink k (g.gainOf k.at_.node k.at_.out)) s

/-- R39, R219: the Y and Z words of new calls, the bank words of new cross-tile sinks. -/
def State.placeLive (s : State) (w : Placed) : State :=
  let s := w.calls.foldl (fun s c => s.modFacet c.at_.facet fun f => f.placeYZ c) s
  (w.sinks.filter (·.mode == 2)).foldl (fun s k => s.withMem fun m =>
    [k.at_.word, k.at_.word + 1].foldl (fun m a => (m.access ⟨.core 0, a, .write 0⟩).1) m) s

/-! ### Delay lines -/

/-- The DRAM line of a record; it serves from period `n` on. -/
def LineRec.stream (l : LineRec) (n : Nat) : DramLine :=
  { id := l.at_.id, dom := l.dom, ch := l.at_.ch, base := l.at_.area, d := l.d, ld := dramLen l.d, facet := l.at_.facet
    wring := l.at_.wring, rring := l.at_.rring, upto := n + 1, next := none }

/-- The lines of a Facet and of the stream engine follow the work: those of `gone` end, those of `new` begin with period `n`. -/
def State.swapLines (s : State) (gone new : List LineRec) (n : Nat) : State :=
  let s := gone.foldl (fun s l => (s.modFacet l.at_.facet fun f => { f with lines := f.lines.filter (·.id != l.at_.id) }).withDram fun d =>
    { d with lines := d.lines.filter (·.id != l.at_.id) }) s
  new.foldl (fun s l =>
    let s := s.modFacet l.at_.facet fun f => { f with lines := f.lines ++ [l.start] }
    if l.at_.dram then s.withDram fun d => { d with lines := d.lines ++ [l.stream n] } else s) s

/-- A change of one line of a Facet. -/
def State.modLine (s : State) (f id : Nat) (g : DLine → DLine) : State :=
  s.modFacet f fun c => { c with lines := c.lines.map fun l => if l.id = id then g l else l }

/-- R142, R146, R249: line `l` of domain tick `c` on has delay `d`: a tap move with crossfade `x`, or, with a new place or in a dip, a
dip whose new geometry comes in force 32 periods later. A tap of a DRAM line always moves with a dip (DEDUCED from R144: its read ring
brings one tap). -/
def State.moveLine (s : State) (l : LineRec) (d c x : Nat) (dip : Bool) (geo : Option LinePlace) : State :=
  let q := geo.getD l.at_
  if geo.isNone ∧ !dip ∧ !l.at_.dram then s.modLine l.at_.facet l.at_.id fun y => { y with move := some (d, c, x) }
  else
    let s := s.modLine l.at_.facet l.at_.id fun y =>
      let g := lineGeo q d
      { y with dip := some c, next := some (if geo.isNone then { y.g with d := d, len := if q.dram then dramLen d else y.g.len } else g) }
    if q.dram then s.withDram fun m =>
      { m with lines := if l.at_.dram then m.lines.map fun y =>
                            if y.id = l.at_.id then { y with next := some (c + 32, q.ch, q.area, d, dramLen d) } else y
                          else m.lines ++ [({ l with at_ := q, d := d } : LineRec).stream (c + 31)] }
    else s

/-- R147, R149: the new geometry of line `l` is in force: its record takes the place that the swap gave it. -/
def State.installLine (s : State) (p : Nat) (l : LineRec) (q : LinePlace) (t : Nat) : State :=
  let s := s.modLine l.at_.facet l.at_.id fun y => if y.due t then y.install else y
  let base := (((s.facet l.at_.facet).lines.find? (·.id == l.at_.id)).map (·.g.base)).getD q.base
  let s := s.withDram fun m => { m with lines := (m.lines.filter fun y => q.dram || y.id != l.at_.id).map fun y =>
    if y.id = l.at_.id then { (y.from_ (y.next.map (·.1) |>.getD 0)) with next := none, wring := q.wring, rring := q.rring } else y }
  s.withSetter fun x =>
    let sp := x.part p
    let w := { sp.work with lines := sp.work.lines.map fun y =>
      if y.at_.id = l.at_.id then { y with at_ := if q.dram then q else { q with base := base } } else y }
    x.setPart p { sp with work := w }

end Sys2Proof.Machine
end

