-- ==== Sys2Proof/Machine/Admit.lean ====
section
/-!
DEFINITION. The Setter judges a transaction on the whole device (R233 to R246, R250, R253, R255).
-/

namespace Sys2Proof.Machine

/-! ### Completions and time -/

/-- A completion joins its partition's list; one of an earlier session is discarded (R420). PRT_LAST_TAG takes the TXN_TAG
of every transaction that completes (R421). -/
def State.complete (s : State) (e : Entry) (c : Compl) : State :=
  s.withHost fun h => h.modPart e.part fun q =>
    let q := if e.op = 1 then { q with lastTag := c.tag } else q
    if q.session = e.session then { q with compl := q.compl ++ [c] } else q

/-- A command of a ring ends with a status. -/
def State.completeWith (s : State) (e : Entry) (status : Nat) : State :=
  s.complete e { complOf e status with epoch := (s.setter.part e.part).epoch }

/-- Now, in units of `timeUnit`. -/
def State.nowUnits (s : State) : Int := s.ns * nsUnits

/-- The timeline of domain `k` (R242, R310): of a running one from its newest tick timestamp, at its own rate (R308: in the old numbering);
before tick 0 from the instant set for it. A domain that is not running counts from now, at rate `hz`. -/
def State.line (s : State) (hz : Nat → Nat) (k : Nat) : Line :=
  let d := s.dom k
  if d.run then
    let st := d.stamps.headD (0, d.lastNs)
    ⟨st.1, (st.2 * nsUnits : Nat), rateHz d.rate⟩
  else ⟨0, s.nowUnits, hz k⟩

/-- Partitions' graphs, in order. -/
def State.graphs (s : State) : List Graph := (List.range 4).map fun p => (s.setter.part p).graph

/-- The domains that a list of graphs uses. -/
def domsOf (gs : List Graph) : Nat := gs.foldl (fun m g => m ||| g.domains) 0

/-- What the format checks look up (R205 to R228). -/
def State.fqEnv (s : State) (p : Nat) : FqEnv where
  part := p
  graph := (s.setter.part p).graph
  epoch := (s.setter.part p).epoch
  decl := (List.range 3).map fun k => let d := s.dom k; if d.declared then some (d.rate, d.tol) else none
  usedP := domsOf ([1, 2, 3].flatMap s.graphsOf)
  usedO := domsOf (((List.range 4).filter (· != p)).flatMap s.graphsOf)
  grants := (s.host.pol.grants.filter (·.reader == p)).map fun g => (g.first, g.count)
  sidDom := s.graphs.flatMap fun g => g.nodes.flatMap fun n => (n.sids.filter (· != 0)).map fun i => (i, n.outDom)
  ptpDoms := if s.clk.source = 4 then 7 else 0
  records := (s.host.part p).mtrCfg.fld 0 16
  ctl := (List.range 36).map fun i => (s.ports.port i).ctl
  tdmDom := ((List.range 4).filter (· != p)).flatMap fun q =>
    (s.setter.part q).graph.nodes.filterMap fun n =>
      if n.typ = tSrcPort ∨ n.typ = tSnkPort then
        match nodePort n with
        | some i => if i < 16 then some (i, n.dom) else none
        | none => none
      else none
  running := ((List.range 3).filter fun k => (s.dom k).run).foldl (fun m k => m + 2 ^ k) 0

/-- R234: NOT_READY by reduced service or the Rescue condition. -/
def State.notReady (s : State) : Option Refuse :=
  if s.clk.rescue then some (Refuse.adm 0x2F 1 0xFFFF 0 0)
  else if s.boot.at_ ≠ .full ∨ ¬ s.awake then some (Refuse.adm 0x2F 0 0xFFFF 0 0) else none

/-- R234: a domain that the transaction uses and that neither runs nor is declared by it. -/
def State.domMissing (s : State) (fq : Fq) : Option Refuse :=
  let bad := (List.range 3).find? fun k =>
    fq.graph.domains.testBit k && !(s.dom k).run && !(fq.doms.any fun d => d.1 == k && d.2.isSome)
  bad.map fun k => Refuse.adm 0x2F 2 k 0 0

/-- R346: the limit of a port in Mb/s. -/
def State.mbps (s : State) (i : Nat) : Nat := if (s.net.port i).ctl.fld 4 1 = 0 then 22500 else 9000

/-- R29: whether partition `p` may read a SID: silence, one that a graph of its own writes, or one that it is granted. -/
def State.mayRead (s : State) (p sid : Nat) : Bool :=
  let own := (s.setter.part p).graph :: ((s.setter.armed.filter (·.part == p)).map (·.new)
    ++ (s.setter.builds.filter (·.entry.part == p)).map (·.graph))
  sid == 0 || own.any (fun g => g.sids.contains sid)
    || s.host.pol.grants.any fun g => g.reader == p && decide (g.first ≤ sid) && decide (sid < g.first + g.count)

/-- A SID, or silence where `ok` does not allow it (R29). -/
def hush (ok : Nat → Bool) (sid : Nat) : Nat := if ok sid then sid else 0

/-- The domains that a parameter transaction uses: those of the nodes that it changes (R250). -/
def paramDoms (g : Graph) (chgs : List PChange) : Nat :=
  chgs.foldl (fun m x =>
    let id := match x with | .word n _ _ _ _ => n | .gain n _ _ _ _ => n
    match g.node id with
    | some n => if n.dom < 3 then m ||| 2 ^ n.dom else m
    | none => m) 0

/-! ### Judging a transaction (R233 to R246) -/

/-- What the Setter decides about a transaction at the front of intake. -/
inductive Verdict where
  | wait                                 -- nothing happens yet
  | refuse (tag : Nat) (r : Refuse)
  | accept (b : Build)
deriving DecidableEq, Repr

/-- R236, R246, R308: the shape of an epoch transaction: graph before the plan's SIDs, duplicated channels, graph with its
placement. -/
structure Shape where
  dup  : List Chan
  g    : Graph
  redo : Nat               -- running domains whose rate or tolerance changes (R308)
  doms : Nat               -- domains used
deriving DecidableEq, Repr

/-- R308: running domains that records give another rate or tolerance. -/
def State.redoDoms (s : State) (ds : List (Nat × Option (Nat × Nat))) : Nat :=
  ds.foldl (fun m d => match d.2 with
    | some x => if (s.dom d.1).run && (x.1 != (s.dom d.1).rate || x.2 != (s.dom d.1).tol) then m ||| 2 ^ d.1 else m
    | none => m) 0

def State.shape (s : State) (p : Nat) (fq : Fq) (pl : Plan) : Shape :=
  let old := (s.setter.part p).graph
  let redo := s.redoDoms fq.doms
  let forms := (pl.shed.filter (·.1 == p)).foldl (fun g x => g.shed x.2) (placeForms old fq.graph pl s.setter.seq)
  let dup := dupChans old forms forms.size (forms.chansIn redo)
  let g := placeSids forms pl dup
  ⟨dup, g, redo, g.domains ||| old.domains⟩

/-- The channels of changed paths for P_time (R244): new renderings and changed sinks. -/
def Shape.paths (h : Shape) (old : Graph) : List Chan := h.dup ++ (sinkChanges old h.g).map fun x => (x.node, x.ch)

/-- R244: P_time of a shape; nothing changed needs none. -/
def Shape.pre (h : Shape) (old : Graph) (hz : Nat → Nat) : Nat :=
  let l := h.paths old
  if l.isEmpty then 0
  else preTime h.g hz l (h.g.nodes.any fun n => n.typ == tLink && n.a8 0 == 1 && h.dup.any fun c => c.1 == n.id) h.doms

/-! ### The earliest achievable tick (R240, R241, R249, R253, R306) -/

/-- R240: the bound of a transaction in units; `patch` tells whether a program bank of a released Facet is rewritten. -/
def boundOf (fq : Fq) (patch : Bool) : Nat :=
  let ms := timeUnit / 1000
  (if fq.param then max 1 (ceilDiv fq.chgs.length 1024) * ms / 2
   else if fq.full then (if fq.graph.nodes.length ≤ 10000 then 400 else 650) * ms
   else max 1 (ceilDiv fq.recs 64) * (2 * ms)) + if patch then 4 * ms else 0

/-- R249: the first tick at which another change of a line may act. -/
def DLine.freeAt (l : DLine) : Nat := max ((l.move.map fun m => m.2.1 + m.2.2 + 1).getD 0) ((l.dip.map (· + 65)).getD 0)

/-- Ticks before which a transaction may not act: (domain, tick). -/
def State.notBefore (s : State) (fq : Fq) (old : Graph) (h : Shape) (t : Site) : List (Nat × Nat) :=
  (if fq.param then
    s.setter.smooth.filterMap fun q =>
      if q.part = fq.part ∧ fq.chgs.any (fun x => match x with | .word n _ _ _ _ => n == q.node | .gain .. => false) then
        (fq.graph.node q.node).bind fun n => q.last.map fun l => (n.dom, l)
      else none
   else (lineChanges old h.g h.dup).filterMap fun c => (t.own.line h.g c.1).bind fun l =>
     ((s.facet l.at_.facet).lines.find? (·.id == l.at_.id)).map fun y => (l.dom, y.freeAt)) ++
  ((List.range 3).filter fun k => h.doms.testBit k && !(s.dom k).run).map fun k => (k, 1024)

/-- R241, R146: whether a DRAM line that stays takes a new delay. -/
def dramMoves (old : Graph) (h : Shape) (t : Site) (pl : Plan) : List Nat :=
  (lineChanges old h.g h.dup).filterMap fun c => (t.own.line h.g c.1).bind fun l =>
    if l.at_.dram || pl.geo.any (fun q => (q.node, q.kind, q.chan) == c.1 && q.dram) then some l.dom else none

/-- R241: the earliest achievable anchor tick: what the plan says, within what the rules leave it. `pre` is the pre-roll before
the anchor, `bound` R240's. -/
def State.earliest (s : State) (fq : Fq) (pl : Plan) (doms pre bound : Nat) (lower : List (Nat × Nat)) (dram : List Nat) : Nat :=
  let ln := s.line (s.hzAfter fq.doms)
  let l := ln (anchorDom fq.commit doms)
  let lead := pre + timeUnit / 10000
  let lo0 := dram.foldl (fun n k => max n (l.first (s.nowUnits + (timeUnit / 10000 + 256 * (ln k).per : Nat)))) (l.first (s.nowUnits + lead))
  let lo := lower.foldl (fun n x => max n (l.first ((ln x.1).at x.2 + (if x.2 = 1024 then pre else 0)))) lo0
  max lo (min pl.earliest (l.first (s.nowUnits + (lead + bound : Nat))))

/-! ### Program patches (R255) -/

/-- A BQC8 call whose word 0 a parameter transaction sets: with its new S, at the place that the plan gives it if it must move. -/
def Call.patch (c : Call) (chgs : List PChange) (pl : Plan) : Call :=
  match chgs.findSome? fun x => match x with | .word n 0 _ w _ => if n = c.at_.node then some w else none | _ => none with
  | some w =>
    if c.kern = 0x80000001 then
      { c with sects := w.toNat, at_ := (pl.blocks.find? fun k => k.node == c.at_.node && k.call == c.at_.call && k.facet == c.at_.facet).getD c.at_ }
    else c
  | none => c
def Placed.patch (w : Placed) (chgs : List PChange) (pl : Plan) : Placed := { w with calls := w.calls.map fun c => c.patch chgs pl }

/-- The Facets whose program a parameter transaction changes. -/
def State.patched (s : State) (p : Nat) (chgs : List PChange) (pl : Plan) : List Nat :=
  let w := s.workAfter p [0, 1, 2]
  facetsDiffer w (w.patch chgs pl)

/-- R235, R255: the Facets hold the patched calls, none of them has a swap armed, and the words of a call that moves are not those of
the old one. -/
def State.patchLegal (s : State) (p : Nat) (chgs : List PChange) (pl : Plan) : Bool :=
  let own := s.workAfter p [0, 1, 2]
  let t : Site := ⟨Placed.join (((List.range 4).filter (· != p)).map fun q => s.workAfter q [0, 1, 2]), own.patch chgs pl, Placed.none_, Placed.none_⟩
  (s.patched p chgs pl).all (s.facetLegal [] pl t false) && own.calls.all fun c =>
    let d := c.patch chgs pl
    d.at_ == c.at_ || ((d.xAreas.drop 1).all (fun a => c.xAreas.all fun b => !a.meets b) && d.yAreas.all (fun a => c.yAreas.all fun b => !a.meets b) &&
      d.zAreas.all (fun a => c.zAreas.all fun b => !a.meets b) && d.at_.ptr == c.at_.ptr)

/-! ### Admission (R235, R236) -/

/-- What the other partitions' graphs are once their armed epochs are in force, without what is shed (R53). -/
def State.graphsAfter (s : State) (p : Nat) (shed : List (Nat × Nat)) : List Graph :=
  ((List.range 4).filter (· != p)).map fun q =>
    let g := (((s.setter.armed.filter fun a => a.part == q && a.pending).map (·.new)).getLast?).getD (s.setter.part q).graph
    (shed.filter (·.1 == q)).foldl (fun g x => g.shed x.2) g

/-- R235, R250, R255: the verdict on a parameter transaction. -/
def State.admitParam (s : State) (e : Entry) (fq : Fq) (plan : Plan) : Verdict :=
  let p := e.part
  let doms := paramDoms fq.graph fq.chgs
  let early := s.earliest fq plan doms 0 (boundOf fq !(s.patched p fq.chgs plan).isEmpty) (s.notBefore fq Graph.empty ⟨[], fq.graph, 0, doms⟩ ⟨Placed.none_, Placed.none_, Placed.none_, Placed.none_⟩) []
  let bad := match plan.refuse with | some r => !refuseLegal r || r.1 != 0x20 || (s.patched p fq.chgs plan).isEmpty | none => false
  match firstOf [s.domMissing fq, plan.refuse.map fun r => ⟨r.1, noOffset, r.2.1, r.2.2.1, r.2.2.2.1, r.2.2.2.2⟩,
      timeCheck fq.commit doms early 0 (s.line s.hz) s.nowUnits] with
  | some r => if bad then .wait else .refuse fq.tag r
  | none =>
    if s.patchLegal p fq.chgs plan && plan.shed.isEmpty then
      .accept { entry := e, law := .param, fq := fq, plan := { plan with earliest := early }, graph := fq.graph, chg := [], marks := [], sinks := [] }
    else .wait

/-- R234 to R246: the verdict on an epoch transaction that passed the format checks. DESIGN CHOICE (the placement's algorithm is not
documented): whether room can be found is the plan's word, a refusal for want of it included; that what a plan places is legal, and that
it is no dip where it would also stand beside the old renderings, is judged here. -/
def State.admitEpoch (s : State) (e : Entry) (fq : Fq) (plan : Plan) : Verdict :=
  let p := e.part
  let sp := s.setter.part p
  let hz := s.hzAfter fq.doms
  let old := sp.graph
  let h := s.shape p fq plan
  let dip := plan.dip || h.redo != 0
  let t := s.site p plan h.g h.dup
  let pre := h.pre old hz
  let lines := ((t.after dip).lines.filter (·.at_.dram)).length
  let use := s.usage fq.doms (s.facsAfter plan t) ((t.keep.redelay old h.g plan h.dup).add t.new) h.g
  let early := s.earliest fq plan h.doms (if dip then 0 else pre) (boundOf fq ((t.facets dip).any fun f => (s.facet f).released))
    (s.notBefore fq old h t) (dramMoves old h t plan)
  let due := fq.groups || !plan.pads.isEmpty || !plan.hops.isEmpty
  let legal := fun (shed : List (Nat × Nat)) (dip : Bool) => s.planLegal p fq.doms { plan with shed := shed } old h.g h.dup due dip
  match firstOf [s.domMissing fq, padRefusal h.g hz,
      admitGraphs (h.g :: s.graphsAfter p plan.shed) h.g hz s.mbps (fun i => (s.net.port i).tagged) s.lanesUp lines,
      s.freshRefusal old h.g h.dup dip, plan.refuse.map fun r => ⟨r.1, noOffset, r.2.1, r.2.2.1, r.2.2.2.1, r.2.2.2.2⟩,
      quotaBreak s.host.pol.quota s.cap p use, timeCheck fq.commit h.doms early pre (s.line hz) s.nowUnits] with
  | some r => if plan.refuse.any (!refuseLegal ·) then .wait else .refuse fq.tag r
  | none =>
    if legal plan.shed dip && (!dip || h.redo != 0 || !legal plan.shed false) &&
        shedDue s.shedOrder old h.g plan.shed (fun l => legal l dip) then
      .accept { entry := e, law := if dip then .dip else .blend, fq := fq, plan := { plan with earliest := early }, graph := h.g, chg := h.dup
                marks := h.paths old ++ (lineChanges old h.g h.dup).flatMap fun c => h.g.lineChans c.1
                sinks := (sinkChanges old h.g).map fun x => { x with a := hush (s.mayRead p) x.a } }
    else .wait

/-- R233, R234: the verdict on the transaction at the front of intake. -/
def State.judge (s : State) (e : Entry) (plan : Plan) : Verdict :=
  let tag := match e.data with | some f => le f 0x14 4 | none => 0
  if e.data.isNone && !e.fail then .wait
  else if s.setter.armedOf e.part then .refuse tag (Refuse.adm 0x2D 0 0xFFFF 0 0)
  else if e.fail then .refuse 0 (Refuse.at 0x42 noOffset)
  else match e.data with
    | none => .wait
    | some f =>
      match s.notReady with
      | some r => .refuse tag r
      | none =>
        if f.length ≠ le f 8 4 then .refuse tag (Refuse.at 0x43 noOffset)
        else match fqJudge (s.fqEnv e.part) rateHz f with
          | .error r => .refuse tag r
          | .ok fq => if fq.param then s.admitParam e fq plan else s.admitEpoch e fq plan

/-- R233: whether the Setter may start the next transaction: none is being built, no parameter transaction is incomplete. -/
def State.setterFree (s : State) : Bool := s.setter.builds.isEmpty && !s.setter.armed.any fun a => a.law == .param && !a.done

/-- The front entry leaves intake. -/
def State.popIntake (s : State) : State := s.withSetter fun x => { x with intake := x.intake.drop 1 }

/-- R444: HM5 is extended with every user kernel object of a file that is admitted. -/
def State.extendObjs (s : State) (objs : List (List Byte)) : State :=
  objs.foldl (fun s o =>
    let t := s.take 1
    t.2.withBoot fun b => b.extend 5 (sha384 o) s.us (Config.freeNat t.1)) s

/-- R233: the next transaction in intake. -/
def State.txnStart (s : State) (plan : Plan) : State :=
  match s.setter.intake with
  | e :: _ =>
    if e.op ≠ 1 ∨ ¬ s.setterFree then s
    else match s.judge e plan with
      | .wait => s
      | .refuse tag r => (s.popIntake).complete e (refusal e tag (s.setter.part e.part).epoch r)
      | .accept b =>
        let old := (s.setter.part e.part).graph
        let t := (s.popIntake).extendObjs (b.fq.graph.objs.drop (if b.fq.full then 0 else old.objs.length))
        t.withSetter fun x => { x with builds := x.builds ++ [b], seq := x.seq + admCount old b.graph }
  | [] => s

end Sys2Proof.Machine
end

