-- ==== Sys2Proof/Machine/Commit.lean ====
section
/-!
DEFINITION. The Setter's epochs on the whole device (R233 to R257, R301, R308, R408): armed, put in force at their ticks,
completed, and old work removed.
-/

namespace Sys2Proof.Machine

/-! ### Installing and removing work -/

/-- The node and channel that feed input `c` of node `n`. -/
def Graph.feedNode (g : Graph) (id c : Nat) : Option (GNode × Nat) :=
  match g.feed id c with
  | some (src, ch) => (g.node src).map fun n => (n, ch)
  | none => none

/-- The sink port that takes output channel `ch` of node `id` on its own clock (R385). -/
def Graph.ownSink (g : Graph) (id ch : Nat) : Option (Nat × Nat) :=
  (g.edges.filter fun e => e.src == id && e.srcCh ≤ ch && ch < e.srcCh + e.width).findSome? fun e =>
    match g.node e.dst with
    | some n => if n.typ = tSnkPort ∧ n.dom = 0xFF then (nodePort n).map fun p => (p, n.a16 2 + (e.dstCh + (ch - e.srcCh))) else none
    | none => none

/-- The own-clock source that feeds an input of a LINK (R385): a port and its channel, or 64 + a context and its channel. -/
def Graph.ownSource (g : Graph) (id c : Nat) : Option (Nat × Nat) :=
  match g.feedNode id c with
  | some (n, ch) =>
    if n.dom ≠ 0xFF then none
    else if n.typ = tSrcPort then (nodePort n).map fun p => (p, n.a16 2 + ch)
    else if n.typ = tSrcStream then some (64 + n.ctx, ch) else none
  | none => none

/-- R337: the AM824 context and channel that feed input `c` of a node directly. -/
def Graph.vucSource (g : Graph) (id c : Nat) : Option (Nat × Nat) :=
  match g.feedNode id c with
  | some (n, ch) => if n.typ = tSrcStream ∧ n.a8 2 = 2 then some (n.ctx, ch) else none
  | none => none

/-- The two legs' fields of a stream node (R213). -/
def GNode.addrs (n : GNode) : Nat × Nat := (n.a32 8, n.a32 0xC)
def GNode.udps (n : GNode) : Nat × Nat := (n.a16 0x10, n.a16 0x12)

/-- A receive context for a SRC_STREAM node. -/
def rxOf (part hz : Nat) (n : GNode) : RxCtx :=
  { RxCtx.reset with
      part := part, node := n.id, cls := n.cls, sid := n.sids.headD 0, sids := n.sids, dom := domOr3 n.dom, ports := n.a8 3, addr := n.addrs
      udp := n.udps, srcf := (n.a32 0x14, n.a32 0x18), pt := n.a8 6, fmt := n.a8 2, ch := n.nOut, ptime := n.a16 4, hz := hz
      lo := ceilDiv (n.a32 0x1C * hz) 1000000000 }

/-- A transmit context for a SNK_STREAM node with its placement (context, phase, sigma). -/
def txOf (part : Nat) (g : Graph) (n : GNode) (phase sigma : Nat) : TxCtx :=
  { TxCtx.reset with
      part := part, cls := n.cls, dom := n.dom, ports := n.a8 3, addr := n.addrs, udp := n.udps, dscp := n.a8 7, pt := n.a8 6
      ssrc := n.a32 0x14, tsOff := n.a32 0x18, fmt := n.a8 2, ptime := n.a16 4, phase := phase, sigma := sigma
      vucFrom := g.vucSource n.id 0 }

/-- A lane for channel `i` of a LINK node; a synchronous one shows its nominal ratio (R390). -/
def laneOf (part : Nat) (g : Graph) (hz : Nat → Nat) (n : GNode) (i : Nat) : Lane :=
  let oi := g.ownSource n.id i
  let oo := g.ownSink n.id i
  { Lane.reset with
      async := n.a8 0 == 1, cls := n.cls, part := part, inDom := if oi.isSome then 3 else domOr3 n.dom
      outDom := if oo.isSome then 3 else domOr3 n.outDom, inSid := if oi.isSome then 0 else g.inSid n.id i
      outSid := if oo.isSome then 0 else n.sids.getD i 0, ownIn := oi, ownOut := oo
      pad := g.lanePad hz n i, ratio := if n.a8 0 == 1 then 0 else hz n.outDom * 2 ^ 40 / hz n.dom }

/-- R462: arming ungates the groups of the lanes of a graph. -/
def State.ungateLanes (s : State) (g : Graph) : State := g.lanes.foldl (fun s l => s.ungate 2 (l / 64)) s

/-- Arming writes what new nodes need: stream contexts that are not in use, lanes, the ports' DOMAIN (R213, R360, R376). -/
def State.armUnits (s : State) (part : Nat) (b : Build) (hz : Nat → Nat) : State :=
  b.graph.nodes.foldl (fun s n =>
    if n.typ = tSrcStream then
      if (s.net.rxc n.ctx).used then s
      else s.withNet fun x => x.setRx n.ctx (rxOf part (if n.dom < 3 then hz n.dom else 48000) n)
    else if n.typ = tSnkStream then
      if (s.net.txc n.ctx).used then s
      else
        let c := ((b.plan.ctxs.find? (·.1 == n.id)).map (·.2.2)).getD (0, 0)
        s.withNet fun x => x.setTx n.ctx (txOf part b.graph n c.1 c.2)
    else if n.typ = tSrcPort ∨ n.typ = tSnkPort then
      match nodePort n with
      | some p => s.withPorts fun x => x.writeCtl p ((x.port p).ctl.setFld 4 2 (domOr3 n.dom)) true
      | none => s
    else s) s

/-- Whether node `n` starts with domain `k` or, for `k` = 3, an own clock: the side on which it writes, for a lane its input side (R389). -/
def GNode.startsIn (n : GNode) (k : Nat) : Bool := domOr3 (if n.typ = tLink then n.dom else n.outDom) == k

/-- A producer node starts in domain `k` (R244, R248): SIDs that are new begin to be written. `n0` is the tick. -/
def State.startNode (s : State) (part : Nat) (g : Graph) (dup : List Chan) (k : Nat) (n : GNode) : State :=
  let fresh := fun i => dup.contains (n.id, i)
  let chans := (List.range n.nOut).filter fresh
  if chans.isEmpty ∨ ¬ n.startsIn k then s
  else if n.typ = tSrcPort then
    match nodePort n with
    | some p => s.withPorts fun x =>
        let q := x.port p
        x.setPort p { q with inSids := q.inSids ++ chans.map fun i => (n.a16 2 + i, n.sids.getD i 0) }
    | none => s
  else if n.typ = tSrcStream then
    let c := s.net.rxc n.ctx
    let c := if c.sids = n.sids then c else rxOf part (if n.dom < 3 then s.hz n.dom else 48000) n
    s.withNet fun x => x.setRx n.ctx { c with used := true }
  else if n.typ = tLink then
    s.withLinks fun x => chans.foldl (fun x i =>
      let l := laneOf part g s.hz n i
      let l := { l with inSid := hush (s.mayRead part) l.inSid }
      x.setLane (n.lanes.getD i 0) { l with used := true, st := .acquiring, fresh := true }) x
  else if n.typ = tConst then
    s.withSetter fun x => { x with consts := x.consts ++ chans.map fun i => ⟨n.dom, n.sids.getD i 0, BitVec.ofNat 32 (n.a32 0)⟩ }
  else if n.typ = tTapIn then
    s.withHost fun h => h.modPart part fun q =>
      let t := q.tap (n.a16 2)
      q.setTap (n.a16 2) { t with node := some ⟨true, n.a8 0, n.dom, n.sids.map Reader.of⟩ }
  else s

/-- R44: the lanes that start in domain `k` pad for the paths of graph `g`. -/
def State.padLanes (s : State) (g : Graph) (k : Nat) : State :=
  s.withLinks fun x => (g.nodes.filter fun n => n.typ == tLink && n.startsIn k).foldl (fun x n =>
    (List.range n.nOut).foldl (fun x i =>
      let j := n.lanes.getD i 0
      x.setLane j { x.lane j with pad := g.lanePad s.hz n i }) x) x

/-- The new work of a graph starts in domain `k`; sources on an own clock start with the lowest domain. -/
def State.startWork (s : State) (part : Nat) (g : Graph) (dup : List Chan) (k : Nat) (own : Bool) : State :=
  (g.nodes.foldl (fun s n => let s := s.startNode part g dup k n; if own then s.startNode part g dup 3 n else s) s).padLanes g k

/-- What a node of an interface occupies: its kind, and its port, context, tap or number. -/
def GNode.place (n : GNode) : Nat × Nat :=
  (n.typ, if n.typ = tSrcStream ∨ n.typ = tSnkStream then n.ctx else if n.typ = tTapIn ∨ n.typ = tTapOut then n.a16 2 else n.id)

/-- Old work stops: SIDs of `gone` are no longer written, contexts and taps that `g` does not hold are freed. -/
def State.stopWork (s : State) (part : Nat) (old g : Graph) (k : Nat) : State :=
  let keep := g.sids
  let mine := (old.nodes.filter fun n => domOr3 n.outDom == k || (domOr3 n.outDom == 3)).flatMap (·.sids)
  let gone := mine.filter fun i => i != 0 && !keep.contains i
  let dead := old.nodes.filter fun n => (domOr3 n.dom == k || domOr3 n.dom == 3) && g.nodes.all fun m => m.place != n.place
  let lanesKept := g.nodes.flatMap fun n => n.lanes
  let lanesGone := (old.nodes.filter fun n => n.typ == tLink && (domOr3 n.outDom == k || n.dom == k)).flatMap fun n =>
    n.lanes.filter fun l => !lanesKept.contains l
  let s := s.withPorts fun x => (List.range 36).foldl (fun x p =>
    let q := x.port p
    if q.inSids.any (fun i => gone.contains i.2) then x.setPort p { q with inSids := q.inSids.filter fun i => !gone.contains i.2 } else x) x
  let s := s.withLinks fun x => lanesGone.foldl (fun x l => x.setLane l Lane.reset) x
  let s := s.withSetter fun x => { x with consts := x.consts.filter fun c => !(c.dom == k && gone.contains c.sid) }
  dead.foldl (fun s n =>
    if n.typ = tSrcStream then s.withNet fun x => x.setRx n.ctx RxCtx.reset
    else if n.typ = tSnkStream then s.withNet fun x => x.setTx n.ctx TxCtx.reset
    else if n.typ = tTapIn ∨ n.typ = tTapOut then
      s.withHost fun h => h.modPart part fun q => q.setTap (n.a16 2) { (q.tap (n.a16 2)).stop with node := none }
    else if n.typ = tMeter then
      s.withHost fun h => h.modPart part fun q => { q with meters := q.meters.filter (·.node != n.id) }
    else s) s

/-! ### Sinks (R247, R248) -/

/-- How a reader changes over at tick `c`. -/
def Armed.reader (a : Armed) (x : SinkChg) : Reader :=
  let c := a.c.getD x.dom 0
  let f := a.f.getD x.dom 0
  match a.law with
  | .blend => ⟨x.a, x.b, .fade c a.x⟩
  | .dip => ⟨x.a, x.b, .dip c f⟩
  | .remove => ⟨x.a, x.b, .dip c (c + 32)⟩
  | .fadeIn => ⟨0, x.b, .fadeIn f⟩
  | .param => Reader.of x.b

/-- The element `i` of a list of readers becomes `r`; the list grows with silence where it is shorter. -/
def putReader (l : List Reader) (i : Nat) (r : Reader) : List Reader :=
  (if i < l.length then l else l ++ List.replicate (i + 1 - l.length) (Reader.of 0)).set i r

/-- R301: whether the plane-fed outputs of a partition are silent: from the switch to the rescue oscillator until its recommit. -/
def State.muted (s : State) (part : Nat) : Bool := s.clk.rescue || s.clk.recommit.contains part

/-- A sink channel of node `n` reads with `r` from now on; `r.b` is what a METER switches to. -/
def State.setSink (s : State) (part : Nat) (g : Graph) (n : GNode) (ch : Nat) (r : Reader) : State :=
  let r := if s.muted part && n.typ != tMeter then Reader.of 0 else r
  if n.typ = tSnkPort then
    match nodePort n with
    | some p => s.withPorts fun x =>
        let q := x.port p
        let c := n.a16 2 + ch
        x.setPort p { q with outs := q.outs.filter (·.1 != c) ++ [(c, r)]
                             vucFrom := if c = 0 then g.vucSource n.id ch else q.vucFrom }
    | none => s
  else if n.typ = tSnkStream then
    s.withNet fun x =>
      let c := x.txc n.ctx
      x.setTx n.ctx { c with used := true, sids := putReader c.sids ch r }
  else if n.typ = tTapOut then
    s.withHost fun h => h.modPart part fun q =>
      let t := q.tap (n.a16 2)
      let l := match t.node with | some m => m.sids | none => []
      q.setTap (n.a16 2) { t with node := some ⟨false, n.a8 0, n.dom, putReader l ch r⟩ }
  else if n.typ = tMeter then
    s.withHost fun h => h.modPart part fun q =>
      let new : Meter := ⟨n.id, List.replicate n.nIn 0, n.dom, n.a8 0, n.a16 2, n.a32 4, [], [], 0, 0⟩
      let m := ((q.meters.find? fun m => m.node == n.id && m.dom == n.dom && m.kind == n.a8 0 && m.block == n.a16 2 && m.ms == n.a32 4 && m.sids.length == n.nIn).getD new)
      let m := { m with sids := m.sids.set ch r.b }
      { q with meters := q.meters.filter (·.node != n.id) ++ [m] }
  else s

/-- The sink node of a change, in the new graph or, once removed, in the old one. -/
def Armed.sinkNode (a : Armed) (x : SinkChg) : Option (Graph × GNode) :=
  let g := if x.gone then a.old else a.new
  (g.node x.node).map fun n => (g, n)

/-- A sink channel of change `x` reads with `r`. -/
def State.putSink (s : State) (a : Armed) (x : SinkChg) (r : Reader) : State :=
  match a.sinkNode x with
  | some (g, n) => s.setSink a.part g n x.ch r
  | none => s

/-- R247: the reader of a removed sink channel is released. -/
def State.freeSink (s : State) (a : Armed) (x : SinkChg) : State :=
  match a.sinkNode x with
  | none => s
  | some (g, n) =>
    if n.typ = tSnkPort then
      match nodePort n with
      | some p => s.withPorts fun y => y.setPort p { y.port p with outs := (y.port p).outs.filter (·.1 != n.a16 2 + x.ch) }
      | none => s
    else if n.typ = tMeter then s
    else s.setSink a.part g n x.ch (Reader.of 0)

/-- R247, R248: at the commit tick of domain `k` the sinks of the domain begin to change over. -/
def State.turnSinks (s : State) (a : Armed) (k : Nat) : State :=
  (a.sinks.filter (·.dom == k)).foldl (fun s x => s.putSink a x (a.reader x)) s

/-! ### Withdrawn grants (R29) -/

/-- A reader without the SIDs that `ok` does not allow. -/
def Reader.hush (ok : Nat → Bool) (r : Reader) : Reader := { r with a := Machine.hush ok r.a, b := Machine.hush ok r.b }

/-- The changes of a sink without the SIDs that `ok` does not allow. -/
def SinkChg.hush (ok : Nat → Bool) (x : SinkChg) : SinkChg := { x with a := Machine.hush ok x.a, b := Machine.hush ok x.b }

/-- R29: the sinks and lanes of node `n` of partition `p` read silence in place of a SID that `ok` does not allow. -/
def State.hushNode (s : State) (p : Nat) (ok : Nat → Bool) (n : GNode) : State :=
  if n.typ = tSnkPort then
    match nodePort n with
    | some i => s.withPorts fun x =>
        let q := x.port i
        let mine := fun c => decide (n.a16 2 ≤ c) && decide (c < n.a16 2 + n.nIn)
        x.setPort i { q with outs := q.outs.map fun o => if mine o.1 then (o.1, o.2.hush ok) else o }
    | none => s
  else if n.typ = tSnkStream then
    s.withNet fun x =>
      let c := x.txc n.ctx
      if c.part = p then x.setTx n.ctx { c with sids := c.sids.map (Reader.hush ok) } else x
  else if n.typ = tTapOut then
    s.withHost fun h => h.modPart p fun q =>
      let t := q.tap (n.a16 2)
      q.setTap (n.a16 2) { t with node := t.node.map fun m => if m.play then m else { m with sids := m.sids.map (Reader.hush ok) } }
  else if n.typ = tLink then
    s.withLinks fun x => n.lanes.foldl (fun x i =>
      let l := x.lane i
      if l.part = p then x.setLane i { l with inSid := Machine.hush ok l.inSid } else x) x
  else s

/-- R29: the entries of a gather list of `n` entries at Z word `base` that bring one of `bad` (Y word, SID) bring silence. -/
def Facet.hushList (f : Facet) (base n : Nat) (bad : List (Nat × Nat)) : Facet :=
  (List.range n).foldl (fun f i =>
    let w := Memory.get zeroW f.m.z (base + i)
    if base + i < FMem.z.size && bad.contains (w.fld 16 15, w.fld 0 15) then f.write .z (base + i) (w.setFld 0 15 0) else f) f

/-- R29: so do the list in force and that of an armed swap. -/
def Facet.hush (f : Facet) (bad : List (Nat × Nat)) : Facet :=
  let f := f.hushList (f.r.glist.fld 0 14) (f.r.glist.fld 16 13) bad
  if f.swapArm then f.hushList (f.r.glistNext.fld 0 14) (f.r.glistNext.fld 16 13) bad else f

/-- R29: work whose inputs read silence in place of a SID that `ok` does not allow. -/
def Placed.hush (w : Placed) (ok : Nat → Bool) : Placed :=
  { calls := w.calls.map fun c => { c with ins := c.ins.map fun i => i.map (Machine.hush ok) }
    lines := w.lines.map fun l => { l with inSid := l.inSid.map (Machine.hush ok) }
    sinks := w.sinks.map fun k => { k with sids := k.sids.map fun e => (e.1, Machine.hush ok e.2) } }

/-- R29: entry `i` of a tile names SID 0 in place of a SID that `ok` does not allow. -/
def Tile.hush (t : Tile) (ok : Nat → Bool) (i : Nat) : Tile :=
  let e := t.entry i
  if ok (entSid e) then t else t.setEntry i (e &&& BitVec.ofNat 48 (2 ^ 33 - 1))

/-- R29: what partition `p` reads without a grant is silence from now on, until its graph no longer reads it: its sinks, lanes and
meters, its tiles' entries, and the words that its calls and lines gather. -/
def State.silence (s : State) (p : Nat) : State :=
  let ok := s.mayRead p
  let t := ((s.graphsOf p).flatMap (·.nodes)).foldl (fun t n => t.hushNode p ok n) s
  let t := t.withHost fun h => h.modPart p fun q =>
    { q with meters := q.meters.map fun m => { m with sids := m.sids.map (Machine.hush ok) } }
  let w := Placed.join ((s.setter.part p).work :: (s.setter.armed.filter (·.part == p)).map (·.work))
  let t := w.sinks.foldl (fun t k => k.sids.foldl (fun t e => t.setTile k.at_.tile ((t.tile k.at_.tile).hush ok e.1)) t) t
  let t := w.facets.foldl (fun t f => t.modFacet f fun c => c.hush ((w.facet f).gathers.filter fun e => !ok e.2)) t
  t.withSetter fun x =>
    { (x.setPart p { x.part p with work := (x.part p).work.hush ok }) with
        armed := x.armed.map fun a => if a.part = p then { a with sinks := a.sinks.map (SinkChg.hush ok), work := a.work.hush ok } else a
        builds := x.builds.map fun b => if b.entry.part = p then { b with sinks := b.sinks.map (SinkChg.hush ok) } else b }

/-! ### In force (R243, R244) -/

def State.modArmed (s : State) (i : Nat) (a : Armed) : State := s.withSetter fun x => { x with armed := x.armed.set i a }

/-- R463: the idle timer reloads when the last epoch has gone. -/
def State.idleAgain (s : State) : State := if s.held then s else s.withPower fun p => p.reload s.us

/-- R11, R243, R307, R478: the epoch is in force in every domain it uses; domains that it undeclares are declared no longer. -/
def State.epochForce (s : State) (a : Armed) : State :=
  let s := s.withClk fun c => ((List.range 3).filter a.undecl.testBit).foldl (fun c k =>
    c.modDom k fun d => { d with declared := false }) c
  let t := s.withSetter fun x =>
    let sp := x.part a.part
    x.setPart a.part { sp with epoch := a.number, live := a.law != .remove, graph := a.new, tag := a.tag
                               use := if a.law = .remove then [] else sp.use }
  let t := if a.law = .remove then t.idleAgain else t
  if a.law = .fadeIn ∧ !(t.setter.builds.any fun b => b.law == .fadeIn) ∧
      !(t.setter.armed.any fun b => b.law == .fadeIn && b.number != a.number && b.pending) then
    t.withHealth fun h => { h with retired := [] }
  else t

/-- The tick at which units take an epoch's work in domain `k` (R244, R248). -/
def Armed.entersAt (a : Armed) (k : Nat) : Nat := if a.law = .blend then a.p.getD k 0 else a.c.getD k 0 + 32

/-- R250: entries that a parameter transaction removed become inactive. -/
def State.dropEntries (s : State) (was now : Placed) : State :=
  let left := now.sinks.flatMap fun k => k.sids.map fun e => (k.at_.tile, e.1)
  was.sinks.foldl (fun s k => k.sids.foldl (fun s e =>
    if left.contains (k.at_.tile, e.1) || now.sinks.all (fun x => x.at_.tile != k.at_.tile || x.at_.row != k.at_.row) then s
    else s.modTile k.at_.tile fun t => t.setEntry e.1 (entPut (t.entry e.1) 8 false)) s) s

/-- The work of partition `p` becomes `w` at the tick of period `n`: lines begin and end, units without work stop, background code
that a Facet now holds may run (R94, R100). -/
def State.takeWork (s : State) (p : Nat) (w : Placed) (n : Nat) : State :=
  let old := (s.setter.part p).work
  let ids := fun (x : Placed) => x.lines.map (·.at_.id)
  let s := (s.swapLines (old.lines.filter fun l => !(ids w).contains l.at_.id) (w.lines.filter fun l => !(ids old).contains l.at_.id) n).dropEntries old w
  let s := s.withSetter fun x => x.setPart p { x.part p with work := w.settled }
  let all := s.work false
  let s := (facetsDiffer old w).foldl (fun s f =>
    let u := all.facet f
    if u.calls.isEmpty && u.lines.isEmpty then
      (s.modFacet f Facet.unload).withSetter fun x => { x with facs := x.facs.filter (·.facet != f) }
    else s.modFacet f fun c => { c with r := { c.r with ctl := c.r.ctl.setFlag 16 u.background.isSome } }) s
  (tilesDiffer old w).foldl (fun s t => if (all.tile t).sinks.isEmpty then s.modTile t Tile.unload else s) s

/-- R244, R248: armed epoch `a` enters domain `k` with period `n`. -/
def State.enterWork (s : State) (a : Armed) (k n : Nat) : State :=
  let s := if a.law = .blend then s else s.placeLive (a.work.inDom k)
  s.takeWork a.part (a.enter (s.setter.part a.part).work k) n

/-- What an armed epoch does at the tick that opens period `n` of domain `k` (R243, R244, R248). In a domain that restarts the work goes
at c + 32 and comes with its tick 0 (R308). -/
def State.armedTick (s : State) (i : Nat) (a : Armed) (k n : Nat) : State :=
  if !a.doms.testBit k || a.law == .param then s
  else
    let starts := a.law == .blend && !a.begun.testBit k && a.p.getD k 0 ≤ n
    let a0 : Armed := if starts then { a with begun := a.begun ||| 2 ^ k } else a
    let s := if starts then s.startWork a.part a.new a.chg k (k == lowDom a.doms) else s
    let takes := !a0.swaps.testBit k && a0.entersAt k ≤ n
    let s := if !takes then s else if a0.redo.testBit k then s.takeWork a0.part ((s.setter.part a0.part).work.kept a0.new a0.work k) n else s.enterWork a0 k n
    let a1 : Armed := if takes && !a0.redo.testBit k then { a0 with swaps := a0.swaps ||| 2 ^ k } else a0
    let turns := !a1.force.testBit k && a1.c.getD k 0 ≤ n
    let a2 : Armed := if turns then { a1 with force := a1.force ||| 2 ^ k } else a1
    let s := if turns then s.turnSinks a2 k else s
    let s := s.modArmed i a2
    if turns && a2.force == a2.doms then s.epochForce a2 else s

/-- R243, R244: every armed epoch at a tick of domain `k`. -/
def State.commitTick (s : State) (k n : Nat) : State :=
  (List.range s.setter.armed.length).foldl (fun s i =>
    match s.setter.armed[i]? with
    | some a => s.armedTick i a k n
    | none => s) s

/-- Whether the sinks of an epoch wait for a fade-in tick (R248). -/
def State.fading (s : State) (a : Armed) : Bool :=
  (a.law == .dip || a.law == .fadeIn) && (List.range 3).any fun k => a.doms.testBit k && decide (s.period k < a.f.getD k 0)

/-- An armed epoch with nothing left to do leaves the list. -/
def State.pruneArmed (s : State) : State :=
  s.withSetter fun x => { x with armed := x.armed.filter fun a =>
    !(a.done && (a.law == .param || (a.gone == a.doms && !s.fading a))) }

/-! ### Arming (R241, R250 to R255) -/

/-- Domains of a mask. -/
def domList (m : Nat) : List Nat := (List.range 3).filter m.testBit

/-- The work of partition `p` that runs or that armed epochs are to bring. -/
def State.allWork (s : State) (p : Nat) : Placed :=
  Placed.join ((s.setter.part p).work :: ((s.setter.armed.filter (·.part == p)).map fun a =>
    (domList (a.doms - (a.doms &&& a.swaps))).foldl (fun w k => w.add (a.work.inDom k)) Placed.none_))

/-- A change of every record of a call of partition `p`. -/
def State.modCalls (s : State) (p : Nat) (f : Call → Call) : State :=
  let g := fun (w : Placed) => { w with calls := w.calls.map f }
  s.withSetter fun x =>
    { (x.setPart p { x.part p with work := g (x.part p).work }) with
        armed := x.armed.map fun a => if a.part = p then { a with work := g a.work } else a }

/-- The calls of node `id` of partition `p`, one for each parameter block (R170). -/
def State.blocksOf (s : State) (p id : Nat) : List Call :=
  ((s.allWork p).calls.filter (·.at_.node == id)).foldl (fun l c =>
    if l.any fun d => d.at_.facet == c.at_.facet && d.at_.ptr == c.at_.ptr then l else l ++ [c]) []

/-- R251: arm a write of one X word. -/
def State.armX (s : State) (f tick a : Nat) (v : Word) : State :=
  s.modFacet f fun c => { c with tickWrites := c.tickWrites ++ [⟨tick, a, v⟩] }

/-- R251: whether every Facet with a block of the node can take the pointer writes of its blocks: none holds more than 16. -/
def State.flipRoom (s : State) (part node : Nat) : Bool :=
  let bs := s.blocksOf part node
  bs.all fun b => (s.facet b.at_.facet).tickWrites.length + (bs.filter fun d => d.at_.facet == b.at_.facet).length ≤ 16

/-- The copy of a block that is not in force. -/
def Call.idle (c : Call) : Nat := if c.at_.cur then c.at_.copy0 else c.at_.copy1

/-- R250, R252: parameter words of a node: the idle copy of each of its blocks is written in full and its pointer armed for tick
`t`. Both renderings hold blocks of the node (R254). -/
def State.flipBlocks (s : State) (part node t : Nat) (ws : List Word) : State :=
  let s := (s.blocksOf part node).foldl (fun s c =>
    (s.modFacet c.at_.facet fun f => f.putRun .x c.idle (c.block ws)).armX c.at_.facet t c.at_.ptr (BitVec.ofNat 32 c.idle)) s
  s.modCalls part fun c => if c.at_.node = node then { c with at_ := { c.at_ with cur := !c.at_.cur } } else c

/-- A gain change goes to its tile's update queue, or waits for a free slot there: the Setter reads FIL_UPDQ.FREE first (R193). -/
def State.pushOrWait (s : State) (g : GainWait) : State :=
  let tl := s.tile g.tile
  if 4096 ≤ tl.queue.length && tl.queue.all (fun q => q.entry != g.entry) then s.withSetter fun x => { x with gains := x.gains ++ [g] }
  else
    let k := tl.domain
    let w := g.word
    let a : Word := BitVec.ofNat 32 (2 ^ 31 + (if w.flag 31 then 2 ^ 30 else 0) + g.entry)
    let b : Word := if w.flag 30 then 0 else BitVec.ofNat 32 ((if w.flag 24 then 2 ^ 31 else 0) + w.fld 0 24)
    let tl := { tl with r := { tl.r with updA := a, updB := b, updC := BitVec.ofNat 32 g.tmo } }
    s.setTile g.tile (tl.push (s.readSid? k) (s.period k + 1) (s.dom k).next (BitVec.ofNat 32 g.tick))

/-- The pushes that wait are tried again, in order. -/
def State.drainGains (s : State) : State :=
  if s.setter.gains.isEmpty then s
  else s.setter.gains.foldl State.pushOrWait (s.withSetter fun x => { x with gains := [] })

/-- R250, R254: a gain change is pushed to every entry of the crosspoint. -/
def State.pushGain (s : State) (part node inp out t : Nat) (w : Word) (timeout : Nat) : State :=
  (((s.allWork part).sinks.filter fun k => k.at_.node == node && k.at_.out == out).flatMap fun k =>
    (k.at_.ents.filter (·.2 == inp)).map fun e => (⟨k.at_.tile, e.1, t, w, timeout⟩ : GainWait)).eraseDups.foldl State.pushOrWait s

/-- The tick of a pointer write of the node's blocks that is still to come (R251). -/
def State.flipPending (s : State) (part node : Nat) : Option Nat :=
  (s.blocksOf part node).findSome? fun c => ((s.facet c.at_.facet).tickWrites.find? (·.addr == c.at_.ptr)).map (·.tick)

/-- The copies of a node's blocks that its pending pointer write brings are written again. -/
def State.rewriteBlocks (s : State) (part node : Nat) (ws : List Word) : State :=
  (s.blocksOf part node).foldl (fun s c =>
    s.modFacet c.at_.facet fun f => f.putRun .x (if c.at_.cur then c.at_.copy1 else c.at_.copy0) (c.block ws)) s

/-- The words of node `n` at tick `t` of a smoothing. -/
def Smooth.block (q : Smooth) (n : GNode) (t : Nat) : List Word :=
  (List.range n.words.length).map fun j => q.value j t (n.words.getD j 0)

/-- R253: the next step of `q` is armed for its tick; what is left of `q` stays. -/
def State.stepSmooth (s : State) (q : Smooth) (n : GNode) : State :=
  match q.next with
  | none => s
  | some t =>
    let q := { q with last := some t }
    (s.flipBlocks q.part q.node t (q.block n t)).withSetter fun x =>
      { x with smooth := x.smooth ++ if q.next.isSome then [q] else [] }

/-- R253: a SET of words of node `n` from apply tick `t` on: the steps of the same words that are not armed go; the new ones
start from the values that the last armed step leaves. Words that a library kernel defines as counts are not stepped. -/
def Smooth.set (q : Smooth) (n : GNode) (t : Nat) (ws : List (Nat × Word × Word × Nat)) : Smooth :=
  let now := fun (j : Nat) (w : Word) => match q.last with
    | some l => q.value j l w
    | none => ((q.words.find? (·.idx == j)).map (·.old)).getD w
  { q with words := (q.words.filter fun x => ws.all fun w => w.1 != x.idx) ++
      ws.map fun w => ⟨w.1, now w.1 w.2.1, w.2.2.1, t, if n.a32 0 = 0x80000001 ∧ w.1 = 0 then 0 else w.2.2.2⟩ }

/-- R250, R253: the SETs of the words of node `n`. While a pointer write of the node is pending its blocks take no other one:
one for the same tick brings the new words with it, one for an earlier tick lands first. -/
def State.setWords (s : State) (part : Nat) (n : GNode) (t : Nat) (ws : List (Nat × Word × Word × Nat)) : State :=
  let old := s.setter.smooth.find? fun q => q.part == part && q.node == n.id
  let q := (old.getD ⟨part, n.id, [], none⟩).set n t ws
  let s := s.withSetter fun x => { x with smooth := x.smooth.filter fun q => !(q.part == part && q.node == n.id) }
  let keep := fun (s : State) (q : Smooth) => s.withSetter fun x => { x with smooth := x.smooth ++ if q.next.isSome then [q] else [] }
  match s.flipPending part n.id with
  | none => if s.flipRoom part n.id then s.stepSmooth q n else keep s q
  | some u => if u = t then keep (s.rewriteBlocks part n.id (q.block n t)) { q with last := some t } else keep s q

/-- R255: program patches for apply ticks `c`: the patched calls' added state words are 0, the Facets' shadow banks hold the new program,
with the swap armed. -/
def State.patchCalls (s : State) (part : Nat) (chgs : List PChange) (pl : Plan) (c : List Nat) : State :=
  let fs := s.patched part chgs pl
  let olds := ((s.allWork part).calls).filter fun x => x.patch chgs pl != x
  let s := olds.foldl (fun s o =>
    let n := o.patch chgs pl
    let kept := fun (l : List Area) (a : Area) => (l.filter fun b => b.at_ == a.at_).foldl (fun m b => max m b.len) 0
    let tail := fun (was : List Area) (l : List Area) => l.map fun a => (⟨a.tag, a.at_ + min a.len (kept was a), a.len - kept was a⟩ : Area)
    s.modFacet o.at_.facet fun f => (f.zero .y (tail o.yAreas n.yAreas)).zero .z (tail o.zAreas n.zAreas)) s
  let s := s.modCalls part fun x => x.patch chgs pl
  fs.foldl (fun s f =>
    let k := (s.facet f).domain
    s.loadFacet f k (c.getD k 0) false) s

/-- R250, R253: the changes of a parameter transaction are armed. -/
def State.armParam (s : State) (part : Nat) (g : Graph) (chgs : List PChange) (c : List Nat) : State :=
  let nodes := (chgs.filterMap fun x => match x with | .word n _ _ _ _ => some n | .gain .. => none).eraseDups
  let s := nodes.foldl (fun s id =>
    match g.node id with
    | none => s
    | some n => s.setWords part n (c.getD n.dom 0) (chgs.filterMap fun x => match x with
        | .word m i a b sm => if m = id then some (i, a, b, sm) else none
        | .gain .. => none)) s
  chgs.foldl (fun s x => match x with
    | .gain n i o w t => match g.node n with
      | some m => s.pushGain part n i o (c.getD m.dom 0) w (if t = 0 then m.a16 2 else t)
      | none => s
    | .word .. => s) s

/-- A smoothing of the partition whose next step may be armed. -/
def State.smoothReady (s : State) (part : Nat) (q : Smooth) : Bool :=
  q.part == part && (s.flipPending q.part q.node).isNone && s.flipRoom q.part q.node

/-- R253: the next step of smoothing: the node's words at that step, armed for its tick. -/
def State.smoothStep (s : State) (part : Nat) : State :=
  match s.setter.smooth.find? (s.smoothReady part) with
  | none => s
  | some q =>
    let s := s.withSetter fun x => { x with smooth := x.smooth.filter (· != q) }
    match (s.setter.part part).graph.node q.node with
    | none => s
    | some n => s.stepSmooth q n

/-- R58, R61: the report of a shed admission of graph `g`; its detail is 4 × the admission number + the class. -/
def shedReport (g : Graph) (p adm : Nat) : Nat × Nat × Nat :=
  (0xA01, p, 8 * (4 * adm + ((g.admissions.find? (·.1 == adm)).map (·.2)).getD 3) + 3)

/-- R244, R248: the work of partition `p` in domain `k` is `w` from now on; the units that lose some swap at the domain's next tick. -/
def State.dropWork (s : State) (p k : Nat) (w : Placed) : State :=
  let old := (s.setter.part p).work
  let s := (s.swapLines (old.lines.filter fun l => w.lines.all fun m => m.at_.id != l.at_.id) [] 0).withSetter fun x => x.setPart p { x.part p with work := w }
  s.loadUnits (facetsDiffer old w) (tilesDiffer old w) k (s.period k + 1) false

/-- R61: admissions that the plan sheds leave at once; their owners learn it. An epoch under way of theirs goes on without them. -/
def State.shedNow (s : State) (shed : List (Nat × Nat)) : State :=
  shed.foldl (fun s x =>
    let sp := s.setter.part x.1
    let g := sp.graph.shed x.2
    let ids := s.shedNodes x.1 [x]
    let a := Armed.base x.1 .remove sp.graph g
    let s := (sinkChanges sp.graph g).foldl (fun s c => s.freeSink a c) s
    let s := (List.range 3).foldl (fun s k => s.stopWork x.1 sp.graph g k) s
    let s := s.withSetter fun y =>
      { (y.setPart x.1 { sp with graph := g }) with
          armed := y.armed.map fun b => if b.part = x.1 then
            { b with old := b.old.shed x.2, new := b.new.shed x.2, work := b.work.without ids, sinks := b.sinks.filter fun c => !ids.contains c.node } else b }
    let s := (List.range 3).foldl (fun s k => s.dropWork x.1 k ((s.setter.part x.1).work.pick fun d n => d != k || !ids.contains n)) s
    s.withHost fun h => { h with rep := h.rep ++ [shedReport sp.graph x.1 x.2] }) s

/-- R32, R305, R311, R339: domain `k` starts with rate code and tolerance `x`; its tick 0 falls at PTP instant `t`. No sample of an earlier run
is valid. -/
def State.startAt (s : State) (k : Nat) (x : Nat × Nat) (t : Nat) : State :=
  let s := { s with plane := Memory.clearRun (Memory.clearRun s.plane (planeKey k 0 0) planeSize) (planeKey k 1 0) planeSize }
  let s := s.withClk fun c => (c.startDom k x.1 x.2).modDom k fun q => { q with lastNs := t, t0 := t }
  if s.clk.source = 4 then
    s.withNet fun n => { n with od := Memory.set (fun _ => 0) n.od k ((t * rateHz x.1 + 500000000) / 1000000000 % 2 ^ 32) }
  else s

/-- R208, R305 to R308: domains that the transaction declares start; `ns` gives the instants of their tick 0. -/
def State.startDoms (s : State) (ds : List (Nat × Option (Nat × Nat))) (ns : List Nat) : State :=
  ds.foldl (fun s d => match d.2 with
    | some x => if (s.dom d.1).run then s else s.startAt d.1 x (ns.getD d.1 s.ns)
    | none => s) s

/-- R241 to R249: the delay lines that stay take their new delays from commit ticks `c` on. -/
def State.moveLines (s : State) (part : Nat) (b : Build) (c : List Nat) : State :=
  (lineChanges (s.setter.part part).graph b.graph b.chg).foldl (fun s x =>
    match (s.setter.part part).work.line b.graph x.1 with
    | none => s
    | some l =>
      let geo := b.plan.geo.find? fun q => (q.node, q.kind, q.chan) == x.1
      let s := s.moveLine l x.2 (c.getD l.dom 0) b.fq.commit.xfade (b.law == .dip) geo
      s.withSetter fun y =>
        let sp := y.part part
        let w := { sp.work with lines := sp.work.lines.map fun m => if m.at_.id = l.at_.id then { m with d := x.2 } else m }
        y.setPart part { sp with work := w }) s

/-- R244, R248: what armed epoch `a` brings to units in domain `k`, or takes from them, is written and armed. -/
def State.loadArmed (s : State) (a : Armed) (k : Nat) : State :=
  let w := (s.setter.part a.part).work
  let n := a.enter w k
  s.loadUnits (facetsDiffer w n) (tilesDiffer w n) k (a.entersAt k) true

/-- R242, R306: the ticks of an epoch: a domain that the transaction starts changes nothing before its tick 1,024. -/
def notEarly (running : Nat → Bool) (l : List Nat) : List Nat := (List.range 3).map fun k => if running k then l.getD k 0 else max (l.getD k 0) 1024

/-- R236, R249: whether a delay of the build changes with a dip, and whether one changes without. -/
def Build.lineDips (b : Build) (old : Graph) (w : Placed) : Bool × Bool :=
  let cs := (lineChanges old b.graph b.chg).map fun c =>
    b.law == .dip || b.plan.geo.any (fun q => (q.node, q.kind, q.chan) == c.1) || (w.line b.graph c.1).any (·.at_.dram)
  (cs.any id, cs.any (!·))

/-- The armed epoch of a build, with the domains' timelines `ln`. -/
def State.epochOf (s : State) (b : Build) (running : Nat → Bool) (ln : Nat → Line) : Armed :=
  let part := b.entry.part
  let sp := s.setter.part part
  let hz := s.hzAfter b.fq.doms
  let param := b.law == .param
  let doms := if param then paramDoms b.graph b.fq.chgs else b.graph.domains ||| sp.graph.domains
  let redo := b.fq.doms.foldl (fun m d => match d.2 with
    | some x => if running d.1 && (x.1 != (s.dom d.1).rate || x.2 != (s.dom d.1).tol) then m ||| 2 ^ d.1 else m
    | none => m) 0
  let pre := if param then 0 else (⟨b.chg, b.graph, redo, doms⟩ : Shape).pre sp.graph hz
  let anchor := anchorAt b.fq.commit doms b.plan.earliest ln
  let c := notEarly running (commitTicks anchor ln)
  let dips := if param then (false, false) else b.lineDips sp.graph sp.work
  { part := part, from_ := if b.entry.op = 0 then none else some b.entry, tag := b.fq.tag
    number := if param then sp.epoch else sp.epoch + 1, law := b.law, old := sp.graph, new := b.graph, sinks := b.sinks
    x := b.fq.commit.xfade, pre := pre, anchor := anchorDom b.fq.commit doms, doms := doms, p := notEarly running (preTicks anchor pre ln), c := c
    f := fadeTicks c pre ln, begun := 0, force := 0, gone := 0, done := false, chg := b.chg, marks := b.marks
    dip := dips.1, shed := !b.plan.shed.isEmpty, geo := b.plan.geo, redo := redo
    undecl := b.fq.doms.foldl (fun m d => if d.2.isNone then m ||| 2 ^ d.1 else m) 0
    tap := dips.2, work := if param then Placed.none_ else planWork part b.graph b.chg b.plan, swaps := 0, use0 := sp.use
    cuts := if param then [] else sp.gone }

/-- R401: the use of a build's partition once it is in force. -/
def State.buildUse (s : State) (b : Build) (a : Armed) : Memory (Nat × Nat) :=
  let w := a.enterAll (s.setter.part a.part).work [0, 1, 2]
  let keep := [0, 1, 2].foldl (fun w k => w.kept a.new a.work k) w
  (s.usage b.fq.doms s.setter.facs keep b.graph).foldl (fun m u => Memory.set (fun _ => (0, 0)) m u.1 u.2) []

/-- R240, R255: no unit that the first build writes has a swap armed. -/
def State.mayArm (s : State) : Bool :=
  match s.setter.builds with
  | [] => false
  | b :: _ =>
    let w := planWork b.entry.part b.graph b.chg b.plan
    let fs := w.facets ++ s.patched b.entry.part b.fq.chgs b.plan
    fs.all (fun f => !(s.facet f).swapArm) && w.tiles.all fun t => !(s.tile t).r.ctl.flag 12

/-- R241 to R255: the first build of the Setter's list is armed. -/
def State.arm (s : State) (ns : List Nat) : State :=
  match s.setter.builds with
  | [] => s
  | b :: rest =>
    let part := b.entry.part
    let running := fun k => (s.dom k).run
    let hz := s.hzAfter b.fq.doms
    let s := (s.withSetter fun x => { x with builds := rest }).startDoms b.fq.doms ns
    let a := s.epochOf b running (s.line hz)
    let s := s.shedNow (b.plan.shed.filter (·.1 != part))
    let s := s.withHost fun h => { h with rep := h.rep ++ (b.plan.shed.filter (·.1 == part)).map fun x => shedReport a.old part x.2 }
    let s := s.withClk fun y => b.fq.doms.foldl (fun y d => match d.2 with
      | some x => if running d.1 then y.modDom d.1 fun q => { q with declared := true, restart := some x } else y
      | none => y) y
    if b.law = .param then
      let s := (s.patchCalls part b.fq.chgs b.plan a.c).armParam part b.graph b.fq.chgs a.c
      s.withSetter fun y =>
        let q := y.part part
        { (y.setPart part { q with graph := b.graph, gone := q.gone ++ b.fq.chgs.filterMap fun x => match x with
            | .gain n i o w _ => if w.flag 30 then some (n, i, o) else none
            | .word .. => none }) with armed := y.armed ++ [a] }
    else
      let s := (((s.armUnits part b hz).ungateLanes b.graph).moveLines part b a.c).placeIdle b.graph a.work
      let s := if a.law = .blend then s.placeLive a.work else s
      let use := s.buildUse b a
      let s := s.withSetter fun y =>
        { (y.setPart part { y.part part with use := use, gone := [] }) with
            armed := y.armed ++ [a], drams := y.drams + (a.work.lines.filter (·.at_.dram)).length
            facs := y.facs ++ b.plan.facs.filter fun p => a.work.facets.contains p.facet && y.facs.all (·.facet != p.facet) }
      let s := (domList (a.doms - (a.doms &&& a.redo))).foldl (fun s k => s.loadArmed a k) s
      if a.doms = 0 then s.epochForce a else s

/-! ### Removal, dips, completion -/

/-- Apply `f` to the first armed epoch of a partition that meets `ok`. -/
def State.onArmed (s : State) (p : Nat) (ok : Armed → Bool) (f : State → Armed → State × Armed) : State :=
  match s.setter.armed.findIdx? fun a => a.part == p && a.law != .param && ok a with
  | none => s
  | some i =>
    match s.setter.armed[i]? with
    | none => s
    | some a => let r := f s a; (r.1.modArmed i r.2).pruneArmed

/-- Readers that have ended their change-over read their new SID alone; a removed channel's reader goes. -/
def State.collapse (s : State) (a : Armed) (k : Nat) : State :=
  (a.sinks.filter (·.dom == k)).foldl (fun s x => if x.gone then s.freeSink a x else s.putSink a x (Reader.of x.b)) s

/-- The domains of the first armed epoch of a partition in which `ready` holds. -/
def State.eachReady (s : State) (p : Nat) (ready : State → Armed → Nat → Bool) (f : State → Armed → Nat → State × Armed) : State :=
  s.onArmed p (fun a => (domList a.doms).any (ready s a)) fun s a =>
    (domList a.doms).foldl (fun r k => if ready r.1 r.2 k then f r.1 r.2 k else r) (s, a)

/-- R244: after the release tick the old renderings go. -/
def State.removalReady (s : State) (a : Armed) (k : Nat) : Bool :=
  a.law == .blend && a.force.testBit k && a.swaps.testBit k && !a.gone.testBit k && decide (a.c.getD k 0 + a.x ≤ s.period k)
def State.removalSwap (s : State) (p : Nat) : State :=
  s.eachReady p State.removalReady fun s a k =>
    let s := (s.collapse a k).stopWork p a.old a.new k
    (s.dropWork p k ((s.setter.part p).work.kept a.new a.work k), { a with gone := a.gone ||| 2 ^ k })

/-- R248, R256, R408: from tick c + 32 of a dip on, interfaces leave the old work and take the new one. -/
def State.dipReady (s : State) (a : Armed) (k : Nat) : Bool :=
  a.law != .blend && a.force.testBit k && !a.gone.testBit k && decide (a.c.getD k 0 + 32 ≤ s.period k)
def State.dipSwap (s : State) (p : Nat) : State :=
  s.eachReady p State.dipReady fun s a k =>
    ((s.stopWork p a.old a.new k).startWork p a.new a.chg k (k == lowDom a.doms),
     { a with gone := a.gone ||| 2 ^ k, begun := a.begun ||| 2 ^ k })

/-- R248: from the fade-in tick the dipped sinks fade in to the new rendering. -/
def State.fadeInStart (s : State) (p : Nat) : State :=
  match s.setter.armed.find? fun a => a.part == p && (a.law == .dip || a.law == .fadeIn) &&
      (domList a.doms).any fun k => a.f.getD k 0 ≤ s.period k with
  | none => s
  | some a =>
    ((a.sinks.filter fun x => a.doms.testBit x.dom && decide (a.f.getD x.dom 0 ≤ s.period x.dom)).foldl (fun s x =>
      if x.gone then s.freeSink a x else s.putSink a x ⟨0, x.b, .fadeIn (a.f.getD x.dom 0)⟩) s).pruneArmed

/-- The line that stays at the place of `q`, and whether the new geometry is due. -/
def State.geoLine (s : State) (p : Nat) (q : LinePlace) : Option LineRec := (s.setter.part p).work.lines.find? (·.at_.id == q.id)
def State.geoDue (s : State) (p : Nat) (a : Armed) (q : LinePlace) : Bool :=
  (s.geoLine p q).any fun l => a.force.testBit l.dom && decide (a.c.getD l.dom 0 + 32 ≤ s.period l.dom)

/-- R147: the first geometry swap of the partition whose tick c + 32 has come; the words that it leaves are free. -/
def State.geometrySwap (s : State) (p : Nat) : State :=
  s.onArmed p (fun a => a.geo.any (s.geoDue p a)) fun s a =>
    match a.geo.find? (s.geoDue p a) with
    | none => (s, a)
    | some q =>
      ((match s.geoLine p q with | some l => s.installLine p l q (s.period l.dom) | none => s), { a with geo := a.geo.filter (· != q) })

/-- R229 to R232, R418: the latency report of an epoch, and its offset and length. -/
def State.writeReport (s : State) (a : Armed) : State × Nat × Nat :=
  let q := s.host.part a.part
  let room := q.rptLen.toNat / 2
  let off := if a.number % 2 = 0 then 0 else room
  let hz := s.hz
  let runs := groupRuns [] (a.new.paths hz fun c => a.marks.contains c)
  match reportBytes a.part a.number a.anchor (a.c.getD a.anchor 0) room runs with
  | some bs => (s.hostPut fun h => h.put a.part q.rptLo q.rptHi off bs, off, bs.length)
  | none => (s, 0, 0)

/-- R229, R412: while the partition's Bus Master Enable is 0 the report of an epoch waits, and its completion, which names it, with it. -/
def State.reportWaits (s : State) (a : Armed) : Bool :=
  let q := s.host.part a.part
  a.law != .param && a.law != .remove && 32 ≤ q.rptLen.toNat / 2 && !s.host.reach a.part q.rptLo

/-- Whether an armed change has taken effect in every domain: at the commit ticks, or the apply ticks of a parameter
transaction. -/
def State.inForce (s : State) (a : Armed) : Bool :=
  if a.law = .param then (domList a.doms).all fun k => decide (a.c.getD k 0 ≤ s.period k) else a.force == a.doms

/-- R243, R250, R257: the completion entry and the latency report. -/
def State.epochCompletion (s : State) (p : Nat) : State :=
  match s.setter.armed.findIdx? fun a => a.part == p && !a.done && s.inForce a && !s.reportWaits a with
  | none => s
  | some i =>
    match s.setter.armed[i]? with
    | none => s
    | some a =>
      let r : State × Nat × Nat := if a.law = .param ∨ a.law = .remove then (s, 0, 0) else s.writeReport a
      let e := a.from_.getD (Entry.none_ p (s.host.part p).session)
      let c : Compl :=
        { complOf e 0 with
            c2shed := a.shed, report := r.2.2 != 0, outcome := a.outcome, tag := if a.law = .remove then 0 else a.tag
            epoch := if a.law = .remove then 0 else a.number, applied := a.c.getD a.anchor 0, anchor := a.anchor, domains := a.doms
            cticks := (List.range 3).map fun k => if a.doms.testBit k then a.c.getD k 0 % 2 ^ 32 else 0
            rptOff := r.2.1, rptLen := r.2.2 }
      let s := if a.law = .remove && a.from_.isNone then r.1 else r.1.complete e c
      (s.modArmed i { a with done := true }).pruneArmed

/-! ### Removal of a graph, re-placement, restart -/

/-- The Setter's epoch work that no file asked for: a law over the whole graph of a partition, from the next ticks on. -/
def State.selfArm (s : State) (p : Nat) (e : Entry) (law : Law) (new : Graph) (number : Nat) (sinks : List SinkChg) : State :=
  let sp := s.setter.part p
  let doms := sp.graph.domains ||| new.domains
  let ln := s.line s.hz
  let early := s.nowUnits + (ln (lowDom doms)).per + timeUnit / 10000
  let anchor := (ln (lowDom doms)).at ((ln (lowDom doms)).first early)
  let pre := preTime new s.hz (if law = .fadeIn then new.chans else []) false doms
  let c := commitTicks anchor ln
  let a := { Armed.base p law sp.graph new with
      from_ := if e.op = 0 then none else some e, number := number, sinks := sinks, pre := pre, anchor := lowDom doms, doms := doms, p := c, c := c
      f := fadeTicks c pre ln, use0 := sp.use }
  let s := s.withSetter fun x => { x with armed := x.armed ++ [a] }
  (domList doms).foldl (fun s k => s.loadArmed a k) s

/-- Every sink channel of a graph with its SID, as changes of a node of the old graph (`gone`) or the new one. -/
def Graph.allSinks (g : Graph) (gone : Bool) : List SinkChg :=
  g.sinkChans.map fun c => let i := g.inSid c.1 c.2.1; ⟨c.1, c.2.1, c.2.2, if gone then i else 0, if gone then 0 else i, gone⟩

/-- R408: the whole graph of partition `p` is removed with a fade-out, for command `e`. With no graph to remove the epoch is
0 at once. -/
def State.removeGraph (s : State) (p : Nat) (e : Entry) : State :=
  let sp := s.setter.part p
  if sp.graph.domains = 0 then
    let s := (s.withSetter fun x => x.setPart p SetPart.reset).idleAgain
    if e.op = 0 then s else s.complete e { complOf e 0 with outcome := 2 }
  else s.selfArm p e .remove Graph.empty 0 (sp.graph.allSinks true)

/-- R301: after the Rescue condition a new epoch with the same placement, its sinks fading in. -/
def State.recommit (s : State) (p : Nat) : State :=
  let sp := s.setter.part p
  if !sp.live then s
  else s.selfArm p (Entry.none_ p (s.host.part p).session) .fadeIn sp.graph (sp.epoch + 1) ((sp.graph.allSinks false).map (SinkChg.hush (s.mayRead p)))

/-- R237, R256: delays of lines that stay are as they were before armed epoch `a`. -/
def State.undoLines (s : State) (a : Armed) : State :=
  (lineChanges a.old a.new a.chg).foldl (fun s x =>
    match (s.setter.part a.part).work.line a.new x.1, a.old.lines.find? (·.1 == x.1) with
    | some l, some o =>
      let s := (s.modLine l.at_.facet l.at_.id fun y =>
        { y with g := { y.g with d := o.2 }, move := none, dip := none, next := none }).withDram fun m =>
          { m with lines := (m.lines.filter fun y => l.at_.dram || y.id != l.at_.id).map fun y => if y.id = l.at_.id then { y with next := none } else y }
      s.withSetter fun y =>
        let sp := y.part a.part
        let w := { sp.work with lines := sp.work.lines.map fun m => if m.at_.id = l.at_.id then { m with d := o.2 } else m }
        y.setPart a.part { sp with work := w }
    | _, _ => s) s

/-- A unit whose only swap was that of work which does not come: it is not armed, and stops where it holds no work. -/
def State.unarm (s : State) (w : Placed) : State :=
  let all := s.work false
  let s := w.facets.foldl (fun s f =>
    let u := all.facet f
    s.modFacet f fun c => if u.calls.isEmpty && u.lines.isEmpty then c.unload else { c with r := { c.r with ctl := c.r.ctl.setFlag 12 false } }) s
  w.tiles.foldl (fun s n =>
    s.modTile n fun c => if (all.tile n).sinks.isEmpty then c.unload else { c with r := { c.r with ctl := c.r.ctl.setFlag 12 false } }) s

/-- R237, R256: what the arming and the ticks since have done for an epoch, which is no longer in the list, is undone; a domain that it
started keeps running (R306). -/
def State.undo (s : State) (a : Armed) : State :=
  let s := a.sinks.foldl (fun s x => if !a.force.testBit x.dom then s else
    if x.gone then s.putSink a x (Reader.of x.a) else
      match a.old.node x.node with
      | some n => s.setSink a.part a.old n x.ch (Reader.of x.a)
      | none => s.freeSink a x) s
  let s := (List.range 3).foldl (fun s k => s.stopWork a.part a.new a.old k) s
  let s := s.withClk fun c => ((List.range 3).filter a.redo.testBit).foldl (fun c k => c.modDom k fun d => { d with restart := none }) c
  let s := (s.undoLines a).withSetter fun x =>
    let q := x.part a.part
    x.setPart a.part { q with use := a.use0, gone := a.cuts ++ q.gone }
  (domList a.doms).foldl (fun s k =>
    let w := (s.setter.part a.part).work
    if a.swaps.testBit k then s.dropWork a.part k (w.kept a.old Placed.none_ k)
    else
      let n := a.enter w k
      let differ : Placed := (w.pick fun d _ => d == k).add (n.pick fun d _ => d == k)
      s.unarm ⟨differ.calls.filter fun c => (facetsDiffer w n).contains c.at_.facet, differ.lines.filter fun c => (facetsDiffer w n).contains c.at_.facet,
        differ.sinks.filter fun c => (tilesDiffer w n).contains c.at_.tile⟩) s

/-- R256, R463: an armed epoch of the partition is disarmed and its transaction refused with SUPERSEDED; a removal goes on. -/
def State.disarm (s : State) (p : Nat) : State :=
  match s.setter.armed.find? fun a => a.part == p && a.pending && a.law != .remove with
  | none => s
  | some a =>
    let s := ((s.withSetter fun x => { x with armed := x.armed.filter (· != a) }).undo a).idleAgain
    match a.from_ with
    | some e => s.complete e (refusal e a.tag (s.setter.part p).epoch (Refuse.adm 0x2E 0 0xFFFF 0 0))
    | none => s

/-! ### Re-placement after a retirement (R256) -/

/-- R56, R59, R256, R379: whether a unit, by block class and instance, holds a call, a line (a DRAM channel its data), a sink. -/
def Call.onUnit (c : Call) (cls unit : Nat) : Bool := (cls == 1 && c.at_.facet == unit) || (cls == 4 && c.at_.facet == unit / 2 && c.accesses != 0)
def LineRec.onUnit (l : LineRec) (cls unit : Nat) : Bool := (cls == 1 && l.at_.facet == unit) || (cls == 5 && l.at_.dram && l.at_.ch == unit)
def SinkRec.onUnit (k : SinkRec) (cls unit : Nat) : Bool :=
  (cls == 2 && k.at_.tile == unit) || (cls == 4 && k.mode != 0 && (k.at_.word % 128 == unit || (k.at_.word + 1) % 128 == unit))

/-- The lost work of a partition: with a sink's part, the whole sink. -/
def Placed.lost (w : Placed) (cls unit : Nat) : Placed :=
  let ks := w.sinks.filter (·.onUnit cls unit)
  ⟨w.calls.filter (·.onUnit cls unit), w.lines.filter (·.onUnit cls unit), w.sinks.filter fun k => ks.any fun x => x.sid == k.sid⟩

/-- The rest of the work. -/
def Placed.minus (w l : Placed) : Placed :=
  ⟨w.calls.filter fun c => !l.calls.contains c, w.lines.filter fun c => !l.lines.contains c, w.sinks.filter fun k => !l.sinks.contains k⟩

/-- The channels whose SIDs lost work wrote, those of the lanes of a retired group among them. -/
def lostChans (g : Graph) (l : Placed) (cls unit : Nat) : List Chan :=
  let sids := l.calls.flatMap (·.outs) ++ l.lines.map (·.sid) ++ l.sinks.map (·.sid)
  g.nodes.flatMap fun n => ((List.range n.nOut).filter fun i =>
    sids.contains (n.sids.getD i 0) && n.sids.getD i 0 != 0 || (cls == 15 && n.typ == tLink && n.lanes.getD i 0 / 64 == unit)).map fun i => (n.id, i)

/-- The channels of `base` that `step` reaches in at most `k` rounds. -/
def reachIn (base : List Chan) (step : List Chan → Chan → Bool) : Nat → List Chan
  | 0 => []
  | k + 1 =>
    let l := reachIn base step k
    base.filter (step l)

/-- R51: the channels that lie on a C0 path: C0 nodes alone lead from a source to them and from them to a sink. -/
def Graph.c0Chans (g : Graph) : List Chan :=
  let base := g.chans.filter fun c => (g.node c.1).any (·.cls == 0)
  let ends := (g.sinkChans.filter fun k => (g.node k.1).any (·.cls == 0)).filterMap fun k => g.feed k.1 k.2.1
  let up := reachIn base (fun l c => g.source c || (g.preds c).any fun d => d.1 == sharedSid || l.contains d) base.length
  let down := reachIn base (fun l c => ends.contains c || l.any fun d => (g.preds d).contains c) base.length
  up.filter down.contains

/-- R56, R481: the partitions whose work, running or armed, a unit holds, with whether a C0 path of theirs uses it. -/
def State.unitUsers (s : State) (cls unit : Nat) : List (Nat × Bool) :=
  (List.range 4).filterMap fun p =>
    let ws := ((s.setter.part p).graph, (s.setter.part p).work) :: (s.setter.armed.filter (·.part == p)).map fun a => (a.new, a.work)
    let us := ws.map fun w => (w.1, lostChans w.1 (w.2.lost cls unit) cls unit)
    if us.all (·.2.isEmpty) then none else some (p, us.any fun u => u.2.any u.1.c0Chans.contains)

/-- Channels that listed ones feed, and they themselves. -/
def Graph.downstream (g : Graph) : Nat → List Chan → List Chan
  | 0, l => l
  | k + 1, l =>
    let m := g.chans.filter fun c => l.contains c || (g.preds c).any l.contains
    if m.length = l.length then m else g.downstream k m

/-- The sinks that a list of channels feeds; they fade in to what they read. -/
def Graph.fedSinks (g : Graph) (l : List Chan) : List SinkChg :=
  (g.allSinks false).filter fun x => (g.feed x.node x.ch).any l.contains

/-- The graph of a partition after a retirement: without what is shed, lost LINK channels with the plan's lanes. Lost channels keep their
SIDs: their writer is gone (DESIGN CHOICE). -/
def State.replaceGraph (s : State) (p : Nat) (pl : Plan) (lost : List Chan) : Graph :=
  let cut := (pl.shed.filter (·.1 == p)).foldl (fun g x => g.shed x.2) (s.setter.part p).graph
  { cut with nodes := cut.nodes.map fun n =>
      { n with cross := planCross pl n.id n.cross
               lanes := if n.typ = tLink then (List.range n.nOut).map fun i =>
                 if lost.contains (n.id, i) then ((pl.lanes.find? fun x => x.1 == n.id && x.2.1 == i).map (·.2.2)).getD 0 else n.lanes.getD i 0 else n.lanes } }

/-- A re-placement: partition, graph, lost channels, plan, lost work and the new places. -/
structure Replace where
  part : Nat
  g    : Graph
  lost : List Chan
  plan : Plan
  gone : Placed
  new  : Placed
deriving DecidableEq, Repr

def State.replaceOf (s : State) (cls unit : Nat) (x : Nat × Plan) : Replace :=
  let w := (s.setter.part x.1).work
  let l := w.lost cls unit
  let cs := lostChans (s.setter.part x.1).graph l cls unit
  let g := s.replaceGraph x.1 x.2 cs
  let stay := fun (y : Placed) => y.pick fun _ n => (g.node n).isSome
  { part := x.1, g := g, lost := cs, plan := x.2, gone := l, new := stay (planWork x.1 g cs x.2) }

/-- R62, R238, R256: whether the plan of a re-placement places what was lost and stays, and keeps the promises of placement. -/
def State.replaceLegal (s : State) (r : Replace) (others : Placed) : Bool :=
  let stay := r.gone.pick fun _ n => (r.g.node n).isSome
  let t : Site := ⟨others, Placed.none_, ((s.setter.part r.part).work.minus r.gone).pick fun _ n => (r.g.node n).isSome, r.new⟩
  let w := t.after true
  placesExactly r.plan (stay.calls.map fun c => (c.at_.node, c.at_.call)) (stay.lines.map LineRec.key)
    ((stay.sinks.filterMap fun k => (r.g.node k.at_.node).map fun n => (n, k.at_.out)).eraseDups) &&
  lanesLegal r.g r.lost (s.allGraphs.flatMap Graph.lanes) s.links.retired && groupsMeet r.g s.hz &&
  linesLegal w r.new.lines s.setter.drams s.hz && s.dramLegal w.lines &&
  r.new.facets.all (s.facetLegal [] r.plan t true) && r.new.tiles.all (s.tileLegal [] t true) && r.new.sinks.all (s.spreadLegal [] t true) &&
  s.wordsLegal w (s.facsAfter r.plan t) (rxNodes s.allGraphs) s.hz

/-- R55, R256: the work that a retirement takes from partition `p` has gone: its units are loaded without it, the sinks that it fed are
silent. -/
def State.lose (s : State) (p cls unit : Nat) : State :=
  let sp := s.setter.part p
  let l := sp.work.lost cls unit
  let a := Armed.base p .fadeIn sp.graph sp.graph
  let s := (sp.graph.fedSinks (sp.graph.downstream sp.graph.size (lostChans sp.graph l cls unit))).foldl (fun s x => s.putSink a x (Reader.of 0)) s
  (List.range 3).foldl (fun s k =>
    let w := (s.setter.part p).work
    s.dropWork p k (w.minus ⟨l.calls.filter (·.dom == k), l.lines.filter (·.dom == k), l.sinks.filter (·.dom == k)⟩)) s

/-- R256: the re-placement of a partition is built. -/
def State.replace (s : State) (r : Replace) : State :=
  let sp := s.setter.part r.part
  let own := r.plan.shed.filter (·.1 == r.part)
  let s := s.withHost fun h => { h with rep := h.rep ++ own.map fun x => shedReport sp.graph r.part x.2 }
  let sinks := (sinkChanges sp.graph r.g).filter (·.gone) ++ (r.g.fedSinks (r.g.downstream r.g.size r.lost)).map (SinkChg.hush (s.mayRead r.part))
  let fq : Fq := { part := r.part, full := false, tag := 0, graph := r.g, doms := [], commit := ⟨2, 0, 0, 0⟩, param := false, chgs := [], recs := 0, groups := false }
  s.withSetter fun x =>
    { x with builds := x.builds ++ [⟨Entry.none_ r.part (s.host.part r.part).session, .fadeIn, fq, { r.plan with shed := own }, r.g, r.lost, r.lost, sinks⟩] }

/-- R308: domain `k` restarts with its new rate: its units' work begins with tick 0, and laws that wait for a fade-in tick count in the new
numbering. -/
def State.restartDom (s : State) (k ns : Nat) : State :=
  match (s.dom k).restart with
  | none => s
  | some x =>
    match s.setter.armed.find? fun a => a.redo.testBit k && a.gone.testBit k with
    | none => s
    | some a =>
      let f := ceilDiv a.pre (timeUnit / max 1 (rateHz x.1))
      let s := (s.startAt k x ns).withLinks fun l => l.acquire (fun y => y.inDom == k || y.outDom == k) false
      let s := (a.sinks.filter (·.dom == k)).foldl (fun s y => if y.gone then s.freeSink a y else s.putSink a y ⟨0, y.b, .fadeIn f⟩) s
      let s := s.enterWork a k 0
      let w := a.work.inDom k
      let s := (s.withSetter fun y => { y with armed := y.armed.map fun b =>
        if b == a then { b with f := b.f.set k f, redo := b.redo - 2 ^ k, swaps := b.swaps ||| 2 ^ k } else b })
      s.loadUnits w.facets w.tiles k 0 false

/-- R408, R420: partitions whose graph waits to be removed lose it once no epoch of theirs is armed. -/
def State.cleanup (s : State) : State :=
  s.setter.cleanup.foldl (fun s x =>
    if s.setter.armedOf x.1 || s.setter.builds.any (·.entry.part == x.1) then s
    else (s.withSetter fun y => { y with cleanup := y.cleanup.filter (· != x) }).removeGraph x.1 x.2) s

/-- R408: the graph of partition `p` is to be removed, for command `e`. -/
def State.dropGraph (s : State) (p : Nat) (e : Entry) : State :=
  (s.withSetter fun x => { x with cleanup := x.cleanup ++ [(p, e)] }).cleanup

end Sys2Proof.Machine
end

