-- ==== Sys2Proof/Machine/Regs.lean ====
section
/-!
DEFINITION. The register space (R9 to R12, R489 to R494): what a reader sees at an offset, what a read latches, and what a
write does. Readers are 0 to 3 PF0 to PF3, 4 and 5 SPIT0 and SPIT1, 6 the Setter. The commands that the table gives a row of
their own share the operations of this file with the plain register write.
-/

namespace Sys2Proof.Machine

/-! ### Who may read and write (R424, R461, R490) -/

/-- R490: whether reader `r` writes what is open to P0's host: the host that holds P0, or the Setter. -/
def State.owns (s : State) (r : Nat) : Bool := r == 6 || s.host.holdsP0 r

/-- R424: whether the host interface serves register accesses: S0 has been able to start. -/
def State.served (s : State) : Bool := s.clk.coreLock || s.clk.rescue || s.boot.at_ != .wait

/-- R461, R467: whether register reads are answered: in Run, and in Standby with retained values. -/
def State.readable (s : State) : Bool := s.served && (s.awake || s.power.phase == .standby)

/-- R461: whether register writes arrive; in Standby they are discarded. -/
def State.writable (s : State) : Bool := s.served && s.awake

/-- Whether reader `r` writes a register that is open to P0's host (R490). -/
def State.commands (s : State) (r : Nat) : Bool := s.writable && s.owns r

/-- Whether clocks run outside the core domain: media PLL, domains and clock outputs run on in Standby (R307, R461). -/
def State.clocked (s : State) : Bool := s.awake || s.power.phase == .standby

/-- R482, R424: whether FAULT_N is low. -/
def State.faultLow (s : State) : Bool := s.health.asserted || s.boot.startFail

/-- R424, R446: whether BOOT_ERR_N is low: in a halt, or while the core PLL has not locked in time. -/
def State.bootErrLow (s : State) : Bool := 9 ≤ s.boot.code || s.boot.startFail

/-- R446: the levels of BOOTSTAT0 to BOOTSTAT3; none once BOOTSTAT_GPIO makes them GPIO12 to GPIO15. -/
def State.bootStatPins (s : State) : Option Nat := if s.clasp.flags.testBit 0 && s.boot.code == 8 then none else some s.boot.code

/-! ### Global block (R494) -/

/-- R494: full service is shown outside the Rescue condition, Standby and Dormant. -/
def State.full (s : State) : Bool := s.boot.at_ == .full && !s.clk.rescue && s.awake

/-- R494: one byte of GLB_PARTS. -/
def State.partByte (s : State) (p : Nat) : Nat :=
  let h := (s.host.part p).holder
  (if h.isSome then 0x80 else 0) + h.getD 0 <<< 5 + (if s.setter.armedOf p then 0x10 else 0)
    + if (s.setter.part p).live then 8 else 0

def State.readGlb (s : State) (r o : Nat) : Word :=
  let b := fun (x : Bool) (i : Nat) => if x then 2 ^ i else 0
  match o with
  | 0x000 => 0x80640042
  | 0x004 => BitVec.ofNat 32 (s.boot.code <<< 8 + b s.clk.rescue 2 + b s.full 1 + b (s.clasp.stage == .live && !s.full) 0)
  | 0x008 => BitVec.ofNat 32 (s.clasp.skipped <<< 16 + b s.clasp.valid.2 2 + b s.clasp.valid.1 1 + s.clasp.copy)
  | 0x00C => BitVec.ofNat 32 s.clasp.seq
  | 0x010 => BitVec.ofNat 32 (s.partByte 0 + s.partByte 1 <<< 8 + s.partByte 2 <<< 16 + s.partByte 3 <<< 24)
  | 0x014 => BitVec.ofNat 32 (s.host.spi1.map <<< 8 + s.host.spi0.map)
  | 0x018 => s.host.pcie.reg
  | 0x01C => BitVec.ofNat 32 s.us
  | 0x020 => BitVec.ofNat 32 (Memory.get (fun _ => 0) s.host.uptLat r)
  | _ => if 0x030 ≤ o && o < 0x040 then Memory.get zeroW s.host.scratch ((o - 0x030) / 4) else 0

/-! ### Partition block (R421) -/

/-- R421: LIMIT, C0_LIMIT and admitted use of the resource that PRT_Q_SEL selects. -/
def State.quotaShown (s : State) (p : Nat) : Nat × Nat × Nat :=
  let q := (s.host.part p).qSel
  let r := q.fld 0 8
  let u := q.fld 8 4
  let l := quotaOf s.host.pol.quota (s.cap r u) p r u
  (l.1, l.2, (Memory.get (fun _ => (0, 0)) (s.setter.part p).use (16 * r + u)).1)

def State.readPart (s : State) (r p o : Nat) : Word :=
  let sp := s.setter.part p
  s.host.readPrt p r s.us (s.setter.armedOf p) (if sp.live then sp.epoch else 0) (s.quotaShown p) o

/-! ### Reads -/

/-- The accepted levels of the GPIO pins as a word (R488). -/
def State.pinLevels (s : State) : Nat := (List.range 16).foldl (fun n i => n + if (s.pin i).level then 2 ^ i else 0) 0

/-- A serial port's register, by its block (R376 to R378). -/
def State.readPort (s : State) (p : Option Nat) (o : Nat) : Word :=
  match p with
  | some p => (s.ports.port p).readReg p (portReg p o)
  | none => 0

/-- R489, R493: the register at offset `o` of the windows that every reader sees alike. -/
def State.readWindow (s : State) (r o : Nat) : Word :=
  if o < 0x20200 then s.clk.readReg s.ptpOk (o - 0x20000)
  else if o < 0x20400 then 0
  else if o < 0x20500 then s.net.ptp.readReg s.ns (o - 0x20400)
  else if o < 0x20800 then 0
  else if o < 0x20900 then s.net.readReg (o - 0x20800)
  else if o < 0x21000 then 0
  else if o < 0x21800 then s.readPort (tdmPortAt (o - 0x21000)) (o - 0x21000)
  else if o < 0x21900 then s.ports.readStart (o - 0x21000)
  else if o < 0x22000 then 0
  else if o < 0x22100 then s.readPort (madiPortAt (o - 0x22000)) (o - 0x22000)
  else if o < 0x22400 then 0
  else if o < 0x22900 then s.readPort (aesPortAt (o - 0x22400)) (o - 0x22400)
  else if o < 0x23000 then 0
  else if o < 0x23100 then s.links.readReg r (o - 0x23000)
  else if o < 0x24000 then 0
  else if o < 0x24100 then s.mem.readReg (o - 0x24000)
  else if o < 0x24400 then 0
  else if o < 0x24500 then s.mem.readXreg (o - 0x24400)
  else if o < 0x24800 then 0
  else if o < 0x24900 then s.dram.readReg (o - 0x24800)
  else if o < 0x25000 then 0
  else if o < 0x25100 then s.boot.readReg r (o - 0x25000)
  else if o < 0x25400 then 0
  else if o < 0x25500 then s.boot.readSec (o - 0x25400)
  else if o < 0x25800 then 0
  else if o < 0x25900 then s.power.readReg s.us (o - 0x25800)
  else if o < 0x25C00 then 0
  else if o < 0x25D00 then s.screened.health.readReg s.power.temp r (o - 0x25C00) s.faultLow
  else if o < 0x26000 then 0
  else if o < 0x26100 then (s.pin ((o - 0x26000) / 16)).readReg (o % 16)
  else if o = 0x26104 then BitVec.ofNat 32 s.pinLevels
  else if o < 0x40000 then 0
  else if o < 0x44000 then (s.facet ((o - 0x40000) / 0x100)).readReg ((o - 0x40000) / 0x100) (o % 0x100)
  else if o < 0x48000 then 0
  else if o < 0x4A000 then (s.tile ((o - 0x48000) / 0x100)).readReg ((o - 0x48000) / 0x100) (o % 0x100)
  else 0

/-- R393: a word of a function's MSI-X table or pending-bit array. -/
def State.readMsix (s : State) (p o : Nat) : Word :=
  let q := s.host.part p
  if o < 0x11400 then Memory.get msixReset q.msix ((o - 0x11000) / 4)
  else if o = 0x11800 then BitVec.ofNat 32 q.pba
  else if o = 0x11804 then BitVec.ofNat 32 (q.pba >>> 32)
  else 0

/-- R489 to R492: what reader `r` reads at offset `o` of the register space. -/
def State.readReg (s : State) (r o : Nat) : Word :=
  if o % 4 ≠ 0 then 0
  else if r ≠ 6 ∧ (s.host.view r).isNone then 0
  else if o < 0x1000 then s.readGlb r o
  else if o < 0x10000 then 0
  else if o < 0x10C00 then s.readPart r (if r = 6 then 0 else (s.host.view r).getD 0) (o - 0x10000)
  else if o < 0x11000 then 0
  else if o < 0x20000 then if r < 4 then s.readMsix r o else 0
  else if o < 0x4A000 then s.readWindow r o
  else if 0xC0000 ≤ o ∧ o < 0xD0000 ∧ r = 6 ∧ o % 0x4000 < 0xC00 then s.readPart 6 ((o - 0xC0000) / 0x4000) (o % 0x4000)
  else 0

/-- The state after that read: what the latching registers latch (R310, R356, R390, R494). -/
def State.readLatch (s : State) (r o : Nat) : State :=
  if r ≠ 6 ∧ (s.host.view r).isNone then s
  else if o = 0x01C then s.withHost fun h => { h with uptLat := Memory.set (fun _ => 0) h.uptLat r (s.us / 2 ^ 32) }
  else if o = 0x20050 ∨ o = 0x20070 ∨ o = 0x20090 then s.withClk fun c => c.latchTick ((o - 0x20050) / 0x20)
  else if o = 0x20420 then s.withNet fun n => n.withPtp fun t => t.latch s.ns
  else if o = 0x2300C then s.withLinks fun l => l.latch r
  else s

/-! ### Operations behind registers -/

/-- The phase errors that the domains hold, for a register write that brings none. -/
def State.heldEs (s : State) : List Int := (List.range 3).map fun k => (s.dom k).e

/-- R303: PTP_OK may have changed from `was`: the media PLL follows. -/
def State.afterPtp (s : State) (was : Bool) (es : List Int) (freq : Int) : State :=
  if s.ptpOk = was then s else s.withClk fun c => c.ptpChange s.ptpOk es freq

/-- R332: joins of the network ports may have changed from `old`. -/
def State.afterJoins (s : State) (old : NetSys) : State := s.withNet fun n => n.reportJoins old

/-- R307, R437: domain `k` stops, and ports that followed it go back to the lifeline PLL. -/
def State.stopDomain (s : State) (k : Nat) : State :=
  if (s.dom k).run then (s.withClk fun c => c.stopDom k).withClasp fun c => c.takeBack (· == k) s.clk.crefLost else s

/-- The frame rate that a port is judged by, in 0.01 Hz: its domain's, or the measured one (R365). -/
def State.portRate (s : State) (p : Nat) : Nat :=
  let q := s.ports.port p
  if q.dom < 3 then 100 * s.hz q.dom else q.rate

/-- The frame rate of a port's domain in 0.01 Hz, 0 on an own clock. -/
def State.portDomRate (s : State) (p : Nat) : Nat :=
  let q := s.ports.port p
  if q.dom < 3 then 100 * s.hz q.dom else 0

/-- R365: COMMIT of TDM port `p`. -/
def State.tdmCommit (s : State) (p : Nat) : State := s.withPorts fun x => x.commit p (s.portRate p)

/-- R369: RESTART of port `p`. -/
def State.portRestart (s : State) (p : Nat) : State := s.withPorts fun x => x.restart p (s.portDomRate p)

/-- R366: a write of TDM_START_CTL. -/
def State.startCtl (s : State) (v : Word) : State :=
  s.withPorts fun x => x.writeStart v (setHi (setLo 0 x.startLo) x.startHi < (s.dom (v.fld 4 2)).next)

/-- R355: a write of NET_n_CTL of port `i`. -/
def State.netCtl (s : State) (i : Nat) (v : Word) (es : List Int) (freq : Int) : State :=
  ((s.withNet fun n => n.writeCtl i v s.us).afterJoins s.net).afterPtp s.ptpOk es freq

/-- R356: a write of PTP_CTL. -/
def State.ptpCtl (s : State) (v : Word) (es : List Int) (freq : Int) : State :=
  ((s.withNet fun n => n.writePtpCtl v s.us).afterJoins s.net).afterPtp s.ptpOk es freq

/-- R303, R304: the SOURCE and ENABLE fields of CLK_MPLL_CTL. -/
def State.mpllSource (s : State) (code : Nat) (es : List Int) (freq : Int) : State :=
  s.withClk fun c => c.setSource code s.ptpOk es freq
def State.mpllEnable (s : State) (on : Bool) (es : List Int) (freq : Int) : State :=
  s.withClk fun c => c.setEnable on s.us s.ptpOk es freq

/-- R318: a write of CLK_Dk_CMD; both bits together count as STEP_NOW. -/
def State.clkCommand (s : State) (k : Nat) (v : Word) : State :=
  if v.flag 1 then s.withClk fun c => c.command k true
  else if v.flag 0 then s.withClk fun c => c.command k false
  else s

/-- R305, R307, R323: a Setter write of CLK_Dk_CTL.RUN. -/
def State.clkRun (s : State) (k : Nat) (on : Bool) : State :=
  let d := s.dom k
  if on && !d.run then s.startAt k (d.rate, d.tol) s.ns
  else if !on then s.stopDomain k
  else s

/-- R485: GPIO_REARM. -/
def State.rearm (s : State) (mask : Nat) : State :=
  ((List.range 16).filter mask.testBit).foldl (fun s n =>
    let g := (s.pin n).rearm s.us
    (s.setPin n g.1).notes (g.2.map fun r => ⟨r.1, 20, n, 3, r.2, false, 0⟩)) s

/-- R192, R193: the write of FIL_UPD_D pushes the staged item of tile `n`. -/
def State.pushTile (s : State) (n : Nat) (apply : Word) : State :=
  let t := s.tile n
  let k := t.domain
  s.setTile n (t.push (s.readSid? k) (s.period k + 1) (s.dom k).next apply)

/-- R396 to R399: the key of partition `p` for a claim: none when none is stored that unwraps, when the life-cycle state
forbids claims, or while the Locket is locked. -/
def State.claimKey (s : State) (p : Nat) : Option (List Byte) :=
  if s.mem.locked ∨ ¬ (s.boot.otp.state = 1 ∨ s.boot.otp.state = 2) then none else s.boot.partKey p

/-- R396: START by reader `r`. The nonce is an open value. -/
def State.claimStart (s : State) (r : Nat) : State :=
  let t := s.take 1
  t.2.withHost fun h => h.claimStart r s.us ((s.claimKey ((h.view r).getD 0)).isSome) (Config.freeNat t.1)

/-- R396: SUBMIT by reader `r`. -/
def State.claimSubmit (s : State) (r : Nat) : State :=
  s.withHost fun h => h.claimSubmit r s.us (s.claimKey ((h.view r).getD 0))

/-- R399: ENROL by reader `r`. -/
def State.enrol (s : State) (r : Nat) : State :=
  s.withHost fun h => h.enrol r s.us (!s.mem.locked && (s.boot.otp.state == 1 || s.boot.otp.state == 2) && (s.boot.partKey 0).isNone)

/-- R420: partition `p` is reset: its holder ends, its graph is removed. -/
def State.resetPart (s : State) (p : Nat) (e : Entry) : State := (s.withHost fun h => h.endSession p).dropGraph p e

/-- R396 to R399: a write of PRT_CLAIM_CTL by reader `r`. DESIGN CHOICE (log 82; the spec gives several bits of one write no order): they
act in the order START, SUBMIT, RELEASE, ENROL. -/
def State.claimCtl (s : State) (r : Nat) (v : Word) : State :=
  let s := if v.flag 0 then s.claimStart r else s
  let s := if v.flag 1 then s.claimSubmit r else s
  let s := if v.flag 2 then s.withHost fun h => h.claimRelease r else s
  if v.flag 3 then s.enrol r else s

/-- R404, R405, R463: a doorbell write by the holder `r` of partition `p`; a submission doorbell reloads the idle timer. -/
def State.doorbell (s : State) (r p kind ring v : Nat) : State :=
  let s := if kind = 0 then s.withPower fun x => x.reload s.us else s
  if s.host.holds r then s.withHost fun h => h.modPart p fun q => q.doorbell kind ring v else s

/-! ### Writes -/

/-- R397, R421: a write of offset `o` of the partition block that reader `r` sees. -/
def State.writePart (s : State) (r p o : Nat) (v : Word) : State :=
  if o = 0x014 then s.claimCtl r v
  else if 0x040 ≤ o ∧ o < 0x060 then
    s.withHost fun h => h.modPart p fun q => q.writeMac ((o - 0x040) / 4) v
  else if 0x100 ≤ o ∧ o < 0x180 ∧ o % 16 = 12 then s.doorbell r p 0 ((o - 0x100) / 16) (v.fld 0 16)
  else if ¬ s.host.holds r then s
  else if o = 0x004 then if v.flag 0 then s.resetPart p (Entry.none_ p (s.host.part p).session) else s
  else s.withHost fun h => h.modPart p fun q => q.writePlain o v (ifaceOf r)

/-- A write of a serial port's register (R365, R366, R369, R376, R377). -/
def State.writePort (s : State) (r : Nat) (p : Option Nat) (o : Nat) (v : Word) : State :=
  match p with
  | none => s
  | some p =>
    let o := portReg p o
    if o = 0 then s.withPorts fun x => x.writeCtl p v (r == 6)
    else if o = (if p < 16 then 0x50 else 0x10) ∧ p < 28 then
      let s := if v.flag 1 then s.portRestart p else s
      if v.flag 0 ∧ p < 16 then s.tdmCommit p else s
    else s.withPorts fun x => x.setPort p ((x.port p).writePlain p o v)

/-- R323: a write of the CLK_ block by P0's host or the Setter. -/
def State.writeClk (s : State) (r o : Nat) (v : Word) : State :=
  if o = 0 then
    let s := s.withClk fun c => c.writePlain 0 v
    let s := if v.fld 0 3 = s.clk.source then s else s.mpllSource (v.fld 0 3) s.heldEs s.clk.freq
    s.mpllEnable (v.flag 12) s.heldEs s.clk.freq
  else if o = 0x40 ∨ o = 0x60 ∨ o = 0x80 then
    let k := (o - 0x40) / 0x20
    let s := s.withClk fun c => c.setPolicy k (v.fld 8 2)
    if r = 6 then s.clkRun k (v.flag 0) else s
  else if o = 0x44 ∨ o = 0x64 ∨ o = 0x84 then s.clkCommand ((o - 0x44) / 0x20) v
  else s.withClk fun c => c.writePlain o v

/-- R326, R355: a write of NET_I2C: the switch at 0x70 is set to the cage, and the transfer that starts goes there. -/
def State.i2cWrite (s : State) (v : Word) : State :=
  let n := s.net.writeI2c v
  let w := n.i2c
  let t := s.withNet fun _ => n
  if w.flag 31 ∧ ¬ s.net.i2c.flag 31 then
    (t.emit (.cage (w.fld 27 1) 0x70 0 (some (w.fld 27 1 + 1)))).emit (.cage (w.fld 27 1) (w.fld 17 7) (w.fld 8 8) (if w.flag 26 then some (w.fld 0 8) else none))
  else t

/-- R355: a write of the NET_ block. -/
def State.writeNet (s : State) (o : Nat) (v : Word) : State :=
  if o = 0 ∨ o = 0x40 then s.netCtl (o / 0x40) v s.heldEs s.clk.freq
  else if o = 0x80 then s.i2cWrite v
  else (s.withNet fun n => n.writePlain o v).afterJoins s.net

/-- R482, R487: a write of the HLT_ block. -/
def State.writeHlt (s : State) (r o : Nat) (v : Word) : State :=
  let own := s.owns r
  let s := s.withHealth fun h => h.writeReg r o v own
  if own ∧ o = 4 ∧ v.flag 1 then s.withHealth Health.clearFault else s

/-- R472: a write of the PWR_ block; S2 alone writes PWR_PADREL. -/
def State.writePwr (s : State) (r o : Nat) (v : Word) : State :=
  if o = 0x10 then
    if r = 6 ∧ s.boot.at_ = .s2 ∧ v.flag 0 then s.withPower fun p => { p with pads := true } else s
  else s.withPower fun p => p.writeReg s.us o v

/-- R281: a write of the XRAM_ block: P0's host clears XRAM_CONFLICT alone. -/
def State.writeXram (s : State) (r o : Nat) (v : Word) : State :=
  if r = 6 ∨ o = 0x020 then s.withMem fun m => m.writeXreg o v else s

/-- R490, R493: a write of the windows, by reader `r`; `own` says that it is P0's host or the Setter. -/
def State.writeWindow (s : State) (r o : Nat) (v : Word) (own : Bool) : State :=
  let set := r == 6
  if o < 0x20200 then if own then s.writeClk r (o - 0x20000) v else s
  else if o < 0x20400 then s
  else if o < 0x20500 then
    if !own then s
    else if o = 0x20400 then s.ptpCtl v s.heldEs s.clk.freq
    else s.withNet fun n => n.withPtp fun t => t.writePlain (o - 0x20400) v
  else if o < 0x20800 then s
  else if o < 0x20900 then if own then s.writeNet (o - 0x20800) v else s
  else if o < 0x21000 then s
  else if o < 0x21800 then if own then s.writePort r (tdmPortAt (o - 0x21000)) (o - 0x21000) v else s
  else if o < 0x21900 then
    if !own then s
    else if o = 0x21800 then s.startCtl v
    else if o = 0x21804 then s.withPorts fun x => { x with startLo := v }
    else if o = 0x21808 then s.withPorts fun x => { x with startHi := v }
    else s
  else if o < 0x22000 then s
  else if o < 0x22100 then if own then s.writePort r (madiPortAt (o - 0x22000)) (o - 0x22000) v else s
  else if o < 0x22400 then s
  else if o < 0x22900 then if own then s.writePort r (aesPortAt (o - 0x22400)) (o - 0x22400) v else s
  else if o < 0x23000 then s
  else if o < 0x23100 then s.withLinks fun l => l.writeReg r (o - 0x23000) v
  else if o < 0x24000 then s
  else if o < 0x24100 then if set then s.withMem fun m => m.writeReg (o - 0x24000) v else s
  else if o < 0x24400 then s
  else if o < 0x24500 then if own then s.writeXram r (o - 0x24400) v else s
  else if o < 0x24800 then s
  else if o < 0x24900 then if set then s.withDram fun d => d.writeReg (o - 0x24800) v else s
  else if o < 0x25000 then s
  else if o < 0x25100 then s.withBoot fun b => b.writeReg r (o - 0x25000) v
  else if o < 0x25400 then s
  else if o < 0x25500 then if own then s.withBoot fun b => b.writeSec (o - 0x25400) v else s
  else if o < 0x25800 then s
  else if o < 0x25900 then if own then s.writePwr r (o - 0x25800) v else s
  else if o < 0x25C00 then s
  else if o < 0x25D00 then s.writeHlt r (o - 0x25C00) v
  else if o < 0x26000 then s
  else if o < 0x26100 then
    if own then s.setPin ((o - 0x26000) / 16) ((s.pin ((o - 0x26000) / 16)).writeReg (o % 16) v) else s
  else if o = 0x26100 then if own then s.rearm (v.fld 0 16) else s
  else if o < 0x40000 then s
  else if o < 0x44000 then
    let n := (o - 0x40000) / 0x100
    if set then (s.ungate 0 n).modFacet n fun f => f.writeReg (o % 0x100) v else s
  else if o < 0x48000 then s
  else if o < 0x4A000 then
    let n := (o - 0x48000) / 0x100
    if !set then s
    else if o % 0x100 = 0x24 then (s.ungate 1 n).pushTile n v
    else (s.ungate 1 n).modTile n fun t => t.writeReg (o % 0x100) v
  else s

/-- R9, R489 to R492: reader `r` writes `v` at offset `o` of the register space. -/
def State.writeReg (s : State) (r o : Nat) (v : Word) : State :=
  if o % 4 ≠ 0 then s
  else if r ≠ 6 ∧ (s.host.view r).isNone then s
  else if o < 0x1000 then
    if s.owns r ∧ 0x030 ≤ o ∧ o < 0x040 then
      s.withHost fun h => { h with scratch := Memory.set zeroW h.scratch ((o - 0x030) / 4) v }
    else s
  else if o < 0x10000 then s
  else if o < 0x10C00 then
    match s.host.view r with
    | some p => if r = 6 then s else s.writePart r p (o - 0x10000) v
    | none => s
  else if o < 0x11000 then s
  else if o < 0x11400 then if r < 4 then s.withHost fun h => h.writeMsix r ((o - 0x11000) / 4) v else s
  else if o < 0x20000 then s
  else if o < 0x4A000 then s.writeWindow r o v (s.owns r)
  else s

end Sys2Proof.Machine
end

