-- ==== Sys2Proof/Machine/Resets.lean ====
section
/-!
DEFINITION. What power-on reset, RESET_N, a wake from Dormant, brown-out and the loss of a supply do to the whole device
(R279, R422, R428, R438, R459, R470, R471, R506, R514).
-/

namespace Sys2Proof.Machine

/-- The mapping that a PIN_CFG byte gives (R394, R425). -/
def pinMap (v : Nat) : Nat := if v < 4 then v else 0xFF

/-- R394: the SPI targets take the mapping of the early block in use; without one they are unmapped (R427). -/
def State.pinConfig (s : State) : State :=
  let b := s.clasp.block
  if b.isEmpty then s
  else s.withHost fun h => { h with spi0 := { h.spi0 with map := pinMap (le b 0x60 1) }, spi1 := { h.spi1 with map := pinMap (le b 0x61 1) } }

/-- POR release (R422): everything has its reset value but flash, OTP, what PWR_BOR latches and the levels of pins. -/
def State.por (s : State) : State :=
  { State.reset with
      pending := s.pending, free := s.free, boot := s.boot.por 0
      power := { Power.reset with bor := s.power.bor, borCount := s.power.borCount, wakeN := s.power.wakeN, temp := s.power.temp } }

/-- The Facets with their memories alone. -/
def keepFacets (m : Memory Facet) : Memory Facet :=
  m.foldl (fun n e => Memory.set (fun _ => Facet.reset) n e.1 { Facet.reset with m := e.2.m }) []

/-- The tiles with their memories alone. -/
def keepTiles (m : Memory Tile) : Memory Tile :=
  m.foldl (fun n e => Memory.set (fun _ => Tile.reset) n e.1
    { Tile.reset with entries := e.2.entries, sinks := e.2.sinks, slots := e.2.slots, bad := e.2.bad }) []

/-- The shared memories after RESET_N: words, lending, spare and the Locket's lock stay. -/
def MemSys.restart (m : MemSys) : MemSys :=
  { m with waiting := [], held := [], releases := [], completing := [], scrubPos := 0, scrubStart := 0, wins := [], rep := []
           r := { MemRegs.reset with wipes := m.r.wipes } }

/-- The shared memories after a wake from Dormant (R279): cleared, the spare kept, a tamper lock still in force. -/
def MemSys.redo (m : MemSys) : MemSys := { m.cleared true with locked := m.tamper, tamper := m.tamper }

/-- The inputs after RESET_N or a wake from Dormant (R488). -/
def keepPins (m : Memory Gpio) : Memory Gpio :=
  m.foldl (fun n e => Memory.set (fun _ => Gpio.reset) n e.1 { Gpio.reset with events := e.2.events, masked := e.2.masked }) []

/-- Everything but the AON domain and the Clasp restarts (R514). `dormant`: the device wakes from Dormant, so every SRAM is
cleared (R279) and the core PLL has to lock again; else RESET_N, which leaves RAM words and the counters of R483. -/
def State.restart (s : State) (dormant : Bool) : State :=
  ({ State.reset with
      pending := s.pending, free := s.free, us := s.us
      facets := if dormant then [] else keepFacets s.facets
      tiles := if dormant then [] else keepTiles s.tiles
      mem := if dormant then s.mem.redo else s.mem.restart
      sram := if dormant then [] else s.sram
      clk := { ClkSys.reset with coreLock := !dormant && s.clk.coreLock, crefLost := s.clk.crefLost, outHiZ := s.clk.outHiZ }
      clasp := s.clasp.takeBack (fun _ => true) s.clk.crefLost
      boot := s.boot.restart
      power := { s.power with phase := .run, stopped := 0, toDormant := false, gated := [],
                              idleAt := if s.held ∨ dormant then s.us + s.power.idleS * 1000000 else s.power.idleAt }
      health := if dormant then Health.reset else { Health.reset with total := s.health.total, supp := s.health.supp }
      gpio := keepPins s.gpio
      jtag := s.jtag } : State).pinConfig

/-- RESET_N low and high again (R514). While the switches of Dormant are open, or without supplies, nothing is held. -/
def State.resetN (s : State) : State :=
  match s.power.phase with
  | .dormant | .off => s
  | _ => s.restart false

/-- R471: brown-out: the AON domain resets and the device starts as at POR. -/
def State.brownOut (s : State) : State := { s.por with power := s.power.brownOut }

/-- R506, R472: the loss of a required rail: the device is Off; with VDD_AON_IN (`aon`) PWR_BOR is lost too. -/
def State.supplyLoss (s : State) (aon : Bool) : State :=
  { s.por with power := { Power.reset with phase := .off, wakeN := s.power.wakeN, temp := s.power.temp
                                           bor := s.power.bor && !aon, borCount := if aon then 0 else s.power.borCount }
               clasp := { Clasp.reset with stage := .off } }

end Sys2Proof.Machine
end

