-- ==== Sys2Proof/Machine/BootOps.lean ====
section
/-!
DEFINITION. Meanings of the commands of start-up, secure boot, the recovery loader and the Locket (R422 to R428, R444 to
R456, R272, R276, R277, R284, R287, R288).
-/

namespace Sys2Proof.Machine

/-- Fresh EVENT codes of the Hallmark log: the spec lists none (R451). -/
def State.events (s : State) (n : Nat) : (Nat → Nat) × State :=
  let t := s.take n
  (fun i => Config.freeNat (t.1 + i), t.2)

/-! ### Early block -/

/-- POR (R422). -/
def execPor (s : State) : Host.Outcome State Fault Refusal := done s .por true s.por

/-- The reader has read both copies; without an answer of the flash device both are empty (R423). -/
def State.earlyRead (s : State) (answers : Bool) : State :=
  s.withClasp fun c => { c with stage := .read_
                                copies := if answers then (s.boot.read 0x100000 4096, s.boot.read 0x101000 4096) else ([], []) }

def execEarlyBlockReadDone (answers : Bool) (s : State) : Host.Outcome State Fault Refusal :=
  done s (.earlyBlockReadDone answers) (s.clasp.stage == .reading) (s.earlyRead answers)

/-- The CLK_ registers of the clock plan after CLK_MPLL_CTL, each with its word of the plan (R425). -/
def planRegs : List (Nat × Nat) :=
  [(0x004, 1)] ++ ((List.range 16).map fun i => (0x100 + 4 * i, 2 + i)) ++ [(0x140, 18)]

/-- R323: the clock plan over the reset values; the DCO word calibrated at enable (R304) is an open value. -/
def State.clockPlan (s : State) : State :=
  let ws := s.clasp.plan
  if ws.isEmpty then s
  else
    let v := ws.getD 0 0
    let t := s.take 2
    let s := t.2.withClk fun c => (planRegs.foldl (fun c x => c.writePlain x.1 (ws.getD x.2 0)) c).writePlain 0 v
    let s := s.mpllSource (v.fld 0 3) s.heldEs s.clk.freq
    s.mpllEnable (v.flag 12) s.heldEs (Config.freeInt t.1)

/-- R422 step 3, R426, R427: a copy is chosen, its clock plan and pin configuration take effect, the lifeline PLL starts. -/
def State.earlySelect (s : State) : State :=
  let s := s.withClasp fun c => { c.select with pll := if s.clk.crefLost then .rescue else c.pll }
  let s := (s.clockPlan.withClk fun c => { c with outHiZ := false }).pinConfig
  if !s.clasp.valid.1 && !s.clasp.valid.2 then s.report 0x0B00 18 0 false else s

def execEarlyBlockSelect (s : State) : Host.Outcome State Fault Refusal :=
  done s .earlyBlockSelect (s.clasp.stage == .read_) s.earlySelect

/-! ### Core PLL at start-up, S0 -/

/-- R424: the core PLL has not locked in time. -/
def State.startTimeout (s : State) (edges : Bool) : State :=
  let cause := if edges then 2 else 1
  let s := s.withBoot fun b => { b with startFail := true }
  let s := s.withClk fun c => { c with rescueCount := incSat 0xFFFF c.rescueCount, cause := cause, crefLost := !edges }
  let s := s.withClasp fun c => if !edges && c.pll == .cref then { c with pll := .rescue } else c
  s.note ⟨0x0600, 10, 0, 3, false, false, cause⟩

def execCorePllStartTimeout (edges : Bool) (s : State) : Host.Outcome State Fault Refusal :=
  done s (.corePllStartTimeout edges)
    (s.awake && s.boot.at_ == .wait && !s.clk.coreLock && !s.boot.startFail) (s.startTimeout edges)

/-- R298: the core PLL locks. -/
def execCorePllLock (s : State) : Host.Outcome State Fault Refusal :=
  done s .corePllLock (s.awake && !s.clk.coreLock) (s.withClk ClkSys.coreLocked)

/-- The first `n` blocks of the body of a stage, decrypted where ENC is 1 (R442, R443). -/
def stageBody (o : Otp) (rd : Nat → Nat → List Byte) (n : Nat) : List Byte :=
  let h := rd 0 512
  let t := stageOf h
  ((List.range n).flatMap fun i =>
    let b := rd (0x1000 + t.tableLen + 4096 * i) 4096
    if t.flags.testBit 0 then gcmCrypt o.imageKey (slice h 0xC0 8 ++ beBytes 4 i) b else b).take t.bodyLen

/-- The bytes as words, the last one filled with zeros. -/
def bodyWords (bs : List Byte) : List Word := wordsOf (bs ++ List.replicate ((4 - bs.length % 4) % 4) 0)

/-- R442, R444: the first `n` blocks of a stage, each checked as it arrived, go to its load area: Setter local memory or DRAM channel A. -/
def State.loadStage (s : State) (rd : Nat → Nat → List Byte) (n : Nat) : State :=
  let t := stageOf (rd 0 512)
  let ws := bodyWords (stageBody s.boot.otp rd n)
  if t.load = 0 ∨ t.stage = 1 then { s with sram := Memory.setRun zeroW s.sram (t.loadOff / 4) ws }
  else s.withDram fun d => { d with words := Memory.setRun zeroW d.words (dramKey 0 (t.loadOff / 4)) ws }

/-- R444, R447: S0 loads a slot that it tries, as far as its blocks are good. -/
def State.tryStage1 (s : State) (r : Ledger) : State :=
  let rd := s.boot.slotRd r.slot
  if s.boot.skip.testBit r.slot ∨ (sha384 (rd 0 512)).take 16 ≠ r.hhash then s
  else s.loadStage rd (blocksLoaded s.boot.otp rd 1 s.boot.otp.keyOk none)

/-- What S0 does when it starts (R424, R440, R444, R447, R450). -/
def State.s0 (s : State) (sfdp : Option (Nat × Nat × Nat)) (low : Bool) : State :=
  let s := if s.boot.startFail then s.note ⟨0x0600, 10, 0, 3, true, false, 0⟩ else s
  let e := s.events 2
  let b := ({ s.boot with flRead := s.boot.flashMode sfdp low } : Boot)
  let s := if b.otp.bad.testBit 0 ∨ b.otp.state = 4 ∨ b.otp.state = 0 then e.2 else b.tried.foldl State.tryStage1 e.2
  s.withBoot fun _ => b.s0 s.us e.1

def execS0Start (sfdp : Option (Nat × Nat × Nat)) (low : Bool) (s : State) : Host.Outcome State Fault Refusal :=
  done s (.s0Start sfdp low) (s.awake && s.boot.at_ == .wait && s.clk.coreLock) (s.s0 sfdp low)

/-! ### S1 -/

/-- Stage 1 takes control (R444); `faulty` are the banks that fail the test of R272. -/
def State.s1 (s : State) (faulty : List Nat) : State :=
  let s := s.withBoot Boot.s1Start
  if s.boot.at_ = .s1 then s.withMem fun m => (sortBy (fun a b => b ≤ a) faulty).foldl MemSys.bankFails m else s

def execS1Start (faulty : List Nat) (s : State) : Host.Outcome State Fault Refusal :=
  done s (.s1Start faulty) (s.awake && s.boot.at_ == .stage1) (s.s1 faulty)

/-- R284, R287: DRAM training ends; a failure halts S1 with 0xC. -/
def State.trained (s : State) (ok : Bool) (dA rA dB rB : Nat) : State :=
  let r := s.dram.train ok dA rA dB rB
  let s := { s with dram := r.1 }
  if r.2 then s.withBoot fun b => b.haltS1 0xC else s

def execDramTrainingDone (ok : Bool) (densA ranksA densB ranksB : Nat) (s : State) : Host.Outcome State Fault Refusal :=
  done s (.dramTrainingDone ok densA ranksA densB ranksB)
    (s.awake && s.boot.at_ == .s1 && !s.dram.trained) (s.trained ok densA ranksA densB ranksB)

/-- Whether initialisation covers stage 2's load area (R444). -/
def State.areaReady (s : State) : Bool :=
  let a := s.boot.loadArea
  s.dram.trained && (a.1 == 0 || decide (a.2.1 + a.2.2 ≤ s.dram.inited 0 * 2 ^ 20))

/-- R288, R444: initialisation has reached `mib` MiB; once it covers the load area S1 loads stage 2. -/
def State.initArea (s : State) (mib : Nat) : State :=
  let s := s.withDram fun d => d.initTo mib
  if s.boot.at_ = .s1 ∧ s.areaReady then
    let e := s.events 2
    let b := s.boot
    let rd := fun o n => b.slotRd b.source (b.next2 + o) n
    let t := if b.source < 2 then e.2.loadStage rd (blocksLoaded b.otp rd 2 b.otp.keyOk (some b.svn)) else e.2
    t.withBoot fun b => b.loadStage2 [s.dram.readReg 4, s.dram.readReg 8] s.us e.1
  else s

def execDramInitCoversLoadArea (mib : Nat) (s : State) : Host.Outcome State Fault Refusal :=
  done s (.dramInitCoversLoadArea mib) (s.awake && s.dram.trained) (s.initArea mib)

/-- R288: initialisation has reached the end of both usable regions. -/
def execDramInitDone (s : State) : Host.Outcome State Fault Refusal :=
  done s .dramInitDone (s.awake && s.dram.trained) (s.initArea (max (usableMiB s.dram.densA) (usableMiB s.dram.densB)))

/-! ### S2 -/

/-- The journal key under which SAVE_POLICY stores the policy of P0 (R400, R457). -/
def policyKey : Nat := 0x4000

/-- The policy of P0 as a journal value: priorities, SPI mapping, XRAM_OWNk, then counted quotas and grants. -/
def State.policyBytes (s : State) : List Byte :=
  let p := s.host.pol
  ((List.range 4).map fun i => BitVec.ofNat 8 (Memory.get prioReset p.prio i))
    ++ leBytes 1 s.host.spi0.map ++ leBytes 1 s.host.spi1.map
    ++ bytesOfWords ((List.range 8).map fun k => Memory.get xownReset s.mem.r.xown k)
    ++ leBytes 2 p.quota.length ++ (p.quota.flatMap fun q => leBytes 4 q.1 ++ leBytes 4 q.2.1 ++ leBytes 4 q.2.2)
    ++ leBytes 2 p.grants.length ++ (p.grants.flatMap fun g => leBytes 1 g.reader ++ leBytes 2 g.first ++ leBytes 2 g.count)

/-- R400: S2 restores a saved policy. -/
def State.restorePolicy (s : State) : State :=
  match s.boot.setting policyKey with
  | none => s
  | some v =>
    let n := le v 38 2
    let m := le v (40 + 12 * n) 2
    let s := s.withHost fun h =>
      { h with
          pol := { prio := (List.range 4).foldl (fun q i => Memory.set prioReset q i (le v i 1)) [],
                   quota := (List.range n).foldl (fun q i =>
                     Memory.set (fun _ => (0, 0)) q (le v (40 + 12 * i) 4) (le v (44 + 12 * i) 4, le v (48 + 12 * i) 4)) [],
                   grants := (List.range m).map fun i =>
                     let o := 42 + 12 * n + 5 * i
                     ⟨le v o 1, le v (o + 1) 2, le v (o + 3) 2⟩ }
          spi0 := { h.spi0 with map := le v 4 1 }
          spi1 := { h.spi1 with map := le v 5 1 } }
    s.withMem fun x => { x with r := { x.r with xown := (List.range 8).foldl (fun q k =>
      Memory.set xownReset q k (BitVec.ofNat 32 (le v (6 + 4 * k) 4))) [] } }

/-- Whether a setting of namespace `n` names a register at offset `o` of the windows that it serves (R493). -/
def settingAt (n o : Nat) : Bool :=
  match n with
  | 0 => 0x20800 ≤ o && o < 0x20900
  | 2 => 0x20000 ≤ o && o < 0x20200
  | 3 => (0x21000 ≤ o && o < 0x21900) || (0x22000 ≤ o && o < 0x22100) || (0x22400 ≤ o && o < 0x22900)
  | _ => false

/-- The register settings of the namespaces that S2 applies before full service: network identities, clock plan and port
defaults (R355, R376, R457), as (offset, word) pairs. -/
def State.savedRegs (s : State) : List (Nat × Word) :=
  (liveRecs s.boot.journal).flatMap fun r =>
    ((List.range (r.val.length / 8)).map fun i => (le r.val (8 * i) 4, BitVec.ofNat 32 (le r.val (8 * i + 4) 4))).filter fun w =>
      settingAt (r.key / 0x1000) w.1

/-- Stage 2 takes control as the Setter firmware (R444, R450). -/
def State.s2 (s : State) : State :=
  let policy := (s.boot.setting policyKey).getD []
  let e := s.events 3
  let t := e.2.take 1
  let anom := leBytes 48 (Config.freeNat t.1)
  let s := t.2.withBoot fun b => b.s2Start s.clasp.block policy anom s.us e.1
  let s := s.restorePolicy
  s.savedRegs.foldl (fun s w => s.writeReg 6 w.1 w.2) s

def execS2Start (s : State) : Host.Outcome State Fault Refusal :=
  done s .s2Start (s.awake && s.boot.at_ == .stage2) s.s2

/-- Whether S2 runs. -/
def State.s2Runs (s : State) : Bool := s.boot.at_ == .s2 || s.boot.at_ == .full

/-- R445. -/
def execBootRelWrite (val : Word) (s : State) : Host.Outcome State Fault Refusal :=
  done s (.bootRelWrite val) (s.awake && s.s2Runs) (s.withBoot fun b => b.release val)

/-- R470: S2 writes PWR_PADREL.RELEASED. -/
def execPadRelease (s : State) : Host.Outcome State Fault Refusal :=
  done s .padRelease (s.awake && s.boot.at_ == .s2) (s.withPower fun p => { p with pads := true })

/-- R422 step 5: full service begins. -/
def execFullService (s : State) : Host.Outcome State Fault Refusal :=
  done s .fullService (s.awake && s.boot.at_ == .s2 && s.power.pads) (s.withBoot fun b => { b with at_ := .full, code := 8 })

/-! ### Reset and the recovery loader -/

/-- R514, R448, R459. -/
def execResetN (s : State) : Host.Outcome State Fault Refusal := done s .resetN true s.resetN

/-- R452: MNT_RXD has been low for 100 ms from POR release; a halt of S0 comes first (R447). -/
def State.recoveryPin (s : State) : State :=
  s.withBoot fun b =>
    if b.at_ = .wait then
      if b.otp.bad.testBit 0 then { b.haltWith 0xE with startFail := false }
      else if b.otp.state = 4 then { b.haltWith 0xD with startFail := false }
      else { b.enterRecovery with startFail := false }
    else b.enterRecovery

def execRecoveryPinHold (s : State) : Host.Outcome State Fault Refusal :=
  done s .recoveryPinHold (s.awake && s.clk.coreLock && (s.boot.at_ == .wait || s.boot.at_ == .stage1)) s.recoveryPin

/-- R452: at least 8 bytes of 0x55 at a rate in range. -/
def execRecoveryBaudDetect (baud : Nat) (s : State) : Host.Outcome State Fault Refusal :=
  done s (.recoveryBaudDetect baud) (s.boot.at_ == .recovery && 9600 ≤ baud && baud ≤ 3000000)
    (s.withBoot fun b => { b with baud := baud })

/-- The recovery loader takes a frame and answers. -/
def State.recover (s : State) (r : Boot × List Byte) : State := { s with boot := r.1 }.emit (.uart r.2)

def execHello (frame : List Byte) (s : State) : Host.Outcome State Fault Refusal :=
  done s (.hello frame) (s.boot.at_ == .recovery) (s.recover (s.boot.recHello frame))

def execData (frame : List Byte) (s : State) : Host.Outcome State Fault Refusal :=
  done s (.data frame) (s.boot.at_ == .recovery) (s.recover (s.boot.recData frame))

/-- R452: an accepted image is loaded and is about to run as S1. -/
def State.recGo (s : State) (frame : List Byte) : State :=
  let e := s.events 2
  let b := s.boot
  let rd := fun o n => slice b.rec_ o n
  let t := e.2.recover (b.recGo frame s.us e.1)
  if t.boot.at_ = .stage1 then t.loadStage rd (stageOf (rd 0 512)).blocks else t

def execGo (frame : List Byte) (s : State) : Host.Outcome State Fault Refusal :=
  done s (.go frame) (s.boot.at_ == .recovery) (s.recGo frame)

/-! ### Tamper and the Locket -/

/-- R277, R456: a tamper event wipes and locks the Locket. -/
def State.tamper (s : State) (src : Nat) : State :=
  ((s.withMem fun m => m.wipe true).withBoot fun b => b.tamper src).note ⟨0x0B01, 18, 0, 3, false, false, src⟩

def execTamperEvent (src : Nat) (s : State) : Host.Outcome State Fault Refusal :=
  done s (.tamperEvent src) s.powered (s.tamper src)

/-- R277: the clear circuit has cleared every word. -/
def execLocketClearDone (s : State) : Host.Outcome State Fault Refusal :=
  done s .locketClearDone s.mem.wiping (s.withMem MemSys.clearDone)

/-- R277, R456: TAMPER_N has been high for 10 ms: the lock ends and the Setter derives the device key again. -/
def State.lockEnd (s : State) : State :=
  (s.withMem fun m => { m with locked := m.wiping, tamper := false }).withBoot fun b =>
    { b with tamperN := true, devKey := if s.s2Runs || b.at_ == .s1 || b.at_ == .stage2 then some b.otp.deviceKey else b.devKey }

def execLocketLockEnd (s : State) : Host.Outcome State Fault Refusal := done s .locketLockEnd s.mem.tamper s.lockEnd

/-- A read answers its core; R25 places the Locket. -/
def State.answer (s : State) (who : Requester) (addr : Nat) (wr : Option Word) (v : Word) : State :=
  match wr with
  | some _ => s
  | none =>
    match who with
    | .core n => s.emit (.core n addr v)
    | _ => s

/-- R276, R277: an access to the Locket. -/
def State.locket (s : State) (who : Requester) (word : Nat) (wr : Option Word) : State :=
  let r := s.mem.locketAccess who word wr
  { s with mem := r.1 }.answer who (0x01040000 + 4 * word) wr r.2

def execLocketAccess (who : Requester) (word : Nat) (wr : Option Word) (s : State) : Host.Outcome State Fault Refusal :=
  done s (.locketAccess who word wr) s.awake (s.locket who word wr)

end Sys2Proof.Machine
end

