-- ==== Sys2Proof/Machine/Tick.lean ====
section
/-!
DEFINITION. What a tick of a rate domain does in the whole device (R31, R39, R40, R88 to R96, R190, R197, R243, R244, R247,
R317, R341, R344, R361, R366, R371, R380, R413 to R417, R435 to R438, R519).
-/

namespace Sys2Proof.Machine

/-! ### Writes and reads of the plane -/

/-- Writer kind of a port in R34. -/
def portWriter (p : Nat) : Nat :=
  match portKind p with
  | .tdm => 4
  | .madi => 5
  | _ => 6

/-- R247, R317: what a sink reader delivers in period `n` of domain `k`, with the gain of a step. -/
def State.sinkValue (s : State) (k n : Nat) (r : Reader) : Word :=
  let y := r.value n (s.readSid k)
  let g := stepGain (s.dom k)
  if g = 32 then y else gainMul y (g * 2 ^ 23)

/-! ### Late work (R33, R40, R200) -/

/-- R33, R93: the first `m` posts of Facet `f` arrived before the tick; every other one is discarded and reported with its
SID. DEDUCED (R93 calls them the outstanding writes of the unfinished period): the rest of the list is outstanding, whether
or not the engine has read its entries. -/
def State.latePosts (s : State) (f m k : Nat) : State :=
  let c := s.facet f
  if c.st ≠ .post ∨ c.domain ≠ k then s
  else
    let a := c.postRange 0 m
    ((s.setFacet f a.1).writeSids k 1 f a.2).notes
      (((a.1.postRange m 4096).2.filter fun x => x.1 != 0).map fun x => ⟨0x300, 1, f, k, false, false, x.1⟩)

/-- What tile `n` of domain `k` puts out: plane writes, and adds to the shared banks (R188, R190). -/
def State.tileOut (s : State) (k n : Nat) (o : TileOut) : State :=
  let s := (s.setTile n o.t).writeSids k 2 n o.plane
  { s with mem := o.adds.foldl (fun m a => (m.access ⟨.tile n, a.1, .addS a.2⟩).1) s.mem }

/-- R33, R200: tile `n` is still accumulating: `c` sinks have completed, and the plane writes of the first `m` have arrived;
those of the others are late. -/
def State.lateSinks (s : State) (n m c k : Nat) : State :=
  let t := s.tile n
  if ¬ t.busy ∨ t.domain ≠ k then s
  else
    let cut := fun j => t.accCut (s.readSid? k) (s.period k + 1) (s.period k) j
    let o := cut (max m c)
    let w := (cut m).plane.length
    (s.tileOut k n { o with plane := o.plane.take w }).notes
      (((o.plane.drop w).filter fun x => x.1 != 0).map fun x => ⟨0x300, 2, n, k, false, false, x.1⟩)

/-- Every Facet that a tick finds in its post and every tile that it finds accumulating. `late` tells how far each has come:
posts that arrived of Facet f at f, sinks that arrived of tile n at 64 + n and sinks completed at 96 + n; 0 where it lists
nothing. -/
def State.allLate (s : State) (k : Nat) (late : List (Nat × Nat)) : State :=
  let g := fun i => ((late.find? (·.1 == i)).map (·.2)).getD 0
  let s := (s.facets.map Prod.fst).foldl (fun s f => s.latePosts f (g f) k) s
  (s.tiles.map Prod.fst).foldl (fun s n => s.lateSinks n (g (64 + n)) (g (96 + n)) k) s

/-! ### Units -/

/-- R519: the distributor writes every CONST output of the domain. -/
def State.constTick (s : State) (k : Nat) : State :=
  (s.setter.consts.filter (·.dom == k)).foldl (fun s c => s.writeSid k 0 0 c.sid c.val) s

/-- R92: the Facets of the domain. -/
def State.facetTick (s : State) (k n : Nat) : State :=
  { s with facets := s.facets.foldl (fun m e =>
      if e.2.domain = k then Memory.set (fun _ => Facet.reset) m e.1 (e.2.tick n) else m) s.facets }

/-- R190: an owner tile takes a bank word by SWAP with 0 and publishes it. -/
def State.publish (s : State) (k t : Nat) (x : Nat × Nat) : State :=
  let r := s.mem.access ⟨.tile t, x.2, .swap 0⟩
  { s with mem := r.1 }.writeSid k 2 t x.1 r.2

/-- R197: the tiles of the domain. -/
def State.tileTick (s : State) (k n : Nat) : State :=
  s.tiles.foldl (fun s e =>
    if e.2.domain = k then
      let r := e.2.tick n
      r.2.foldl (fun s x => s.publish k e.1 x) (s.setTile e.1 r.1)
    else s) s

/-- R341: receive contexts release their samples. -/
def State.rxTick (s : State) (k n : Nat) : State :=
  let r := s.net.releaseTick k n
  r.1.foldl (fun s w => s.writeSid k 7 w.1 w.2.1 w.2.2) { s with net := r.2 }

/-- R340, R385: contexts on their senders' clocks that feed lanes of the domain release the next sample. -/
def State.rxOwnTick (s : State) (k ns : Nat) : State :=
  let cs := (s.links.lanes.filterMap fun e =>
    match e.2.ownIn with
    | some (q, _) => if e.2.outDom = k ∧ 64 ≤ q then some (q - 64) else none
    | none => none).eraseDups
  cs.foldl (fun s i =>
    let r := s.net.releaseOwn i ns
    let s := { s with net := r.2 }
    match r.1 with
    | some xs => s.withLinks fun l => l.takeOwn (64 + i) ns xs
    | none => s) s

/-- R380: the lanes whose input side lies in the domain take a sample, those whose output side does make one. -/
def State.linkTick (s : State) (k ns : Nat) : State :=
  let s := s.withLinks fun l => l.takeTick k ns (s.readSid k)
  let t := s.take laneFree
  let r := s.links.tick k t.1 ns fun j => (s.dom j).lastNs
  r.1.foldl (fun s w => s.writeSid k 3 w.1 w.2.1 w.2.2) { t.2 with links := r.2 }

/-- R361: the inputs of the domain. -/
def State.portInTick (s : State) (k ns : Nat) : State :=
  ((List.range 36).filter fun p => hasInput p && (s.ports.port p).dom == k).foldl (fun s p =>
    let r := s.ports.inputTick p ns
    let s := { s with ports := r.2 }
    if r.1.isEmpty then s
    else (s.ports.port p).inSids.foldl (fun s c => s.writeSid k (portWriter p) (portInst p) c.2 (r.1.getD c.1 0)) s) s

/-! ### Transmit contexts (R337, R344) -/

/-- PRESUMED (ST 2110-31): the label byte of an AM824 subframe: V, U, C, parity, first subframe, block start in bits 0 to 5. -/
def amLabel (v u c b first : Bool) (w : Nat) : Nat :=
  let n := fun (x : Bool) (i : Nat) => if x then 2 ^ i else 0
  let ones := ((List.range 24).filter fun i => Nat.testBit w i).length + (if v then 1 else 0) + (if u then 1 else 0) + if c then 1 else 0
  n v 0 + n u 1 + n c 2 + n (ones % 2 == 1) 3 + n first 4 + n b 5

/-- R337: the labels of a transmit context's channels: the bits of the pair that feeds it, else the AES3 defaults. -/
def State.labels (s : State) (c : TxCtx) (xs : List Word) : List Nat :=
  (List.range xs.length).map fun i =>
    let w := (toPcm 24 (xs.getD i 0)).1
    match c.vucFrom with
    | some (x, ch) =>
      let l := (s.net.rxc x).vuc.getD (ch + i) 0
      amLabel (Nat.testBit l 0) (Nat.testBit l 1) (Nat.testBit l 2) (Nat.testBit l 5) (i % 2 == 0) w
    | none => amLabel false false (csBit (SerPort.reset 28) (s.dom c.dom).rate c.blk) (c.blk == 0 && i % 2 == 0) (i % 2 == 0) w

/-- R344: the transmit contexts of the domain take the samples of the period before. -/
def State.txTick (s : State) (k n : Nat) : State :=
  (s.net.tx.map Prod.fst).foldl (fun s i =>
    let c := s.net.txc i
    if c.used && c.dom == k then
      let xs := c.sids.map (s.sinkValue k n)
      s.withNet fun x => x.packetise i n xs (s.labels c xs)
    else s) s

/-! ### Outputs (R361, R435 to R438) -/

/-- The epoch graph in force in domain `k` for partition `p`. -/
def State.inForceGraph (s : State) (p k : Nat) : Graph :=
  match (s.setter.armed.filter fun a => a.part == p && a.law != .param && a.force.testBit k).getLast? with
  | some a => a.new
  | none => if (s.setter.part p).live then (s.setter.part p).graph else Graph.empty

/-- The slot or channel of a port on which a logical output channel goes out. -/
def State.slotOf (s : State) (p ch : Nat) : Nat := if p < 16 then (s.ports.port p).act.slotOf 8 ch else ch

/-- The SNK_PORT nodes of a graph on port `p`. -/
def Graph.sinksOn (g : Graph) (p : Nat) : List GNode := g.nodes.filter fun n => n.typ == tSnkPort && nodePort n == some p

/-- Whether a SNK_PORT node covers a slot of its port. -/
def State.coversSlot (s : State) (p slot : Nat) (n : GNode) : Bool :=
  (List.range n.nIn).any fun c => s.slotOf p (n.a16 2 + c) == slot

/-- R435: whether an epoch in force in domain `k` covers a slot of port `p`. -/
def State.covered (s : State) (k p slot : Nat) : Bool :=
  (List.range 4).any fun q => ((s.inForceGraph q k).sinksOn p).any fun n => s.coversSlot p slot n

/-- R438: whether plane-fed outputs of domain `k` are silent: Rescue, or waiting for the fade-in tick of R301. -/
def State.rescueSilence (s : State) (k : Nat) : Bool :=
  s.clk.rescue || !s.clk.recommit.isEmpty || s.setter.armed.any fun a =>
    a.law == .fadeIn && a.old == a.new && a.doms.testBit k && decide (s.period k < a.f.getD k 0)

/-- R436: declared ports whose covering domain does not run at 48 kHz, or that an epoch puts on an own clock, are released. -/
def State.lifeReleases (s : State) (k : Nat) : State :=
  let gs := (List.range 4).map fun q => s.inForceGraph q k
  (s.clasp.ports.map (·.port)).foldl (fun s p =>
    let ns := gs.flatMap fun g => g.sinksOn p
    if !s.clasp.declared p then s
    else if ns.any fun n => n.dom == 0xFF then s.withClasp fun c => c.release p 3
    else if (ns.any fun n => n.dom == k) && s.hz k != 48000 then s.withClasp fun c => c.release p k
    else s) s

/-- Logical channels of a port's output. -/
def portChans (p : Nat) : Nat :=
  match portKind p with
  | .tdm => 32
  | .madi => 64
  | _ => 2

/-- R337, R373: V, U and C of both subframes that an AES3 output of rate code `rate` sends. -/
def aesBits (p : Nat) (q : SerPort) (rate : Nat) : List Bool :=
  if portKind p != .aesOut then []
  else if q.vucFrom.isSome then q.vuc
  else
    let c := csBit q rate q.blkPos
    [false, false, c, false, false, c]

/-- The label bits of the pair that feeds an AES3 output, to be sent with the samples read now (R337). -/
def State.nextBits (s : State) (q : SerPort) : List Bool :=
  match q.vucFrom with
  | some (x, ch) =>
    let l := (s.net.rxc x).vuc
    [0, 1].flatMap fun i => [0, 1, 2].map fun b => Nat.testBit (l.getD (ch + i) 0) b
  | none => q.vuc

/-- R435: the merge stage over the slots of port `p`; after a release the plane output ramps in (R436). -/
def State.mergeOut (s : State) (k p : Nat) (slots : List (Option Nat)) : State × List (Option Nat) :=
  let fading := fun (c : Clasp) => (c.portOf p).any fun q => q.released && decide (q.fade < 32)
  let r := s.clasp.merge p (s.covered k p) (s.rescueSilence k) slots
  let t := { s with clasp := r.1 }
  let t := if fading s.clasp && !fading r.1 then
      t.withPorts fun x => x.setPort p { x.port p with outFade := { (x.port p).outFade with phase := .rampBack 0 } }
    else t
  (t, r.2)

/-- Whether a declared port still runs on the lifeline clock. -/
def State.onLifeline (s : State) (p : Nat) : Bool := (s.clasp.portOf p).any fun q => q.dom.isNone && !q.released

/-- R361, R300: one output of the domain: its frame goes out, or waits for the slave's next frame start, and the next one is read. -/
def State.portOut (s : State) (k n p : Nat) : State :=
  let q := s.ports.port p
  let xs := (List.range (portChans p)).map fun c => match q.outs.find? (·.1 == c) with
    | some o => s.sinkValue k n o.2
    | none => 0
  if isSlave p q && q.dom == k && !s.clasp.declared p then s.withPorts fun x => x.queueTick p xs else
  let bits := aesBits p q (s.dom k).rate
  let nb := s.nextBits q
  let r := s.ports.outputTick p xs
  let s := { s with ports := r.2 }
  let s := s.withPorts fun x => if q.vucFrom.isSome then x.setPort p { x.port p with vuc := nb } else x
  let base : Option (List (Option Nat)) :=
    match r.1 with
    | some ys => some (outFrame p q (if s.clk.rescue then ys.map fun _ => 0 else ys))
    | none => (s.clasp.portOf p).bind fun c => if c.dom = some k then some (List.replicate c.width (some 0)) else none
  match base with
  | none => s
  | some slots =>
    if s.onLifeline p then s
    else
      let m := s.mergeOut k p slots
      m.1.emit (.txFrame p m.2 bits)

/-- The outputs of the domain, with declared ports whose clock has moved to it. -/
def State.portOutTick (s : State) (k n : Nat) : State :=
  ((List.range 36).filter fun p => hasOutput p && ((s.ports.port p).dom == k || (s.clasp.portOf p).any fun c => c.dom == some k)).foldl
    (fun s p => s.portOut k n p) s

/-! ### Taps and meters (R413 to R417) -/

/-- R416: one block read of a play tap that is due. -/
def State.tapRead (s : State) (p t : Nat) (b : Nat × Nat) : State :=
  let tp := (s.host.part p).tap t
  let off := (b.1 % max 1 tp.frames_) * tp.frameLen
  let len := tp.blk * tp.frameLen
  let put := fun (s : State) (u : Tap) => s.withHost fun h => h.modPart p fun q => q.setTap t u
  if spaceOf tp.lo then
    let x := s.xramRead p (xramBase tp.lo + off) len
    put x.1 ({ tp with reads := tp.reads ++ [b] }.readDone x.2)
  else if s.host.reach p tp.lo then
    (put s { tp with reads := tp.reads ++ [b] }).emit (.busRead p (hostBase tp.lo tp.hi + off) len)
  else s

/-- R371, R421: the flag UND of a tap rises. -/
def State.tapUnd (s : State) (p : Nat) (was : Bool) (t : Nat) (begins : Bool) (k : Nat) : State :=
  let s := if begins then s.withHost fun h => { h with rep := h.rep ++ [(0x0806, p, k)] } else s
  if ((s.host.part p).tap t).und && !was then s.withHost fun h => h.irq p 9 else s

/-- One tap at a tick of its node's domain. -/
def State.tapTick (s : State) (k n p t : Nat) : State :=
  let put := fun (s : State) (u : Tap) => s.withHost fun h => h.modPart p fun q => q.setTap t u
  let tp := ((s.host.part p).tap t).startAt n
  let s := put s tp
  match tp.node with
  | some nd =>
    if nd.dom ≠ k ∨ ¬ tp.run then s
    else if nd.play then
      let s := (tp.dueReads n).foldl (fun s b => s.tapRead p t b) s
      let u := (s.host.part p).tap t
      let r := u.play n
      let s := (put s r.2.1).tapUnd p u.und t r.2.2 k
      ((nd.sids.map (·.b)).zip r.1).foldl (fun s w => s.writeSid k 8 p w.1 w.2) s
    else put s (tp.record n (nd.sids.map (s.sinkValue k n)))
  | none => s

/-- R413: the taps whose nodes lie in the domain. -/
def State.tapsTick (s : State) (k n : Nat) : State :=
  (List.range 4).foldl (fun s p =>
    (((s.host.part p).taps.filter fun e => e.2.node.any fun d => d.dom == k).map Prod.fst).foldl (fun s t => s.tapTick k n p t) s) s

/-- R417: the meters of the domain read their inputs. -/
def State.meterTick (s : State) (k : Nat) : State :=
  (List.range 4).foldl (fun s p => s.withHost fun h => h.modPart p fun q =>
    { q with meters := q.meters.map fun m => if m.dom = k then m.take (m.sids.map (s.readSid k)) else m }) s

/-! ### The tick -/

/-- R317, R354, R387: a step that has begun at this tick moves the streams' offset and makes the lanes relock. -/
def State.stepBegins (s : State) (k : Nat) (was : DomPhase) : State :=
  let d := s.dom k
  if d.st = .stepping ∧ was ≠ .stepping then
    let n := stepCount d.e (rateHz d.rate)
    ((s.withLinks fun l => l.stepped k).withClk fun c => c.modDom k fun d => { d with moved := d.moved + n }).withNet fun x => x.stepOffset k (s.period k) n
  else s

/-- The clock part of a tick: the count, the phase error, POLICY, steps, the flip of the buffers. -/
def State.clockTick (s : State) (k ns : Nat) (e : Int) : State :=
  let was := (s.dom k).st
  let s := (s.at_ ns).withClk fun c => c.tick k ns e
  (s.flip k (s.period k)).stepBegins k was

/-- What stands in the plane's way: everything that runs on the core clock. -/
def State.unitTick (s : State) (k n ns : Nat) : State :=
  let s := s.constTick k
  let s := if s.facetsRun then s.facetTick k n else s
  let s := if s.tilesRun then s.tileTick k n else s
  let s := if s.blockUp 2 then { s with ports := s.ports.startTick k n ns (s.hz k) } else s
  let s := ((s.txTick k n).tapsTick k n).meterTick k
  let s := (s.portInTick k ns).portOutTick k n
  let s := (s.rxTick k n).rxOwnTick k ns
  if s.clk.rescue then s else s.linkTick k ns

/-- A tick of domain `k` at PTP instant `ns` with phase error `e` (R31). In Standby the domain counts on and nothing else
happens (R307, R461). -/
def State.domainTick (s : State) (k ns : Nat) (e : Int) (late : List (Nat × Nat)) : State :=
  let s := if s.working then s.allLate k late else s
  let s := s.clockTick k ns e
  if !s.awake then s
  else
    let n := s.period k
    let s := ((s.commitTick k n).lifeReleases k).unitTick k n ns
    s.drainGains.cleanup

end Sys2Proof.Machine
end

