-- ==== Sys2Proof/Machine/UnitOps.lean ====
section
/-!
DEFINITION. Meanings of the commands of the tick, the control fabric, the Facets and the tiles (R19, R25, R26, R31, R82 to
R89, R152, R188 to R194, R262).
-/

namespace Sys2Proof.Machine

/-! ### Ticks -/

/-- R31: whether a tick of domain `k` can reach the core clock. -/
def State.ticks (s : State) (k : Nat) : Bool :=
  (s.dom k).st != .stopped && (s.awake || s.power.phase == .standby)

/-- DOMAIN_TICK (R31). -/
def execDomainTick (k ns : Nat) (e : Int) (late : List (Nat × Nat)) (s : State) : Host.Outcome State Fault Refusal :=
  done s (.domainTick k ns e late) (s.ticks k) (s.domainTick k ns e late)

/-! ### The control fabric (R19, R25, R26) -/

/-- Whether Setter core `n` runs: SC0 from the core PLL's lock on, the others once S2 releases them (R424, R445). -/
def State.coreRuns (s : State) (n : Nat) : Bool :=
  s.awake && (if n = 0 then s.boot.at_ != .wait && s.boot.at_ != .halt else Nat.testBit s.boot.rel (n - 1))

/-- R26: a hole reads 0, discards a write and is reported with its requester. -/
def State.hole (s : State) (core : Nat) : State := s.report 0x302 16 core false

/-- R70: an access to a Facet's window. -/
def State.facetWindow (s : State) (core n o : Nat) (wr : Option Word) : State × Word :=
  let s := s.ungate 0 n
  match wr with
  | some v => match (s.facet n).writeWin o v with
    | some f => (s.setFacet n f, 0)
    | none => (s.hole core, 0)
  | none =>
    let r := (s.facet n).readWin n o
    match r.2 with
    | some v => (s.setFacet n r.1, v)
    | none => (s.hole core, 0)

/-- R35, R177: what replica buffer `b` holds of a SID: its value in the domain whose graph writes it. DESIGN CHOICE: a word whose
valid bit is clear reads 0, and of a SID that two domains hold the lower one shows. -/
def State.replicaWord (s : State) (b sid : Nat) : Word :=
  (((List.range 3).filterMap fun k => (s.plane.find? fun e => e.1 == sid + planeSize * (2 * k + b)).map (·.2.val)).head?).getD 0

/-- R178, R192: an access to a tile's window. -/
def State.tileWindow (s : State) (core n o : Nat) (wr : Option Word) : State × Word :=
  let s := s.ungate 1 n
  match wr with
  | some v =>
    if o = 0x1F0024 then (s.pushTile n v, 0)
    else match (s.tile n).writeWin o v with
    | some t => (s.setTile n t, 0)
    | none => (s.hole core, 0)
  | none =>
    let t := s.tile n
    let r := t.readWin s.replicaWord n o
    match r.2 with
    | some v => (s.setTile n r.1, v)
    | none => (s.hole core, 0)

/-- R25, R290, R291: a core's access to a DRAM window; a channel's part that is not populated is a hole. While the channel is in
self-refresh or others wait there, it waits too, and is served at a DRAM_ACCESS (DESIGN CHOICE, log 87: else at once). -/
def State.dramRequest (s : State) (core addr : Nat) (wr : Option Word) : State :=
  let ch := (addr - 0x1000000000) / 0x200000000
  let w := addr % 0x200000000 / 4
  let q : DramReq := match wr with
    | some v => ⟨.core core, w, 0, [v]⟩
    | none => ⟨.core core, w, 1, []⟩
  if !s.dram.inRegion ch w 1 then (s.hole core).answer (.core core) addr wr 0
  else if s.dram.selfRef || s.dram.waiting.any (·.1 == ch) then s.withDram fun d => { d with waiting := d.waiting ++ [(ch, q)] }
  else
    let r := s.dram.access ch q
    { s with dram := r.1 }.answer (.core core) addr wr (r.2.headD 0)

/-- R25, R26: an access of core `core` to the internal address map beyond the banks and DRAM: the state after it and what a read returns. -/
def State.fabric (s : State) (core addr : Nat) (wr : Option Word) : State × Word :=
  if addr < 0x1040000 then
    let r := s.mem.portA core ((addr - 0x1000000) / 4) wr
    ({ s with mem := r.1 }, r.2)
  else if addr < 0x1080000 then
    let r := s.mem.locketAccess (.core core) ((addr - 0x1040000) / 4) wr
    ({ s with mem := r.1 }, r.2)
  else if 0x2000000 ≤ addr ∧ addr < 0x4000000 then
    s.facetWindow core ((addr - 0x2000000) / 0x80000) (addr % 0x80000) wr
  else if 0x4000000 ≤ addr ∧ addr < 0x8000000 then
    s.tileWindow core ((addr - 0x4000000) / 0x200000) (addr % 0x200000) wr
  else if 0x8000000 ≤ addr ∧ addr < 0x8100000 then
    match wr with
    | some v => (s.writeReg 6 (addr - 0x8000000) v, 0)
    | none => (s.readLatch 6 (addr - 0x8000000), s.readReg 6 (addr - 0x8000000))
  else if 0x9000000 ≤ addr ∧ addr < 0x9400000 then
    let w := (addr - 0x9000000) / 4
    match wr with
    | some v => ({ s with sram := Memory.set zeroW s.sram w v }, 0)
    | none => (s, Memory.get zeroW s.sram w)
  else if 0xA000000 ≤ addr ∧ addr < 0xA010000 then
    (s, if wr.isNone ∧ core = 0 then Config.bootRom ((addr - 0xA000000) / 4) else 0)
  else if 0x10000000 ≤ addr ∧ addr < 0x20000000 then
    (s, if wr.isNone then BitVec.ofNat 32 (leNat (Memory.getRun erased s.boot.flash (addr - 0x10000000) 4)) else 0)
  else (s.hole core, 0)

/-- What a bank returns to a requester that reads or makes an atomic. -/
def State.returned (s : State) (r : Option (BankReq × Word)) : State :=
  match r with
  | none => s
  | some (q, v) => match q.op, q.who with
    | .write _, _ => s
    | .partWrite _ _, _ => s
    | _, .core n => s.emit (.core n (4 * q.addr) v)
    | _, w => s.emit (.bank w q.addr v)

/-- R261, R264: an access of a core or of host DMA to its bank: it waits where others do, and starts at a BANK_ACCESS then. DESIGN
CHOICE (log 87): with none waiting it starts at once. -/
def State.bankRequest (s : State) (q : BankReq) : State :=
  if s.mem.contended q.who (bankOf q.addr) then s.withMem fun m => m.present [q]
  else
    let r := s.mem.access q
    { s with mem := r.1 }.returned (some (q, r.2))

/-- CONTROL_FABRIC_ACCESS: one word access, answered when it reads. -/
def State.coreAccess (s : State) (core addr : Nat) (wr : Option Word) : State :=
  if addr < 0x1000000 then
    s.bankRequest ⟨.core core, addr / 4, match wr with
      | some v => .write v
      | none => .read⟩
  else if 0x1000000000 ≤ addr ∧ addr < 0x1400000000 then s.dramRequest core addr wr
  else
    let r := s.fabric core addr wr
    r.1.answer (.core core) addr wr r.2

def execControlFabricAccess (core addr : Nat) (wr : Option Word) (s : State) : Host.Outcome State Fault Refusal :=
  done s (.controlFabricAccess core addr wr) (s.coreRuns core && addr % 4 == 0) (s.coreAccess core addr wr)

/-! ### Facets -/

/-- R88: the gather of Facet `n` ends. -/
def State.gathered (s : State) (n : Nat) : State :=
  let f := s.facet n
  s.setFacet n (f.gather (s.readSid f.domain))

def execFacetGatherDone (facet : Nat) (s : State) : Host.Outcome State Fault Refusal :=
  done s (.facetGatherDone facet) (s.facetsRun && (s.facet facet).st == .gather) (s.gathered facet)

/-- R82: Facet `n` issues one bundle. -/
def State.issued (s : State) (n : Nat) : State := s.modFacet n fun f => f.issue n (s.period f.domain)

def execBundleIssue (facet : Nat) (s : State) : Host.Outcome State Fault Refusal :=
  done s (.bundleIssue facet) (s.facetsRun && (s.facet facet).issuing) (s.issued facet)

/-- OPERATION_LANDING (R82, R86): a core cycle without an issue brings operations in flight to their landing. Those of a
Facet that issues land at its bundle boundaries. -/
def execOperationLanding (facet : Nat) (s : State) : Host.Outcome State Fault Refusal :=
  let f := s.facet facet
  done s (.operationLanding facet) (s.facetsRun && !f.u.flight.isEmpty && !f.issuing && f.stall.isNone)
    (s.modFacet facet Facet.idleCycle)

/-- The bank access of a stalled Facet (R117, R260). -/
def sbOp (q : SbReq) : BankOp :=
  match q.kind with
  | .ld => .read
  | .st => .write q.data
  | .addW => .addW q.data
  | .addS => .addS q.data
  | .swap => .swap q.data

/-- R262: the bank completes the access for which Facet `n` stalls. -/
def State.stallEnds (s : State) (n : Nat) : State :=
  let f := s.facet n
  match f.stall with
  | none => s
  | some q =>
    let r := s.mem.access ⟨.facet n, q.addr, sbOp q⟩
    { s with mem := r.1 }.setFacet n (f.endStall (s.period f.domain) r.2)

def execSharedBankStallEnd (facet : Nat) (s : State) : Host.Outcome State Fault Refusal :=
  done s (.sharedBankStallEnd facet) (s.facetsRun && (s.facet facet).stall.isSome) (s.stallEnds facet)

/-- R152: whether the bundle about to issue ends a loop whose counter runs out. -/
def Facet.loopEnding (f : Facet) : Bool :=
  (f.st == .sample || f.st == .background)
    && (loopEnds f.u (frameSet f.st) f.u.pc).2.any fun e => match e.2 with
      | .frame _ fr => !fr.active
      | _ => false

/-- LOOP_EXIT (R152): the bundle at a loop's END issues, its counter having run out: a BUNDLE_ISSUE by another name. -/
def execLoopExit (facet : Nat) (s : State) : Host.Outcome State Fault Refusal :=
  done s (.loopExit facet) (s.facetsRun && (s.facet facet).issuing && (s.facet facet).loopEnding) (s.issued facet)

/-- R89, R159: the post of Facet `n` has written its list. -/
def State.posted (s : State) (n cyc : Nat) : State :=
  let f := s.facet n
  let r := f.postRange 0 4096
  (s.setFacet n (r.1.complete cyc)).writeSids f.domain 1 n r.2

def execFacetPostDone (facet cyc : Nat) (s : State) : Host.Outcome State Fault Refusal :=
  done s (.facetPostDone facet cyc) (s.facetsRun && (s.facet facet).st == .post) (s.posted facet cyc)

/-! ### Tiles -/

/-- R188, R190: tile `n` ends its accumulation: results go to the plane and to the words of cross-tile sinks. -/
def State.accumulated (s : State) (n cyc : Nat) : State :=
  let t := s.tile n
  let k := t.domain
  s.tileOut k n (t.accumulate (s.readSid? k) (s.period k + 1) (s.period k) cyc)

def execTileAccumulationDone (tile cyc : Nat) (s : State) : Host.Outcome State Fault Refusal :=
  done s (.tileAccumulationDone tile cyc) (s.tilesRun && (s.tile tile).busy) (s.accumulated tile cyc)

/-- UPDATE_PUSH (R192, R193): a write of FIL_UPD_D. -/
def execUpdatePush (tile : Nat) (apply : Word) (s : State) : Host.Outcome State Fault Refusal :=
  done s (.updatePush tile apply) s.awake ((s.ungate 1 tile).pushTile tile apply)

/-- Whether tile `t` has an item of gain phase `p` that it has yet to handle in period `n`. -/
def Tile.gainDue (t : Tile) (p n : Nat) : Bool :=
  t.busy && t.queue.any fun q => gainPhase q n == p && q.last != some n

/-- R194: tile `n` handles its items of gain phase `p` in the period that is open. -/
def State.gains (s : State) (n p : Nat) : State :=
  s.modTile n fun t => t.published.handleAll (s.readSid? t.domain) (s.period t.domain + 1) (s.period t.domain) (· == p)

/-- R194: the wait for a crossing has expired and the ramp begins. -/
def execGainTimeout (tile : Nat) (s : State) : Host.Outcome State Fault Refusal :=
  done s (.gainTimeout tile) (s.tilesRun && (s.tile tile).gainDue 2 (s.period (s.tile tile).domain)) (s.gains tile 2)

/-- R194: a ramp reaches its target and its slot is freed. -/
def execGainRampDone (tile : Nat) (s : State) : Host.Outcome State Fault Refusal :=
  done s (.gainRampDone tile) (s.tilesRun && (s.tile tile).gainDue 4 (s.period (s.tile tile).domain)) (s.gains tile 4)

end Sys2Proof.Machine
end

