-- ==== Sys2Proof/Machine/MemoryOps.lean ====
section
/-!
DEFINITION. Meanings of the commands of the shared banks, the scrubber, memory BIST, the Exchange RAM and the host DMA
windows (R258 to R282). A disturbance in a Facet's or a tile's memory counts its word as unit × 2^20 + word.
-/

namespace Sys2Proof.Machine

/-! ### Disturbances -/

/-- Whether a memory lies inside a Facet, inside a tile, is DRAM; the others are shared memories. -/
def eccInFacet (m : EccMem) : Bool :=
  match m with
  | .prog0 | .prog1 | .facX | .facY | .facZ => true
  | _ => false

def eccInTile (m : EccMem) : Bool :=
  match m with
  | .entry | .replica | .sinkTab | .slot => true
  | _ => false

/-- R35: whether replica word `i` of a tile of domain `k` is still to be written before it is read. -/
def State.replicaStale (s : State) (k i : Nat) : Bool :=
  i / 32768 == s.period k % 2 && !(s.plane.any fun e => e.1 == planeKey k (s.period k) (i % 32768))

/-- A disturbance strikes a word. -/
def State.strike (s : State) (u : Upset) : State :=
  let v : Upset := { u with idx := u.idx % 2 ^ 20 }
  let n := u.idx / 2 ^ 20
  if eccInFacet u.mem then (if n < 64 then s.modFacet n fun f => f.upset [v] else s)
  else if eccInTile u.mem then
    (if n < 32 ∧ ¬ (u.mem = .replica ∧ s.replicaStale (s.tile n).domain v.idx) then s.modTile n fun t => t.upset [v] else s)
  else if u.mem = .dram then s.withDram fun d => d.upset [u]
  else s.withMem fun m => m.upset [u]

def State.strikes (s : State) (ups : List Upset) : State := ups.foldl State.strike s

/-! ### Shared banks -/

/-- R262, R263: whether the Facet that owns bank `b`'s windows stalls for an access to it. -/
def State.ownerWaits (s : State) (b : Nat) : Bool := (s.facet (b / 2)).stall.any fun q => bankOf q.addr == b

/-- R259, R261 to R267: a core cycle of bank `b`: new requests are presented and the first waiting one starts. An atomic
and a partial write answer when they complete. -/
def State.bankCycle (s : State) (b t : Nat) (arrive : List BankReq) (ups : List Upset) : State :=
  let s := s.strikes ups
  let r := (s.mem.present arrive).start b t (s.ownerWaits b)
  { s with mem := r.1 }.returned (r.2.filter fun x => !opTwoCycle x.1.op)

def execBankAccess (bank cycle : Nat) (arrive : List BankReq) (ups : List Upset) (s : State) :
    Host.Outcome State Fault Refusal :=
  done s (.bankAccess bank cycle arrive ups) s.awake (s.bankCycle bank cycle arrive ups)

/-- R259: the second cycle of an atomic or a partial write ends. -/
def State.bankCompletes (s : State) (b : Nat) : State :=
  let r := s.mem.complete b
  { s with mem := r.1 }.returned r.2

def execAtomicComplete (bank : Nat) (s : State) : Host.Outcome State Fault Refusal :=
  done s (.atomicComplete bank) (s.awake && s.mem.completing.any fun e => bankOf e.1.addr == bank) (s.bankCompletes bank)

/-- R264. -/
def execPacerRelease (bank cycle : Nat) (s : State) : Host.Outcome State Fault Refusal :=
  done s (.pacerRelease bank cycle) (s.awake && s.mem.held.any fun q => bankOf q.addr == bank)
    (s.withMem fun m => m.paceRelease bank cycle)

/-! ### Scrubber (R97, R200, R267, R268) -/

/-- Memories inside a Facet in the order of the pass, with their words. -/
def facetScrub : List (EccMem × Nat) := [(.prog0, 16384), (.prog1, 16384), (.facX, 16384), (.facY, 32768), (.facZ, 16384)]
def tileScrub : List (EccMem × Nat) := [(.entry, 327680), (.replica, 65536), (.sinkTab, 32768), (.slot, 8192)]

/-- The memory and the word at place `i` of a list of memories. -/
def scrubPlace : List (EccMem × Nat) → Nat → Option (EccMem × Nat)
  | [], _ => none
  | (m, n) :: r, i => if i < n then some (m, i) else scrubPlace r (i - n)

def scrubTotal (l : List (EccMem × Nat)) : Nat := l.foldl (fun n e => n + e.2) 0

/-- R268: the scrubber reads a word of a Facet; a corrected one is written back and reported (R97). -/
def Facet.scrub (f : Facet) (m : EccMem) (i : Nat) : Facet :=
  if markOf f.m.bad m i = some false then
    let g := f.setStat facEccCe
    { g with m := { g.m with bad := unmark g.m.bad m i } }
  else f

def Tile.scrub (t : Tile) (m : EccMem) (i : Nat) : Tile :=
  if markOf t.bad m i = some false then
    let u := t.setStat filEccCe
    { u with bad := unmark u.bad m i }
  else t

/-- R267, R268: the scrubber reads a word of a shared memory; a corrected one is written back. -/
def MemSys.scrub (m : MemSys) (e : EccMem) (i : Nat) : MemSys :=
  let r := (m.fetch e i .scrubber).1
  if markOf m.bad e i = some false then { r with bad := unmark r.bad e i } else r

/-- Words of the shared memories in one pass: banks, Exchange RAM, Locket. -/
def sharedScrub : Nat := bankWords + 65536 + 65536

/-- Words of the Setter local memory; no rule gives them error marks. -/
def setterScrub : Nat := 2 ^ 20

/-- R268, R462: the read at place `pos` of the pass, which ungates the unit it reaches. A retired bank's words are holes and are
passed over. -/
def State.scrubAt (s : State) (pos : Nat) : State :=
  let nf := scrubTotal facetScrub
  let nt := scrubTotal tileScrub
  if pos < bankWords then
    if s.mem.retired.contains (bankOf pos) then s
    else s.withMem fun m => let c := m.copy pos; m.scrub c.1 c.2
  else if pos < bankWords + 65536 then s.withMem fun m => m.scrub .xram (pos - bankWords)
  else if pos < sharedScrub then s.withMem fun m => m.scrub .locket (pos - bankWords - 65536)
  else
    let q := pos - sharedScrub
    if q < 64 * nf then
      match scrubPlace facetScrub (q % nf) with
      | some (m, i) => (s.ungate 0 (q / nf)).modFacet (q / nf) fun f => f.scrub m i
      | none => s
    else if q < 64 * nf + 32 * nt then
      match scrubPlace tileScrub ((q - 64 * nf) % nt) with
      | some (m, i) => (s.ungate 1 ((q - 64 * nf) / nt)).modTile ((q - 64 * nf) / nt) fun t => t.scrub m i
      | none => s
    else s

/-- The places of a whole pass. -/
def scrubPlaces : Nat := sharedScrub + 64 * scrubTotal facetScrub + 32 * scrubTotal tileScrub + setterScrub

/-- R268: a pass over the shared banks ends at uptime `now`: it counts, and an overrun is reported. -/
def MemSys.passEnds (m : MemSys) (now : Nat) : MemSys :=
  let m := { m with r := { m.r with passes := (m.r.passes + 1) % 65536 } }
  if 4 * (now - m.scrubStart) > 5 * (1000 * m.r.periodMs) then m.note memScrubLate 4 0 0 else m

/-- R268: the scrubber reads its next word. -/
def State.scrubRead (s : State) (ups : List Upset) : State :=
  let s := s.strikes ups
  let pos := s.mem.scrubPos % scrubPlaces
  let s := if pos = 0 then s.withMem fun m => { m with scrubStart := s.us } else s
  let s := s.scrubAt pos
  let s := if pos + 1 = bankWords then s.withMem fun m => m.passEnds s.us else s
  s.withMem fun m => { m with scrubPos := (pos + 1) % scrubPlaces }

/-- R261: whether the scrubber's next read finds its bank free of other accesses. -/
def State.scrubFree (s : State) : Bool :=
  let pos := s.mem.scrubPos % scrubPlaces
  !(decide (pos < bankWords) && s.mem.contended .scrubber (bankOf pos))

def execScrubRead (ups : List Upset) (s : State) : Host.Outcome State Fault Refusal :=
  done s (.scrubRead ups) (s.awake && s.mem.r.ctl.flag 0 && s.scrubFree) (s.scrubRead ups)

/-! ### Lending and test (R269 to R272) -/

def execBistLendStart (s : State) : Host.Outcome State Fault Refusal := done s .bistLendStart s.awake (s.withMem MemSys.lend)

def execBistWordMove (s : State) : Host.Outcome State Fault Refusal :=
  done s .bistWordMove (s.awake && (s.mem.phase == .copyOut || s.mem.phase == .copyBack) && !s.mem.contended .bist s.mem.bistBank)
    (s.withMem MemSys.moveWord)

def execMarchTestDone (faulty : Bool) (s : State) : Host.Outcome State Fault Refusal :=
  done s (.marchTestDone faulty) (s.awake && s.mem.phase == .test) (s.withMem fun m => m.marchDone faulty)

/-! ### Exchange RAM (R273 to R275) -/

/-- R273: an access through port A that meets none at port B. -/
def State.portA (s : State) (core word : Nat) (wr : Option Word) : State :=
  let r := s.mem.portA core word wr
  { s with mem := r.1 }.answer (.core core) (0x01000000 + 4 * word) wr r.2

def execXramPortAAccess (core word : Nat) (wr : Option Word) (s : State) : Host.Outcome State Fault Refusal :=
  done s (.xramPortAAccess core word wr) (s.coreRuns core) (s.portA core word wr)

/-- R273 to R275: an access through port B with the port-A access that coincides, if any: the state, the data that port B
reads, and whether port B was warned. The data that R274 leaves undefined is an open value. -/
def State.portB (s : State) (b : PortB) (co : Option CoA) : State × Word × Bool :=
  let t := s.take 1
  let r := t.2.mem.portB b co (Config.freeWord t.1)
  let s := { t.2 with mem := r.m }
  let s := match co with
    | some c => s.answer (.core c.core) (0x01000000 + 4 * b.word) c.wr r.dataA
    | none => s
  (s, r.dataB, r.warnB)

/-- The partition for which a source of port B acts (R275). -/
def State.portBPart (s : State) (src : Nat) (part : Nat) : Bool :=
  if src = 0 then part < 4 else (s.host.view (3 + src)).getD 4 == part

def State.portBAccess (s : State) (b : PortB) (co : Option CoA) : State :=
  let r := s.portB b co
  let s := if b.wr.isNone then r.1.emit (.xram b.src b.word r.2.1) else r.1
  if r.2.2 ∧ b.src ≠ 0 then
    (s.emit (.busy (b.src - 1))).withHost fun h => h.setSpi (b.src - 1) { h.spi (b.src - 1) with conflict := true }
  else s

def execXramPortBAccess (b : PortB) (co : Option CoA) (s : State) : Host.Outcome State Fault Refusal :=
  done s (.xramPortBAccess b co) (s.awake && s.served && s.portBPart b.src b.part) (s.portBAccess b co)

/-! ### Host DMA (R278) -/

/-- HOST_DMA_ACCESS: an access outside the partition's windows is refused; one inside competes at its bank. -/
def State.dmaAccess (s : State) (pf part addr : Nat) (op : BankOp) : State :=
  let page := addr / 1024 % 4096
  if s.mem.dmaPermits part page (opWrites op) then s.bankRequest ⟨.dma pf, addr, op⟩
  else (s.withMem fun m => m.refuseDma part page (opWrites op)).returned (some (⟨.dma pf, addr, op⟩, 0))

def execHostDmaAccess (pf part addr : Nat) (op : BankOp) (s : State) : Host.Outcome State Fault Refusal :=
  done s (.hostDmaAccess pf part addr op) (s.awake && s.host.pcie.bme.testBit pf) (s.dmaAccess pf part addr op)

end Sys2Proof.Machine
end

