-- ==== Sys2Proof/Machine/DramOps.lean ====
section
/-!
DEFINITION. Meanings of the commands of external memory and the delay-line stream engine (R143 to R145, R284 to R297).
-/

namespace Sys2Proof.Machine

/-- The base of a channel's window (R25). -/
def dramBase (ch : Nat) : Nat := 0x1000000000 + 0x200000000 * ch

/-- R286, R290, R291: accesses arrive at a channel's controller and the first is served. -/
def State.dramServe (s : State) (ch : Nat) (arrive : List DramReq) (ups : List Upset) : State :=
  let s := s.strikes ups
  let r := s.dram.serve ch arrive
  let s := { s with dram := r.1 }
  match r.2 with
  | some (q, vs) => match q.who with
    | .core n => ((List.range vs.length).zip vs).foldl (fun s x => s.emit (.core n (dramBase ch + 4 * (q.word + x.1)) x.2)) s
    | _ => s
  | none => s

def execDramAccess (ch : Nat) (arrive : List DramReq) (ups : List Upset) (s : State) : Host.Outcome State Fault Refusal :=
  done s (.dramAccess ch arrive ups) (s.awake && s.dram.trained) (s.dramServe ch arrive ups)

/-- A number that a channel counts. -/
def bumpCh (ch : Nat) (c : Nat × Nat) : Nat × Nat := if ch = 0 then (c.1 + 1, c.2) else (c.1, c.2 + 1)

/-- Whether the controllers serve: trained, out of self-refresh, the device awake (R287, R290). -/
def State.dramServes (s : State) : Bool := s.awake && s.dram.trained && !s.dram.selfRef

/-- R287: a DQS tracking pass. What it adjusts is no state of the spec; the model counts the passes. -/
def execDqsTracking (ch : Nat) (s : State) : Host.Outcome State Fault Refusal :=
  done s (.dqsTracking ch) s.dramServes (s.withDram fun d => { d with dqsRuns := bumpCh ch d.dqsRuns })

/-- R289. -/
def execMr4Read (ch : Nat) (codes : List Nat) (s : State) : Host.Outcome State Fault Refusal :=
  done s (.mr4Read ch codes) (s.dramServes && !codes.isEmpty) (s.withDram fun d => d.mr4 ch codes)

/-- R289: a refresh keeps what is stored; the model counts it. -/
def execDramRefresh (ch : Nat) (s : State) : Host.Outcome State Fault Refusal :=
  done s (.dramRefresh ch) s.dramServes (s.withDram fun d => { d with refreshes := bumpCh ch d.refreshes })

/-- R291: nothing waits at the channel that the scrubber reads. -/
def execDramScrubRead (ups : List Upset) (s : State) : Host.Outcome State Fault Refusal :=
  done s (.dramScrubRead ups) (s.dramServes && s.dram.ctl.flag 0 && s.dram.waiting.all fun e => e.1 != s.dram.scrubNext.1)
    ((s.strikes ups).withDram DramSys.scrub)

/-- R290: CREF is lost; both channels go into self-refresh and accesses wait. -/
def execDramCrefLoss (s : State) : Host.Outcome State Fault Refusal :=
  done s .dramCrefLoss s.dramServes (s.withDram fun d => { d with selfRef := true })

/-- R290: CREF is back and the DRAM PLL locked: self-refresh ends with one DQS tracking pass. -/
def DramSys.resume (d : DramSys) : DramSys := { d with selfRef := false, dqsRuns := (d.dqsRuns.1 + 1, d.dqsRuns.2 + 1) }

def execDramCrefReturn (s : State) : Host.Outcome State Fault Refusal :=
  done s .dramCrefReturn (s.awake && s.dram.trained && s.dram.selfRef) ((s.withDram DramSys.resume).withClk fun c => { c with crefLost := false })

/-! ### Stream engine (R144, R145, R293) -/

/-- An operation on a delay line and its Facet. -/
def State.onLine (s : State) (id : Nat) (f : DramLine → DramSys × Facet) : State :=
  match s.dram.line id with
  | some l =>
    let r := f l
    { s with dram := r.1 }.setFacet l.facet r.2
  | none => s

/-- Whether a line is served and `p` holds of it and of its domain's open period. -/
def State.lineReady (s : State) (id : Nat) (p : DramLine → Nat → Bool) : Bool :=
  match s.dram.line id with
  | some l => s.dramServes && p l (s.period l.dom)
  | none => false

/-- R144, R293: periods 16q to 16q + 15 have been written and their slots hold them still. -/
def execStreamBurstWrite (line q : Nat) (s : State) : Host.Outcome State Fault Refusal :=
  done s (.streamBurstWrite line q) (s.lineReady line fun _ t => 16 * q + 15 ≤ t && t < 16 * q + 256)
    (s.onLine line fun l => s.dram.burstWrite l q (s.facet l.facet))

/-- R144, R293: the kernel has read the slots of periods 16q to 16q + 15, which have not been fetched before. -/
def execStreamBurstFetch (line q : Nat) (s : State) : Host.Outcome State Fault Refusal :=
  done s (.streamBurstFetch line q) (s.lineReady line fun l t => 16 * q + 15 ≤ t + 256 && l.upto < 16 * q + 16)
    (s.onLine line fun l => s.dram.burstFetch l q (s.period l.dom) (s.facet l.facet))

/-- R145: at the tick of period `n` − 1 its word has not arrived. The deadline passes in self-refresh too. -/
def execStreamDeadlineMiss (line n : Nat) (s : State) : Host.Outcome State Fault Refusal :=
  done s (.streamDeadlineMiss line n)
    (match s.dram.line line with
      | some l => s.awake && s.period l.dom + 1 == n && l.upto ≤ n
      | none => false)
    (s.onLine line fun l => s.dram.miss l n (s.facet l.facet))

end Sys2Proof.Machine
end

