-- ==== Sys2Proof/Machine/ClockOps.lean ====
section
/-!
DEFINITION. Meanings of the commands of the core PLL, the references, the media PLL, the rate domains and the clock outputs
(R298 to R324).
-/

namespace Sys2Proof.Machine

/-! ### Core PLL (R299, R301) -/

/-- R301: the plane-fed outputs of partition `p` read silence; its lanes and meters stay as they are. -/
def State.mute (s : State) (p : Nat) : State :=
  (((s.graphsOf p).flatMap (·.nodes)).filter (·.typ != tLink)).foldl (fun s n => s.hushNode p (fun _ => false) n) s

/-- R299, R301, R388: the core PLL loses lock. -/
def State.coreLost (s : State) (cause : Nat) : State :=
  (List.range 4).foldl State.mute ((s.withClk fun c => c.coreLost cause).withLinks LinkSys.stop)

def execCorePllLost (cause : Nat) (s : State) : Host.Outcome State Fault Refusal :=
  done s (.corePllLost cause) (s.clocked && (s.clk.coreLock || s.clk.rescue)) (s.coreLost cause)

/-- The partitions that hold a committed epoch. -/
def State.liveParts (s : State) : List Nat := (List.range 4).filter fun p => (s.setter.part p).live

/-- R301: the clocks switch back; every partition that holds an epoch is to be committed again. -/
def execRescueExit (s : State) : Host.Outcome State Fault Refusal :=
  done s .rescueExit (s.awake && s.clk.rescue && s.clk.coreLock) (s.withClk fun c => c.rescueExit s.liveParts)

/-- An epoch of the partition that is under way comes in force first. -/
def execRescueRecommit (p : Nat) (s : State) : Host.Outcome State Fault Refusal :=
  done s (.rescueRecommit p) (s.working && s.clk.recommit.contains p && !s.setter.armedOf p && s.setter.builds.all fun b => b.entry.part != p)
    (((s.withClk fun c => { c with recommit := c.recommit.filter (· != p) }).withLinks fun l =>
      l.acquire (fun x => x.part == p) false).recommit p)

/-! ### References and media PLL (R302 to R304, R312 to R315) -/

def ClkSys.refPresent (c : ClkSys) (i : Nat) : Bool := if i = 0 then c.present.1 else c.present.2
def ClkSys.refQual (c : ClkSys) (i : Nat) : Bool := if i = 0 then c.qual.1 else c.qual.2

/-- R302, R430: reference `input` is lost; a lifeline PLL that follows REFIN0 holds its last frequency. -/
def State.refLoss (s : State) (input : Nat) (es : List Int) (mean : Int) : State :=
  let s := if s.clocked then s.withClk fun c => c.refLost input s.ptpOk es mean else s
  s.withClasp fun c => if input = 0 ∧ c.pll = .refin then { c with pll := .hold } else c

def execReferenceLoss (input : Nat) (es : List Int) (mean : Int) (s : State) : Host.Outcome State Fault Refusal :=
  done s (.referenceLoss input es mean)
    ((s.clocked && s.clk.refPresent input) || (s.powered && input == 0 && s.clasp.pll == .refin)) (s.refLoss input es mean)

def execReferenceQualified (input : Nat) (es : List Int) (freq : Int) (s : State) : Host.Outcome State Fault Refusal :=
  done s (.referenceQualified input es freq) (s.clocked && !s.clk.refQual input)
    (s.withClk fun c => c.refQualified input s.ptpOk es freq)

/-- R303: a write of CLK_MPLL_CTL.SOURCE. -/
def execMpllSourceWrite (reader code : Nat) (es : List Int) (freq : Int) (s : State) : Host.Outcome State Fault Refusal :=
  done s (.mpllSourceWrite reader code es freq) (s.commands reader) (s.mpllSource code es freq)

/-- R304: a write of CLK_MPLL_CTL.ENABLE. -/
def execMpllEnableWrite (reader : Nat) (on : Bool) (es : List Int) (freq : Int) (s : State) : Host.Outcome State Fault Refusal :=
  done s (.mpllEnableWrite reader on es freq) (s.commands reader) (s.mpllEnable on es freq)

def State.showLock (s : State) (on : Bool) : State := s.withClk fun c => { c with mpllLock := on }

/-- R313: 50 ms after ENABLE in compatibility mode. -/
def execCompatLockTimer (s : State) : Host.Outcome State Fault Refusal :=
  done s .compatLockTimer (s.clocked && s.clk.enabled && s.clk.lockMode && !s.clk.mpllLock && decide (s.clk.enabledAt + 50000 ≤ s.us)) (s.showLock true)

/-- R312: the voltage on PLL_LOCKF rises above 1.2 V. -/
def execMpllLockSet (s : State) : Host.Outcome State Fault Refusal :=
  done s .mpllLockSet (s.clocked && s.clk.enabled && !s.clk.lockMode) (s.showLock true)

/-- R312: the voltage on PLL_LOCKF falls below 0.6 V. -/
def execMpllLockClear (s : State) : Host.Outcome State Fault Refusal :=
  done s .mpllLockClear (s.clocked && !s.clk.lockMode) (s.showLock false)

/-! ### Domains (R307 to R310, R315 to R318) -/

def execTolClamp (k : Nat) (s : State) : Host.Outcome State Fault Refusal :=
  done s (.tolClamp k) (s.clocked && (s.dom k).run) (s.withClk fun c => c.clamp k)

/-- R309, R315: the reference's frequency lies within tolerance again. -/
def execClampExit (k : Nat) (e : Int) (s : State) : Host.Outcome State Fault Refusal :=
  done s (.clampExit k e) (s.clocked && (s.dom k).st == .clamped && s.clk.active != 0) (s.withClk fun c => c.domReturn k e)

def execSlewDone (k : Nat) (e : Int) (s : State) : Host.Outcome State Fault Refusal :=
  done s (.slewDone k e) (s.clocked && (s.dom k).st == .slewing) (s.withClk fun c => c.slewDone k e)

/-- R317: the 32 periods of the fade-in have passed. -/
def execStepFadeEnd (k : Nat) (s : State) : Host.Outcome State Fault Refusal :=
  done s (.stepFadeEnd k) (s.clocked && (s.dom k).st == .stepping && 64 ≤ (s.dom k).stepPos) (s.withClk fun c => c.stepEnd k)

def execPolicyWrite (reader k code : Nat) (s : State) : Host.Outcome State Fault Refusal :=
  done s (.policyWrite reader k code) (s.commands reader) (s.withClk fun c => c.setPolicy k code)

def execStepNow (reader k : Nat) (s : State) : Host.Outcome State Fault Refusal :=
  done s (.stepNow reader k) (s.commands reader) (s.withClk fun c => c.command k true)

def execSlewAny (reader k : Nat) (s : State) : Host.Outcome State Fault Refusal :=
  done s (.slewAny reader k) (s.commands reader) (s.withClk fun c => c.command k false)

/-- Whether an armed epoch still has old work in domain `k`. -/
def State.oldWork (s : State) (k : Nat) : Bool := s.setter.armed.any fun a => a.law != .param && a.doms.testBit k && !a.gone.testBit k

/-- Whether an armed epoch waits for domain `k` to restart (R308). -/
def State.awaitsRestart (s : State) (k : Nat) : Bool := s.setter.armed.any fun a => a.redo.testBit k && a.gone.testBit k

/-- R307, R308: the Setter clears RUN of a domain that is declared no longer, or that restarts. -/
def execDomainStop (k : Nat) (s : State) : Host.Outcome State Fault Refusal :=
  done s (.domainStop k)
    (s.awake && (s.dom k).run && ((!(s.dom k).declared && !s.oldWork k) || ((s.dom k).restart.isSome && s.awaitsRestart k)))
    (s.stopDomain k)

/-- R308: the Setter sets RUN again. -/
def execDomainRestart (k : Nat) (s : State) : Host.Outcome State Fault Refusal :=
  done s (.domainRestart k) (s.awake && !(s.dom k).run && (s.dom k).restart.isSome && s.awaitsRestart k) (s.restartDom k s.ns)

/-- A register read by reader `r`: its value goes out, and what the read latches is latched. -/
def State.regRead (s : State) (r o : Nat) : State := (s.readLatch r o).emit (.reg r o (s.readReg r o))

/-- R310: a read of CLK_Dk_TICK_LO. -/
def execDomainTickRead (reader k : Nat) (s : State) : Host.Outcome State Fault Refusal :=
  done s (.domainTickRead reader k) s.readable (s.regRead reader (0x20050 + 0x20 * k))

/-! ### Clock outputs (R320 to R322) -/

def execClkoutConfigWrite (reader out : Nat) (div : Bool) (val : Word) (s : State) : Host.Outcome State Fault Refusal :=
  done s (.clkoutConfigWrite reader out div val) (s.commands reader) (s.withClk fun c => c.writeOut out div val)

def execSyncInEdge (falling : Bool) (ns : Nat) (s : State) : Host.Outcome State Fault Refusal :=
  done s (.syncInEdge falling ns) s.clocked ((s.at_ ns).withClk fun c => c.syncIn falling ns)

def execClkoutResync (s : State) : Host.Outcome State Fault Refusal := done s .clkoutResync s.clocked (s.withClk ClkSys.resync)

end Sys2Proof.Machine
end

