-- ==== Sys2Proof/Machine/NetOps.lean ====
section
/-!
DEFINITION. Meanings of the commands of the media network ports, the stream contexts and the time core (R325 to R356).
-/

namespace Sys2Proof.Machine

/-- R461, R465: whether the network is in use: the device is awake and its network block has not been asked to stop. -/
def State.netUp (s : State) : Bool := s.blockUp 1

/-- An operation of the network after which PTP_OK may have changed (R303). -/
def State.netStep (s : State) (es : List Int) (freq : Int) (f : NetSys → NetSys) : State := (s.withNet f).afterPtp s.ptpOk es freq

/-! ### Link and cages -/

/-- R325. -/
def execLinkUp (port : Nat) (s : State) : Host.Outcome State Fault Refusal :=
  done s (.linkUp port) (s.netUp && !(s.net.port port).link) (s.netStep s.heldEs s.clk.freq fun n => n.linkUp port s.us)

def execLinkDown (port : Nat) (los blk ber : Bool) (s : State) : Host.Outcome State Fault Refusal :=
  done s (.linkDown port los blk ber) (s.netUp && (s.net.port port).link)
    (s.netStep s.heldEs s.clk.freq fun n => n.linkDown port s.us los blk ber)

/-- R326. -/
def execI2cTransfer (reader : Nat) (val : Word) (s : State) : Host.Outcome State Fault Refusal :=
  done s (.i2cTransfer reader val) (s.commands reader) (s.i2cWrite val)

def execI2cDone (ack : Bool) (data : Nat) (s : State) : Host.Outcome State Fault Refusal :=
  done s (.i2cDone ack data) (s.awake && s.net.i2c.flag 31) (s.withNet fun n => n.i2cDone ack data)

/-! ### Reception -/

/-- R327, R349, R350: a frame that port `i` has wholly received at PTP instant `ns`; the servo may step the timescale. -/
def State.frameReceive (s : State) (i ns : Nat) (f : List Byte) (es : List Int) (freq : Int) : State :=
  let s := s.at_ ns
  let r := s.net.frameRx s.dom i s.us ns f
  let t := (s.withNet fun _ => r.1).afterPtp s.ptpOk es freq
  if r.2 = 0 then t else t.stepNs r.2

def execFrameReceive (port ns : Nat) (frame : List Byte) (es : List Int) (freq : Int) (s : State) :
    Host.Outcome State Fault Refusal :=
  done s (.frameReceive port ns frame es freq) s.netUp (s.frameReceive port ns frame es freq)

/-- R330. -/
def execGratuitousArp (port : Nat) (s : State) : Host.Outcome State Fault Refusal :=
  done s (.gratuitousArp port) (s.netUp && (s.net.port port).garp) (s.withNet fun n => n.garpAgain port)

def execArpRefresh (port ip : Nat) (s : State) : Host.Outcome State Fault Refusal :=
  done s (.arpRefresh port ip) s.netUp (s.withNet fun n => n.arpRefresh port ip s.us)

def execArpRetry (port ip : Nat) (s : State) : Host.Outcome State Fault Refusal :=
  done s (.arpRetry port ip) s.netUp (s.withNet fun n => n.arpRetry port ip s.us)

def execArpUnresolved (port ip : Nat) (s : State) : Host.Outcome State Fault Refusal :=
  done s (.arpUnresolved port ip) s.netUp (s.withNet fun n => n.arpUnresolved port ip s.us)

/-- R332. -/
def execIgmpQueryResponse (port : Nat) (s : State) : Host.Outcome State Fault Refusal :=
  done s (.igmpQueryResponse port) (s.netUp && !(s.net.port port).queries.isEmpty) (s.withNet fun n => n.igmpAnswer port)

def execIgmpReportRetransmit (port : Nat) (s : State) : Host.Outcome State Fault Refusal :=
  done s (.igmpReportRetransmit port) (s.netUp && !(s.net.port port).resend.isEmpty) (s.withNet fun n => n.igmpResend port)

def execIgmpCompatTimeout (port : Nat) (s : State) : Host.Outcome State Fault Refusal :=
  done s (.igmpCompatTimeout port) (s.netUp && (s.net.port port).compat.isSome) (s.withNet fun n => n.igmpCompatEnd port)

/-! ### Streams -/

/-- R343. -/
def execLegLoss (ctx port ns : Nat) (s : State) : Host.Outcome State Fault Refusal :=
  done s (.legLoss ctx port ns) s.netUp ((s.at_ ns).withNet fun n => n.legLoss ctx port ns)

/-- R347. -/
def execStreamLoss (ctx ns : Nat) (s : State) : Host.Outcome State Fault Refusal :=
  done s (.streamLoss ctx ns) s.netUp ((s.at_ ns).withNet fun n => n.streamLoss ctx ns)

/-- R344, R345: the oldest packet of a transmit context departs; none does in the Rescue condition (R300). The start of its
sequence numbers is an open value. -/
def State.depart (s : State) (ctx ns : Nat) : State :=
  let t := (s.at_ ns).take 1
  t.2.withNet fun n => n.depart t.2.dom ctx ns t.2.us (Config.freeNat t.1) (!t.2.clk.rescue)

def execPacketDeparture (ctx ns : Nat) (s : State) : Host.Outcome State Fault Refusal :=
  done s (.packetDeparture ctx ns) (s.netUp && !(s.net.txc ctx).ready.isEmpty) (s.depart ctx ns)

/-! ### PTP -/

/-- R350, R353. -/
def execAnnounceTimeout (port : Nat) (es : List Int) (freq : Int) (s : State) : Host.Outcome State Fault Refusal :=
  done s (.announceTimeout port es freq) s.netUp (s.netStep es freq fun n => n.announceTimeout port s.us)

/-- R350, R351. -/
def execSyncTimeout (port : Nat) (es : List Int) (freq : Int) (s : State) : Host.Outcome State Fault Refusal :=
  done s (.syncTimeout port es freq) s.netUp (s.netStep es freq fun n => n.syncTimeout port)

/-- R352. -/
def execPtpAnnounceTx (port ns : Nat) (s : State) : Host.Outcome State Fault Refusal :=
  done s (.ptpAnnounceTx port ns) (s.netUp && (s.net.ptp.port port).state == 3) ((s.at_ ns).withNet fun n => n.announceTx port ns)

def execPtpSyncTx (port ns : Nat) (s : State) : Host.Outcome State Fault Refusal :=
  done s (.ptpSyncTx port ns) (s.netUp && (s.net.ptp.port port).state == 3) ((s.at_ ns).withNet fun n => n.syncTx port ns)

/-- R348. -/
def execPtpDelayReqTx (port ns : Nat) (s : State) : Host.Outcome State Fault Refusal :=
  done s (.ptpDelayReqTx port ns) (s.netUp && (s.net.ptp.port port).state == 2) ((s.at_ ns).withNet fun n => n.delayReqTx port ns)

end Sys2Proof.Machine
end

