-- ==== Sys2Proof/Machine/PortOps.lean ====
section
/-!
DEFINITION. Meanings of the commands of the serial audio ports and the Link lanes (R357 to R391).
-/

namespace Sys2Proof.Machine

/-! ### Outputs on their own clock (R359, R373, R385) -/

/-- R359, R361: the outputs that take their frame starts from the input of port `p`, each of which emits a frame for one received: the
end of a TDM frame on the wire is the start of the next. -/
def State.followers (s : State) (p : Nat) : List Nat :=
  (List.range 36).filter fun o =>
    let q := s.ports.port o
    q.en && q.run != .off && hasOutput o && (match portKind o with
      | .tdm => o == p && isSlave o q && (q.dom == 3 || !s.clasp.declared o)
      | .madi => o == p && isLoop o q
      | .aesOut => isLoop o q && 20 + q.ctl.fld 12 3 == p
      | .aesIn => false)

/-- R373: the rate code of a measured frame rate in 0.01 Hz: the nearest base rate; 7, which no base rate has, before the
first measurement. -/
def rateCode (r : Nat) : Nat :=
  if r = 0 then 7
  else (List.range 7).foldl (fun b c =>
    let off := fun (k : Nat) => (100 * rateHz k - r) + (r - 100 * rateHz k)
    if off c < off b then c else b) 0

/-- R373: the bits that loop output `o` sends; with CS_PASS the C and U bits of the frame `src` received before. -/
def loopBits (o : Nat) (q src : SerPort) : List Bool :=
  if portKind o != .aesOut then []
  else if q.ctl.flag 16 then
    let b := fun i => src.vuc.getD i false
    [false, b 1, b 2, false, b 4, b 5]
  else
    let c := csBit q (rateCode src.rate) q.blkPos
    [false, false, c, false, false, c]

/-- R373: with CS_PASS the block that loop output `o` sends is the one that `src` received. -/
def State.alignBlock (s : State) (o : Nat) (src : SerPort) : State :=
  s.withPorts fun x =>
    let q := x.port o
    if q.ctl.flag 16 ∧ portKind o = .aesOut then x.setPort o { q with blkPos := (src.csBits.length + 191) % 192 } else x

/-- R385: the lanes that serve output `o` make one frame for its queue. -/
def State.ownLanes (s : State) (o : Nat) : State :=
  let t := s.take laneFree
  let r := t.2.links.ownFrame o t.1 s.ns
  if r.1.isEmpty then { t.2 with links := r.2 }
  else
    let xs := (List.range (portChans o)).map fun c => ((r.1.find? (·.1 == c)).map (·.2)).getD 0
    ({ t.2 with links := r.2 } : State).withPorts fun x => x.setPort o { x.port o with outQ := (x.port o).outQ ++ [xs] }

/-- R361, R385, R300: output `o`, a slave or on an own clock, emits a frame; `src` is the input that it follows, as it was. On an own
clock a port without lanes sends silence and has no queue to run empty. -/
def State.emitOwn (s : State) (src : SerPort) (o : Nat) : State :=
  if s.onLifeline o then s
  else
    let fed := s.links.lanes.any fun e => e.2.used && (e.2.ownOut.any fun x => x.1 == o)
    let s := s.alignBlock o src
    let q := s.ports.port o
    let slave := isSlave o q && q.dom != 3
    let bits := loopBits o q src
    let zeros := List.replicate (portChans o) (0 : Word)
    let r : List Word × State :=
      if s.clk.rescue || !(fed || slave) then
        (zeros, s.withPorts fun x => x.setPort o { x.port o with blkPos := ((x.port o).blkPos + 1) % 192 })
      else
        let t := if slave then s else s.ownLanes o
        let y := t.ports.ownOutput o
        (y.1.getD zeros, { t with ports := y.2 })
    let m := r.2.mergeOut (if slave then q.dom else 3) o (outFrame o (r.2.ports.port o) r.1)
    m.1.emit (.txFrame o m.2 bits)

/-! ### Reception -/

/-- R385: the frames that a port on its own clock has received go to the lanes' own-clock queues. -/
def State.ownInput (s : State) (p ns : Nat) : State :=
  let q := s.ports.port p
  if q.dom = 3 then
    let s := s.withLinks fun l => q.queue.foldl (fun l xs => l.takeOwn p ns xs) l
    s.withPorts fun x => x.setPort p { x.port p with queue := [] }
  else s

/-- R387: the lanes of own-clock output `o`, whose loop input was lost, acquire anew. -/
def State.ownBack (s : State) (o : Nat) : State := s.withLinks fun l => l.acquire (fun x => x.active && x.ownOut.any fun y => y.1 == o) false

/-- R361, R385: port `p` has received a frame; outputs that follow it emit theirs. -/
def State.portFrame (s : State) (p : Nat) (f : RxFrame) : State :=
  let src := s.ports.port p
  let s := if src.loss ∧ src.stable = 0 then (s.followers p).foldl State.ownBack s else s
  let s := (s.at_ f.ns).withPorts fun x => x.frameRx p f
  let s := s.ownInput p f.ns
  (s.followers p).foldl (fun s o => s.emitOwn src o) s

def execPortFrameRx (port : Nat) (frame : RxFrame) (s : State) : Host.Outcome State Fault Refusal :=
  done s (.portFrameRx port frame) (s.blockUp 2) (s.portFrame port frame)

/-- R369. -/
def execInputLoss (port : Nat) (s : State) : Host.Outcome State Fault Refusal :=
  done s (.inputLoss port) (s.blockUp 2) (s.withPorts fun x => x.lose port)

/-- R369: 256 stable frames have come. -/
def execLossRecovery (port : Nat) (s : State) : Host.Outcome State Fault Refusal :=
  done s (.lossRecovery port) (s.blockUp 2) (s.withPorts fun x => x.regain port)

/-- R368. -/
def execPortFadeOutEnd (port : Nat) (s : State) : Host.Outcome State Fault Refusal :=
  done s (.portFadeOutEnd port) (s.blockUp 2) (s.withPorts fun x => x.fadeEnd port false)

def execPortRampBackEnd (port : Nat) (s : State) : Host.Outcome State Fault Refusal :=
  done s (.portRampBackEnd port) (s.blockUp 2) (s.withPorts fun x => x.fadeEnd port true)

/-- R367. -/
def execRateUpdate (port rate domRate : Nat) (s : State) : Host.Outcome State Fault Refusal :=
  done s (.rateUpdate port rate domRate) (s.blockUp 2) (s.withPorts fun x => x.rateUpdate port rate domRate)

/-! ### Commands and formats (R365, R366, R369, R372) -/

def execTdmCommit (reader port : Nat) (s : State) : Host.Outcome State Fault Refusal :=
  done s (.tdmCommit reader port) (s.commands reader) (s.tdmCommit port)

/-- R365, R436: the armed format takes force; a declared port whose format changes is released. -/
def State.tdmApply (s : State) (p : Nat) : State :=
  let old := (s.ports.port p).act.fmt
  let s := s.withPorts fun x => x.commitApply p (s.portRate p)
  if s.clasp.declared p && (s.ports.port p).act.fmt != old then s.withClasp fun c => c.release p (s.ports.port p).dom else s

def execTdmCommitApply (port : Nat) (s : State) : Host.Outcome State Fault Refusal :=
  done s (.tdmCommitApply port) (s.blockUp 2 && (s.ports.port port).armed.isSome) (s.tdmApply port)

def execPortRestart (reader port : Nat) (s : State) : Host.Outcome State Fault Refusal :=
  done s (.portRestart reader port) (s.commands reader) (s.portRestart port)

def execStartArm (reader : Nat) (val : Word) (s : State) : Host.Outcome State Fault Refusal :=
  done s (.startArm reader val) (s.commands reader) (s.startCtl val)

def execAudStartEdge (ns : Nat) (s : State) : Host.Outcome State Fault Refusal :=
  done s (.audStartEdge ns) (s.blockUp 2) ((s.at_ ns).withPorts fun x => x.audStart ns)

/-- R360, R372: a write of a port's control register, EN among its fields. -/
def execPortEnWrite (reader port : Nat) (val : Word) (s : State) : Host.Outcome State Fault Refusal :=
  done s (.portEnWrite reader port val) (s.commands reader) (s.withPorts fun x => x.writeCtl port val (reader == 6))

/-! ### Link lanes (R381 to R389) -/

def execLinkSlip (lane : Nat) (s : State) : Host.Outcome State Fault Refusal :=
  done s (.linkSlip lane) (s.working && s.blockUp 3) (s.withLinks fun l => l.slip lane)

def execLinkUnlock (lane : Nat) (fill : Bool) (s : State) : Host.Outcome State Fault Refusal :=
  done s (.linkUnlock lane fill) (s.working && s.blockUp 3) (s.withLinks fun l => l.unlock lane fill)

/-- R380: the interval from the latest tick of a lane's input domain to that of its output domain, in ns. -/
def State.lanePhase (s : State) (n : Nat) : Int :=
  let l := s.links.lane n
  ((s.dom l.outDom).lastNs : Int) - (s.dom l.inDom).lastNs

/-- R384: the lock condition has held for 20 ms. -/
def execLaneLocked (lane : Nat) (s : State) : Host.Outcome State Fault Refusal :=
  done s (.laneLocked lane) (s.working && s.blockUp 3) (s.withLinks fun l => l.lockedAt lane (s.lanePhase lane))

end Sys2Proof.Machine
end

