-- ==== Sys2Proof/Machine/PowerOps.lean ====
section
/-!
DEFINITION. Meanings of the commands of the Clasp and of the power controller (R425 to R438, R461 to R472, R503 to R516),
with the quiesce handshake and the wake that other families use too.
-/

namespace Sys2Proof.Machine

/-! ### Lifeline (R430 to R435) -/

/-- R422, R431 to R433: a frame of the lifeline clock; with the first one the lifeline is live and BOOTSTAT reads 0x1. -/
def State.lifeline (s : State) (ins : List (Nat × List (List Nat))) : State :=
  let s := if s.clasp.stage = .selected then
      (s.withClasp fun c => { c with stage := .live }).withBoot fun b => if b.code = 0 then { b with code := 1 } else b
    else s
  let r := s.clasp.frame ins
  r.2.foldl (fun s f => s.emit (.txFrame f.1 f.2 [])) { s with clasp := r.1 }

def execLifelineFrame (ins : List (Nat × List (List Nat))) (s : State) : Host.Outcome State Fault Refusal :=
  done s (.lifelineFrame ins) (s.powered && (s.clasp.stage == .selected || s.clasp.stage == .live)) (s.lifeline ins)

/-- R430: the lifeline PLL locks to REFIN0, or to CREF again. -/
def execLifelinePllLock (refin : Bool) (s : State) : Host.Outcome State Fault Refusal :=
  done s (.lifelinePllLock refin)
    (s.powered && s.clasp.stage != .off && (if refin then s.clasp.flags.testBit 1 && s.clk.present.1 && (s.clasp.pll == .cref || s.clasp.pll == .hold)
      else s.clasp.pll == .rescue && !s.clk.crefLost))
    (s.withClasp fun c => { c with pll := if refin then .refin else .cref })

/-- R435: the running domain of 48 kHz that an armed or committed epoch gives to a channel of port `p`. -/
def State.coverDom (s : State) (p : Nat) : Option Nat :=
  ((s.graphs ++ (s.setter.armed.filter (·.law != .param)).map (·.new)).flatMap fun g => g.sinksOn p).findSome? fun n =>
    if n.dom < 3 ∧ (s.dom n.dom).run ∧ s.hz n.dom = 48000 then some n.dom else none

/-- R435: the clock of a covered port moves to its domain. -/
def State.clockMove (s : State) (p : Nat) : State :=
  match s.coverDom p with
  | some k => s.withClasp fun c => c.move p k
  | none => s

def execLifelineClockMove (port : Nat) (s : State) : Host.Outcome State Fault Refusal :=
  done s (.lifelineClockMove port) (s.awake && s.clasp.stage == .live && s.onLifeline port) (s.clockMove port)

/-- R430: CREF is lost: the lifeline PLL runs from the rescue oscillator. -/
def execLifelineCrefLoss (s : State) : Host.Outcome State Fault Refusal :=
  done s .lifelineCrefLoss (s.powered && s.clasp.stage != .off) (s.withClasp fun c => { c with pll := .rescue })

/-! ### Entry (R463 to R466) -/

/-- R466: PWR_REFUSED goes to P0. -/
def State.refuseEntry (s : State) (block reason : Nat) : State :=
  (s.withPower fun p => p.refuse block reason s.us).report 0x0B02 19 0 false

/-- R463, R464, R468: an entry is requested; a wake event in the same cycle drops the request, and while WAKE_N is low it is
refused. -/
def State.requestEntry (s : State) (dormant wake : Bool) : State :=
  if s.power.phase ≠ .run then s
  else if wake then s.withPower fun p => { p with abortWake := true }
  else if !s.power.wakeN then s.refuseEntry 7 6
  else s.withPower fun p => p.request dormant

def execIdleTimerExpiry (wake : Bool) (s : State) : Host.Outcome State Fault Refusal :=
  done s (.idleTimerExpiry wake) (s.power.phase == .run && s.power.idleS != 0 && !s.held && decide (s.power.idleAt ≤ s.us))
    (s.requestEntry false wake)

/-- R465: whether reads of host DMA are outstanding: of commands at intake, or of play taps. -/
def State.readsOut (s : State) : Bool :=
  (s.setter.intake.any fun e => e.wait && e.data.isNone && !e.fail) ||
    (List.range 4).any fun p => (s.host.part p).taps.any fun t => !t.2.reads.isEmpty

/-- R465: why block `b` refuses to stop. -/
def State.blockRefuses (s : State) (b : Nat) : Option Nat :=
  match b with
  | 0 => if s.readsOut then some 2 else none
  | 1 => if (s.net.ptp.port 0).state = 3 ∨ (s.net.ptp.port 1).state = 3 then some 4 else none
  | 4 => if s.held then some 3 else none
  | 5 => if s.held then some 3 else none
  | 6 => if s.dram.inited 0 < usableMiB s.dram.densA ∨ s.dram.inited 1 < usableMiB s.dram.densB ∨ !s.dram.trained then some 5 else none
  | _ => none

/-- R409: every completion of partition `p` whose ring has room is written. -/
def State.flushCompl (s : State) (p : Nat) : State :=
  (List.range (s.host.part p).compl.length).foldl (fun s _ => s.hostPut fun h => h.writeCompl p s.us) s

/-- R465: block `b` stops. -/
def State.stopBlock (s : State) (b : Nat) : State :=
  match b with
  | 0 => (List.range 4).foldl (fun s p => s.flushCompl p) s
  | 2 => s.withPorts fun x => (List.range 36).foldl (fun x p => if s.clasp.declared p then x else x.disable p) x
  | 6 => s.withDram fun d => { d with selfRef := true }
  | _ => s

/-- R466, R469: the first `n` blocks of R465, which have stopped, restart in reverse order. -/
def State.restartBlocks (s : State) (n : Nat) : State :=
  let s := if 6 < n ∧ s.dram.trained ∧ !s.clk.crefLost then s.withDram DramSys.resume else s
  let s := if 3 < n then s.withLinks LinkSys.resume else s
  if 2 < n then s.withPorts fun x => (List.range 36).foldl (fun x p => x.startOwn p) x else s

/-- R466: the handshake ends with a refusal. -/
def State.quiesceRefuse (s : State) (reason : Nat) : State :=
  let b := s.power.stopped
  (s.restartBlocks b).refuseEntry b reason

/-- R438, R461, R465: the entry completes: the PTP servo stops, and the lifeline PLL takes its ports back. -/
def State.enterLow (s : State) : State :=
  (((s.withNet fun n => n.withPtp PtpSys.lose).afterPtp s.ptpOk s.heldEs s.clk.freq).withPower fun p => p.enter s.us).withClasp fun c =>
    c.takeBack (fun _ => true) s.clk.crefLost

/-- R465: the block that is being asked answers. -/
def State.quiesceAnswer (s : State) : State :=
  let b := s.power.stopped
  match s.blockRefuses b with
  | some r => s.quiesceRefuse r
  | none =>
    let s := (s.stopBlock b).withPower fun p => { p with stopped := b + 1 }
    if b = 6 then s.enterLow else s

def execQuiesceAnswer (s : State) : Host.Outcome State Fault Refusal :=
  done s .quiesceAnswer (s.power.phase == .quiescing) s.quiesceAnswer

/-- R465: 100 µs of silence count as a refusal. -/
def execQuiesceTimeout (s : State) : Host.Outcome State Fault Refusal :=
  done s .quiesceTimeout (s.power.phase == .quiescing) (s.quiesceRefuse 1)

/-! ### Wake (R467 to R470) -/

/-- R467 to R470: wake event from source `src`. -/
def State.wake (s : State) (src : Nat) : State :=
  match s.power.phase with
  | .quiescing =>
    ((s.restartBlocks s.power.stopped).withPower fun p => { p with phase := .run, stopped := 0, abortWake := true }.reload s.us).report
      0x0B02 19 0 false
  | .standby =>
    (s.restartBlocks 7).withPower fun p => { p with phase := .run, wakeSrc := src, aonS := p.aonLeft s.us }.reload s.us
  | .dormant =>
    (s.restart true).withPower fun p => { p with wakeSrc := src, wakeOut := src != 2, aonS := s.power.aonLeft s.us, pads := false }
  | _ => s

/-- R467: WAKE_N has fallen and been low for 1 µs. -/
def execWakeNEdge (held : Bool) (s : State) : Host.Outcome State Fault Refusal :=
  done s (.wakeNEdge held) s.powered ((s.wake 1).withPower fun p => { p with wakeN := !held })

def execAonTimerExpiry (s : State) : Host.Outcome State Fault Refusal :=
  done s .aonTimerExpiry
    ((s.power.phase == .standby || s.power.phase == .dormant) && s.power.aonS != 0 && s.power.aonLeft s.us == 0) (s.wake 5)

/-! ### Gating (R462) -/

/-- R462: whether a unit holds no placed work, running, of an armed or committed epoch, or background code: 0 a Facet, 1 a tile,
2 a lane group. -/
def State.unitFree (s : State) (kind n : Nat) : Bool :=
  let w := Placed.join ((List.range 4).map s.allWork)
  match kind with
  | 0 => !(s.facet n).released && !(s.facet n).bgEn && !w.facets.contains n
  | 1 => !(s.tile n).r.ctl.flag 0 && !w.tiles.contains n
  | _ => !(s.links.lanes.any fun e => e.1 / 64 == n && e.2.used) && s.allGraphs.all fun g => g.lanes.all fun l => l / 64 != n

def execUnitGate (kind unit : Nat) (s : State) : Host.Outcome State Fault Refusal :=
  done s (.unitGate kind unit) (s.awake && s.unitFree kind unit) (s.withPower fun p => p.gate kind unit)

/-! ### Supplies and temperature (R471, R505, R506, R516) -/

def execBrownOut (s : State) : Host.Outcome State Fault Refusal := done s .brownOut s.powered s.brownOut

/-- R506: a required rail has been invalid for 2 µs. -/
def execSupplyLoss (aon : Bool) (s : State) : Host.Outcome State Fault Refusal := done s (.supplyLoss aon) true (s.supplyLoss aon)

/-- R506: rail `n` leaves its operating range, or returns into it; SUPPLY_LIMIT lasts while any rail is out. -/
def State.railMoves (s : State) (n : Nat) (out : Bool) : State :=
  let old := s.power.railsOut
  let new := if out then old ||| 2 ^ n else if old.testBit n then old - 2 ^ n else old
  let s := s.withPower fun p => { p with railsOut := new }
  if old = 0 ∧ new ≠ 0 then s.report 0x0B04 19 0 false
  else if old ≠ 0 ∧ new = 0 then s.report 0x0B04 19 0 true
  else s

def execSupplyLimit (rail : Nat) (s : State) : Host.Outcome State Fault Refusal :=
  done s (.supplyLimit rail) s.powered (s.railMoves rail true)

def execSupplyExcursionEnd (rail : Nat) (s : State) : Host.Outcome State Fault Refusal :=
  done s (.supplyExcursionEnd rail) s.powered (s.railMoves rail false)

/-- R508: the grade's junction limit, in codes of 0.125 °C. -/
def gradeMax : Int := if Config.industrial then 840 else 800

/-- R516: the sensor reads `temp`: TEMP_LIMIT begins above the grade maximum and ends 2 °C below it. -/
def State.tempMoves (s : State) (temp : Nat) : State :=
  let was := s.power.hot
  let tj := sext 16 temp
  let now := decide (gradeMax < tj) || (was && decide (gradeMax - 16 < tj))
  let s := s.withPower fun p => { p with temp := temp, hot := now }
  if was = now then s else s.report 0x0B03 0 0 (!now)

def execTempLimit (temp : Nat) (s : State) : Host.Outcome State Fault Refusal :=
  done s (.tempLimit temp) s.powered (s.tempMoves temp)

end Sys2Proof.Machine
end

