-- ==== Sys2Proof/Machine/HostOps.lean ====
section
/-!
DEFINITION. Meanings of the commands of the host interface: claims, doorbells, register accesses, SPI frames, endpoint
events, completions, taps and meters (R392 to R421, R489 to R498).
-/

namespace Sys2Proof.Machine

/-! ### Register accesses -/

/-- Whether offset `o` is a submission doorbell (R421). -/
def isDoorbell (o : Nat) : Bool := 0x10100 ≤ o && o < 0x10180 && o % 16 == 12

/-- R467, R468: a BAR0 write of a submission doorbell is a wake event in Standby and during the handshake. -/
def State.bellWake (s : State) (r : Nat) : State :=
  if r < 4 ∧ (s.power.phase = .standby ∨ s.power.phase = .quiescing) then s.wake 6 else s

/-- R461, R467: reader `r` writes the register at offset `o`; in Standby the write is discarded unless it wakes. -/
def State.regWrite (s : State) (r o : Nat) (v : Word) : State :=
  let s := if isDoorbell o then s.bellWake r else s
  if s.writable then s.writeReg r o v else s

/-- R397: the registers that more than one interface may write, those of a claim. -/
def isClaimReg (o : Nat) : Bool := o == 0x10014 || (0x10040 ≤ o && o < 0x10060)

/-- R499: whether the write of reader `r` keeps another of reader `q` at the same offset and cycle out: both at one register that both may
write, and `r` first in the order SPIT0, SPIT1, PCIe. -/
def State.beats (s : State) (o r q : Nat) : Bool := isClaimReg o && s.host.view r == s.host.view q && ifaceRank r < ifaceRank q

/-- R9, R10, R20: writes at offset `o` in one cycle, by reader and value. Where a Setter core writes the register too, theirs come out on
top. -/
def State.wordWrites (s : State) (o : Nat) (ws : List (Nat × Word)) (chip : Option Word) : State :=
  let s := match chip with
    | some u => if s.awake && s.s2Runs then s.writeReg 6 o u else s
    | none => s
  (ws.filter fun x => !ws.any fun y => s.beats o y.1 x.1).foldl (fun s x => s.regWrite x.1 o x.2) s

/-- A write of fewer bytes than a word has no effect (R9). -/
def execRegisterWrite (reader off bytes : Nat) (val : Word) (chip : Option Word) (rivals : List (Nat × Word)) (s : State) :
    Host.Outcome State Fault Refusal :=
  done s (.registerWrite reader off bytes val chip rivals) s.readable
    (s.wordWrites off ((if bytes = 4 then [(reader, val)] else []) ++ rivals) chip)

/-- R9, R310, R356, R390, R494: a read of a word; a narrower one returns 0 and latches nothing. -/
def execLatchingRegisterRead (reader off bytes : Nat) (s : State) : Host.Outcome State Fault Refusal :=
  done s (.latchingRegisterRead reader off bytes) s.readable (if bytes = 4 then s.regRead reader off else s.emit (.reg reader off 0))

/-- Whether a host or SPI reader writes its partition block. -/
def State.hostWrites (s : State) (r : Nat) : Bool := s.writable && r < 6

/-- A write of offset `o` of the partition block that reader `r` sees. -/
def State.writeBlock (s : State) (r o : Nat) (v : Word) : State :=
  match s.host.view r with
  | some p => s.writePart r p o v
  | none => s

/-! ### Claims (R396 to R399) -/

def execClaimStart (reader : Nat) (s : State) : Host.Outcome State Fault Refusal :=
  done s (.claimStart reader) (s.hostWrites reader) (s.claimStart reader)

def execClaimSubmit (reader : Nat) (s : State) : Host.Outcome State Fault Refusal :=
  done s (.claimSubmit reader) (s.hostWrites reader) (s.claimSubmit reader)

def execClaimResult (p : Nat) (s : State) : Host.Outcome State Fault Refusal :=
  done s (.claimResult p) (s.awake && (s.host.part p).claim.isSome) (s.withHost fun h => h.claimResult p s.us)

def execClaimRelease (reader : Nat) (s : State) : Host.Outcome State Fault Refusal :=
  done s (.claimRelease reader) (s.hostWrites reader) (s.withHost fun h => h.claimRelease reader)

def execEnrol (reader : Nat) (s : State) : Host.Outcome State Fault Refusal :=
  done s (.enrol reader) (s.hostWrites reader) (s.enrol reader)

/-- R399: the key is wrapped and stored; `stored`: the journal write succeeds. The wrapping nonce is an open value. -/
def State.enrolDone (s : State) (stored : Bool) : State :=
  match (s.host.part 0).enrol with
  | none => s
  | some x =>
    let t := s.take 1
    match if stored then t.2.boot.storeKey 0 x.2 (leBytes 12 (Config.freeNat t.1)) else none with
    | some b => { t.2 with boot := b }.withHost fun h => h.enrolDone true
    | none => t.2.withHost fun h => h.enrolDone false

def execEnrolDone (stored : Bool) (s : State) : Host.Outcome State Fault Refusal :=
  done s (.enrolDone stored) (s.awake && (s.host.part 0).enrol.isSome) (s.enrolDone stored)

/-- R396. -/
def execNonceExpiry (p : Nat) (s : State) : Host.Outcome State Fault Refusal :=
  done s (.nonceExpiry p) s.awake (s.withHost fun h => h.nonceExpiry p s.us)

/-- R398. -/
def execLockoutExpiry (reader : Nat) (s : State) : Host.Outcome State Fault Refusal :=
  done s (.lockoutExpiry reader) s.awake (s.withHost fun h => h.lockoutExpiry reader s.us)

/-- R420: PRT_CTL.RESET. -/
def execPartitionReset (reader : Nat) (s : State) : Host.Outcome State Fault Refusal :=
  done s (.partitionReset reader) (s.hostWrites reader) (s.writeBlock reader 0x004 1)

/-! ### Rings (R404, R405, R409) -/

/-- R404, R463, R467: a submission doorbell. -/
def State.sqBell (s : State) (r ring v : Nat) : State :=
  let s := s.bellWake r
  if s.writable then
    match s.host.view r with
    | some p => s.doorbell r p 0 ring v
    | none => s
  else s

def execSqDoorbell (reader ring val : Nat) (s : State) : Host.Outcome State Fault Refusal :=
  done s (.sqDoorbell reader ring val) (s.readable && reader < 6) (s.sqBell reader ring val)

def execCqDoorbell (reader ring val : Nat) (s : State) : Host.Outcome State Fault Refusal :=
  done s (.cqDoorbell reader ring val) (s.hostWrites reader) (s.writeBlock reader (0x18C + 16 * ring) (BitVec.ofNat 32 val))

def execFrDoorbell (reader val : Nat) (s : State) : Host.Outcome State Fault Refusal :=
  done s (.frDoorbell reader val) (s.hostWrites reader) (s.writeBlock reader 0x20C (BitVec.ofNat 32 val))

/-- The offset of a ring's CFG in the partition block: submission, completion or fault ring. -/
def ringCfgAt (kind ring : Nat) : Nat := if kind = 0 then 0x108 + 16 * ring else if kind = 1 then 0x188 + 16 * ring else 0x208

/-- R395, R404, R405, R409: a write of a ring's CFG. -/
def execRingEnWrite (reader kind ring : Nat) (val : Word) (s : State) : Host.Outcome State Fault Refusal :=
  done s (.ringEnWrite reader kind ring val) (s.hostWrites reader) (s.writeBlock reader (ringCfgAt kind ring) val)

/-- R395, R413: a write of TAP_CFG. -/
def execTapEnWrite (reader tap : Nat) (val : Word) (s : State) : Host.Outcome State Fault Refusal :=
  done s (.tapEnWrite reader tap val) (s.hostWrites reader) (s.writeBlock reader (0x400 + 0x20 * tap) val)

/-- Whether host DMA works: the device is awake, its DMA has not stopped (R465), and boot has not halted (R448). -/
def State.dmaUp (s : State) : Bool := s.served && s.blockUp 0 && s.boot.at_ != .halt

def execCompletionWrite (p : Nat) (s : State) : Host.Outcome State Fault Refusal :=
  done s (.completionWrite p) s.dmaUp (s.hostPut fun h => h.writeCompl p s.us)

/-- R411. -/
def execInterruptCoalesceTimeout (p ring : Nat) (s : State) : Host.Outcome State Fault Refusal :=
  done s (.interruptCoalesceTimeout p ring) s.dmaUp (s.withHost fun h => h.coalesce p ring s.us)

/-! ### Other register commands of the table -/

/-- R355. -/
def execNetPortEnWrite (reader port : Nat) (val : Word) (s : State) : Host.Outcome State Fault Refusal :=
  done s (.netPortEnWrite reader port val) (s.commands reader) (s.netCtl port val s.heldEs s.clk.freq)

/-- R356. -/
def execPtpCtlWrite (reader : Nat) (val : Word) (es : List Int) (freq : Int) (s : State) : Host.Outcome State Fault Refusal :=
  done s (.ptpCtlWrite reader val es freq) (s.commands reader) (s.ptpCtl val es freq)

/-! ### Reads by host DMA (R405, R412, R416) -/

/-- The entry of partition `p` at intake whose data is being read. -/
def SetterSys.reading (x : SetterSys) (p : Nat) : Option Nat := x.intake.findIdx? fun e => e.part == p && e.wait && e.data.isNone && !e.fail

/-- R412: the read for a command ends. -/
def State.commandRead (s : State) (p : Nat) (data : Option (List Byte)) : State :=
  s.withSetter fun x =>
    match x.reading p with
    | none => x
    | some i => { x with intake := x.intake.modify i fun e => { e with data := data, fail := data.isNone } }

/-- R371, R412, R416: the oldest block read of a play tap ends; a frame that its tap waits for goes to the open period. -/
def State.tapReadEnds (s : State) (p t : Nat) (data : Option (List Byte)) : State :=
  let put := fun (s : State) (u : Tap) => s.withHost fun h => h.modPart p fun q => q.setTap t u
  let tp := (s.host.part p).tap t
  if tp.reads.isEmpty then s
  else match data with
    | none => (put s tp.readFail).withHost fun h => h.irq p 9
    | some bs =>
      match tp.node with
      | none => put s (tp.readDone bs)
      | some nd =>
        let r := (tp.readDone bs).playLate (s.period nd.dom)
        ((nd.sids.map (·.b)).zip r.1).foldl (fun s w => s.writeSid nd.dom 8 p w.1 w.2) (put s r.2)

/-- A read of partition `p` ends: of a play tap, for a command (64), of a ring fetch (65). -/
def State.readEnds (s : State) (p tap : Nat) (data : Option (List Byte)) : State :=
  if tap < 64 then s.tapReadEnds p tap data
  else if tap = 64 then s.commandRead p data
  else match data, s.host.nextRing p with
    | none, some r => s.withHost fun h => h.fetchFail p r
    | _, _ => s

/-- The bytes that the read asks for. -/
def State.readLen (s : State) (p tap : Nat) : Nat :=
  if tap < 64 then ((s.host.part p).tap tap).blk * ((s.host.part p).tap tap).frameLen
  else (((s.setter.reading p).bind fun i => s.setter.intake[i]?).map (·.len)).getD 0

def execDmaReadComplete (p tap : Nat) (data : Option (List Byte)) (s : State) : Host.Outcome State Fault Refusal :=
  done s (.dmaReadComplete p tap data) (s.dmaUp && data.all fun d => d.length == s.readLen p tap) (s.readEnds p tap data)

/-- R412: 50 ms have passed. -/
def execDmaTimeout (p tap : Nat) (s : State) : Host.Outcome State Fault Refusal :=
  done s (.dmaTimeout p tap) s.dmaUp (s.readEnds p tap none)

/-! ### Taps and meters (R415, R417) -/

def execRecordTapBlockWrite (p tap : Nat) (s : State) : Host.Outcome State Fault Refusal :=
  done s (.recordTapBlockWrite p tap) s.dmaUp (s.hostPut fun h => h.writeBlock p tap)

/-- R417: a window ends; the values that the spec does not state are open. -/
def State.meterEnds (s : State) (p meter : Nat) : State :=
  let n := ((s.host.part p).meters[meter]?.map (·.sids.length)).getD 0
  let t := s.take n
  t.2.hostPut fun h => h.meterEnd p meter t.2.ns fun c => Config.freeNat (t.1 + c)

def execMeterWindowEnd (p meter : Nat) (s : State) : Host.Outcome State Fault Refusal :=
  done s (.meterWindowEnd p meter) s.dmaUp (s.meterEnds p meter)

/-! ### Endpoint (R392, R412, R420, R467) -/

/-- R407, R458: whether a command has data that ADDR names. -/
def Entry.reads (e : Entry) : Bool :=
  e.op == 0x01 ||
    (e.part == 0 && (e.op == 0x21 || (e.op == 0x26 && e.len ≤ 4064) || e.op == 0x28 || e.op == 0x29 || (e.op == 0x2B && e.len == 32)))

/-- R395, R406, R412: the data of entry `i` of intake is read: from the Exchange RAM at once, from host memory once Bus Master
Enable permits. -/
def State.issueRead (s : State) (i : Nat) : State :=
  match s.setter.intake[i]? with
  | none => s
  | some e =>
    let put := fun (s : State) (f : Entry) => s.withSetter fun x => { x with intake := x.intake.set i f }
    if !e.reads || e.wait || e.fail || e.data.isSome then s
    else if e.len = 0 then put s { e with data := some [] }
    else if e.addr % 2 = 1 then
      let x := s.xramRead e.part (e.addr / 8 * 8 % 2 ^ 18) e.len
      put x.1 { e with data := some x.2 }
    else if s.host.pcie.bme.testBit e.part then (put s { e with wait := true }).emit (.busRead e.part (e.addr / 8 * 8) e.len)
    else s

/-- R412: Bus Master Enable; reads that waited for it are issued, those of SUBMIT by that command. -/
def State.busMaster (s : State) (pf : Nat) (on : Bool) : State :=
  let s := s.withHost fun h => h.setBme pf on
  (List.range s.setter.intake.length).foldl (fun s i =>
    if s.setter.intake[i]?.any fun e => e.part == pf && e.op != 0x01 then s.issueRead i else s) s

def execBusMasterEnable (pf : Nat) (on : Bool) (s : State) : Host.Outcome State Fault Refusal :=
  done s (.busMasterEnable pf on) s.readable (s.busMaster pf on)

def execFlr (pf : Nat) (s : State) : Host.Outcome State Fault Refusal :=
  done s (.flr pf) s.readable (s.withHost fun h => h.flr pf)

/-- R420, R467: PERST_N has been low and is high again: PCIe holders end, and the deassertion is a wake event. -/
def execPerstN (width speed : Nat) (s : State) : Host.Outcome State Fault Refusal :=
  done s (.perstN width speed) s.powered
    (((s.wake 2).withHost fun h => h.perst width speed).withPower fun p => { p with wakeOut := false })

/-! ### SPI frames (R394, R467, R495 to R498) -/

/-- R498: whether a frame is malformed, of whose command word `bits` bits came. -/
def spiBad (cmd bits : Nat) : Bool :=
  bits < 32 || fld cmd 20 9 != 0 || cmd % 4 != 0 || (cmd.testBit 30 && fld cmd 18 2 != 0)

/-- R495: the status word of target `t`. -/
def State.spiStatus (s : State) (t : Nat) : Word :=
  let x := s.host.spi t
  let b := fun (v : Bool) (i : Nat) => if v then 2 ^ i else 0
  BitVec.ofNat 32 (0xA5 <<< 24 + b (s.host.holds (4 + t)) 21 + b (decide (x.map < 4)) 20 + (if x.map < 4 then x.map <<< 18 else 0)
    + b x.err 17 + b x.conflict 16)

/-- R495, R497: the byte address of data word `k` of a frame; none past the end. -/
def spiAddr (cmd k : Nat) : Option Nat :=
  let a := cmd % 2 ^ 20 + if cmd.testBit 29 then 4 * k else 0
  if a < (if cmd.testBit 30 then 2 ^ 18 else 2 ^ 20) then some a else none

/-- One data word of a read frame: the state, the word, whether BUSY is driven (R274). -/
def State.spiRead (s : State) (t cmd k : Nat) (co : Option CoA) : State × Word × Bool :=
  match spiAddr cmd k with
  | none => (s, 0, false)
  | some a =>
    if cmd.testBit 30 then
      match s.host.view (4 + t) with
      | none => (s, 0, false)
      | some p => s.portB ⟨1 + t, p, a / 4, none⟩ co
    else (s.readLatch (4 + t) a, s.readReg (4 + t) a, false)

/-- One data word of a write frame: the state, whether BUSY is driven. -/
def State.spiWrite (s : State) (t cmd k : Nat) (v : Word) (co : Option CoA) : State × Bool :=
  match spiAddr cmd k with
  | none => (s, false)
  | some a =>
    if cmd.testBit 30 then
      match s.host.view (4 + t) with
      | none => (s, false)
      | some p => let r := s.portB ⟨1 + t, p, a / 4, some (v, [true, true, true, true])⟩ co; (r.1, r.2.2)
    else (s.regWrite (4 + t) a v, false)

/-- R495, R498: the flags that the next status word of target `t` carries. -/
def State.spiEnd (s : State) (t bits : Nat) (bad busy : Bool) : State :=
  let s := s.withHost fun h =>
    let x := h.spi t
    h.setSpi t { x with err := bad, conflict := busy || (bits < 32 && x.conflict) }
  if busy then s.emit (.busy t) else s

/-- R467: the chip-select edge of target `t`; the flag says that it woke the device, whose frame is then not served. -/
def State.spiSelect (s : State) (t : Nat) : State × Bool :=
  match s.power.phase with
  | .standby => (s.wake (3 + t), true)
  | .dormant => (s.wake (3 + t), true)
  | .quiescing => (s.wake (3 + t), false)
  | _ => (s, false)

/-- A read frame of `n` data words. -/
def State.spiReadFrame (s : State) (t cmd bits n : Nat) (co : List (Option CoA)) : State :=
  let w := s.spiSelect t
  let s := w.1
  if w.2 then (s.emit (.spi t (List.replicate (n + 1) 0))).spiEnd t 32 false true
  else if spiBad cmd bits then (s.emit (.spi t (if bits < 32 then [] else s.spiStatus t :: List.replicate n 0))).spiEnd t bits true false
  else
    let r := (List.range n).foldl (fun (r : State × List Word × Bool) k =>
      let x := r.1.spiRead t cmd k (co.getD k none)
      (x.1, r.2.1 ++ [x.2.1], r.2.2 || x.2.2)) (s, [s.spiStatus t], false)
    (r.1.emit (.spi t r.2.1)).spiEnd t bits false r.2.2

def execSpiReadFrame (target cmd bits n : Nat) (co : List (Option CoA)) (s : State) : Host.Outcome State Fault Refusal :=
  done s (.spiReadFrame target cmd bits n co)
    (s.powered && (s.served || s.power.phase == .dormant) && (bits < 32 || cmd.testBit 31)) (s.spiReadFrame target cmd bits n co)

/-- A write frame. -/
def State.spiWriteFrame (s : State) (t cmd bits : Nat) (ws : List Word) (co : List (Option CoA)) : State :=
  let w := s.spiSelect t
  let s := w.1
  if w.2 then (s.emit (.spi t [0])).spiEnd t 32 false true
  else if spiBad cmd bits then (s.emit (.spi t (if bits < 32 then [] else [s.spiStatus t]))).spiEnd t bits true false
  else
    let st := s.spiStatus t
    let r := ((List.range ws.length).zip ws).foldl (fun (r : State × Bool) x =>
      let y := r.1.spiWrite t cmd x.1 x.2 (co.getD x.1 none)
      (y.1, r.2 || y.2)) (s, false)
    (r.1.emit (.spi t [st])).spiEnd t bits false r.2

def execSpiWriteFrame (target cmd bits : Nat) (words : List Word) (co : List (Option CoA)) (s : State) :
    Host.Outcome State Fault Refusal :=
  done s (.spiWriteFrame target cmd bits words co)
    (s.powered && (s.served || s.power.phase == .dormant) && (bits < 32 || !cmd.testBit 31)) (s.spiWriteFrame target cmd bits words co)

end Sys2Proof.Machine
end

