-- ==== Sys2Proof/Machine/RingOps.lean ====
section
/-!
DEFINITION. Meanings of the ring commands: fetch, policy, image, life-cycle, Keepsake and power commands (R400 to R408,
R428, R451 to R458, R464). Each acts on the entry at the front of intake (R24, R233).
-/

namespace Sys2Proof.Machine

/-! ### Fetch (R404 to R407) -/

/-- R407: the opcodes that a rule defines. -/
def opcodes : List Nat :=
  [0x01, 0x02, 0x10, 0x11, 0x12, 0x13, 0x14, 0x15, 0x16, 0x17, 0x20, 0x21, 0x22, 0x23, 0x24, 0x25, 0x26, 0x27, 0x28, 0x29, 0x2A, 0x2B,
   0x30, 0x31]

/-- R406: the fields of an entry fetched from ring `r` of partition `p`. EARLY_WRITE and HM_EXTEND read what R458 says. -/
def entryOf (p r : Nat) (q : Part) (b : List Byte) : Entry :=
  let op := le b 0 1
  { part := p, sq := r, cq := (q.ring true r).cfg.fld 8 3, cmdId := le b 2 2, op := op, addr := le b 8 8
    len := if op = 0x28 then 4096 else if op = 0x29 then 48 else le b 0x10 4, args := slice b 0x18 40, data := none, wait := false
    fail := false, session := q.session }

/-- R405: whether the fetch engine of partition `p` pauses. -/
def State.fetchPaused (s : State) (p : Nat) : Bool :=
  16 ≤ (s.setter.intake.filter (·.part == p)).length || 64 ≤ (s.host.part p).compl.length

/-- R405, R407: an entry's fetch completes: it joins intake, and its data read is issued; an unknown opcode is refused. -/
def State.fetch (s : State) (p : Nat) (bytes : List Byte) : State :=
  match s.host.nextRing p with
  | none => s
  | some r =>
    let q := s.host.part p
    let at_ := q.entryAt r
    let x := if at_.1 then s.xramRead p at_.2 64 else (s, bytes)
    let e := entryOf p r q x.2
    let s := x.1.withHost fun h => h.fetched p r
    if opcodes.contains e.op then
      let s := s.withSetter fun x => { x with intake := x.intake ++ [e] }
      if e.op = 0x01 then s else s.issueRead (s.setter.intake.length - 1)
    else s.completeWith e 0x40

/-- R405, R407: whether a fetch of partition `p` may complete. -/
def State.mayFetch (s : State) (p : Nat) : Bool := !s.fetchPaused p && (s.host.nextRing p).isSome

/-- R24: of fetches that complete in one cycle the lower partition's comes first. -/
def State.fetchAll (s : State) (l : List (Nat × List Byte)) : State :=
  (List.range 4).foldl (fun s p => match l.find? (·.1 == p) with
    | some x => if s.mayFetch p then s.fetch p x.2 else s
    | none => s) s

def execEntryFetched (p : Nat) (entry : List Byte) (tie : List (Nat × List Byte)) (s : State) : Host.Outcome State Fault Refusal :=
  done s (.entryFetched p entry tie) (s.dmaUp && s.mayFetch p) (s.fetchAll ((p, entry) :: tie))

/-- R407: the oldest SUBMIT whose file has not been asked for. -/
def SetterSys.toRead (x : SetterSys) : Option Nat := x.intake.findIdx? fun e => e.op == 0x01 && !e.wait && !e.fail && e.data.isNone

/-- R407: SUBMIT reads its Faquin file. -/
def execSubmit (s : State) : Host.Outcome State Fault Refusal :=
  done s .submit (s.dmaUp && s.setter.toRead.isSome) (s.issueRead (s.setter.toRead.getD 0))

/-! ### Commands at the front of intake -/

/-- An argument: `n` bytes at entry offset `o`. -/
def Entry.arg (e : Entry) (o n : Nat) : Nat := le e.args (o - 0x18) n

/-- Whether the front of intake is a command `op` that the Setter firmware can carry out: no transaction before it is still
being built, and its data has come. -/
def State.ready (s : State) (op : Nat) : Bool :=
  s.awake && s.s2Runs && s.setter.builds.isEmpty &&
    (match s.setter.intake with
      | e :: _ => e.op == op && (!e.reads || e.fail || e.data.isSome)
      | [] => false)

/-- The command at the front leaves intake and acts; `owner`: a P0 command, refused with NOT_OWNER to others (R407). A
failed read refuses it with DMA_ERROR (R412). -/
def State.perform (s : State) (owner : Bool) (f : State → Entry → State) : State :=
  match s.setter.intake with
  | e :: _ =>
    let t := s.popIntake
    if owner ∧ e.part ≠ 0 then t.completeWith e 0x41
    else if e.fail then t.completeWith e 0x42
    else f t e
  | [] => s

/-- The bytes that a command has read. -/
def Entry.bytes (e : Entry) : List Byte := e.data.getD []

/-- R402, R408. -/
def execRelease (s : State) : Host.Outcome State Fault Refusal :=
  done s .release (s.ready 0x02) (s.perform false fun s e => s.dropGraph e.part e)

/-! ### Policy (R400 to R403) -/

/-- R64, R401: what a new quota table breaks for resource (`r`, `u`), in which partition `p` changes. -/
def State.quotaFault (s : State) (q : Memory (Nat × Nat)) (p r u : Nat) : Option Nat :=
  let cap := s.cap r u
  let c0 := ((List.range 4).drop 1).foldl (fun n k => n + (quotaOf q cap k r u).2) 0
  let past := fun (k : Nat) =>
    let l := quotaOf q cap k r u
    let x := Memory.get (fun _ => (0, 0)) (s.setter.part k).use (16 * r + u)
    decide (l.1 < x.1) || decide (l.2 < x.2)
  if cap < c0 then some 0x44 else if past p || past 0 then some 0x45 else none

/-- R401: SET_QUOTA; P0's own quota is what the others leave, so it is no argument. -/
def State.setQuota (s : State) (e : Entry) : State :=
  let p := e.arg 0x18 1
  let r := e.arg 0x19 1
  let u := e.arg 0x1A 1
  let l := e.arg 0x1C 4
  let c := e.arg 0x20 4
  if p = 0 ∨ 4 ≤ p ∨ !quotaKeys.contains (r, u) ∨ l < c then s.completeWith e 0x43
  else
    let q := Memory.set (fun _ => (0, 0)) s.host.pol.quota (quotaKey p r u) (l, c)
    match s.quotaFault q p r u with
    | some code => s.completeWith e code
    | none => (s.withHost fun h => { h with pol := { h.pol with quota := q } }).completeWith e 0

def execSetQuota (s : State) : Host.Outcome State Fault Refusal := done s .setQuota (s.ready 0x10) (s.perform true State.setQuota)

/-- R401. -/
def State.setPriority (s : State) (e : Entry) : State :=
  let p := e.arg 0x18 1
  if 4 ≤ p then s.completeWith e 0x43
  else (s.withHost fun h => { h with pol := { h.pol with prio := Memory.set prioReset h.pol.prio p (e.arg 0x19 1) } }).completeWith e 0

def execSetPriority (s : State) : Host.Outcome State Fault Refusal :=
  done s .setPriority (s.ready 0x11) (s.perform true State.setPriority)

/-- A grant less the SIDs from `f` to `f + n − 1` (R402). -/
def Grant.less (g : Grant) (f n : Nat) : List Grant :=
  let lo : Grant := ⟨g.reader, g.first, min g.count (f - g.first)⟩
  let hi : Grant := ⟨g.reader, max g.first (f + n), g.first + g.count - max g.first (f + n)⟩
  [lo, hi].filter fun x => x.count != 0

/-- R402: a change of the grants by `f` of the reader, first SID and count; a reader holds at most 256 ranges. -/
def State.grants (s : State) (e : Entry) (f : List Grant → Nat → Nat → Nat → List Grant) : State :=
  let r := e.arg 0x18 1
  let first := e.arg 0x1A 2
  let n := e.arg 0x1C 2
  if 4 ≤ r ∨ first = 0 ∨ planeSize < first + n then s.completeWith e 0x43
  else
    let l := f s.host.pol.grants r first n
    if 256 < (l.filter (·.reader == r)).length then s.completeWith e 0x43
    else (s.withHost fun h => { h with pol := { h.pol with grants := l } }).completeWith e 0

def execGrant (s : State) : Host.Outcome State Fault Refusal :=
  done s .grant (s.ready 0x12) (s.perform true fun s e => s.grants e fun l r f n =>
    if n = 0 ∨ l.contains ⟨r, f, n⟩ then l else l ++ [⟨r, f, n⟩])

/-- R29, R402: REVOKE: the reader's graph hears silence where it now reads without a grant. -/
def State.revoke (s : State) (e : Entry) : State :=
  let t := s.grants e fun l r f n => l.flatMap fun g => if g.reader = r then g.less f n else [g]
  if e.arg 0x18 1 < 4 then t.silence (e.arg 0x18 1) else t

def execRevoke (s : State) : Host.Outcome State Fault Refusal := done s .revoke (s.ready 0x13) (s.perform true State.revoke)

/-- R394. -/
def State.mapSpi (s : State) (e : Entry) : State :=
  let t := e.arg 0x18 1
  let m := e.arg 0x19 1
  if 2 ≤ t ∨ (4 ≤ m ∧ m ≠ 0xFF) then s.completeWith e 0x43 else (s.withHost fun h => h.mapSpi t m).completeWith e 0

def execMapSpi (s : State) : Host.Outcome State Fault Refusal := done s .mapSpi (s.ready 0x14) (s.perform true State.mapSpi)

/-- R275, R281: owner, SHARED_RD and VALID of `n` pages from `f`. -/
def MemSys.setPages (m : MemSys) (f n v : Nat) : MemSys :=
  (List.range n).foldl (fun m i =>
    let p := f + i
    { m with r := { m.r with xown := Memory.set xownReset m.r.xown (p / 8) ((Memory.get xownReset m.r.xown (p / 8)).setFld (4 * (p % 8)) 4 v) } }) m

def State.setXram (s : State) (e : Entry) : State :=
  let f := e.arg 0x18 1
  let n := e.arg 0x19 1
  let o := e.arg 0x1A 1
  let v := e.arg 0x1B 1
  if 64 < f + n ∨ 4 ≤ o then s.completeWith e 0x43
  else (s.withMem fun m => m.setPages f n (8 * (v % 2) + 4 * (v / 2 % 2) + o)).completeWith e 0

def execSetXram (s : State) : Host.Outcome State Fault Refusal := done s .setXram (s.ready 0x15) (s.perform true State.setXram)

/-- R457: a write of the journal, refused with KS_FULL when the settings would grow too large. -/
def State.stored (s : State) (e : Entry) (b : Option Boot) : State :=
  match b with
  | some b => ({ s with boot := b } : State).completeWith e 0
  | none => s.completeWith e 0x54

/-- R400. -/
def execSavePolicy (s : State) : Host.Outcome State Fault Refusal :=
  done s .savePolicy (s.ready 0x16) (s.perform true fun s e => s.stored e (s.boot.put policyKey s.policyBytes))

/-- R408, R420. -/
def execResetPartition (s : State) : Host.Outcome State Fault Refusal :=
  done s .resetPartition (s.ready 0x17) (s.perform true fun s e =>
    let p := e.arg 0x18 1
    if 4 ≤ p then s.completeWith e 0x43 else s.resetPart p e)

/-! ### Images, fuses (R451, R453 to R455, R458) -/

/-- The end of an image command: IMG_STATE when it comes out of turn. -/
def State.imaged (s : State) (e : Entry) (b : Option Boot) : State :=
  match b with
  | some b => ({ s with boot := b } : State).completeWith e 0
  | none => s.completeWith e 0x50

def execImgBegin (s : State) : Host.Outcome State Fault Refusal :=
  done s .imgBegin (s.ready 0x20) (s.perform true fun s e =>
    let n := e.arg 0x18 4
    if slotSize < n then s.completeWith e 0x43 else s.imaged e (s.boot.imgBegin n))

def execImgData (s : State) : Host.Outcome State Fault Refusal :=
  done s .imgData (s.ready 0x21) (s.perform true fun s e => s.imaged e (s.boot.imgData (e.arg 0x18 4) e.bytes))

/-- R451 steps 2 and 3; IMG_VERIFY gives the failing byte. -/
def execImgFinish (s : State) : Host.Outcome State Fault Refusal :=
  done s .imgFinish (s.ready 0x22) (s.perform true fun s e =>
    match s.boot.imgFinish with
    | none => s.completeWith e 0x50
    | some (b, none) => ({ s with boot := b } : State).completeWith e 0
    | some (b, some o) => ({ s with boot := b } : State).complete e
        { complOf e 0x51 with epoch := (s.setter.part e.part).epoch, errOff := o })

def execImgActivate (s : State) : Host.Outcome State Fault Refusal :=
  done s .imgActivate (s.ready 0x23) (s.perform true fun s e => s.imaged e s.boot.imgActivate)

/-- R453: fuses are blown; which of them a programming that does not read back right has left blown is open. -/
def State.rollback (s : State) (e : Entry) (votp readback : Bool) : State :=
  if !votp then s.completeWith e 0x53
  else
    let o := s.boot.otp
    let want := (o.raise s.boot.svn).fuses
    if readback then
      let s := s.withBoot fun b => { b with otp := { o with fuses := want } }
      s.complete e { complOf e 0 with epoch := (s.setter.part e.part).epoch, need := s.boot.otp.count }
    else
      let t := s.take 1
      (t.2.withBoot fun b => { b with otp := { o with fuses := o.fuses ||| (want &&& Config.freeNat t.1) } }).completeWith e 0x56

def execRollbackRaise (votp readback : Bool) (s : State) : Host.Outcome State Fault Refusal :=
  done s (.rollbackRaise votp readback) (s.ready 0x24) (s.perform true fun s e => s.rollback e votp readback)

/-- R455: the next pair of life-cycle fuses, a wipe of the Locket, and a restart from S0. -/
def State.lcAdvance (s : State) (e : Entry) (votp readback : Bool) : State :=
  let o := s.boot.otp
  if e.arg 0x18 1 ≠ o.state + 1 ∨ 4 ≤ o.state then s.completeWith e 0x52
  else if e.arg 0x1C 4 ≠ o.devId % 2 ^ 32 then s.completeWith e 0x43
  else if !votp then s.completeWith e 0x53
  else if readback then
    ((s.withBoot fun b => { b with otp := o.advance }).withMem fun m => m.wipe false).restart false
  else
    let t := s.take 1
    (t.2.withBoot fun b => { b with otp := { o with lc := o.lc ||| (o.advance.lc &&& Config.freeNat t.1) } }).completeWith e 0x56

def execLcAdvance (votp readback : Bool) (s : State) : Host.Outcome State Fault Refusal :=
  done s (.lcAdvance votp readback) (s.ready 0x25) (s.perform true fun s e => s.lcAdvance e votp readback)

/-! ### Keepsake, Hallmark, keys (R428, R444, R454, R457, R458) -/

/-- R457: whether hosts write a key's namespace. -/
def hostKey (k : Nat) : Bool := 0x5000 ≤ k && k < 0xF000

def execKsPut (s : State) : Host.Outcome State Fault Refusal :=
  done s .ksPut (s.ready 0x26) (s.perform true fun s e =>
    let k := e.arg 0x18 2
    if !hostKey k then s.completeWith e 0x55
    else if 4064 < e.len then s.completeWith e 0x43
    else s.stored e (s.boot.put k e.bytes))

def execKsDel (s : State) : Host.Outcome State Fault Refusal :=
  done s .ksDel (s.ready 0x27) (s.perform true fun s e =>
    let k := e.arg 0x18 2
    if !hostKey k then s.completeWith e 0x55 else s.stored e (some (s.boot.del k)))

/-- R428: the copy of the early block that is not in use is written, SEQ one above the copy in use, the CRC last. -/
def State.earlyWrite (s : State) (e : Entry) : State :=
  let b := earlyStamp e.bytes s.clasp.seq
  if earlyValid b then
    let a := 0x100000 + 4096 * (1 - s.clasp.copy)
    ({ s with boot := (s.boot.erase a 4096).program a b } : State).completeWith e 0
  else s.completeWith e 0x43

def execEarlyWrite (s : State) : Host.Outcome State Fault Refusal :=
  done s .earlyWrite (s.ready 0x28) (s.perform true State.earlyWrite)

/-- R444, R458; the record's EVENT code is open. -/
def State.hmExtend (s : State) (e : Entry) : State :=
  let t := s.take 1
  (t.2.withBoot fun b => b.extend 7 e.bytes s.us (Config.freeNat t.1)).completeWith e 0

def execHmExtend (s : State) : Host.Outcome State Fault Refusal := done s .hmExtend (s.ready 0x29) (s.perform true State.hmExtend)

/-- R451, R458: the log records go to ADDR, as many bytes as LEN takes. -/
def State.logRead (s : State) (e : Entry) : State :=
  let bs := (s.boot.log.flatMap HmRec.bytes).take e.len
  let a := e.addr / 8 * 8
  let s := if bs.isEmpty then s
    else if e.addr % 2 = 1 then s.putXram [(a % 2 ^ 18, bs)] else s.emit (.busWrite e.part a bs)
  s.completeWith e 0

/-- Whether the front command's own writes to host memory can issue (R412). -/
def State.canWrite (s : State) : Bool :=
  match s.setter.intake with
  | e :: _ => e.addr % 2 == 1 || e.part != 0 || s.host.pcie.bme.testBit 0
  | [] => false

def execLogRead (s : State) : Host.Outcome State Fault Refusal :=
  done s .logRead (s.ready 0x2A && s.canWrite) (s.perform true State.logRead)

/-- R399, R454, R458: the wrapping nonce is open. -/
def State.keySet (s : State) (e : Entry) : State :=
  let p := e.arg 0x18 1
  if e.len ≠ 32 ∨ 4 ≤ p then s.completeWith e 0x43
  else if s.mem.locked ∨ s.boot.devKey.isNone then s.completeWith e 0x59
  else
    let t := s.take 1
    t.2.stored e (t.2.boot.storeKey p e.bytes (leBytes 12 (Config.freeNat t.1)))

def execKeySet (s : State) : Host.Outcome State Fault Refusal := done s .keySet (s.ready 0x2B) (s.perform true State.keySet)

/-! ### Power commands (R464) -/

/-- R464: the completion is written before the handshake begins. -/
def State.pwrCommand (s : State) (e : Entry) (dormant wake : Bool) : State :=
  if s.held then s.completeWith e 0x57
  else (s.completeWith e (if s.power.wakeN then 0 else 0x58)).requestEntry dormant wake

def execPwrStandby (wake : Bool) (s : State) : Host.Outcome State Fault Refusal :=
  done s (.pwrStandby wake) (s.ready 0x30) (s.perform true fun s e => s.pwrCommand e false wake)

/-- R464: AON_S is loaded unless it is all ones. -/
def State.pwrDormant (s : State) (e : Entry) (wake : Bool) : State :=
  let a := e.arg 0x18 4
  if a ≠ 2 ^ 32 - 1 ∧ 86400 < a then s.completeWith e 0x43
  else
    let s := if a = 2 ^ 32 - 1 ∨ s.held ∨ !s.power.wakeN then s else s.withPower fun p => { p with aonS := a }
    s.pwrCommand e true wake

def execPwrDormant (wake : Bool) (s : State) : Host.Outcome State Fault Refusal :=
  done s (.pwrDormant wake) (s.ready 0x31) (s.perform true fun s e => s.pwrDormant e wake)

end Sys2Proof.Machine
end

