-- ==== Sys2Proof/Machine/SetterOps.lean ====
section
/-!
DEFINITION. Meanings of the commands of the Setter (R205 to R257, R147, R379).
-/

namespace Sys2Proof.Machine

/-- R233: the next transaction of intake; `plan` is what the Setter's placement finds. -/
def execTransactionStart (plan : Plan) (s : State) : Host.Outcome State Fault Refusal :=
  done s (.transactionStart plan) (s.awake && s.s2Runs && s.setterFree) (s.txnStart plan)

/-- R241, R255: the Setter has written and armed every unit, none of which has another swap armed; `ns` gives tick 0 of the domains
that start. -/
def execArmingComplete (ns : List Nat) (s : State) : Host.Outcome State Fault Refusal :=
  done s (.armingComplete ns) (s.working && s.s2Runs && s.mayArm) (s.arm ns)

/-- R243, R257. -/
def execEpochCompletion (p : Nat) (s : State) : Host.Outcome State Fault Refusal :=
  done s (.epochCompletion p) s.awake (s.epochCompletion p)

/-- R244. -/
def execRemovalSwap (p : Nat) (s : State) : Host.Outcome State Fault Refusal := done s (.removalSwap p) s.awake (s.removalSwap p)

/-- R248, R408. -/
def execDipSwap (p : Nat) (s : State) : Host.Outcome State Fault Refusal := done s (.dipSwap p) s.awake (s.dipSwap p)

/-- R248. -/
def execFadeInStart (p : Nat) (s : State) : Host.Outcome State Fault Refusal := done s (.fadeInStart p) s.awake (s.fadeInStart p)

/-- R147. -/
def execDelayGeometrySwap (p : Nat) (s : State) : Host.Outcome State Fault Refusal :=
  done s (.delayGeometrySwap p) s.awake (s.geometrySwap p)

/-- R253. -/
def execSmoothStep (p : Nat) (s : State) : Host.Outcome State Fault Refusal := done s (.smoothStep p) s.awake (s.smoothStep p)

/-- R59, R272, R379: a unit is out of service: a Facet or a tile, a lane group's lanes, or a bank while the spare is in use. -/
def State.retireUnit (s : State) (cls unit : Nat) : State :=
  if cls = 15 then s.withLinks fun l => l.retire unit
  else if cls = 4 then s.withMem fun m => m.bankFails unit
  else if cls = 1 ∨ cls = 2 then s.withSetter fun x => { x with retired := x.retired ++ [(cls, unit)] }
  else s

/-- R256: armed epochs are disarmed, and the unit is out of service. -/
def State.afterRetire (s : State) (cls unit : Nat) : State :=
  ((List.range 4).foldl (fun s p => s.disarm p) s).retireUnit cls unit

/-- R256: the partitions that hold work of the unit. -/
def State.losers (s : State) (cls unit : Nat) : List Nat :=
  (List.range 4).filter fun p =>
    let l := (s.setter.part p).work.lost cls unit
    !l.calls.isEmpty || !l.lines.isEmpty || !(lostChans (s.setter.part p).graph l cls unit).isEmpty

/-- What the plans of a retirement shed together, and the plans, each with all of it. -/
def shedOf (plans : List (Nat × Plan)) : List (Nat × Nat) := plans.flatMap fun x => x.2.shed
def withShed (plans : List (Nat × Plan)) : List (Nat × Plan) := plans.map fun x => (x.1, { x.2 with shed := shedOf plans })

/-- R59, R62, R256: the plans are those of the partitions that lost work, each legal beside the others, and shed from the front of the
order. -/
def State.plansLegal (s : State) (cls unit : Nat) (plans : List (Nat × Plan)) : Bool :=
  let t := s.afterRetire cls unit
  let rs := (withShed plans).map (t.replaceOf cls unit)
  let ps : List Nat := plans.map (·.1)
  decide ps.Nodup && (t.losers cls unit).all ps.contains && ps.all (t.losers cls unit).contains && shedFront s.shedOrder (shedOf plans) &&
    rs.all fun r => t.replaceLegal r (Placed.join ((List.range 4).filterMap fun q => if q = r.part then none else
      some ((((t.setter.part q).work.minus ((t.setter.part q).work.lost cls unit)).add (Placed.join ((rs.filter (·.part == q)).map (·.new)))).without
        (t.shedNodes q (shedOf plans)))))

/-- R256: armed epochs are disarmed, the unit is retired, and the partitions that `plans` names are placed again. The detail of the report
names the partitions that used the unit: bit p, and bit 4 when a C0 path did. -/
def State.unitRetired (s : State) (cls unit : Nat) (plans : List (Nat × Plan)) : State :=
  let t := s.afterRetire cls unit
  let rs := (withShed plans).map (t.replaceOf cls unit)
  let us := s.unitUsers cls unit
  let mask := us.foldl (fun m u => m ||| 2 ^ u.1 ||| if u.2 then 16 else 0) 0
  let t := t.note ⟨0x0A00, cls, if cls = 15 then 64 * unit else unit, 3, false, false, mask⟩
  let t := if plans.isEmpty then t else t.withHealth fun h => { h with retired := h.retired ++ [(cls, unit)] }
  let t := rs.foldl (fun t r => t.lose r.part cls unit) (t.shedNow ((shedOf plans).filter fun x => plans.all fun y => y.1 != x.1))
  rs.foldl (fun t r => t.replace r) t

def execUnitRetired (cls unit : Nat) (plans : List (Nat × Plan)) (s : State) : Host.Outcome State Fault Refusal :=
  done s (.unitRetired cls unit plans) (s.awake && (cls != 4 || s.mem.spareFor.isSome) && s.plansLegal cls unit plans)
    (s.unitRetired cls unit plans)

end Sys2Proof.Machine
end

