-- ==== Sys2Proof/Machine/HealthOps.lean ====
section
/-!
DEFINITION. Meanings of the commands of the health unit, the GPIO inputs and the JTAG port (R473 to R488, R517).
-/

namespace Sys2Proof.Machine

/-! ### Arrival of a report (R473 to R483) -/

/-- Whether the health unit runs. -/
def State.healthRuns (s : State) : Bool := s.awake && s.boot.at_ != .wait

/-- R474: the lowest-numbered running domain, 3 for none. -/
def State.lowRunning (s : State) : Nat := ((List.range 3).find? fun k => (s.dom k).run).getD 3

/-- R474: the domain that keys a report's record. -/
def State.recordDom (s : State) (r : Report) : Nat := if r.dom < 3 ∧ (s.dom r.dom).run then r.dom else s.lowRunning

/-- Partitions whose graph holds a node that meets `f`. -/
def State.partsWith (s : State) (f : GNode → Bool) : List Nat := (List.range 4).filter fun p => (s.setter.part p).graph.nodes.any f

/-- R56, R481: the partitions that a report affects, true for those of which a C0 path uses the reporter. A retirement names them itself,
a line's fault those of the line. Open records send the causes of the device-wide classes to every partition. DEDUCED (log 38): a
path uses a Facet, a tile or a bank when its work there does, whichever word an error hits. -/
def State.affects (s : State) (r : Report) : List (Nat × Bool) :=
  let plain := List.map fun p => (p, false)
  if r.cause = 0xA00 then ((List.range 4).filter r.detail.testBit).map fun p => (p, r.detail.testBit 4)
  else match r.cls with
  | 6 => plain (s.partsWith fun n => (n.typ == tSrcStream || n.typ == tSnkStream) && (n.a8 3).testBit r.inst)
  | 8 => plain (if (s.net.rxc r.inst).used then [(s.net.rxc r.inst).part] else [])
  | 9 => plain (if (s.net.txc r.inst).used then [(s.net.txc r.inst).part] else [])
  | 15 => plain (if (s.links.lane r.inst).used then [(s.links.lane r.inst).part] else [])
  | 17 => plain [r.inst]
  | 20 => plain [(s.pin r.inst).cfg.fld 26 2]
  | 1 | 2 | 4 => s.unitUsers r.cls r.inst
  | 5 =>
    let id := r.detail / 2 ^ 48
    if id = 0 then s.unitUsers 5 r.inst
    else (s.unitUsers 5 r.inst).filter fun u => (s.setter.part u.1).work.lines.any fun l => l.at_.id + 1 == id
  | _ =>
    match portOfClass r.cls r.inst with
    | some p => plain (s.partsWith fun n => (n.typ == tSrcPort || n.typ == tSnkPort) && nodePort n == some p)
    | none => []

/-- R145, R475: the causes that fail R55 for the paths that use a resource: uncorrectable memory errors, a late word of a delay line,
the retirement of a unit. -/
def ueCauses : List Nat := [0x106, 0x205, 0x400, 0x504, 0x505, 0xA00]

/-- Whether the device carries a C0 path (R51). -/
def State.hasC0 (s : State) : Bool := (List.range 4).any fun p => !(s.setter.part p).graph.c0Chans.isEmpty

/-- R55, R58, R475: whether the cause makes a condition of the guarantee fail for a C0 path, or reports that one is shed. -/
def State.c0Cause (s : State) (r : Report) : Bool :=
  !r.clear && (([0x600, 0xB03, 0xB04].contains r.cause && s.hasC0) || (ueCauses.contains r.cause && (s.affects r).any (·.2))
    || (r.cause == 0xA01 && r.detail % 4 == 0))

/-- R473: the oldest report on the report network arrives and is stamped. -/
def State.reportArrives (s : State) : State :=
  match s.health.flying with
  | [] => s
  | r :: rest =>
    let s := s.screened
    let dom := s.recordDom r
    let a : Arrived := ⟨r.inst, s.ns, if dom < 3 then s.period dom else 0, (s.affects r).map (·.1), s.c0Cause r⟩
    s.withHealth fun h => ({ h with flying := rest } : Health).arrive s.scope s.activeParents r dom s.us a

def execReportArrival (s : State) : Host.Outcome State Fault Refusal :=
  done s .reportArrival (s.healthRuns && !s.health.flying.isEmpty) s.reportArrives

/-! ### Delivery (R480 to R482) -/

/-- R481: the oldest record that is due closes: it goes to the global ring and to the fault rings of the affected partitions. -/
def State.recordCloses (s : State) : State :=
  let s := s.screened
  match s.health.due s.us with
  | none => s
  | some o => o.affected.foldl (fun s p => s.hostPut fun h => h.putFault p o.bytes) (s.withHealth fun h => h.close s.us)

def execRecordClose (s : State) : Host.Outcome State Fault Refusal :=
  done s .recordClose (s.healthRuns && (s.screened.health.due s.us).isSome) s.recordCloses

/-- R482: HLT_STAT.FAULT is cleared. -/
def execFaultClear (reader : Nat) (s : State) : Host.Outcome State Fault Refusal :=
  done s (.faultClear reader) (s.commands reader) (s.withHealth Health.clearFault)

/-! ### GPIO (R484 to R486) -/

/-- R446, R484: whether GPIO `n` is an input of the device now. -/
def State.gpioUp (s : State) (n : Nat) : Bool := s.healthRuns && (n < 12 || s.bootStatPins.isNone)

/-- A GPIO operation with its reports. -/
def State.onPin (s : State) (n : Nat) (r : Gpio × List (Nat × Bool)) : State :=
  (s.setPin n r.1).notes (r.2.map fun x => ⟨x.1, 20, n, 3, x.2, false, 0⟩)

def execGpioAccept (pin : Nat) (level : Bool) (s : State) : Host.Outcome State Fault Refusal :=
  done s (.gpioAccept pin level) (s.gpioUp pin) (s.onPin pin ((s.pin pin).accept level s.us))

def execGpioStuck (pin : Nat) (s : State) : Host.Outcome State Fault Refusal :=
  done s (.gpioStuck pin) (s.gpioUp pin) (s.onPin pin ((s.pin pin).goStuck s.us))

def execGpioRearm (reader mask : Nat) (s : State) : Host.Outcome State Fault Refusal :=
  done s (.gpioRearm reader mask) (s.commands reader) (s.rearm mask)

/-! ### JTAG (R517) -/

/-- R517: TRST_N low or five TCK cycles with TMS high: the TAP resets and the device is not affected. -/
def execJtagReset (s : State) : Host.Outcome State Fault Refusal :=
  done s .jtagReset s.powered { s with jtag := { s.jtag with ir := .idcode } }

/-- Instruction `i` selects a register that has captured `cap` and is not updated. -/
def State.scan (s : State) (i : JtagInstr) (cap bits : List Bool) : State :=
  ({ s with jtag := { s.jtag with ir := i } } : State).emit (.jtag (shiftOut cap bits))

/-- Instruction `i` selects the boundary chain: it captures the pins and is updated with what was shifted in. -/
def State.boundary (s : State) (i : JtagInstr) (pins bits : List Bool) : State :=
  ({ s with jtag := ⟨i, shiftIn pins bits⟩ } : State).emit (.jtag (shiftOut pins bits))

def execBypass (bits : List Bool) (s : State) : Host.Outcome State Fault Refusal :=
  done s (.bypass bits) s.powered (s.scan .bypass [false] bits)

def execIdcode (bits : List Bool) (s : State) : Host.Outcome State Fault Refusal :=
  done s (.idcode bits) s.powered (s.scan .idcode idcodeBits bits)

def execSamplePreload (pins bits : List Bool) (s : State) : Host.Outcome State Fault Refusal :=
  done s (.samplePreload pins bits) s.powered (s.boundary .sample pins bits)

def execExtest (pins bits : List Bool) (s : State) : Host.Outcome State Fault Refusal :=
  done s (.extest pins bits) s.powered (s.boundary .extest pins bits)

def execHighz (bits : List Bool) (s : State) : Host.Outcome State Fault Refusal :=
  done s (.highz bits) s.powered (s.scan .highz [false] bits)

def execClamp (bits : List Bool) (s : State) : Host.Outcome State Fault Refusal :=
  done s (.clamp bits) s.powered (s.scan .clamp [false] bits)

def execExtestPulse (pins bits : List Bool) (s : State) : Host.Outcome State Fault Refusal :=
  done s (.extestPulse pins bits) s.powered (s.boundary .pulse pins bits)

def execExtestTrain (pins bits : List Bool) (s : State) : Host.Outcome State Fault Refusal :=
  done s (.extestTrain pins bits) s.powered (s.boundary .train pins bits)

end Sys2Proof.Machine
end

