-- ==== Sys2Proof/Machine/Dispatch.lean ====
section
/-!
DEFINITION. The dispatch: one arm per command.
-/

namespace Sys2Proof.Machine

/-- A command's effect on everything but the queue. -/
def exec (i : Instr) (s : State) : Host.Outcome State Fault Refusal :=
  match i with
  | .por => Sys2Proof.Machine.execPor s
  | .earlyBlockReadDone answers => Sys2Proof.Machine.execEarlyBlockReadDone answers s
  | .earlyBlockSelect => Sys2Proof.Machine.execEarlyBlockSelect s
  | .corePllStartTimeout edges => Sys2Proof.Machine.execCorePllStartTimeout edges s
  | .corePllLock => Sys2Proof.Machine.execCorePllLock s
  | .s0Start sfdp low => Sys2Proof.Machine.execS0Start sfdp low s
  | .s1Start faulty => Sys2Proof.Machine.execS1Start faulty s
  | .dramTrainingDone ok densA ranksA densB ranksB => Sys2Proof.Machine.execDramTrainingDone ok densA ranksA densB ranksB s
  | .dramInitDone => Sys2Proof.Machine.execDramInitDone s
  | .s2Start => Sys2Proof.Machine.execS2Start s
  | .bootRelWrite val => Sys2Proof.Machine.execBootRelWrite val s
  | .fullService => Sys2Proof.Machine.execFullService s
  | .padRelease => Sys2Proof.Machine.execPadRelease s
  | .resetN => Sys2Proof.Machine.execResetN s
  | .recoveryPinHold => Sys2Proof.Machine.execRecoveryPinHold s
  | .recoveryBaudDetect baud => Sys2Proof.Machine.execRecoveryBaudDetect baud s
  | .hello frame => Sys2Proof.Machine.execHello frame s
  | .data frame => Sys2Proof.Machine.execData frame s
  | .go frame => Sys2Proof.Machine.execGo frame s
  | .tamperEvent src => Sys2Proof.Machine.execTamperEvent src s
  | .locketClearDone => Sys2Proof.Machine.execLocketClearDone s
  | .locketLockEnd => Sys2Proof.Machine.execLocketLockEnd s
  | .locketAccess who word wr => Sys2Proof.Machine.execLocketAccess who word wr s
  | .domainTick k ns e late => Sys2Proof.Machine.execDomainTick k ns e late s
  | .controlFabricAccess core addr wr => Sys2Proof.Machine.execControlFabricAccess core addr wr s
  | .facetGatherDone facet => Sys2Proof.Machine.execFacetGatherDone facet s
  | .bundleIssue facet => Sys2Proof.Machine.execBundleIssue facet s
  | .operationLanding facet => Sys2Proof.Machine.execOperationLanding facet s
  | .sharedBankStallEnd facet => Sys2Proof.Machine.execSharedBankStallEnd facet s
  | .loopExit facet => Sys2Proof.Machine.execLoopExit facet s
  | .facetPostDone facet cyc => Sys2Proof.Machine.execFacetPostDone facet cyc s
  | .tileAccumulationDone tile cyc => Sys2Proof.Machine.execTileAccumulationDone tile cyc s
  | .updatePush tile apply => Sys2Proof.Machine.execUpdatePush tile apply s
  | .gainTimeout tile => Sys2Proof.Machine.execGainTimeout tile s
  | .gainRampDone tile => Sys2Proof.Machine.execGainRampDone tile s
  | .bankAccess bank cycle arrive ups => Sys2Proof.Machine.execBankAccess bank cycle arrive ups s
  | .atomicComplete bank => Sys2Proof.Machine.execAtomicComplete bank s
  | .pacerRelease bank cycle => Sys2Proof.Machine.execPacerRelease bank cycle s
  | .scrubRead ups => Sys2Proof.Machine.execScrubRead ups s
  | .bistLendStart => Sys2Proof.Machine.execBistLendStart s
  | .bistWordMove => Sys2Proof.Machine.execBistWordMove s
  | .marchTestDone faulty => Sys2Proof.Machine.execMarchTestDone faulty s
  | .xramPortAAccess core word wr => Sys2Proof.Machine.execXramPortAAccess core word wr s
  | .xramPortBAccess b co => Sys2Proof.Machine.execXramPortBAccess b co s
  | .hostDmaAccess pf part addr op => Sys2Proof.Machine.execHostDmaAccess pf part addr op s
  | .dramAccess ch arrive ups => Sys2Proof.Machine.execDramAccess ch arrive ups s
  | .dqsTracking ch => Sys2Proof.Machine.execDqsTracking ch s
  | .mr4Read ch codes => Sys2Proof.Machine.execMr4Read ch codes s
  | .dramRefresh ch => Sys2Proof.Machine.execDramRefresh ch s
  | .dramScrubRead ups => Sys2Proof.Machine.execDramScrubRead ups s
  | .dramCrefLoss => Sys2Proof.Machine.execDramCrefLoss s
  | .dramCrefReturn => Sys2Proof.Machine.execDramCrefReturn s
  | .streamBurstWrite line q => Sys2Proof.Machine.execStreamBurstWrite line q s
  | .streamBurstFetch line q => Sys2Proof.Machine.execStreamBurstFetch line q s
  | .streamDeadlineMiss line n => Sys2Proof.Machine.execStreamDeadlineMiss line n s
  | .corePllLost cause => Sys2Proof.Machine.execCorePllLost cause s
  | .rescueExit => Sys2Proof.Machine.execRescueExit s
  | .rescueRecommit p => Sys2Proof.Machine.execRescueRecommit p s
  | .referenceLoss input es mean => Sys2Proof.Machine.execReferenceLoss input es mean s
  | .referenceQualified input es freq => Sys2Proof.Machine.execReferenceQualified input es freq s
  | .mpllSourceWrite reader code es freq => Sys2Proof.Machine.execMpllSourceWrite reader code es freq s
  | .mpllEnableWrite reader on es freq => Sys2Proof.Machine.execMpllEnableWrite reader on es freq s
  | .compatLockTimer => Sys2Proof.Machine.execCompatLockTimer s
  | .mpllLockSet => Sys2Proof.Machine.execMpllLockSet s
  | .mpllLockClear => Sys2Proof.Machine.execMpllLockClear s
  | .tolClamp k => Sys2Proof.Machine.execTolClamp k s
  | .clampExit k e => Sys2Proof.Machine.execClampExit k e s
  | .slewDone k e => Sys2Proof.Machine.execSlewDone k e s
  | .stepFadeEnd k => Sys2Proof.Machine.execStepFadeEnd k s
  | .policyWrite reader k code => Sys2Proof.Machine.execPolicyWrite reader k code s
  | .stepNow reader k => Sys2Proof.Machine.execStepNow reader k s
  | .slewAny reader k => Sys2Proof.Machine.execSlewAny reader k s
  | .domainStop k => Sys2Proof.Machine.execDomainStop k s
  | .domainRestart k => Sys2Proof.Machine.execDomainRestart k s
  | .domainTickRead reader k => Sys2Proof.Machine.execDomainTickRead reader k s
  | .clkoutConfigWrite reader out div val => Sys2Proof.Machine.execClkoutConfigWrite reader out div val s
  | .syncInEdge falling ns => Sys2Proof.Machine.execSyncInEdge falling ns s
  | .clkoutResync => Sys2Proof.Machine.execClkoutResync s
  | .linkUp port => Sys2Proof.Machine.execLinkUp port s
  | .linkDown port los blk ber => Sys2Proof.Machine.execLinkDown port los blk ber s
  | .i2cTransfer reader val => Sys2Proof.Machine.execI2cTransfer reader val s
  | .i2cDone ack data => Sys2Proof.Machine.execI2cDone ack data s
  | .frameReceive port ns frame es freq => Sys2Proof.Machine.execFrameReceive port ns frame es freq s
  | .gratuitousArp port => Sys2Proof.Machine.execGratuitousArp port s
  | .arpRefresh port ip => Sys2Proof.Machine.execArpRefresh port ip s
  | .arpRetry port ip => Sys2Proof.Machine.execArpRetry port ip s
  | .arpUnresolved port ip => Sys2Proof.Machine.execArpUnresolved port ip s
  | .igmpQueryResponse port => Sys2Proof.Machine.execIgmpQueryResponse port s
  | .igmpReportRetransmit port => Sys2Proof.Machine.execIgmpReportRetransmit port s
  | .legLoss ctx port ns => Sys2Proof.Machine.execLegLoss ctx port ns s
  | .streamLoss ctx ns => Sys2Proof.Machine.execStreamLoss ctx ns s
  | .packetDeparture ctx ns => Sys2Proof.Machine.execPacketDeparture ctx ns s
  | .announceTimeout port es freq => Sys2Proof.Machine.execAnnounceTimeout port es freq s
  | .syncTimeout port es freq => Sys2Proof.Machine.execSyncTimeout port es freq s
  | .ptpAnnounceTx port ns => Sys2Proof.Machine.execPtpAnnounceTx port ns s
  | .ptpSyncTx port ns => Sys2Proof.Machine.execPtpSyncTx port ns s
  | .ptpDelayReqTx port ns => Sys2Proof.Machine.execPtpDelayReqTx port ns s
  | .portFrameRx port frame => Sys2Proof.Machine.execPortFrameRx port frame s
  | .inputLoss port => Sys2Proof.Machine.execInputLoss port s
  | .lossRecovery port => Sys2Proof.Machine.execLossRecovery port s
  | .portFadeOutEnd port => Sys2Proof.Machine.execPortFadeOutEnd port s
  | .portRampBackEnd port => Sys2Proof.Machine.execPortRampBackEnd port s
  | .rateUpdate port rate domRate => Sys2Proof.Machine.execRateUpdate port rate domRate s
  | .tdmCommit reader port => Sys2Proof.Machine.execTdmCommit reader port s
  | .tdmCommitApply port => Sys2Proof.Machine.execTdmCommitApply port s
  | .portRestart reader port => Sys2Proof.Machine.execPortRestart reader port s
  | .startArm reader val => Sys2Proof.Machine.execStartArm reader val s
  | .audStartEdge ns => Sys2Proof.Machine.execAudStartEdge ns s
  | .linkSlip lane => Sys2Proof.Machine.execLinkSlip lane s
  | .linkUnlock lane fill => Sys2Proof.Machine.execLinkUnlock lane fill s
  | .laneLocked lane => Sys2Proof.Machine.execLaneLocked lane s
  | .claimStart reader => Sys2Proof.Machine.execClaimStart reader s
  | .claimSubmit reader => Sys2Proof.Machine.execClaimSubmit reader s
  | .claimResult p => Sys2Proof.Machine.execClaimResult p s
  | .claimRelease reader => Sys2Proof.Machine.execClaimRelease reader s
  | .enrol reader => Sys2Proof.Machine.execEnrol reader s
  | .enrolDone stored => Sys2Proof.Machine.execEnrolDone stored s
  | .nonceExpiry p => Sys2Proof.Machine.execNonceExpiry p s
  | .lockoutExpiry reader => Sys2Proof.Machine.execLockoutExpiry reader s
  | .partitionReset reader => Sys2Proof.Machine.execPartitionReset reader s
  | .sqDoorbell reader ring val => Sys2Proof.Machine.execSqDoorbell reader ring val s
  | .cqDoorbell reader ring val => Sys2Proof.Machine.execCqDoorbell reader ring val s
  | .frDoorbell reader val => Sys2Proof.Machine.execFrDoorbell reader val s
  | .entryFetched p entry tie => Sys2Proof.Machine.execEntryFetched p entry tie s
  | .submit => Sys2Proof.Machine.execSubmit s
  | .release => Sys2Proof.Machine.execRelease s
  | .setQuota => Sys2Proof.Machine.execSetQuota s
  | .setPriority => Sys2Proof.Machine.execSetPriority s
  | .grant => Sys2Proof.Machine.execGrant s
  | .revoke => Sys2Proof.Machine.execRevoke s
  | .mapSpi => Sys2Proof.Machine.execMapSpi s
  | .setXram => Sys2Proof.Machine.execSetXram s
  | .savePolicy => Sys2Proof.Machine.execSavePolicy s
  | .resetPartition => Sys2Proof.Machine.execResetPartition s
  | .imgBegin => Sys2Proof.Machine.execImgBegin s
  | .imgData => Sys2Proof.Machine.execImgData s
  | .imgFinish => Sys2Proof.Machine.execImgFinish s
  | .imgActivate => Sys2Proof.Machine.execImgActivate s
  | .rollbackRaise votp readback => Sys2Proof.Machine.execRollbackRaise votp readback s
  | .lcAdvance votp readback => Sys2Proof.Machine.execLcAdvance votp readback s
  | .ksPut => Sys2Proof.Machine.execKsPut s
  | .ksDel => Sys2Proof.Machine.execKsDel s
  | .earlyWrite => Sys2Proof.Machine.execEarlyWrite s
  | .hmExtend => Sys2Proof.Machine.execHmExtend s
  | .logRead => Sys2Proof.Machine.execLogRead s
  | .keySet => Sys2Proof.Machine.execKeySet s
  | .pwrStandby wake => Sys2Proof.Machine.execPwrStandby wake s
  | .pwrDormant wake => Sys2Proof.Machine.execPwrDormant wake s
  | .completionWrite p => Sys2Proof.Machine.execCompletionWrite p s
  | .interruptCoalesceTimeout p ring => Sys2Proof.Machine.execInterruptCoalesceTimeout p ring s
  | .dmaReadComplete p tap data => Sys2Proof.Machine.execDmaReadComplete p tap data s
  | .dmaTimeout p tap => Sys2Proof.Machine.execDmaTimeout p tap s
  | .flr pf => Sys2Proof.Machine.execFlr pf s
  | .perstN width speed => Sys2Proof.Machine.execPerstN width speed s
  | .recordTapBlockWrite p tap => Sys2Proof.Machine.execRecordTapBlockWrite p tap s
  | .meterWindowEnd p meter => Sys2Proof.Machine.execMeterWindowEnd p meter s
  | .spiReadFrame target cmd bits n co => Sys2Proof.Machine.execSpiReadFrame target cmd bits n co s
  | .spiWriteFrame target cmd bits words co => Sys2Proof.Machine.execSpiWriteFrame target cmd bits words co s
  | .registerWrite reader off bytes val chip rivals => Sys2Proof.Machine.execRegisterWrite reader off bytes val chip rivals s
  | .transactionStart plan => Sys2Proof.Machine.execTransactionStart plan s
  | .armingComplete ns => Sys2Proof.Machine.execArmingComplete ns s
  | .epochCompletion p => Sys2Proof.Machine.execEpochCompletion p s
  | .removalSwap p => Sys2Proof.Machine.execRemovalSwap p s
  | .dipSwap p => Sys2Proof.Machine.execDipSwap p s
  | .fadeInStart p => Sys2Proof.Machine.execFadeInStart p s
  | .delayGeometrySwap p => Sys2Proof.Machine.execDelayGeometrySwap p s
  | .smoothStep p => Sys2Proof.Machine.execSmoothStep p s
  | .unitRetired cls unit plans => Sys2Proof.Machine.execUnitRetired cls unit plans s
  | .lifelineFrame ins => Sys2Proof.Machine.execLifelineFrame ins s
  | .lifelinePllLock refin => Sys2Proof.Machine.execLifelinePllLock refin s
  | .lifelineClockMove port => Sys2Proof.Machine.execLifelineClockMove port s
  | .idleTimerExpiry wake => Sys2Proof.Machine.execIdleTimerExpiry wake s
  | .quiesceAnswer => Sys2Proof.Machine.execQuiesceAnswer s
  | .quiesceTimeout => Sys2Proof.Machine.execQuiesceTimeout s
  | .wakeNEdge held => Sys2Proof.Machine.execWakeNEdge held s
  | .aonTimerExpiry => Sys2Proof.Machine.execAonTimerExpiry s
  | .unitGate kind unit => Sys2Proof.Machine.execUnitGate kind unit s
  | .brownOut => Sys2Proof.Machine.execBrownOut s
  | .supplyLoss aon => Sys2Proof.Machine.execSupplyLoss aon s
  | .supplyLimit rail => Sys2Proof.Machine.execSupplyLimit rail s
  | .tempLimit temp => Sys2Proof.Machine.execTempLimit temp s
  | .reportArrival => Sys2Proof.Machine.execReportArrival s
  | .recordClose => Sys2Proof.Machine.execRecordClose s
  | .faultClear reader => Sys2Proof.Machine.execFaultClear reader s
  | .gpioAccept pin level => Sys2Proof.Machine.execGpioAccept pin level s
  | .gpioStuck pin => Sys2Proof.Machine.execGpioStuck pin s
  | .gpioRearm reader mask => Sys2Proof.Machine.execGpioRearm reader mask s
  | .jtagReset => Sys2Proof.Machine.execJtagReset s
  | .bypass bits => Sys2Proof.Machine.execBypass bits s
  | .idcode bits => Sys2Proof.Machine.execIdcode bits s
  | .samplePreload pins bits => Sys2Proof.Machine.execSamplePreload pins bits s
  | .extest pins bits => Sys2Proof.Machine.execExtest pins bits s
  | .highz bits => Sys2Proof.Machine.execHighz bits s
  | .clamp bits => Sys2Proof.Machine.execClamp bits s
  | .extestPulse pins bits => Sys2Proof.Machine.execExtestPulse pins bits s
  | .extestTrain pins bits => Sys2Proof.Machine.execExtestTrain pins bits s
  | .supplyExcursionEnd rail => Sys2Proof.Machine.execSupplyExcursionEnd rail s
  | .busMasterEnable pf on => Sys2Proof.Machine.execBusMasterEnable pf on s
  | .ringEnWrite reader kind ring val => Sys2Proof.Machine.execRingEnWrite reader kind ring val s
  | .tapEnWrite reader tap val => Sys2Proof.Machine.execTapEnWrite reader tap val s
  | .portEnWrite reader port val => Sys2Proof.Machine.execPortEnWrite reader port val s
  | .netPortEnWrite reader port val => Sys2Proof.Machine.execNetPortEnWrite reader port val s
  | .ptpCtlWrite reader val es freq => Sys2Proof.Machine.execPtpCtlWrite reader val es freq s
  | .latchingRegisterRead reader off bytes => Sys2Proof.Machine.execLatchingRegisterRead reader off bytes s
  | .dramInitCoversLoadArea mib => Sys2Proof.Machine.execDramInitCoversLoadArea mib s
  | .igmpCompatTimeout port => Sys2Proof.Machine.execIgmpCompatTimeout port s
  | .lifelineCrefLoss => Sys2Proof.Machine.execLifelineCrefLoss s

end Sys2Proof.Machine
end

