-- ==== Sys2Proof/Machine/Step.lean ====
section
/-!
DEFINITION. One step of the block: the command at the front of the queue, or a microsecond of idling.
-/

namespace Sys2Proof.Machine

/-- DESIGN CHOICE: with no command waiting, one microsecond passes, for the uptime and on the PTP timescale. The window of R38
in which a tile publishes, of 256 cycles, is then over. -/
def State.idle (s : State) : State :=
  { s with us := s.us + 1, ns := s.ns + 1000, tiles := s.tiles.map fun e => (e.1, e.2.published) }

/-- The command at the front of the queue acts on the state with the rest of the queue. -/
def step (s : State) : Host.Outcome State Fault Refusal :=
  match s.pending with
  | [] => .next s.idle
  | c :: rest => exec c { s with pending := rest }

/-- The state with the command that a word spells at the front of its queue; the state itself where it spells none. -/
def State.withFetchWord (s : State) (nbits w : Nat) : State :=
  match decodeTableWord nbits w with
  | some c => { s with pending := c :: s.pending }
  | none => s

end Sys2Proof.Machine
end

