-- ==== Sys2Proof/Safety.lean ====
section
/-!
DEFINITION. The terms in which claims speak of the block: canonical stores, units that hold nothing back, the pieces of the
state that a command leaves as they are, a safe run.
-/

namespace Sys2Proof.Machine

/-- Every RAM of the state has its canonical form: addresses strictly rising, no entry that equals what an unlisted address
reads as. -/
def State.ramsWf (s : State) : Bool :=
  Memory.wf zeroW s.mem.banks && Memory.wf zeroW s.mem.spare && Memory.wf zeroW s.mem.xram && Memory.wf zeroW s.mem.locket &&
  Memory.wf zeroW s.sram && Memory.wf zeroW s.dram.words && Memory.wf erased s.boot.flash

/-- The stores that hold the records of units, ports, lanes, contexts and partitions are canonical. -/
def State.unitsWf (s : State) : Bool :=
  Memory.wf (fun _ => Facet.reset) s.facets && Memory.wf (fun _ => Tile.reset) s.tiles && Memory.wf (fun _ => Gpio.reset) s.gpio &&
  Memory.wf (fun _ => Dom.reset) s.clk.doms && Memory.wf SerPort.reset s.ports.ports &&
  Memory.wf (fun _ => Lane.reset) s.links.lanes && Memory.wf (fun _ => RxCtx.reset) s.net.rx &&
  Memory.wf (fun _ => TxCtx.reset) s.net.tx && Memory.wf (fun _ => Part.reset) s.host.parts &&
  Memory.wf (fun _ => SetPart.reset) s.setter.parts

/-- No unit holds a report, or an output, that has not left it. -/
def State.quiet (s : State) : Bool :=
  s.unitReports.isEmpty && s.net.sent.isEmpty && s.host.outs.isEmpty

/-- The handshake of R465 and R466: blocks are stopped only while it is under way, and at most six have stopped. -/
def State.handshakeOk (s : State) : Bool :=
  decide (s.power.stopped ≤ 6) && (s.power.phase == .quiescing || s.power.stopped == 0)

/-- The pieces of the state that a frame speaks of. `reports` is the report network, `health` the rest of the health unit. -/
inductive Piece where
  | facets | tiles | plane | mem | sram | dram | clk | ports | links | net | host | setter | clasp | boot | power | health | reports
  | gpio | jtag | time | free | out
deriving DecidableEq, Repr

/-- A piece is in `t` what it is in `s`. -/
def Piece.same (p : Piece) (s t : State) : Prop :=
  match p with
  | .facets => t.facets = s.facets
  | .tiles => t.tiles = s.tiles
  | .plane => t.plane = s.plane
  | .mem => t.mem = s.mem
  | .sram => t.sram = s.sram
  | .dram => t.dram = s.dram
  | .clk => t.clk = s.clk
  | .ports => t.ports = s.ports
  | .links => t.links = s.links
  | .net => t.net = s.net
  | .host => t.host = s.host
  | .setter => t.setter = s.setter
  | .clasp => t.clasp = s.clasp
  | .boot => t.boot = s.boot
  | .power => t.power = s.power
  | .health => ({ t.health with flying := [] } : Health) = { s.health with flying := [] }
  | .reports => t.health.flying = s.health.flying
  | .gpio => t.gpio = s.gpio
  | .jtag => t.jtag = s.jtag
  | .time => t.us = s.us ∧ t.ns = s.ns
  | .free => t.free = s.free
  | .out => t.out = s.out

/-- A command led from `s` to `t` and changed nothing outside the pieces `ps`: every other piece, and the queue, is what a
command without effect would have left (`s.settle`, which sends off what the units still held). -/
def OnlyChanges (ps : List Piece) (s t : State) : Prop :=
  t.pending = s.pending ∧ ∀ p : Piece, p ∉ ps → p.same s.settle t

/-- Command `i` completes in `s` with an outcome `P`, and changes nothing outside the pieces `ps`. -/
def Completes (i : Instr) (s : State) (ps : List Piece) (P : State → Prop) : Prop :=
  ∃ t, exec i s = .next t ∧ P t ∧ OnlyChanges ps s t

/-- `n` steps from `s` end in next states only. -/
def safeFor : Nat → State → Prop
  | 0, _ => True
  | n + 1, s => ∃ t, step s = .next t ∧ safeFor n t

end Sys2Proof.Machine
end

