-- ==== Sys2Proof/Certificates/Slice0/Obligations.lean ====
section
/-!
DEFINITION. The statements about the model, for the provers.
-/

open Sys2Proof Sys2Proof.Machine

/-- For every command c and every state: a step with c at the front of the queue is exec of c on the state with the rest of the queue.
The queue is the model's interface to the block, so the statement rests on no rule of the spec but on the scope of a block that
takes commands. -/
def Obligations.StepRunsTheFrontCommand : Prop :=
  ∀ (c : Instr) (rest : List Instr) (s : State), step { s with pending := c :: rest } = exec c { s with pending := rest }

/-- On an empty queue a step answers the same state with the uptime one microsecond and the PTP timescale 1,000 ns further on, and
nothing else changed. What idling is is the model's choice (log entry 2). -/
def Obligations.EmptyQueueLetsAMicrosecondPass : Prop :=
  ∀ s : State, s.pending = [] → step s = .next { s with us := s.us + 1, ns := s.ns + 1000 }

/-- For every command and every state, exec answers a next state, never a fault or a refusal, and in that state no unit holds a report
that has not left for the report network (R473) and no output that has not reached its interface. -/
def Obligations.CommandsAnswerAndSendOff : Prop :=
  ∀ (i : Instr) (s : State), ∃ t, exec i s = .next t ∧ t.quiet = true

/-- In a state with canonical unit stores in which no unit holds back a report or an output, a command with an operand outside the
instances and fields of the device (R15) leaves every field as it was; the outputs of the last command are gone. That such a
command does nothing is the model's choice (log entry 1). -/
def Obligations.IllFormedCommandsChangeNothing : Prop :=
  ∀ (i : Instr) (s : State), s.quiet = true → s.unitsWf = true → i.wf = false → exec i s = .next { s with out := [] }

/-- For every command and every state: when exec answers a next state its queue is the queue that exec found, even where the command
resets the whole device. Commands are thus served first in, first out, each exactly once. -/
def Obligations.CommandsKeepTheQueue : Prop :=
  ∀ (i : Instr) (s t : State), exec i s = .next t → t.pending = s.pending

/-- When every RAM (the shared banks, the spare, the Exchange RAM, the Locket, Setter memory, DRAM), flash and the stores of Facets,
tiles, GPIO inputs, domains, ports, lanes, contexts and partitions are canonical, they are canonical after every step: addresses
strictly rising, no entry equal to what an unlisted address reads as. -/
def Obligations.StoresStayCanonical : Prop :=
  ∀ s t : State, s.ramsWf = true → s.unitsWf = true → step s = .next t → t.ramsWf = true ∧ t.unitsWf = true

/-- The state after reset meets the invariants of the statements StoresStayCanonical, CommandsAnswerAndSendOff and
BlocksStopOnlyInAHandshake. -/
def Obligations.ResetStoresAreCanonical : Prop :=
  State.reset.ramsWf = true ∧ State.reset.unitsWf = true ∧ State.reset.quiet = true ∧ State.reset.handshakeOk = true

/-- R465 and R466: if blocks count as stopped only during a quiesce handshake, and at most six of the seven have stopped, then this
holds after every step: whatever command ends the handshake (an answer, a refusal, silence, a wake event, a reset, a loss of
supply) leaves no block stopped on its own. -/
def Obligations.BlocksStopOnlyInAHandshake : Prop :=
  ∀ s t : State, s.handshakeOk = true → step s = .next t → t.handshakeOk = true

/-- In the state after reset the Setter reads in GLB_ID, GLB_SPI, CLK_MPLL_CTL, CLK_REF_CFG, CLK_OUT0_DIV, CLK_OUT7_DIV, PTP_CTL,
PTP_PRIO, PTP_INTV, NET_0_CTL, NET_1_IPCFG, TDM_0_FMT, MADI_0_CTL, AES_OUT_0_CTL, AES_OUT_0_TXCS0, LNK_SEL, MEM_CTL, MEM_SCRUB,
MEM_BIST_CTL, XRAM_OWN0, XRAM_OWN7, DRAM_CTL, BOOT_STAT, PWR_CTL, PWR_PADREL, HLT_CTL, GPIO_0_CFG, GPIO_15_LIM and PRT_Q_SEL of P0
and P1 the reset values that the register tables give them (R488 for GPIO). -/
def Obligations.ResetValuesOfRegisters : Prop :=
  ([(0x0, 0x80640042), (0x14, 0xFFFF), (0x20000, 0x0), (0x20004, 0x3E80202), (0x20104, 0x200000), (0x2013C,
      0x200000), (0x20400, 0x7F20), (0x20404, 0x8080), (0x20408, 0x3FEFDFD), (0x20800, 0x100), (0x20860, 0x240),
      (0x21004, 0x1601), (0x22000, 0x200), (0x22600, 0x20000), (0x22608, 0x1), (0x23000, 0x0), (0x24000, 0x3), (0x24004,
      0x7D0), (0x24008, 0x3C), (0x24400, 0x88888888), (0x2441C, 0x88888888), (0x24800, 0x1), (0x25000, 0x0), (0x25800,
      0x1E), (0x25810, 0x1), (0x25C00, 0x1), (0x26000, 0x80000), (0x260F4, 0xA00), (0xC0230, 0xFF000020), (0xC4230,
      0x20)] : List (Nat × Word)).all (fun e => State.reset.readReg 6 e.1 == e.2) = true

/-- The device after POR release: no command waits, uptime 0, core PLL unlocked, SC0 held, every domain stopped, no Setter core
released, the early-block reader reading, the idle timer at 30 s, every partition without a holder, every priority 0 but P0's 255,
no epoch committed or armed, every memory empty. -/
def Obligations.ResetState : Prop :=
  let s := State.reset
  s.pending = [] ∧ s.us = 0 ∧ s.clk.coreLock = false ∧ s.boot.at_ = .wait ∧ s.boot.rel = 0 ∧ (∀ k, (s.dom k).st = .stopped ∧ (s.dom k).run = false) ∧
    s.clasp.stage = .reading ∧ s.power.phase = .run ∧ s.power.idleS = 30 ∧ (∀ p, (s.host.part p).holder = none ∧ (s.setter.part p).live = false) ∧
    (∀ p, Memory.get prioReset s.host.pol.prio p = if p = 0 then 255 else 0) ∧ s.setter.armed = [] ∧ s.setter.intake = [] ∧
    s.mem.banks = [] ∧ s.mem.xram = [] ∧ s.mem.locket = [] ∧ s.sram = [] ∧ s.dram.words = [] ∧ s.facets = [] ∧ s.tiles = [] ∧ s.plane = []

/-- POR from any state answers the reset state, in which flash, OTP and what PWR_BOR latches are what they were, the pins keep their
level, the skip bits of both slots and the tamper count are cleared, and FL_RESET_N is driven low for 10 µs. From the reset state
itself POR answers the reset state. -/
def Obligations.PowerOnReset : Prop :=
  (∀ s : State, exec .por s = .next { State.reset with
      pending := s.pending, free := s.free,
      boot := { Boot.reset with flash := s.boot.flash, otp := s.boot.otp, vendor := s.boot.vendor, votp := s.boot.votp, tamperN := s.boot.tamperN },
      power := { Power.reset with bor := s.power.bor, borCount := s.power.borCount, wakeN := s.power.wakeN, temp := s.power.temp } }) ∧
    exec .por State.reset = .next State.reset

/-- While the device runs, RESET_N makes SC0 wait for S0 again with no core released, drops every partition's session, epoch and
command, empties the signal plane, stops every domain, and leaves flash, OTP, the skip bits, Setter local memory, the words of the
shared banks, the totals of the health unit, the declared ports and routes of the Clasp, the AON timer and the uptime as they
were. -/
def Obligations.ResetPinRestartsAllButAonAndClasp : Prop :=
  ∀ s : State, s.power.phase = .run → ∃ t, exec .resetN s = .next t ∧
    t.pending = s.pending ∧ t.us = s.us ∧ t.boot.at_ = .wait ∧ t.boot.rel = 0 ∧ t.boot.code = 0 ∧ t.boot.flash = s.boot.flash ∧ t.boot.otp = s.boot.otp ∧
    t.boot.skip = s.boot.skip ∧ t.setter = SetterSys.reset ∧ t.host.parts = [] ∧ t.plane = [] ∧ (∀ k, (t.dom k).st = .stopped) ∧
    t.sram = s.sram ∧ t.mem.banks = s.mem.banks ∧ t.mem.locked = s.mem.locked ∧ t.health.total = s.health.total ∧ t.health.supp = s.health.supp ∧
    t.clasp.routes = s.clasp.routes ∧ t.clasp.stage = s.clasp.stage ∧ t.clasp.ports.map (·.port) = s.clasp.ports.map (·.port) ∧
    t.power.aonS = s.power.aonS ∧ t.power.idleS = s.power.idleS

/-- EARLY_BLOCK_READ_DONE: both copies of the early block are what flash holds at 0x100000 and 0x101000, empty when the flash device
does not answer. EARLY_BLOCK_SELECT: the Clasp's stage is selected, the clock outputs leave high impedance, and an
EARLY_BLOCK_INVALID report (0xB00) goes out when neither copy is valid. CORE_PLL_LOCK: the core PLL is locked.
CORE_PLL_START_TIMEOUT: RESCUE_COUNT counts once with CAUSE 2 when CREF shows edges and 1 otherwise, and BOOT_ERR_N and FAULT_N go
low. -/
def Obligations.EarlyBlockAndCorePllStart : Prop :=
  (∀ (s : State) (answers : Bool), s.clasp.stage = .reading →
      Completes (.earlyBlockReadDone answers) s [.clasp] fun t => t.clasp = { s.clasp with
        stage := .read_, copies := if answers then (s.boot.read 0x100000 4096, s.boot.read 0x101000 4096) else ([], []) }) ∧
    (∀ s : State, s.clasp.stage = .read_ →
      Completes .earlyBlockSelect s [.clasp, .clk, .host, .reports, .free] fun t =>
        t.clasp.stage = .selected ∧ t.clasp.valid = (earlyValid s.clasp.copies.1, earlyValid s.clasp.copies.2) ∧ t.clk.outHiZ = false ∧
        (t.clasp.valid = (false, false) → ⟨0x0B00, 18, 0, 3, false, false, 0⟩ ∈ t.health.flying)) ∧
    (∀ s : State, s.awake = true → s.clk.coreLock = false →
      Completes .corePllLock s [.clk] fun t => t.clk.coreLock = true ∧ t.clk.crefLost = false ∧ t.clk.rescue = s.clk.rescue ∧ t.clk.doms = s.clk.doms) ∧
    (∀ (s : State) (edges : Bool), s.awake = true → s.boot.at_ = .wait → s.clk.coreLock = false → s.boot.startFail = false →
      Completes (.corePllStartTimeout edges) s [.boot, .clk, .clasp, .reports] fun t =>
        t.clk.rescueCount = min 0xFFFF (s.clk.rescueCount + 1) ∧ t.clk.cause = (if edges then 2 else 1) ∧ t.boot.at_ = .wait ∧ t.faultLow = true ∧ t.bootErrLow = true)

/-- S0_START: with the core PLL locked, S0 halts with BOOTSTAT 0xE when the integrity check of the fields that it needs fails, halts
with 0xD in life-cycle state 4, enters the recovery loader in state 0 (BOOTSTAT 0x4), and otherwise goes on to an accepted stage 1
or to the recovery loader; BOOT_ERR_N of R424 is released, and low in a halt. It reads the flash as the first valid copy of the
boot header says, else as SFDP says, else in 1S-1S-1S mode, at 133 MHz at most above 1.8 V. S1_START: S1 runs with BOOTSTAT 0x6
and the device key derived, or halts with 0xE, the slot skipped, when another OTP field fails its check. -/
def Obligations.S0AndS1Start : Prop :=
  (∀ (s : State) (sfdp : Option (Nat × Nat × Nat)) (low : Bool), (∀ x, sfdp = some x → x.1 < 256 ∧ x.2.1 < 32 ∧ x.2.2 ≤ 200) → s.awake = true → s.boot.at_ = .wait → s.clk.coreLock = true →
      Completes (.s0Start sfdp low) s [.boot, .sram, .dram, .reports, .free] fun t =>
        t.boot.startFail = false ∧ t.bootErrLow = decide (t.boot.at_ = .halt) ∧ t.boot.flash = s.boot.flash ∧ t.boot.otp = s.boot.otp ∧
        (∀ x, s.boot.header 0 = some x → t.boot.flRead = some (x.1, x.2.1, if low then x.2.2 else min x.2.2 133)) ∧
        (s.boot.header 0 = none → ∀ x, s.boot.header 1 = some x → t.boot.flRead = some (x.1, x.2.1, if low then x.2.2 else min x.2.2 133)) ∧
        (s.boot.header 0 = none → s.boot.header 1 = none → t.boot.flRead = sfdp.map fun x => (x.1, x.2.1, if low then x.2.2 else min x.2.2 133)) ∧
        (s.boot.otp.bad.testBit 0 = true → t.boot.at_ = .halt ∧ t.boot.code = 0xE) ∧
        (s.boot.otp.bad.testBit 0 = false → s.boot.otp.state = 4 → t.boot.at_ = .halt ∧ t.boot.code = 0xD) ∧
        (s.boot.otp.bad.testBit 0 = false → s.boot.otp.state = 0 → t.boot.at_ = .recovery ∧ t.boot.code = 4) ∧
        (s.boot.otp.bad.testBit 0 = false → s.boot.otp.state ≠ 4 → t.boot.at_ = .recovery ∨ t.boot.at_ = .stage1)) ∧
    (∀ (s : State) (faulty : List Nat), (∀ b ∈ faulty, b ≤ 128) → s.awake = true → s.boot.at_ = .stage1 →
      Completes (.s1Start faulty) s [.boot, .mem, .reports] fun t =>
        (s.boot.otp.bad.testBit 1 = false → t.boot.at_ = .s1 ∧ t.boot.code = 6 ∧ t.boot.devKey = some s.boot.otp.deviceKey) ∧
        (s.boot.otp.bad.testBit 1 = true → t.boot.at_ = .halt ∧ t.boot.code = 0xE ∧ (s.boot.source < 2 → t.boot.skip = s.boot.skip ||| 2 ^ s.boot.source) ∧
          t.mem = s.settle.mem) ∧
        t.mem.banks = s.mem.banks)

/-- DRAM_TRAINING_DONE: success records the populated sizes and sets TRAINED; failure halts S1 with 0xC. DRAM_INIT_COVERS_LOAD_AREA
and DRAM_INIT_DONE: initialisation reaches what the command says, at most the usable size, and never goes back; DONE reaches the
end of both channels. S2_START: S2 runs with BOOTSTAT 0x7. BOOT_REL_WRITE: release bits once set stay set. PAD_RELEASE sets
PWR_PADREL.RELEASED. FULL_SERVICE: BOOTSTAT reads 0x8. -/
def Obligations.DramInitAndS2 : Prop :=
  (∀ (s : State) (ok : Bool) (dA rA dB rB : Nat), dA < 16 → rA < 4 → dB < 16 → rB < 4 → s.awake = true → s.boot.at_ = .s1 → s.dram.trained = false →
      Completes (.dramTrainingDone ok dA rA dB rB) s [.dram, .boot, .reports] fun t =>
        (ok = true → dA = dB → rA = rB → densityGiB dA ≠ 0 → rA = 1 ∨ rA = 2 →
          t.dram.trained = true ∧ t.dram.densA = dA ∧ t.dram.ranksA = rA ∧ t.dram.densB = dB ∧ t.dram.ranksB = rB ∧ t.boot = s.boot) ∧
        (ok = false ∨ dA ≠ dB ∨ rA ≠ rB ∨ densityGiB dA = 0 ∨ (rA ≠ 1 ∧ rA ≠ 2) → t.dram.trained = false ∧ t.boot.at_ = .halt ∧ t.boot.code = 0xC)) ∧
    (∀ (s : State) (mib : Nat), s.awake = true → s.dram.trained = true →
      Completes (.dramInitCoversLoadArea mib) s [.dram, .boot, .sram, .free, .reports] fun t =>
        ∀ ch, t.dram.inited ch = max (s.dram.inited ch) (min mib (usableMiB (s.dram.dens ch)))) ∧
    (∀ s : State, s.awake = true → s.dram.trained = true →
      Completes .dramInitDone s [.dram, .boot, .sram, .free, .reports] fun t =>
        ∀ ch, t.dram.inited ch = max (s.dram.inited ch) (usableMiB (s.dram.dens ch))) ∧
    (∀ s : State, s.awake = true → s.boot.at_ = .stage2 →
      ∃ t, exec .s2Start s = .next t ∧ t.pending = s.pending ∧ t.boot.at_ = .s2 ∧ t.boot.code = 7) ∧
    (∀ (s : State) (v : Word), s.awake = true → s.s2Runs = true →
      Completes (.bootRelWrite v) s [.boot] fun t => t.boot = { s.boot with rel := s.boot.rel ||| v.toNat % 16 }) ∧
    (∀ s : State, s.awake = true → s.boot.at_ = .s2 →
      Completes .padRelease s [.power] fun t => t.power = { s.power with pads := true }) ∧
    (∀ s : State, s.awake = true → s.boot.at_ = .s2 → s.power.pads = true →
      Completes .fullService s [.boot] fun t => t.boot = { s.boot with at_ := .full, code := 8 })

/-- RECOVERY_PIN_HOLD before S0 or before stage 1 enters the loader with BOOTSTAT 0x4, unless a halt of R447 comes first.
RECOVERY_BAUD_DETECT sets the rate. HELLO, DATA and GO are answered with one STATUS frame: HELLO with CODE 0; a DATA frame whose
offset continues the image and keeps it within 3 MiB appends its bytes and answers CODE 0, another offset answers CODE 2; a GO
before any DATA answers CODE 3 and returns to BOOTSTAT 0x4; a malformed frame answers CODE 1 and changes nothing. The image never
goes to flash. -/
def Obligations.RecoveryLoader : Prop :=
  (∀ s : State, s.awake = true → s.clk.coreLock = true → s.boot.at_ = .wait ∨ s.boot.at_ = .stage1 →
      Completes .recoveryPinHold s [.boot] fun t => t.boot.flash = s.boot.flash ∧
        (s.boot.otp.bad.testBit 0 = false → s.boot.otp.state ≠ 4 → t.boot.at_ = .recovery ∧ t.boot.code = 4 ∧ t.boot.rec_ = [])) ∧
    (∀ (s : State) (baud : Nat), s.boot.at_ = .recovery → 9600 ≤ baud → baud ≤ 3000000 →
      Completes (.recoveryBaudDetect baud) s [.boot] fun t => t.boot = { s.boot with baud := baud }) ∧
    (∀ (s : State) (f : List Byte), s.quiet = true → s.boot.at_ = .recovery →
      Completes (.hello f) s [.out] fun t => t.out = [.uart (s.boot.status (if recFrame f = some (1, []) then 0 else 1))]) ∧
    (∀ (s : State) (f : List Byte), s.quiet = true → s.boot.at_ = .recovery →
      Completes (.data f) s [.boot, .out] fun t => t.boot.flash = s.boot.flash ∧
        (∀ p, recFrame f = some (2, p) → 4 ≤ p.length →
          (le p 0 4 = s.boot.rec_.length ∧ le p 0 4 + (p.length - 4) ≤ 3 * 2 ^ 20 →
            t.boot = { s.boot with code := 5, rec_ := s.boot.rec_ ++ p.drop 4 } ∧ t.out = [.uart (s.boot.status 0)]) ∧
          (¬ (le p 0 4 = s.boot.rec_.length ∧ le p 0 4 + (p.length - 4) ≤ 3 * 2 ^ 20) →
            t.boot = { s.boot with code := 5 } ∧ t.out = [.uart (s.boot.status 2)])) ∧
        (recFrame f = none → t.boot = s.boot ∧ t.out = [.uart (s.boot.status 1)])) ∧
    (∀ (s : State) (f : List Byte), s.quiet = true → s.boot.at_ = .recovery →
      Completes (.go f) s [.boot, .sram, .dram, .free, .out] fun t => t.boot.flash = s.boot.flash ∧ t.out.length = 1 ∧
        (recFrame f = some (3, []) → s.boot.rec_ = [] → t.boot.at_ = .recovery ∧ t.boot.code = 4 ∧ t.out = [.uart (s.boot.status 3)]) ∧
        (recFrame f = none → t.boot = s.boot ∧ t.out = [.uart (s.boot.status 1)]))

/-- TAMPER_EVENT from any source clears every word of the Locket, locks it, counts a wipe, takes the device key, counts the event in
SEC_TAMPER with its source and reports TAMPER. LOCKET_CLEAR_DONE ends the wipe, and the lock with it unless a tamper event holds
it. LOCKET_LOCK_END ends the lock once the clear is done. LOCKET_ACCESS: while locked a read returns 0 and a write is discarded
without LOCKET_DENIED; unlocked, a Setter core's write and read work, and any other requester's access is denied, with MEM_STAT
bit 4 set. -/
def Obligations.TamperWipesAndLocksTheLocket : Prop :=
  (∀ (s : State) (src : Nat), 1 ≤ src → src ≤ 3 → s.powered = true →
      Completes (.tamperEvent src) s [.mem, .boot, .reports] fun t =>
        t.mem.locket = [] ∧ t.mem.locked = true ∧ t.mem.wiping = true ∧ t.mem.r.wipes = min 0xFFFF (s.mem.r.wipes + 1) ∧ t.mem.banks = s.mem.banks ∧
        t.mem.xram = s.mem.xram ∧ t.boot.devKey = none ∧ t.boot.tampers = min 0xFFFF (s.boot.tampers + 1) ∧ t.boot.lastTamper = src ∧
        ⟨0x0B01, 18, 0, 3, false, false, src⟩ ∈ t.health.flying) ∧
    (∀ s : State, s.mem.wiping = true →
      Completes .locketClearDone s [.mem] fun t => t.mem = { s.mem with wiping := false, locked := s.mem.locked && s.mem.tamper, rep := [] }) ∧
    (∀ s : State, s.mem.tamper = true →
      Completes .locketLockEnd s [.mem, .boot] fun t => t.mem = { s.mem with locked := s.mem.wiping, tamper := false, rep := [] } ∧
        t.boot.tamperN = true ∧ (s.s2Runs = true → t.boot.devKey = some s.boot.otp.deviceKey)) ∧
    (∀ (s : State) (who : Requester) (w : Nat) (wr : Option Word), s.quiet = true → Memory.wf zeroW s.mem.locket = true → w < 65536 → s.awake = true →
      Completes (.locketAccess who w wr) s [.mem, .reports, .out] fun t =>
        (∀ w', w' ≠ w → Memory.get zeroW t.mem.locket w' = Memory.get zeroW s.mem.locket w') ∧
        (s.mem.locked = true → t.mem = s.mem ∧ (∀ n, who = .core n → wr = none → t.out = [.core n (0x01040000 + 4 * w) 0])) ∧
        (s.mem.locked = false → ∀ n v, who = .core n → wr = some v → Memory.get zeroW t.mem.locket w = v ∧ t.out = []) ∧
        (s.mem.locked = false → ∀ n, who = .core n → wr = none → markOf s.mem.bad .locket w = none →
          t.mem = s.mem ∧ t.out = [.core n (0x01040000 + 4 * w) (Memory.get zeroW s.mem.locket w)]) ∧
        (s.mem.locked = false → (∀ n, who ≠ .core n) → t.mem.locket = s.mem.locket ∧ t.mem.r.stat.getLsbD 4 = true ∧ t.out = []))

/-- R32, for every domain k, state and SID of a slot with buffers: after the flip no slot of the buffer that becomes current is valid;
after a producer's write the slot is valid in the current buffer; a read of a slot whose valid bit in the previous buffer is clear
returns 0, so a signal whose producer wrote nothing in the period before is silence, and stale data is never read: what is read of
a valid slot is what the previous buffer holds. -/
def Obligations.PlaneValidBits : Prop :=
  let valid := fun (s : State) (k n sid : Nat) => s.plane.any fun e => e.1 == planeKey k n sid
  ∀ (s : State) (k sid : Nat), 0 < sid → sid < planeSize →
    (∀ n, valid (s.flip k n) k n sid = false) ∧
    (∀ (c i : Nat) (v : Word), valid (s.writeSid k c i sid v) k (s.period k) sid = true) ∧
    (valid s k (s.period k + 1) sid = false → s.readSid k sid = 0) ∧
    (∀ w, (planeKey k (s.period k + 1) sid, w) ∈ s.plane → s.plane.Pairwise (fun a b => a.1 ≠ b.1) → s.readSid k sid = w.val)

/-- For a SID whose slot holds nothing in the current buffer of domain k: a write leaves every read as it was (reads address the
previous buffer), and once the next tick of the domain has come and its buffers have exchanged roles the SID reads the value
written. The silence slot 0x0000 takes no write and reads 0, whatever is written. -/
def Obligations.PlaneWriteIsReadInTheNextPeriod : Prop :=
  (∀ (s : State) (k c i sid : Nat) (v : Word), s.unitsWf = true → k < 3 → 0 < (s.dom k).next → 0 < sid → sid < planeSize →
    (∀ e ∈ s.plane, e.1 ≠ planeKey k (s.period k) sid) →
    let t := s.writeSid k c i sid v
    let u := (t.withClk fun y => y.modDom k fun d => { d with next := d.next + 1 }).flip k (t.period k + 1)
    (∀ sid', t.readSid k sid' = s.readSid k sid') ∧ u.readSid k sid = v) ∧
  (∀ (s : State) (k c i : Nat) (v : Word), s.writeSid k c i 0 v = s ∧ s.readSid k 0 = 0)

/-- When a slot of the current buffer already holds a write of another writer, the write whose writer comes first (the lower kind,
then the lower instance) is kept, and PLANE_CONFLICT (0x301) is raised once for each of the two writers with that writer as the
reporter. -/
def Obligations.PlaneConflictKeepsTheFirstOfR34 : Prop :=
  ∀ (s : State) (k kind inst sid : Nat) (v : Word) (o : PCell), 0 < sid → sid < planeSize →
    s.plane.find? (fun e => e.1 == planeKey k (s.period k) sid) = some (planeKey k (s.period k) sid, o) → ¬ (o.kind = kind ∧ o.inst = inst) →
    let t := s.writeSid k kind inst sid v
    let key := planeKey k (s.period k) sid
    (kind < o.kind ∨ (kind = o.kind ∧ inst < o.inst) → Memory.get noCell t.plane key = ⟨v, kind, inst⟩) ∧
    (o.kind < kind ∨ (o.kind = kind ∧ o.inst < inst) → Memory.get noCell t.plane key = o) ∧
    t.health.flying = s.health.flying ++ [conflictOf k o.kind o.inst, conflictOf k kind inst] ∧ t.mem = s.mem ∧ t.facets = s.facets

/-- DOMAIN_TICK of a domain that is not stopped, in Run, during a handshake or in Standby: the tick count of that domain goes on by
one and those of the others hold, and time is the tick's instant. In Standby nothing but the clock system, the plane's flip and
what a phase step tells the Links and the network changes. -/
def Obligations.DomainTickCountsAndMovesTime : Prop :=
  (∀ (s : State) (k ns : Nat) (e : Int) (late : List (Nat × Nat)), s.unitsWf = true → k < 3 → (∀ l ∈ late, l.1 < 128) →
    (s.dom k).st ≠ .stopped → s.awake = true ∨ s.power.phase = .standby →
    ∃ t, exec (.domainTick k ns e late) s = .next t ∧ t.pending = s.pending ∧ t.ns = ns ∧ t.us = s.us + (ns / 1000 - s.ns / 1000) ∧
      (t.dom k).next = (s.dom k).next + 1 ∧ ∀ j, j ≠ k → (t.dom j).next = (s.dom j).next) ∧
  (∀ (s : State) (k ns : Nat) (e : Int) (late : List (Nat × Nat)), k < 3 → (∀ l ∈ late, l.1 < 128) → (s.dom k).st ≠ .stopped → s.power.phase = .standby →
    Completes (.domainTick k ns e late) s [.clk, .plane, .links, .net, .reports, .time] fun _ => True)

/-- CONTROL_FABRIC_ACCESS of a core that runs, at a word address: Setter local memory and the Exchange RAM take the word written and
return the word held, and other words keep theirs; the register space returns what the Setter reads there; the boot ROM answers
SC0 alone and discards writes; the flash window returns the flash bytes, lowest first; a read of a hole returns 0, a write is
discarded, and an address-hole report (0x302) names the core. -/
def Obligations.ControlFabricReachesTheMap : Prop :=
  ∀ (s : State) (core addr : Nat) (wr : Option Word), s.quiet = true → s.ramsWf = true → core < 4 → addr < 2 ^ 40 → addr % 4 = 0 → s.coreRuns core = true →
    ∃ t, exec (.controlFabricAccess core addr wr) s = .next t ∧ t.pending = s.pending ∧
      (0x9000000 ≤ addr → addr < 0x9400000 → OnlyChanges [.sram, .out] s t ∧
        (∀ v, wr = some v → t.out = [] ∧ ∀ w, Memory.get zeroW t.sram w = if w = (addr - 0x9000000) / 4 then v else Memory.get zeroW s.sram w) ∧
        (wr = none → t.sram = s.sram ∧ t.out = [.core core addr (Memory.get zeroW s.sram ((addr - 0x9000000) / 4))])) ∧
      (0x1000000 ≤ addr → addr < 0x1040000 → OnlyChanges [.mem, .reports, .out] s t ∧
        (∀ v, wr = some v → ∀ w, Memory.get zeroW t.mem.xram w = if w = (addr - 0x1000000) / 4 then v else Memory.get zeroW s.mem.xram w) ∧
        (wr = none → t.mem.xram = s.mem.xram ∧ (markOf s.mem.bad .xram ((addr - 0x1000000) / 4) = none →
          t.out = [.core core addr (Memory.get zeroW s.mem.xram ((addr - 0x1000000) / 4))]))) ∧
      (0x8000000 ≤ addr → addr < 0x8100000 → wr = none → t.out = [.core core addr (s.readReg 6 (addr - 0x8000000))]) ∧
      (0xA000000 ≤ addr → addr < 0xA010000 → OnlyChanges [.out] s t ∧
        (wr = none → t.out = [.core core addr (if core = 0 then Config.bootRom ((addr - 0xA000000) / 4) else 0)])) ∧
      (0x10000000 ≤ addr → addr < 0x20000000 → OnlyChanges [.out] s t ∧
        (wr = none → t.out = [.core core addr (BitVec.ofNat 32 (leNat (Memory.getRun erased s.boot.flash (addr - 0x10000000) 4)))])) ∧
      ((0x1080000 ≤ addr ∧ addr < 0x2000000) ∨ (0x8100000 ≤ addr ∧ addr < 0x9000000) ∨ (0x9400000 ≤ addr ∧ addr < 0xA000000) ∨ (0xA010000 ≤ addr ∧ addr < 0x10000000) ∨
          (0x20000000 ≤ addr ∧ addr < 0x1000000000) ∨ 0x1400000000 ≤ addr → OnlyChanges [.reports, .out] s t ∧
        ⟨0x302, 16, core, 3, false, false, 0⟩ ∈ t.health.flying ∧ (wr = none → t.out = [.core core addr 0]))

/-- For every Facet n: FACET_GATHER_DONE leaves state 2 with the PC at FAC_VEC, and with one list entry its Y word holds what the SID
reads. BUNDLE_ISSUE of an issuing Facet completes and changes nothing outside the Facets. OPERATION_LANDING brings every operation
in flight one boundary nearer, and one that is due lands. SHARED_BANK_STALL_END performs the access for which the Facet stalls and
ends the stall. LOOP_EXIT at the END of a level-0 loop whose counter has run out goes on with the next bundle. FACET_POST_DONE
enters background code at FAC_RSTUB when BG_EN is 1, else waits, and records the cycles; an empty post list writes nothing. -/
def Obligations.FacetPeriod : Prop :=
  (∀ (s : State) (n : Nat), s.unitsWf = true → n < 64 → s.facetsRun = true → (s.facet n).st = .gather →
      Completes (.facetGatherDone n) s [.facets, .reports] fun t =>
        (t.facet n).st = .sample ∧ (t.facet n).u.pc = (s.facet n).r.vec.toNat % 4096 ∧ (∀ m, m ≠ n → t.facet m = s.settle.facet m) ∧
        (∀ b : Nat, let f := s.facet n; let e := Memory.get zeroW f.m.z b
          f.u.flight = [] → f.r.glist.fld 16 13 = 1 → f.r.glist.fld 0 14 = b → markOf f.m.bad .facZ b = none → Memory.wf zeroW f.m.y = true →
          Memory.get zeroW (t.facet n).m.y (e.fld 16 15) = s.readSid f.domain (e.fld 0 15))) ∧
  (∀ (s : State) (n : Nat), s.unitsWf = true → n < 64 → s.facetsRun = true → (s.facet n).issuing = true →
      Completes (.bundleIssue n) s [.facets, .reports] fun t => ∀ m, m ≠ n → t.facet m = s.settle.facet m) ∧
  (∀ (s : State) (n : Nat), s.unitsWf = true → n < 64 → s.facetsRun = true → (s.facet n).u.flight ≠ [] → (s.facet n).issuing = false → (s.facet n).stall = none →
      Completes (.operationLanding n) s [.facets, .reports] fun t =>
        (∀ m, m ≠ n → t.facet m = s.settle.facet m) ∧ (t.facet n).u.flight.length ≤ (s.facet n).u.flight.length ∧
        (∀ (k : Nat) (v : Word), v ≠ 0 → (s.facet n).u.flight = [⟨1, .d k v⟩] → Memory.get zeroW (t.facet n).u.d k = v ∧ (t.facet n).u.flight = []) ∧
        (∀ (j : Nat) (e : Eff), (s.facet n).u.flight = [⟨j + 2, e⟩] → (t.facet n).u.flight = [⟨j + 1, e⟩])) ∧
  (∀ (s : State) (n : Nat) (q : SbReq), s.unitsWf = true → n < 64 → s.facetsRun = true → (s.facet n).stall = some q →
      Completes (.sharedBankStallEnd n) s [.facets, .mem, .reports] fun t =>
        (t.facet n).stall = none ∧ t.mem = { (s.mem.access ⟨.facet n, q.addr, sbOp q⟩).1 with rep := [] } ∧ ∀ m, m ≠ n → t.facet m = s.settle.facet m) ∧
  (∀ (s : State) (n : Nat), s.unitsWf = true → n < 64 → s.facetsRun = true → (s.facet n).issuing = true → (s.facet n).loopEnding = true →
      Completes (.loopExit n) s [.facets, .reports] fun t =>
        (s.facet n).st = .sample → (s.facet n).m.bad = [] → (s.facet n).u.pc < 4096 → ((s.facet n).u.frame 1).active = false →
          (t.facet n).u.pc = (s.facet n).u.pc + 1) ∧
  (∀ (s : State) (n cyc : Nat), s.unitsWf = true → n < 64 → s.facetsRun = true → (s.facet n).st = .post →
      Completes (.facetPostDone n cyc) s [.facets, .plane, .reports] fun t =>
        (t.facet n).r.cycLast = min cyc 0xFFFF ∧
        ((s.facet n).bgEn = true → (t.facet n).st = .background ∧ (t.facet n).u.pc = (s.facet n).r.rstub.toNat % 4096) ∧
        ((s.facet n).bgEn = false → (t.facet n).st = .waiting) ∧
        ((s.facet n).r.plist.fld 16 13 = 0 → t.plane = s.plane))

/-- R103: a MAC, ALU or mover slot whose opcode is 0 is legal and does nothing, whatever its other fields hold, and so does the
sequencer operation 0. A bundle whose bits are all 0 takes one BUNDLE_ISSUE and leaves the registers, memories and status of a
sample program that is in no loop and has nothing in flight as they were; only the PC goes on. -/
def Obligations.ZeroOpcodeIsNop : Prop :=
  (∀ (u : Uzor) (w : Nat), macOp w = 0 → macIllegal w = false ∧ macExec u w = []) ∧
  (∀ (u : Uzor) (w ix : Nat), aluOp w = 0 → aluIllegal w ix = false ∧ aluExec u w = []) ∧
  (∀ (f : Facet) (m : FMem) (w : Nat), mvOp w = 0 → moverIllegal m w = false ∧ moverExec f m w = (f, [])) ∧
  (∀ (w : Nat) (st : FacPhase), seqSop w = 0 → seqValid (seqSop w) st = true ∧ seqOf (seqSop w) = .none) ∧
  (∀ (s : State) (n : Nat), s.unitsWf = true → n < 64 → s.facetsRun = true → (s.facet n).st = .sample → (s.facet n).stall = none → (s.facet n).u.pc < 4096 →
    (s.facet n).u.frames = [] → (s.facet n).u.flight = [] → (s.facet n).cache = none → (s.facet n).rep = [] → (s.facet n).m.bad = [] →
    (s.facet n).m.bundle (s.facet n).bank (s.facet n).u.pc = 0 →
    Completes (.bundleIssue n) s [.facets, .reports] fun t =>
      t.facet n = { s.facet n with u := { (s.facet n).u with pc := (s.facet n).u.pc + 1 } })

/-- MAC operations land after 4 bundles, ALU operations and accumulator moves after 1, add-compare-select after 2, loads after 3,
stores after 2 (they commit at the end of the next bundle), pointer updates and loop updates after 1. -/
def Obligations.OperationLatencies : Prop :=
  (∀ (u : Uzor) (w : Nat), ∀ e ∈ macExec u w, e.1 = 4) ∧
  (∀ (u : Uzor) (w : Nat), ∀ e ∈ aluExec u w, e.1 = 1) ∧
  (∀ (u : Uzor) (w : Nat), ∀ e ∈ acsExec u w, e.1 = 2) ∧
  (∀ (f : Facet) (m : FMem) (w : Nat), ∀ e ∈ (moverExec f m w).2, match e.2 with
    | .d _ _ => e.1 = 3
    | .mem _ _ _ => e.1 = 2
    | _ => e.1 = 1) ∧
  (∀ (u : Uzor) (set ix : Nat), ∀ e ∈ (loopEnds u set ix).2, e.1 = 1)

/-- R113: with SUB[0] = 0 the amount is bits [4:0] of the register that SRCB names and its bits [31:5] are ignored; with SUB[0] = 1 it
is the SRCB field, from 0 to 31; SRCB[5] = 1 with an immediate, or SUB[2:1] not 0, makes the slot illegal. -/
def Obligations.ShiftAmount : Prop :=
  ∀ (u : Uzor) (w ix : Nat), aluOp w = 0x0B ∨ aluOp w = 0x0C ∨ aluOp w = 0x0D ∨ aluOp w = 0x0E →
    (aluSub w % 2 = 0 → shiftAmount u w = (u.rd (aluB w)).toNat % 32) ∧
    (aluSub w = 1 → aluIllegal w ix = false → aluB w < 32 ∧ shiftAmount u w = aluB w) ∧
    (aluSub w = 1 → 32 ≤ aluB w → aluIllegal w ix = true) ∧
    (2 ≤ aluSub w → aluIllegal w ix = true)

/-- R156: logical Dk with 32 ≤ k ≤ 63 names the physical register 32 + ((k − 32 + ROTB) mod 32), D0 to D31 are never renamed, both for
sources and for destinations; an operation in flight lands in the physical register chosen at its issue, whatever ROTB has become. -/
def Obligations.RotatingNames : Prop :=
  (∀ (u : Uzor) (k : Nat), k < 32 → u.phys k = k ∧ u.rd k = Memory.get zeroW u.d k) ∧
  (∀ (u : Uzor) (k : Nat), 32 ≤ k → k < 64 →
    u.phys k = 32 + (k - 32 + (u.rsp spROTB).toNat) % 32 ∧ u.rd k = Memory.get zeroW u.d (32 + (k - 32 + (u.rsp spROTB).toNat) % 32)) ∧
  (∀ (u : Uzor) (l k : Nat) (v : Int) (s : Bool), (l, Eff.d (u.phys k) (wb32 v s).1) ∈ dWb u l k v s) ∧
  (∀ (f : Facet) (k : Nat) (v : Word) (r : Memory (BitVec 16)), ({ f with u := { f.u with sp := r } } : Facet).u.d = f.u.d ∧
    (land { f with u := { f.u with sp := r } } (.d k v)).u.d = (land f (.d k v)).u.d)

/-- For every exact result: the 32-bit writeback holds the nearest value of the range with S = 1 and the result modulo 2^32 with S =
0, and sets SAT exactly when saturation changed it; the 80-bit writeback of an accumulator likewise. ADD with S = 1 lands the
saturated sum of its operands. -/
def Obligations.WritebackSaturatesOrWraps : Prop :=
  (∀ v : Int, (wb32 v true).1.toInt = max (-2 ^ 31) (min (2 ^ 31 - 1) v) ∧ ((wb32 v true).2 = true ↔ (wb32 v true).1.toInt ≠ v)) ∧
  (∀ v : Int, (wb32 v false).1 = BitVec.ofInt 32 v ∧ (wb32 v false).2 = false) ∧
  (∀ v : Int, (wb80 v true).1.toInt = max (-2 ^ 79) (min (2 ^ 79 - 1) v) ∧ ((wb80 v true).2 = true ↔ (wb80 v true).1.toInt ≠ v)) ∧
  (∀ v : Int, (wb80 v false).1 = BitVec.ofInt 80 v ∧ (wb80 v false).2 = false) ∧
  (∀ (u : Uzor) (w : Nat), aluOp w = 1 → aluS w = true → ∃ v : Word,
    v.toInt = max (-2 ^ 31) (min (2 ^ 31 - 1) ((u.rd (aluA w)).toInt + (u.rd (aluB w)).toInt)) ∧ (1, Eff.d (u.phys (aluDst w)) v) ∈ aluExec u w)

/-- For a tile without errors whose active bank holds one single-tile sink of one row without scaling: the accumulation writes one
value, to OUT_SID, and it is the sum over the active entries of the value that the entry's SID reads times the signed gain, at
unity scale, rounded to Q4.28 to nearest even and saturated. -/
def Obligations.TileMixesASink : Prop :=
  ∀ (t : Tile) (rd : Nat → Option Word) (pb n cyc : Nat), t.bad = [] → t.queue = [] → t.r.count = 1 →
    let d := t.desc t.bank 0
    let x := fun k : Nat => let e := t.entry (8 * descRow d + k)
      if entActive e then ((if entSid e = 0 then 0 else (rd (entSid e)).getD 0 : Word).toInt * entSigned e) else 0
    descFaulty d = false → descXmode d = 0 → descScale d = 0 → (Memory.get (fun _ => SinkSlot.zero) t.slots (descSlot d)).init = true →
    entLast (t.entry (8 * descRow d + 7)) = true →
    (t.accumulate rd pb n cyc).plane =
        [(descSid d, wordI (satN 32 (roundEven ((x 0 + x 1 + x 2 + x 3 + x 4 + x 5 + x 6 + x 7) * 2 ^ 23) 43)))] ∧
      (t.accumulate rd pb n cyc).adds = []

/-- For every tile n: TILE_ACCUMULATION_DONE ends the accumulation, the tile waits for the next tick and the cycles are recorded.
UPDATE_PUSH of an entry above 163,839 is discarded and sets UPD_BAD; of a new entry, with a slot free, it takes one slot with the
staged target, the timeout (480 for a code of 0), the RAMP bit and the entry's gain as start value. GAIN_TIMEOUT and
GAIN_RAMP_DONE handle the items of their phase: they change the tile alone, and no item is added. -/
def Obligations.TileCommands : Prop :=
  (∀ (s : State) (n cyc : Nat), s.unitsWf = true → n < 32 → s.tilesRun = true → (s.tile n).st = .accumulating →
      Completes (.tileAccumulationDone n cyc) s [.tiles, .plane, .mem, .reports] fun t =>
        (t.tile n).st = .waiting ∧ (t.tile n).r.cycLast = min cyc 0xFFFF ∧ t.mem.xram = s.mem.xram ∧ ∀ m, m ≠ n → t.tile m = s.settle.tile m) ∧
  (∀ (s : State) (n : Nat) (apply : Word), s.unitsWf = true → n < 32 → s.awake = true →
      Completes (.updatePush n apply) s [.tiles, .power, .reports] fun t =>
        (∀ m, m ≠ n → t.tile m = s.settle.tile m) ∧
        (163840 ≤ (s.tile n).r.updA.toNat % 2 ^ 18 → (t.tile n).queue = (s.tile n).queue ∧ (t.tile n).r.stat = (s.tile n).r.stat ||| Word.one filUpdBad) ∧
        (let x := s.tile n; let e := x.r.updA.toNat % 2 ^ 18
         e < 163840 → (∀ q ∈ x.queue, q.entry ≠ e) → x.queue.length < 4096 → ∃ it : GainItem, (t.tile n).queue = x.queue ++ [it] ∧ it.entry = e ∧
          it.tgt = (if x.r.updB.getLsbD 31 then -1 else 1) * ((x.r.updB.toNat % 2 ^ 24 : Nat) : Int) ∧
          it.t = (if x.r.updC.toNat % 2 ^ 16 = 0 then 480 else x.r.updC.toNat % 2 ^ 16) ∧ it.ramp = x.r.updA.getLsbD 30 ∧ it.g0 = entSigned (x.entry e))) ∧
  (∀ (s : State) (n : Nat), s.unitsWf = true → n < 32 → s.tilesRun = true → (s.tile n).gainDue 2 (s.period (s.tile n).domain) = true →
      Completes (.gainTimeout n) s [.tiles, .reports] fun t =>
        (t.tile n).queue.length ≤ (s.tile n).queue.length ∧ (t.tile n).st = (s.tile n).st ∧ ∀ m, m ≠ n → t.tile m = s.settle.tile m) ∧
  (∀ (s : State) (n : Nat), s.unitsWf = true → n < 32 → s.tilesRun = true → (s.tile n).gainDue 4 (s.period (s.tile n).domain) = true →
      Completes (.gainRampDone n) s [.tiles, .reports] fun t =>
        (t.tile n).queue.length ≤ (s.tile n).queue.length ∧ (t.tile n).st = (s.tile n).st ∧ ∀ m, m ≠ n → t.tile m = s.settle.tile m)

/-- R260: at a word of a bank in service whose stored word is intact, the atomic returns the old value v, and the word becomes (v + u)
mod 2^32, the sum of the signed values limited to the 32-bit range, or u; nothing else of the shared memories changes, no flag at
the bank included. -/
def Obligations.AtomicOperations : Prop :=
  (∀ (m : MemSys) (who : Requester) (a : Nat) (u : Word), a < bankWords → m.retired.contains (bankOf a) = false →
    let c := m.copy a
    let v := m.raw c.1 c.2
    markOf m.bad c.1 c.2 = none →
    (∃ w : Word, m.access ⟨who, a, .addW u⟩ = (m.put c.1 c.2 w, v) ∧ w.toNat = (v.toNat + u.toNat) % 2 ^ 32) ∧
    (∃ w : Word, m.access ⟨who, a, .addS u⟩ = (m.put c.1 c.2 w, v) ∧ w.toInt = max (-2 ^ 31) (min (2 ^ 31 - 1) (v.toInt + u.toInt))) ∧
    m.access ⟨who, a, .swap u⟩ = (m.put c.1 c.2 u, v)) ∧
  (∀ (m : MemSys) (e : EccMem) (i : Nat) (w : Word), (m.put e i w).r = m.r ∧ (m.put e i w).rep = m.rep ∧ (m.put e i w).retired = m.retired)

/-- The access that a bank starts is one of those that wait, and no other has a lower rank; the rank orders the eight classes, within
a class the kinds and within a kind the instances as R261's table does; classes 2, 4 and 5, and no others, pass the pacer. -/
def Obligations.BankPriority : Prop :=
  (∀ (l : List BankReq) (q : BankReq), firstReq l = some q → q ∈ l ∧ ∀ r ∈ l, reqRank q.who ≤ reqRank r.who) ∧
  (∀ l : List BankReq, firstReq l = none ↔ l = []) ∧
  (let cls := fun r : Requester => match r with
      | .facet _ => 0
      | .tile _ => 1
      | .netBuf _ => 2
      | .tdm _ | .madi _ | .aes _ | .link _ => 3
      | .stream _ => 4
      | .core _ => 5
      | .dma _ => 6
      | .scrubber => 7
      | .bist => 8;
    (∀ a b : Requester, a.wf = true → b.wf = true → cls a < cls b → reqRank a < reqRank b) ∧
    (∀ a : Requester, a.wf = true → (reqPaced a = true ↔ cls a = 2 ∨ cls a = 4 ∨ cls a = 5))) ∧
  (∀ i j k l : Nat, i < 16 → j < 4 → k < 16 → l < 2048 → reqRank (.tdm i) < reqRank (.madi j) ∧ reqRank (.madi j) < reqRank (.aes k) ∧
    reqRank (.aes k) < reqRank (.link l)) ∧
  (∀ i j : Nat, i < j → reqRank (.tile i) < reqRank (.tile j) ∧ reqRank (.netBuf i) < reqRank (.netBuf j) ∧ reqRank (.core i) < reqRank (.core j) ∧
    reqRank (.stream i) < reqRank (.stream j) ∧ reqRank (.dma i) < reqRank (.dma j) ∧ reqRank (.tdm i) < reqRank (.tdm j))

/-- With no word in error, no bank retired and no spare in permanent use, the start of a lending, a word move and the end of the March
test, passed or failed, change what no address of the banks reads: the current copy holds the word. A word that a requester writes
is read back, in every phase. -/
def Obligations.LendingKeepsWhatIsRead : Prop :=
  ∀ (m : MemSys) (who : Requester) (a : Nat), a < bankWords → m.bad = [] → m.retired = [] → m.spareFor = none → m.bistBank < 128 →
    (m.phase = .copyOut ∨ m.phase = .copyBack → m.k < 32768) → Memory.wf zeroW m.banks = true → Memory.wf zeroW m.spare = true →
    let rd := fun x : MemSys => (x.access ⟨who, a, .read⟩).2
    rd m.lend = rd m ∧ rd m.moveWord = rd m ∧ rd (m.marchDone false) = rd m ∧ rd (m.marchDone true) = rd m ∧
    (∀ v, rd (m.access ⟨who, a, .write v⟩).1 = v ∧ rd ((m.access ⟨who, a, .write v⟩).1).moveWord = v)

/-- BANK_ACCESS presents the new accesses, and the bank starts the first that waits, unless the cycle is a Facet window whose owner
stalls for an access to the bank. A core's access joins the pacer where another waits or is held at its bank, and acts at once
where none is (the model's choice, log 87): a write is stored, a read returns the word. ATOMIC_COMPLETE ends the oldest second-
cycle access of the bank and returns the old value. PACER_RELEASE lets one held access go to the bank if fewer than two went in
the last 8 cycles. SCRUB_READ moves to the next word and changes no stored word; a correctable word of a bank is corrected and
counted. BIST_LEND_START lends the next bank when lending is enabled, no lending runs and the spare is free. BIST_WORD_MOVE moves
word k. MARCH_TEST_DONE starts copy-back, or puts the spare in the bank's place for good. -/
def Obligations.BankCommands : Prop :=
  (∀ (s : State) (b t : Nat) (arrive : List BankReq), s.quiet = true → s.ramsWf = true → b < 128 → (∀ q ∈ arrive, q.wf b = true) → s.awake = true →
      Completes (.bankAccess b t arrive []) s [.mem, .reports, .out] fun u =>
        let m := s.mem.present arrive
        let owner := ∃ q, (s.facet (b / 2)).stall = some q ∧ bankOf q.addr = b
        (framePhase b t = 0 → owner → u.mem = m ∧ u.out = []) ∧
        (¬ (framePhase b t = 0 ∧ owner) → ∀ q, firstReq (m.waiting.filter fun q => bankOf q.addr == b) = some q →
          u.mem.waiting = m.waiting.erase q ∧ u.mem.held = m.held ∧
          (q.addr < bankWords → m.retired.contains b = false → ∀ v, q.op = .write v →
            (u.mem.raw (m.copy q.addr).1 (m.copy q.addr).2 = v ∧ u.out = [] ∧ u.mem.completing = m.completing)) ∧
          (q.addr < bankWords → m.retired.contains b = false → markOf m.bad (m.copy q.addr).1 (m.copy q.addr).2 = none → q.op = .read → ∀ n, q.who = .tile n →
            u.out = [.bank (.tile n) q.addr (m.raw (m.copy q.addr).1 (m.copy q.addr).2)] ∧ u.mem.banks = m.banks))) ∧
  (∀ (s : State) (b : Nat) (e : BankReq × Word), s.quiet = true → b < 128 → s.awake = true →
      s.mem.completing.find? (fun e => bankOf e.1.addr == b) = some e →
      Completes (.atomicComplete b) s [.mem, .out] fun u => u.mem = { s.mem with completing := s.mem.completing.erase e } ∧
        (∀ n w, e.1.who = .tile n → e.1.op = .addS w → u.out = [.bank (.tile n) e.1.addr e.2])) ∧
  (∀ (s : State) (b t : Nat), b < 128 → s.awake = true → (∃ q ∈ s.mem.held, bankOf q.addr = b) →
      Completes (.pacerRelease b t) s [.mem] fun u =>
        (2 ≤ (s.mem.releases.filter fun r => decide (t < r.2 + 8) && r.1 == b).length → u.mem.held = s.mem.held ∧ u.mem.waiting = s.mem.waiting) ∧
        ((s.mem.releases.filter fun r => decide (t < r.2 + 8) && r.1 == b).length < 2 →
          ∃ q ∈ s.mem.held, bankOf q.addr = b ∧ (∀ r ∈ s.mem.held, bankOf r.addr = b → reqRank q.who ≤ reqRank r.who) ∧
            u.mem.held = s.mem.held.erase q ∧ u.mem.waiting = s.mem.waiting ++ [q])) ∧
  (∀ (s : State) (core a : Nat) (wr : Option Word), s.quiet = true → s.ramsWf = true → core < 4 → a < bankWords → s.coreRuns core = true →
      let op : BankOp := match wr with
        | some v => .write v
        | none => .read
      let busy := ∃ q ∈ s.mem.waiting ++ s.mem.held, bankOf q.addr = bankOf a
      Completes (.controlFabricAccess core (4 * a) wr) s [.mem, .reports, .out] fun u =>
        (busy → u.mem = { s.mem with held := s.mem.held ++ [⟨.core core, a, op⟩], rep := [] } ∧ u.out = []) ∧
        (¬ busy → s.mem.retired.contains (bankOf a) = false → u.mem.held = s.mem.held ∧
          (∀ v, wr = some v → u.mem = { s.mem.put (s.mem.copy a).1 (s.mem.copy a).2 v with rep := [] } ∧ u.out = []) ∧
          (wr = none → markOf s.mem.bad (s.mem.copy a).1 (s.mem.copy a).2 = none →
            u.out = [.core core (4 * a) (s.mem.raw (s.mem.copy a).1 (s.mem.copy a).2)] ∧ u.mem.banks = s.mem.banks))) ∧
  (∀ s : State, s.awake = true → s.mem.r.ctl.flag 0 = true →
      (s.mem.scrubPos % scrubPlaces < bankWords → ∀ q ∈ s.mem.waiting, bankOf q.addr ≠ bankOf (s.mem.scrubPos % scrubPlaces)) →
      Completes (.scrubRead []) s [.mem, .facets, .tiles, .power, .reports] fun u =>
        u.mem.banks = s.mem.banks ∧ u.mem.spare = s.mem.spare ∧ u.mem.xram = s.mem.xram ∧ u.mem.locket = s.mem.locket ∧
        u.mem.scrubPos = (s.mem.scrubPos % scrubPlaces + 1) % scrubPlaces ∧
        (s.mem.scrubPos < bankWords → s.mem.retired = [] → markOf s.mem.bad (s.mem.copy s.mem.scrubPos).1 (s.mem.copy s.mem.scrubPos).2 = some false →
          markOf u.mem.bad (s.mem.copy s.mem.scrubPos).1 (s.mem.copy s.mem.scrubPos).2 = none ∧ u.mem.r.ceCount = min 0xFFFFFFFF (s.mem.r.ceCount + 1))) ∧
  (∀ s : State, s.awake = true →
      Completes .bistLendStart s [.mem] fun u =>
        (s.mem.r.ctl.flag 1 = true → s.mem.phase = .idle → s.mem.spareFor = none → s.mem.retired = [] →
          u.mem = { s.mem with phase := .copyOut, bistBank := s.mem.nextBank, k := 0, rep := [] }) ∧
        (s.mem.r.ctl.flag 1 = false ∨ s.mem.phase ≠ .idle ∨ s.mem.spareFor ≠ none → u.mem = s.settle.mem)) ∧
  (∀ s : State, s.awake = true → s.ramsWf = true → s.mem.bad = [] → s.mem.phase = .copyOut ∨ s.mem.phase = .copyBack → s.mem.k < 32768 →
      (∀ q ∈ s.mem.waiting, bankOf q.addr ≠ s.mem.bistBank) →
      Completes .bistWordMove s [.mem] fun u =>
        (s.mem.phase = .copyOut → u.mem.banks = s.mem.banks ∧ u.mem.phase = (if s.mem.k + 1 = 32768 then .test else .copyOut) ∧
          ∀ i, u.mem.raw .spare i = if i = s.mem.k then s.mem.raw .bank (128 * s.mem.k + s.mem.bistBank) else s.mem.raw .spare i) ∧
        (s.mem.phase = .copyBack → u.mem.spare = s.mem.spare ∧ u.mem.phase = (if s.mem.k + 1 = 32768 then .idle else .copyBack) ∧
          ∀ i, u.mem.raw .bank i = if i = 128 * s.mem.k + s.mem.bistBank then s.mem.raw .spare s.mem.k else s.mem.raw .bank i)) ∧
  (∀ (s : State) (faulty : Bool), s.awake = true → s.mem.phase = .test →
      Completes (.marchTestDone faulty) s [.mem, .reports] fun u =>
        (faulty = false → u.mem = { s.mem with phase := .copyBack, k := 0, rep := [] }) ∧
        (faulty = true → s.mem.spareFor = none → s.mem.retired = [] → s.mem.bistBank < 128 →
          u.mem.phase = .replaced ∧ u.mem.spareFor = some s.mem.bistBank ∧ u.mem.r.stat.flag memReplaced = true ∧
            ⟨0x403, 4, s.mem.bistBank, 3, false, false, s.mem.bistBank⟩ ∈ u.health.flying))

/-- XRAM_PORT_A_ACCESS: a running core's write changes its word alone, its read returns the word. XRAM_PORT_B_ACCESS of PCIe: a page
whose owner is the partition takes its whole-word write and returns the word on a read; a refused write is discarded, a refused
read returns 0, and XRAM_PROT records it; where a port-A write coincides with an admitted port-B write, port A's data is kept and
XRAM_CONFLICT records a write-and-write event. HOST_DMA_ACCESS of a function whose Bus Master Enable is 1: outside the partition's
windows a read delivers 0, no word changes, MEM_STAT.PROT_VIOL is set and a report goes out; inside, a write reaches the current
copy, or waits where another access waits at the bank. -/
def Obligations.ExchangeRamAndDma : Prop :=
  (∀ (s : State) (core w : Nat) (wr : Option Word), s.quiet = true → s.ramsWf = true → core < 4 → w < 65536 → s.coreRuns core = true →
      Completes (.xramPortAAccess core w wr) s [.mem, .reports, .out] fun t =>
        (∀ v, wr = some v → t.out = [] ∧ ∀ i, t.mem.raw .xram i = if i = w then v else s.mem.raw .xram i) ∧
        (wr = none → t.mem.xram = s.mem.xram ∧ (markOf s.mem.bad .xram w = none → t.out = [.core core (0x1000000 + 4 * w) (s.mem.raw .xram w)]))) ∧
  (∀ (s : State) (p w : Nat) (wr : Option (Word × List Bool)), s.quiet = true → s.ramsWf = true → p < 4 → w < 65536 → s.awake = true → s.served = true →
      Completes (.xramPortBAccess ⟨0, p, w, wr⟩ none) s [.mem, .reports, .out, .free] fun t =>
        let o := (Memory.get xownReset s.mem.r.xown (w / 1024 / 8)).fld (4 * (w / 1024 % 8)) 4
        (8 ≤ o → o % 4 = p → ∀ v, wr = some (v, [true, true, true, true]) → t.out = [] ∧ ∀ i, t.mem.raw .xram i = if i = w then v else s.mem.raw .xram i) ∧
        (8 ≤ o → o % 4 = p ∨ o.testBit 2 = true → wr = none → t.mem.xram = s.mem.xram ∧
          (markOf s.mem.bad .xram w = none → t.out = [.xram 0 w (s.mem.raw .xram w)])) ∧
        (o < 8 ∨ (o % 4 ≠ p ∧ (o.testBit 2 = false ∨ wr.isSome = true)) → t.mem.xram = s.mem.xram ∧ t.mem.r.xprot.flag 31 = true ∧
          (wr = none → t.out = [.xram 0 w 0]) ∧ (s.mem.r.xprot.flag 31 = true → t.mem.r.xprot = s.mem.r.xprot))) ∧
  (∀ (s : State) (p w core : Nat) (v x : Word) (first : Bool), s.quiet = true → s.ramsWf = true → p < 4 → w < 65536 → s.awake = true → s.served = true →
      s.mem.portBAdmits ⟨0, p, w, some (v, [true, true, true, true])⟩ = true → s.mem.r.xconf = 0 →
      Completes (.xramPortBAccess ⟨0, p, w, some (v, [true, true, true, true])⟩ (some ⟨core, some x, first⟩)) s [.mem, .out, .free] fun t =>
        (∀ i, t.mem.raw .xram i = if i = w then x else s.mem.raw .xram i) ∧ t.mem.r.xconf.flag 31 = true ∧ t.mem.r.xconf.flag 30 = true ∧
        t.mem.r.xconf.fld 0 16 = w ∧ t.mem.r.xconf.fld 26 2 = p ∧ t.mem.r.xaconf = s.mem.r.xaconf) ∧
  (∀ (s : State) (pf p a : Nat), s.quiet = true → pf < 4 → p < 4 → a < bankWords → s.awake = true → Nat.testBit s.host.pcie.bme pf = true →
      (∀ v, s.mem.dmaPermits p (a / 1024) true = false → Completes (.hostDmaAccess pf p a (.write v)) s [.mem, .reports] fun t =>
        t.mem.banks = s.mem.banks ∧ t.mem.spare = s.mem.spare ∧ t.mem.r.stat.flag memProtViol = true ∧ t.mem.r.prot.flag 31 = true ∧
        ⟨0x405, 17, p, 3, false, false, a / 1024⟩ ∈ t.health.flying) ∧
      (s.mem.dmaPermits p (a / 1024) false = false → Completes (.hostDmaAccess pf p a .read) s [.mem, .reports, .out] fun t =>
        t.mem.banks = s.mem.banks ∧ t.out = [.bank (.dma pf) a 0]) ∧
      (∀ v, s.mem.dmaPermits p (a / 1024) true = true → s.mem.retired = [] → Completes (.hostDmaAccess pf p a (.write v)) s [.mem] fun t =>
        ((∀ q ∈ s.mem.waiting, bankOf q.addr ≠ bankOf a) → t.mem = { s.mem.put (s.mem.copy a).1 (s.mem.copy a).2 v with rep := [] }) ∧
        ((∃ q ∈ s.mem.waiting, bankOf q.addr = bankOf a) →
          t.mem = { s.mem with waiting := s.mem.waiting ++ [⟨.dma pf, a, .write v⟩], rep := [] })))

/-- DRAM_ACCESS at a trained channel on which nothing else waits: a write of whole codewords in the usable region changes exactly the
words it names, a Setter core's read returns the stored words, a read outside the region returns 0 with an address-hole report,
and in self-refresh every access waits and none is lost. DQS_TRACKING and DRAM_REFRESH keep every stored word (the model counts
them, assumption 54). MR4_READ records the highest rate code, and DRAM_HOT (0x510) begins above 3 and ends at 3 or below.
DRAM_SCRUB_READ moves on by one codeword and keeps every word. DRAM_CREF_LOSS enters self-refresh and DRAM_CREF_RETURN leaves it
with one tracking pass of both channels, what waits still waiting. -/
def Obligations.DramChannelCommands : Prop :=
  (∀ (s : State) (ch : Nat) (q : DramReq), s.quiet = true → s.ramsWf = true → ch < 2 → q.wf = true → s.awake = true → s.dram.trained = true → s.dram.waiting = [] →
      Completes (.dramAccess ch [q] []) s [.dram, .reports, .out] fun t =>
        (s.dram.selfRef = true → t.dram = { s.dram with waiting := [(ch, q)], rep := [] } ∧ t.out = []) ∧
        (s.dram.selfRef = false → t.dram.waiting = [] ∧
          (q.read = 0 → q.word % 4 = 0 → q.data.length % 4 = 0 → q.word + q.data.length ≤ s.dram.usable ch → t.out = [] ∧
            (∀ (i : Nat) (v : Word), q.data[i]? = some v → Memory.get zeroW t.dram.words (dramKey ch (q.word + i)) = v) ∧
            (∀ k, k < dramKey ch q.word ∨ dramKey ch (q.word + q.data.length) ≤ k → Memory.get zeroW t.dram.words k = Memory.get zeroW s.dram.words k)) ∧
          (q.data = [] → t.dram.words = s.dram.words) ∧
          (∀ n, q.who = .core n → q.data = [] → s.dram.bad = [] → q.word + q.read ≤ s.dram.usable ch →
            t.out = (List.range q.read).map fun i => .core n (0x1000000000 + 0x200000000 * ch + 4 * (q.word + i)) (Memory.get zeroW s.dram.words (dramKey ch (q.word + i)))) ∧
          (q.data = [] → s.dram.usable ch < q.word + q.read → ∃ d, ⟨0x302, (reqUnit q.who).1, (reqUnit q.who).2, 3, false, false, d⟩ ∈ t.health.flying))) ∧
  (∀ (s : State) (ch : Nat), ch < 2 → s.awake = true → s.dram.trained = true → s.dram.selfRef = false →
      Completes (.dqsTracking ch) s [.dram] fun t => t.dram = { s.dram with dqsRuns := if ch = 0 then (s.dram.dqsRuns.1 + 1, s.dram.dqsRuns.2) else (s.dram.dqsRuns.1, s.dram.dqsRuns.2 + 1), rep := [] }) ∧
  (∀ (s : State) (ch : Nat), ch < 2 → s.awake = true → s.dram.trained = true → s.dram.selfRef = false →
      Completes (.dramRefresh ch) s [.dram] fun t => t.dram = { s.dram with refreshes := if ch = 0 then (s.dram.refreshes.1 + 1, s.dram.refreshes.2) else (s.dram.refreshes.1, s.dram.refreshes.2 + 1), rep := [] }) ∧
  (∀ (s : State) (ch c : Nat), ch < 2 → c < 8 → s.awake = true → s.dram.trained = true → s.dram.selfRef = false →
      Completes (.mr4Read ch [c]) s [.dram, .reports] fun t =>
        t.dram = { s.dram with rateA := if ch = 0 then c else s.dram.rateA, rateB := if ch = 0 then s.dram.rateB else c, rep := [] } ∧
        (let old := if ch = 0 then s.dram.rateA else s.dram.rateB
         (3 < c → old ≤ 3 → ⟨0x510, 5, ch, 3, false, false, c⟩ ∈ t.health.flying) ∧ (c ≤ 3 → 3 < old → ⟨0x510, 5, ch, 3, true, false, c⟩ ∈ t.health.flying) ∧
         ((3 < c ↔ 3 < old) → t.health = s.settle.health))) ∧
  (∀ s : State, s.awake = true → s.dram.trained = true → s.dram.selfRef = false → s.dram.ctl.flag 0 = true → s.dram.waiting = [] →
      Completes (.dramScrubRead []) s [.dram, .reports] fun t => t.dram.words = s.dram.words ∧ t.dram.lines = s.dram.lines ∧
        t.dram.scrubPos = (if s.dram.scrubPos < 2 * (s.dram.usable 0 / 4) then s.dram.scrubPos + 1 else 1)) ∧
  (∀ s : State, s.awake = true → s.dram.trained = true → s.dram.selfRef = false →
      Completes .dramCrefLoss s [.dram] fun t => t.dram = { s.dram with selfRef := true, rep := [] }) ∧
  (∀ s : State, s.awake = true → s.dram.trained = true → s.dram.selfRef = true →
      Completes .dramCrefReturn s [.dram, .clk] fun t => t.clk = { s.clk with crefLost := false, rep := [] } ∧ t.dram = { s.dram with selfRef := false, dqsRuns := (s.dram.dqsRuns.1 + 1, s.dram.dqsRuns.2 + 1), rep := [] })

/-- The word of period n of a line is at (n mod Ld) of its area, the fetch for period n + d reads that word, and no period in between
writes it. STREAM_BURST_WRITE puts the 16 write-ring words of periods 16q to 16q + 15 there and changes no other word.
STREAM_BURST_FETCH puts into the read ring, for each of its periods later than the next, the word of d periods before, and changes
no DRAM word. STREAM_DEADLINE_MISS writes 0 into the slot, counts the line as late, sets DRAM_STAT.LATE and reports the line. -/
def Obligations.DelayLineStream : Prop :=
  (∀ (l : DramLine) (n m : Nat), 512 ≤ l.d → l.ld = 16 * ((l.d + 15) / 16) →
      l.wordOf n 0 = l.base + n % l.ld ∧ l.wordOf (n + l.d) l.d = l.wordOf n 0 ∧ (n < m → m < n + l.ld → l.wordOf m 0 ≠ l.wordOf n 0)) ∧
  (∀ (s : State) (id q : Nat) (l : DramLine), s.ramsWf = true → s.unitsWf = true → s.dram.line id = some l → l.next = none → l.facet < 64 → 16 ≤ l.ld → l.ch < 2 → l.base + l.ld ≤ 2 ^ 31 →
      s.awake = true → s.dram.trained = true → s.dram.selfRef = false → s.dram.bad = [] → (s.facet l.facet).m.bad = [] →
      16 * q + 15 ≤ s.period l.dom → s.period l.dom < 16 * q + 256 →
      Completes (.streamBurstWrite id q) s [.dram, .facets, .reports] fun t => t.dram.lines = s.dram.lines ∧
        (∀ i, i < 16 → Memory.get zeroW t.dram.words (dramKey l.ch (l.wordOf (16 * q + i) 0)) =
          Memory.get zeroW (s.facet l.facet).m.y ((l.wring + (16 * q + i) % 256) % 32768)) ∧
        (∀ k, (∀ i, i < 16 → k ≠ dramKey l.ch (l.wordOf (16 * q + i) 0)) → Memory.get zeroW t.dram.words k = Memory.get zeroW s.dram.words k)) ∧
  (∀ (s : State) (id q : Nat) (l : DramLine), s.ramsWf = true → s.unitsWf = true → s.dram.line id = some l → l.next = none → l.facet < 64 → 0 < l.ld → l.d ≤ 16 * q →
      s.awake = true → s.dram.trained = true → s.dram.selfRef = false → s.dram.bad = [] → Memory.wf zeroW (s.facet l.facet).m.y = true →
      16 * q + 15 ≤ s.period l.dom + 256 → l.upto < 16 * q + 16 →
      Completes (.streamBurstFetch id q) s [.dram, .facets, .reports] fun t => t.dram.words = s.dram.words ∧
        (∀ n, n ≠ l.facet → t.facet n = s.settle.facet n) ∧
        (∀ i, i < 16 → s.period l.dom + 1 < 16 * q + i →
          Memory.get zeroW (t.facet l.facet).m.y ((l.rring + (16 * q + i) % 256) % 32768) =
            Memory.get zeroW s.dram.words (dramKey l.ch (l.base + (16 * q + i - l.d) % l.ld)))) ∧
  (∀ (s : State) (id : Nat) (l : DramLine), s.unitsWf = true → s.dram.line id = some l → l.next = none → l.facet < 64 → s.awake = true → Memory.wf zeroW (s.facet l.facet).m.y = true →
      l.upto ≤ s.period l.dom + 1 →
      Completes (.streamDeadlineMiss id (s.period l.dom + 1)) s [.dram, .facets, .reports] fun t =>
        t.dram.words = s.dram.words ∧ t.dram.lateCount = min 0xFFFF (s.dram.lateCount + 1) ∧ t.dram.stat.flag dramLate = true ∧
        ⟨0x505, 5, l.ch, 3, false, false, l.who <<< 32⟩ ∈ t.health.flying ∧
        Memory.get zeroW (t.facet l.facet).m.y ((l.rring + (s.period l.dom + 1) % 256) % 32768) = 0)

/-- CORE_PLL_LOST enters the Rescue condition, counts it once with its cause and reports it (0x600); plane-fed outputs of the ports,
streams and taps go silent. RESCUE_EXIT ends it, with a CLEAR report, and makes every partition that holds an epoch due for a
recommit. RESCUE_RECOMMIT arms one epoch more, with the same graph, for a partition that is due and has no other epoch under way.
REFERENCE_LOSS of the followed fixed reference enters holdover at the mean word, every running domain with it. REFERENCE_QUALIFIED
of the wanted reference ends holdover, and each running domain that is in no step applies its POLICY. MPLL_SOURCE_WRITE sets
SOURCE, discards codes 5 to 7, with code 0 runs free, and from free-run follows a qualified REFIN0 without a holdover.
MPLL_ENABLE_WRITE starts or stops the media PLL. COMPAT_LOCK_TIMER, MPLL_LOCK_SET and MPLL_LOCK_CLEAR change PLL_LOCK alone. -/
def Obligations.CorePllRescueAndReferences : Prop :=
  (∀ (s : State) (cause : Nat), 1 ≤ cause → cause ≤ 2 → s.clocked = true → s.clk.coreLock = true ∨ s.clk.rescue = true →
      Completes (.corePllLost cause) s [.clk, .reports, .ports, .net, .host, .links] fun t => t.host.pol = s.host.pol ∧ t.net.rx = s.net.rx ∧ t.clk.coreLock = false ∧ t.clk.rescue = true ∧ t.clk.doms = s.clk.doms ∧
        (s.clk.rescue = false → t.clk.rescueCount = min 0xFFFF (s.clk.rescueCount + 1) ∧ t.clk.cause = cause ∧
          ⟨0x600, 10, 0, 3, false, false, cause⟩ ∈ t.health.flying) ∧
        (s.clk.rescue = true → t.clk.rescueCount = s.clk.rescueCount ∧ t.clk.cause = s.clk.cause)) ∧
  (∀ s : State, s.awake = true → s.clk.rescue = true → s.clk.coreLock = true →
      Completes .rescueExit s [.clk, .reports] fun t =>
        t.clk = { s.clk with rescue := false, recommit := (List.range 4).filter fun p => (s.setter.part p).live, rep := [] } ∧
        ⟨0x600, 10, 0, 3, true, false, 0⟩ ∈ t.health.flying) ∧
  (∀ (s : State) (p : Nat), p < 4 → s.awake = true → s.clk.rescue = false → p ∈ s.clk.recommit → s.setter.armedOf p = false → (∀ b ∈ s.setter.builds, b.entry.part ≠ p) →
      Completes (.rescueRecommit p) s [.clk, .links, .setter, .facets, .tiles, .power, .reports] fun t =>
        p ∉ t.clk.recommit ∧ t.clk.doms = s.clk.doms ∧
        ((s.setter.part p).live = false → t.setter = s.setter) ∧
        ((s.setter.part p).live = true → ∃ a : Armed, t.setter.armed = s.setter.armed ++ [a] ∧ a.part = p ∧ a.number = (s.setter.part p).epoch + 1 ∧
          a.old = (s.setter.part p).graph ∧ a.new = (s.setter.part p).graph ∧ a.law = .fadeIn)) ∧
  (∀ (s : State) (i : Nat) (es : List Int) (mean : Int), s.unitsWf = true → i < 2 → es.length = 3 → s.clocked = true → s.clk.refPresent i = true →
      Completes (.referenceLoss i es mean) s [.clk, .clasp, .reports] fun t =>
        t.clk.refPresent i = false ∧ t.clk.refQual i = false ∧ (∀ j, j < 2 → j ≠ i → t.clk.refPresent j = s.clk.refPresent j ∧ t.clk.refQual j = s.clk.refQual j) ∧
        t.clasp = (if i = 0 ∧ s.clasp.pll = .refin then { s.clasp with pll := .hold } else s.clasp) ∧
        (s.clk.active ≠ i + 1 → t.clk.active = s.clk.active ∧ t.clk.doms = s.clk.doms) ∧
        (s.clk.active = i + 1 → s.clk.source = i + 1 → s.clk.enabled = true → t.clk.active = 0 ∧ t.clk.holdover = true ∧ t.clk.freq = mean ∧
          (∀ k, k < 3 → (s.dom k).run = true → (s.dom k).st ≠ .clamped → (s.dom k).st ≠ .stepping → (s.dom k).st ≠ .stopped → (t.dom k).st = .holdover) ∧
          (s.clk.holdover = false → ⟨0x601, 11, 0, 3, false, false, 0⟩ ∈ t.health.flying))) ∧
  (∀ (s : State) (i : Nat) (es : List Int) (freq : Int), s.unitsWf = true → i < 2 → es.length = 3 → s.clocked = true → s.clk.refQual i = false →
      Completes (.referenceQualified i es freq) s [.clk, .reports] fun t =>
        t.clk.refPresent i = true ∧ t.clk.refQual i = true ∧
        (s.clk.enabled = false ∨ s.clk.holdover = false → t.clk.active = s.clk.active ∧ t.clk.doms = s.clk.doms) ∧
        (s.clk.enabled = true → s.clk.holdover = true → s.clk.source = i + 1 → t.clk.active = i + 1 ∧ t.clk.holdover = false ∧ t.clk.freq = freq ∧
          ∀ k, k < 3 → (s.dom k).run = true → (s.dom k).st ≠ .stepping → (t.dom k).e = es.getD k 0 ∧
            ((s.dom k).policy = 0 → (es.getD k 0).natAbs ≤ 1000000 → (t.dom k).st = .slewing) ∧
            ((s.dom k).policy = 0 → 1000000 < (es.getD k 0).natAbs → (t.dom k).st = .held ∧ (t.dom k).actHold = true) ∧
            ((s.dom k).policy = 1 → (t.dom k).st = .held ∧ (t.dom k).stepDue = true) ∧ ((s.dom k).policy = 2 → (t.dom k).st = .held))) ∧
  (∀ (s : State) (r code : Nat) (es : List Int) (freq : Int), r < 7 → code < 8 → es.length = 3 → s.commands r = true →
      Completes (.mpllSourceWrite r code es freq) s [.clk, .reports] fun t =>
        (5 ≤ code → t.clk = s.settle.clk) ∧ (code < 5 → t.clk.source = code) ∧
        (s.clk.source = 0 → s.clk.holdover = false → code = 1 → s.clk.qual.1 = true → s.clk.enabled = true → t.clk.active = 1 ∧ t.clk.holdover = false ∧ t.clk.freq = freq) ∧
        (code = 0 → s.clk.enabled = true → t.clk.active = 0 ∧ t.clk.holdover = false ∧ t.clk.detLock = true) ∧
        (code < 5 → s.clk.enabled = false → t.clk.active = 0 ∧ t.clk.doms = s.clk.doms)) ∧
  (∀ (s : State) (r : Nat) (on : Bool) (es : List Int) (freq : Int), r < 7 → es.length = 3 → s.commands r = true →
      Completes (.mpllEnableWrite r on es freq) s [.clk, .reports] fun t => t.clk.enabled = on ∧ t.clk.source = s.clk.source ∧
        (on = true → s.clk.enabled = true → t.clk = s.settle.clk) ∧ (on = true → s.clk.enabled = false → t.clk.enabledAt = s.us ∧ t.clk.freq = freq) ∧
        (on = false → t.clk.mpllLock = false ∧ t.clk.detLock = false ∧ t.clk.active = 0 ∧ t.clk.holdover = false ∧ t.clk.doms = s.clk.doms)) ∧
  (∀ s : State, s.clocked = true → s.clk.enabled = true → s.clk.lockMode = true → s.clk.mpllLock = false → s.clk.enabledAt + 50000 ≤ s.us →
      Completes .compatLockTimer s [.clk] fun t => t.clk = { s.clk with mpllLock := true, rep := [] }) ∧
  (∀ s : State, s.clocked = true → s.clk.enabled = true → s.clk.lockMode = false →
      Completes .mpllLockSet s [.clk] fun t => t.clk = { s.clk with mpllLock := true, rep := [] }) ∧
  (∀ s : State, s.clocked = true → s.clk.lockMode = false →
      Completes .mpllLockClear s [.clk] fun t => t.clk = { s.clk with mpllLock := false, rep := [] })

/-- TOL_CLAMP clamps a running domain and reports it; CLAMP_EXIT makes the domain's own reference return under its POLICY. SLEW_DONE
with |e| of at most 1 µs and within the lock window locks. STEP_FADE_END ends a step in Locked or Holdover. POLICY_WRITE takes
codes 0 to 2. STEP_NOW and SLEW_ANY wait for the next tick while the domain is held with a reference, and set CMD_REJ otherwise;
at that tick a waiting STEP_NOW begins a step and a waiting SLEW_ANY a slew. DOMAIN_STOP keeps the tick count. DOMAIN_RESTART
starts the domain at tick 0 with the rate and tolerance that wait. DOMAIN_TICK_READ answers with the tick count and latches its
upper half and the stamp. No other domain changes. -/
def Obligations.RateDomainCommands : Prop :=
  (∀ (s : State) (k : Nat), s.unitsWf = true → k < 3 → s.clocked = true → (s.dom k).run = true →
      Completes (.tolClamp k) s [.clk, .reports] fun t => (∀ j, j ≠ k → t.dom j = s.dom j) ∧
        ((s.dom k).st ≠ .clamped → (s.dom k).st ≠ .stepping → (t.dom k).st = .clamped ∧ ⟨0x602, 14, k, k, false, false, 0⟩ ∈ t.health.flying) ∧
        ((s.dom k).st = .clamped ∨ (s.dom k).st = .stepping → t.dom k = s.dom k)) ∧
  (∀ (s : State) (k : Nat) (e : Int), s.unitsWf = true → k < 3 → s.clocked = true → (s.dom k).run = true → (s.dom k).st = .clamped → s.clk.active ≠ 0 →
      Completes (.clampExit k e) s [.clk, .reports] fun t => (∀ j, j ≠ k → t.dom j = s.dom j) ∧ (t.dom k).e = e ∧
        ⟨0x602, 14, k, k, true, false, 0⟩ ∈ t.health.flying ∧
        ((s.dom k).policy = 0 → e.natAbs ≤ 1000000 → (t.dom k).st = .slewing) ∧ ((s.dom k).policy = 1 → (t.dom k).st = .held ∧ (t.dom k).stepDue = true) ∧
        ((s.dom k).policy = 2 ∨ ((s.dom k).policy = 0 ∧ 1000000 < e.natAbs) → (t.dom k).st = .held)) ∧
  (∀ (s : State) (k : Nat) (e : Int), s.unitsWf = true → k < 3 → s.clocked = true → (s.dom k).st = .slewing →
      Completes (.slewDone k e) s [.clk] fun t => (∀ j, j ≠ k → t.dom j = s.dom j) ∧
        (e.natAbs ≤ 1000 → e.natAbs ≤ s.clk.lockWin → t.dom k = { s.dom k with st := .locked, e := e }) ∧ (1000 < e.natAbs ∨ s.clk.lockWin < e.natAbs → t.dom k = s.dom k)) ∧
  (∀ (s : State) (k : Nat), s.unitsWf = true → k < 3 → s.clocked = true → (s.dom k).st = .stepping → 64 ≤ (s.dom k).stepPos →
      Completes (.stepFadeEnd k) s [.clk] fun t => (∀ j, j ≠ k → t.dom j = s.dom j) ∧
        t.dom k = { s.dom k with stepPos := 0, st := if s.clk.holdover = true then .holdover else .locked }) ∧
  (∀ (s : State) (r k code : Nat), s.unitsWf = true → r < 7 → k < 3 → code < 4 → s.commands r = true →
      Completes (.policyWrite r k code) s [.clk] fun t => (∀ j, j ≠ k → t.dom j = s.dom j) ∧
        t.dom k = (if code = 3 then s.dom k else { s.dom k with policy := code, policyNew := true })) ∧
  (∀ (s : State) (r k : Nat), s.unitsWf = true → r < 7 → k < 3 → s.commands r = true →
      let ok := (s.dom k).st = .held ∧ s.clk.active ≠ 0
      Completes (.stepNow r k) s [.clk] (fun t => (∀ j, j ≠ k → t.dom j = s.dom j) ∧
        (ok → t.dom k = { s.dom k with cmd := some true }) ∧ (¬ ok → t.dom k = { s.dom k with cmdRej := true })) ∧
      Completes (.slewAny r k) s [.clk] (fun t => (∀ j, j ≠ k → t.dom j = s.dom j) ∧
        (ok → (s.dom k).cmd = none → t.dom k = { s.dom k with cmd := some false }) ∧ (¬ ok → t.dom k = { s.dom k with cmdRej := true }))) ∧
  (∀ (c : ClkSys) (k ns : Nat) (e : Int), Memory.wf (fun _ => Dom.reset) c.doms = true → (c.dom k).st = .held → c.active ≠ 0 → (c.dom k).policyNew = false → (c.dom k).stepDue = false →
      ((c.dom k).cmd = some true → ((c.tick k ns e).dom k).st = .stepping ∧ ((c.tick k ns e).dom k).stepPos = 0 ∧ ((c.tick k ns e).dom k).cmd = none) ∧
      ((c.dom k).cmd = some false → ((c.tick k ns e).dom k).st = .slewing ∧ ((c.tick k ns e).dom k).cmd = none) ∧
      ((c.dom k).cmd = none → ((c.tick k ns e).dom k).st = .held)) ∧
  (∀ (s : State) (k : Nat), s.unitsWf = true → k < 3 → s.awake = true → (s.dom k).run = true → (s.dom k).declared = false → s.oldWork k = false →
      Completes (.domainStop k) s [.clk, .clasp, .reports] fun t => (∀ j, j ≠ k → t.dom j = s.dom j) ∧
        (t.dom k).run = false ∧ (t.dom k).st = .stopped ∧ (t.dom k).next = (s.dom k).next ∧ (∀ c ∈ t.clasp.ports, c.released = false → c.dom ≠ some k)) ∧
  (∀ (s : State) (k rate tol : Nat), s.unitsWf = true → k < 3 → s.awake = true → (s.dom k).run = false → (s.dom k).restart = some (rate, tol) → s.awaitsRestart k = true →
      Completes (.domainRestart k) s [.clk, .plane, .links, .net, .ports, .host, .setter, .facets, .tiles, .mem, .dram, .power, .reports] fun t => (∀ j, j ≠ k → t.dom j = s.dom j) ∧
        (t.dom k).run = true ∧ (t.dom k).rate = rate ∧ (t.dom k).tol = tol ∧ (t.dom k).next = 0 ∧ (t.dom k).restart = none ∧ (t.dom k).policy = (s.dom k).policy ∧ t.dram.words = s.dram.words) ∧
  (∀ (s : State) (r k : Nat), s.unitsWf = true → s.quiet = true → r < 7 → k < 3 → s.readable = true → r = 6 ∨ (s.host.view r).isSome = true →
      Completes (.domainTickRead r k) s [.clk, .out] fun t => (∀ j, j ≠ k → t.dom j = s.dom j) ∧
        t.dom k = { s.dom k with latHi := BitVec.ofNat 32 (((s.dom k).next - 1) / 2 ^ 32), latTs := (s.dom k).stamp } ∧
        t.out = [.reg r (0x20050 + 0x20 * k) (BitVec.ofNat 32 ((s.dom k).next - 1))])

/-- CLKOUT_CONFIG_WRITE changes one register of one output, field by field: a SRC of 7, a FMT of 3 and a MULT above 9 leave their
field, and reserved bits stay 0; the register reads as written. An output without EN or SRC drives low, one with the pulse or CREF
as source toggles (CREF unless it is lost), and the N leg is high-impedance in LVCMOS. SYNC_IN_EDGE of the selected polarity is
kept until its tick, and one-shot mode ends with it; any other edge changes nothing but the time. CLKOUT_RESYNC at a tick of the
selected domain at least 100 ns after the edge records the tick count in CLK_SYNC_CAP and restarts the selected outputs with SRC
4; earlier it changes nothing. -/
def Obligations.ClockOutputCommands : Prop :=
  (∀ (s : State) (r n : Nat) (v : Word), Memory.wf zeroW s.clk.outCfg = true → r < 7 → n < 8 → s.commands r = true →
      Completes (.clkoutConfigWrite r n false v) s [.clk] fun t => t.clk.outDiv = s.clk.outDiv ∧ t.clk.doms = s.clk.doms ∧ t.clk.sync = s.clk.sync ∧ (∀ m, m ≠ n → t.clk.cfg m = s.clk.cfg m) ∧
        (t.clk.cfg n).flag 31 = v.flag 31 ∧ (t.clk.cfg n).flag 4 = v.flag 4 ∧
        (t.clk.cfg n).fld 20 11 = 0 ∧ (t.clk.cfg n).fld 10 6 = 0 ∧ (t.clk.cfg n).fld 5 3 = 0 ∧ (t.clk.cfg n).flag 3 = false ∧
        t.readReg 6 (0x20100 + 8 * n) = t.clk.cfg n ∧
        (t.clk.cfg n).fld 0 3 = (if v.fld 0 3 = 7 then (s.clk.cfg n).fld 0 3 else v.fld 0 3) ∧
        (t.clk.cfg n).fld 8 2 = (if v.fld 8 2 = 3 then (s.clk.cfg n).fld 8 2 else v.fld 8 2) ∧
        (t.clk.cfg n).fld 16 4 = (if 9 < v.fld 16 4 then (s.clk.cfg n).fld 16 4 else v.fld 16 4) ∧
        (s.clk.outHiZ = false → v.flag 31 = false ∨ v.fld 0 3 = 0 → t.clk.legs n = (some false, if (t.clk.cfg n).fld 8 2 = 2 then none else some false)) ∧
        (s.clk.outHiZ = false → v.flag 31 = true → v.fld 0 3 = 5 → t.clk.legs n = (some true, if (t.clk.cfg n).fld 8 2 = 2 then none else some true)) ∧
        (s.clk.outHiZ = false → v.flag 31 = true → v.fld 0 3 = 6 → t.clk.legs n = (some (!s.clk.crefLost), if (t.clk.cfg n).fld 8 2 = 2 then none else some (!s.clk.crefLost)))) ∧
  (∀ (s : State) (r n : Nat) (v : Word), Memory.wf outDivReset s.clk.outDiv = true → r < 7 → n < 8 → s.commands r = true →
      Completes (.clkoutConfigWrite r n true v) s [.clk] fun t => t.clk.outCfg = s.clk.outCfg ∧ t.clk.doms = s.clk.doms ∧ (∀ m, m ≠ n → t.clk.div m = s.clk.div m) ∧
        (2 ≤ v.fld 20 12 → t.clk.div n = v) ∧ (v.fld 20 12 < 2 → (t.clk.div n).fld 0 20 = v.fld 0 20 ∧ (t.clk.div n).fld 20 12 = (s.clk.div n).fld 20 12)) ∧
  (∀ (s : State) (falling : Bool) (ns : Nat), s.clocked = true →
      Completes (.syncInEdge falling ns) s [.clk, .time] fun t => t.ns = ns ∧ t.clk.doms = s.clk.doms ∧ t.clk.outRestart = s.clk.outRestart ∧
        (s.clk.sync.fld 2 2 ≠ 0 → s.clk.sync.flag 0 = falling → t.clk.syncEdges = s.clk.syncEdges ++ [ns] ∧
          t.clk.sync.fld 2 2 = (if s.clk.sync.fld 2 2 = 1 then 0 else s.clk.sync.fld 2 2)) ∧
        (s.clk.sync.fld 2 2 = 0 ∨ s.clk.sync.flag 0 ≠ falling → t.clk = s.settle.clk)) ∧
  (∀ (s : State) (ns : Nat), s.clocked = true → s.clk.syncEdges = [ns] → Memory.wf (fun _ => 0) s.clk.outRestart = true →
      Completes .clkoutResync s [.clk] fun t =>
        let d := s.dom (s.clk.sync.fld 4 2)
        (d.run = true → 0 < d.next → ns + 100 ≤ d.lastNs → t.clk.syncEdges = [] ∧ t.clk.syncCap = BitVec.ofNat 32 (d.next - 1) ∧
          ∀ n, n < 8 → Memory.get (fun _ => 0) t.clk.outRestart n =
            if s.clk.sync.flag (8 + n) = true ∧ (s.clk.cfg n).fld 0 3 = 4 then d.next - 1 else Memory.get (fun _ => 0) s.clk.outRestart n) ∧
        (d.run = false ∨ d.next = 0 ∨ d.lastNs < ns + 100 → t.clk = s.settle.clk))

/-- LINK_UP sets the link, ends LINK_DOWN and, on an enabled port, sends a gratuitous ARP request and plans the second. LINK_DOWN with
a cause clears the link and what the port was about to send, and reports LINK_DOWN. I2C_TRANSFER with START on an idle bus starts
the transfer on the named cage; I2C_DONE ends it, with NAK when no device answered, else with the byte read. GRATUITOUS_ARP sends
the second request. ARP_REFRESH after 60 s and ARP_RETRY after 1 s send one request; ARP_UNRESOLVED after 3 s forgets the address
and reports it. IGMP_QUERY_RESPONSE answers the oldest query, IGMP_REPORT_RETRANSMIT sends the state-change reports that are left
once more, IGMP_COMPAT_TIMEOUT ends the compatibility mode. The other port keeps its registers, link and cache. -/
def Obligations.NetworkPortCommands : Prop :=
  let one := fun (s t : State) (i : Nat) (fs : List (List Byte)) => s.quiet = true → s.txOn = true → t.out = fs.map fun f => .netFrame i f
  let other := fun (s t : State) (i : Nat) => ∀ j, j < 2 → j ≠ i → t.net.port j = s.net.port j
  (∀ (s : State) (i : Nat), i < 2 → s.netUp = true → (s.net.port i).link = false →
      Completes (.linkUp i) s [.net, .clk, .reports, .out] fun t => let p := s.net.port i
        t.net.rx = s.net.rx ∧ t.net.tx = s.net.tx ∧ (t.net.port i).link = true ∧ (t.net.port i).garp = p.en ∧ other s t i ∧ ⟨0x700, 6, i, 3, true, false, 0⟩ ∈ t.health.flying ∧
        one s t i (if p.en = true then [arpRequest p p.ip.toNat] else [])) ∧
  (∀ (s : State) (i : Nat) (los blk ber : Bool), i < 2 → s.netUp = true → (s.net.port i).link = true →
      Completes (.linkDown i los blk ber) s [.net, .clk, .reports] fun t => t.net.rx = s.net.rx ∧ t.net.tx = s.net.tx ∧ other s t i ∧
        (los = true ∨ blk = false ∨ ber = true → (t.net.port i).link = false ∧ (t.net.port i).los = los ∧ (t.net.port i).resend = [] ∧ (t.net.port i).arp = (s.net.port i).arp ∧
          ⟨0x700, 6, i, 3, false, false, 0⟩ ∈ t.health.flying) ∧
        (los = false → blk = true → ber = false → t.net = s.settle.net)) ∧
  (∀ (s : State) (r : Nat) (v : Word), s.quiet = true → r < 7 → s.commands r = true →
      Completes (.i2cTransfer r v) s [.net, .out] fun t => t.net.rx = s.net.rx ∧ t.net.n0 = s.net.n0 ∧ t.net.n1 = s.net.n1 ∧
        (s.net.i2c.flag 31 = true → t.net.i2c = s.net.i2c ∧ t.out = []) ∧
        (s.net.i2c.flag 31 = false → v.flag 31 = true → v.fld 17 7 = 0x50 ∨ v.fld 17 7 = 0x51 → t.net.i2c.flag 31 = true ∧
          t.out = [.cage (v.fld 27 1) 0x70 0 (some (v.fld 27 1 + 1)), .cage (v.fld 27 1) (v.fld 17 7) (v.fld 8 8) (if v.flag 26 = true then some (v.fld 0 8) else none)])) ∧
  (∀ (s : State) (ack : Bool) (d : Nat), d < 256 → s.awake = true → s.net.i2c.flag 31 = true →
      Completes (.i2cDone ack d) s [.net] fun t => t.net.rx = s.net.rx ∧ t.net.n0 = s.net.n0 ∧ t.net.n1 = s.net.n1 ∧ t.net.i2c.flag 31 = false ∧ t.net.i2c.flag 30 = !ack ∧
        (ack = true → s.net.i2c.flag 26 = false → t.net.i2c.fld 0 8 = d) ∧ (ack = false → t.net.i2c.fld 0 8 = s.net.i2c.fld 0 8)) ∧
  (∀ (s : State) (i : Nat), i < 2 → s.netUp = true → (s.net.port i).garp = true → (s.net.port i).link = true →
      Completes (.gratuitousArp i) s [.net, .out] fun t => t.net.rx = s.net.rx ∧ other s t i ∧ (t.net.port i).garp = false ∧
        one s t i [arpRequest (s.net.port i) (s.net.port i).ip.toNat]) ∧
  (∀ (s : State) (i ip : Nat) (a : Arp), i < 2 → ip < 2 ^ 32 → s.netUp = true → (s.net.port i).arpOf ip = some a → a.mac.isSome = true → a.asked = none → a.at_ + 60000000 ≤ s.us →
      Completes (.arpRefresh i ip) s [.net, .out] fun t => t.net.rx = s.net.rx ∧ other s t i ∧ (t.net.port i).arpOf ip = some { a with asked := some s.us, lastReq := s.us } ∧
        one s t i [arpRequest (s.net.port i) ip]) ∧
  (∀ (s : State) (i ip : Nat) (a : Arp), i < 2 → ip < 2 ^ 32 → s.netUp = true → (s.net.port i).arpOf ip = some a → a.asked.isSome = true → a.lastReq + 1000000 ≤ s.us →
      ((s.net.port i).nextHop ip).isSome = true →
      Completes (.arpRetry i ip) s [.net, .out] fun t => t.net.rx = s.net.rx ∧ other s t i ∧ (t.net.port i).arpOf ip = some { a with lastReq := s.us } ∧
        one s t i [arpRequest (s.net.port i) ip]) ∧
  (∀ (s : State) (i ip : Nat) (a : Arp) (u : Nat), i < 2 → ip < 2 ^ 32 → s.netUp = true → (s.net.port i).arpOf ip = some a → a.asked = some u → u + 3000000 ≤ s.us → a.raised = false →
      Completes (.arpUnresolved i ip) s [.net, .reports] fun t => t.net.rx = s.net.rx ∧ other s t i ∧ (t.net.port i).arpOf ip = some { a with mac := none, raised := true } ∧
        ⟨0x701, 6, i, 3, false, false, 0⟩ ∈ t.health.flying) ∧
  (∀ (s : State) (i : Nat), i < 2 → s.netUp = true → (s.net.port i).queries ≠ [] →
      Completes (.igmpQueryResponse i) s [.net, .out] fun t => t.net.rx = s.net.rx ∧ other s t i ∧ (t.net.port i).queries = (s.net.port i).queries.tail ∧
        (t.net.port i).resend = (s.net.port i).resend) ∧
  (∀ (s : State) (i : Nat), i < 2 → s.netUp = true → (s.net.port i).resend ≠ [] →
      Completes (.igmpReportRetransmit i) s [.net, .out] fun t => t.net.rx = s.net.rx ∧ other s t i ∧
        (t.net.port i).resend = ((s.net.port i).resend.filter fun r => decide (1 < r.left)).map (fun r => { r with left := r.left - 1 }) ∧
        one s t i (igmpReport (s.net.port i) ((s.net.port i).resend.map fun r => (r.typ, r.grp, r.srcs)))) ∧
  (∀ (s : State) (i : Nat), i < 2 → s.netUp = true → (s.net.port i).compat ≠ none →
      Completes (.igmpCompatTimeout i) s [.net] fun t => other s t i ∧ t.net.port i = { s.net.port i with compat := none } ∧ t.net.rx = s.net.rx)

/-- FRAME_RECEIVE on a disabled port or without link changes nothing but the time; a frame with a wrong FCS counts in RXFCS, another
frame that is not accepted in RXDROP. A sample of a stream that has arrived is kept: no later packet of either leg overwrites it.
LEG_LOSS clears a leg's LEG_OK bit and raises nothing. STREAM_LOSS releases the SSRC latch and reports STREAM_LOSS.
PACKET_DEPARTURE takes the oldest packet of the context, with the next sequence number; on one enabled port with link it is the
RTP packet that R338 describes, to the group's address; in the Rescue condition nothing is sent. -/
def Obligations.StreamContextCommands : Prop :=
  (∀ (s : State) (i ns : Nat) (f : List Byte) (es : List Int) (freq : Int), i < 2 → es.length = 3 → s.netUp = true →
      Completes (.frameReceive i ns f es freq) s [.net, .clk, .reports, .out, .time] fun t =>
        ((s.net.port i).en = false ∨ (s.net.port i).link = false → t.net = s.settle.net ∧ t.clk = s.settle.clk ∧ t.ns = ns) ∧
        ((s.net.port i).en = true → (s.net.port i).link = true → parseEth (s.net.port i) f = .error .fcs →
          t.net.port i = { s.net.port i with rxFcs := (s.net.port i).rxFcs + 1 } ∧ t.net.rx = s.net.rx ∧ t.net.ptp = s.net.ptp ∧ t.ns = ns) ∧
        ((s.net.port i).en = true → (s.net.port i).link = true → parseEth (s.net.port i) f = .error .other →
          t.net.port i = { s.net.port i with rxDrop := (s.net.port i).rxDrop + 1 } ∧ t.net.rx = s.net.rx ∧ t.net.ptp = s.net.ptp ∧ t.ns = ns)) ∧
  (∀ (s : NetSys) (doms : Nat → Dom) (n i ns : Nat) (r : Rtp), Memory.wf (fun _ => RxCtx.reset) s.rx = true → Memory.wf (fun _ => none) (s.rxc n).buf = true →
      (∀ ts ws, Memory.get (fun _ => none) (s.rxc n).buf ts = some ws → Memory.get (fun _ => none) ((s.rtpRx doms n i ns r).rxc n).buf ts = some ws) ∧
      (r.pt ≠ (s.rxc n).pt ∨ r.data.length ≠ (s.rxc n).ch * (s.rxc n).ptime * fmtBytes (s.rxc n).fmt ∨ (∃ x, (s.rxc n).ssrc = some x ∧ x ≠ r.ssrc) →
        (s.rtpRx doms n i ns r).rx = s.rx ∧ (s.rtpRx doms n i ns r).ptp = s.ptp)) ∧
  (∀ (s : State) (n i ns : Nat), s.unitsWf = true → n < 1024 → i < 2 → s.netUp = true → (s.net.rxc n).used = true → leg (s.net.rxc n).legOk i = true →
      (s.net.port i).link = false ∨ leg (s.net.rxc n).lastNs i + 1000000 ≤ ns →
      Completes (.legLoss n i ns) s [.net, .time] fun t => t.ns = ns ∧ t.net.rxc n = { s.net.rxc n with legOk := if i = 0 then (false, (s.net.rxc n).legOk.2) else ((s.net.rxc n).legOk.1, false) } ∧
        ∀ m, m ≠ n → t.net.rxc m = s.net.rxc m) ∧
  (∀ (s : State) (n ns : Nat), s.unitsWf = true → n < 1024 → s.netUp = true → (s.net.rxc n).used = true → (s.net.rxc n).present = true →
      max (s.net.rxc n).lastNs.1 (s.net.rxc n).lastNs.2 + max (4 * (s.net.rxc n).ptime * 1000000000 / max 1 (s.net.rxc n).hz) 1000000 < ns →
      Completes (.streamLoss n ns) s [.net, .reports, .time] fun t => t.ns = ns ∧ (t.net.rxc n).present = false ∧ (t.net.rxc n).ssrc = none ∧ (t.net.rxc n).legOk = (false, false) ∧
        (t.net.rxc n).buf = (s.net.rxc n).buf ∧ (∀ m, m ≠ n → t.net.rxc m = s.net.rxc m) ∧ ⟨0x703, 8, n, domOr3 (s.net.rxc n).dom, false, false, 0⟩ ∈ t.health.flying) ∧
  (∀ (s : State) (n ns q : Nat) (k : TxPkt) (rest : List TxPkt), s.unitsWf = true → n < 1024 → s.netUp = true → (s.net.txc n).ready = k :: rest → (s.net.txc n).seq = some q →
      Completes (.packetDeparture n ns) s [.net, .out, .free, .time] fun t => let c := s.net.txc n
        t.ns = ns ∧ (t.net.txc n).ready = rest ∧ (t.net.txc n).seq = some ((q + 1) % 65536) ∧ t.net.rx = s.net.rx ∧ (∀ m, m ≠ n → t.net.txc m = s.net.txc m) ∧
        (s.quiet = true → s.clk.rescue = true → t.out = []) ∧
        (s.quiet = true → s.txOn = true → s.clk.rescue = false → c.ports = 1 → s.net.n0.en = true → s.net.n0.link = true → isGroup c.addr.1 = true →
          t.out = [.netFrame 0 (ethFrame s.net.n0 (groupMac c.addr.1) 0x0800 (ipv4 s.net.n0 (c.dscp * 4) 17 c.addr.1 [] (udp s.net.n0 c.addr.1 c.udp.1 c.udp.1
            (beBytes 1 0x80 ++ beBytes 1 c.pt ++ beBytes 2 q ++ beBytes 4 k.ts ++ beBytes 4 c.ssrc ++ k.payload))))]))

/-- The servo of R350: the first offset above 1 µs while PTP_OK is 0 steps the timescale; the sixteenth offset within 1 µs sets
PTP_OK; the eighth above 10 µs clears it; while PTP_OK is 1 nothing steps. ANNOUNCE_TIMEOUT forgets the port's senders: the port
leads when LEADER_EN is 1 and listens otherwise, and PTP_OK clears when the servo is fixed to that port and followed it.
SYNC_TIMEOUT of the followed port clears PTP_OK unless R351 covers it. PTP_ANNOUNCE_TX, PTP_SYNC_TX and PTP_DELAY_REQ_TX send the
messages of a leader or a follower and count their sequence numbers. NET_PORT_EN_WRITE enables or disables one port. PTP_CTL_WRITE
starts or stops PTP; a new profile loads its defaults. -/
def Obligations.TimeCoreCommands : Prop :=
  (∀ (n : NetSys) (i : Nat) (off : Int), i < 2 → i = n.ptp.follow → (n.ptp.port i).state = 2 →
      let r := n.measure i off
      (n.ptp.ok = false → n.ptp.first = true → 1000 < off.natAbs → r.2 = -off ∧ r.1.ptp.step = -off ∧ r.1.ptp.stepped = true ∧ r.1.ptp.ok = false) ∧
      (n.ptp.ok = false → n.ptp.good = 15 → off.natAbs ≤ 1000 → r.1.ptp.ok = true ∧ r.2 = 0) ∧
      (n.ptp.ok = false → n.ptp.good < 15 → r.1.ptp.ok = false) ∧
      (n.ptp.ok = true → r.2 = 0 ∧ (n.ptp.bad = 7 → 10000 < off.natAbs → r.1.ptp.ok = false) ∧ (n.ptp.bad < 7 ∨ off.natAbs ≤ 10000 → r.1.ptp.ok = true))) ∧
  (∀ (s : State) (i : Nat) (es : List Int) (freq : Int), i < 2 → es.length = 3 → s.netUp = true →
      Completes (.announceTimeout i es freq) s [.net, .clk, .reports] fun t =>
        ((s.net.ptp.port i).state = 0 → t.net = s.settle.net ∧ t.clk = s.settle.clk) ∧
        ((s.net.ptp.port i).state ≠ 0 → (t.net.ptp.port i).foreign = [] ∧
          (s.net.ptp.en = true → (s.net.port i).en = true → (s.net.port i).link = true → (t.net.ptp.port i).state = if s.net.ptp.leaderEn = true then 3 else 1) ∧
          ((s.net.ptp.port i).state = 2 → s.net.ptp.follow = i → s.net.ptp.servo = i → t.net.ptp.ok = false))) ∧
  (∀ (s : State) (i : Nat) (es : List Int) (freq : Int), i < 2 → es.length = 3 → s.netUp = true →
      Completes (.syncTimeout i es freq) s [.net, .clk, .reports] fun t => t.net.rx = s.net.rx ∧
        (i ≠ s.net.ptp.follow ∨ s.net.ptp.en = false → t.net = s.settle.net ∧ t.clk = s.settle.clk) ∧
        (i = s.net.ptp.follow → s.net.ptp.en = true → s.net.ptp.servo ≠ 2 → t.net.ptp.ok = false ∧ t.net.ptp.first = true) ∧
        (i = s.net.ptp.follow → s.net.ptp.en = true → s.net.ptp.servo = 2 → (s.net.ptp.port (1 - i)).state = 2 → (s.net.ptp.port (1 - i)).parent.map Announce.gm = some s.net.ptp.gm →
          ((s.net.ptp.port (1 - i)).offset - (s.net.ptp.port i).offset).natAbs ≤ 1000 → t.net.ptp.follow = 1 - i ∧ t.net.ptp.ok = s.net.ptp.ok ∧ t.clk = s.settle.clk)) ∧
  (∀ (s : State) (i ns : Nat), s.quiet = true → i < 2 → s.netUp = true → (s.net.ptp.port i).state = 3 →
      Completes (.ptpAnnounceTx i ns) s [.net, .out, .time] fun t => t.ns = ns ∧ t.net.rx = s.net.rx ∧
        t.net.ptp.port i = { s.net.ptp.port i with annSeq := ((s.net.ptp.port i).annSeq + 1) % 65536 } ∧
        (s.txOn = true → ∃ b, t.out = [.netFrame i (ptpFrame (s.net.port i) false (ptpMsg 0xB s.net.ptp.domNum 0 (s.net.ident i) (s.net.ptp.port i).annSeq 5 (s.net.ptp.intv.fld 16 8) (ptpStamp ns ++ b)))])) ∧
  (∀ (s : State) (i ns : Nat), s.quiet = true → i < 2 → s.netUp = true → (s.net.ptp.port i).state = 3 →
      Completes (.ptpSyncTx i ns) s [.net, .out, .time] fun t => t.ns = ns ∧ t.net.rx = s.net.rx ∧
        t.net.ptp.port i = { s.net.ptp.port i with syncSeq := ((s.net.ptp.port i).syncSeq + 1) % 65536 } ∧
        (s.txOn = true → t.out =
          [.netFrame i (ptpFrame (s.net.port i) true (ptpMsg 0x0 s.net.ptp.domNum 0x0200 (s.net.ident i) (s.net.ptp.port i).syncSeq 0 (s.net.ptp.intv.fld 8 8) (ptpStamp 0))),
           .netFrame i (ptpFrame (s.net.port i) false (ptpMsg 0x8 s.net.ptp.domNum 0 (s.net.ident i) (s.net.ptp.port i).syncSeq 2 (s.net.ptp.intv.fld 8 8) (ptpStamp ns)))])) ∧
  (∀ (s : State) (i ns : Nat), s.quiet = true → i < 2 → s.netUp = true → (s.net.ptp.port i).state = 2 →
      Completes (.ptpDelayReqTx i ns) s [.net, .out, .time] fun t => t.ns = ns ∧ t.net.rx = s.net.rx ∧
        t.net.ptp.port i = { s.net.ptp.port i with dreq := some ((s.net.ptp.port i).dreqSeq, ns), dreqSeq := ((s.net.ptp.port i).dreqSeq + 1) % 65536 } ∧
        (s.txOn = true → t.out = [.netFrame i (ptpFrame (s.net.port i) true (ptpMsg 0x1 s.net.ptp.domNum 0 (s.net.ident i) (s.net.ptp.port i).dreqSeq 1 0x7F (ptpStamp 0)))])) ∧
  (∀ (s : State) (r i : Nat) (v : Word), r < 7 → i < 2 → s.commands r = true →
      Completes (.netPortEnWrite r i v) s [.net, .clk, .reports, .out] fun t => t.net.rx = s.net.rx ∧ t.net.tx = s.net.tx ∧
        (t.net.port i).en = v.flag 0 ∧ (t.net.port i).ctl.flag 8 = v.flag 8 ∧ (t.net.port i).ctl.flag 4 = (if (s.net.port i).en = true then (s.net.port i).ctl.flag 4 else v.flag 4) ∧
        (∀ j, j < 2 → j ≠ i → (t.net.port j).ctl = (s.net.port j).ctl) ∧
        ((s.net.port i).en = true → v.flag 0 = false → (t.net.port i).arp = [] ∧ (t.net.port i).queries = [])) ∧
  (∀ (s : State) (r : Nat) (v : Word) (es : List Int) (freq : Int), r < 7 → es.length = 3 → s.commands r = true →
      Completes (.ptpCtlWrite r v es freq) s [.net, .clk, .reports, .out] fun t => t.net.rx = s.net.rx ∧ t.net.tx = s.net.tx ∧
        t.net.ptp.en = v.flag 16 ∧ t.net.ptp.leaderEn = v.flag 7 ∧ t.net.ptp.aes67 = (if s.net.ptp.en = true then s.net.ptp.aes67 else v.flag 0) ∧
        (s.net.ptp.en = true → t.net.ptp.domNum = s.net.ptp.domNum ∧ t.net.ptp.intv = s.net.ptp.intv) ∧
        (s.net.ptp.en = false → v.flag 0 ≠ s.net.ptp.aes67 → t.net.ptp.domNum = (profileDefaults (v.flag 0)).1 ∧ t.net.ptp.intv = (profileDefaults (v.flag 0)).2) ∧
        (s.net.ptp.en = true → v.flag 16 = false → t.net.ptp.ok = false ∧ t.net.ptp.gm = 0 ∧ (t.net.ptp.port 0).state = 0 ∧ (t.net.ptp.port 1).state = 0))

/-- FRAME_RECEIVE on an enabled port with link: an ARP request for the port's own address counts in RXFRAMES and is answered with an
ARP reply to its sender; an ICMP echo request to it, with PING set and none in the second before, is answered with the echo reply;
an RTP packet that one receive context on a domain takes, neither late nor early, makes the context present with the packet's
SSRC, sets the leg's LEG_OK bit and its time of arrival, and puts every sample into the buffer at its timestamp, where a sample
that is already there stays. The context's counts of late and early packets, the other contexts and the other port keep their
values. -/
def Obligations.FrameReceiveAccepted : Prop :=
  let open_ := fun (s : State) (i : Nat) => i < 2 ∧ s.netUp = true ∧ (s.net.port i).en = true ∧ (s.net.port i).link = true
  let rest := fun (s t : State) (i ns : Nat) => t.ns = ns ∧ t.net.ptp = s.net.ptp ∧ t.net.tx = s.net.tx ∧ ∀ j, j < 2 → j ≠ i → t.net.port j = s.net.port j
  (∀ (s : State) (i ns : Nat) (f : List Byte) (es : List Int) (freq : Int) (l : L2), open_ s i → es.length = 3 → parseEth (s.net.port i) f = .ok l →
      let p := s.net.port i
      l.type = 0x0806 → l.dst = p.mac ∨ l.dst = bcastMac → 28 ≤ l.body.length → be l.body 0 2 = 1 → be l.body 2 2 = 0x0800 → be l.body 4 2 = 0x0604 → be l.body 6 2 = 1 →
      be l.body 24 4 = p.ip.toNat → be l.body 14 4 ≠ p.ip.toNat → p.arpOf (be l.body 14 4) = none →
      Completes (.frameReceive i ns f es freq) s [.net, .clk, .reports, .out, .time] fun t => rest s t i ns ∧ t.net.rx = s.net.rx ∧
        t.net.port i = { p with rxFrames := p.rxFrames + 1, txFrames := p.txFrames + 1 } ∧
        (s.quiet = true → s.txOn = true → t.out = [.netFrame i (ethFrame p (be l.body 8 6) 0x0806 (arpBody p 2 (be l.body 8 6) (be l.body 14 4)))])) ∧
  (∀ (s : State) (i ns : Nat) (f : List Byte) (es : List Int) (freq : Int) (l : L2) (ip : Ip4), open_ s i → es.length = 3 → parseEth (s.net.port i) f = .ok l →
      let p := s.net.port i
      let body := ip.payload.drop 4
      let msg := fun (c : Nat) => beBytes 2 0 ++ beBytes 2 c ++ body
      l.type = 0x0800 → l.dst = p.mac → parseIp l.body = some ip → ip.dst = p.ip.toNat → ip.proto = 1 → p.ctl.flag 8 = true → be ip.payload 0 2 = 0x0800 → inetOk ip.payload = true →
      8 ≤ ip.payload.length → ip.payload.length ≤ 1480 → p.icmp = [] →
      Completes (.frameReceive i ns f es freq) s [.net, .clk, .reports, .out, .time] fun t => rest s t i ns ∧ t.net.rx = s.net.rx ∧ (t.net.port i).rxFrames = p.rxFrames + 1 ∧
        (s.quiet = true → s.txOn = true → t.out = [.netFrame i (ethFrame p l.src 0x0800 (ipv4 p 0 1 ip.src [] (msg (inetSum (msg 0)))))])) ∧
  (∀ (s : State) (i ns n dport : Nat) (f data : List Byte) (es : List Int) (freq : Int) (l : L2) (ip : Ip4) (r : Rtp), s.unitsWf = true → open_ s i → es.length = 3 → parseEth (s.net.port i) f = .ok l →
      let p := s.net.port i
      let c := s.net.rxc n
      let a := s.net.ahead c (s.dom c.dom) r.ts
      l.type = 0x0800 → parseIp l.body = some ip → (l.dst = p.mac ∧ ip.dst = p.ip.toNat) ∨ (l.dst = groupMac ip.dst ∧ (s.net.groups i).contains ip.dst = true) →
      ip.proto = 17 → parseUdp ip = some (dport, data) → dport ≠ 319 → dport ≠ 320 → s.net.ctxsFor i ip dport = [n] → parseRtp data = some r →
      Memory.wf (fun _ => none) c.buf = true → c.dom < 3 → c.ptime < 2 ^ 32 → r.pt = c.pt → r.data.length = c.ch * c.ptime * fmtBytes c.fmt → c.ssrc = none ∨ c.ssrc = some r.ssrc →
      0 < a → (ns : Int) + 4000 ≤ tickNs (s.dom c.dom) a → a + c.ptime - 1 ≤ c.cap →
      Completes (.frameReceive i ns f es freq) s [.net, .clk, .reports, .out, .time] fun t => rest s t i ns ∧ let c' := t.net.rxc n
        (t.net.port i).rxFrames = p.rxFrames + 1 ∧ (∀ m, m ≠ n → t.net.rxc m = s.net.rxc m) ∧
        c'.present = true ∧ c'.ssrc = some r.ssrc ∧ leg c'.legOk i = true ∧ leg c'.lastNs i = ns ∧ c'.late = c.late ∧ c'.early = c.early ∧
        (∀ k, k < c.ptime → Memory.get (fun _ => none) c'.buf ((r.ts + k) % 2 ^ 32) =
          some ((Memory.get (fun _ => none) c.buf ((r.ts + k) % 2 ^ 32)).getD (sampleWords c r.data k))) ∧
        (c.present = false → ⟨0x703, 8, n, domOr3 c.dom, true, false, 0⟩ ∈ t.health.flying))

/-- R368: from the period in which a fade-out starts, period j delivers on every channel the value last delivered before it, times (63
− j) × 2^22 / 2^28, for j up to 63 and 0 afterwards, whatever the live values are; a ramp-back delivers the live value times (j +
1) × 2^19 / 2^28 for j up to 511, and the live value afterwards. Each product is the nearest code, ties to even. -/
def Obligations.FadeAndRampLaws : Prop :=
  (∀ (f : Fade) (fs : List (List Word)) (xs : List Word) (i : Nat), i < xs.length →
    let j := fs.length
    let out := fs.foldl (fun g ys => (g.deliver ys).2) f.start
    let back := fs.foldl (fun g ys => (g.deliver ys).2) { f with phase := .rampBack 0 }
    (out.deliver xs).1[i]? = some (if j ≤ 63 then gainMul (f.held.getD i 0) ((63 - j) * 2 ^ 22) else 0) ∧
    (back.deliver xs).1[i]? = some (if j < 512 then gainMul (xs.getD i 0) ((j + 1) * 2 ^ 19) else xs.getD i 0)) ∧
  (∀ (x : Word) (c : Nat), c ≤ 2 ^ 28 → let y := (gainMul x c).toInt
    (2 ^ 28 * y - x.toInt * c).natAbs ≤ 2 ^ 27 ∧ ((2 ^ 28 * y - x.toInt * c).natAbs = 2 ^ 27 → y % 2 = 0))

/-- PORT_FRAME_RX always completes; a good frame of a running TDM slave in a rate domain goes to the end of its queue, slot by slot
under the format in force, and a frame with a wrong BCLK count is not delivered, starts a fade-out, sets SLIP and reports
SLOT_SLIP. INPUT_LOSS sets LOSS, starts the fade-out and reports; LOSS_RECOVERY after 256 stable frames that have left the queue
clears it, with a CLEAR report, and ramps back. PORT_FADE_OUT_END and PORT_RAMP_BACK_END lead to silence, a pending ramp-back, or
live values. RATE_UPDATE shows the rate, and more than 200 ppm from the domain's rate is a mismatch. No other port changes. -/
def Obligations.PortInputCommands : Prop :=
  let other := fun (s t : State) (p : Nat) => ∀ o, o ≠ p → t.ports.port o = s.ports.port o
  (∀ (s : State) (p : Nat) (f : RxFrame), s.unitsWf = true → p < 36 → s.blockUp 2 = true →
      Completes (.portFrameRx p f) s [.ports, .links, .clasp, .free, .time, .reports, .out] fun t => t.ns = f.ns ∧
        (let q := s.ports.port p
         p < 16 → q.en = true → q.run = .running → q.bit8 = false → q.dom < 3 → q.loss = false → q.await = false → q.gap = false → q.refLen = f.len → f.len ≠ 0 →
          other s t p ∧
          (f.count = q.act.slots * q.act.width → q.queue.length < portDepth →
            (t.ports.port p).queue = q.queue ++ [inChannels p q f.words] ∧ (t.ports.port p).slip = q.slip ∧ (t.ports.port p).fade = q.fade) ∧
          (f.count ≠ q.act.slots * q.act.width → q.slip = false → (t.ports.port p).slip = true ∧ (t.ports.port p).queue = q.queue ∧
            (t.ports.port p).fade = q.fade.start ∧ ⟨0x801, 12, p, q.dom, false, false, 0⟩ ∈ t.health.flying))) ∧
  (∀ (s : State) (p : Nat), s.unitsWf = true → p < 28 → s.blockUp 2 = true → isMaster p (s.ports.port p) = false → (s.ports.port p).loss = false → (s.ports.port p).run = .running →
      Completes (.inputLoss p) s [.ports, .reports] fun t => other s t p ∧ (t.ports.port p).loss = true ∧ (t.ports.port p).rate = 0 ∧ (t.ports.port p).queue = (s.ports.port p).queue ∧
        ((s.ports.port p).gap = false → (t.ports.port p).fade = (s.ports.port p).fade.start) ∧
        ⟨0x800, portClass p, portInst p, domOr3 (s.ports.port p).dom, false, false, 0⟩ ∈ t.health.flying) ∧
  (∀ (s : State) (p : Nat), s.unitsWf = true → p < 36 → s.blockUp 2 = true → (s.ports.port p).loss = true → 256 + (s.ports.port p).queue.length ≤ (s.ports.port p).stable →
      Completes (.lossRecovery p) s [.ports, .reports] fun t => other s t p ∧ (t.ports.port p).loss = false ∧ (t.ports.port p).stable = 0 ∧
        ((s.ports.port p).slip = true ∨ (s.ports.port p).mis = true → (t.ports.port p).fade = (s.ports.port p).fade) ∧
        ((s.ports.port p).slip = false → (s.ports.port p).mis = false → (t.ports.port p).fade = (s.ports.port p).fade.recover) ∧
        ⟨0x800, portClass p, portInst p, domOr3 (s.ports.port p).dom, true, false, 0⟩ ∈ t.health.flying) ∧
  (∀ (s : State) (p : Nat), s.unitsWf = true → p < 36 → s.blockUp 2 = true → (s.ports.port p).dom ≠ 3 → (s.ports.port p).fade.phase = .fadeOut 64 →
      Completes (.portFadeOutEnd p) s [.ports] fun t => other s t p ∧ (t.ports.port p).run = (s.ports.port p).run ∧ (t.ports.port p).loss = (s.ports.port p).loss ∧
        (t.ports.port p).fade.phase = (if (s.ports.port p).fade.due = true then .rampBack 0 else .muted) ∧ (t.ports.port p).fade.due = false) ∧
  (∀ (s : State) (p : Nat), s.unitsWf = true → p < 36 → s.blockUp 2 = true → (s.ports.port p).fade.phase = .rampBack 512 →
      Completes (.portRampBackEnd p) s [.ports] fun t => other s t p ∧ (t.ports.port p).run = (s.ports.port p).run ∧ (t.ports.port p).loss = (s.ports.port p).loss ∧
        (t.ports.port p).fade.phase = .live) ∧
  (∀ (s : State) (p rate dr : Nat), s.unitsWf = true → p < 28 → s.blockUp 2 = true → (s.ports.port p).en = true → (s.ports.port p).run ≠ .off →
      Completes (.rateUpdate p rate dr) s [.ports, .reports] fun t => other s t p ∧ (t.ports.port p).rate = (if (s.ports.port p).loss = true then 0 else rate) ∧
        ((s.ports.port p).dom ≠ 3 → isMaster p (s.ports.port p) = false → (s.ports.port p).loss = false → (s.ports.port p).mis = false → rate ≠ 0 →
          (200 * dr < (if rate < dr then dr - rate else rate - dr) * 1000000 → (t.ports.port p).mis = true ∧ (t.ports.port p).fade = (s.ports.port p).fade.start ∧
            ⟨0x802, portClass p, portInst p, domOr3 (s.ports.port p).dom, false, false, 0⟩ ∈ t.health.flying) ∧
          ((if rate < dr then dr - rate else rate - dr) * 1000000 ≤ 200 * dr → (t.ports.port p).mis = false ∧ (t.ports.port p).fade = (s.ports.port p).fade)))

/-- TDM_COMMIT applies the shadow at once to a disabled port and arms it on a running one; TDM_COMMIT_APPLY puts the armed values in
force, or sets CFG_BAD where they break the BCLK limit. PORT_RESTART of a slipped port clears SLIP and waits for stable frames.
START_ARM arms the common start event, and is discarded with DOMAIN or MODE 3; AUD_START_EDGE is kept for it in MODE 2.
PORT_EN_WRITE enables or disables the port; DOMAIN is the Setter's; a disabled input holds no frame. LINK_SLIP fades a synchronous
lane out and counts, LINK_UNLOCK fades a lane out, LANE_LOCKED makes a fresh lane live and ramps another back. No other port or
lane changes. -/
def Obligations.PortControlAndLaneCommands : Prop :=
  let other := fun (s t : State) (p : Nat) => ∀ o, o ≠ p → t.ports.port o = s.ports.port o
  let lanes := fun (s t : State) (n : Nat) => ∀ m, m ≠ n → t.links.lane m = s.links.lane m
  (∀ (s : State) (r p : Nat), s.unitsWf = true → r < 7 → p < 16 → s.commands r = true →
      Completes (.tdmCommit r p) s [.ports] fun t => other s t p ∧
        ((s.ports.port p).en = false → t.ports.port p = { s.ports.port p with act := (s.ports.port p).shadow, armed := none, applied := (s.ports.port p).frame }) ∧
        ((s.ports.port p).en = true → (s.ports.port p).cfgStop = false → t.ports.port p = { s.ports.port p with armed := some (s.ports.port p).shadow })) ∧
  (∀ (s : State) (p : Nat) (c : TdmCfg), s.unitsWf = true → p < 16 → s.blockUp 2 = true → (s.ports.port p).armed = some c →
      Completes (.tdmCommitApply p) s [.ports, .clasp] fun t => other s t p ∧ (t.ports.port p).armed = none ∧ (t.ports.port p).shadow = (s.ports.port p).shadow ∧
        (s.portRate p = 0 ∨ c.slots * c.width * s.portRate p ≤ 4915200000 → (t.ports.port p).act = c ∧ (t.ports.port p).applied = (s.ports.port p).frame ∧
          (t.ports.port p).cfgBad = (s.ports.port p).cfgBad) ∧
        (s.portRate p ≠ 0 → 4915200000 < c.slots * c.width * s.portRate p → (t.ports.port p).act = (s.ports.port p).act ∧ (t.ports.port p).cfgBad = true)) ∧
  (∀ (s : State) (r p : Nat), s.unitsWf = true → r < 7 → p < 36 → s.commands r = true →
      Completes (.portRestart r p) s [.ports] fun t => other s t p ∧
        ((s.ports.port p).slip = true → (t.ports.port p).slip = false ∧ (t.ports.port p).await = true ∧ (t.ports.port p).stable = 0 ∧ (t.ports.port p).fade = (s.ports.port p).fade) ∧
        ((s.ports.port p).slip = false → (s.ports.port p).mis = false → t.ports.port p = s.ports.port p)) ∧
  (∀ (s : State) (r : Nat) (v : Word), r < 7 → s.commands r = true →
      Completes (.startArm r v) s [.ports] fun t => t.ports.ports = s.ports.ports ∧
        (v.fld 0 2 = 3 ∨ v.fld 4 2 = 3 → t.ports = s.settle.ports) ∧
        (v.fld 0 2 ≠ 3 → v.fld 4 2 ≠ 3 → t.ports.start.flag 8 = (s.ports.start.flag 8 || v.flag 8) ∧ t.ports.start.fld 0 2 = v.fld 0 2 ∧ t.ports.start.fld 4 2 = v.fld 4 2 ∧
          t.ports.edge = (if v.flag 8 = true then none else s.ports.edge))) ∧
  (∀ (s : State) (ns : Nat), s.blockUp 2 = true →
      Completes (.audStartEdge ns) s [.ports, .time] fun t => t.ns = ns ∧ t.ports.ports = s.ports.ports ∧ t.ports.start = s.ports.start ∧
        t.ports.edge = (if s.ports.start.flag 8 = true ∧ s.ports.start.fld 0 2 = 2 ∧ s.ports.edge = none then some ns else s.ports.edge)) ∧
  (∀ (s : State) (r p : Nat) (v : Word), s.unitsWf = true → r < 7 → p < 28 → s.commands r = true →
      Completes (.portEnWrite r p v) s [.ports, .reports] fun t => other s t p ∧ (t.ports.port p).en = v.flag 0 ∧
        (t.ports.port p).dom = (if r = 6 then v.fld 4 2 else (s.ports.port p).dom) ∧
        ((s.ports.port p).en = true → v.flag 0 = false → (t.ports.port p).run = .off ∧ (t.ports.port p).queue = [] ∧ (t.ports.port p).loss = false ∧ (t.ports.port p).armed = none)) ∧
  (∀ (s : State) (n : Nat), s.unitsWf = true → n < 2048 → s.working = true → s.blockUp 3 = true → (s.links.lane n).used = true → (s.links.lane n).st ≠ .retired → (s.links.lane n).st ≠ .idle → (s.links.lane n).async = false →
      Completes (.linkSlip n) s [.links, .reports] fun t => lanes s t n ∧ (t.links.lane n).st = .fading ∧ (t.links.lane n).why = .slip ∧
        (t.links.lane n).fade = (s.links.lane n).fade.start ∧ (t.links.lane n).slips = min 0xFFFF ((s.links.lane n).slips + 1) ∧
        ∃ d, ⟨0x901, 15, n, d, false, false, 0⟩ ∈ t.health.flying) ∧
  (∀ (s : State) (n : Nat) (fill : Bool), s.unitsWf = true → n < 2048 → s.working = true → s.blockUp 3 = true → (s.links.lane n).used = true → (s.links.lane n).st ≠ .retired → (s.links.lane n).st ≠ .idle →
      fill = false ∨ (s.links.lane n).async = true →
      Completes (.linkUnlock n fill) s [.links, .reports] fun t => lanes s t n ∧ (t.links.lane n).st = .fading ∧ (t.links.lane n).why = (if fill = true then .fill else .input) ∧
        (t.links.lane n).fade = (s.links.lane n).fade.start ∧ (t.links.lane n).relock = min 0xFFFF ((s.links.lane n).relock + 1) ∧
        ∃ d, ⟨0x900, 15, n, d, false, false, 0⟩ ∈ t.health.flying) ∧
  (∀ (s : State) (n : Nat), s.unitsWf = true → n < 2048 → s.working = true → s.blockUp 3 = true → (s.links.lane n).used = true → (s.links.lane n).st = .acquiring →
      Completes (.laneLocked n) s [.links] fun t => lanes s t n ∧
        ((s.links.lane n).fresh = true → (t.links.lane n).st = .locked ∧ (t.links.lane n).fresh = false ∧ (t.links.lane n).fade.phase = .live) ∧
        ((s.links.lane n).fresh = false → (t.links.lane n).st = .ramping ∧ (t.links.lane n).fade.phase = .rampBack 0))

/-- CLAIM_START answers LOCKOUT during a lockout and leaves the nonce, answers NO_KEY without a key, and otherwise places a fresh
nonce (its value is open). CLAIM_SUBMIT consumes the nonce whatever the outcome: NO_KEY, EXPIRED, BAD_MAC or OK for the right HMAC
over the message of R396. CLAIM_RESULT posts it: OK makes the interface the holder, with TAKEOVER when another held, and resets
the failures; a failure counts and locks the interface out for 2^(f − 1) s, at most 64 s. CLAIM_RELEASE and PARTITION_RESET by the
holder end its session, by anyone else they change nothing. ENROL and ENROL_DONE enrol P0. NONCE_EXPIRY and LOCKOUT_EXPIRY end
what has run out. No other partition changes. -/
def Obligations.ClaimCommands : Prop :=
  let others := fun (s t : State) (p : Nat) => ∀ q, q ≠ p → t.host.part q = s.host.part q
  (∀ (s : State) (r p : Nat), s.unitsWf = true → r < 6 → s.writable = true → s.host.view r = some p →
      Completes (.claimStart r) s [.host, .free] fun t => let q := s.host.part p
        others s t p ∧ (t.host.part p).holder = q.holder ∧ (t.host.part p).session = q.session ∧
        (s.us < Memory.get (fun _ => 0) s.host.until_ r → (t.host.part p).result = 5 ∧ (t.host.part p).nonce = q.nonce) ∧
        (Memory.get (fun _ => 0) s.host.until_ r ≤ s.us → q.claim = none → q.enrol = none →
          (s.claimKey p = none → (t.host.part p).result = 4 ∧ (t.host.part p).nonce = none) ∧
          (s.claimKey p ≠ none → (t.host.part p).result = 0 ∧ ∃ n, n < 2 ^ 256 ∧ (t.host.part p).nonce = some (n, s.us) ∧ (t.host.part p).nonceReg = n))) ∧
  (∀ (s : State) (r p : Nat), s.unitsWf = true → r < 6 → s.writable = true → s.host.view r = some p →
      Completes (.claimSubmit r) s [.host] fun t => let q := s.host.part p
        others s t p ∧ (t.host.part p).holder = q.holder ∧
        (q.claim.isSome = true ∨ q.enrol.isSome = true → (t.host.part p).result = 6 ∧ (t.host.part p).claim = q.claim) ∧
        (q.claim = none → q.enrol = none → (t.host.part p).nonce = none ∧ ∃ res resp, (t.host.part p).claim = some (r, res, resp) ∧
          (s.claimKey p = none → res = 4) ∧ (∀ k, s.claimKey p = some k → (q.nonce = none → res = 3) ∧
            (∀ n t0, q.nonce = some (n, t0) → (t0 + 1000000 ≤ s.us → res = 3) ∧
              (s.us < t0 + 1000000 → res = if hmac256 k (claimMsg p (ifaceOf r) n) = q.macBytes then 1 else 2))))) ∧
  (∀ (s : State) (p r res resp : Nat), s.unitsWf = true → Memory.wf (fun _ => 0) s.host.fails = true → Memory.wf (fun _ => 0) s.host.until_ = true → p < 4 → s.awake = true →
      (s.host.part p).claim = some (r, res, resp) →
      Completes (.claimResult p) s [.host] fun t => let q := s.host.part p
        others s t p ∧ (t.host.part p).claim = none ∧ (t.host.part p).result = res ∧ (t.host.part p).irqStat.flag 10 = true ∧
        (res = 1 → (t.host.part p).holder = some (ifaceOf r) ∧ (t.host.part p).resp = resp ∧ Memory.get (fun _ => 0) t.host.fails r = 0 ∧
          ((t.host.part p).takeover = true ↔ ∃ i, q.holder = some i ∧ i ≠ ifaceOf r) ∧
          (t.host.part p).session = if q.holder = none ∨ q.holder = some (ifaceOf r) then q.session else q.session + 1) ∧
        (res ≠ 1 → (t.host.part p).holder = q.holder ∧ Memory.get (fun _ => 0) t.host.fails r = Memory.get (fun _ => 0) s.host.fails r + 1 ∧
          Memory.get (fun _ => 0) t.host.until_ r = s.us + 1000000 * min 64 (2 ^ Memory.get (fun _ => 0) s.host.fails r))) ∧
  (∀ (s : State) (r p : Nat), s.unitsWf = true → r < 6 → s.writable = true → s.host.view r = some p →
      Completes (.claimRelease r) s [.host] fun t => let q := s.host.part p
        (q.holder ≠ some (ifaceOf r) → t.host = s.settle.host) ∧
        (q.holder = some (ifaceOf r) → others s t p ∧ (t.host.part p).holder = none ∧ (t.host.part p).session = q.session + 1 ∧ (t.host.part p).compl = [] ∧
          (t.host.part p).irqStat = 0 ∧ (t.host.part p).fr.en = false ∧ t.host.pol = s.host.pol)) ∧
  (∀ (s : State) (r p : Nat), s.unitsWf = true → r < 6 → s.writable = true → s.host.view r = some p →
      ∃ t, exec (.partitionReset r) s = .next t ∧ t.pending = s.pending ∧ let q := s.host.part p
        (q.holder ≠ some (ifaceOf r) → t = s.settle) ∧
        (q.holder = some (ifaceOf r) → others s t p ∧ (t.host.part p).holder = none ∧ (t.host.part p).session = q.session + 1 ∧ t.host.pol = s.host.pol ∧
          t.facets = s.settle.facets ∧ t.mem.banks = s.mem.banks)) ∧
  (∀ (s : State) (r p : Nat), s.unitsWf = true → r < 6 → s.writable = true → s.host.view r = some p → Memory.get (fun _ => 0) s.host.until_ r ≤ s.us →
      Completes (.enrol r) s [.host] fun t => let q := s.host.part p
        others s t p ∧ (t.host.part p).holder = q.holder ∧
        (p ≠ 0 ∨ s.mem.locked = true ∨ (s.boot.otp.state ≠ 1 ∧ s.boot.otp.state ≠ 2) ∨ (s.boot.partKey 0).isSome = true → (t.host.part p).result = 4 ∧ (t.host.part p).enrol = q.enrol) ∧
        (p = 0 → s.mem.locked = false → s.boot.otp.state = 1 ∨ s.boot.otp.state = 2 → s.boot.partKey 0 = none → q.enrol = none → q.claim = none →
          (t.host.part p).enrol = some (r, q.macBytes))) ∧
  (∀ (s : State) (stored : Bool) (r : Nat) (k : List Byte), s.unitsWf = true → s.awake = true → (s.host.part 0).enrol = some (r, k) →
      Completes (.enrolDone stored) s [.host, .boot, .free] fun t => others s t 0 ∧ (t.host.part 0).enrol = none ∧ (t.host.part 0).irqStat.flag 10 = true ∧
        (stored = false → (t.host.part 0).result = 7 ∧ (t.host.part 0).holder = (s.host.part 0).holder ∧ t.boot = s.boot) ∧
        ((t.host.part 0).result = 1 ∧ (t.host.part 0).holder = some (ifaceOf r) ∨ (t.host.part 0).result = 7 ∧ (t.host.part 0).holder = (s.host.part 0).holder ∧ t.boot = s.boot)) ∧
  (∀ (s : State) (p n t0 : Nat), s.unitsWf = true → p < 4 → s.awake = true → (s.host.part p).nonce = some (n, t0) →
      Completes (.nonceExpiry p) s [.host] fun t => others s t p ∧
        t.host.part p = (if t0 + 1000000 ≤ s.us then { s.host.part p with nonce := none } else s.host.part p)) ∧
  (∀ (s : State) (r : Nat), Memory.wf (fun _ => 0) s.host.until_ = true → r < 7 → s.awake = true →
      Completes (.lockoutExpiry r) s [.host] fun t => t.host.parts = s.host.parts ∧ t.host.fails = s.host.fails ∧
        Memory.get (fun _ => 0) t.host.until_ r = (if Memory.get (fun _ => 0) s.host.until_ r ≤ s.us then 0 else Memory.get (fun _ => 0) s.host.until_ r))

/-- A doorbell of the holder moves the host's index of one ring when it lies inside the ring and sets the ring's bit in PRT_RINGERR
otherwise; a submission doorbell reloads the idle timer. RING_EN_WRITE enables a ring of 2 to 1,024 entries with phase 1, or
disables it; a submission ring then discards its unfetched entries. TAP_EN_WRITE of a PCIe holder sets EN; a tap that stops holds
no block and no frame. ENTRY_FETCHED advances the ring and puts the entry into intake, or refuses an unknown opcode with status
0x40. COMPLETION_WRITE writes the 64 bytes of R410 at the tail of a ring with room and advances it. INTERRUPT_COALESCE_TIMEOUT
starts the interval anew and sends the vector. Of entries fetched in one cycle the lower partition's goes first. -/
def Obligations.RingCommands : Prop :=
  let others := fun (s t : State) (p : Nat) => ∀ q, q ≠ p → t.host.part q = s.host.part q
  (∀ (s : State) (r p n v : Nat), s.unitsWf = true → Memory.wf (fun _ => Ring.reset) (s.host.part p).sq = true → r < 6 → n < 8 → v < 2 ^ 16 → s.served = true → s.power.phase = .run →
      s.host.view r = some p → s.host.holds r = true →
      Completes (.sqDoorbell r n v) s [.host, .power] fun t => let g := (s.host.part p).ring true n
        others s t p ∧ t.power = s.power.reload s.us ∧ (∀ m, m ≠ n → (t.host.part p).ring true m = (s.host.part p).ring true m) ∧
        (v < g.size → (t.host.part p).ring true n = { g with host := v } ∧ (t.host.part p).ringErr = (s.host.part p).ringErr) ∧
        (g.size ≤ v → (t.host.part p).ring true n = g ∧ (t.host.part p).ringErr.flag n = true)) ∧
  (∀ (s : State) (r p n v : Nat), s.unitsWf = true → Memory.wf (fun _ => Ring.reset) (s.host.part p).cq = true → r < 6 → n < 8 → v < 2 ^ 16 → s.writable = true →
      s.host.view r = some p → s.host.holds r = true →
      Completes (.cqDoorbell r n v) s [.host] fun t => let g := (s.host.part p).ring false n
        others s t p ∧ (∀ m, m ≠ n → (t.host.part p).ring false m = (s.host.part p).ring false m) ∧
        (v < g.size → (t.host.part p).ring false n = { g with host := v, since := g.since.drop (g.since.length - Ring.used v g.dev g.size) }) ∧
        (g.size ≤ v → (t.host.part p).ring false n = g ∧ (t.host.part p).ringErr.flag (8 + n) = true)) ∧
  (∀ (s : State) (r p v : Nat), s.unitsWf = true → r < 6 → v < 2 ^ 16 → s.writable = true → s.host.view r = some p → s.host.holds r = true →
      Completes (.frDoorbell r v) s [.host] fun t => let g := (s.host.part p).fr
        others s t p ∧ (v < g.size → (t.host.part p).fr = { g with host := v }) ∧ (g.size ≤ v → (t.host.part p).fr = g ∧ (t.host.part p).ringErr.flag 16 = true)) ∧
  (∀ (s : State) (r p k n : Nat) (v : Word), s.unitsWf = true → Memory.wf (fun _ => Ring.reset) (s.host.part p).sq = true → Memory.wf (fun _ => Ring.reset) (s.host.part p).cq = true →
      r < 6 → k < 3 → n < 8 → s.writable = true → s.host.view r = some p → s.host.holds r = true →
      Completes (.ringEnWrite r k n v) s [.host] fun t =>
        let ring := fun (q : Part) => if k = 2 then q.fr else q.ring (k == 0) n
        let g := ring (s.host.part p)
        let h := ring (t.host.part p)
        others s t p ∧ h.lo = g.lo ∧ h.hi = g.hi ∧
        (g.en = false → v.flag 31 = true → 1 ≤ v.fld 0 4 → v.fld 0 4 ≤ 10 → ifaceOf r = 0 ∨ spaceOf g.lo = true →
          h.en = true ∧ h.phase = true ∧ h.size = 2 ^ v.fld 0 4 ∧ (k ≠ 0 → h.dev = 0 ∧ h.host = 0) ∧ (k = 0 → h.dev = g.dev ∧ h.host = g.host)) ∧
        (g.en = false → v.fld 0 4 = 0 ∨ 10 < v.fld 0 4 → h.en = false) ∧
        (g.en = true → v.flag 31 = false → h.en = false ∧ h.since = [] ∧ (k = 0 → h.dev = g.host))) ∧
  (∀ (s : State) (r k : Nat) (v : Word), s.unitsWf = true → Memory.wf (fun _ => Tap.reset) (s.host.part r).taps = true → r < 4 → k < 64 → s.writable = true → s.host.holds r = true →
      Completes (.tapEnWrite r k v) s [.host] fun t => let x := (s.host.part r).tap k; let y := (t.host.part r).tap k
        others s t r ∧ (∀ j, j ≠ k → (t.host.part r).tap j = (s.host.part r).tap j) ∧ y.en = v.flag 31 ∧ y.lo = x.lo ∧ y.hi = x.hi ∧ y.hostIdx = x.hostIdx ∧ y.devIdx = x.devIdx ∧
        (1 ≤ v.fld 0 11 → v.fld 0 11 ≤ 1024 → y.blk = v.fld 0 11) ∧
        (x.en = true → v.flag 31 = false → y.run = false ∧ y.block = [] ∧ y.done = [] ∧ y.frames = []) ∧ (x.en = false → y.run = x.run)) ∧
  (∀ (s : State) (p r : Nat) (b0 : List Byte), s.unitsWf = true → Memory.wf (fun _ => Ring.reset) (s.host.part p).sq = true → p < 4 → b0.length = 64 → s.dmaUp = true → s.fetchPaused p = false → s.host.nextRing p = some r →
      Completes (.entryFetched p b0 []) s [.host, .setter, .mem, .reports, .out] fun t => let g := (s.host.part p).ring true r
        let b := if spaceOf g.lo then (s.xramRead p (xramBase g.lo + 64 * g.dev) 64).2 else b0
        t.mem.xram = s.mem.xram ∧ t.mem.banks = s.mem.banks ∧
        others s t p ∧ (t.host.part p).ring true r = { g with dev := (g.dev + 1) % g.size } ∧ (t.host.part p).lastSq = r ∧
        (opcodes.contains (le b 0 1) = true → (t.host.part p).compl = (s.host.part p).compl ∧
          ∃ e : Entry, t.setter = { s.setter with intake := s.setter.intake ++ [e] } ∧ e.part = p ∧ e.sq = r ∧ e.op = le b 0 1 ∧ e.cmdId = le b 2 2 ∧ e.session = (s.host.part p).session) ∧
        (opcodes.contains (le b 0 1) = false → t.setter = s.setter ∧
          ∃ c : Compl, (t.host.part p).compl = (s.host.part p).compl ++ [c] ∧ c.status = 0x40 ∧ c.sq = r ∧ c.cmdId = le b 2 2 ∧ c.cq = g.cfg.fld 8 3)) ∧
  (∀ (s : State) (p q : Nat) (bp bq : List Byte), s.unitsWf = true → p < q → q < 4 → bp.length = 64 → bq.length = 64 → s.dmaUp = true → s.mayFetch p = true → s.mayFetch q = true →
      (∀ k r, k = p ∨ k = q → s.host.nextRing k = some r → spaceOf ((s.host.part k).ring true r).lo = false) → opcodes.contains (le bp 0 1) = true → opcodes.contains (le bq 0 1) = true →
      ∃ t, exec (.entryFetched p bp [(q, bq)]) s = .next t ∧ exec (.entryFetched q bq [(p, bp)]) s = .next t ∧
        t.setter.intake.map (·.part) = s.setter.intake.map (·.part) ++ [p, q]) ∧
  (∀ (s : State) (p : Nat), s.unitsWf = true → Memory.wf (fun _ => Ring.reset) (s.host.part p).cq = true → s.quiet = true → p < 4 → s.dmaUp = true →
      Completes (.completionWrite p) s [.host, .mem, .out] fun t => let q := s.host.part p
        let ok := fun c : Compl => (q.ring false c.cq).room && s.host.reach p (q.ring false c.cq).lo
        (q.compl.find? ok = none → t.host = s.settle.host ∧ t.out = []) ∧
        (∀ c, q.compl.find? ok = some c → c.cq < 8 → let g := q.ring false c.cq
          others s t p ∧ (t.host.part p).compl = q.compl.erase c ∧ (t.host.part p).irqStat.flag c.cq = true ∧
          ((t.host.part p).ring false c.cq).dev = (g.dev + 1) % g.size ∧
          ((t.host.part p).ring false c.cq).phase = (if (g.dev + 1) % g.size = 0 then !g.phase else g.phase) ∧
          (spaceOf g.lo = false → ∃ l, t.out = .busWrite p (hostBase g.lo g.hi + 64 * g.dev) (c.bytes g.phase (if c.sq < 8 then (q.ring true c.sq).dev else 0)) :: l))) ∧
  (∀ (s : State) (p n t0 : Nat) (rest : List (Option Nat)), s.unitsWf = true → Memory.wf (fun _ => Ring.reset) (s.host.part p).cq = true → s.quiet = true → p < 4 → n < 8 → s.dmaUp = true → let g := (s.host.part p).ring false n
      g.en = true → g.since = some t0 :: rest → t0 + g.cfg.fld 16 8 ≤ s.us →
      Completes (.interruptCoalesceTimeout p n) s [.host, .out] fun t => others s t p ∧ (t.host.part p).ring false n = { g with since := none :: rest } ∧
        (let w := fun k : Nat => Memory.get msixReset (s.host.part p).msix (4 * g.cfg.fld 24 6 + k)
         (s.host.part p).holder = some 0 → s.host.pcie.bme.testBit p = true → (w 3).flag 0 = false → t.out = [.msix p ((w 1).toNat <<< 32 + (w 0).toNat) (w 2)]))

/-- A policy command that comes from another partition is refused with NOT_OWNER and changes no policy. From P0: SET_QUOTA sets a
pair, refused with BAD_ARG, QUOTA_SUM or QUOTA_IN_USE; SET_PRIORITY sets a priority; GRANT adds a range (a reader holds at most
256); REVOKE leaves exactly the grants of the reader outside the range, and from then on the reader's meters and port outputs read
no SID that it may not read (R29; which of its readers are cut is the model's reading, log 31); MAP_SPI maps a target and ends the
session of a holder that it moves away; SET_XRAM sets owner, SHARED_RD and VALID of the pages named and of no other; SAVE_POLICY
stores the policy in the Keepsake. Each leaves intake and completes with its status. That a count of 0 or a range that is held
adds no second grant, and BAD_ARG for a 257th, are the model's choices (log 30). -/
def Obligations.PolicyCommands : Prop :=
  let ans := fun (s t : State) (e : Entry) (st : Nat) => t.setter.intake = s.setter.intake.drop 1 ∧ (∀ q, q ≠ e.part → t.host.part q = s.host.part q) ∧
    (t.host.part e.part).compl = (s.host.part e.part).compl ++
      (if (s.host.part e.part).session = e.session then [{ complOf e st with epoch := (s.setter.part e.part).epoch }] else [])
  let front := fun (s : State) (op : Nat) (e : Entry) => s.unitsWf = true ∧ s.awake = true ∧ s.s2Runs = true ∧ s.setter.builds = [] ∧
    s.setter.intake.head? = some e ∧ e.op = op ∧ (e.reads = true → e.fail = true ∨ e.data.isSome = true)
  (∀ x ∈ [(Instr.setQuota, 0x10), (.setPriority, 0x11), (.grant, 0x12), (.revoke, 0x13), (.mapSpi, 0x14), (.setXram, 0x15), (.savePolicy, 0x16),
        (.resetPartition, 0x17)], ∀ (s : State) (e : Entry), front s x.2 e → e.part ≠ 0 →
      Completes x.1 s [.host, .setter] fun t => ans s t e 0x41 ∧ t.host.pol = s.host.pol ∧ t.setter.parts = s.setter.parts ∧ t.setter.armed = s.setter.armed) ∧
  (∀ (s : State) (e : Entry), front s 0x10 e → e.part = 0 → e.fail = false → Completes .setQuota s [.host, .setter] fun t =>
      let p := e.arg 0x18 1
      let r := e.arg 0x19 1
      let u := e.arg 0x1A 1
      let l := e.arg 0x1C 4
      let c := e.arg 0x20 4
      let cap := s.cap r u
      let q := Memory.set (fun _ => (0, 0)) s.host.pol.quota (quotaKey p r u) (l, c)
      let used := fun k => Memory.get (fun _ => (0, 0)) (s.setter.part k).use (16 * r + u)
      let past := ∃ k, (k = p ∨ k = 0) ∧ ((quotaOf q cap k r u).1 < (used k).1 ∨ (quotaOf q cap k r u).2 < (used k).2)
      let sum := (quotaOf q cap 1 r u).2 + (quotaOf q cap 2 r u).2 + (quotaOf q cap 3 r u).2
      let bad := p = 0 ∨ 4 ≤ p ∨ (r, u) ∉ quotaKeys ∨ l < c
      (bad → ans s t e 0x43 ∧ t.host.pol = s.host.pol) ∧
      (¬ bad → cap < sum → ans s t e 0x44 ∧ t.host.pol = s.host.pol) ∧
      (¬ bad → sum ≤ cap → past → ans s t e 0x45 ∧ t.host.pol = s.host.pol) ∧
      (¬ bad → sum ≤ cap → ¬ past → ans s t e 0 ∧ t.host.pol = { s.host.pol with quota := q })) ∧
  (∀ (s : State) (e : Entry), front s 0x11 e → e.part = 0 → e.fail = false → Completes .setPriority s [.host, .setter] fun t =>
      let p := e.arg 0x18 1
      (4 ≤ p → ans s t e 0x43 ∧ t.host.pol = s.host.pol) ∧
      (p < 4 → ans s t e 0 ∧ t.host.pol = { s.host.pol with prio := Memory.set prioReset s.host.pol.prio p (e.arg 0x19 1) })) ∧
  (∀ (s : State) (e : Entry), front s 0x12 e → e.part = 0 → e.fail = false → Completes .grant s [.host, .setter] fun t =>
      let r := e.arg 0x18 1
      let f := e.arg 0x1A 2
      let n := e.arg 0x1C 2
      let l := s.host.pol.grants
      let l' := if n = 0 ∨ (⟨r, f, n⟩ : Grant) ∈ l then l else l ++ [⟨r, f, n⟩]
      let bad := 4 ≤ r ∨ f = 0 ∨ 32768 < f + n ∨ 256 < (l'.filter fun g => g.reader == r).length
      (bad → ans s t e 0x43 ∧ t.host.pol = s.host.pol) ∧ (¬ bad → ans s t e 0 ∧ t.host.pol = { s.host.pol with grants := l' })) ∧
  (∀ (s : State) (e : Entry), front s 0x13 e → e.part = 0 → e.fail = false → Completes .revoke s [.host, .setter, .ports, .net, .links, .tiles, .facets] fun t =>
      let r := e.arg 0x18 1
      let f := e.arg 0x1A 2
      let n := e.arg 0x1C 2
      let may := fun (s : State) (q i : Nat) => ∃ g ∈ s.host.pol.grants, g.reader = q ∧ g.first ≤ i ∧ i < g.first + g.count
      let answer := fun (st : Nat) => t.setter.intake = s.setter.intake.drop 1 ∧ t.setter.parts = s.setter.parts ∧ (∀ q, q ≠ 0 → q ≠ r → t.host.part q = s.host.part q) ∧
        (t.host.part 0).compl = (s.host.part 0).compl ++ (if (s.host.part 0).session = e.session then [{ complOf e st with epoch := (s.setter.part 0).epoch }] else [])
      (4 ≤ r → ans s t e 0x43 ∧ t.host.pol = s.host.pol ∧ t.ports = s.settle.ports) ∧
      (r < 4 → f = 0 ∨ 32768 < f + n → answer 0x43 ∧ t.host.pol = s.host.pol) ∧
      (r < 4 → f ≠ 0 → f + n ≤ 32768 →
        (answer 0 ∧ ∀ q i, may t q i ↔ may s q i ∧ ¬ (q = r ∧ f ≤ i ∧ i < f + n)) ∨ (answer 0x43 ∧ t.host.pol = s.host.pol ∧ 128 < (s.host.pol.grants.filter fun g => g.reader == r).length)) ∧
      (r < 4 → (∀ m ∈ (t.host.part r).meters, ∀ i ∈ m.sids, t.mayRead r i = true) ∧
        (∀ x ∈ (s.setter.part r).graph.nodes, ∀ q, x.typ = tSnkPort → nodePort x = some q →
          ∀ o ∈ (t.ports.port q).outs, x.a16 2 ≤ o.1 → o.1 < x.a16 2 + x.nIn → t.mayRead r o.2.a = true ∧ t.mayRead r o.2.b = true))) ∧
  (∀ (s : State) (e : Entry), front s 0x14 e → e.part = 0 → e.fail = false → Completes .mapSpi s [.host, .setter] fun t =>
      let k := e.arg 0x18 1
      let m := e.arg 0x19 1
      let old := (s.host.spi k).map
      let bad := 2 ≤ k ∨ (4 ≤ m ∧ m ≠ 0xFF)
      let moved := old < 4 ∧ old ≠ m ∧ (s.host.part old).holder = some (k + 1)
      t.host.pol = s.host.pol ∧ (bad → ans s t e 0x43 ∧ ∀ j, t.host.spi j = s.host.spi j) ∧
      (¬ bad → t.setter.intake = s.setter.intake.drop 1 ∧ (t.host.spi k).map = m ∧ t.host.spi (1 - k) = s.host.spi (1 - k) ∧ (¬ moved → ans s t e 0) ∧
        (moved → (t.host.part old).holder = none ∧ (t.host.part old).session = (s.host.part old).session + 1))) ∧
  (∀ (s : State) (e : Entry), front s 0x15 e → e.part = 0 → e.fail = false → Memory.wf xownReset s.mem.r.xown = true →
      Completes .setXram s [.host, .setter, .mem] fun t =>
      let f := e.arg 0x18 1
      let n := e.arg 0x19 1
      let o := e.arg 0x1A 1
      let v := e.arg 0x1B 1
      let page := fun (s : State) (p : Nat) => (Memory.get xownReset s.mem.r.xown (p / 8)).fld (4 * (p % 8)) 4
      t.mem.banks = s.mem.banks ∧ t.mem.xram = s.mem.xram ∧ t.mem.locket = s.mem.locket ∧
      (64 < f + n ∨ 4 ≤ o → ans s t e 0x43 ∧ t.mem.r = s.mem.r) ∧
      (f + n ≤ 64 → o < 4 → ans s t e 0 ∧ ∀ p, p < 64 → page t p = if f ≤ p ∧ p < f + n then o + 4 * (v / 2 % 2) + 8 * (v % 2) else page s p)) ∧
  (∀ (s : State) (e : Entry), front s 0x16 e → e.part = 0 → e.fail = false → Completes .savePolicy s [.host, .setter, .boot] fun t =>
      match s.boot.put 0x4000 s.policyBytes with
      | some b => ans s t e 0 ∧ t.boot = b
      | none => ans s t e 0x54 ∧ t.boot = s.boot)

/-- Each of these commands is refused with NOT_OWNER to other partitions and with DMA_ERROR when its data read failed. IMG_BEGIN
erases the slot that did not boot, IMG_DATA programs the next bytes in turn, IMG_FINISH judges the image, IMG_ACTIVATE takes a
Verified slot; out of turn they answer IMG_STATE. ROLLBACK_RAISE blows fuses up to the SVN, LC_ADVANCE the next life-cycle pair
with a wipe of the Locket and a restart; without VOTP they answer NO_VOTP, and after a failed programming which of the wanted
fuses are blown is open. KS_PUT, KS_DEL, EARLY_WRITE and KEY_SET write flash, HM_EXTEND extends HM7 alone, LOG_READ writes the log
to ADDR. -/
def Obligations.ImageAndKeyCommands : Prop :=
  let ans := fun (s t : State) (e : Entry) (st : Nat) => t.setter.intake = s.setter.intake.drop 1 ∧ (∀ q, q ≠ e.part → t.host.part q = s.host.part q) ∧
    (t.host.part e.part).compl = (s.host.part e.part).compl ++
      (if (s.host.part e.part).session = e.session then [{ complOf e st with epoch := (s.setter.part e.part).epoch }] else [])
  let front := fun (s : State) (op : Nat) (e : Entry) => s.unitsWf = true ∧ s.awake = true ∧ s.s2Runs = true ∧ s.setter.builds = [] ∧
    s.setter.intake.head? = some e ∧ e.op = op ∧ (e.reads = true → e.fail = true ∨ e.data.isSome = true)
  (∀ x ∈ [(Instr.imgBegin, 0x20), (.imgData, 0x21), (.imgFinish, 0x22), (.imgActivate, 0x23), (.ksPut, 0x26), (.ksDel, 0x27), (.earlyWrite, 0x28), (.hmExtend, 0x29),
        (.logRead, 0x2A), (.keySet, 0x2B)] ++ [(true, true), (true, false), (false, true), (false, false)].flatMap (fun v => [(.rollbackRaise v.1 v.2, 0x24), (.lcAdvance v.1 v.2, 0x25)]),
      ∀ (s : State) (e : Entry), front s x.2 e → (x.2 = 0x2A → s.canWrite = true) → (e.part ≠ 0 ∨ e.fail = true) →
      Completes x.1 s [.host, .setter] fun t => ans s t e (if e.part ≠ 0 then 0x41 else 0x42)) ∧
  (∀ (s : State) (e : Entry), front s 0x20 e → e.part = 0 → e.fail = false → s.ramsWf = true → Completes .imgBegin s [.host, .setter, .boot] fun t =>
      let n := e.arg 0x18 4
      let a := slotBase s.boot.updateSlot
      (31457280 < n → ans s t e 0x43 ∧ t.boot = s.boot) ∧
      (n ≤ 31457280 → s.boot.upd ≠ none → ans s t e 0x50 ∧ t.boot = s.boot) ∧
      (n ≤ 31457280 → s.boot.upd = none → ans s t e 0 ∧ t.boot.upd = some ⟨s.boot.updateSlot, n, 0⟩ ∧
        ∀ i, Memory.get erased t.boot.flash i = if a ≤ i ∧ i < a + 31457280 then 0xFF else Memory.get erased s.boot.flash i)) ∧
  (∀ (s : State) (e : Entry), front s 0x21 e → e.part = 0 → e.fail = false → s.ramsWf = true → Completes .imgData s [.host, .setter, .boot] fun t =>
      let off := e.arg 0x18 4
      (s.boot.upd = none → ans s t e 0x50 ∧ t.boot = s.boot) ∧ ∀ u, s.boot.upd = some u →
        (¬ (off = u.written ∧ u.written + e.bytes.length ≤ u.len) → ans s t e 0x50 ∧ t.boot = s.boot) ∧
        (off = u.written ∧ u.written + e.bytes.length ≤ u.len → ans s t e 0 ∧ t.boot.upd = some { u with written := u.written + e.bytes.length } ∧
          ∀ i, Memory.get erased t.boot.flash i = if slotBase u.slot + off ≤ i ∧ i < slotBase u.slot + off + e.bytes.length then
            e.bytes.getD (i - (slotBase u.slot + off)) 0 &&& Memory.get erased s.boot.flash i else Memory.get erased s.boot.flash i)) ∧
  (∀ (s : State) (e : Entry), front s 0x22 e → e.part = 0 → e.fail = false → Completes .imgFinish s [.host, .setter, .boot] fun t =>
      ((∀ u, s.boot.upd = some u → u.written ≠ u.len) → ans s t e 0x50 ∧ t.boot = s.boot) ∧
      (∀ u, s.boot.upd = some u → u.written = u.len → t.boot.upd = none ∧ t.setter.intake = s.setter.intake.drop 1 ∧
        ∃ b o, s.boot.imgFinish = some (b, o) ∧ t.boot = b ∧ (o = none → ans s t e 0) ∧
          (∀ off, o = some off → (s.host.part 0).session = e.session → (t.host.part 0).compl = (s.host.part 0).compl ++
            [{ complOf e 0x51 with epoch := (s.setter.part 0).epoch, errOff := off }]))) ∧
  (∀ (s : State) (e : Entry), front s 0x23 e → e.part = 0 → e.fail = false → Completes .imgActivate s [.host, .setter, .boot] fun t =>
      let ok := s.boot.upd = none ∧ ∃ r, s.boot.current s.boot.updateSlot = some r ∧ r.state = 2
      (¬ ok → ans s t e 0x50 ∧ t.boot = s.boot) ∧
      (ok → ans s t e 0 ∧ t.boot = let b := s.boot.advance s.boot.updateSlot 3; if b.source < 2 then b.advance b.source 4 else b)) ∧
  (∀ (s : State) (e : Entry) (votp readback : Bool), front s 0x24 e → e.part = 0 → e.fail = false → Completes (.rollbackRaise votp readback) s [.host, .setter, .boot, .free] fun t =>
      let old := s.boot.otp.fuses
      let want := old ||| (2 ^ s.boot.svn - 1)
      (votp = false → ans s t e 0x53 ∧ t.boot = s.boot) ∧
      (votp = true → t.boot = { s.boot with otp := { s.boot.otp with fuses := t.boot.otp.fuses } }) ∧
      (votp = true → readback = true → t.boot.otp.fuses = want ∧ t.setter.intake = s.setter.intake.drop 1 ∧ ((s.host.part 0).session = e.session →
        (t.host.part 0).compl = (s.host.part 0).compl ++ [{ complOf e 0 with epoch := (s.setter.part 0).epoch, need := t.boot.otp.count }])) ∧
      (votp = true → readback = false → ans s t e 0x56 ∧ ∀ i, (old.testBit i = true → t.boot.otp.fuses.testBit i = true) ∧ (t.boot.otp.fuses.testBit i = true → want.testBit i = true))) ∧
  (∀ (s : State) (e : Entry) (votp readback : Bool), front s 0x25 e → e.part = 0 → e.fail = false → ∃ t, exec (.lcAdvance votp readback) s = .next t ∧ t.pending = s.pending ∧
      let o := s.boot.otp
      let far := e.arg 0x18 1 ≠ o.state + 1 ∨ 4 ≤ o.state
      let same := OnlyChanges [.host, .setter, .boot, .free] s t
      (far → same ∧ ans s t e 0x52 ∧ t.boot = s.boot) ∧
      (¬ far → e.arg 0x1C 4 ≠ o.devId % 2 ^ 32 → same ∧ ans s t e 0x43 ∧ t.boot = s.boot) ∧
      (¬ far → e.arg 0x1C 4 = o.devId % 2 ^ 32 → votp = false → same ∧ ans s t e 0x53 ∧ t.boot = s.boot) ∧
      (¬ far → e.arg 0x1C 4 = o.devId % 2 ^ 32 → votp = true → readback = true →
        t.boot.otp = { o with lc := o.lc ||| 3 <<< (2 * o.state) } ∧ t.mem.locket = [] ∧ t.mem.locked = true ∧ t.boot.at_ = .wait ∧ t.setter.intake = [] ∧ t.clasp.stage = s.clasp.stage) ∧
      (¬ far → e.arg 0x1C 4 = o.devId % 2 ^ 32 → votp = true → readback = false → same ∧ ans s t e 0x56 ∧ t.boot = { s.boot with otp := { o with lc := t.boot.otp.lc } } ∧
        ∀ i, (o.lc.testBit i = true → t.boot.otp.lc.testBit i = true) ∧ (t.boot.otp.lc.testBit i = true → (o.lc ||| 3 <<< (2 * o.state)).testBit i = true))) ∧
  (∀ (s : State) (e : Entry), front s 0x26 e → e.part = 0 → e.fail = false → Completes .ksPut s [.host, .setter, .boot] fun t =>
      let k := e.arg 0x18 2
      let host := 0x5000 ≤ k ∧ k < 0xF000
      (¬ host → ans s t e 0x55 ∧ t.boot = s.boot) ∧ (host → 4064 < e.len → ans s t e 0x43 ∧ t.boot = s.boot) ∧
      (host → e.len ≤ 4064 → (s.boot.put k e.bytes = none → ans s t e 0x54 ∧ t.boot = s.boot) ∧ ∀ b, s.boot.put k e.bytes = some b → ans s t e 0 ∧ t.boot = b)) ∧
  (∀ (s : State) (e : Entry), front s 0x27 e → e.part = 0 → e.fail = false → Completes .ksDel s [.host, .setter, .boot] fun t =>
      let k := e.arg 0x18 2
      (k < 0x5000 ∨ 0xF000 ≤ k → ans s t e 0x55 ∧ t.boot = s.boot) ∧ (0x5000 ≤ k → k < 0xF000 → ans s t e 0 ∧ t.boot = s.boot.del k)) ∧
  (∀ (s : State) (e : Entry), front s 0x28 e → e.part = 0 → e.fail = false → Completes .earlyWrite s [.host, .setter, .boot] fun t =>
      let b := earlyStamp e.bytes s.clasp.seq
      let a := 0x100000 + 4096 * (1 - s.clasp.copy)
      (earlyValid b = false → ans s t e 0x43 ∧ t.boot = s.boot) ∧ (earlyValid b = true → ans s t e 0 ∧ t.boot = (s.boot.erase a 4096).program a b)) ∧
  (∀ (s : State) (e : Entry), front s 0x29 e → e.part = 0 → e.fail = false → Memory.wf hmReset s.boot.hm = true → Completes .hmExtend s [.host, .setter, .boot, .free] fun t =>
      let v := if e.bytes.length ≤ 48 then e.bytes else sha384 e.bytes
      ans s t e 0 ∧ t.boot.hmOf 7 = sha384 (s.boot.hmOf 7 ++ v) ∧ (∀ k, k ≠ 7 → t.boot.hmOf k = s.boot.hmOf k) ∧
      (s.boot.log.length < 4096 → t.boot.log.length = s.boot.log.length + 1 ∧ t.boot.trunc = s.boot.trunc) ∧ (4096 ≤ s.boot.log.length → t.boot.log = s.boot.log ∧ t.boot.trunc = true)) ∧
  (∀ (s : State) (e : Entry), front s 0x2A e → e.part = 0 → e.fail = false → s.canWrite = true → Completes .logRead s [.host, .setter, .mem, .out] fun t =>
      let bs := (s.boot.log.flatMap HmRec.bytes).take e.len
      let a := e.addr / 8 * 8
      ans s t e 0 ∧ t.mem.r = s.mem.r ∧ t.mem.banks = s.mem.banks ∧ (e.addr % 2 = 0 ∨ bs = [] → t.mem.xram = s.mem.xram) ∧
      (e.addr % 2 = 0 → bs ≠ [] → ∃ l r, t.out = l ++ [.busWrite 0 a bs] ++ r)) ∧
  (∀ (s : State) (e : Entry), front s 0x2B e → e.part = 0 → e.fail = false → Completes .keySet s [.host, .setter, .boot, .free] fun t =>
      let p := e.arg 0x18 1
      (e.len ≠ 32 ∨ 4 ≤ p → ans s t e 0x43 ∧ t.boot = s.boot) ∧
      (e.len = 32 → p < 4 → s.mem.locked = true ∨ s.boot.devKey = none → ans s t e 0x59 ∧ t.boot = s.boot) ∧
      (e.len = 32 → p < 4 → s.mem.locked = false → s.boot.devKey ≠ none → ∃ iv : List Byte, iv.length = 12 ∧
        (s.boot.storeKey p e.bytes iv = none → ans s t e 0x54 ∧ t.boot = s.boot) ∧ ∀ b, s.boot.storeKey p e.bytes iv = some b → ans s t e 0 ∧ t.boot = b))

/-- DMA_READ_COMPLETE gives a command at intake its data, or fails it; an error or DMA_TIMEOUT of a ring fetch disables the ring and
sets its PRT_RINGERR bit; of a play tap it leaves the block's frames missing and sets DMA_ERR. A play block that arrives makes its
frames below the noted HOSTIDX present. RECORD_TAP_BLOCK_WRITE writes the oldest full block at its place in the buffer, sets
DEVIDX, and OVR when the host is too far behind. METER_WINDOW_END writes one record per channel with the count of updates and the
PTP time; a linear peak is exact, other values are open. BUS_MASTER_ENABLE sets one function's bit and issues the waiting reads.
BUS_MASTER_ENABLE with 1 also sends the writes and messages that waited. FLR resets the session state of its partition and ends a
PCIe holder; PERST_N ends all PCIe sessions. -/
def Obligations.DmaAndEndpointCommands : Prop :=
  let others := fun (s t : State) (p : Nat) => ∀ q, q ≠ p → t.host.part q = s.host.part q
  let ended := fun (s t : State) (p : Nat) => (t.host.part p).holder = none ∧ (t.host.part p).session = (s.host.part p).session + 1 ∧ (t.host.part p).compl = [] ∧ (t.host.part p).irqStat = 0 ∧
    (∀ n, ((t.host.part p).ring true n).en = false ∧ ((t.host.part p).ring false n).en = false ∧ ((t.host.part p).tap n).en = false) ∧ (t.host.part p).fr.en = false ∧ (t.host.part p).rptLen = 0
  (∀ (s : State) (p : Nat) (d : Option (List Byte)), p < 4 → s.dmaUp = true →
      (s.setter.reading p = none → d = none ∨ d = some [] → Completes (.dmaReadComplete p 64 d) s [] fun _ => True) ∧
      (∀ i e, s.setter.reading p = some i → s.setter.intake[i]? = some e → (∀ b, d = some b → b.length = e.len) →
        Completes (.dmaReadComplete p 64 d) s [.setter] fun t => t.setter = { s.setter with intake := s.setter.intake.set i { e with data := d, fail := d.isNone } })) ∧
  (∀ (s : State) (p : Nat), s.unitsWf = true → Memory.wf (fun _ => Ring.reset) (s.host.part p).sq = true → p < 4 → s.dmaUp = true → ∀ i ∈ [Instr.dmaReadComplete p 65 none, .dmaTimeout p 65],
      (s.host.nextRing p = none → Completes i s [] fun _ => True) ∧
      (∀ r, s.host.nextRing p = some r → Completes i s [.host] fun t => others s t p ∧ ((t.host.part p).ring true r).en = false ∧ (t.host.part p).ringErr.flag r = true ∧
        ((t.host.part p).ring true r).dev = ((t.host.part p).ring true r).host ∧ ∀ k, k ≠ r → (t.host.part p).ring true k = (s.host.part p).ring true k)) ∧
  (∀ (s : State) (p k : Nat) (b : Nat × Nat) (rest : List (Nat × Nat)), s.unitsWf = true → Memory.wf (fun _ => Tap.reset) (s.host.part p).taps = true → p < 4 → k < 64 → s.dmaUp = true →
      ((s.host.part p).tap k).reads = b :: rest → ∀ i ∈ [Instr.dmaReadComplete p k none, .dmaTimeout p k],
      Completes i s [.host] fun t => others s t p ∧ (∀ j, j ≠ k → (t.host.part p).tap j = (s.host.part p).tap j) ∧
        (t.host.part p).tap k = { (s.host.part p).tap k with reads := rest, dmaErr := true } ∧ (t.host.part p).irqStat.flag 9 = true) ∧
  (∀ (s : State) (p k f0 lim : Nat) (rest : List (Nat × Nat)) (nd : TapNode) (bs : List Byte), s.unitsWf = true → Memory.wf (fun _ => Tap.reset) (s.host.part p).taps = true → p < 4 → k < 64 → s.dmaUp = true →
      let x := (s.host.part p).tap k
      x.reads = (f0, lim) :: rest → x.node = some nd → bs.length = x.blk * x.frameLen →
      Completes (.dmaReadComplete p k (some bs)) s [.host, .plane, .reports] fun t => others s t p ∧ (∀ j, j ≠ k → (t.host.part p).tap j = (s.host.part p).tap j) ∧
        ((t.host.part p).tap k).reads = rest ∧ ((t.host.part p).tap k).dmaErr = x.dmaErr ∧
        (x.wait = false → t.plane = s.plane ∧ ((t.host.part p).tap k).frames = x.frames ++ ((List.range x.blk).filter fun i => 0 < hostAhead lim (f0 + i)).map fun i =>
          (f0 + i, (List.range nd.sids.length).map fun j => tapIn nd.fmt (bs.drop ((i * nd.sids.length + j) * tapBytes nd.fmt))))) ∧
  (∀ (s : State) (p k : Nat), s.unitsWf = true → Memory.wf (fun _ => Tap.reset) (s.host.part p).taps = true → s.quiet = true → p < 4 → k < 64 → s.dmaUp = true → let x := (s.host.part p).tap k
      (x.done = [] ∨ s.host.reach p x.lo = false → Completes (.recordTapBlockWrite p k) s [.host] fun t => t.host.parts = s.host.parts) ∧
      (∀ f1 bs rest, x.done = (f1, bs) :: rest → s.host.reach p x.lo = true → Completes (.recordTapBlockWrite p k) s [.host, .mem, .out] fun t =>
        let off := ((f1 - x.blk) % x.frames_) * x.frameLen
        others s t p ∧ (∀ j, j ≠ k → (t.host.part p).tap j = (s.host.part p).tap j) ∧
        (t.host.part p).tap k = { x with done := rest, devIdx := f1 % 2 ^ 32, ovr := x.ovr || decide (hostAhead x.hostIdx f1 < -x.frames_) } ∧ (t.host.part p).irqStat.flag 9 = true ∧
        (spaceOf x.lo = false → t.mem.xram = s.mem.xram ∧ ∃ l, t.out = .busWrite p (hostBase x.lo x.hi + off) bs :: l) ∧ (spaceOf x.lo = true → t.mem.banks = s.mem.banks))) ∧
  (∀ (s : State) (p j : Nat), s.unitsWf = true → s.quiet = true → p < 4 → s.dmaUp = true →
      ((s.host.part p).meters[j]? = none → Completes (.meterWindowEnd p j) s [.host] fun t => t.host.parts = s.host.parts) ∧
      (∀ m, (s.host.part p).meters[j]? = some m → Completes (.meterWindowEnd p j) s [.host, .mem, .out, .free] fun t => let q := s.host.part p
        others s t p ∧ (t.host.part p).meters = q.meters.set j { m with count := (m.count + 1) % 2 ^ 32, n := 0, peak := [], sumSq := [] } ∧
        (q.mtrCfg.flag 31 = true → spaceOf q.mtrLo = false → s.host.pcie.bme.testBit p = true → m.n ≠ 0 → ∃ bs, t.out = [.busWrite p (hostBase q.mtrLo q.mtrHi + 16 * m.block) bs] ∧ bs.length = 16 * m.sids.length ∧
          ∀ c, c < m.sids.length → slice bs (16 * c + 4) 4 = leBytes 4 ((m.count + 1) % 2 ^ 32) ∧ slice bs (16 * c + 8) 8 = leBytes 8 s.ns ∧
            (m.kind = 0 → slice bs (16 * c) 4 = leBytes 4 (min 0x7FFFFFFF (m.peak.getD c 0)))))) ∧
  (∀ (s : State) (p : Nat) (on : Bool), s.unitsWf = true → p < 4 → s.readable = true → Completes (.busMasterEnable p on) s [.host, .setter, .mem, .reports, .out] fun t =>
        (on = false → t.host.parts = s.host.parts) ∧ (∀ q, t.host.part q = if on = true ∧ q = p then { s.host.part q with waits := [] } else s.host.part q) ∧
        (on = true → s.host.outs ++ (s.host.part p).waits <+: t.out) ∧ t.mem.xram = s.mem.xram ∧ t.mem.banks = s.mem.banks ∧ t.host.pcie.bme.testBit p = on ∧ (∀ q, q ≠ p → t.host.pcie.bme.testBit q = s.host.pcie.bme.testBit q) ∧
        t.setter.parts = s.setter.parts ∧ t.setter.intake.length = s.setter.intake.length ∧ ∀ (i : Nat) (e : Entry), s.setter.intake[i]? = some e →
          (e.part ≠ p ∨ e.op = 1 ∨ e.reads = false ∨ e.wait = true → t.setter.intake[i]? = some e) ∧
          (e.part = p → e.op ≠ 1 → e.reads = true → e.wait = false → e.fail = false → e.data = none → e.len ≠ 0 → e.addr % 2 = 0 →
            t.setter.intake[i]? = some { e with wait := on } ∧ (on = true → .busRead p (e.addr / 8 * 8) e.len ∈ t.out))) ∧
  (∀ (s : State) (p : Nat), s.unitsWf = true → p < 4 → s.readable = true → Completes (.flr p) s [.host] fun t => others s t p ∧ t.host.pol = s.host.pol ∧
        t.host.pcie.bme.testBit p = false ∧ (∀ q, q ≠ p → t.host.pcie.bme.testBit q = s.host.pcie.bme.testBit q) ∧
        ((s.host.part p).holder = some 0 → ended s t p) ∧ ((s.host.part p).holder ≠ some 0 → t.host.part p = (s.host.sessionReset p).part p)) ∧
  (∀ (s : State) (width speed : Nat), s.unitsWf = true → width ∈ [0, 1, 2, 4] → speed ≤ 4 → s.power.phase = .run → Completes (.perstN width speed) s [.host, .power] fun t =>
        t.host.pol = s.host.pol ∧ t.host.pcie = ⟨0, 0, width, speed⟩ ∧ t.power = { s.power with wakeOut := false } ∧
        ∀ p, p < 4 → ((s.host.part p).holder = some 0 → ended s t p) ∧ ((s.host.part p).holder ≠ some 0 → t.host.part p = s.host.part p))

/-- A write changes nothing when it is narrower than a word, at a hole or a misaligned offset, by an unmapped SPI target, in Standby
(a submission doorbell apart), and, at a status window other than the per-reader selectors, by an interface that does not hold P0;
GLB_SCRATCH takes the value from P0's host or the Setter and from no one else, and where a host and a Setter core write it in one
cycle the host's value stays; a write of PRT_IRQ_STAT by the holder clears the bits written 1, and one of SEC_TAMPER clears the
bits of LAST. Of writes of PRT_CLAIM_MACk by two interfaces in one cycle the one of SPIT0, then SPIT1, then PCIe is kept. A
narrower read returns 0. A read of a word returns the value of the register, and GLB_UPTIME_LO latches the high word for that
reader alone. A malformed SPI frame makes no access and sets PREV_ERR for the next status word; a read frame returns the status
word and its data words; a write frame of one word does to the device what the register write does. -/
def Obligations.RegisterAndSpiCommands : Prop :=
  (∀ (s : State) (r off : Nat) (v : Word), r < 7 → off < 2 ^ 20 → s.readable = true →
      (off % 4 ≠ 0 ∨ (0x1000 ≤ off ∧ off < 0x10000) ∨ (0x10C00 ≤ off ∧ off < 0x11000) ∨ (0x11400 ≤ off ∧ off < 0x20000) ∨ 0x4A000 ≤ off ∨
        (4 ≤ r ∧ r < 6 ∧ s.host.view r = none) ∨ (s.awake = false ∧ ¬ (r < 4 ∧ 0x10100 ≤ off ∧ off < 0x10180)) ∨
        (r < 6 ∧ s.owns r = false ∧ 0x20000 ≤ off ∧ off < 0x4A000 ∧ off ∉ [0x23000, 0x25030, 0x25C08, 0x25C18])) →
      Completes (.registerWrite r off 4 v none []) s [] fun _ => True) ∧
  (∀ (s : State) (r off n : Nat) (v : Word), r < 7 → off < 2 ^ 20 → s.readable = true → 1 ≤ n → n < 4 →
      Completes (.registerWrite r off n v none []) s [] (fun _ => True) ∧
      Completes (.latchingRegisterRead r off n) s [.out] fun t => s.quiet = true → t.out = [.reg r off 0]) ∧
  (∀ (s : State) (r k : Nat) (v : Word) (chip : Option Word), Memory.wf zeroW s.host.scratch = true → r < 7 → k < 4 → s.writable = true → s.s2Runs = true → (r = 6 ∨ s.host.view r ≠ none) →
      Completes (.registerWrite r (0x30 + 4 * k) 4 v chip []) s [.host] fun t => t.host.parts = s.host.parts ∧ t.host.pol = s.host.pol ∧
        t.readReg 6 (0x30 + 4 * k) = (if s.owns r then v else chip.getD (s.readReg 6 (0x30 + 4 * k))) ∧
        ∀ j, j < 4 → j ≠ k → t.readReg 6 (0x30 + 4 * j) = s.readReg 6 (0x30 + 4 * j)) ∧
  (∀ (s : State) (p k q r : Nat) (u v : Word), s.unitsWf = true → k < 8 → q < 6 → r < 6 → (q = 4 ∧ r ≠ 4) ∨ (q = 5 ∧ r < 4) → s.writable = true → s.host.view q = some p → s.host.view r = some p →
      ∀ i ∈ [Instr.registerWrite q (0x10040 + 4 * k) 4 u none [(r, v)], .registerWrite r (0x10040 + 4 * k) 4 v none [(q, u)]],
      Completes i s [.host] fun t => t.host.part p = (s.host.part p).writeMac k u ∧ ∀ j, j ≠ p → t.host.part j = s.host.part j) ∧
  (∀ (s : State) (r p : Nat) (v : Word), s.unitsWf = true → r < 6 → s.writable = true → s.host.view r = some p → s.host.holds r = true →
      Completes (.registerWrite r 0x10080 4 v none []) s [.host] fun t => t.host.part p = { s.host.part p with irqStat := (s.host.part p).irqStat &&& ~~~v } ∧
        (∀ q, q ≠ p → t.host.part q = s.host.part q) ∧ t.host.pol = s.host.pol) ∧
  (∀ (s : State) (r : Nat) (v : Word), r < 7 → s.commands r = true → s.boot.lastTamper < 8 → (r = 6 ∨ s.host.view r ≠ none) →
      Completes (.registerWrite r 0x25408 4 v none []) s [.boot] fun t => { t.boot with lastTamper := 0 } = { s.boot with lastTamper := 0 } ∧
        ∀ i, i < 3 → t.boot.lastTamper.testBit i = (s.boot.lastTamper.testBit i && !v.toNat.testBit i)) ∧
  (∀ (s : State) (r off : Nat), r < 7 → off < 2 ^ 20 → s.readable = true → s.quiet = true →
      Completes (.latchingRegisterRead r off 4) s [.host, .clk, .net, .links, .out] fun t => t.out = [.reg r off (s.readReg r off)] ∧ t.host.parts = s.host.parts ∧
        (off ≠ 0x1C → t.host.uptLat = s.host.uptLat) ∧ (off ∉ [0x20050, 0x20070, 0x20090] → t.clk.doms = s.clk.doms) ∧ (off ≠ 0x20420 → t.net.ptp = s.net.ptp)) ∧
  (∀ (s : State) (r : Nat), Memory.wf (fun _ => 0) s.host.uptLat = true → r < 7 → s.readable = true → (r = 6 ∨ s.host.view r ≠ none) →
      Completes (.latchingRegisterRead r 0x1C 4) s [.host, .out] fun t => s.readReg r 0x1C = BitVec.ofNat 32 s.us ∧ t.readReg r 0x20 = BitVec.ofNat 32 (s.us / 2 ^ 32) ∧
        ∀ q, q ≠ r → t.readReg q 0x20 = s.readReg q 0x20) ∧
  (∀ (s : State) (r off : Nat), 4 ≤ r → r < 6 → s.host.view r = none → s.readReg r off = 0) ∧
  (∀ (s : State) (g cmd bits n : Nat) (co : List (Option CoA)), g < 2 → cmd < 2 ^ 32 → bits ≤ 32 → s.served = true → s.power.phase = .run → s.quiet = true →
      let bad := bits < 32 ∨ (cmd / 2 ^ 20) % 2 ^ 9 ≠ 0 ∨ cmd % 4 ≠ 0 ∨ (cmd.testBit 30 = true ∧ (cmd / 2 ^ 18) % 4 ≠ 0)
      (bad → bits < 32 ∨ cmd.testBit 31 = true → Completes (.spiReadFrame g cmd bits n co) s [.host, .out] fun t => t.host.parts = s.host.parts ∧
        t.host.spi g = { s.host.spi g with err := true, conflict := (s.host.spi g).conflict && decide (bits < 32) } ∧ t.host.spi (1 - g) = s.host.spi (1 - g) ∧
        t.out = [.spi g (if bits < 32 then [] else s.spiStatus g :: List.replicate n 0)]) ∧
      (∀ ws : List Word, bad → bits < 32 ∨ cmd.testBit 31 = false → Completes (.spiWriteFrame g cmd bits ws co) s [.host, .out] fun t => t.host.parts = s.host.parts ∧ t.host.scratch = s.host.scratch ∧
        t.host.spi g = { s.host.spi g with err := true, conflict := (s.host.spi g).conflict && decide (bits < 32) } ∧ t.host.spi (1 - g) = s.host.spi (1 - g) ∧
        t.out = [.spi g (if bits < 32 then [] else [s.spiStatus g])]) ∧
      (¬ bad → cmd.testBit 31 = true → ∃ t ws l, exec (.spiReadFrame g cmd bits n co) s = .next t ∧ t.pending = s.pending ∧ ws.length = n ∧ (t.host.spi g).err = false ∧ .spi g (s.spiStatus g :: ws) ∈ t.out ∧
        (cmd.testBit 30 = false → OnlyChanges [.host, .clk, .net, .links, .out] s t ∧ t.host.parts = s.host.parts ∧ (t.host.spi g).conflict = false ∧ t.out = .spi g (s.spiStatus g :: ws) :: l ∧
          (0 < n → ws.getD 0 0 = s.readReg (4 + g) (cmd % 2 ^ 20)))) ∧
      (∀ (w : Word), ¬ bad → cmd.testBit 31 = false → cmd.testBit 30 = false → ∃ t u, exec (.spiWriteFrame g cmd bits [w] co) s = .next t ∧ exec (.registerWrite (4 + g) (cmd % 2 ^ 20) 4 w none []) s = .next u ∧
        OnlyChanges [.host, .out] u t ∧ t.host.parts = u.host.parts ∧ t.host.scratch = u.host.scratch ∧ (t.host.spi g).err = false ∧ .spi g [s.spiStatus g] ∈ t.out) ∧
      (∀ ws : List Word, ¬ bad → cmd.testBit 31 = false → ∃ t, exec (.spiWriteFrame g cmd bits ws co) s = .next t ∧ t.pending = s.pending ∧ .spi g [s.spiStatus g] ∈ t.out)) ∧
  (∀ (s : State) (g cmd n : Nat) (ws : List Word), g < 2 → cmd < 2 ^ 32 → s.served = true → s.power.phase = .standby →
      (cmd.testBit 31 = true → ∃ t, exec (.spiReadFrame g cmd 32 n []) s = .next t ∧ t.power.phase = .run ∧ t.power.wakeSrc = 3 + g ∧ t.host.parts = s.host.parts ∧ (t.host.spi g).conflict = true ∧
        .spi g (List.replicate (n + 1) 0) ∈ t.out ∧ .busy g ∈ t.out) ∧
      (cmd.testBit 31 = false → ∃ t, exec (.spiWriteFrame g cmd 32 ws []) s = .next t ∧ t.power.phase = .run ∧ t.power.wakeSrc = 3 + g ∧ t.host.parts = s.host.parts ∧ t.host.scratch = s.host.scratch ∧
        .busy g ∈ t.out))

/-- SUBMIT asks for its Faquin file: from host memory once Bus Master Enable permits, from the Exchange RAM at once. TRANSACTION_START
judges the transaction at the front of intake: once its file has been read, while the partition holds an armed epoch it is refused
with PENDING, after a failed read with DMA_ERROR, in the Rescue condition with NOT_READY, with a length other than TOTAL_LEN as a
file error; a refused one completes with the refusal and changes no graph, an accepted one is built. ARMING_COMPLETE arms the
first build under its law, with the next epoch number unless it is a parameter transaction. RELEASE and RESET_PARTITION remove the
graph: at once when it uses no domain, else by a removal that is armed, and after the armed epoch where there is one;
RESET_PARTITION also ends the session. -/
def Obligations.GraphCommands : Prop :=
  let front := fun (s : State) (op : Nat) (e : Entry) => s.unitsWf = true ∧ s.awake = true ∧ s.s2Runs = true ∧ s.setter.builds = [] ∧
    s.setter.intake.head? = some e ∧ e.op = op
  let dropped := fun (s t : State) (p : Nat) (e : Entry) => let g := (s.setter.part p).graph
    (s.setter.armedOf p = true → t.setter.cleanup = s.setter.cleanup ++ [(p, e)] ∧ t.setter.parts = s.setter.parts ∧ t.setter.armed = s.setter.armed) ∧
    (s.setter.armedOf p = false → t.setter.cleanup = s.setter.cleanup ∧ (g.domains = 0 → t.setter.part p = SetPart.reset ∧ t.setter.armed = s.setter.armed) ∧
      (g.domains ≠ 0 → t.setter.parts = s.setter.parts ∧ ∃ a, t.setter.armed = s.setter.armed ++ [a] ∧ a.part = p ∧ a.law = .remove ∧ a.from_ = some e ∧ a.doms = g.domains ∧ a.force = 0 ∧ a.done = false))
  (∀ (s : State) (i : Nat) (e : Entry), s.unitsWf = true → s.quiet = true → s.dmaUp = true → s.setter.toRead = some i → s.setter.intake[i]? = some e →
      Completes .submit s [.setter, .mem, .reports, .out] fun t => (∀ j, j ≠ i → t.setter.intake[j]? = s.setter.intake[j]?) ∧ t.setter.builds = s.setter.builds ∧ t.setter.parts = s.setter.parts ∧
        (e.len = 0 → t.setter.intake[i]? = some { e with data := some [] }) ∧
        (e.len ≠ 0 → e.addr % 2 = 0 → s.host.pcie.bme.testBit e.part = true → t.setter.intake[i]? = some { e with wait := true } ∧ t.out = [.busRead e.part (e.addr / 8 * 8) e.len]) ∧
        (e.len ≠ 0 → e.addr % 2 = 0 → s.host.pcie.bme.testBit e.part = false → t.setter = s.setter) ∧
        (e.len ≠ 0 → e.addr % 2 = 1 → ∃ b, b.length = e.len ∧ t.setter.intake[i]? = some { e with data := some b })) ∧
  (∀ (s : State) (e : Entry), front s 0x02 e → (∀ x ∈ s.setter.cleanup, s.setter.armedOf x.1 = true) →
      (e.fail = true → Completes .release s [.setter, .host] fun t => t.setter = { s.setter with intake := s.setter.intake.drop 1 }) ∧
      (e.fail = false → Completes .release s [.setter, .host, .power, .facets, .tiles, .reports] fun t => t.setter.intake = s.setter.intake.drop 1 ∧ dropped s t e.part e ∧
        ((s.host.part e.part).session = e.session → (t.host.part e.part).compl = (s.host.part e.part).compl ++
          if s.setter.armedOf e.part = false ∧ (s.setter.part e.part).graph.domains = 0 then [{ complOf e 0 with outcome := 2 }] else []))) ∧
  (∀ (s : State) (e : Entry), front s 0x17 e → (∀ x ∈ s.setter.cleanup, s.setter.armedOf x.1 = true) → e.part = 0 → e.fail = false →
      Completes .resetPartition s [.setter, .host, .power, .facets, .tiles, .reports] fun t => let p := e.arg 0x18 1
        t.setter.intake = s.setter.intake.drop 1 ∧ t.host.pol = s.host.pol ∧
        (4 ≤ p → t.setter.parts = s.setter.parts ∧ t.setter.armed = s.setter.armed ∧ (t.host.part 0).holder = (s.host.part 0).holder) ∧
        (p < 4 → dropped s t p e ∧ (t.host.part p).holder = none ∧ (t.host.part p).session = (s.host.part p).session + 1 ∧ ∀ q, q ≠ p → q ≠ 0 → t.host.part q = s.host.part q)) ∧
  (∀ (s : State) (plan : Plan) (e : Entry), s.unitsWf = true → s.awake = true → s.s2Runs = true → s.setterFree = true →
      (s.setter.intake.head? = none ∨ (s.setter.intake.head? = some e ∧ e.op ≠ 1) → Completes (.transactionStart plan) s [] fun _ => True) ∧
      (s.setter.intake.head? = some e → e.op = 1 →
        let refused := fun (code sub : Nat) => Completes (.transactionStart plan) s [.setter, .host] fun t => t.setter = { s.setter with intake := s.setter.intake.drop 1 } ∧
          ∃ c, (t.host.part e.part).lastTag = c.tag ∧ c.status = code ∧ c.sub = sub ∧ c.cmdId = e.cmdId ∧ c.epoch = (s.setter.part e.part).epoch ∧
            ((s.host.part e.part).session = e.session → (t.host.part e.part).compl = (s.host.part e.part).compl ++ [c])
        (s.setter.armedOf e.part = true → e.fail = true ∨ e.data ≠ none → refused 0x2D 0) ∧
        (s.setter.armedOf e.part = false → e.fail = true → refused 0x42 0) ∧
        (∀ f, s.setter.armedOf e.part = false → e.fail = false → e.data = some f → s.clk.rescue = true → refused 0x2F 1) ∧
        (∀ f, s.setter.armedOf e.part = false → e.fail = false → e.data = some f → s.clk.rescue = false → s.boot.at_ ≠ .full → refused 0x2F 0) ∧
        (∀ f, s.setter.armedOf e.part = false → e.fail = false → e.data = some f → s.clk.rescue = false → s.boot.at_ = .full → f.length ≠ le f 8 4 → refused 0x43 0) ∧
        (s.judge e plan = .wait → Completes (.transactionStart plan) s [] fun _ => True) ∧
        (∀ tag r, s.judge e plan = .refuse tag r → refused r.code r.sub) ∧
        (∀ b, s.judge e plan = .accept b → b.entry = e ∧ Completes (.transactionStart plan) s [.setter, .boot, .free] fun t =>
          t.setter.intake = s.setter.intake.drop 1 ∧ t.setter.builds = s.setter.builds ++ [b] ∧ t.setter.parts = s.setter.parts ∧ t.setter.armed = s.setter.armed ∧ t.boot.flash = s.boot.flash ∧ t.boot.otp = s.boot.otp))) ∧
  (∀ (s : State) (b : Build) (l : List Build) (ns : List Nat), s.unitsWf = true → s.working = true → s.s2Runs = true → s.setter.builds = b :: l → s.mayArm = true → ns.length = 3 →
      Completes (.armingComplete ns) s [.facets, .tiles, .mem, .dram, .clk, .ports, .links, .net, .host, .setter, .health, .reports, .power] fun t => let p := b.entry.part
        t.setter.builds = l ∧ t.setter.intake = s.setter.intake ∧ t.setter.armed.length = s.setter.armed.length + 1 ∧
        (t.setter.armed.dropLast.map fun x => (x.part, x.law, x.number, x.force, x.c)) = (s.setter.armed.map fun x => (x.part, x.law, x.number, x.force, x.c)) ∧
        ∃ a, t.setter.armed.getLast? = some a ∧ a.part = p ∧ a.law = b.law ∧ a.new = b.graph ∧ a.sinks = b.sinks ∧ a.x = b.fq.commit.xfade ∧ a.begun = 0 ∧ a.force = 0 ∧ a.done = false ∧
          a.number = (if b.law = .param then (s.setter.part p).epoch else (s.setter.part p).epoch + 1) ∧ a.doms = (if b.law = .param then paramDoms b.graph b.fq.chgs else b.graph.domains ||| (s.setter.part p).graph.domains) ∧
          (t.setter.part p).epoch = (if a.doms = 0 ∧ b.law ≠ .param then a.number else (s.setter.part p).epoch))

/-- EPOCH_COMPLETION posts the completion of the first armed change of the partition that is in force, with its epoch, domains, commit
ticks and outcome, and marks it done. REMOVAL_SWAP removes the old renderings of a crossfade in every domain whose release tick
has come; DIP_SWAP exchanges old and new work 32 samples after a dip's commit tick; FADE_IN_START begins the fade-in of the dipped
sinks; DELAY_GEOMETRY_SWAP takes one new delay geometry; SMOOTH_STEP arms the next of at most 32 steps once the pointer write
before it has landed. Before its tick has come each of them changes nothing. UNIT_RETIRED disarms an epoch with SUPERSEDED, unless
it is a removal, retires the lane group, reports UNIT_RETIRED and builds the re-placements. -/
def Obligations.EpochCommands : Prop :=
  let swap := fun (i : Instr) (p : Nat) (s : State) (ready : Armed → Nat → Bool) (f : Armed → Armed → Prop) =>
    (s.setter.armed.find? (fun a => a.part == p && (domList a.doms).any (ready a)) = none → Completes i s [] fun _ => True) ∧
    (∀ a, s.setter.armed.find? (fun a => a.part == p && (domList a.doms).any (ready a)) = some a → Completes i s [.ports, .links, .net, .host, .dram, .setter, .facets, .tiles, .power, .reports] fun t =>
      t.setter.builds = s.setter.builds ∧ t.setter.intake = s.setter.intake ∧ ∃ b, f a b ∧ (∀ k, b.gone.testBit k = (a.gone.testBit k || ((domList a.doms).contains k && ready a k))) ∧ (a.done = false → b ∈ t.setter.armed))
  (∀ (s : State) (p : Nat), s.unitsWf = true → p < 4 → s.awake = true →
      let ok := fun (a : Armed) => a.part == p && !a.done && s.inForce a && !s.reportWaits a
      (s.setter.armed.find? ok = none → Completes (.epochCompletion p) s [] fun _ => True) ∧
      (∀ a, s.setter.armed.find? ok = some a → Completes (.epochCompletion p) s [.setter, .host, .mem, .out] fun t =>
        let e := a.from_.getD (Entry.none_ p (s.host.part p).session)
        (t.setter.armed.filter fun b => !b.done).length + 1 = (s.setter.armed.filter fun b => !b.done).length ∧ t.setter.parts = s.setter.parts ∧ t.mem.banks = s.mem.banks ∧
        (a.from_.map (·.op) = some 1 → a.law ≠ .remove → (t.host.part e.part).lastTag = a.tag) ∧ (a.from_.map (·.op) ≠ some 1 → ∀ q, (t.host.part q).lastTag = (s.host.part q).lastTag) ∧
        (a.law = .remove → a.from_ = none → (t.host.part p).compl = (s.host.part p).compl) ∧
        (a.law ≠ .remove ∨ a.from_ ≠ none → (s.host.part e.part).session = e.session → ∃ c, (t.host.part e.part).compl = (s.host.part e.part).compl ++ [c] ∧ c.status = 0 ∧ c.cmdId = e.cmdId ∧ c.outcome = a.outcome ∧
          c.c2shed = a.shed ∧ c.anchor = a.anchor ∧ c.applied = a.c.getD a.anchor 0 ∧ c.domains = a.doms ∧ c.epoch = (if a.law = .remove then 0 else a.number) ∧ c.tag = (if a.law = .remove then 0 else a.tag) ∧
          (a.law = .param ∨ a.law = .remove → c.report = false)))) ∧
  (∀ (s : State) (p : Nat), s.unitsWf = true → p < 4 → s.awake = true →
      swap (.removalSwap p) p s (fun a k => a.law == .blend && a.force.testBit k && a.swaps.testBit k && !a.gone.testBit k && decide (a.c.getD k 0 + a.x ≤ s.period k)) (fun a b => b = { a with gone := b.gone }) ∧
      swap (.dipSwap p) p s (fun a k => a.law != .param && a.law != .blend && a.force.testBit k && !a.gone.testBit k && decide (a.c.getD k 0 + 32 ≤ s.period k)) (fun a b => b = { a with gone := b.gone, begun := b.begun })) ∧
  (∀ (s : State) (p : Nat), s.unitsWf = true → p < 4 → s.awake = true →
      let ok := fun (a : Armed) => a.part == p && (a.law == .dip || a.law == .fadeIn) && (domList a.doms).any fun k => decide (a.f.getD k 0 ≤ s.period k)
      (s.setter.armed.find? ok = none → Completes (.fadeInStart p) s [] fun _ => True) ∧
      (∀ a, s.setter.armed.find? ok = some a → Completes (.fadeInStart p) s [.ports, .net, .host, .setter] fun t => t.setter.parts = s.setter.parts ∧
        ∀ x n q, a.sinks = [x] → s.clk.rescue = false → s.clk.recommit.contains p = false → a.doms.testBit x.dom = true → a.f.getD x.dom 0 ≤ s.period x.dom → a.new.node x.node = some n → n.typ = tSnkPort → nodePort n = some q →
          (n.a16 2 + x.ch, (⟨0, x.b, .fadeIn (a.f.getD x.dom 0)⟩ : Reader)) ∈ (t.ports.port q).outs)) ∧
  (∀ (s : State) (p : Nat), s.unitsWf = true → p < 4 → s.awake = true →
      let ok := fun (a : Armed) => a.part == p && a.law != .param && a.geo.any (s.geoDue p a)
      (s.setter.armed.find? ok = none → Completes (.delayGeometrySwap p) s [] fun _ => True) ∧
      (∀ a q l, s.setter.armed.find? ok = some a → a.geo.find? (s.geoDue p a) = some q → s.geoLine p q = some l → Completes (.delayGeometrySwap p) s [.facets, .dram, .setter, .reports] fun t =>
        t.facets = (s.installLine p l q (s.period l.dom)).settle.facets ∧ (t.setter.part p).graph = (s.setter.part p).graph ∧ t.dram.words = s.dram.words ∧ (a.done = false → { a with geo := a.geo.filter (· != q) } ∈ t.setter.armed))) ∧
  (∀ (s : State) (p : Nat), s.unitsWf = true → p < 4 → s.awake = true →
      (s.setter.smooth.find? (s.smoothReady p) = none → Completes (.smoothStep p) s [] fun _ => True) ∧
      (∀ q, s.setter.smooth.find? (s.smoothReady p) = some q → Completes (.smoothStep p) s [.facets, .setter, .reports] fun t =>
        (t.setter.armed.map fun a => { a with work := Placed.none_ }) = (s.setter.armed.map fun a => { a with work := Placed.none_ }) ∧
        ((s.setter.part p).graph.node q.node = none ∨ q.next = none → t.setter.smooth = s.setter.smooth.filter (· != q)) ∧
        (∀ n u, (s.setter.part p).graph.node q.node = some n → q.next = some u → t.facets = (s.flipBlocks p q.node u (q.block n u)).settle.facets ∧
          t.setter.smooth = (s.setter.smooth.filter (· != q)) ++ if ({ q with last := some u } : Smooth).next.isSome then [{ q with last := some u }] else []))) ∧
  (∀ (s : State) (cls unit : Nat) (plans : List (Nat × Plan)), s.unitsWf = true → s.awake = true → ((cls = 1 ∧ unit < 64) ∨ (cls = 2 ∧ unit < 32) ∨ (cls = 4 ∧ unit < 128 ∧ s.mem.spareFor ≠ none) ∨ (cls = 15 ∧ unit < 32)) →
      (∀ x ∈ plans, x.1 < 4) → s.plansLegal cls unit plans = true →
      Completes (.unitRetired cls unit plans) s [.setter, .host, .links, .mem, .health, .reports, .ports, .net, .dram, .clk, .facets, .tiles, .power] fun t =>
        t.setter.builds.length = s.setter.builds.length + plans.length ∧ t.setter.intake = s.setter.intake ∧ (∃ r ∈ t.health.flying, r.cause = 0x0A00 ∧ r.cls = cls ∧ r.inst = if cls = 15 then 64 * unit else unit) ∧
        (cls = 15 → t.links.retired.testBit unit = true) ∧ (cls = 4 → unit ∈ t.mem.retired ∨ unit ∈ s.mem.retired) ∧
        (plans ≠ [] → (cls, unit) ∈ t.health.retired) ∧
        (∀ a e, s.setter.armed = [a] → a.part < 4 → a.pending = true → a.law ≠ .remove → a.from_ = some e → (s.host.part e.part).session = e.session → t.setter.armed = [] ∧
          ∃ c, (t.host.part e.part).compl = (s.host.part e.part).compl ++ [c] ∧ c.status = 0x2E ∧ c.cmdId = e.cmdId))

/-- With the first lifeline frame the lifeline is live and BOOTSTAT reads 0x1. A LIFELINE_FRAME sends one frame on every declared
output that is on the lifeline clock, and no other. A route at unity whose fade-in is over delivers in a frame the word that it
took three frames before. A handover delivers a + floor((b − a) × (j + 1) / 480). The PLL locks to REFIN0 only when REF_WC is set
and REFIN0 is present, runs from the rescue oscillator without CREF, and locks back to CREF when it has returned.
LIFELINE_CLOCK_MOVE gives a covered port's clock to a running domain of 48 kHz that covers it, and changes nothing where there is
none. -/
def Obligations.LifelineCommands : Prop :=
  (∀ (s : State) (ins : List (Nat × List (List Nat))), s.powered = true → s.clasp.stage = .selected ∨ s.clasp.stage = .live → (∀ x ∈ ins, x.1 < 36) → s.quiet = true →
      Completes (.lifelineFrame ins) s [.clasp, .boot, .out] fun t => t.clasp.stage = .live ∧
        t.boot = (if s.clasp.stage = .selected ∧ s.boot.code = 0 then { s.boot with code := 1 } else s.boot) ∧
        t.out = (s.clasp.ports.filter fun q => q.ok && !q.released && q.dom.isNone && hasOutput q.port).map (fun q => Out.txFrame q.port (s.clasp.lifeFrame q) []) ∧
        t.clasp.pll = s.clasp.pll ∧ t.clasp.ports.map (·.port) = s.clasp.ports.map (·.port) ∧ t.clasp.ports.map (·.dom) = s.clasp.ports.map (·.dom) ∧ t.clasp.routes.map (·.dst) = s.clasp.routes.map (·.dst)) ∧
  (∀ (r : Route) (x : Word) (u v : Option Word), r.gain = 0 → 32 ≤ r.age → (((r.step (some x)).step u).step v).out = x) ∧
  (∀ (r : Route) (u v : Option Word), (((r.step none).step u).step v).out = 0) ∧
  (∀ (a b : Word) (j : Nat), (handover a b j).toInt = if j < 480 then a.toInt + (b.toInt - a.toInt) * (j + 1) / 480 else b.toInt) ∧
  (∀ (s : State), s.powered = true → s.clasp.stage ≠ .off →
      (s.clasp.flags.testBit 1 = true → s.clk.present.1 = true → s.clasp.pll = .cref ∨ s.clasp.pll = .hold → Completes (.lifelinePllLock true) s [.clasp] fun t => t.clasp = { s.clasp with pll := .refin }) ∧
      (s.clasp.flags.testBit 1 = false ∨ s.clk.present.1 = false → Completes (.lifelinePllLock true) s [] fun _ => True) ∧
      (s.clasp.pll = .rescue → s.clk.crefLost = false → Completes (.lifelinePllLock false) s [.clasp] fun t => t.clasp = { s.clasp with pll := .cref }) ∧
      (s.clk.crefLost = true → Completes (.lifelinePllLock false) s [] fun _ => True) ∧
      Completes .lifelineCrefLoss s [.clasp] fun t => t.clasp = { s.clasp with pll := .rescue }) ∧
  (∀ (s : State) (p : Nat), p < 36 → s.awake = true → s.clasp.stage = .live → s.onLifeline p = true →
      (s.coverDom p = none → Completes (.lifelineClockMove p) s [] fun _ => True) ∧
      (∀ k, s.coverDom p = some k → k < 3 ∧ (s.dom k).run = true ∧ s.hz k = 48000 ∧ Completes (.lifelineClockMove p) s [.clasp] fun t => t.clasp.pll = .domain k ∧ t.onLifeline p = false ∧
        t.clasp.routes = s.clasp.routes ∧ (∀ q ∈ t.clasp.ports, q.port = p → q.dom = some k) ∧ ∀ q, q.port ≠ p → (q ∈ t.clasp.ports ↔ q ∈ s.clasp.ports)))

/-- The idle timer and the commands of R464 request entry: with an epoch held PWR_EPOCH, with WAKE_N low PWR_WAKE_HELD and a refusal
by block 7 for reason 6, else the handshake begins after the completion; a wake event in the same cycle drops the request and sets
ABORT_WAKE. Each block answers in turn: it stops, or refuses with its reason, which ends the handshake in Run with a PWR_REFUSED
report; silence refuses with reason 1; after the last block the device is in the state asked for. A wake from Standby returns to
Run with retained state, a wake during the handshake aborts it, a wake from Dormant starts the device anew with its SRAM cleared.
A unit is gated only while it holds no placed work. -/
def Obligations.PowerStateCommands : Prop :=
  let refusedBy := fun (s t : State) (b r : Nat) => t.power = { s.power with refused := some (b, r), phase := .run, stopped := 0, idleAt := s.us + s.power.idleS * 1000000 } ∧
    ∃ x ∈ t.health.flying, x.cause = 0x0B02 ∧ x.cls = 19 ∧ x.clear = false
  let started := fun (s t : State) (d : Bool) => t.power = { s.power with phase := .quiescing, toDormant := d, stopped := 0, aonS := t.power.aonS }
  (∀ (s : State), let due := s.power.phase = .run ∧ s.power.idleS ≠ 0 ∧ s.held = false ∧ s.power.idleAt ≤ s.us
      (∀ w, ¬ due → Completes (.idleTimerExpiry w) s [] fun _ => True) ∧
      (due → Completes (.idleTimerExpiry true) s [.power] fun t => t.power = { s.power with abortWake := true }) ∧
      (due → s.power.wakeN = true → Completes (.idleTimerExpiry false) s [.power] fun t => started s t false) ∧
      (due → s.power.wakeN = false → Completes (.idleTimerExpiry false) s [.power, .reports] fun t => refusedBy s t 7 6)) ∧
  (∀ (s : State) (e : Entry), s.unitsWf = true → s.s2Runs = true → s.setter.builds = [] → s.setter.intake.head? = some e → s.power.phase = .run →
      ∀ (w : Bool), ∀ x ∈ [(Instr.pwrStandby w, 0x30, false), (.pwrDormant w, 0x31, true)], e.op = x.2.1 →
      let a := e.arg 0x18 4
      let ans := fun (t : State) (st : Nat) => t.setter.intake = s.setter.intake.drop 1 ∧ ((s.host.part e.part).session = e.session → ∃ c, (t.host.part e.part).compl = (s.host.part e.part).compl ++ [c] ∧ c.status = st ∧ c.cmdId = e.cmdId)
      let bad := x.2.2 = true ∧ a ≠ 2 ^ 32 - 1 ∧ 86400 < a
      (e.part ≠ 0 → Completes x.1 s [.setter, .host] fun t => ans t 0x41) ∧
      (e.part = 0 → e.fail = true → Completes x.1 s [.setter, .host] fun t => ans t 0x42) ∧
      (e.part = 0 → e.fail = false → bad → Completes x.1 s [.setter, .host] fun t => ans t 0x43) ∧
      (e.part = 0 → e.fail = false → ¬ bad → s.held = true → Completes x.1 s [.setter, .host] fun t => ans t 0x57) ∧
      (e.part = 0 → e.fail = false → ¬ bad → s.held = false → w = false → s.power.wakeN = false → Completes x.1 s [.setter, .host, .power, .reports] fun t => ans t 0x58 ∧ refusedBy s t 7 6) ∧
      (e.part = 0 → e.fail = false → ¬ bad → s.held = false → w = true → Completes x.1 s [.setter, .host, .power] fun t => ans t (if s.power.wakeN then 0 else 0x58) ∧
        t.power = { s.power with abortWake := true, aonS := t.power.aonS }) ∧
      (e.part = 0 → e.fail = false → ¬ bad → s.held = false → w = false → s.power.wakeN = true → Completes x.1 s [.setter, .host, .power] fun t => ans t 0 ∧ started s t x.2.2 ∧
        t.power.aonS = if x.2.2 = true ∧ a ≠ 2 ^ 32 - 1 then a else s.power.aonS)) ∧
  (∀ (s : State), s.unitsWf = true → s.power.phase = .quiescing → s.power.stopped ≤ 6 → let b := s.power.stopped
      (s.held = true → b = 4 ∨ b = 5 → s.blockRefuses b = some 3) ∧ (b = 2 ∨ b = 3 → s.blockRefuses b = none) ∧
      (∀ r, s.blockRefuses b = some r → Completes .quiesceAnswer s [.power, .reports, .ports, .links, .dram] fun t => refusedBy s t b r) ∧
      (s.blockRefuses b = none → Completes .quiesceAnswer s [.power, .reports, .host, .mem, .out, .ports, .dram, .net, .clk, .clasp] fun t =>
        t.mem.banks = s.mem.banks ∧ t.dram.words = s.dram.words ∧ t.host.pol = s.host.pol ∧
        (b < 6 → t.power = { s.power with stopped := b + 1 } ∧ t.net.ptp = s.net.ptp ∧ t.clasp = s.clasp) ∧
        (b = 6 → t.dram.selfRef = true ∧ t.net.ptp.ok = false ∧
          t.power = { s.power with phase := if s.power.toDormant then .dormant else .standby, entered := s.us, stopped := 0, pads := if s.power.toDormant then false else s.power.pads })) ∧
      Completes .quiesceTimeout s [.power, .reports, .ports, .links, .dram] fun t => refusedBy s t b 1) ∧
  (∀ (s : State) (low : Bool), s.power.phase = .run → Completes (.wakeNEdge low) s [.power] fun t => t.power = { s.power with wakeN := !low }) ∧
  (∀ (s : State) (low : Bool), s.power.phase = .quiescing → Completes (.wakeNEdge low) s [.power, .reports, .ports, .links, .dram] fun t =>
      t.power = { s.power with phase := .run, stopped := 0, abortWake := true, idleAt := s.us + s.power.idleS * 1000000, wakeN := !low } ∧ ∃ x ∈ t.health.flying, x.cause = 0x0B02) ∧
  (∀ (s : State) (i : Instr) (src : Nat), (∃ low, i = .wakeNEdge low ∧ src = 1) ∨ (i = .aonTimerExpiry ∧ src = 5 ∧ s.power.aonS ≠ 0 ∧ s.power.aonLeft s.us = 0) →
      (s.power.phase = .standby → Completes i s [.power, .ports, .links, .dram] fun t => t.power.phase = .run ∧ t.power.wakeSrc = src ∧ t.power.aonS = s.power.aonLeft s.us ∧ t.power.idleAt = s.us + s.power.idleS * 1000000 ∧ t.dram.words = s.dram.words) ∧
      (s.power.phase = .dormant → ∃ t, exec i s = .next t ∧ t.pending = s.pending ∧ t.power.phase = .run ∧ t.power.wakeSrc = src ∧ t.power.wakeOut = true ∧ t.power.pads = false ∧ t.us = s.us ∧
        t.boot.at_ = .wait ∧ t.clk.coreLock = false ∧ t.facets = [] ∧ t.tiles = [] ∧ t.sram = [] ∧ t.mem.banks = [] ∧ t.mem.xram = [] ∧ t.mem.locket = [] ∧ t.boot.flash = s.boot.flash ∧ t.boot.otp = s.boot.otp ∧ t.clasp.stage = s.clasp.stage)) ∧
  (∀ (s : State), s.power.phase = .standby ∨ s.power.phase = .dormant → s.power.aonS = 0 ∨ s.power.aonLeft s.us ≠ 0 → Completes .aonTimerExpiry s [] fun _ => True) ∧
  (∀ (s : State) (kind n : Nat), kind = 0 ∧ n < 64 ∨ (kind = 1 ∨ kind = 2) ∧ n < 32 → s.awake = true →
      (s.unitFree kind n = false → Completes (.unitGate kind n) s [] fun _ => True) ∧
      (s.unitFree kind n = true → Completes (.unitGate kind n) s [.power] fun t => t.power = { s.power with gated := t.power.gated } ∧ (kind, n) ∈ t.power.gated ∧ ∀ x, x ≠ (kind, n) → (x ∈ t.power.gated ↔ x ∈ s.power.gated)))

/-- BROWN_OUT resets the device as at POR and leaves PWR_BOR set, its count one higher and saturating. SUPPLY_LOSS leaves the device
Off with its RAM lost; PWR_BOR survives unless the AON supply itself was lost. SUPPLY_LIMIT and SUPPLY_EXCURSION_END set and clear
one rail's bit: the first rail that leaves its range is reported, and the return of the last one is reported with CLEAR.
TEMP_LIMIT records the reading: above the limit of the grade the condition begins, 2 degrees below it it ends, and each is
reported. Flash and OTP keep their contents throughout. -/
def Obligations.SupplyAndTemperatureCommands : Prop :=
  let tells := fun (s t : State) (cause : Nat) (clear : Bool) => (∃ r ∈ t.health.flying, r.cause = cause ∧ r.clear = clear) ∧ t.health.flying.length = s.settle.health.flying.length + 1
  let anew := fun (s t : State) => t.pending = s.pending ∧ t.us = 0 ∧ t.free = s.free ∧ t.facets = [] ∧ t.tiles = [] ∧ t.sram = [] ∧ t.plane = [] ∧ t.mem.banks = [] ∧ t.mem.xram = [] ∧ t.mem.locket = [] ∧ t.dram.words = [] ∧
    t.host.parts = [] ∧ t.setter = SetterSys.reset ∧ t.health = Health.reset ∧ t.boot.at_ = .wait ∧ t.boot.skip = 0 ∧ t.boot.flash = s.boot.flash ∧ t.boot.otp = s.boot.otp ∧ t.power.wakeN = s.power.wakeN ∧ t.power.temp = s.power.temp
  (∀ s : State, s.powered = true → ∃ t, exec .brownOut s = .next t ∧ anew s t ∧ t.power.phase = .run ∧ t.power.bor = true ∧ t.power.borCount = incSat 65535 s.power.borCount) ∧
  (∀ (s : State) (aon : Bool), ∃ t, exec (.supplyLoss aon) s = .next t ∧ anew s t ∧ t.power.phase = .off ∧ t.powered = false ∧ t.clasp.stage = .off ∧
      t.power.bor = (s.power.bor && !aon) ∧ t.power.borCount = if aon then 0 else s.power.borCount) ∧
  (∀ (s : State) (n : Nat), n < 11 → s.powered = true →
      Completes (.supplyLimit n) s [.power, .reports] (fun t => t.power = { s.power with railsOut := s.power.railsOut ||| 2 ^ n } ∧
        (s.power.railsOut = 0 → tells s t 0x0B04 false) ∧ (s.power.railsOut ≠ 0 → t.health.flying = s.settle.health.flying)) ∧
      Completes (.supplyExcursionEnd n) s [.power, .reports] fun t => t.power = { s.power with railsOut := t.power.railsOut } ∧ t.power.railsOut.testBit n = false ∧
        (∀ m, m ≠ n → t.power.railsOut.testBit m = s.power.railsOut.testBit m) ∧
        (s.power.railsOut = 2 ^ n → tells s t 0x0B04 true) ∧ (s.power.railsOut ≠ 2 ^ n → t.health.flying = s.settle.health.flying)) ∧
  (∀ (s : State) (temp : Nat), temp < 2 ^ 16 → s.powered = true → Completes (.tempLimit temp) s [.power, .reports] fun t =>
      let tj : Int := if temp < 2 ^ 15 then temp else (temp : Int) - 2 ^ 16
      let top : Int := if Config.industrial then 105 * 8 else 100 * 8
      t.power.temp = temp ∧ { t.power with temp := 0, hot := false } = { s.power with temp := 0, hot := false } ∧
      (top < tj → t.power.hot = true ∧ (s.power.hot = false → tells s t 0x0B03 false)) ∧
      (tj ≤ top - 16 → t.power.hot = false ∧ (s.power.hot = true → tells s t 0x0B03 true)) ∧
      (top - 16 < tj → tj ≤ top → t.power.hot = s.power.hot) ∧
      (t.power.hot = s.power.hot → t.health.flying = s.settle.health.flying))

/-- REPORT_ARRIVAL takes the oldest report from the network and counts it, after the parents in force have withdrawn what lies in
their scope. A report covered by a parent in force is suppressed; one that meets no open record opens one, or, with 256 open, sets
OVF and counts as suppressed. RECORD_CLOSE puts the 48 bytes of the oldest record that has run out its window into the global ring
at SEQ mod 1,024 and into the fault rings of P0 and of the affected partitions. FAULT_CLEAR from P0's host or the Setter clears
HLT_STAT.FAULT. GPIO_ACCEPT takes a new level, delivers what EDGE selects, and masks the input when it chatters; GPIO_STUCK marks
an input active for STUCK_MS; GPIO_REARM unmasks, and delivers a level that differs from the last one delivered. -/
def Obligations.HealthAndGpioCommands : Prop :=
  let quietly := fun (s t : State) => t.health.flying = s.settle.health.flying
  let tells := fun (t : State) (n cause : Nat) (clear : Bool) => ∃ r ∈ t.health.flying, r.cause = cause ∧ r.cls = 20 ∧ r.inst = n ∧ r.clear = clear
  (∀ (s : State), s.healthRuns = false ∨ s.health.flying = [] → Completes .reportArrival s [] fun _ => True) ∧
  (∀ (s : State) (r : Report) (l : List Report), Memory.wf zeroN s.health.total = true → Memory.wf zeroN s.health.supp = true → s.healthRuns = true → s.health.flying = r :: l →
      Completes .reportArrival s [.health, .reports] fun t =>
        let h := s.screened.health
        let count := fun (m : Memory Nat) => Memory.get zeroN m r.cause
        let hidden := s.activeParents.any fun p => s.scope.covers p r.cause r.cls r.inst (if r.dom < 3 then r.dom else s.recordDom r)
        let opens := fun (o : Open) => o.cause = r.cause ∧ o.cls = r.cls ∧ o.dom = s.recordDom r ∧ o.clear = r.clear ∧ o.since = s.us ∧ (o.solo = true ↔ r.cause = 0xC00) ∧ o.reps.map (·.inst) = [r.inst] ∧ o.reps.map (·.ptp) = [s.ns]
        t.health.flying = l ++ s.unitReports ∧ count t.health.total = min (2 ^ 32 - 1) (count h.total + 1) ∧ (∀ c, c ≠ r.cause → Memory.get zeroN t.health.total c = Memory.get zeroN h.total c) ∧
        t.health.fault = (h.fault || s.c0Cause r) ∧ t.health.seq = h.seq ∧ t.health.ring = h.ring ∧ (stateCauses.contains r.cause = false → t.health.started = h.started) ∧
        (r.quiet = true → t.health.openRecs = h.openRecs ∧ t.health.supp = h.supp ∧ t.health.started = h.started) ∧
        (r.quiet = false → parentCauses.contains r.cause = false → hidden = true → t.health.openRecs = h.openRecs ∧ count t.health.supp = min (2 ^ 32 - 1) (count h.supp + 1)) ∧
        (r.quiet = false → parentCauses.contains r.cause = false → hidden = false → r.clear = false → (∀ o ∈ h.openRecs, o.takes r (s.recordDom r) = false) →
          (h.openRecs.length < 256 → ∃ o, t.health.openRecs = h.openRecs ++ [o] ∧ opens o ∧ t.health.supp = h.supp) ∧
          (256 ≤ h.openRecs.length → t.health.openRecs = h.openRecs ∧ t.health.ovf = true ∧ count t.health.supp = min (2 ^ 32 - 1) (count h.supp + 1)))) ∧
  (∀ o : Open, o.bytes.length = 48) ∧
  (∀ s : State, s.healthRuns = false ∨ s.screened.health.due s.us = none → Completes .recordClose s [] fun _ => True) ∧
  (∀ (s : State) (o : Open), s.unitsWf = true → Memory.wf (fun _ => []) s.health.ring = true → s.healthRuns = true → s.screened.health.due s.us = some o → Completes .recordClose s [.health, .host, .mem, .out] fun t =>
      0 ∈ o.affected ∧ t.health.openRecs = s.screened.health.openRecs.erase o ∧ t.health.seq = (s.health.seq + 1) % 2 ^ 32 ∧ Memory.get (fun _ => []) t.health.ring (s.health.seq % 1024) = o.bytes ∧
      (∀ k, k ≠ s.health.seq % 1024 → Memory.get (fun _ => []) t.health.ring k = Memory.get (fun _ => []) s.health.ring k) ∧ t.health.total = s.health.total ∧ t.health.fault = s.health.fault ∧ t.mem.banks = s.mem.banks ∧
      ∀ p, p < 4 → (t.host.part p).frSeq = (s.host.part p).frSeq + (if p ∈ o.affected then 1 else 0) ∧ (t.host.part p).holder = (s.host.part p).holder ∧ (p ∉ o.affected → t.host.part p = s.host.part p)) ∧
  (∀ (s : State) (r : Nat), r < 7 → (s.commands r = false → Completes (.faultClear r) s [] fun _ => True) ∧
      (s.commands r = true → Completes (.faultClear r) s [.health] fun t => t.health = { s.settle.health with fault := false })) ∧
  (∀ (s : State) (n : Nat) (level : Bool), s.unitsWf = true → n < 16 → let g := s.pin n
      (s.gpioUp n = false ∨ g.en = false ∨ level = g.level → Completes (.gpioAccept n level) s [] fun _ => True) ∧
      (s.gpioUp n = true → g.en = true → level ≠ g.level → Completes (.gpioAccept n level) s [.gpio, .reports] fun t =>
        let edges := (g.edges.filter fun x => decide (s.us < x + g.lim.fld 8 8 * 1000)) ++ [s.us]
        let active := level != g.cfg.flag 30
        let tell := (if active then g.cfg.flag 28 else g.cfg.flag 29) || (g.stuck && !active)
        (∀ m, m ≠ n → t.pin m = s.pin m) ∧ (t.pin n).level = level ∧ (t.pin n).since = s.us ∧ (t.pin n).cfg = g.cfg ∧ (t.pin n).edges = edges ∧
        (g.masked = true → (t.pin n).events = g.events ∧ (t.pin n).masked = true ∧ quietly s t) ∧
        (g.masked = false → g.lim.fld 0 8 ≠ 0 → g.lim.fld 0 8 < edges.length → (t.pin n).masked = true ∧ (t.pin n).events = g.events ∧ tells t n 0xC01 false) ∧
        (g.masked = false → g.lim.fld 0 8 = 0 ∨ edges.length ≤ g.lim.fld 0 8 → (t.pin n).masked = false ∧ (t.pin n).stuck = (g.stuck && active) ∧
          (t.pin n).events = (if tell then incSat 65535 g.events else g.events) ∧ (tell = true → tells t n 0xC00 false) ∧ (g.stuck = true → active = false → tells t n 0xC02 true) ∧ (tell = false → quietly s t)))) ∧
  (∀ (s : State) (n : Nat), s.unitsWf = true → n < 16 → let g := s.pin n
      let ripe := s.gpioUp n = true ∧ g.lim.fld 16 16 ≠ 0 ∧ g.active = true ∧ g.masked = false ∧ g.stuck = false ∧ g.since + g.lim.fld 16 16 * 1000 ≤ s.us
      (¬ ripe → Completes (.gpioStuck n) s [] fun _ => True) ∧
      (ripe → Completes (.gpioStuck n) s [.gpio, .reports] fun t => t.pin n = { g with stuck := true } ∧ (∀ m, m ≠ n → t.pin m = s.pin m) ∧ tells t n 0xC02 false)) ∧
  (∀ (s : State) (r mask : Nat), s.unitsWf = true → r < 7 → mask < 2 ^ 16 → (s.commands r = false → Completes (.gpioRearm r mask) s [] fun _ => True) ∧
      (s.commands r = true → Completes (.gpioRearm r mask) s [.gpio, .reports] fun t => ∀ n, n < 16 → let g := s.pin n
        (mask.testBit n = false ∨ g.masked = false → t.pin n = g) ∧
        (mask.testBit n = true → g.masked = true → (t.pin n).masked = false ∧ (t.pin n).edges = [] ∧ (t.pin n).level = g.level ∧ (t.pin n).told = g.level ∧
          (t.pin n).events = (if g.level = g.told then g.events else incSat 65535 g.events) ∧ (g.level ≠ g.told → tells t n 0xC00 false))))

/-- R517: a test-logic reset leaves IDCODE in force and the device as it was. IDCODE shifts out the 32 bits of 0x1806_4A3D, least
significant bit first; BYPASS, HIGHZ and CLAMP select a 1-bit register, which captures 0, so what is shifted in comes out one bit
later; SAMPLE_PRELOAD, EXTEST, EXTEST_PULSE and EXTEST_TRAIN shift the captured pins out through the boundary chain and leave in
it what was shifted in. Each is then the instruction in force, and the rest of the device is as it was. (That IDCODE is in force
after reset and that the 1-bit register captures 0 is IEEE 1149.1, log 60.) -/
def Obligations.JtagCommands : Prop :=
  (∀ s : State, s.powered = true → Completes .jtagReset s [.jtag] fun t => t.jtag = { s.jtag with ir := .idcode }) ∧
  (∀ (s : State) (bits : List Bool), s.powered = true → s.quiet = true → Completes (.idcode bits) s [.jtag, .out] fun t => t.jtag = { s.jtag with ir := .idcode } ∧
      ∃ o, t.out = [.jtag o] ∧ o.length = bits.length ∧ ∀ i, i < bits.length → o.getD i false = if i < 32 then (0x18064A3D : Nat).testBit i else bits.getD (i - 32) false) ∧
  (∀ (s : State) (bits : List Bool), s.powered = true → s.quiet = true → ∀ x ∈ [(Instr.bypass bits, JtagInstr.bypass), (.highz bits, .highz), (.clamp bits, .clamp)],
      Completes x.1 s [.jtag, .out] fun t => t.jtag = { s.jtag with ir := x.2 } ∧
        ∃ o, t.out = [.jtag o] ∧ o.length = bits.length ∧ ∀ i, i < bits.length → o.getD i false = if i = 0 then false else bits.getD (i - 1) false) ∧
  (∀ (s : State) (pins bits : List Bool), s.powered = true → s.quiet = true → ∀ x ∈ [(Instr.samplePreload pins bits, JtagInstr.sample), (.extest pins bits, .extest), (.extestPulse pins bits, .pulse), (.extestTrain pins bits, .train)],
      Completes x.1 s [.jtag, .out] fun t => t.jtag.ir = x.2 ∧ t.jtag.cells.length = pins.length ∧
        (∀ i, i < pins.length → t.jtag.cells.getD i false = if bits.length + i < pins.length then pins.getD (bits.length + i) false else bits.getD (bits.length + i - pins.length) false) ∧
        ∃ o, t.out = [.jtag o] ∧ o.length = bits.length ∧ ∀ i, i < bits.length → o.getD i false = if i < pins.length then pins.getD i false else bits.getD (i - pins.length) false)
end

