-- ==== Sys2Proof/Laws/Memory.lean ====
section
/-!
SUPPORT. The laws of the sparse store: what a read gives after a write, and that every operation keeps the canonical form.
-/

namespace Sys2Proof

variable {α : Type}

/-! ### Reads after writes -/

@[simp] theorem Memory.get_nil (d : Nat → α) (a : Nat) : Memory.get d [] a = d a := rfl

theorem Memory.get_insert (d : Nat → α) (m : Memory α) (a b : Nat) (v : α) :
    Memory.get d (Memory.insert m a v) b = if b = a then v else Memory.get d m b := by
  induction m with
  | nil => simp [Memory.insert, Memory.get, eq_comm]
  | cons e r ih =>
    obtain ⟨k, w⟩ := e
    simp only [Memory.insert]
    split
    · simp [Memory.get, eq_comm]
    · split
      · subst k
        by_cases hb : b = a
        · simp [Memory.get, hb]
        · simp [Memory.get, hb, Ne.symm hb]
      · simp only [Memory.get, ih]
        by_cases hk : k = b
        · subst k
          have : b ≠ a := by omega
          simp [this]
        · simp [hk]

theorem Memory.get_of_above (d : Nat → α) (m : Memory α) (a b : Nat) (h : Memory.above b m = true) (hab : a ≤ b) :
    Memory.get d m a = d a := by
  induction m with
  | nil => rfl
  | cons e r ih =>
    obtain ⟨k, w⟩ := e
    simp only [Memory.above, Bool.and_eq_true, decide_eq_true_eq] at h
    have : k ≠ a := by omega
    simp [Memory.get, this, ih h.2]

/-! ### The canonical form -/

theorem Memory.above_mono (m : Memory α) (a b : Nat) (h : Memory.above b m = true) (hab : a ≤ b) : Memory.above a m = true := by
  induction m with
  | nil => rfl
  | cons e r ih =>
    simp only [Memory.above, Bool.and_eq_true, decide_eq_true_eq] at h ⊢
    exact ⟨by omega, ih h.2⟩

theorem Memory.above_insert (m : Memory α) (a b : Nat) (v : α) (h : Memory.above b m = true) (hb : b < a) :
    Memory.above b (Memory.insert m a v) = true := by
  induction m with
  | nil => simp [Memory.insert, Memory.above, hb]
  | cons e r ih =>
    obtain ⟨k, w⟩ := e
    simp only [Memory.above, Bool.and_eq_true, decide_eq_true_eq] at h
    simp only [Memory.insert]
    split
    · simp [Memory.above, hb, h]
    · split
      · simp [Memory.above, hb, h.2]
      · simp [Memory.above, h.1, ih h.2]

theorem Memory.above_erase (m : Memory α) (a b : Nat) (h : Memory.above b m = true) : Memory.above b (Memory.erase m a) = true := by
  induction m with
  | nil => rfl
  | cons e r ih =>
    obtain ⟨k, w⟩ := e
    simp only [Memory.above, Bool.and_eq_true, decide_eq_true_eq] at h
    simp only [Memory.erase]
    split
    · exact h.2
    · simp [Memory.above, h.1, ih h.2]

theorem Memory.above_filter (m : Memory α) (b : Nat) (p : Nat × α → Bool) (h : Memory.above b m = true) :
    Memory.above b (m.filter p) = true := by
  induction m with
  | nil => rfl
  | cons e r ih =>
    simp only [Memory.above, Bool.and_eq_true, decide_eq_true_eq] at h
    simp only [List.filter_cons]
    split
    · simp [Memory.above, h.1, ih h.2]
    · exact ih h.2

variable [DecidableEq α]

@[simp] theorem Memory.wf_nil (d : Nat → α) : Memory.wf d [] = true := rfl

theorem Memory.wf_cons (d : Nat → α) (k : Nat) (v : α) (r : Memory α) :
    Memory.wf d ((k, v) :: r) = true ↔ v ≠ d k ∧ Memory.above k r = true ∧ Memory.wf d r = true := by
  simp [Memory.wf, and_assoc]

theorem Memory.wf_insert (d : Nat → α) (m : Memory α) (a : Nat) (v : α) (h : Memory.wf d m = true) (hv : v ≠ d a) :
    Memory.wf d (Memory.insert m a v) = true := by
  induction m with
  | nil => simp [Memory.insert, Memory.wf, Memory.above, hv]
  | cons e r ih =>
    obtain ⟨k, w⟩ := e
    rw [Memory.wf_cons] at h
    simp only [Memory.insert]
    split
    next hk =>
      rw [Memory.wf_cons, Memory.wf_cons]
      refine ⟨hv, ?_, h⟩
      simp only [Memory.above, Bool.and_eq_true, decide_eq_true_eq]
      exact ⟨hk, Memory.above_mono r a k h.2.1 (by omega)⟩
    next hk =>
      split
      next he => subst k; rw [Memory.wf_cons]; exact ⟨hv, h.2⟩
      next he => rw [Memory.wf_cons]; exact ⟨h.1, Memory.above_insert r a k v h.2.1 (by omega), ih h.2.2⟩

theorem Memory.wf_erase (d : Nat → α) (m : Memory α) (a : Nat) (h : Memory.wf d m = true) :
    Memory.wf d (Memory.erase m a) = true := by
  induction m with
  | nil => rfl
  | cons e r ih =>
    obtain ⟨k, w⟩ := e
    rw [Memory.wf_cons] at h
    simp only [Memory.erase]
    split
    · exact h.2.2
    · rw [Memory.wf_cons]; exact ⟨h.1, Memory.above_erase r a k h.2.1, ih h.2.2⟩

/-- A write keeps the canonical form. -/
theorem Memory.wf_set (d : Nat → α) (m : Memory α) (a : Nat) (v : α) (h : Memory.wf d m = true) :
    Memory.wf d (Memory.set d m a v) = true := by
  unfold Memory.set
  split
  · exact Memory.wf_erase d m a h
  next hv => exact Memory.wf_insert d m a v h hv

theorem Memory.wf_setAll (d : Nat → α) (m : Memory α) (ws : List (Nat × α)) (h : Memory.wf d m = true) :
    Memory.wf d (Memory.setAll d m ws) = true := by
  unfold Memory.setAll
  induction ws generalizing m with
  | nil => exact h
  | cons w r ih => exact ih _ (Memory.wf_set d m w.1 w.2 h)

theorem Memory.wf_setRun (d : Nat → α) (m : Memory α) (a : Nat) (vs : List α) (h : Memory.wf d m = true) :
    Memory.wf d (Memory.setRun d m a vs) = true := by
  induction vs generalizing m a with
  | nil => exact h
  | cons v r ih => exact ih _ _ (Memory.wf_set d m a v h)

theorem Memory.wf_filter (d : Nat → α) (m : Memory α) (p : Nat × α → Bool) (h : Memory.wf d m = true) :
    Memory.wf d (m.filter p) = true := by
  induction m with
  | nil => rfl
  | cons e r ih =>
    obtain ⟨k, w⟩ := e
    rw [Memory.wf_cons] at h
    simp only [List.filter_cons]
    split
    · rw [Memory.wf_cons]; exact ⟨h.1, Memory.above_filter r k p h.2.1, ih h.2.2⟩
    · exact ih h.2.2

theorem Memory.wf_clearRun (d : Nat → α) (m : Memory α) (a n : Nat) (h : Memory.wf d m = true) :
    Memory.wf d (Memory.clearRun m a n) = true := Memory.wf_filter d m _ h

/-- A read of a canonical store after a write. -/
theorem Memory.get_set (d : Nat → α) (m : Memory α) (a b : Nat) (v : α) (h : Memory.wf d m = true) :
    Memory.get d (Memory.set d m a v) b = if b = a then v else Memory.get d m b := by
  unfold Memory.set
  split
  next hv =>
    subst v
    induction m with
    | nil => by_cases hb : b = a <;> simp [Memory.erase, Memory.get, hb]
    | cons e r ih =>
      obtain ⟨k, w⟩ := e
      rw [Memory.wf_cons] at h
      simp only [Memory.erase]
      split
      next hk =>
        subst k
        by_cases hb : b = a
        · subst b; simp [Memory.get_of_above d r a a h.2.1 (Nat.le_refl _)]
        · simp [Memory.get, hb, Ne.symm hb]
      next hk =>
        simp only [Memory.get, ih h.2.2]
        by_cases hb : b = a
        · subst b; simp [hk]
        · simp [hb]
  · exact Memory.get_insert d m a b v

theorem Memory.get_set_same (d : Nat → α) (m : Memory α) (a : Nat) (v : α) (h : Memory.wf d m = true) :
    Memory.get d (Memory.set d m a v) a = v := by simp [Memory.get_set d m a a v h]

theorem Memory.get_set_other (d : Nat → α) (m : Memory α) (a b : Nat) (v : α) (h : b ≠ a) :
    Memory.get d (Memory.set d m a v) b = Memory.get d m b := by
  unfold Memory.set
  split
  · induction m with
    | nil => rfl
    | cons e r ih =>
      obtain ⟨k, w⟩ := e
      simp only [Memory.erase]
      split
      next hk => subst k; simp [Memory.get, Ne.symm h]
      · simp only [Memory.get, ih]
  · simp [Memory.get_insert, h]

end Sys2Proof
end

