-- ==== Sys2Proof/Laws/State.lean ====
section
/-!
SUPPORT. What each update of the state does to each of its fields: one lemma per update and field.
-/

namespace Sys2Proof.Machine

/-! ### withMem -/

@[simp] theorem State.withMem_pending (s : State) (f : MemSys → MemSys) : (s.withMem f).pending = s.pending := rfl
@[simp] theorem State.withMem_free (s : State) (f : MemSys → MemSys) : (s.withMem f).free = s.free := rfl
@[simp] theorem State.withMem_us (s : State) (f : MemSys → MemSys) : (s.withMem f).us = s.us := rfl
@[simp] theorem State.withMem_ns (s : State) (f : MemSys → MemSys) : (s.withMem f).ns = s.ns := rfl
@[simp] theorem State.withMem_facets (s : State) (f : MemSys → MemSys) : (s.withMem f).facets = s.facets := rfl
@[simp] theorem State.withMem_tiles (s : State) (f : MemSys → MemSys) : (s.withMem f).tiles = s.tiles := rfl
@[simp] theorem State.withMem_plane (s : State) (f : MemSys → MemSys) : (s.withMem f).plane = s.plane := rfl
@[simp] theorem State.withMem_mem (s : State) (f : MemSys → MemSys) : (s.withMem f).mem = f s.mem := rfl
@[simp] theorem State.withMem_sram (s : State) (f : MemSys → MemSys) : (s.withMem f).sram = s.sram := rfl
@[simp] theorem State.withMem_dram (s : State) (f : MemSys → MemSys) : (s.withMem f).dram = s.dram := rfl
@[simp] theorem State.withMem_clk (s : State) (f : MemSys → MemSys) : (s.withMem f).clk = s.clk := rfl
@[simp] theorem State.withMem_ports (s : State) (f : MemSys → MemSys) : (s.withMem f).ports = s.ports := rfl
@[simp] theorem State.withMem_links (s : State) (f : MemSys → MemSys) : (s.withMem f).links = s.links := rfl
@[simp] theorem State.withMem_net (s : State) (f : MemSys → MemSys) : (s.withMem f).net = s.net := rfl
@[simp] theorem State.withMem_host (s : State) (f : MemSys → MemSys) : (s.withMem f).host = s.host := rfl
@[simp] theorem State.withMem_setter (s : State) (f : MemSys → MemSys) : (s.withMem f).setter = s.setter := rfl
@[simp] theorem State.withMem_clasp (s : State) (f : MemSys → MemSys) : (s.withMem f).clasp = s.clasp := rfl
@[simp] theorem State.withMem_boot (s : State) (f : MemSys → MemSys) : (s.withMem f).boot = s.boot := rfl
@[simp] theorem State.withMem_power (s : State) (f : MemSys → MemSys) : (s.withMem f).power = s.power := rfl
@[simp] theorem State.withMem_health (s : State) (f : MemSys → MemSys) : (s.withMem f).health = s.health := rfl
@[simp] theorem State.withMem_gpio (s : State) (f : MemSys → MemSys) : (s.withMem f).gpio = s.gpio := rfl
@[simp] theorem State.withMem_jtag (s : State) (f : MemSys → MemSys) : (s.withMem f).jtag = s.jtag := rfl
@[simp] theorem State.withMem_out (s : State) (f : MemSys → MemSys) : (s.withMem f).out = s.out := rfl

/-! ### withDram -/

@[simp] theorem State.withDram_pending (s : State) (f : DramSys → DramSys) : (s.withDram f).pending = s.pending := rfl
@[simp] theorem State.withDram_free (s : State) (f : DramSys → DramSys) : (s.withDram f).free = s.free := rfl
@[simp] theorem State.withDram_us (s : State) (f : DramSys → DramSys) : (s.withDram f).us = s.us := rfl
@[simp] theorem State.withDram_ns (s : State) (f : DramSys → DramSys) : (s.withDram f).ns = s.ns := rfl
@[simp] theorem State.withDram_facets (s : State) (f : DramSys → DramSys) : (s.withDram f).facets = s.facets := rfl
@[simp] theorem State.withDram_tiles (s : State) (f : DramSys → DramSys) : (s.withDram f).tiles = s.tiles := rfl
@[simp] theorem State.withDram_plane (s : State) (f : DramSys → DramSys) : (s.withDram f).plane = s.plane := rfl
@[simp] theorem State.withDram_mem (s : State) (f : DramSys → DramSys) : (s.withDram f).mem = s.mem := rfl
@[simp] theorem State.withDram_sram (s : State) (f : DramSys → DramSys) : (s.withDram f).sram = s.sram := rfl
@[simp] theorem State.withDram_dram (s : State) (f : DramSys → DramSys) : (s.withDram f).dram = f s.dram := rfl
@[simp] theorem State.withDram_clk (s : State) (f : DramSys → DramSys) : (s.withDram f).clk = s.clk := rfl
@[simp] theorem State.withDram_ports (s : State) (f : DramSys → DramSys) : (s.withDram f).ports = s.ports := rfl
@[simp] theorem State.withDram_links (s : State) (f : DramSys → DramSys) : (s.withDram f).links = s.links := rfl
@[simp] theorem State.withDram_net (s : State) (f : DramSys → DramSys) : (s.withDram f).net = s.net := rfl
@[simp] theorem State.withDram_host (s : State) (f : DramSys → DramSys) : (s.withDram f).host = s.host := rfl
@[simp] theorem State.withDram_setter (s : State) (f : DramSys → DramSys) : (s.withDram f).setter = s.setter := rfl
@[simp] theorem State.withDram_clasp (s : State) (f : DramSys → DramSys) : (s.withDram f).clasp = s.clasp := rfl
@[simp] theorem State.withDram_boot (s : State) (f : DramSys → DramSys) : (s.withDram f).boot = s.boot := rfl
@[simp] theorem State.withDram_power (s : State) (f : DramSys → DramSys) : (s.withDram f).power = s.power := rfl
@[simp] theorem State.withDram_health (s : State) (f : DramSys → DramSys) : (s.withDram f).health = s.health := rfl
@[simp] theorem State.withDram_gpio (s : State) (f : DramSys → DramSys) : (s.withDram f).gpio = s.gpio := rfl
@[simp] theorem State.withDram_jtag (s : State) (f : DramSys → DramSys) : (s.withDram f).jtag = s.jtag := rfl
@[simp] theorem State.withDram_out (s : State) (f : DramSys → DramSys) : (s.withDram f).out = s.out := rfl

/-! ### withClk -/

@[simp] theorem State.withClk_pending (s : State) (f : ClkSys → ClkSys) : (s.withClk f).pending = s.pending := rfl
@[simp] theorem State.withClk_free (s : State) (f : ClkSys → ClkSys) : (s.withClk f).free = s.free := rfl
@[simp] theorem State.withClk_us (s : State) (f : ClkSys → ClkSys) : (s.withClk f).us = s.us := rfl
@[simp] theorem State.withClk_ns (s : State) (f : ClkSys → ClkSys) : (s.withClk f).ns = s.ns := rfl
@[simp] theorem State.withClk_facets (s : State) (f : ClkSys → ClkSys) : (s.withClk f).facets = s.facets := rfl
@[simp] theorem State.withClk_tiles (s : State) (f : ClkSys → ClkSys) : (s.withClk f).tiles = s.tiles := rfl
@[simp] theorem State.withClk_plane (s : State) (f : ClkSys → ClkSys) : (s.withClk f).plane = s.plane := rfl
@[simp] theorem State.withClk_mem (s : State) (f : ClkSys → ClkSys) : (s.withClk f).mem = s.mem := rfl
@[simp] theorem State.withClk_sram (s : State) (f : ClkSys → ClkSys) : (s.withClk f).sram = s.sram := rfl
@[simp] theorem State.withClk_dram (s : State) (f : ClkSys → ClkSys) : (s.withClk f).dram = s.dram := rfl
@[simp] theorem State.withClk_clk (s : State) (f : ClkSys → ClkSys) : (s.withClk f).clk = f s.clk := rfl
@[simp] theorem State.withClk_ports (s : State) (f : ClkSys → ClkSys) : (s.withClk f).ports = s.ports := rfl
@[simp] theorem State.withClk_links (s : State) (f : ClkSys → ClkSys) : (s.withClk f).links = s.links := rfl
@[simp] theorem State.withClk_net (s : State) (f : ClkSys → ClkSys) : (s.withClk f).net = s.net := rfl
@[simp] theorem State.withClk_host (s : State) (f : ClkSys → ClkSys) : (s.withClk f).host = s.host := rfl
@[simp] theorem State.withClk_setter (s : State) (f : ClkSys → ClkSys) : (s.withClk f).setter = s.setter := rfl
@[simp] theorem State.withClk_clasp (s : State) (f : ClkSys → ClkSys) : (s.withClk f).clasp = s.clasp := rfl
@[simp] theorem State.withClk_boot (s : State) (f : ClkSys → ClkSys) : (s.withClk f).boot = s.boot := rfl
@[simp] theorem State.withClk_power (s : State) (f : ClkSys → ClkSys) : (s.withClk f).power = s.power := rfl
@[simp] theorem State.withClk_health (s : State) (f : ClkSys → ClkSys) : (s.withClk f).health = s.health := rfl
@[simp] theorem State.withClk_gpio (s : State) (f : ClkSys → ClkSys) : (s.withClk f).gpio = s.gpio := rfl
@[simp] theorem State.withClk_jtag (s : State) (f : ClkSys → ClkSys) : (s.withClk f).jtag = s.jtag := rfl
@[simp] theorem State.withClk_out (s : State) (f : ClkSys → ClkSys) : (s.withClk f).out = s.out := rfl

/-! ### withPorts -/

@[simp] theorem State.withPorts_pending (s : State) (f : Serial → Serial) : (s.withPorts f).pending = s.pending := rfl
@[simp] theorem State.withPorts_free (s : State) (f : Serial → Serial) : (s.withPorts f).free = s.free := rfl
@[simp] theorem State.withPorts_us (s : State) (f : Serial → Serial) : (s.withPorts f).us = s.us := rfl
@[simp] theorem State.withPorts_ns (s : State) (f : Serial → Serial) : (s.withPorts f).ns = s.ns := rfl
@[simp] theorem State.withPorts_facets (s : State) (f : Serial → Serial) : (s.withPorts f).facets = s.facets := rfl
@[simp] theorem State.withPorts_tiles (s : State) (f : Serial → Serial) : (s.withPorts f).tiles = s.tiles := rfl
@[simp] theorem State.withPorts_plane (s : State) (f : Serial → Serial) : (s.withPorts f).plane = s.plane := rfl
@[simp] theorem State.withPorts_mem (s : State) (f : Serial → Serial) : (s.withPorts f).mem = s.mem := rfl
@[simp] theorem State.withPorts_sram (s : State) (f : Serial → Serial) : (s.withPorts f).sram = s.sram := rfl
@[simp] theorem State.withPorts_dram (s : State) (f : Serial → Serial) : (s.withPorts f).dram = s.dram := rfl
@[simp] theorem State.withPorts_clk (s : State) (f : Serial → Serial) : (s.withPorts f).clk = s.clk := rfl
@[simp] theorem State.withPorts_ports (s : State) (f : Serial → Serial) : (s.withPorts f).ports = f s.ports := rfl
@[simp] theorem State.withPorts_links (s : State) (f : Serial → Serial) : (s.withPorts f).links = s.links := rfl
@[simp] theorem State.withPorts_net (s : State) (f : Serial → Serial) : (s.withPorts f).net = s.net := rfl
@[simp] theorem State.withPorts_host (s : State) (f : Serial → Serial) : (s.withPorts f).host = s.host := rfl
@[simp] theorem State.withPorts_setter (s : State) (f : Serial → Serial) : (s.withPorts f).setter = s.setter := rfl
@[simp] theorem State.withPorts_clasp (s : State) (f : Serial → Serial) : (s.withPorts f).clasp = s.clasp := rfl
@[simp] theorem State.withPorts_boot (s : State) (f : Serial → Serial) : (s.withPorts f).boot = s.boot := rfl
@[simp] theorem State.withPorts_power (s : State) (f : Serial → Serial) : (s.withPorts f).power = s.power := rfl
@[simp] theorem State.withPorts_health (s : State) (f : Serial → Serial) : (s.withPorts f).health = s.health := rfl
@[simp] theorem State.withPorts_gpio (s : State) (f : Serial → Serial) : (s.withPorts f).gpio = s.gpio := rfl
@[simp] theorem State.withPorts_jtag (s : State) (f : Serial → Serial) : (s.withPorts f).jtag = s.jtag := rfl
@[simp] theorem State.withPorts_out (s : State) (f : Serial → Serial) : (s.withPorts f).out = s.out := rfl

/-! ### withLinks -/

@[simp] theorem State.withLinks_pending (s : State) (f : LinkSys → LinkSys) : (s.withLinks f).pending = s.pending := rfl
@[simp] theorem State.withLinks_free (s : State) (f : LinkSys → LinkSys) : (s.withLinks f).free = s.free := rfl
@[simp] theorem State.withLinks_us (s : State) (f : LinkSys → LinkSys) : (s.withLinks f).us = s.us := rfl
@[simp] theorem State.withLinks_ns (s : State) (f : LinkSys → LinkSys) : (s.withLinks f).ns = s.ns := rfl
@[simp] theorem State.withLinks_facets (s : State) (f : LinkSys → LinkSys) : (s.withLinks f).facets = s.facets := rfl
@[simp] theorem State.withLinks_tiles (s : State) (f : LinkSys → LinkSys) : (s.withLinks f).tiles = s.tiles := rfl
@[simp] theorem State.withLinks_plane (s : State) (f : LinkSys → LinkSys) : (s.withLinks f).plane = s.plane := rfl
@[simp] theorem State.withLinks_mem (s : State) (f : LinkSys → LinkSys) : (s.withLinks f).mem = s.mem := rfl
@[simp] theorem State.withLinks_sram (s : State) (f : LinkSys → LinkSys) : (s.withLinks f).sram = s.sram := rfl
@[simp] theorem State.withLinks_dram (s : State) (f : LinkSys → LinkSys) : (s.withLinks f).dram = s.dram := rfl
@[simp] theorem State.withLinks_clk (s : State) (f : LinkSys → LinkSys) : (s.withLinks f).clk = s.clk := rfl
@[simp] theorem State.withLinks_ports (s : State) (f : LinkSys → LinkSys) : (s.withLinks f).ports = s.ports := rfl
@[simp] theorem State.withLinks_links (s : State) (f : LinkSys → LinkSys) : (s.withLinks f).links = f s.links := rfl
@[simp] theorem State.withLinks_net (s : State) (f : LinkSys → LinkSys) : (s.withLinks f).net = s.net := rfl
@[simp] theorem State.withLinks_host (s : State) (f : LinkSys → LinkSys) : (s.withLinks f).host = s.host := rfl
@[simp] theorem State.withLinks_setter (s : State) (f : LinkSys → LinkSys) : (s.withLinks f).setter = s.setter := rfl
@[simp] theorem State.withLinks_clasp (s : State) (f : LinkSys → LinkSys) : (s.withLinks f).clasp = s.clasp := rfl
@[simp] theorem State.withLinks_boot (s : State) (f : LinkSys → LinkSys) : (s.withLinks f).boot = s.boot := rfl
@[simp] theorem State.withLinks_power (s : State) (f : LinkSys → LinkSys) : (s.withLinks f).power = s.power := rfl
@[simp] theorem State.withLinks_health (s : State) (f : LinkSys → LinkSys) : (s.withLinks f).health = s.health := rfl
@[simp] theorem State.withLinks_gpio (s : State) (f : LinkSys → LinkSys) : (s.withLinks f).gpio = s.gpio := rfl
@[simp] theorem State.withLinks_jtag (s : State) (f : LinkSys → LinkSys) : (s.withLinks f).jtag = s.jtag := rfl
@[simp] theorem State.withLinks_out (s : State) (f : LinkSys → LinkSys) : (s.withLinks f).out = s.out := rfl

/-! ### withNet -/

@[simp] theorem State.withNet_pending (s : State) (f : NetSys → NetSys) : (s.withNet f).pending = s.pending := rfl
@[simp] theorem State.withNet_free (s : State) (f : NetSys → NetSys) : (s.withNet f).free = s.free := rfl
@[simp] theorem State.withNet_us (s : State) (f : NetSys → NetSys) : (s.withNet f).us = s.us := rfl
@[simp] theorem State.withNet_ns (s : State) (f : NetSys → NetSys) : (s.withNet f).ns = s.ns := rfl
@[simp] theorem State.withNet_facets (s : State) (f : NetSys → NetSys) : (s.withNet f).facets = s.facets := rfl
@[simp] theorem State.withNet_tiles (s : State) (f : NetSys → NetSys) : (s.withNet f).tiles = s.tiles := rfl
@[simp] theorem State.withNet_plane (s : State) (f : NetSys → NetSys) : (s.withNet f).plane = s.plane := rfl
@[simp] theorem State.withNet_mem (s : State) (f : NetSys → NetSys) : (s.withNet f).mem = s.mem := rfl
@[simp] theorem State.withNet_sram (s : State) (f : NetSys → NetSys) : (s.withNet f).sram = s.sram := rfl
@[simp] theorem State.withNet_dram (s : State) (f : NetSys → NetSys) : (s.withNet f).dram = s.dram := rfl
@[simp] theorem State.withNet_clk (s : State) (f : NetSys → NetSys) : (s.withNet f).clk = s.clk := rfl
@[simp] theorem State.withNet_ports (s : State) (f : NetSys → NetSys) : (s.withNet f).ports = s.ports := rfl
@[simp] theorem State.withNet_links (s : State) (f : NetSys → NetSys) : (s.withNet f).links = s.links := rfl
@[simp] theorem State.withNet_net (s : State) (f : NetSys → NetSys) : (s.withNet f).net = f s.net := rfl
@[simp] theorem State.withNet_host (s : State) (f : NetSys → NetSys) : (s.withNet f).host = s.host := rfl
@[simp] theorem State.withNet_setter (s : State) (f : NetSys → NetSys) : (s.withNet f).setter = s.setter := rfl
@[simp] theorem State.withNet_clasp (s : State) (f : NetSys → NetSys) : (s.withNet f).clasp = s.clasp := rfl
@[simp] theorem State.withNet_boot (s : State) (f : NetSys → NetSys) : (s.withNet f).boot = s.boot := rfl
@[simp] theorem State.withNet_power (s : State) (f : NetSys → NetSys) : (s.withNet f).power = s.power := rfl
@[simp] theorem State.withNet_health (s : State) (f : NetSys → NetSys) : (s.withNet f).health = s.health := rfl
@[simp] theorem State.withNet_gpio (s : State) (f : NetSys → NetSys) : (s.withNet f).gpio = s.gpio := rfl
@[simp] theorem State.withNet_jtag (s : State) (f : NetSys → NetSys) : (s.withNet f).jtag = s.jtag := rfl
@[simp] theorem State.withNet_out (s : State) (f : NetSys → NetSys) : (s.withNet f).out = s.out := rfl

/-! ### withHost -/

@[simp] theorem State.withHost_pending (s : State) (f : HostSys → HostSys) : (s.withHost f).pending = s.pending := rfl
@[simp] theorem State.withHost_free (s : State) (f : HostSys → HostSys) : (s.withHost f).free = s.free := rfl
@[simp] theorem State.withHost_us (s : State) (f : HostSys → HostSys) : (s.withHost f).us = s.us := rfl
@[simp] theorem State.withHost_ns (s : State) (f : HostSys → HostSys) : (s.withHost f).ns = s.ns := rfl
@[simp] theorem State.withHost_facets (s : State) (f : HostSys → HostSys) : (s.withHost f).facets = s.facets := rfl
@[simp] theorem State.withHost_tiles (s : State) (f : HostSys → HostSys) : (s.withHost f).tiles = s.tiles := rfl
@[simp] theorem State.withHost_plane (s : State) (f : HostSys → HostSys) : (s.withHost f).plane = s.plane := rfl
@[simp] theorem State.withHost_mem (s : State) (f : HostSys → HostSys) : (s.withHost f).mem = s.mem := rfl
@[simp] theorem State.withHost_sram (s : State) (f : HostSys → HostSys) : (s.withHost f).sram = s.sram := rfl
@[simp] theorem State.withHost_dram (s : State) (f : HostSys → HostSys) : (s.withHost f).dram = s.dram := rfl
@[simp] theorem State.withHost_clk (s : State) (f : HostSys → HostSys) : (s.withHost f).clk = s.clk := rfl
@[simp] theorem State.withHost_ports (s : State) (f : HostSys → HostSys) : (s.withHost f).ports = s.ports := rfl
@[simp] theorem State.withHost_links (s : State) (f : HostSys → HostSys) : (s.withHost f).links = s.links := rfl
@[simp] theorem State.withHost_net (s : State) (f : HostSys → HostSys) : (s.withHost f).net = s.net := rfl
@[simp] theorem State.withHost_host (s : State) (f : HostSys → HostSys) : (s.withHost f).host = f s.host := rfl
@[simp] theorem State.withHost_setter (s : State) (f : HostSys → HostSys) : (s.withHost f).setter = s.setter := rfl
@[simp] theorem State.withHost_clasp (s : State) (f : HostSys → HostSys) : (s.withHost f).clasp = s.clasp := rfl
@[simp] theorem State.withHost_boot (s : State) (f : HostSys → HostSys) : (s.withHost f).boot = s.boot := rfl
@[simp] theorem State.withHost_power (s : State) (f : HostSys → HostSys) : (s.withHost f).power = s.power := rfl
@[simp] theorem State.withHost_health (s : State) (f : HostSys → HostSys) : (s.withHost f).health = s.health := rfl
@[simp] theorem State.withHost_gpio (s : State) (f : HostSys → HostSys) : (s.withHost f).gpio = s.gpio := rfl
@[simp] theorem State.withHost_jtag (s : State) (f : HostSys → HostSys) : (s.withHost f).jtag = s.jtag := rfl
@[simp] theorem State.withHost_out (s : State) (f : HostSys → HostSys) : (s.withHost f).out = s.out := rfl

/-! ### withSetter -/

@[simp] theorem State.withSetter_pending (s : State) (f : SetterSys → SetterSys) : (s.withSetter f).pending = s.pending := rfl
@[simp] theorem State.withSetter_free (s : State) (f : SetterSys → SetterSys) : (s.withSetter f).free = s.free := rfl
@[simp] theorem State.withSetter_us (s : State) (f : SetterSys → SetterSys) : (s.withSetter f).us = s.us := rfl
@[simp] theorem State.withSetter_ns (s : State) (f : SetterSys → SetterSys) : (s.withSetter f).ns = s.ns := rfl
@[simp] theorem State.withSetter_facets (s : State) (f : SetterSys → SetterSys) : (s.withSetter f).facets = s.facets := rfl
@[simp] theorem State.withSetter_tiles (s : State) (f : SetterSys → SetterSys) : (s.withSetter f).tiles = s.tiles := rfl
@[simp] theorem State.withSetter_plane (s : State) (f : SetterSys → SetterSys) : (s.withSetter f).plane = s.plane := rfl
@[simp] theorem State.withSetter_mem (s : State) (f : SetterSys → SetterSys) : (s.withSetter f).mem = s.mem := rfl
@[simp] theorem State.withSetter_sram (s : State) (f : SetterSys → SetterSys) : (s.withSetter f).sram = s.sram := rfl
@[simp] theorem State.withSetter_dram (s : State) (f : SetterSys → SetterSys) : (s.withSetter f).dram = s.dram := rfl
@[simp] theorem State.withSetter_clk (s : State) (f : SetterSys → SetterSys) : (s.withSetter f).clk = s.clk := rfl
@[simp] theorem State.withSetter_ports (s : State) (f : SetterSys → SetterSys) : (s.withSetter f).ports = s.ports := rfl
@[simp] theorem State.withSetter_links (s : State) (f : SetterSys → SetterSys) : (s.withSetter f).links = s.links := rfl
@[simp] theorem State.withSetter_net (s : State) (f : SetterSys → SetterSys) : (s.withSetter f).net = s.net := rfl
@[simp] theorem State.withSetter_host (s : State) (f : SetterSys → SetterSys) : (s.withSetter f).host = s.host := rfl
@[simp] theorem State.withSetter_setter (s : State) (f : SetterSys → SetterSys) : (s.withSetter f).setter = f s.setter := rfl
@[simp] theorem State.withSetter_clasp (s : State) (f : SetterSys → SetterSys) : (s.withSetter f).clasp = s.clasp := rfl
@[simp] theorem State.withSetter_boot (s : State) (f : SetterSys → SetterSys) : (s.withSetter f).boot = s.boot := rfl
@[simp] theorem State.withSetter_power (s : State) (f : SetterSys → SetterSys) : (s.withSetter f).power = s.power := rfl
@[simp] theorem State.withSetter_health (s : State) (f : SetterSys → SetterSys) : (s.withSetter f).health = s.health := rfl
@[simp] theorem State.withSetter_gpio (s : State) (f : SetterSys → SetterSys) : (s.withSetter f).gpio = s.gpio := rfl
@[simp] theorem State.withSetter_jtag (s : State) (f : SetterSys → SetterSys) : (s.withSetter f).jtag = s.jtag := rfl
@[simp] theorem State.withSetter_out (s : State) (f : SetterSys → SetterSys) : (s.withSetter f).out = s.out := rfl

/-! ### withClasp -/

@[simp] theorem State.withClasp_pending (s : State) (f : Clasp → Clasp) : (s.withClasp f).pending = s.pending := rfl
@[simp] theorem State.withClasp_free (s : State) (f : Clasp → Clasp) : (s.withClasp f).free = s.free := rfl
@[simp] theorem State.withClasp_us (s : State) (f : Clasp → Clasp) : (s.withClasp f).us = s.us := rfl
@[simp] theorem State.withClasp_ns (s : State) (f : Clasp → Clasp) : (s.withClasp f).ns = s.ns := rfl
@[simp] theorem State.withClasp_facets (s : State) (f : Clasp → Clasp) : (s.withClasp f).facets = s.facets := rfl
@[simp] theorem State.withClasp_tiles (s : State) (f : Clasp → Clasp) : (s.withClasp f).tiles = s.tiles := rfl
@[simp] theorem State.withClasp_plane (s : State) (f : Clasp → Clasp) : (s.withClasp f).plane = s.plane := rfl
@[simp] theorem State.withClasp_mem (s : State) (f : Clasp → Clasp) : (s.withClasp f).mem = s.mem := rfl
@[simp] theorem State.withClasp_sram (s : State) (f : Clasp → Clasp) : (s.withClasp f).sram = s.sram := rfl
@[simp] theorem State.withClasp_dram (s : State) (f : Clasp → Clasp) : (s.withClasp f).dram = s.dram := rfl
@[simp] theorem State.withClasp_clk (s : State) (f : Clasp → Clasp) : (s.withClasp f).clk = s.clk := rfl
@[simp] theorem State.withClasp_ports (s : State) (f : Clasp → Clasp) : (s.withClasp f).ports = s.ports := rfl
@[simp] theorem State.withClasp_links (s : State) (f : Clasp → Clasp) : (s.withClasp f).links = s.links := rfl
@[simp] theorem State.withClasp_net (s : State) (f : Clasp → Clasp) : (s.withClasp f).net = s.net := rfl
@[simp] theorem State.withClasp_host (s : State) (f : Clasp → Clasp) : (s.withClasp f).host = s.host := rfl
@[simp] theorem State.withClasp_setter (s : State) (f : Clasp → Clasp) : (s.withClasp f).setter = s.setter := rfl
@[simp] theorem State.withClasp_clasp (s : State) (f : Clasp → Clasp) : (s.withClasp f).clasp = f s.clasp := rfl
@[simp] theorem State.withClasp_boot (s : State) (f : Clasp → Clasp) : (s.withClasp f).boot = s.boot := rfl
@[simp] theorem State.withClasp_power (s : State) (f : Clasp → Clasp) : (s.withClasp f).power = s.power := rfl
@[simp] theorem State.withClasp_health (s : State) (f : Clasp → Clasp) : (s.withClasp f).health = s.health := rfl
@[simp] theorem State.withClasp_gpio (s : State) (f : Clasp → Clasp) : (s.withClasp f).gpio = s.gpio := rfl
@[simp] theorem State.withClasp_jtag (s : State) (f : Clasp → Clasp) : (s.withClasp f).jtag = s.jtag := rfl
@[simp] theorem State.withClasp_out (s : State) (f : Clasp → Clasp) : (s.withClasp f).out = s.out := rfl

/-! ### withBoot -/

@[simp] theorem State.withBoot_pending (s : State) (f : Boot → Boot) : (s.withBoot f).pending = s.pending := rfl
@[simp] theorem State.withBoot_free (s : State) (f : Boot → Boot) : (s.withBoot f).free = s.free := rfl
@[simp] theorem State.withBoot_us (s : State) (f : Boot → Boot) : (s.withBoot f).us = s.us := rfl
@[simp] theorem State.withBoot_ns (s : State) (f : Boot → Boot) : (s.withBoot f).ns = s.ns := rfl
@[simp] theorem State.withBoot_facets (s : State) (f : Boot → Boot) : (s.withBoot f).facets = s.facets := rfl
@[simp] theorem State.withBoot_tiles (s : State) (f : Boot → Boot) : (s.withBoot f).tiles = s.tiles := rfl
@[simp] theorem State.withBoot_plane (s : State) (f : Boot → Boot) : (s.withBoot f).plane = s.plane := rfl
@[simp] theorem State.withBoot_mem (s : State) (f : Boot → Boot) : (s.withBoot f).mem = s.mem := rfl
@[simp] theorem State.withBoot_sram (s : State) (f : Boot → Boot) : (s.withBoot f).sram = s.sram := rfl
@[simp] theorem State.withBoot_dram (s : State) (f : Boot → Boot) : (s.withBoot f).dram = s.dram := rfl
@[simp] theorem State.withBoot_clk (s : State) (f : Boot → Boot) : (s.withBoot f).clk = s.clk := rfl
@[simp] theorem State.withBoot_ports (s : State) (f : Boot → Boot) : (s.withBoot f).ports = s.ports := rfl
@[simp] theorem State.withBoot_links (s : State) (f : Boot → Boot) : (s.withBoot f).links = s.links := rfl
@[simp] theorem State.withBoot_net (s : State) (f : Boot → Boot) : (s.withBoot f).net = s.net := rfl
@[simp] theorem State.withBoot_host (s : State) (f : Boot → Boot) : (s.withBoot f).host = s.host := rfl
@[simp] theorem State.withBoot_setter (s : State) (f : Boot → Boot) : (s.withBoot f).setter = s.setter := rfl
@[simp] theorem State.withBoot_clasp (s : State) (f : Boot → Boot) : (s.withBoot f).clasp = s.clasp := rfl
@[simp] theorem State.withBoot_boot (s : State) (f : Boot → Boot) : (s.withBoot f).boot = f s.boot := rfl
@[simp] theorem State.withBoot_power (s : State) (f : Boot → Boot) : (s.withBoot f).power = s.power := rfl
@[simp] theorem State.withBoot_health (s : State) (f : Boot → Boot) : (s.withBoot f).health = s.health := rfl
@[simp] theorem State.withBoot_gpio (s : State) (f : Boot → Boot) : (s.withBoot f).gpio = s.gpio := rfl
@[simp] theorem State.withBoot_jtag (s : State) (f : Boot → Boot) : (s.withBoot f).jtag = s.jtag := rfl
@[simp] theorem State.withBoot_out (s : State) (f : Boot → Boot) : (s.withBoot f).out = s.out := rfl

/-! ### withPower -/

@[simp] theorem State.withPower_pending (s : State) (f : Power → Power) : (s.withPower f).pending = s.pending := rfl
@[simp] theorem State.withPower_free (s : State) (f : Power → Power) : (s.withPower f).free = s.free := rfl
@[simp] theorem State.withPower_us (s : State) (f : Power → Power) : (s.withPower f).us = s.us := rfl
@[simp] theorem State.withPower_ns (s : State) (f : Power → Power) : (s.withPower f).ns = s.ns := rfl
@[simp] theorem State.withPower_facets (s : State) (f : Power → Power) : (s.withPower f).facets = s.facets := rfl
@[simp] theorem State.withPower_tiles (s : State) (f : Power → Power) : (s.withPower f).tiles = s.tiles := rfl
@[simp] theorem State.withPower_plane (s : State) (f : Power → Power) : (s.withPower f).plane = s.plane := rfl
@[simp] theorem State.withPower_mem (s : State) (f : Power → Power) : (s.withPower f).mem = s.mem := rfl
@[simp] theorem State.withPower_sram (s : State) (f : Power → Power) : (s.withPower f).sram = s.sram := rfl
@[simp] theorem State.withPower_dram (s : State) (f : Power → Power) : (s.withPower f).dram = s.dram := rfl
@[simp] theorem State.withPower_clk (s : State) (f : Power → Power) : (s.withPower f).clk = s.clk := rfl
@[simp] theorem State.withPower_ports (s : State) (f : Power → Power) : (s.withPower f).ports = s.ports := rfl
@[simp] theorem State.withPower_links (s : State) (f : Power → Power) : (s.withPower f).links = s.links := rfl
@[simp] theorem State.withPower_net (s : State) (f : Power → Power) : (s.withPower f).net = s.net := rfl
@[simp] theorem State.withPower_host (s : State) (f : Power → Power) : (s.withPower f).host = s.host := rfl
@[simp] theorem State.withPower_setter (s : State) (f : Power → Power) : (s.withPower f).setter = s.setter := rfl
@[simp] theorem State.withPower_clasp (s : State) (f : Power → Power) : (s.withPower f).clasp = s.clasp := rfl
@[simp] theorem State.withPower_boot (s : State) (f : Power → Power) : (s.withPower f).boot = s.boot := rfl
@[simp] theorem State.withPower_power (s : State) (f : Power → Power) : (s.withPower f).power = f s.power := rfl
@[simp] theorem State.withPower_health (s : State) (f : Power → Power) : (s.withPower f).health = s.health := rfl
@[simp] theorem State.withPower_gpio (s : State) (f : Power → Power) : (s.withPower f).gpio = s.gpio := rfl
@[simp] theorem State.withPower_jtag (s : State) (f : Power → Power) : (s.withPower f).jtag = s.jtag := rfl
@[simp] theorem State.withPower_out (s : State) (f : Power → Power) : (s.withPower f).out = s.out := rfl

/-! ### withHealth -/

@[simp] theorem State.withHealth_pending (s : State) (f : Health → Health) : (s.withHealth f).pending = s.pending := rfl
@[simp] theorem State.withHealth_free (s : State) (f : Health → Health) : (s.withHealth f).free = s.free := rfl
@[simp] theorem State.withHealth_us (s : State) (f : Health → Health) : (s.withHealth f).us = s.us := rfl
@[simp] theorem State.withHealth_ns (s : State) (f : Health → Health) : (s.withHealth f).ns = s.ns := rfl
@[simp] theorem State.withHealth_facets (s : State) (f : Health → Health) : (s.withHealth f).facets = s.facets := rfl
@[simp] theorem State.withHealth_tiles (s : State) (f : Health → Health) : (s.withHealth f).tiles = s.tiles := rfl
@[simp] theorem State.withHealth_plane (s : State) (f : Health → Health) : (s.withHealth f).plane = s.plane := rfl
@[simp] theorem State.withHealth_mem (s : State) (f : Health → Health) : (s.withHealth f).mem = s.mem := rfl
@[simp] theorem State.withHealth_sram (s : State) (f : Health → Health) : (s.withHealth f).sram = s.sram := rfl
@[simp] theorem State.withHealth_dram (s : State) (f : Health → Health) : (s.withHealth f).dram = s.dram := rfl
@[simp] theorem State.withHealth_clk (s : State) (f : Health → Health) : (s.withHealth f).clk = s.clk := rfl
@[simp] theorem State.withHealth_ports (s : State) (f : Health → Health) : (s.withHealth f).ports = s.ports := rfl
@[simp] theorem State.withHealth_links (s : State) (f : Health → Health) : (s.withHealth f).links = s.links := rfl
@[simp] theorem State.withHealth_net (s : State) (f : Health → Health) : (s.withHealth f).net = s.net := rfl
@[simp] theorem State.withHealth_host (s : State) (f : Health → Health) : (s.withHealth f).host = s.host := rfl
@[simp] theorem State.withHealth_setter (s : State) (f : Health → Health) : (s.withHealth f).setter = s.setter := rfl
@[simp] theorem State.withHealth_clasp (s : State) (f : Health → Health) : (s.withHealth f).clasp = s.clasp := rfl
@[simp] theorem State.withHealth_boot (s : State) (f : Health → Health) : (s.withHealth f).boot = s.boot := rfl
@[simp] theorem State.withHealth_power (s : State) (f : Health → Health) : (s.withHealth f).power = s.power := rfl
@[simp] theorem State.withHealth_health (s : State) (f : Health → Health) : (s.withHealth f).health = f s.health := rfl
@[simp] theorem State.withHealth_gpio (s : State) (f : Health → Health) : (s.withHealth f).gpio = s.gpio := rfl
@[simp] theorem State.withHealth_jtag (s : State) (f : Health → Health) : (s.withHealth f).jtag = s.jtag := rfl
@[simp] theorem State.withHealth_out (s : State) (f : Health → Health) : (s.withHealth f).out = s.out := rfl

/-! ### setFacet -/

@[simp] theorem State.setFacet_pending (s : State) (n : Nat) (f : Facet) : (s.setFacet n f).pending = s.pending := rfl
@[simp] theorem State.setFacet_free (s : State) (n : Nat) (f : Facet) : (s.setFacet n f).free = s.free := rfl
@[simp] theorem State.setFacet_us (s : State) (n : Nat) (f : Facet) : (s.setFacet n f).us = s.us := rfl
@[simp] theorem State.setFacet_ns (s : State) (n : Nat) (f : Facet) : (s.setFacet n f).ns = s.ns := rfl
@[simp] theorem State.setFacet_facets (s : State) (n : Nat) (f : Facet) : (s.setFacet n f).facets = Memory.set (fun _ => Facet.reset) s.facets n f := rfl
@[simp] theorem State.setFacet_tiles (s : State) (n : Nat) (f : Facet) : (s.setFacet n f).tiles = s.tiles := rfl
@[simp] theorem State.setFacet_plane (s : State) (n : Nat) (f : Facet) : (s.setFacet n f).plane = s.plane := rfl
@[simp] theorem State.setFacet_mem (s : State) (n : Nat) (f : Facet) : (s.setFacet n f).mem = s.mem := rfl
@[simp] theorem State.setFacet_sram (s : State) (n : Nat) (f : Facet) : (s.setFacet n f).sram = s.sram := rfl
@[simp] theorem State.setFacet_dram (s : State) (n : Nat) (f : Facet) : (s.setFacet n f).dram = s.dram := rfl
@[simp] theorem State.setFacet_clk (s : State) (n : Nat) (f : Facet) : (s.setFacet n f).clk = s.clk := rfl
@[simp] theorem State.setFacet_ports (s : State) (n : Nat) (f : Facet) : (s.setFacet n f).ports = s.ports := rfl
@[simp] theorem State.setFacet_links (s : State) (n : Nat) (f : Facet) : (s.setFacet n f).links = s.links := rfl
@[simp] theorem State.setFacet_net (s : State) (n : Nat) (f : Facet) : (s.setFacet n f).net = s.net := rfl
@[simp] theorem State.setFacet_host (s : State) (n : Nat) (f : Facet) : (s.setFacet n f).host = s.host := rfl
@[simp] theorem State.setFacet_setter (s : State) (n : Nat) (f : Facet) : (s.setFacet n f).setter = s.setter := rfl
@[simp] theorem State.setFacet_clasp (s : State) (n : Nat) (f : Facet) : (s.setFacet n f).clasp = s.clasp := rfl
@[simp] theorem State.setFacet_boot (s : State) (n : Nat) (f : Facet) : (s.setFacet n f).boot = s.boot := rfl
@[simp] theorem State.setFacet_power (s : State) (n : Nat) (f : Facet) : (s.setFacet n f).power = s.power := rfl
@[simp] theorem State.setFacet_health (s : State) (n : Nat) (f : Facet) : (s.setFacet n f).health = s.health := rfl
@[simp] theorem State.setFacet_gpio (s : State) (n : Nat) (f : Facet) : (s.setFacet n f).gpio = s.gpio := rfl
@[simp] theorem State.setFacet_jtag (s : State) (n : Nat) (f : Facet) : (s.setFacet n f).jtag = s.jtag := rfl
@[simp] theorem State.setFacet_out (s : State) (n : Nat) (f : Facet) : (s.setFacet n f).out = s.out := rfl

/-! ### setTile -/

@[simp] theorem State.setTile_pending (s : State) (n : Nat) (t : Tile) : (s.setTile n t).pending = s.pending := rfl
@[simp] theorem State.setTile_free (s : State) (n : Nat) (t : Tile) : (s.setTile n t).free = s.free := rfl
@[simp] theorem State.setTile_us (s : State) (n : Nat) (t : Tile) : (s.setTile n t).us = s.us := rfl
@[simp] theorem State.setTile_ns (s : State) (n : Nat) (t : Tile) : (s.setTile n t).ns = s.ns := rfl
@[simp] theorem State.setTile_facets (s : State) (n : Nat) (t : Tile) : (s.setTile n t).facets = s.facets := rfl
@[simp] theorem State.setTile_tiles (s : State) (n : Nat) (t : Tile) : (s.setTile n t).tiles = Memory.set (fun _ => Tile.reset) s.tiles n t := rfl
@[simp] theorem State.setTile_plane (s : State) (n : Nat) (t : Tile) : (s.setTile n t).plane = s.plane := rfl
@[simp] theorem State.setTile_mem (s : State) (n : Nat) (t : Tile) : (s.setTile n t).mem = s.mem := rfl
@[simp] theorem State.setTile_sram (s : State) (n : Nat) (t : Tile) : (s.setTile n t).sram = s.sram := rfl
@[simp] theorem State.setTile_dram (s : State) (n : Nat) (t : Tile) : (s.setTile n t).dram = s.dram := rfl
@[simp] theorem State.setTile_clk (s : State) (n : Nat) (t : Tile) : (s.setTile n t).clk = s.clk := rfl
@[simp] theorem State.setTile_ports (s : State) (n : Nat) (t : Tile) : (s.setTile n t).ports = s.ports := rfl
@[simp] theorem State.setTile_links (s : State) (n : Nat) (t : Tile) : (s.setTile n t).links = s.links := rfl
@[simp] theorem State.setTile_net (s : State) (n : Nat) (t : Tile) : (s.setTile n t).net = s.net := rfl
@[simp] theorem State.setTile_host (s : State) (n : Nat) (t : Tile) : (s.setTile n t).host = s.host := rfl
@[simp] theorem State.setTile_setter (s : State) (n : Nat) (t : Tile) : (s.setTile n t).setter = s.setter := rfl
@[simp] theorem State.setTile_clasp (s : State) (n : Nat) (t : Tile) : (s.setTile n t).clasp = s.clasp := rfl
@[simp] theorem State.setTile_boot (s : State) (n : Nat) (t : Tile) : (s.setTile n t).boot = s.boot := rfl
@[simp] theorem State.setTile_power (s : State) (n : Nat) (t : Tile) : (s.setTile n t).power = s.power := rfl
@[simp] theorem State.setTile_health (s : State) (n : Nat) (t : Tile) : (s.setTile n t).health = s.health := rfl
@[simp] theorem State.setTile_gpio (s : State) (n : Nat) (t : Tile) : (s.setTile n t).gpio = s.gpio := rfl
@[simp] theorem State.setTile_jtag (s : State) (n : Nat) (t : Tile) : (s.setTile n t).jtag = s.jtag := rfl
@[simp] theorem State.setTile_out (s : State) (n : Nat) (t : Tile) : (s.setTile n t).out = s.out := rfl

/-! ### setPin -/

@[simp] theorem State.setPin_pending (s : State) (n : Nat) (g : Gpio) : (s.setPin n g).pending = s.pending := rfl
@[simp] theorem State.setPin_free (s : State) (n : Nat) (g : Gpio) : (s.setPin n g).free = s.free := rfl
@[simp] theorem State.setPin_us (s : State) (n : Nat) (g : Gpio) : (s.setPin n g).us = s.us := rfl
@[simp] theorem State.setPin_ns (s : State) (n : Nat) (g : Gpio) : (s.setPin n g).ns = s.ns := rfl
@[simp] theorem State.setPin_facets (s : State) (n : Nat) (g : Gpio) : (s.setPin n g).facets = s.facets := rfl
@[simp] theorem State.setPin_tiles (s : State) (n : Nat) (g : Gpio) : (s.setPin n g).tiles = s.tiles := rfl
@[simp] theorem State.setPin_plane (s : State) (n : Nat) (g : Gpio) : (s.setPin n g).plane = s.plane := rfl
@[simp] theorem State.setPin_mem (s : State) (n : Nat) (g : Gpio) : (s.setPin n g).mem = s.mem := rfl
@[simp] theorem State.setPin_sram (s : State) (n : Nat) (g : Gpio) : (s.setPin n g).sram = s.sram := rfl
@[simp] theorem State.setPin_dram (s : State) (n : Nat) (g : Gpio) : (s.setPin n g).dram = s.dram := rfl
@[simp] theorem State.setPin_clk (s : State) (n : Nat) (g : Gpio) : (s.setPin n g).clk = s.clk := rfl
@[simp] theorem State.setPin_ports (s : State) (n : Nat) (g : Gpio) : (s.setPin n g).ports = s.ports := rfl
@[simp] theorem State.setPin_links (s : State) (n : Nat) (g : Gpio) : (s.setPin n g).links = s.links := rfl
@[simp] theorem State.setPin_net (s : State) (n : Nat) (g : Gpio) : (s.setPin n g).net = s.net := rfl
@[simp] theorem State.setPin_host (s : State) (n : Nat) (g : Gpio) : (s.setPin n g).host = s.host := rfl
@[simp] theorem State.setPin_setter (s : State) (n : Nat) (g : Gpio) : (s.setPin n g).setter = s.setter := rfl
@[simp] theorem State.setPin_clasp (s : State) (n : Nat) (g : Gpio) : (s.setPin n g).clasp = s.clasp := rfl
@[simp] theorem State.setPin_boot (s : State) (n : Nat) (g : Gpio) : (s.setPin n g).boot = s.boot := rfl
@[simp] theorem State.setPin_power (s : State) (n : Nat) (g : Gpio) : (s.setPin n g).power = s.power := rfl
@[simp] theorem State.setPin_health (s : State) (n : Nat) (g : Gpio) : (s.setPin n g).health = s.health := rfl
@[simp] theorem State.setPin_gpio (s : State) (n : Nat) (g : Gpio) : (s.setPin n g).gpio = Memory.set (fun _ => Gpio.reset) s.gpio n g := rfl
@[simp] theorem State.setPin_jtag (s : State) (n : Nat) (g : Gpio) : (s.setPin n g).jtag = s.jtag := rfl
@[simp] theorem State.setPin_out (s : State) (n : Nat) (g : Gpio) : (s.setPin n g).out = s.out := rfl

/-! ### at_ -/

@[simp] theorem State.at__pending (s : State) (ns : Nat) : (s.at_ ns).pending = s.pending := rfl
@[simp] theorem State.at__free (s : State) (ns : Nat) : (s.at_ ns).free = s.free := rfl
@[simp] theorem State.at__us (s : State) (ns : Nat) : (s.at_ ns).us = s.us + (ns / 1000 - s.ns / 1000) := rfl
@[simp] theorem State.at__ns (s : State) (ns : Nat) : (s.at_ ns).ns = ns := rfl
@[simp] theorem State.at__facets (s : State) (ns : Nat) : (s.at_ ns).facets = s.facets := rfl
@[simp] theorem State.at__tiles (s : State) (ns : Nat) : (s.at_ ns).tiles = s.tiles := rfl
@[simp] theorem State.at__plane (s : State) (ns : Nat) : (s.at_ ns).plane = s.plane := rfl
@[simp] theorem State.at__mem (s : State) (ns : Nat) : (s.at_ ns).mem = s.mem := rfl
@[simp] theorem State.at__sram (s : State) (ns : Nat) : (s.at_ ns).sram = s.sram := rfl
@[simp] theorem State.at__dram (s : State) (ns : Nat) : (s.at_ ns).dram = s.dram := rfl
@[simp] theorem State.at__clk (s : State) (ns : Nat) : (s.at_ ns).clk = s.clk := rfl
@[simp] theorem State.at__ports (s : State) (ns : Nat) : (s.at_ ns).ports = s.ports := rfl
@[simp] theorem State.at__links (s : State) (ns : Nat) : (s.at_ ns).links = s.links := rfl
@[simp] theorem State.at__net (s : State) (ns : Nat) : (s.at_ ns).net = s.net := rfl
@[simp] theorem State.at__host (s : State) (ns : Nat) : (s.at_ ns).host = s.host := rfl
@[simp] theorem State.at__setter (s : State) (ns : Nat) : (s.at_ ns).setter = s.setter := rfl
@[simp] theorem State.at__clasp (s : State) (ns : Nat) : (s.at_ ns).clasp = s.clasp := rfl
@[simp] theorem State.at__boot (s : State) (ns : Nat) : (s.at_ ns).boot = s.boot := rfl
@[simp] theorem State.at__power (s : State) (ns : Nat) : (s.at_ ns).power = s.power := rfl
@[simp] theorem State.at__health (s : State) (ns : Nat) : (s.at_ ns).health = s.health := rfl
@[simp] theorem State.at__gpio (s : State) (ns : Nat) : (s.at_ ns).gpio = s.gpio := rfl
@[simp] theorem State.at__jtag (s : State) (ns : Nat) : (s.at_ ns).jtag = s.jtag := rfl
@[simp] theorem State.at__out (s : State) (ns : Nat) : (s.at_ ns).out = s.out := rfl

/-! ### stepNs -/

@[simp] theorem State.stepNs_pending (s : State) (d : Int) : (s.stepNs d).pending = s.pending := rfl
@[simp] theorem State.stepNs_free (s : State) (d : Int) : (s.stepNs d).free = s.free := rfl
@[simp] theorem State.stepNs_us (s : State) (d : Int) : (s.stepNs d).us = s.us := rfl
@[simp] theorem State.stepNs_ns (s : State) (d : Int) : (s.stepNs d).ns = (s.ns + d).toNat := rfl
@[simp] theorem State.stepNs_facets (s : State) (d : Int) : (s.stepNs d).facets = s.facets := rfl
@[simp] theorem State.stepNs_tiles (s : State) (d : Int) : (s.stepNs d).tiles = s.tiles := rfl
@[simp] theorem State.stepNs_plane (s : State) (d : Int) : (s.stepNs d).plane = s.plane := rfl
@[simp] theorem State.stepNs_mem (s : State) (d : Int) : (s.stepNs d).mem = s.mem := rfl
@[simp] theorem State.stepNs_sram (s : State) (d : Int) : (s.stepNs d).sram = s.sram := rfl
@[simp] theorem State.stepNs_dram (s : State) (d : Int) : (s.stepNs d).dram = s.dram := rfl
@[simp] theorem State.stepNs_clk (s : State) (d : Int) : (s.stepNs d).clk = s.clk := rfl
@[simp] theorem State.stepNs_ports (s : State) (d : Int) : (s.stepNs d).ports = s.ports := rfl
@[simp] theorem State.stepNs_links (s : State) (d : Int) : (s.stepNs d).links = s.links := rfl
@[simp] theorem State.stepNs_net (s : State) (d : Int) : (s.stepNs d).net = s.net := rfl
@[simp] theorem State.stepNs_host (s : State) (d : Int) : (s.stepNs d).host = s.host := rfl
@[simp] theorem State.stepNs_setter (s : State) (d : Int) : (s.stepNs d).setter = s.setter := rfl
@[simp] theorem State.stepNs_clasp (s : State) (d : Int) : (s.stepNs d).clasp = s.clasp := rfl
@[simp] theorem State.stepNs_boot (s : State) (d : Int) : (s.stepNs d).boot = s.boot := rfl
@[simp] theorem State.stepNs_power (s : State) (d : Int) : (s.stepNs d).power = s.power := rfl
@[simp] theorem State.stepNs_health (s : State) (d : Int) : (s.stepNs d).health = s.health := rfl
@[simp] theorem State.stepNs_gpio (s : State) (d : Int) : (s.stepNs d).gpio = s.gpio := rfl
@[simp] theorem State.stepNs_jtag (s : State) (d : Int) : (s.stepNs d).jtag = s.jtag := rfl
@[simp] theorem State.stepNs_out (s : State) (d : Int) : (s.stepNs d).out = s.out := rfl

/-! ### notes -/

@[simp] theorem State.notes_pending (s : State) (rs : List Report) : (s.notes rs).pending = s.pending := rfl
@[simp] theorem State.notes_free (s : State) (rs : List Report) : (s.notes rs).free = s.free := rfl
@[simp] theorem State.notes_us (s : State) (rs : List Report) : (s.notes rs).us = s.us := rfl
@[simp] theorem State.notes_ns (s : State) (rs : List Report) : (s.notes rs).ns = s.ns := rfl
@[simp] theorem State.notes_facets (s : State) (rs : List Report) : (s.notes rs).facets = s.facets := rfl
@[simp] theorem State.notes_tiles (s : State) (rs : List Report) : (s.notes rs).tiles = s.tiles := rfl
@[simp] theorem State.notes_plane (s : State) (rs : List Report) : (s.notes rs).plane = s.plane := rfl
@[simp] theorem State.notes_mem (s : State) (rs : List Report) : (s.notes rs).mem = s.mem := rfl
@[simp] theorem State.notes_sram (s : State) (rs : List Report) : (s.notes rs).sram = s.sram := rfl
@[simp] theorem State.notes_dram (s : State) (rs : List Report) : (s.notes rs).dram = s.dram := rfl
@[simp] theorem State.notes_clk (s : State) (rs : List Report) : (s.notes rs).clk = s.clk := rfl
@[simp] theorem State.notes_ports (s : State) (rs : List Report) : (s.notes rs).ports = s.ports := rfl
@[simp] theorem State.notes_links (s : State) (rs : List Report) : (s.notes rs).links = s.links := rfl
@[simp] theorem State.notes_net (s : State) (rs : List Report) : (s.notes rs).net = s.net := rfl
@[simp] theorem State.notes_host (s : State) (rs : List Report) : (s.notes rs).host = s.host := rfl
@[simp] theorem State.notes_setter (s : State) (rs : List Report) : (s.notes rs).setter = s.setter := rfl
@[simp] theorem State.notes_clasp (s : State) (rs : List Report) : (s.notes rs).clasp = s.clasp := rfl
@[simp] theorem State.notes_boot (s : State) (rs : List Report) : (s.notes rs).boot = s.boot := rfl
@[simp] theorem State.notes_power (s : State) (rs : List Report) : (s.notes rs).power = s.power := rfl
@[simp] theorem State.notes_health (s : State) (rs : List Report) : (s.notes rs).health = { s.health with flying := s.health.flying ++ rs } := rfl
@[simp] theorem State.notes_gpio (s : State) (rs : List Report) : (s.notes rs).gpio = s.gpio := rfl
@[simp] theorem State.notes_jtag (s : State) (rs : List Report) : (s.notes rs).jtag = s.jtag := rfl
@[simp] theorem State.notes_out (s : State) (rs : List Report) : (s.notes rs).out = s.out := rfl

/-! ### note -/

@[simp] theorem State.note_pending (s : State) (r : Report) : (s.note r).pending = s.pending := rfl
@[simp] theorem State.note_free (s : State) (r : Report) : (s.note r).free = s.free := rfl
@[simp] theorem State.note_us (s : State) (r : Report) : (s.note r).us = s.us := rfl
@[simp] theorem State.note_ns (s : State) (r : Report) : (s.note r).ns = s.ns := rfl
@[simp] theorem State.note_facets (s : State) (r : Report) : (s.note r).facets = s.facets := rfl
@[simp] theorem State.note_tiles (s : State) (r : Report) : (s.note r).tiles = s.tiles := rfl
@[simp] theorem State.note_plane (s : State) (r : Report) : (s.note r).plane = s.plane := rfl
@[simp] theorem State.note_mem (s : State) (r : Report) : (s.note r).mem = s.mem := rfl
@[simp] theorem State.note_sram (s : State) (r : Report) : (s.note r).sram = s.sram := rfl
@[simp] theorem State.note_dram (s : State) (r : Report) : (s.note r).dram = s.dram := rfl
@[simp] theorem State.note_clk (s : State) (r : Report) : (s.note r).clk = s.clk := rfl
@[simp] theorem State.note_ports (s : State) (r : Report) : (s.note r).ports = s.ports := rfl
@[simp] theorem State.note_links (s : State) (r : Report) : (s.note r).links = s.links := rfl
@[simp] theorem State.note_net (s : State) (r : Report) : (s.note r).net = s.net := rfl
@[simp] theorem State.note_host (s : State) (r : Report) : (s.note r).host = s.host := rfl
@[simp] theorem State.note_setter (s : State) (r : Report) : (s.note r).setter = s.setter := rfl
@[simp] theorem State.note_clasp (s : State) (r : Report) : (s.note r).clasp = s.clasp := rfl
@[simp] theorem State.note_boot (s : State) (r : Report) : (s.note r).boot = s.boot := rfl
@[simp] theorem State.note_power (s : State) (r : Report) : (s.note r).power = s.power := rfl
@[simp] theorem State.note_health (s : State) (r : Report) : (s.note r).health = { s.health with flying := s.health.flying ++ [r] } := rfl
@[simp] theorem State.note_gpio (s : State) (r : Report) : (s.note r).gpio = s.gpio := rfl
@[simp] theorem State.note_jtag (s : State) (r : Report) : (s.note r).jtag = s.jtag := rfl
@[simp] theorem State.note_out (s : State) (r : Report) : (s.note r).out = s.out := rfl

/-! ### emit -/

@[simp] theorem State.emit_pending (s : State) (x : Out) : (s.emit x).pending = s.pending := rfl
@[simp] theorem State.emit_free (s : State) (x : Out) : (s.emit x).free = s.free := rfl
@[simp] theorem State.emit_us (s : State) (x : Out) : (s.emit x).us = s.us := rfl
@[simp] theorem State.emit_ns (s : State) (x : Out) : (s.emit x).ns = s.ns := rfl
@[simp] theorem State.emit_facets (s : State) (x : Out) : (s.emit x).facets = s.facets := rfl
@[simp] theorem State.emit_tiles (s : State) (x : Out) : (s.emit x).tiles = s.tiles := rfl
@[simp] theorem State.emit_plane (s : State) (x : Out) : (s.emit x).plane = s.plane := rfl
@[simp] theorem State.emit_mem (s : State) (x : Out) : (s.emit x).mem = s.mem := rfl
@[simp] theorem State.emit_sram (s : State) (x : Out) : (s.emit x).sram = s.sram := rfl
@[simp] theorem State.emit_dram (s : State) (x : Out) : (s.emit x).dram = s.dram := rfl
@[simp] theorem State.emit_clk (s : State) (x : Out) : (s.emit x).clk = s.clk := rfl
@[simp] theorem State.emit_ports (s : State) (x : Out) : (s.emit x).ports = s.ports := rfl
@[simp] theorem State.emit_links (s : State) (x : Out) : (s.emit x).links = s.links := rfl
@[simp] theorem State.emit_net (s : State) (x : Out) : (s.emit x).net = s.net := rfl
@[simp] theorem State.emit_host (s : State) (x : Out) : (s.emit x).host = s.host.emit x := rfl
@[simp] theorem State.emit_setter (s : State) (x : Out) : (s.emit x).setter = s.setter := rfl
@[simp] theorem State.emit_clasp (s : State) (x : Out) : (s.emit x).clasp = s.clasp := rfl
@[simp] theorem State.emit_boot (s : State) (x : Out) : (s.emit x).boot = s.boot := rfl
@[simp] theorem State.emit_power (s : State) (x : Out) : (s.emit x).power = s.power := rfl
@[simp] theorem State.emit_health (s : State) (x : Out) : (s.emit x).health = s.health := rfl
@[simp] theorem State.emit_gpio (s : State) (x : Out) : (s.emit x).gpio = s.gpio := rfl
@[simp] theorem State.emit_jtag (s : State) (x : Out) : (s.emit x).jtag = s.jtag := rfl
@[simp] theorem State.emit_out (s : State) (x : Out) : (s.emit x).out = s.out := rfl

/-! ### settle -/

@[simp] theorem State.settle_pending (s : State) : (s.settle).pending = s.pending := rfl
@[simp] theorem State.settle_free (s : State) : (s.settle).free = s.free := rfl
@[simp] theorem State.settle_us (s : State) : (s.settle).us = s.us := rfl
@[simp] theorem State.settle_ns (s : State) : (s.settle).ns = s.ns := rfl
@[simp] theorem State.settle_facets (s : State) : (s.settle).facets = quietFacets s.facets := rfl
@[simp] theorem State.settle_tiles (s : State) : (s.settle).tiles = quietTiles s.tiles := rfl
@[simp] theorem State.settle_plane (s : State) : (s.settle).plane = s.plane := rfl
@[simp] theorem State.settle_mem (s : State) : (s.settle).mem = { s.mem with rep := [] } := rfl
@[simp] theorem State.settle_sram (s : State) : (s.settle).sram = s.sram := rfl
@[simp] theorem State.settle_dram (s : State) : (s.settle).dram = { s.dram with rep := [] } := rfl
@[simp] theorem State.settle_clk (s : State) : (s.settle).clk = { s.clk with rep := [] } := rfl
@[simp] theorem State.settle_ports (s : State) : (s.settle).ports = { s.ports with rep := [] } := rfl
@[simp] theorem State.settle_links (s : State) : (s.settle).links = { s.links with rep := [] } := rfl
@[simp] theorem State.settle_net (s : State) : (s.settle).net = { s.net with rep := [], sent := [] } := rfl
@[simp] theorem State.settle_host (s : State) : (s.settle).host = { s.host with rep := [], outs := [] } := rfl
@[simp] theorem State.settle_setter (s : State) : (s.settle).setter = s.setter := rfl
@[simp] theorem State.settle_clasp (s : State) : (s.settle).clasp = s.clasp := rfl
@[simp] theorem State.settle_boot (s : State) : (s.settle).boot = s.boot := rfl
@[simp] theorem State.settle_power (s : State) : (s.settle).power = s.power := rfl
@[simp] theorem State.settle_health (s : State) : (s.settle).health = { s.health with flying := s.health.flying ++ s.unitReports } := rfl
@[simp] theorem State.settle_gpio (s : State) : (s.settle).gpio = s.gpio := rfl
@[simp] theorem State.settle_jtag (s : State) : (s.settle).jtag = s.jtag := rfl
@[simp] theorem State.settle_out (s : State) : (s.settle).out = s.host.outs ++ if s.txOn then s.net.sent.map fun f => Out.netFrame f.1 f.2 else [] := rfl

@[simp] theorem State.take_pending (s : State) (n : Nat) : (s.take n).2.pending = s.pending := rfl
@[simp] theorem State.take_free (s : State) (n : Nat) : (s.take n).2.free = s.free + n := rfl
@[simp] theorem State.take_us (s : State) (n : Nat) : (s.take n).2.us = s.us := rfl
@[simp] theorem State.take_ns (s : State) (n : Nat) : (s.take n).2.ns = s.ns := rfl
@[simp] theorem State.take_facets (s : State) (n : Nat) : (s.take n).2.facets = s.facets := rfl
@[simp] theorem State.take_tiles (s : State) (n : Nat) : (s.take n).2.tiles = s.tiles := rfl
@[simp] theorem State.take_plane (s : State) (n : Nat) : (s.take n).2.plane = s.plane := rfl
@[simp] theorem State.take_mem (s : State) (n : Nat) : (s.take n).2.mem = s.mem := rfl
@[simp] theorem State.take_sram (s : State) (n : Nat) : (s.take n).2.sram = s.sram := rfl
@[simp] theorem State.take_dram (s : State) (n : Nat) : (s.take n).2.dram = s.dram := rfl
@[simp] theorem State.take_clk (s : State) (n : Nat) : (s.take n).2.clk = s.clk := rfl
@[simp] theorem State.take_ports (s : State) (n : Nat) : (s.take n).2.ports = s.ports := rfl
@[simp] theorem State.take_links (s : State) (n : Nat) : (s.take n).2.links = s.links := rfl
@[simp] theorem State.take_net (s : State) (n : Nat) : (s.take n).2.net = s.net := rfl
@[simp] theorem State.take_host (s : State) (n : Nat) : (s.take n).2.host = s.host := rfl
@[simp] theorem State.take_setter (s : State) (n : Nat) : (s.take n).2.setter = s.setter := rfl
@[simp] theorem State.take_clasp (s : State) (n : Nat) : (s.take n).2.clasp = s.clasp := rfl
@[simp] theorem State.take_boot (s : State) (n : Nat) : (s.take n).2.boot = s.boot := rfl
@[simp] theorem State.take_power (s : State) (n : Nat) : (s.take n).2.power = s.power := rfl
@[simp] theorem State.take_health (s : State) (n : Nat) : (s.take n).2.health = s.health := rfl
@[simp] theorem State.take_gpio (s : State) (n : Nat) : (s.take n).2.gpio = s.gpio := rfl
@[simp] theorem State.take_jtag (s : State) (n : Nat) : (s.take n).2.jtag = s.jtag := rfl
@[simp] theorem State.take_out (s : State) (n : Nat) : (s.take n).2.out = s.out := rfl
@[simp] theorem State.take_fst (s : State) (n : Nat) : (s.take n).1 = s.free := rfl

/-! ### modFacet -/

@[simp] theorem State.modFacet_pending (s : State) (n : Nat) (g : Facet → Facet) : (s.modFacet n g).pending = s.pending := rfl
@[simp] theorem State.modFacet_free (s : State) (n : Nat) (g : Facet → Facet) : (s.modFacet n g).free = s.free := rfl
@[simp] theorem State.modFacet_us (s : State) (n : Nat) (g : Facet → Facet) : (s.modFacet n g).us = s.us := rfl
@[simp] theorem State.modFacet_ns (s : State) (n : Nat) (g : Facet → Facet) : (s.modFacet n g).ns = s.ns := rfl
@[simp] theorem State.modFacet_facets (s : State) (n : Nat) (g : Facet → Facet) : (s.modFacet n g).facets = Memory.set (fun _ => Facet.reset) s.facets n (g (s.facet n)) := rfl
@[simp] theorem State.modFacet_tiles (s : State) (n : Nat) (g : Facet → Facet) : (s.modFacet n g).tiles = s.tiles := rfl
@[simp] theorem State.modFacet_plane (s : State) (n : Nat) (g : Facet → Facet) : (s.modFacet n g).plane = s.plane := rfl
@[simp] theorem State.modFacet_mem (s : State) (n : Nat) (g : Facet → Facet) : (s.modFacet n g).mem = s.mem := rfl
@[simp] theorem State.modFacet_sram (s : State) (n : Nat) (g : Facet → Facet) : (s.modFacet n g).sram = s.sram := rfl
@[simp] theorem State.modFacet_dram (s : State) (n : Nat) (g : Facet → Facet) : (s.modFacet n g).dram = s.dram := rfl
@[simp] theorem State.modFacet_clk (s : State) (n : Nat) (g : Facet → Facet) : (s.modFacet n g).clk = s.clk := rfl
@[simp] theorem State.modFacet_ports (s : State) (n : Nat) (g : Facet → Facet) : (s.modFacet n g).ports = s.ports := rfl
@[simp] theorem State.modFacet_links (s : State) (n : Nat) (g : Facet → Facet) : (s.modFacet n g).links = s.links := rfl
@[simp] theorem State.modFacet_net (s : State) (n : Nat) (g : Facet → Facet) : (s.modFacet n g).net = s.net := rfl
@[simp] theorem State.modFacet_host (s : State) (n : Nat) (g : Facet → Facet) : (s.modFacet n g).host = s.host := rfl
@[simp] theorem State.modFacet_setter (s : State) (n : Nat) (g : Facet → Facet) : (s.modFacet n g).setter = s.setter := rfl
@[simp] theorem State.modFacet_clasp (s : State) (n : Nat) (g : Facet → Facet) : (s.modFacet n g).clasp = s.clasp := rfl
@[simp] theorem State.modFacet_boot (s : State) (n : Nat) (g : Facet → Facet) : (s.modFacet n g).boot = s.boot := rfl
@[simp] theorem State.modFacet_power (s : State) (n : Nat) (g : Facet → Facet) : (s.modFacet n g).power = s.power := rfl
@[simp] theorem State.modFacet_health (s : State) (n : Nat) (g : Facet → Facet) : (s.modFacet n g).health = s.health := rfl
@[simp] theorem State.modFacet_gpio (s : State) (n : Nat) (g : Facet → Facet) : (s.modFacet n g).gpio = s.gpio := rfl
@[simp] theorem State.modFacet_jtag (s : State) (n : Nat) (g : Facet → Facet) : (s.modFacet n g).jtag = s.jtag := rfl
@[simp] theorem State.modFacet_out (s : State) (n : Nat) (g : Facet → Facet) : (s.modFacet n g).out = s.out := rfl

/-! ### modTile -/

@[simp] theorem State.modTile_pending (s : State) (n : Nat) (g : Tile → Tile) : (s.modTile n g).pending = s.pending := rfl
@[simp] theorem State.modTile_free (s : State) (n : Nat) (g : Tile → Tile) : (s.modTile n g).free = s.free := rfl
@[simp] theorem State.modTile_us (s : State) (n : Nat) (g : Tile → Tile) : (s.modTile n g).us = s.us := rfl
@[simp] theorem State.modTile_ns (s : State) (n : Nat) (g : Tile → Tile) : (s.modTile n g).ns = s.ns := rfl
@[simp] theorem State.modTile_facets (s : State) (n : Nat) (g : Tile → Tile) : (s.modTile n g).facets = s.facets := rfl
@[simp] theorem State.modTile_tiles (s : State) (n : Nat) (g : Tile → Tile) : (s.modTile n g).tiles = Memory.set (fun _ => Tile.reset) s.tiles n (g (s.tile n)) := rfl
@[simp] theorem State.modTile_plane (s : State) (n : Nat) (g : Tile → Tile) : (s.modTile n g).plane = s.plane := rfl
@[simp] theorem State.modTile_mem (s : State) (n : Nat) (g : Tile → Tile) : (s.modTile n g).mem = s.mem := rfl
@[simp] theorem State.modTile_sram (s : State) (n : Nat) (g : Tile → Tile) : (s.modTile n g).sram = s.sram := rfl
@[simp] theorem State.modTile_dram (s : State) (n : Nat) (g : Tile → Tile) : (s.modTile n g).dram = s.dram := rfl
@[simp] theorem State.modTile_clk (s : State) (n : Nat) (g : Tile → Tile) : (s.modTile n g).clk = s.clk := rfl
@[simp] theorem State.modTile_ports (s : State) (n : Nat) (g : Tile → Tile) : (s.modTile n g).ports = s.ports := rfl
@[simp] theorem State.modTile_links (s : State) (n : Nat) (g : Tile → Tile) : (s.modTile n g).links = s.links := rfl
@[simp] theorem State.modTile_net (s : State) (n : Nat) (g : Tile → Tile) : (s.modTile n g).net = s.net := rfl
@[simp] theorem State.modTile_host (s : State) (n : Nat) (g : Tile → Tile) : (s.modTile n g).host = s.host := rfl
@[simp] theorem State.modTile_setter (s : State) (n : Nat) (g : Tile → Tile) : (s.modTile n g).setter = s.setter := rfl
@[simp] theorem State.modTile_clasp (s : State) (n : Nat) (g : Tile → Tile) : (s.modTile n g).clasp = s.clasp := rfl
@[simp] theorem State.modTile_boot (s : State) (n : Nat) (g : Tile → Tile) : (s.modTile n g).boot = s.boot := rfl
@[simp] theorem State.modTile_power (s : State) (n : Nat) (g : Tile → Tile) : (s.modTile n g).power = s.power := rfl
@[simp] theorem State.modTile_health (s : State) (n : Nat) (g : Tile → Tile) : (s.modTile n g).health = s.health := rfl
@[simp] theorem State.modTile_gpio (s : State) (n : Nat) (g : Tile → Tile) : (s.modTile n g).gpio = s.gpio := rfl
@[simp] theorem State.modTile_jtag (s : State) (n : Nat) (g : Tile → Tile) : (s.modTile n g).jtag = s.jtag := rfl
@[simp] theorem State.modTile_out (s : State) (n : Nat) (g : Tile → Tile) : (s.modTile n g).out = s.out := rfl

/-! ### ungate -/

@[simp] theorem State.ungate_pending (s : State) (kind n : Nat) : (s.ungate kind n).pending = s.pending := rfl
@[simp] theorem State.ungate_free (s : State) (kind n : Nat) : (s.ungate kind n).free = s.free := rfl
@[simp] theorem State.ungate_us (s : State) (kind n : Nat) : (s.ungate kind n).us = s.us := rfl
@[simp] theorem State.ungate_ns (s : State) (kind n : Nat) : (s.ungate kind n).ns = s.ns := rfl
@[simp] theorem State.ungate_facets (s : State) (kind n : Nat) : (s.ungate kind n).facets = s.facets := rfl
@[simp] theorem State.ungate_tiles (s : State) (kind n : Nat) : (s.ungate kind n).tiles = s.tiles := rfl
@[simp] theorem State.ungate_plane (s : State) (kind n : Nat) : (s.ungate kind n).plane = s.plane := rfl
@[simp] theorem State.ungate_mem (s : State) (kind n : Nat) : (s.ungate kind n).mem = s.mem := rfl
@[simp] theorem State.ungate_sram (s : State) (kind n : Nat) : (s.ungate kind n).sram = s.sram := rfl
@[simp] theorem State.ungate_dram (s : State) (kind n : Nat) : (s.ungate kind n).dram = s.dram := rfl
@[simp] theorem State.ungate_clk (s : State) (kind n : Nat) : (s.ungate kind n).clk = s.clk := rfl
@[simp] theorem State.ungate_ports (s : State) (kind n : Nat) : (s.ungate kind n).ports = s.ports := rfl
@[simp] theorem State.ungate_links (s : State) (kind n : Nat) : (s.ungate kind n).links = s.links := rfl
@[simp] theorem State.ungate_net (s : State) (kind n : Nat) : (s.ungate kind n).net = s.net := rfl
@[simp] theorem State.ungate_host (s : State) (kind n : Nat) : (s.ungate kind n).host = s.host := rfl
@[simp] theorem State.ungate_setter (s : State) (kind n : Nat) : (s.ungate kind n).setter = s.setter := rfl
@[simp] theorem State.ungate_clasp (s : State) (kind n : Nat) : (s.ungate kind n).clasp = s.clasp := rfl
@[simp] theorem State.ungate_boot (s : State) (kind n : Nat) : (s.ungate kind n).boot = s.boot := rfl
@[simp] theorem State.ungate_power (s : State) (kind n : Nat) : (s.ungate kind n).power = s.power.ungate kind n := rfl
@[simp] theorem State.ungate_health (s : State) (kind n : Nat) : (s.ungate kind n).health = s.health := rfl
@[simp] theorem State.ungate_gpio (s : State) (kind n : Nat) : (s.ungate kind n).gpio = s.gpio := rfl
@[simp] theorem State.ungate_jtag (s : State) (kind n : Nat) : (s.ungate kind n).jtag = s.jtag := rfl
@[simp] theorem State.ungate_out (s : State) (kind n : Nat) : (s.ungate kind n).out = s.out := rfl

/-! ### screened -/

@[simp] theorem State.screened_pending (s : State) : (s.screened).pending = s.pending := rfl
@[simp] theorem State.screened_free (s : State) : (s.screened).free = s.free := rfl
@[simp] theorem State.screened_us (s : State) : (s.screened).us = s.us := rfl
@[simp] theorem State.screened_ns (s : State) : (s.screened).ns = s.ns := rfl
@[simp] theorem State.screened_facets (s : State) : (s.screened).facets = s.facets := rfl
@[simp] theorem State.screened_tiles (s : State) : (s.screened).tiles = s.tiles := rfl
@[simp] theorem State.screened_plane (s : State) : (s.screened).plane = s.plane := rfl
@[simp] theorem State.screened_mem (s : State) : (s.screened).mem = s.mem := rfl
@[simp] theorem State.screened_sram (s : State) : (s.screened).sram = s.sram := rfl
@[simp] theorem State.screened_dram (s : State) : (s.screened).dram = s.dram := rfl
@[simp] theorem State.screened_clk (s : State) : (s.screened).clk = s.clk := rfl
@[simp] theorem State.screened_ports (s : State) : (s.screened).ports = s.ports := rfl
@[simp] theorem State.screened_links (s : State) : (s.screened).links = s.links := rfl
@[simp] theorem State.screened_net (s : State) : (s.screened).net = s.net := rfl
@[simp] theorem State.screened_host (s : State) : (s.screened).host = s.host := rfl
@[simp] theorem State.screened_setter (s : State) : (s.screened).setter = s.setter := rfl
@[simp] theorem State.screened_clasp (s : State) : (s.screened).clasp = s.clasp := rfl
@[simp] theorem State.screened_boot (s : State) : (s.screened).boot = s.boot := rfl
@[simp] theorem State.screened_power (s : State) : (s.screened).power = s.power := rfl
@[simp] theorem State.screened_health (s : State) : (s.screened).health = s.activeParents.foldl (fun h p => h.withdraw s.scope p) s.health := rfl
@[simp] theorem State.screened_gpio (s : State) : (s.screened).gpio = s.gpio := rfl
@[simp] theorem State.screened_jtag (s : State) : (s.screened).jtag = s.jtag := rfl
@[simp] theorem State.screened_out (s : State) : (s.screened).out = s.out := rfl

end Sys2Proof.Machine
end

