-- ==== Sys2Proof/Laws/Ops.lean ====
section
/-!
SUPPORT. What the shared operations over the whole state can do: the end of a command, writes of the plane, writes into the
Exchange RAM.
-/

namespace Sys2Proof.Machine

/-! ### The end of a command -/

/-- A command that can occur ends in its effect, its reports and outputs sent off. -/
theorem done_on {s t : State} {i : Instr} {on : Bool} (hw : i.wf = true) (ho : on = true) : done s i on t = .next t.settle := by
  simp [done, hw, ho]

/-- A command that cannot occur changes nothing. -/
theorem done_off {s t : State} {i : Instr} {on : Bool} (h : (i.wf && on) = false) : done s i on t = .next s.settle := by
  simp [done, h]

/-- Every command answers a next state, in which reports and outputs have been sent off. -/
theorem done_next {s t u : State} {i : Instr} {on : Bool} (h : done s i on t = .next u) : u = t.settle ∨ u = s.settle := by
  simp only [done, Host.Outcome.next.injEq] at h
  split at h
  · exact .inl h.symm
  · exact .inr h.symm

theorem facetReports_quiet (m : Memory Facet) : facetReports (quietFacets m) = [] := by
  simp only [facetReports, quietFacets, List.flatMap_eq_nil_iff, List.mem_filter, List.mem_map]
  rintro e ⟨⟨x, -, rfl⟩, -⟩
  rfl

theorem tileReports_quiet (m : Memory Tile) : tileReports (quietTiles m) = [] := by
  simp only [tileReports, quietTiles, List.flatMap_eq_nil_iff, List.mem_filter, List.mem_map]
  rintro e ⟨⟨x, -, rfl⟩, -⟩
  rfl

/-- Once a command has ended no unit holds a report. -/
theorem State.settle_unitReports (s : State) : s.settle.unitReports = [] := by
  simp [State.unitReports, facetReports_quiet, tileReports_quiet]

theorem quietFacets_of_wf (m : Memory Facet) (h : Memory.wf (fun _ => Facet.reset) m = true) (hr : facetReports m = []) :
    quietFacets m = m := by
  induction m with
  | nil => rfl
  | cons e r ih =>
    obtain ⟨k, f⟩ := e
    rw [Memory.wf_cons] at h
    simp only [facetReports, List.flatMap_cons, List.append_eq_nil_iff, List.map_eq_nil_iff] at hr
    have hf : ({ f with rep := [] } : Facet) = f := by rw [← hr.1]
    have := ih h.2.2 hr.2
    simp only [quietFacets, List.map_cons, hf, List.filter_cons, bne_iff_ne, ne_eq, h.1, not_false_eq_true, ↓reduceIte] at this ⊢
    rw [this]

theorem quietTiles_of_wf (m : Memory Tile) (h : Memory.wf (fun _ => Tile.reset) m = true) (hr : tileReports m = []) :
    quietTiles m = m := by
  induction m with
  | nil => rfl
  | cons e r ih =>
    obtain ⟨k, f⟩ := e
    rw [Memory.wf_cons] at h
    simp only [tileReports, List.flatMap_cons, List.append_eq_nil_iff, List.map_eq_nil_iff] at hr
    have hf : ({ f with rep := [] } : Tile) = f := by rw [← hr.1]
    have := ih h.2.2 hr.2
    simp only [quietTiles, List.map_cons, hf, List.filter_cons, bne_iff_ne, ne_eq, h.1, not_false_eq_true, ↓reduceIte] at this ⊢
    rw [this]

/-! ### Folds -/

/-- What every step of a fold keeps, the fold keeps. -/
theorem foldl_keeps {α β σ : Type} (g : σ → β) (f : σ → α → σ) (h : ∀ s x, g (f s x) = g s) (l : List α) (s : σ) :
    g (l.foldl f s) = g s := by
  induction l generalizing s with
  | nil => rfl
  | cons x r ih => rw [List.foldl_cons, ih, h]

/-! ### Writes of the plane (R33, R34) -/

@[simp] theorem State.writeSid_pending (s : State) (k c i sid : Nat) (v : Word) : (s.writeSid k c i sid v).pending = s.pending := by
  unfold State.writeSid
  split
  · rfl
  · dsimp only
    split
    · rfl
    · split <;> rfl
@[simp] theorem State.writeSid_free (s : State) (k c i sid : Nat) (v : Word) : (s.writeSid k c i sid v).free = s.free := by
  unfold State.writeSid
  split
  · rfl
  · dsimp only
    split
    · rfl
    · split <;> rfl
@[simp] theorem State.writeSid_us (s : State) (k c i sid : Nat) (v : Word) : (s.writeSid k c i sid v).us = s.us := by
  unfold State.writeSid
  split
  · rfl
  · dsimp only
    split
    · rfl
    · split <;> rfl
@[simp] theorem State.writeSid_ns (s : State) (k c i sid : Nat) (v : Word) : (s.writeSid k c i sid v).ns = s.ns := by
  unfold State.writeSid
  split
  · rfl
  · dsimp only
    split
    · rfl
    · split <;> rfl
@[simp] theorem State.writeSid_facets (s : State) (k c i sid : Nat) (v : Word) : (s.writeSid k c i sid v).facets = s.facets := by
  unfold State.writeSid
  split
  · rfl
  · dsimp only
    split
    · rfl
    · split <;> rfl
@[simp] theorem State.writeSid_tiles (s : State) (k c i sid : Nat) (v : Word) : (s.writeSid k c i sid v).tiles = s.tiles := by
  unfold State.writeSid
  split
  · rfl
  · dsimp only
    split
    · rfl
    · split <;> rfl
@[simp] theorem State.writeSid_mem (s : State) (k c i sid : Nat) (v : Word) : (s.writeSid k c i sid v).mem = s.mem := by
  unfold State.writeSid
  split
  · rfl
  · dsimp only
    split
    · rfl
    · split <;> rfl
@[simp] theorem State.writeSid_sram (s : State) (k c i sid : Nat) (v : Word) : (s.writeSid k c i sid v).sram = s.sram := by
  unfold State.writeSid
  split
  · rfl
  · dsimp only
    split
    · rfl
    · split <;> rfl
@[simp] theorem State.writeSid_dram (s : State) (k c i sid : Nat) (v : Word) : (s.writeSid k c i sid v).dram = s.dram := by
  unfold State.writeSid
  split
  · rfl
  · dsimp only
    split
    · rfl
    · split <;> rfl
@[simp] theorem State.writeSid_clk (s : State) (k c i sid : Nat) (v : Word) : (s.writeSid k c i sid v).clk = s.clk := by
  unfold State.writeSid
  split
  · rfl
  · dsimp only
    split
    · rfl
    · split <;> rfl
@[simp] theorem State.writeSid_ports (s : State) (k c i sid : Nat) (v : Word) : (s.writeSid k c i sid v).ports = s.ports := by
  unfold State.writeSid
  split
  · rfl
  · dsimp only
    split
    · rfl
    · split <;> rfl
@[simp] theorem State.writeSid_links (s : State) (k c i sid : Nat) (v : Word) : (s.writeSid k c i sid v).links = s.links := by
  unfold State.writeSid
  split
  · rfl
  · dsimp only
    split
    · rfl
    · split <;> rfl
@[simp] theorem State.writeSid_net (s : State) (k c i sid : Nat) (v : Word) : (s.writeSid k c i sid v).net = s.net := by
  unfold State.writeSid
  split
  · rfl
  · dsimp only
    split
    · rfl
    · split <;> rfl
@[simp] theorem State.writeSid_host (s : State) (k c i sid : Nat) (v : Word) : (s.writeSid k c i sid v).host = s.host := by
  unfold State.writeSid
  split
  · rfl
  · dsimp only
    split
    · rfl
    · split <;> rfl
@[simp] theorem State.writeSid_setter (s : State) (k c i sid : Nat) (v : Word) : (s.writeSid k c i sid v).setter = s.setter := by
  unfold State.writeSid
  split
  · rfl
  · dsimp only
    split
    · rfl
    · split <;> rfl
@[simp] theorem State.writeSid_clasp (s : State) (k c i sid : Nat) (v : Word) : (s.writeSid k c i sid v).clasp = s.clasp := by
  unfold State.writeSid
  split
  · rfl
  · dsimp only
    split
    · rfl
    · split <;> rfl
@[simp] theorem State.writeSid_boot (s : State) (k c i sid : Nat) (v : Word) : (s.writeSid k c i sid v).boot = s.boot := by
  unfold State.writeSid
  split
  · rfl
  · dsimp only
    split
    · rfl
    · split <;> rfl
@[simp] theorem State.writeSid_power (s : State) (k c i sid : Nat) (v : Word) : (s.writeSid k c i sid v).power = s.power := by
  unfold State.writeSid
  split
  · rfl
  · dsimp only
    split
    · rfl
    · split <;> rfl
@[simp] theorem State.writeSid_gpio (s : State) (k c i sid : Nat) (v : Word) : (s.writeSid k c i sid v).gpio = s.gpio := by
  unfold State.writeSid
  split
  · rfl
  · dsimp only
    split
    · rfl
    · split <;> rfl
@[simp] theorem State.writeSid_jtag (s : State) (k c i sid : Nat) (v : Word) : (s.writeSid k c i sid v).jtag = s.jtag := by
  unfold State.writeSid
  split
  · rfl
  · dsimp only
    split
    · rfl
    · split <;> rfl
@[simp] theorem State.writeSid_out (s : State) (k c i sid : Nat) (v : Word) : (s.writeSid k c i sid v).out = s.out := by
  unfold State.writeSid
  split
  · rfl
  · dsimp only
    split
    · rfl
    · split <;> rfl

@[simp] theorem State.writeSids_pending (s : State) (k c i : Nat) (ws : List (Nat × Word)) : (s.writeSids k c i ws).pending = s.pending :=
  foldl_keeps (·.pending) _ (fun _ _ => by simp) ws s
@[simp] theorem State.writeSids_free (s : State) (k c i : Nat) (ws : List (Nat × Word)) : (s.writeSids k c i ws).free = s.free :=
  foldl_keeps (·.free) _ (fun _ _ => by simp) ws s
@[simp] theorem State.writeSids_us (s : State) (k c i : Nat) (ws : List (Nat × Word)) : (s.writeSids k c i ws).us = s.us :=
  foldl_keeps (·.us) _ (fun _ _ => by simp) ws s
@[simp] theorem State.writeSids_ns (s : State) (k c i : Nat) (ws : List (Nat × Word)) : (s.writeSids k c i ws).ns = s.ns :=
  foldl_keeps (·.ns) _ (fun _ _ => by simp) ws s
@[simp] theorem State.writeSids_facets (s : State) (k c i : Nat) (ws : List (Nat × Word)) : (s.writeSids k c i ws).facets = s.facets :=
  foldl_keeps (·.facets) _ (fun _ _ => by simp) ws s
@[simp] theorem State.writeSids_tiles (s : State) (k c i : Nat) (ws : List (Nat × Word)) : (s.writeSids k c i ws).tiles = s.tiles :=
  foldl_keeps (·.tiles) _ (fun _ _ => by simp) ws s
@[simp] theorem State.writeSids_mem (s : State) (k c i : Nat) (ws : List (Nat × Word)) : (s.writeSids k c i ws).mem = s.mem :=
  foldl_keeps (·.mem) _ (fun _ _ => by simp) ws s
@[simp] theorem State.writeSids_sram (s : State) (k c i : Nat) (ws : List (Nat × Word)) : (s.writeSids k c i ws).sram = s.sram :=
  foldl_keeps (·.sram) _ (fun _ _ => by simp) ws s
@[simp] theorem State.writeSids_dram (s : State) (k c i : Nat) (ws : List (Nat × Word)) : (s.writeSids k c i ws).dram = s.dram :=
  foldl_keeps (·.dram) _ (fun _ _ => by simp) ws s
@[simp] theorem State.writeSids_clk (s : State) (k c i : Nat) (ws : List (Nat × Word)) : (s.writeSids k c i ws).clk = s.clk :=
  foldl_keeps (·.clk) _ (fun _ _ => by simp) ws s
@[simp] theorem State.writeSids_ports (s : State) (k c i : Nat) (ws : List (Nat × Word)) : (s.writeSids k c i ws).ports = s.ports :=
  foldl_keeps (·.ports) _ (fun _ _ => by simp) ws s
@[simp] theorem State.writeSids_links (s : State) (k c i : Nat) (ws : List (Nat × Word)) : (s.writeSids k c i ws).links = s.links :=
  foldl_keeps (·.links) _ (fun _ _ => by simp) ws s
@[simp] theorem State.writeSids_net (s : State) (k c i : Nat) (ws : List (Nat × Word)) : (s.writeSids k c i ws).net = s.net :=
  foldl_keeps (·.net) _ (fun _ _ => by simp) ws s
@[simp] theorem State.writeSids_host (s : State) (k c i : Nat) (ws : List (Nat × Word)) : (s.writeSids k c i ws).host = s.host :=
  foldl_keeps (·.host) _ (fun _ _ => by simp) ws s
@[simp] theorem State.writeSids_setter (s : State) (k c i : Nat) (ws : List (Nat × Word)) : (s.writeSids k c i ws).setter = s.setter :=
  foldl_keeps (·.setter) _ (fun _ _ => by simp) ws s
@[simp] theorem State.writeSids_clasp (s : State) (k c i : Nat) (ws : List (Nat × Word)) : (s.writeSids k c i ws).clasp = s.clasp :=
  foldl_keeps (·.clasp) _ (fun _ _ => by simp) ws s
@[simp] theorem State.writeSids_boot (s : State) (k c i : Nat) (ws : List (Nat × Word)) : (s.writeSids k c i ws).boot = s.boot :=
  foldl_keeps (·.boot) _ (fun _ _ => by simp) ws s
@[simp] theorem State.writeSids_power (s : State) (k c i : Nat) (ws : List (Nat × Word)) : (s.writeSids k c i ws).power = s.power :=
  foldl_keeps (·.power) _ (fun _ _ => by simp) ws s
@[simp] theorem State.writeSids_gpio (s : State) (k c i : Nat) (ws : List (Nat × Word)) : (s.writeSids k c i ws).gpio = s.gpio :=
  foldl_keeps (·.gpio) _ (fun _ _ => by simp) ws s
@[simp] theorem State.writeSids_jtag (s : State) (k c i : Nat) (ws : List (Nat × Word)) : (s.writeSids k c i ws).jtag = s.jtag :=
  foldl_keeps (·.jtag) _ (fun _ _ => by simp) ws s
@[simp] theorem State.writeSids_out (s : State) (k c i : Nat) (ws : List (Nat × Word)) : (s.writeSids k c i ws).out = s.out :=
  foldl_keeps (·.out) _ (fun _ _ => by simp) ws s

/-! ### Writes into the Exchange RAM, host operations -/

@[simp] theorem State.putXram_pending (s : State) (ws : List (Nat × List Byte)) : (s.putXram ws).pending = s.pending := rfl
@[simp] theorem State.putXram_free (s : State) (ws : List (Nat × List Byte)) : (s.putXram ws).free = s.free := rfl
@[simp] theorem State.putXram_us (s : State) (ws : List (Nat × List Byte)) : (s.putXram ws).us = s.us := rfl
@[simp] theorem State.putXram_ns (s : State) (ws : List (Nat × List Byte)) : (s.putXram ws).ns = s.ns := rfl
@[simp] theorem State.putXram_facets (s : State) (ws : List (Nat × List Byte)) : (s.putXram ws).facets = s.facets := rfl
@[simp] theorem State.putXram_tiles (s : State) (ws : List (Nat × List Byte)) : (s.putXram ws).tiles = s.tiles := rfl
@[simp] theorem State.putXram_plane (s : State) (ws : List (Nat × List Byte)) : (s.putXram ws).plane = s.plane := rfl
@[simp] theorem State.putXram_sram (s : State) (ws : List (Nat × List Byte)) : (s.putXram ws).sram = s.sram := rfl
@[simp] theorem State.putXram_dram (s : State) (ws : List (Nat × List Byte)) : (s.putXram ws).dram = s.dram := rfl
@[simp] theorem State.putXram_clk (s : State) (ws : List (Nat × List Byte)) : (s.putXram ws).clk = s.clk := rfl
@[simp] theorem State.putXram_ports (s : State) (ws : List (Nat × List Byte)) : (s.putXram ws).ports = s.ports := rfl
@[simp] theorem State.putXram_links (s : State) (ws : List (Nat × List Byte)) : (s.putXram ws).links = s.links := rfl
@[simp] theorem State.putXram_net (s : State) (ws : List (Nat × List Byte)) : (s.putXram ws).net = s.net := rfl
@[simp] theorem State.putXram_host (s : State) (ws : List (Nat × List Byte)) : (s.putXram ws).host = s.host := rfl
@[simp] theorem State.putXram_setter (s : State) (ws : List (Nat × List Byte)) : (s.putXram ws).setter = s.setter := rfl
@[simp] theorem State.putXram_clasp (s : State) (ws : List (Nat × List Byte)) : (s.putXram ws).clasp = s.clasp := rfl
@[simp] theorem State.putXram_boot (s : State) (ws : List (Nat × List Byte)) : (s.putXram ws).boot = s.boot := rfl
@[simp] theorem State.putXram_power (s : State) (ws : List (Nat × List Byte)) : (s.putXram ws).power = s.power := rfl
@[simp] theorem State.putXram_health (s : State) (ws : List (Nat × List Byte)) : (s.putXram ws).health = s.health := rfl
@[simp] theorem State.putXram_gpio (s : State) (ws : List (Nat × List Byte)) : (s.putXram ws).gpio = s.gpio := rfl
@[simp] theorem State.putXram_jtag (s : State) (ws : List (Nat × List Byte)) : (s.putXram ws).jtag = s.jtag := rfl
@[simp] theorem State.putXram_out (s : State) (ws : List (Nat × List Byte)) : (s.putXram ws).out = s.out := rfl

@[simp] theorem State.hostPut_pending (s : State) (g : HostSys → HostSys × List (Nat × List Byte)) : (s.hostPut g).pending = s.pending := rfl
@[simp] theorem State.hostPut_free (s : State) (g : HostSys → HostSys × List (Nat × List Byte)) : (s.hostPut g).free = s.free := rfl
@[simp] theorem State.hostPut_us (s : State) (g : HostSys → HostSys × List (Nat × List Byte)) : (s.hostPut g).us = s.us := rfl
@[simp] theorem State.hostPut_ns (s : State) (g : HostSys → HostSys × List (Nat × List Byte)) : (s.hostPut g).ns = s.ns := rfl
@[simp] theorem State.hostPut_facets (s : State) (g : HostSys → HostSys × List (Nat × List Byte)) : (s.hostPut g).facets = s.facets := rfl
@[simp] theorem State.hostPut_tiles (s : State) (g : HostSys → HostSys × List (Nat × List Byte)) : (s.hostPut g).tiles = s.tiles := rfl
@[simp] theorem State.hostPut_plane (s : State) (g : HostSys → HostSys × List (Nat × List Byte)) : (s.hostPut g).plane = s.plane := rfl
@[simp] theorem State.hostPut_sram (s : State) (g : HostSys → HostSys × List (Nat × List Byte)) : (s.hostPut g).sram = s.sram := rfl
@[simp] theorem State.hostPut_dram (s : State) (g : HostSys → HostSys × List (Nat × List Byte)) : (s.hostPut g).dram = s.dram := rfl
@[simp] theorem State.hostPut_clk (s : State) (g : HostSys → HostSys × List (Nat × List Byte)) : (s.hostPut g).clk = s.clk := rfl
@[simp] theorem State.hostPut_ports (s : State) (g : HostSys → HostSys × List (Nat × List Byte)) : (s.hostPut g).ports = s.ports := rfl
@[simp] theorem State.hostPut_links (s : State) (g : HostSys → HostSys × List (Nat × List Byte)) : (s.hostPut g).links = s.links := rfl
@[simp] theorem State.hostPut_net (s : State) (g : HostSys → HostSys × List (Nat × List Byte)) : (s.hostPut g).net = s.net := rfl
@[simp] theorem State.hostPut_setter (s : State) (g : HostSys → HostSys × List (Nat × List Byte)) : (s.hostPut g).setter = s.setter := rfl
@[simp] theorem State.hostPut_clasp (s : State) (g : HostSys → HostSys × List (Nat × List Byte)) : (s.hostPut g).clasp = s.clasp := rfl
@[simp] theorem State.hostPut_boot (s : State) (g : HostSys → HostSys × List (Nat × List Byte)) : (s.hostPut g).boot = s.boot := rfl
@[simp] theorem State.hostPut_power (s : State) (g : HostSys → HostSys × List (Nat × List Byte)) : (s.hostPut g).power = s.power := rfl
@[simp] theorem State.hostPut_health (s : State) (g : HostSys → HostSys × List (Nat × List Byte)) : (s.hostPut g).health = s.health := rfl
@[simp] theorem State.hostPut_gpio (s : State) (g : HostSys → HostSys × List (Nat × List Byte)) : (s.hostPut g).gpio = s.gpio := rfl
@[simp] theorem State.hostPut_jtag (s : State) (g : HostSys → HostSys × List (Nat × List Byte)) : (s.hostPut g).jtag = s.jtag := rfl
@[simp] theorem State.hostPut_out (s : State) (g : HostSys → HostSys × List (Nat × List Byte)) : (s.hostPut g).out = s.out := rfl

@[simp] theorem State.hostPut_host (s : State) (g : HostSys → HostSys × List (Nat × List Byte)) : (s.hostPut g).host = (g s.host).1 := rfl

end Sys2Proof.Machine
end

