-- ==== Sys2Proof/Tests/Slice0.lean ====
section
/-!
SUPPORT. Tests: ill-formed commands are refused, the spec's worked figures, and for each obligation with hypotheses a witness: states and
operands that meet the hypotheses of each of its clauses.
-/

namespace Sys2Proof.Tests

open Sys2Proof Sys2Proof.Machine

set_option maxRecDepth 100000

/-! ### States that the tests use -/
/-- A device in full service: core PLL locked, every core released, 100 s after POR. -/
def wB : State :=
  { State.reset with
    clk := { ClkSys.reset with coreLock := true }
    boot := { Boot.reset with at_ := .full, code := 8, rel := 7 }
    us := 100000000, ns := 5000000000 }

/-- The same with Facet, tile, domain, port, lane, partition `n` as given. -/
def wFac (n : Nat) (f : Facet) : State := { wB with facets := [(n, f)] }
def wTile (n : Nat) (t : Tile) : State := { wB with tiles := [(n, t)] }
def wDom (k : Nat) (d : Dom) : State := { wB with clk := { wB.clk with doms := [(k, d)], active := 1 } }
def wPort (p : Nat) (q : SerPort) : State := { wB with ports := { Serial.reset with ports := [(p, q)] } }
def wLane (n : Nat) (l : Lane) : State := { wB with links := { LinkSys.reset with lanes := [(n, l)] } }
def wPart (p : Nat) (q : Part) : State := { wB with host := { HostSys.reset with parts := [(p, q)], pcie := { bme := 15, d3 := 0, width := 4, speed := 4 } } }
/-- A running rate domain. -/
def wRun : Dom := { Dom.reset with run := true, declared := true, st := .locked, next := 100, lastNs := 4999000000, rate := 1 }
/-- An entry of operation `op` of partition `p` with argument bytes `args`. -/
def wEnt (op p : Nat) (args : List Byte) : Entry :=
  { part := p, sq := 0, cq := 0, cmdId := 7, op := op, addr := 0, len := 0, args := args, data := none, wait := false, fail := false, session := 0 }
/-- The entry at the front of intake. -/
def wIn (e : Entry) : State := { wB with setter := { SetterSys.reset with intake := [e] } }

/-- A device whose core PLL has just locked, with a copy of the boot header at flash byte `at_`: opcode 0x0B, 20 dummy cycles, 200 MHz. -/
def wHdr (at_ : Nat) : State :=
  let h := [0x44, 0x5A, 0x42, 0x48, 0, 1, 0x0B, 20] ++ leBytes 2 200
  let crc := leBytes 4 (crc32c (h ++ List.replicate 4082 0xFF))
  { wB with boot := { Boot.reset with flash := Memory.setRun erased (Memory.setRun erased [] at_ h) (at_ + 0xFFC) crc } }

/-- A frame of the recovery loader (R452). -/
def recWire (t : Nat) (p : List Byte) : List Byte :=
  let body := leBytes 1 t ++ leBytes 2 p.length ++ p
  [0xA5] ++ body ++ leBytes 4 (crc32c body)
/-- The recovery loader, having taken the bytes `b`. -/
def wRec (b : List Byte) : State := { State.reset with clk := wB.clk, boot := { Boot.reset with at_ := .recovery, rec_ := b } }

/-- The same with trained DRAM, the media PLL, media network or a domain as given. -/
def wDram (d : DramSys) : State := { wB with dram := { d with trained := true, densA := 1, ranksA := 1, densB := 1, ranksB := 1, mibA := 896, mibB := 896 } }
def wClk (c : ClkSys) : State := { wB with clk := { c with coreLock := true } }
def wNet (n : NetSys) : State := { wB with net := n }
/-- A port and its link enabled. -/
def wUp : NetPort := { NetPort.reset with ctl := 0x101, link := true, macLo := 0x020000, ip := 0x0A000001, mask := 0xFF000000 }

/-- An epoch of partition `p` under law `l` that is armed, with sink changes `x`, in the domains `d`. -/
def wArm (p : Nat) (l : Law) (x : List SinkChg) (d : Nat) : Armed :=
  { part := p, from_ := some (wEnt 1 p []), tag := 5, number := 1, law := l, old := Graph.empty, new := Graph.empty, sinks := x, x := 240, pre := 0
    anchor := 0, doms := d, p := [0, 0, 0], c := [10, 10, 10], f := [50, 50, 50], begun := d, force := d, gone := d, done := false, chg := [], marks := []
    dip := false, shed := false, geo := [], redo := d, undecl := 0, tap := false, work := Placed.none_, swaps := d, use0 := [], cuts := [] }

/-- A held partition 3 with the given block; the AES-keyed boot of a device in life-cycle state 1. -/
def wHeld (q : Part) : State := wPart 3 { q with holder := some 0 }
def wKeyed : Boot := { wB.boot with devKey := some (List.replicate 32 1), otp := { Otp.blank with lc := 3 } }
/-- An enabled ring of two entries. -/
def wRing : Ring := { Ring.reset with cfg := 0x80000001 }
/-- Partitions 2 and 3 held, each with an entry waiting in its ring 7. -/
def wTwo : State :=
  let q : Part := { Part.reset with holder := some 0, sq := [(7, { wRing with host := 1 })] }
  { wB with host := { HostSys.reset with parts := [(2, q), (3, q)], pcie := { bme := 15, d3 := 0, width := 4, speed := 4 } } }

/-- The record of a finished image in slot 1, and flash that holds it in copy A alone. -/
def wRec1 : Ledger := { slot := 1, state := 2, seq := 1, len := 10, hhash := List.replicate 16 0, at_ := 0 }
def wLedger : Boot := { wB.boot with flash := Memory.setRun erased [] 0x10000 wRec1.bytes }

theorem get_above {α : Type} (d : Nat → α) (m : Memory α) (a : Nat) (h : ∀ e ∈ m, e.1 < a) : Memory.get d m a = d a := by
  induction m with
  | nil => rfl
  | cons e r ih =>
    simp only [List.mem_cons, forall_eq_or_imp] at h
    simp [Memory.get, Nat.ne_of_lt h.1, ih h.2]

theorem ledger_blank (c i : Nat) (h : ∀ e ∈ wLedger.flash, e.1 < ledgerBase c + 32 * i) : wLedger.ledgerAt c i = none := by
  have : wLedger.read (ledgerBase c + 32 * i) 32 = (List.range 32).map fun _ => (0xFF : Byte) := by
    simp only [Boot.read, Memory.getRun]
    exact List.map_congr_left fun j _ => get_above _ _ _ fun e he => Nat.lt_of_lt_of_le (h e he) (Nat.le_add_right _ _)
  simp only [Boot.ledgerAt, this]
  exact if_neg (by decide)

theorem wLedger_current : wLedger.current 1 = some wRec1 := by
  have hb : ∀ e ∈ wLedger.flash, e.1 < 0x10000 + 32 := by decide +kernel
  have h0 : wLedger.currentIn 0 1 = some wRec1 := by
    have : (List.range ledgerSize).filterMap (fun i => wLedger.ledgerAt 0 i) = [wRec1] := by
      rw [show ledgerSize = 2047 + 1 from rfl, List.range_succ_eq_map, List.filterMap_cons, show wLedger.ledgerAt 0 0 = some wRec1 by decide +kernel,
        List.filterMap_map]
      simp only [List.cons.injEq, List.filterMap_eq_nil_iff, true_and]
      intro i _
      exact ledger_blank 0 _ fun e he => Nat.lt_of_lt_of_le (hb e he) (by simp [ledgerBase]; omega)
    simp only [Boot.currentIn, this]; decide
  have h1 : wLedger.currentIn 1 1 = none := by
    have : (List.range ledgerSize).filterMap (fun i => wLedger.ledgerAt 1 i) = [] := by
      simp only [List.filterMap_eq_nil_iff]
      intro i _
      exact ledger_blank 1 _ fun e he => Nat.lt_of_lt_of_le (hb e he) (by simp [ledgerBase]; omega)
    simp only [Boot.currentIn, this]; rfl
  simp only [Boot.current, h0, h1]; rfl

/-- A valid early block without ports, routes or paths. -/
def wEarly : List Byte :=
  let b := leBytes 4 0x42455A44 ++ leBytes 4 0x0100 ++ List.replicate 4084 0
  b ++ leBytes 4 (crc32c b)

/-- A plan that gives nothing. -/
def wPlan : Plan := { refuse := none, dip := false, sids := [], pads := [], hops := [], ctxs := [], lanes := [], blocks := [], sinks := [], lines := [], geo := [], facs := [], earliest := 0, shed := [] }

/-- A sink on TDM port 15 in domain 2. -/
def wSinkNode : GNode := { id := 1, typ := tSnkPort, cls := 0, dom := 2, nIn := 1, nOut := 0, name := [], attr := [0, 15, 0, 0], slots := [], adm := 1, sids := [], cross := [], pads := [], hops := [], ctx := 0, lanes := [], off := 0 }
def wSink : Graph := { Graph.empty with nodes := [wSinkNode] }

/-- A delay line of 500 samples in Facet 63's Y memory, and a graph of partition 3 that holds its node. -/
def wLine : LinePlace := { node := 1, kind := .delay, chan := 0, id := 2, facet := 63, inp := 0, out := 1, base := 2, len := 500, dram := false, ch := 0, area := 0, wring := 0, rring := 0, nb := 9, bundles := 9 }
def wLineRec : LineRec := { part := 3, dom := 2, cls := 2, at_ := wLine, d := 500, inSid := none, sid := 7 }
def wWork : Placed := ⟨[], [wLineRec], []⟩
def wDelay : Graph := { Graph.empty with nodes := [{ wSinkNode with typ := tDelay, cls := 2, nOut := 1, sids := [7] }] }

/-- The smallest full file of partition 3: no node, one COMMIT at once. -/
def wFile : List Byte :=
  let a := leBytes 4 0x314E5146 ++ leBytes 2 0x0100 ++ [0, 3] ++ leBytes 4 104
  let b := leBytes 4 0xFFFFFFFF ++ leBytes 4 77 ++ leBytes 4 0 ++ leBytes 4 64 ++ leBytes 8 0 ++ leBytes 8 0 ++ leBytes 4 0 ++ leBytes 4 72 ++ leBytes 8 0 ++
    leBytes 8 0 ++ leBytes 4 1 ++ leBytes 4 24 ++ [0x0F, 0] ++ leBytes 2 24 ++ leBytes 4 0 ++ [2, 0] ++ leBytes 2 240 ++ leBytes 4 0 ++ leBytes 8 0
  a ++ leBytes 4 (crc32c (a ++ leBytes 4 0 ++ b)) ++ b
/-- What it is admitted as. -/
def wBuild : Build :=
  { entry := { wEnt 1 3 [] with data := some wFile }
    law := .blend
    fq := { part := 3, full := true, tag := 77, graph := Graph.empty, doms := [], commit := ⟨2, 0, 240, 0⟩, param := false, chgs := [], recs := 1, groups := true }
    plan := { wPlan with earliest := 4 }, graph := Graph.empty, chg := [], marks := [], sinks := [] }

/-! ### Well-formedness -/

theorem test_ill_formed_first : (
    [.s0Start (some (256, 0, 50)) false, .s0Start (some (0, 32, 50)) false, .s0Start (some (0, 0, 201)) false, .s1Start [129],
     .dramTrainingDone false 16 0 0 0, .dramTrainingDone false 0 4 0 0, .dramTrainingDone false 0 0 16 0, .dramTrainingDone false 0 0 0 4,
     .tamperEvent 0, .tamperEvent 4, .locketAccess .bist 65536 none, .domainTick 3 0 0 [], .domainTick 0 0 0 [(128, 0)],
     .controlFabricAccess 4 0 none, .controlFabricAccess 0 (2 ^ 40) none, .facetGatherDone 64, .bundleIssue 64, .operationLanding 64,
     .sharedBankStallEnd 64, .loopExit 64, .facetPostDone 64 0, .tileAccumulationDone 32 0, .updatePush 32 0, .gainTimeout 32,
     .gainRampDone 32, .bankAccess 128 0 [] [], .bankAccess 0 0 [⟨.tile 32, 0, .read⟩] [], .bankAccess 0 0 [⟨.core 0, 1, .read⟩] [],
     .bankAccess 0 0 [⟨.facet 0, 0, .read⟩] [], .bankAccess 0 0 [⟨.tdm 0, 0, .swap 1⟩] []] : List Instr).all (fun i => !i.wf) = true := by decide

theorem test_ill_formed_second : (
    [.bankAccess 0 0 [⟨.core 0, 2 ^ 22, .read⟩] [], .atomicComplete 128, .pacerRelease 128 0, .xramPortAAccess 4 0 none,
     .xramPortAAccess 0 65536 none, .xramPortBAccess ⟨3, 0, 0, none⟩ none, .xramPortBAccess ⟨0, 5, 0, none⟩ none,
     .xramPortBAccess ⟨0, 0, 65536, none⟩ none, .hostDmaAccess 4 0 0 .read, .hostDmaAccess 0 4 0 .read, .hostDmaAccess 0 0 (2 ^ 22) .read,
     .hostDmaAccess 0 0 0 (.addW 1), .dramAccess 2 [] [], .dramAccess 0 [⟨.core 0, 2 ^ 31, 1, []⟩] [],
     .dramAccess 0 [⟨.dma 0, 0, 1, []⟩] [], .dramAccess 0 [⟨.core 0, 0, 1, [1]⟩] [], .dramAccess 0 [⟨.core 0, 0, 0, []⟩] [],
     .dqsTracking 2, .mr4Read 2 [], .dramRefresh 2, .corePllLost 0, .corePllLost 3, .rescueRecommit 4, .referenceLoss 2 [0, 0, 0] 0,
     .referenceLoss 0 [] 0, .referenceQualified 2 [0, 0, 0] 0, .referenceQualified 0 [] 0, .mpllSourceWrite 7 0 [0, 0, 0] 0,
     .mpllSourceWrite 0 8 [0, 0, 0] 0, .mpllSourceWrite 0 0 [] 0] : List Instr).all (fun i => !i.wf) = true := by decide

theorem test_ill_formed_third : (
    [.mpllEnableWrite 7 false [0, 0, 0] 0, .mpllEnableWrite 0 false [] 0, .tolClamp 3, .clampExit 3 0, .slewDone 3 0, .stepFadeEnd 3,
     .policyWrite 7 0 0, .policyWrite 0 3 0, .policyWrite 0 0 4, .stepNow 7 0, .stepNow 0 3, .slewAny 7 0, .slewAny 0 3, .domainStop 3,
     .domainRestart 3, .domainTickRead 7 0, .domainTickRead 0 3, .clkoutConfigWrite 7 0 false 0, .clkoutConfigWrite 0 8 false 0, .linkUp 2,
     .linkDown 2 false false false, .i2cTransfer 7 0, .i2cDone true 256, .frameReceive 2 0 [] [0, 0, 0] 0, .frameReceive 0 0 [] [] 0,
     .gratuitousArp 2, .arpRefresh 2 0, .arpRefresh 0 (2 ^ 32), .arpRetry 2 0, .arpRetry 0 (2 ^ 32)] : List Instr).all (fun i => !i.wf) = true := by decide

theorem test_ill_formed_fourth : (
    [.arpUnresolved 2 0, .arpUnresolved 0 (2 ^ 32), .igmpQueryResponse 2, .igmpReportRetransmit 2, .legLoss 1024 0 0, .legLoss 0 2 0,
     .streamLoss 1024 0, .packetDeparture 1024 0, .announceTimeout 2 [0, 0, 0] 0, .announceTimeout 0 [] 0, .syncTimeout 2 [0, 0, 0] 0,
     .syncTimeout 0 [] 0, .ptpAnnounceTx 2 0, .ptpSyncTx 2 0, .ptpDelayReqTx 2 0, .portFrameRx 36 ⟨0, [], 0, 0, [], 0, [], false⟩,
     .inputLoss 36, .lossRecovery 36, .portFadeOutEnd 36, .portRampBackEnd 36, .rateUpdate 36 0 0, .tdmCommit 7 0, .tdmCommit 0 16,
     .tdmCommitApply 16, .portRestart 7 0, .portRestart 0 36, .startArm 7 0, .linkSlip 2048, .linkUnlock 2048 false, .laneLocked 2048] : List Instr).all (fun i => !i.wf) = true := by decide

theorem test_ill_formed_fifth : (
    [.claimStart 7, .claimSubmit 7, .claimResult 4, .claimRelease 7, .enrol 7, .nonceExpiry 4, .lockoutExpiry 7, .partitionReset 7,
     .sqDoorbell 7 0 0, .sqDoorbell 0 8 0, .sqDoorbell 0 0 (2 ^ 16), .cqDoorbell 7 0 0, .cqDoorbell 0 8 0, .cqDoorbell 0 0 (2 ^ 16),
     .frDoorbell 7 0, .frDoorbell 0 (2 ^ 16), .entryFetched 4 (List.replicate 64 0) [], .entryFetched 0 [] [],
     .entryFetched 0 (List.replicate 64 0) [(0, List.replicate 64 0)], .entryFetched 0 (List.replicate 64 0) [(4, List.replicate 64 0)],
     .entryFetched 0 (List.replicate 64 0) [(1, [])], .completionWrite 4, .interruptCoalesceTimeout 4 0, .interruptCoalesceTimeout 0 8,
     .dmaReadComplete 4 0 none, .dmaReadComplete 0 66 none, .dmaTimeout 4 0, .dmaTimeout 0 66, .flr 4, .perstN 3 0] : List Instr).all (fun i => !i.wf) = true := by decide

theorem test_ill_formed_sixth : (
    [.perstN 0 5, .recordTapBlockWrite 4 0, .recordTapBlockWrite 0 64, .meterWindowEnd 4 0, .spiReadFrame 2 0 0 0 [],
     .spiReadFrame 0 (2 ^ 32) 0 0 [], .spiReadFrame 0 0 33 0 [], .spiWriteFrame 2 0 0 [] [], .spiWriteFrame 0 (2 ^ 32) 0 [] [],
     .spiWriteFrame 0 0 33 [] [], .registerWrite 0 0 4 0 none [(0, 0)], .registerWrite 0 0 0 0 none [], .registerWrite 0 0 5 0 none [],
     .registerWrite 7 0 4 0 none [], .registerWrite 0 (2 ^ 20) 4 0 none [], .armingComplete [0, 0], .epochCompletion 4, .removalSwap 4,
     .dipSwap 4, .fadeInStart 4, .delayGeometrySwap 4, .smoothStep 4, .unitRetired 3 0 [], .unitRetired 1 64 [], .unitRetired 2 32 [],
     .unitRetired 4 128 [], .unitRetired 15 32 [], .unitRetired 1 0 [(4, wPlan)], .lifelineFrame [(36, [])], .lifelineClockMove 36] : List Instr).all (fun i => !i.wf) = true := by decide

theorem test_ill_formed_seventh : (
    [.unitGate 3 0, .unitGate 0 64, .unitGate 2 32, .supplyLimit 11, .tempLimit (2 ^ 16), .faultClear 7, .gpioAccept 16 false,
     .gpioStuck 16, .gpioRearm 7 0, .gpioRearm 0 (2 ^ 16), .supplyExcursionEnd 11, .busMasterEnable 4 false, .ringEnWrite 7 0 0 0,
     .ringEnWrite 0 3 0 0, .ringEnWrite 0 0 8 0, .tapEnWrite 7 0 0, .tapEnWrite 0 64 0, .portEnWrite 7 0 0, .portEnWrite 0 36 0,
     .netPortEnWrite 7 0 0, .netPortEnWrite 0 2 0, .ptpCtlWrite 7 0 [0, 0, 0] 0, .ptpCtlWrite 0 0 [] 0, .latchingRegisterRead 0 0 0,
     .latchingRegisterRead 0 0 5, .latchingRegisterRead 7 0 4, .latchingRegisterRead 0 (2 ^ 20) 4, .igmpCompatTimeout 2] : List Instr).all (fun i => !i.wf) = true := by decide

theorem test_well_formed_first : (
    [.s0Start none false, .s1Start [], .dramTrainingDone false 0 0 0 0, .tamperEvent 1, .locketAccess .bist 0 none, .domainTick 0 0 0 [],
     .controlFabricAccess 0 0 none, .facetGatherDone 0, .bundleIssue 0, .operationLanding 0, .sharedBankStallEnd 0, .loopExit 0,
     .facetPostDone 0 0, .tileAccumulationDone 0 0, .updatePush 0 0, .gainTimeout 0, .gainRampDone 0, .bankAccess 0 0 [] [],
     .atomicComplete 0, .pacerRelease 0 0, .xramPortAAccess 0 0 none, .xramPortBAccess ⟨0, 0, 0, none⟩ none, .hostDmaAccess 0 0 0 .read,
     .dramAccess 0 [] [], .dqsTracking 0, .mr4Read 0 [], .dramRefresh 0, .corePllLost 1, .rescueRecommit 0, .referenceLoss 0 [0, 0, 0] 0,
     .referenceQualified 0 [0, 0, 0] 0, .mpllSourceWrite 0 0 [0, 0, 0] 0, .mpllEnableWrite 0 false [0, 0, 0] 0, .tolClamp 0,
     .clampExit 0 0, .slewDone 0 0, .stepFadeEnd 0, .policyWrite 0 0 0, .stepNow 0 0, .slewAny 0 0, .domainStop 0, .domainRestart 0,
     .domainTickRead 0 0, .clkoutConfigWrite 0 0 false 0, .linkUp 0, .linkDown 0 false false false, .i2cTransfer 0 0, .i2cDone false 0,
     .frameReceive 0 0 [] [0, 0, 0] 0, .gratuitousArp 0, .arpRefresh 0 0, .arpRetry 0 0, .arpUnresolved 0 0, .igmpQueryResponse 0,
     .igmpReportRetransmit 0, .legLoss 0 0 0, .streamLoss 0 0, .packetDeparture 0 0, .announceTimeout 0 [0, 0, 0] 0,
     .syncTimeout 0 [0, 0, 0] 0] : List Instr).all (fun i => i.wf) = true := by decide

theorem test_well_formed_second : (
    [.ptpAnnounceTx 0 0, .ptpSyncTx 0 0, .ptpDelayReqTx 0 0, .portFrameRx 0 ⟨0, [], 0, 0, [], 0, [], false⟩, .inputLoss 0, .lossRecovery 0,
     .portFadeOutEnd 0, .portRampBackEnd 0, .rateUpdate 0 0 0, .tdmCommit 0 0, .tdmCommitApply 0, .portRestart 0 0, .startArm 0 0,
     .linkSlip 0, .linkUnlock 0 false, .laneLocked 0, .claimStart 0, .claimSubmit 0, .claimResult 0, .claimRelease 0, .enrol 0,
     .nonceExpiry 0, .lockoutExpiry 0, .partitionReset 0, .sqDoorbell 0 0 0, .cqDoorbell 0 0 0, .frDoorbell 0 0,
     .entryFetched 0 (List.replicate 64 0) [], .completionWrite 0, .interruptCoalesceTimeout 0 0, .dmaReadComplete 0 0 none,
     .dmaTimeout 0 0, .flr 0, .perstN 0 0, .recordTapBlockWrite 0 0, .meterWindowEnd 0 0, .spiReadFrame 0 0 0 0 [],
     .spiWriteFrame 0 0 0 [] [], .registerWrite 0 0 4 0 none [], .armingComplete [0, 0, 0], .epochCompletion 0, .removalSwap 0, .dipSwap 0,
     .fadeInStart 0, .delayGeometrySwap 0, .smoothStep 0, .unitRetired 1 0 [], .lifelineFrame [], .lifelineClockMove 0, .unitGate 0 0,
     .supplyLimit 0, .tempLimit 0, .faultClear 0, .gpioAccept 0 false, .gpioStuck 0, .gpioRearm 0 0, .supplyExcursionEnd 0,
     .busMasterEnable 0 false, .ringEnWrite 0 0 0 0, .tapEnWrite 0 0 0] : List Instr).all (fun i => i.wf) = true := by decide

theorem test_well_formed_third : (
    [.portEnWrite 0 0 0, .netPortEnWrite 0 0 0, .ptpCtlWrite 0 0 [0, 0, 0] 0, .latchingRegisterRead 0 0 4, .igmpCompatTimeout 0] : List Instr).all (fun i => i.wf) = true := by decide

/-! ### Worked figures of the spec -/

/-- The example after R76: a Q4.28 sample of 0.75 times a Q1.31 coefficient of −0.5, with the MAC slot of the bundle that the spec encodes
field by field, adds −0.375 to accumulator 4. -/
theorem test_mac_of_the_encoded_bundle :
    (4, Eff.acc 4 0xFFFFFFA0000000000000#80) ∈ macExec { Facet.reset.u with d := [(2, 0xC0000000), (8, 0x0C000000)] } 0x16C0880000 := by
  decide

/-- The example after R76: 9.0 saturates to 0x7FFFFFFF with S = 1 and reads as −7.0 with S = 0. -/
theorem test_writeback_of_nine :
    wb32 (9 * 2 ^ 28) true = (0x7FFFFFFF, true) ∧ wb32 (9 * 2 ^ 28) false = (0x90000000, false) := by decide

/-- The examples after R136 and R138. -/
theorem test_circular_updates :
    circNext 0x102C 0x1000 48 6 = (0x1002, false) ∧ circNext 0x102C 0x1000 48 (-100) = (0x1000, true) ∧
    circNext 0x102C 0x1000 32 1 = (0x100D, false) ∧ circNext 0x1040 0x1000 32 1 = (0x1000, true) := by decide

/-- The example after R194: the first and the last value of the ramp, and the step at a sign change. -/
theorem test_gain_ramp :
    let it : GainItem := ⟨0, 525533, 480, false, 1000000, 1048576, none, none⟩
    gainStep it true 1000479 1000 = (1048576, false) ∧ gainStep it true 1000480 1000 = (1032230, false) ∧
    gainStep it true 1000511 1000 = (525533, true) ∧
    gainStep { it with sign := some false } true 1000002 (BitVec.ofInt 32 (-13421773)) = (525533, true) := by decide

/-- The example after R196: the INV_N scale of five sources, and the first step towards it. -/
theorem test_automatic_scale :
    targetScale 1 4 = 2097152 ∧ targetScale 1 5 = 1677722 ∧
    (({ scale := 2097152, lastN := 4, left := 0, from_ := 0, dest := 0, init := false } : SinkSlot).step 5 1677722).scale = 2090598 := by decide

/-- The example after R187: eight SIDs of which three read bank 1 stall the row twice. -/
theorem test_row_stalls :
    let sids := [0x0101, 0x0109, 0x0112, 0x0113, 0x0119, 0x0124, 0x0125, 0x0126]
    rowStalls { Tile.reset with entries := (List.range 8).map fun k => (k, BitVec.ofNat 48 (sids.getD k 0 * 2 ^ 33 + 2 ^ 8)) } 0 = 2 := by decide

/-- The example after R271: bank 37 in copy-back at k = 1,000; the atomic adds 5 to the spare's 20, and the move carries 25 into the bank. -/
theorem test_atomic_while_the_spare_is_lent :
    let m : MemSys := { MemSys.reset with phase := .copyBack, bistBank := 37, k := 1000, spare := [(1000, 20)] }
    let r := m.access ⟨.core 1, 128 * 1000 + 37, .addW 5⟩
    r.2 = 20 ∧ r.1.raw .spare 1000 = 25 ∧ r.1.moveWord.raw .bank (128 * 1000 + 37) = 25 ∧ r.1.moveWord.k = 1001 := by decide

/-- The example after R375: −6.0 dB in the four tap formats, and its return from P24. -/
theorem test_tap_formats :
    tapOut 0 0x0804DCE8 = [0xE7, 0x26, 0x40] ∧ tapOut 1 0x0804DCE8 = [0x00, 0xE7, 0x26, 0x40] ∧
    tapOut 2 0x0804DCE8 = [0xE7, 0x26, 0x40, 0x00] ∧ tapOut 3 0x0804DCE8 = [0xE8, 0xDC, 0x04, 0x08] ∧
    tapIn 0 [0xE7, 0x26, 0x40] = 0x0804DCE0 := by decide

/-- The 120-byte patch file of the example after R232. -/
def patchFile : List Byte :=
  let a : List Byte := [0x46, 0x51, 0x4E, 0x31, 0x00, 0x01, 0x01, 0x00, 0x78, 0x00, 0x00, 0x00]
  let b : List Byte := [0x11, 0x00, 0x00, 0x00, 0x51, 0x0A, 0x00, 0x00] ++ List.replicate 28 0 ++ [0x40, 0x00, 0x00, 0x00] ++ List.replicate 8 0 ++
    [0x02, 0x00, 0x00, 0x00, 0x30, 0x00, 0x00, 0x00, 0x04, 0x00, 0x18, 0x00, 0x01, 0x20, 0x00, 0x00, 0x0B, 0x00, 0x01, 0x00, 0x03, 0x01, 0x00, 0x00,
     0x06, 0x00, 0x00, 0x00, 0x00, 0x00, 0x00, 0x00, 0x0F, 0x00, 0x18, 0x00, 0x00, 0x00, 0x00, 0x00, 0x00, 0x00, 0xF0, 0x00, 0x00, 0x00, 0x00, 0x00,
     0x00, 0x5C, 0x26, 0x05, 0x00, 0x00, 0x00, 0x00]
  a ++ leBytes 4 (crc32c (a ++ List.replicate 4 0 ++ b)) ++ b

/-- Its header passes against epoch 17, its records start at 0x48 and 0x60, and its COMMIT asks for tick 86,400,000 of D0. -/
theorem test_patch_file :
    patchFile.length = 120 ∧
    headerCheck { part := 0, graph := Graph.empty, epoch := 17, decl := [], usedP := 0, usedO := 0, grants := [], sidDom := [], ptpDoms := 0, records := 0, ctl := [], tdmDom := [], running := 7 } patchFile = none ∧
    (fqRecBody patchFile).starts = [0x48, 0x60] ∧ fqCommit patchFile 0x60 = ⟨0, 0, 240, 86400000⟩ := by decide +kernel

/-! ### Check values of the standards that the spec names -/

/-- The check values of CRC-32 and CRC-32C over the digits 1 to 9. -/
theorem test_crc_check_values :
    crc32 ("123456789".toList.map fun c => BitVec.ofNat 8 c.toNat) = 0xCBF43926 ∧
    crc32c ("123456789".toList.map fun c => BitVec.ofNat 8 c.toNat) = 0xE3069283 := by decide +kernel

/-- FIPS 180-4: the first bytes of SHA-256 and SHA-384 of "abc". -/
theorem test_sha2_of_abc :
    (sha256 [0x61, 0x62, 0x63]).take 4 = [0xBA, 0x78, 0x16, 0xBF] ∧ (sha384 [0x61, 0x62, 0x63]).take 4 = [0xCB, 0x00, 0x75, 0x3F] := by decide +kernel

/-- FIPS 197, appendix C.3: AES-256. -/
theorem test_aes256 :
    (aesEnc ((List.range 32).map fun i => BitVec.ofNat 8 i) ((List.range 16).map fun i => 17 * i)).take 4 = [0x8E, 0xA2, 0xB7, 0xCA] := by decide +kernel

/-! ### Single commands -/

/-- A doorbell of 1 at an enabled ring of two entries moves its tail; 2 lies outside: it is discarded and sets the ring's bit in PRT_RINGERR (R404). -/
theorem test_doorbell :
    (match exec (.sqDoorbell 3 7 1) (wHeld { Part.reset with sq := [(7, wRing)] }) with
      | .next t => ((t.host.part 3).ring true 7).host == 1 && (t.host.part 3).ringErr == 0
      | _ => false) = true ∧
    (match exec (.sqDoorbell 3 7 2) (wHeld { Part.reset with sq := [(7, wRing)] }) with
      | .next t => ((t.host.part 3).ring true 7).host == 0 && (t.host.part 3).ringErr == 0x80
      | _ => false) = true := by decide

/-- The core PLL locks; the lifeline PLL follows REFIN0 when the early block asks for it and REFIN0 is present (R298, R430). -/
theorem test_lock_events :
    (match exec .corePllLock State.reset with | .next t => t.clk.coreLock | _ => false) = true ∧
    (match exec (.lifelinePllLock true) { wB with clasp := { Clasp.reset with flags := 2 }, clk := { wB.clk with present := (true, false) } } with
      | .next t => t.clasp.pll == .refin
      | _ => false) = true := by decide

/-! ### Witnesses of the obligations -/

theorem witness_EmptyQueueLetsAMicrosecondPass :
    ∃ (s : State),
    s.pending = [] :=
  ⟨State.reset, by decide⟩

theorem witness_IllFormedCommandsChangeNothing :
    ∃ (i : Instr) (s : State),
    s.quiet = true ∧ s.unitsWf = true ∧ i.wf = false :=
  ⟨.facetGatherDone 64, State.reset, by decide⟩

theorem witness_CommandsKeepTheQueue :
    ∃ (i : Instr) (s : State) (t : State),
    exec i s = .next t :=
  ⟨.por, State.reset, State.reset, by rfl⟩

theorem witness_StoresStayCanonical :
    ∃ (s : State) (t : State),
    s.ramsWf = true ∧ s.unitsWf = true ∧ step s = .next t :=
  ⟨{ State.reset with pending := [.por] }, State.reset, ⟨by decide, by decide, by rfl⟩⟩

theorem witness_BlocksStopOnlyInAHandshake :
    ∃ (s : State) (t : State),
    s.handshakeOk = true ∧ step s = .next t :=
  ⟨{ State.reset with pending := [.por] }, State.reset, ⟨by decide, by rfl⟩⟩

theorem witness_ResetPinRestartsAllButAonAndClasp :
    ∃ (s : State),
    s.power.phase = .run :=
  ⟨wB, by decide⟩

theorem witness_EarlyBlockAndCorePllStart :
    (∃ (s : State),
    s.clasp.stage = .reading) ∧
    (∃ (s : State),
    s.clasp.stage = .read_) ∧
    (∃ (s : State),
    s.awake = true ∧ s.clk.coreLock = false) ∧
    (∃ (s : State),
    s.awake = true ∧ s.boot.at_ = .wait ∧ s.clk.coreLock = false ∧ s.boot.startFail = false) :=
  ⟨⟨State.reset, by decide⟩,
    ⟨{ State.reset with clasp := { Clasp.reset with stage := .read_ } }, by decide⟩,
    ⟨State.reset, by decide⟩,
    ⟨State.reset, by decide⟩⟩

theorem witness_S0AndS1Start :
    (∃ (s : State) (sfdp : Option (Nat × Nat × Nat)) (x : _),
    (∀ x, sfdp = some x → x.1 < 256 ∧ x.2.1 < 32 ∧ x.2.2 ≤ 200) ∧ s.awake = true ∧ s.boot.at_ = .wait ∧ s.clk.coreLock = true ∧
      s.boot.header 0 = some x) ∧
    (∃ (s : State) (sfdp : Option (Nat × Nat × Nat)) (x : _),
    (∀ x, sfdp = some x → x.1 < 256 ∧ x.2.1 < 32 ∧ x.2.2 ≤ 200) ∧ s.awake = true ∧ s.boot.at_ = .wait ∧ s.clk.coreLock = true ∧
      s.boot.header 0 = none ∧ s.boot.header 1 = some x) ∧
    (∃ (s : State) (sfdp : Option (Nat × Nat × Nat)),
    (∀ x, sfdp = some x → x.1 < 256 ∧ x.2.1 < 32 ∧ x.2.2 ≤ 200) ∧ s.awake = true ∧ s.boot.at_ = .wait ∧ s.clk.coreLock = true ∧
      s.boot.header 0 = none ∧ s.boot.header 1 = none) ∧
    (∃ (s : State) (sfdp : Option (Nat × Nat × Nat)),
    (∀ x, sfdp = some x → x.1 < 256 ∧ x.2.1 < 32 ∧ x.2.2 ≤ 200) ∧ s.awake = true ∧ s.boot.at_ = .wait ∧ s.clk.coreLock = true ∧
      s.boot.otp.bad.testBit 0 = true) ∧
    (∃ (s : State) (sfdp : Option (Nat × Nat × Nat)),
    (∀ x, sfdp = some x → x.1 < 256 ∧ x.2.1 < 32 ∧ x.2.2 ≤ 200) ∧ s.awake = true ∧ s.boot.at_ = .wait ∧ s.clk.coreLock = true ∧
      s.boot.otp.bad.testBit 0 = false ∧ s.boot.otp.state = 4) ∧
    (∃ (s : State) (sfdp : Option (Nat × Nat × Nat)),
    (∀ x, sfdp = some x → x.1 < 256 ∧ x.2.1 < 32 ∧ x.2.2 ≤ 200) ∧ s.awake = true ∧ s.boot.at_ = .wait ∧ s.clk.coreLock = true ∧
      s.boot.otp.bad.testBit 0 = false ∧ s.boot.otp.state = 0) ∧
    (∃ (s : State) (sfdp : Option (Nat × Nat × Nat)),
    (∀ x, sfdp = some x → x.1 < 256 ∧ x.2.1 < 32 ∧ x.2.2 ≤ 200) ∧ s.awake = true ∧ s.boot.at_ = .wait ∧ s.clk.coreLock = true ∧
      s.boot.otp.bad.testBit 0 = false ∧ s.boot.otp.state ≠ 4) ∧
    (∃ (s : State) (faulty : List Nat),
    (∀ b ∈ faulty, b ≤ 128) ∧ s.awake = true ∧ s.boot.at_ = .stage1 ∧ s.boot.otp.bad.testBit 1 = false) ∧
    (∃ (s : State) (faulty : List Nat),
    (∀ b ∈ faulty, b ≤ 128) ∧ s.awake = true ∧ s.boot.at_ = .stage1 ∧ s.boot.otp.bad.testBit 1 = true ∧ s.boot.source < 2) :=
  ⟨⟨{ wHdr 0 with us := 0 }, some (0x0B, 20, 200), (0x0B, 20, 200), by decide +kernel⟩,
    ⟨wHdr 0x1000, some (0x0B, 20, 200), (0x0B, 20, 200), by decide +kernel⟩,
    ⟨{ wB with boot := Boot.reset }, some (0x0B, 20, 200), by decide +kernel⟩,
    ⟨{ State.reset with clk := wB.clk, boot := { Boot.reset with rel := 0, otp := { Otp.blank with bad := 1 } } }, some (0x0B, 20, 200), by decide +kernel⟩,
    ⟨{ State.reset with clk := wB.clk, boot := { Boot.reset with otp := { Otp.blank with lc := 255 } } }, some (0x0B, 20, 200), by decide +kernel⟩,
    ⟨{ State.reset with clk := wB.clk, boot := { Boot.reset with rel := 0 } }, some (0x0B, 20, 200), by decide +kernel⟩,
    ⟨{ State.reset with clk := wB.clk, boot := { Boot.reset with rel := 0 } }, some (0x0B, 20, 200), by decide +kernel⟩,
    ⟨{ State.reset with clk := wB.clk, boot := { Boot.reset with at_ := .stage1 } }, [128, 0], by decide +kernel⟩,
    ⟨{ State.reset with clk := wB.clk, boot := { Boot.reset with at_ := .stage1, source := 1, otp := { Otp.blank with bad := 2 } } }, [128, 0], by decide +kernel⟩⟩

theorem witness_DramInitAndS2 :
    (∃ (s : State) (ok : Bool) (dA : Nat) (rA : Nat) (dB : Nat) (rB : Nat),
    dA < 16 ∧ rA < 4 ∧ dB < 16 ∧ rB < 4 ∧ s.awake = true ∧ s.boot.at_ = .s1 ∧ s.dram.trained = false ∧ ok = true ∧ dA = dB ∧ rA = rB ∧
      densityGiB dA ≠ 0 ∧ (rA = 1 ∨ rA = 2)) ∧
    (∃ (s : State) (ok : Bool) (dA : Nat) (rA : Nat) (dB : Nat) (rB : Nat),
    dA < 16 ∧ rA < 4 ∧ dB < 16 ∧ rB < 4 ∧ s.awake = true ∧ s.boot.at_ = .s1 ∧ s.dram.trained = false ∧
      (ok = false ∨ dA ≠ dB ∨ rA ≠ rB ∨ densityGiB dA = 0 ∨ (rA ≠ 1 ∧ rA ≠ 2))) ∧
    (∃ (s : State),
    s.awake = true ∧ s.dram.trained = true) ∧
    (∃ (s : State),
    s.awake = true ∧ s.dram.trained = true) ∧
    (∃ (s : State),
    s.awake = true ∧ s.boot.at_ = .stage2) ∧
    (∃ (s : State),
    s.awake = true ∧ s.s2Runs = true) ∧
    (∃ (s : State),
    s.awake = true ∧ s.boot.at_ = .s2 ∧ s.power.pads = true) :=
  ⟨⟨{ wB with boot := { wB.boot with at_ := .s1 } }, true, 6, 2, 6, 2, by decide⟩,
    ⟨{ wB with boot := { wB.boot with at_ := .s1 } }, true, 15, 1, 0, 3, by decide⟩,
    ⟨{ wB with dram := { DramSys.reset with trained := true, densA := 1, densB := 1, ranksA := 1, ranksB := 1 } }, by decide⟩,
    ⟨{ wB with dram := { DramSys.reset with trained := true, densA := 1, densB := 1, ranksA := 1, ranksB := 1 } }, by decide⟩,
    ⟨{ wB with boot := { wB.boot with at_ := .stage2 } }, by decide⟩,
    ⟨{ wB with dram := { DramSys.reset with trained := true, densA := 1, densB := 1, ranksA := 1, ranksB := 1 } }, by decide⟩,
    ⟨{ wB with boot := { wB.boot with at_ := .s2 } }, by decide⟩⟩

theorem witness_RecoveryLoader :
    (∃ (s : State),
    s.awake = true ∧ s.clk.coreLock = true ∧ (s.boot.at_ = .wait ∨ s.boot.at_ = .stage1) ∧ s.boot.otp.bad.testBit 0 = false ∧ s.boot.otp.state ≠ 4) ∧
    (∃ (s : State) (baud : Nat),
    s.boot.at_ = .recovery ∧ 9600 ≤ baud ∧ baud ≤ 3000000) ∧
    (∃ (s : State) (f : List Byte) (p : List Byte),
    s.quiet = true ∧ s.boot.at_ = .recovery ∧ recFrame f = some (2, p) ∧ 4 ≤ p.length ∧ le p 0 4 = s.boot.rec_.length ∧
      le p 0 4 + (p.length - 4) ≤ 3 * 2 ^ 20) ∧
    (∃ (s : State) (f : List Byte) (p : List Byte),
    s.quiet = true ∧ s.boot.at_ = .recovery ∧ recFrame f = some (2, p) ∧ 4 ≤ p.length ∧
      ¬ (le p 0 4 = s.boot.rec_.length ∧ le p 0 4 + (p.length - 4) ≤ 3 * 2 ^ 20)) ∧
    (∃ (s : State) (f : List Byte),
    s.quiet = true ∧ s.boot.at_ = .recovery ∧ recFrame f = none) ∧
    (∃ (s : State) (f : List Byte),
    s.quiet = true ∧ s.boot.at_ = .recovery ∧ recFrame f = some (3, []) ∧ s.boot.rec_ = []) :=
  ⟨⟨{ State.reset with clk := wB.clk, boot := { Boot.reset with rel := 0 } }, by decide⟩,
    ⟨wRec [], 3000000, by decide⟩,
    ⟨wRec [1#8], recWire 2 (leBytes 4 1 ++ [7#8, 9#8]), leBytes 4 1 ++ [7#8, 9#8], by decide⟩,
    ⟨wRec [], recWire 2 (leBytes 4 1), leBytes 4 1, by decide⟩,
    ⟨wRec [], [], by decide⟩,
    ⟨wRec [], recWire 3 [], by decide⟩⟩

theorem witness_TamperWipesAndLocksTheLocket :
    (∃ (s : State) (src : Nat),
    1 ≤ src ∧ src ≤ 3 ∧ s.powered = true) ∧
    (∃ (s : State),
    s.mem.wiping = true) ∧
    (∃ (s : State),
    s.mem.tamper = true ∧ s.s2Runs = true) ∧
    (∃ (s : State) (w : Nat) (w' : Nat),
    s.quiet = true ∧ Memory.wf zeroW s.mem.locket = true ∧ w < 65536 ∧ s.awake = true ∧ w' ≠ w) ∧
    (∃ (s : State) (who : Requester) (w : Nat) (wr : Option Word) (n : Nat),
    s.quiet = true ∧ Memory.wf zeroW s.mem.locket = true ∧ w < 65536 ∧ s.awake = true ∧ s.mem.locked = true ∧ who = .core n ∧ wr = none) ∧
    (∃ (s : State) (who : Requester) (w : Nat) (wr : Option Word) (n : Nat) (v : Word),
    s.quiet = true ∧ Memory.wf zeroW s.mem.locket = true ∧ w < 65536 ∧ s.awake = true ∧ s.mem.locked = false ∧ who = .core n ∧ wr = some v) ∧
    (∃ (s : State) (who : Requester) (w : Nat) (wr : Option Word) (n : Nat),
    s.quiet = true ∧ Memory.wf zeroW s.mem.locket = true ∧ w < 65536 ∧ s.awake = true ∧ s.mem.locked = false ∧ who = .core n ∧ wr = none ∧
      markOf s.mem.bad .locket w = none) ∧
    (∃ (s : State) (who : Requester) (w : Nat),
    s.quiet = true ∧ Memory.wf zeroW s.mem.locket = true ∧ w < 65536 ∧ s.awake = true ∧ s.mem.locked = false ∧ (∀ n, who ≠ .core n)) :=
  ⟨⟨wB, 1, by decide⟩,
    ⟨{ wB with mem := { MemSys.reset with locked := true, wiping := true } }, by decide⟩,
    ⟨{ wB with mem := { MemSys.reset with locked := true, tamper := true } }, by decide⟩,
    ⟨wB, 65535, 1, by decide⟩,
    ⟨{ wB with mem := { MemSys.reset with locked := true } }, .core 0, 65535, none, 0, by decide⟩,
    ⟨wB, .core 0, 65535, some 5#32, 0, 5#32, by decide⟩,
    ⟨wB, .core 0, 65535, none, 0, by decide⟩,
    ⟨wB, .tile 3, 65535, ⟨by decide, by decide, by decide, by decide, by decide, fun n h => by cases h⟩⟩⟩

theorem witness_PlaneValidBits :
    (∃ (sid : Nat),
    0 < sid ∧ sid < planeSize) ∧
    (∃ (sid : Nat),
    0 < sid ∧ sid < planeSize) ∧
    (∃ (s : State) (k : Nat) (sid : Nat),
    let valid := fun (s : State) (k n sid : Nat) => s.plane.any fun e => e.1 == planeKey k n sid
    0 < sid ∧ sid < planeSize ∧ valid s k (s.period k + 1) sid = false) ∧
    (∃ (s : State) (k : Nat) (sid : Nat) (w : PCell),
    0 < sid ∧ sid < planeSize ∧ (planeKey k (s.period k + 1) sid, w) ∈ s.plane ∧ s.plane.Pairwise (fun a b => a.1 ≠ b.1)) :=
  ⟨⟨32767, by decide⟩,
    ⟨32767, by decide⟩,
    ⟨wB, 2, 32767, by decide⟩,
    ⟨{ wDom 2 wRun with plane := [(planeKey 2 ((wDom 2 wRun).period 2 + 1) 32767, ⟨5#32, 1, 0⟩)] }, 2, 32767, ⟨5#32, 1, 0⟩, by decide⟩⟩

theorem witness_PlaneWriteIsReadInTheNextPeriod :
    ∃ (s : State) (k : Nat) (sid : Nat),
    s.unitsWf = true ∧ k < 3 ∧ 0 < (s.dom k).next ∧ 0 < sid ∧ sid < planeSize ∧ (∀ e ∈ s.plane, e.1 ≠ planeKey k (s.period k) sid) :=
  ⟨wDom 2 wRun, 2, 32767, by decide⟩

theorem witness_PlaneConflictKeepsTheFirstOfR34 :
    (∃ (s : State) (k : Nat) (kind : Nat) (inst : Nat) (sid : Nat) (o : PCell),
    0 < sid ∧ sid < planeSize ∧ s.plane.find? (fun e => e.1 == planeKey k (s.period k) sid) = some (planeKey k (s.period k) sid, o) ∧
      ¬ (o.kind = kind ∧ o.inst = inst) ∧ (kind < o.kind ∨ (kind = o.kind ∧ inst < o.inst))) ∧
    (∃ (s : State) (k : Nat) (kind : Nat) (inst : Nat) (sid : Nat) (o : PCell),
    0 < sid ∧ sid < planeSize ∧ s.plane.find? (fun e => e.1 == planeKey k (s.period k) sid) = some (planeKey k (s.period k) sid, o) ∧
      ¬ (o.kind = kind ∧ o.inst = inst) ∧ (o.kind < kind ∨ (o.kind = kind ∧ o.inst < inst))) :=
  ⟨⟨{ wB with plane := [(planeKey 2 (wB.period 2) 32767, ⟨5#32, 1, 4⟩)] }, 2, 1, 3, 32767, ⟨5#32, 1, 4⟩, by decide⟩,
    ⟨{ wB with plane := [(planeKey 2 (wB.period 2) 32767, ⟨5#32, 1, 4⟩)] }, 2, 2, 0, 32767, ⟨5#32, 1, 4⟩, by decide⟩⟩

theorem witness_DomainTickCountsAndMovesTime :
    (∃ (s : State) (k : Nat) (late : List (Nat × Nat)) (j : Nat),
    s.unitsWf = true ∧ k < 3 ∧ (∀ l ∈ late, l.1 < 128) ∧ (s.dom k).st ≠ .stopped ∧ (s.awake = true ∨ s.power.phase = .standby) ∧ j ≠ k) ∧
    (∃ (s : State) (k : Nat) (late : List (Nat × Nat)),
    k < 3 ∧ (∀ l ∈ late, l.1 < 128) ∧ (s.dom k).st ≠ .stopped ∧ s.power.phase = .standby) :=
  ⟨⟨wDom 2 wRun, 2, [(63, 1)], 1, by decide⟩,
    ⟨{ wDom 2 wRun with power := { Power.reset with phase := .standby } }, 2, [(63, 1)], by decide⟩⟩

theorem witness_ControlFabricReachesTheMap :
    (∃ (s : State) (core : Nat) (addr : Nat) (wr : Option Word) (v : Word),
    s.quiet = true ∧ s.ramsWf = true ∧ core < 4 ∧ addr < 2 ^ 40 ∧ addr % 4 = 0 ∧ s.coreRuns core = true ∧ 0x9000000 ≤ addr ∧ addr < 0x9400000 ∧
      wr = some v) ∧
    (∃ (s : State) (core : Nat) (addr : Nat) (wr : Option Word),
    s.quiet = true ∧ s.ramsWf = true ∧ core < 4 ∧ addr < 2 ^ 40 ∧ addr % 4 = 0 ∧ s.coreRuns core = true ∧ 0x9000000 ≤ addr ∧ addr < 0x9400000 ∧
      wr = none) ∧
    (∃ (s : State) (core : Nat) (addr : Nat) (wr : Option Word) (v : Word),
    s.quiet = true ∧ s.ramsWf = true ∧ core < 4 ∧ addr < 2 ^ 40 ∧ addr % 4 = 0 ∧ s.coreRuns core = true ∧ 0x1000000 ≤ addr ∧ addr < 0x1040000 ∧
      wr = some v) ∧
    (∃ (s : State) (core : Nat) (addr : Nat) (wr : Option Word),
    s.quiet = true ∧ s.ramsWf = true ∧ core < 4 ∧ addr < 2 ^ 40 ∧ addr % 4 = 0 ∧ s.coreRuns core = true ∧ 0x1000000 ≤ addr ∧ addr < 0x1040000 ∧
      wr = none ∧ markOf s.mem.bad .xram ((addr - 0x1000000) / 4) = none) ∧
    (∃ (s : State) (core : Nat) (addr : Nat) (wr : Option Word),
    s.quiet = true ∧ s.ramsWf = true ∧ core < 4 ∧ addr < 2 ^ 40 ∧ addr % 4 = 0 ∧ s.coreRuns core = true ∧ 0x8000000 ≤ addr ∧ addr < 0x8100000 ∧
      wr = none) ∧
    (∃ (s : State) (core : Nat) (addr : Nat) (wr : Option Word),
    s.quiet = true ∧ s.ramsWf = true ∧ core < 4 ∧ addr < 2 ^ 40 ∧ addr % 4 = 0 ∧ s.coreRuns core = true ∧ 0xA000000 ≤ addr ∧ addr < 0xA010000 ∧
      wr = none) ∧
    (∃ (s : State) (core : Nat) (addr : Nat) (wr : Option Word),
    s.quiet = true ∧ s.ramsWf = true ∧ core < 4 ∧ addr < 2 ^ 40 ∧ addr % 4 = 0 ∧ s.coreRuns core = true ∧ 0x10000000 ≤ addr ∧ addr < 0x20000000 ∧
      wr = none) ∧
    (∃ (s : State) (core : Nat) (addr : Nat) (wr : Option Word),
    s.quiet = true ∧ s.ramsWf = true ∧ core < 4 ∧ addr < 2 ^ 40 ∧ addr % 4 = 0 ∧ s.coreRuns core = true ∧
      ((0x1080000 ≤ addr ∧ addr < 0x2000000) ∨ (0x8100000 ≤ addr ∧ addr < 0x9000000) ∨ (0x9400000 ≤ addr ∧ addr < 0xA000000) ∨ (0xA010000 ≤ addr ∧ addr < 0x10000000) ∨ (0x20000000 ≤ addr ∧ addr < 0x1000000000) ∨ 0x1400000000 ≤ addr) ∧ wr = none) :=
  ⟨⟨wB, 3, 0x93FFFFC, some 5#32, 5#32, by decide⟩,
    ⟨wB, 3, 0x9000000, none, by decide⟩,
    ⟨wB, 3, 0x103FFFC, some 5#32, 5#32, by decide⟩,
    ⟨wB, 3, 0x1000000, none, by decide⟩,
    ⟨wB, 3, 0x80FFFFC, none, by decide⟩,
    ⟨wB, 3, 0xA00FFFC, none, by decide⟩,
    ⟨wB, 3, 0x1FFFFFFC, none, by decide⟩,
    ⟨wB, 3, 0x1FFFFFC, none, by decide⟩⟩

theorem witness_FacetPeriod :
    (∃ (s : State) (n : Nat) (m : Nat),
    s.unitsWf = true ∧ n < 64 ∧ s.facetsRun = true ∧ (s.facet n).st = .gather ∧ m ≠ n) ∧
    (∃ (s : State) (n : Nat) (b : Nat),
    let f := s.facet n
    s.unitsWf = true ∧ n < 64 ∧ s.facetsRun = true ∧ (s.facet n).st = .gather ∧ f.u.flight = [] ∧ f.r.glist.fld 16 13 = 1 ∧ f.r.glist.fld 0 14 = b ∧
      markOf f.m.bad .facZ b = none ∧ Memory.wf zeroW f.m.y = true) ∧
    (∃ (s : State) (n : Nat) (m : Nat),
    s.unitsWf = true ∧ n < 64 ∧ s.facetsRun = true ∧ (s.facet n).issuing = true ∧ m ≠ n) ∧
    (∃ (s : State) (n : Nat) (m : Nat),
    s.unitsWf = true ∧ n < 64 ∧ s.facetsRun = true ∧ (s.facet n).u.flight ≠ [] ∧ (s.facet n).issuing = false ∧ (s.facet n).stall = none ∧ m ≠ n) ∧
    (∃ (s : State) (n : Nat) (k : Nat) (v : Word),
    s.unitsWf = true ∧ n < 64 ∧ s.facetsRun = true ∧ (s.facet n).u.flight ≠ [] ∧ (s.facet n).issuing = false ∧ (s.facet n).stall = none ∧ v ≠ 0 ∧
      (s.facet n).u.flight = [⟨1, .d k v⟩]) ∧
    (∃ (s : State) (n : Nat) (j : Nat) (e : Eff),
    s.unitsWf = true ∧ n < 64 ∧ s.facetsRun = true ∧ (s.facet n).u.flight ≠ [] ∧ (s.facet n).issuing = false ∧ (s.facet n).stall = none ∧
      (s.facet n).u.flight = [⟨j + 2, e⟩]) ∧
    (∃ (s : State) (n : Nat) (q : SbReq) (m : Nat),
    s.unitsWf = true ∧ n < 64 ∧ s.facetsRun = true ∧ (s.facet n).stall = some q ∧ m ≠ n) ∧
    (∃ (s : State) (n : Nat),
    s.unitsWf = true ∧ n < 64 ∧ s.facetsRun = true ∧ (s.facet n).issuing = true ∧ (s.facet n).loopEnding = true ∧ (s.facet n).st = .sample ∧
      (s.facet n).m.bad = [] ∧ (s.facet n).u.pc < 4096 ∧ ((s.facet n).u.frame 1).active = false) ∧
    (∃ (s : State) (n : Nat),
    s.unitsWf = true ∧ n < 64 ∧ s.facetsRun = true ∧ (s.facet n).st = .post ∧ (s.facet n).bgEn = true) ∧
    (∃ (s : State) (n : Nat),
    s.unitsWf = true ∧ n < 64 ∧ s.facetsRun = true ∧ (s.facet n).st = .post ∧ (s.facet n).bgEn = false) ∧
    (∃ (s : State) (n : Nat),
    s.unitsWf = true ∧ n < 64 ∧ s.facetsRun = true ∧ (s.facet n).st = .post ∧ (s.facet n).r.plist.fld 16 13 = 0) :=
  ⟨⟨wFac 63 { Facet.reset with st := .gather, r := { Facet.reset.r with glist := 0x10005 } }, 63, 62, by decide⟩,
    ⟨wFac 63 { Facet.reset with st := .gather, r := { Facet.reset.r with glist := 0x10005 } }, 63, 5, by decide⟩,
    ⟨wFac 63 { Facet.reset with st := .sample }, 63, 62, by decide⟩,
    ⟨wFac 63 { Facet.reset with st := .waiting, u := { Facet.reset.u with flight := [⟨1, .d 0 1⟩] } }, 63, 62, by decide⟩,
    ⟨wFac 63 { Facet.reset with st := .waiting, u := { Facet.reset.u with flight := [⟨1, .d 0 1⟩] } }, 63, 0, 1#32, by decide⟩,
    ⟨wFac 63 { Facet.reset with st := .waiting, u := { Facet.reset.u with flight := [⟨2, .pf 0 true⟩] } }, 63, 0, .pf 0 true, by decide⟩,
    ⟨wFac 63 { Facet.reset with st := .sample, stall := some ⟨.ld, 0, 0, 0, .none⟩ }, 63, ⟨.ld, 0, 0, 0, .none⟩, 62, by decide⟩,
    ⟨wFac 63 { Facet.reset with st := .sample, u := { Facet.reset.u with pc := 4095, frames := [(0, ⟨7, 4095, false, true⟩)] } }, 63, by decide⟩,
    ⟨wFac 63 { Facet.reset with st := .post, r := { Facet.reset.r with ctl := 0xFFFFFFFF } }, 63, by decide⟩,
    ⟨wFac 63 { Facet.reset with st := .post }, 63, by decide⟩,
    ⟨wFac 63 { Facet.reset with st := .post, r := { Facet.reset.r with ctl := 0xFFFFFFFF } }, 63, by decide⟩⟩

theorem witness_ZeroOpcodeIsNop :
    (∃ (w : Nat),
    macOp w = 0) ∧
    (∃ (w : Nat),
    aluOp w = 0) ∧
    (∃ (w : Nat),
    mvOp w = 0) ∧
    (∃ (w : Nat),
    seqSop w = 0) ∧
    (∃ (s : State) (n : Nat),
    s.unitsWf = true ∧ n < 64 ∧ s.facetsRun = true ∧ (s.facet n).st = .sample ∧ (s.facet n).stall = none ∧ (s.facet n).u.pc < 4096 ∧
      (s.facet n).u.frames = [] ∧ (s.facet n).u.flight = [] ∧ (s.facet n).cache = none ∧ (s.facet n).rep = [] ∧ (s.facet n).m.bad = [] ∧
      (s.facet n).m.bundle (s.facet n).bank (s.facet n).u.pc = 0) :=
  ⟨⟨5, by decide⟩,
    ⟨5, by decide⟩,
    ⟨5, by decide⟩,
    ⟨5, by decide⟩,
    ⟨wFac 63 { Facet.reset with st := .sample }, 63, by decide⟩⟩

theorem witness_OperationLatencies :
    (∃ (u : Uzor) (w : Nat) (e : Nat × Eff), e ∈ macExec u w) ∧
    (∃ (u : Uzor) (w : Nat) (e : Nat × Eff), e ∈ aluExec u w) ∧
    (∃ (u : Uzor) (w : Nat) (e : Nat × Eff), e ∈ acsExec u w) ∧
    (∃ (f : Facet) (m : FMem) (w : Nat) (e : Nat × Eff), e ∈ (moverExec f m w).2) ∧
    (∃ (u : Uzor) (set ix : Nat) (e : Nat × Eff), e ∈ (loopEnds u set ix).2) :=
  ⟨⟨Facet.reset.u, 2 ^ 36, (macExec Facet.reset.u (2 ^ 36))[0]'(by decide), List.getElem_mem _⟩,
    ⟨Facet.reset.u, 2 ^ 23, (aluExec Facet.reset.u (2 ^ 23))[0]'(by decide), List.getElem_mem _⟩,
    ⟨Facet.reset.u, 2 ^ 23, (acsExec Facet.reset.u (2 ^ 23))[0]'(by decide), List.getElem_mem _⟩,
    ⟨Facet.reset, .x, 2 ^ 13, ((moverExec Facet.reset .x (2 ^ 13)).2)[0]'(by decide), List.getElem_mem _⟩,
    ⟨{ Facet.reset.u with frames := [(0, ⟨7, 9, false, true⟩)] }, 0, 9, ((loopEnds { Facet.reset.u with frames := [(0, ⟨7, 9, false, true⟩)] } 0 9).2)[0]'(by decide), List.getElem_mem _⟩⟩

theorem witness_ShiftAmount :
    (∃ (w : Nat),
    (aluOp w = 0x0B ∨ aluOp w = 0x0C ∨ aluOp w = 0x0D ∨ aluOp w = 0x0E) ∧ aluSub w % 2 = 0) ∧
    (∃ (w : Nat) (ix : Nat),
    (aluOp w = 0x0B ∨ aluOp w = 0x0C ∨ aluOp w = 0x0D ∨ aluOp w = 0x0E) ∧ aluSub w = 1 ∧ aluIllegal w ix = false) ∧
    (∃ (w : Nat),
    (aluOp w = 0x0B ∨ aluOp w = 0x0C ∨ aluOp w = 0x0D ∨ aluOp w = 0x0E) ∧ aluSub w = 1 ∧ 32 ≤ aluB w) ∧
    (∃ (w : Nat),
    (aluOp w = 0x0B ∨ aluOp w = 0x0C ∨ aluOp w = 0x0D ∨ aluOp w = 0x0E) ∧ 2 ≤ aluSub w) :=
  ⟨⟨0x0B * 2 ^ 23, by decide⟩,
    ⟨0x0E * 2 ^ 23 + 8 * 31 + 1, 7, by decide⟩,
    ⟨0x0C * 2 ^ 23 + 8 * 32 + 1, by decide⟩,
    ⟨0x0D * 2 ^ 23 + 2, by decide⟩⟩

theorem witness_RotatingNames :
    (∃ (k : Nat),
    k < 32) ∧
    (∃ (k : Nat),
    32 ≤ k ∧ k < 64) :=
  ⟨⟨31, by decide⟩,
    ⟨63, by decide⟩⟩

theorem witness_WritebackSaturatesOrWraps :
    ∃ (w : Nat),
    aluOp w = 1 ∧ aluS w = true :=
  ⟨2 ^ 23 + 2 ^ 22, by decide⟩

theorem witness_TileMixesASink :
    ∃ (t : Tile),
    let d := t.desc t.bank 0
    t.bad = [] ∧ t.queue = [] ∧ t.r.count = 1 ∧ descFaulty d = false ∧ descXmode d = 0 ∧ descScale d = 0 ∧
      (Memory.get (fun _ => SinkSlot.zero) t.slots (descSlot d)).init = true ∧ entLast (t.entry (8 * descRow d + 7)) = true :=
  ⟨{ Tile.reset with r := { Tile.reset.r with count := 1 }, sinks := [(0, 5#128)], slots := [(0, ⟨0, 0, 0, 0, 0, true⟩)], entries := [(7, 0x110#48)] }, by decide⟩

theorem witness_TileCommands :
    (∃ (s : State) (n : Nat) (m : Nat),
    s.unitsWf = true ∧ n < 32 ∧ s.tilesRun = true ∧ (s.tile n).st = .accumulating ∧ m ≠ n) ∧
    (∃ (s : State) (n : Nat) (m : Nat),
    s.unitsWf = true ∧ n < 32 ∧ s.awake = true ∧ m ≠ n) ∧
    (∃ (s : State) (n : Nat),
    s.unitsWf = true ∧ n < 32 ∧ s.awake = true ∧ 163840 ≤ (s.tile n).r.updA.toNat % 2 ^ 18) ∧
    (∃ (s : State) (n : Nat),
    let x := s.tile n
    let e := x.r.updA.toNat % 2 ^ 18
    s.unitsWf = true ∧ n < 32 ∧ s.awake = true ∧ e < 163840 ∧ (∀ q ∈ x.queue, q.entry ≠ e) ∧ x.queue.length < 4096) ∧
    (∃ (s : State) (n : Nat) (m : Nat),
    s.unitsWf = true ∧ n < 32 ∧ s.tilesRun = true ∧ (s.tile n).gainDue 2 (s.period (s.tile n).domain) = true ∧ m ≠ n) ∧
    (∃ (s : State) (n : Nat) (m : Nat),
    s.unitsWf = true ∧ n < 32 ∧ s.tilesRun = true ∧ (s.tile n).gainDue 4 (s.period (s.tile n).domain) = true ∧ m ≠ n) :=
  ⟨⟨wTile 31 { Tile.reset with st := .accumulating }, 31, 0, by decide⟩,
    ⟨wTile 31 { Tile.reset with st := .accumulating }, 31, 0, by decide⟩,
    ⟨wTile 31 { Tile.reset with r := { Tile.reset.r with updA := 163840 } }, 31, by decide⟩,
    ⟨wTile 31 { Tile.reset with st := .accumulating }, 31, by decide⟩,
    ⟨{ wTile 31 { Tile.reset with st := .accumulating, queue := [⟨5, 1, 480, false, 0, 0, none, none⟩] } with clk := (wDom 0 { wRun with next := 481 }).clk }, 31, 0, by decide⟩,
    ⟨{ wTile 31 { Tile.reset with st := .accumulating, queue := [⟨5, 1, 480, false, 0, 0, none, none⟩] } with clk := (wDom 0 { wRun with next := 512 }).clk }, 31, 0, by decide⟩⟩

theorem witness_AtomicOperations :
    ∃ (m : MemSys) (a : Nat),
    let c := m.copy a
    a < bankWords ∧ m.retired.contains (bankOf a) = false ∧ markOf m.bad c.1 c.2 = none :=
  ⟨MemSys.reset, bankWords - 1, by decide⟩

theorem witness_BankPriority :
    (∃ (l : List BankReq) (q : BankReq) (r : BankReq),
    firstReq l = some q ∧ r ∈ l) ∧
    (∃ (a : Requester) (b : Requester),
    let cls : Requester → Nat := fun r : Requester => match r with | .facet _ => 0 | .tile _ => 1 | .netBuf _ => 2 | .tdm _ | .madi _ | .aes _ | .link _ => 3 | .stream _ => 4 | .core _ => 5 | .dma _ => 6 | .scrubber => 7 | .bist => 8
    a.wf = true ∧ b.wf = true ∧ cls a < cls b) ∧
    (∃ (a : Requester),
    a.wf = true) ∧
    (∃ (i : Nat) (j : Nat) (k : Nat) (l : Nat),
    i < 16 ∧ j < 4 ∧ k < 16 ∧ l < 2048) ∧
    (∃ (i : Nat) (j : Nat),
    i < j) :=
  ⟨⟨[⟨.core 3, 0, .read⟩, ⟨.facet 63, 0, .read⟩], ⟨.facet 63, 0, .read⟩, ⟨.core 3, 0, .read⟩, by decide⟩,
    ⟨.facet 63, .tile 0, by decide⟩,
    ⟨.facet 63, by decide⟩,
    ⟨15, 3, 15, 2047, by decide⟩,
    ⟨0, 1, by decide⟩⟩

theorem witness_LendingKeepsWhatIsRead :
    ∃ (m : MemSys) (a : Nat),
    a < bankWords ∧ m.bad = [] ∧ m.retired = [] ∧ m.spareFor = none ∧ m.bistBank < 128 ∧ (m.phase = .copyOut ∨ m.phase = .copyBack → m.k < 32768) ∧
      Memory.wf zeroW m.banks = true ∧ Memory.wf zeroW m.spare = true :=
  ⟨{ MemSys.reset with phase := .copyOut, k := 32767, bistBank := 127 }, bankWords - 1, by decide⟩

theorem witness_BankCommands :
    (∃ (s : State) (b : Nat) (t : Nat) (arrive : List BankReq),
    let owner := ∃ q, (s.facet (b / 2)).stall = some q ∧ bankOf q.addr = b
    s.quiet = true ∧ s.ramsWf = true ∧ b < 128 ∧ (∀ q ∈ arrive, q.wf b = true) ∧ s.awake = true ∧ framePhase b t = 0 ∧ owner) ∧
    (∃ (s : State) (b : Nat) (t : Nat) (arrive : List BankReq) (q : BankReq) (v : Word),
    let m := s.mem.present arrive
    let owner := ∃ q, (s.facet (b / 2)).stall = some q ∧ bankOf q.addr = b
    s.quiet = true ∧ s.ramsWf = true ∧ b < 128 ∧ (∀ q ∈ arrive, q.wf b = true) ∧ s.awake = true ∧ ¬ (framePhase b t = 0 ∧ owner) ∧
      firstReq (m.waiting.filter fun q => bankOf q.addr == b) = some q ∧ q.addr < bankWords ∧ m.retired.contains b = false ∧ q.op = .write v) ∧
    (∃ (s : State) (b : Nat) (t : Nat) (arrive : List BankReq) (q : BankReq) (n : Nat),
    let m := s.mem.present arrive
    let owner := ∃ q, (s.facet (b / 2)).stall = some q ∧ bankOf q.addr = b
    s.quiet = true ∧ s.ramsWf = true ∧ b < 128 ∧ (∀ q ∈ arrive, q.wf b = true) ∧ s.awake = true ∧ ¬ (framePhase b t = 0 ∧ owner) ∧
      firstReq (m.waiting.filter fun q => bankOf q.addr == b) = some q ∧ q.addr < bankWords ∧ m.retired.contains b = false ∧
      markOf m.bad (m.copy q.addr).1 (m.copy q.addr).2 = none ∧ q.op = .read ∧ q.who = .tile n) ∧
    (∃ (s : State) (b : Nat) (e : BankReq × Word) (n : Nat) (w : Word),
    s.quiet = true ∧ b < 128 ∧ s.awake = true ∧ s.mem.completing.find? (fun e => bankOf e.1.addr == b) = some e ∧ e.1.who = .tile n ∧
      e.1.op = .addS w) ∧
    (∃ (s : State) (b : Nat) (t : Nat),
    b < 128 ∧ s.awake = true ∧ (∃ q ∈ s.mem.held, bankOf q.addr = b) ∧ 2 ≤ (s.mem.releases.filter fun r => decide (t < r.2 + 8) && r.1 == b).length) ∧
    (∃ (s : State) (b : Nat) (t : Nat),
    b < 128 ∧ s.awake = true ∧ (∃ q ∈ s.mem.held, bankOf q.addr = b) ∧ (s.mem.releases.filter fun r => decide (t < r.2 + 8) && r.1 == b).length < 2) ∧
    (∃ (s : State) (core : Nat) (a : Nat),
    let busy := ∃ q ∈ s.mem.waiting ++ s.mem.held, bankOf q.addr = bankOf a
    s.quiet = true ∧ s.ramsWf = true ∧ core < 4 ∧ a < bankWords ∧ s.coreRuns core = true ∧ busy) ∧
    (∃ (s : State) (core : Nat) (a : Nat) (wr : Option Word) (v : Word),
    let busy := ∃ q ∈ s.mem.waiting ++ s.mem.held, bankOf q.addr = bankOf a
    s.quiet = true ∧ s.ramsWf = true ∧ core < 4 ∧ a < bankWords ∧ s.coreRuns core = true ∧ ¬ busy ∧ s.mem.retired.contains (bankOf a) = false ∧
      wr = some v) ∧
    (∃ (s : State) (core : Nat) (a : Nat) (wr : Option Word),
    let busy := ∃ q ∈ s.mem.waiting ++ s.mem.held, bankOf q.addr = bankOf a
    s.quiet = true ∧ s.ramsWf = true ∧ core < 4 ∧ a < bankWords ∧ s.coreRuns core = true ∧ ¬ busy ∧ s.mem.retired.contains (bankOf a) = false ∧
      wr = none ∧ markOf s.mem.bad (s.mem.copy a).1 (s.mem.copy a).2 = none) ∧
    (∃ (s : State),
    s.awake = true ∧ s.mem.r.ctl.flag 0 = true ∧
      (s.mem.scrubPos % scrubPlaces < bankWords → ∀ q ∈ s.mem.waiting, bankOf q.addr ≠ bankOf (s.mem.scrubPos % scrubPlaces)) ∧
      s.mem.scrubPos < bankWords ∧ s.mem.retired = [] ∧ markOf s.mem.bad (s.mem.copy s.mem.scrubPos).1 (s.mem.copy s.mem.scrubPos).2 = some false) ∧
    (∃ (s : State),
    s.awake = true ∧ s.mem.r.ctl.flag 1 = true ∧ s.mem.phase = .idle ∧ s.mem.spareFor = none ∧ s.mem.retired = []) ∧
    (∃ (s : State),
    s.awake = true ∧ (s.mem.r.ctl.flag 1 = false ∨ s.mem.phase ≠ .idle ∨ s.mem.spareFor ≠ none)) ∧
    (∃ (s : State),
    s.awake = true ∧ s.ramsWf = true ∧ s.mem.bad = [] ∧ (s.mem.phase = .copyOut ∨ s.mem.phase = .copyBack) ∧ s.mem.k < 32768 ∧
      (∀ q ∈ s.mem.waiting, bankOf q.addr ≠ s.mem.bistBank) ∧ s.mem.phase = .copyOut) ∧
    (∃ (s : State),
    s.awake = true ∧ s.ramsWf = true ∧ s.mem.bad = [] ∧ (s.mem.phase = .copyOut ∨ s.mem.phase = .copyBack) ∧ s.mem.k < 32768 ∧
      (∀ q ∈ s.mem.waiting, bankOf q.addr ≠ s.mem.bistBank) ∧ s.mem.phase = .copyBack) ∧
    (∃ (s : State) (faulty : Bool),
    s.awake = true ∧ s.mem.phase = .test ∧ faulty = false) ∧
    (∃ (s : State) (faulty : Bool),
    s.awake = true ∧ s.mem.phase = .test ∧ faulty = true ∧ s.mem.spareFor = none ∧ s.mem.retired = [] ∧ s.mem.bistBank < 128) :=
  ⟨⟨{ wFac 63 { Facet.reset with stall := some ⟨.ld, 127, 0, 0, .none⟩ } with us := 0 }, 127, 7, [⟨.tile 31, 127, .read⟩], by decide⟩,
    ⟨wB, 127, 8, [⟨.tdm 15, 127, .write 5⟩], ⟨.tdm 15, 127, .write 5⟩, 5#32, by decide⟩,
    ⟨wB, 127, 8, [⟨.tile 31, 127, .read⟩], ⟨.tile 31, 127, .read⟩, 31, by decide⟩,
    ⟨{ wB with mem := { MemSys.reset with completing := [(⟨.tile 31, 127, .addS 1⟩, 4)] } }, 127, (⟨.tile 31, 127, .addS 1⟩, 4), 31, 1#32, by decide⟩,
    ⟨{ wB with mem := { MemSys.reset with held := [⟨.core 0, 127, .read⟩], releases := [(127, 1), (127, 8)] } }, 127, 8, by decide⟩,
    ⟨{ wB with mem := { MemSys.reset with held := [⟨.core 0, 127, .read⟩] } }, 127, 8, by decide⟩,
    ⟨{ wB with mem := { MemSys.reset with waiting := [⟨.tile 3, 127, .read⟩] } }, 3, 255, by decide⟩,
    ⟨wB, 3, bankWords - 1, some 5#32, 5#32, by decide⟩,
    ⟨wB, 3, bankWords - 1, none, by decide⟩,
    ⟨{ wB with mem := { MemSys.reset with bad := [⟨.bank, 0, false⟩] } }, by decide⟩,
    ⟨wB, by decide⟩,
    ⟨{ wB with mem := { MemSys.reset with phase := .copyOut, k := 32767 } }, by decide⟩,
    ⟨{ wB with mem := { MemSys.reset with phase := .copyOut, k := 32767 } }, by decide⟩,
    ⟨{ wB with mem := { MemSys.reset with phase := .copyBack, k := 32767 } }, by decide⟩,
    ⟨{ wB with mem := { MemSys.reset with phase := .test } }, false, by decide⟩,
    ⟨{ wB with mem := { MemSys.reset with phase := .test } }, true, by decide⟩⟩

theorem witness_ExchangeRamAndDma :
    (∃ (s : State) (core : Nat) (w : Nat) (wr : Option Word) (v : Word),
    s.quiet = true ∧ s.ramsWf = true ∧ core < 4 ∧ w < 65536 ∧ s.coreRuns core = true ∧ wr = some v) ∧
    (∃ (s : State) (core : Nat) (w : Nat) (wr : Option Word),
    s.quiet = true ∧ s.ramsWf = true ∧ core < 4 ∧ w < 65536 ∧ s.coreRuns core = true ∧ wr = none ∧ markOf s.mem.bad .xram w = none) ∧
    (∃ (s : State) (p : Nat) (w : Nat) (wr : Option (Word × List Bool)) (v : Word),
    let o := (Memory.get xownReset s.mem.r.xown (w / 1024 / 8)).fld (4 * (w / 1024 % 8)) 4
    s.quiet = true ∧ s.ramsWf = true ∧ p < 4 ∧ w < 65536 ∧ s.awake = true ∧ s.served = true ∧ 8 ≤ o ∧ o % 4 = p ∧
      wr = some (v, [true, true, true, true])) ∧
    (∃ (s : State) (p : Nat) (w : Nat) (wr : Option (Word × List Bool)),
    let o := (Memory.get xownReset s.mem.r.xown (w / 1024 / 8)).fld (4 * (w / 1024 % 8)) 4
    s.quiet = true ∧ s.ramsWf = true ∧ p < 4 ∧ w < 65536 ∧ s.awake = true ∧ s.served = true ∧ 8 ≤ o ∧ (o % 4 = p ∨ o.testBit 2 = true) ∧ wr = none ∧
      markOf s.mem.bad .xram w = none) ∧
    (∃ (s : State) (p : Nat) (w : Nat) (wr : Option (Word × List Bool)),
    let o := (Memory.get xownReset s.mem.r.xown (w / 1024 / 8)).fld (4 * (w / 1024 % 8)) 4
    s.quiet = true ∧ s.ramsWf = true ∧ p < 4 ∧ w < 65536 ∧ s.awake = true ∧ s.served = true ∧
      (o < 8 ∨ (o % 4 ≠ p ∧ (o.testBit 2 = false ∨ wr.isSome = true))) ∧ wr = none) ∧
    (∃ (s : State) (p : Nat) (w : Nat) (wr : Option (Word × List Bool)),
    let o := (Memory.get xownReset s.mem.r.xown (w / 1024 / 8)).fld (4 * (w / 1024 % 8)) 4
    s.quiet = true ∧ s.ramsWf = true ∧ p < 4 ∧ w < 65536 ∧ s.awake = true ∧ s.served = true ∧
      (o < 8 ∨ (o % 4 ≠ p ∧ (o.testBit 2 = false ∨ wr.isSome = true))) ∧ s.mem.r.xprot.flag 31 = true) ∧
    (∃ (s : State) (p : Nat) (w : Nat) (v : Word),
    s.quiet = true ∧ s.ramsWf = true ∧ p < 4 ∧ w < 65536 ∧ s.awake = true ∧ s.served = true ∧
      s.mem.portBAdmits ⟨0, p, w, some (v, [true, true, true, true])⟩ = true ∧ s.mem.r.xconf = 0) ∧
    (∃ (s : State) (pf : Nat) (p : Nat) (a : Nat),
    s.quiet = true ∧ pf < 4 ∧ p < 4 ∧ a < bankWords ∧ s.awake = true ∧ Nat.testBit s.host.pcie.bme pf = true ∧
      s.mem.dmaPermits p (a / 1024) true = false) ∧
    (∃ (s : State) (pf : Nat) (p : Nat) (a : Nat),
    s.quiet = true ∧ pf < 4 ∧ p < 4 ∧ a < bankWords ∧ s.awake = true ∧ Nat.testBit s.host.pcie.bme pf = true ∧
      s.mem.dmaPermits p (a / 1024) false = false) ∧
    (∃ (s : State) (pf : Nat) (p : Nat) (a : Nat),
    s.quiet = true ∧ pf < 4 ∧ p < 4 ∧ a < bankWords ∧ s.awake = true ∧ Nat.testBit s.host.pcie.bme pf = true ∧
      s.mem.dmaPermits p (a / 1024) true = true ∧ s.mem.retired = [] ∧ (∀ q ∈ s.mem.waiting, bankOf q.addr ≠ bankOf a)) ∧
    (∃ (s : State) (pf : Nat) (p : Nat) (a : Nat),
    s.quiet = true ∧ pf < 4 ∧ p < 4 ∧ a < bankWords ∧ s.awake = true ∧ Nat.testBit s.host.pcie.bme pf = true ∧
      s.mem.dmaPermits p (a / 1024) true = true ∧ s.mem.retired = [] ∧ (∃ q ∈ s.mem.waiting, bankOf q.addr = bankOf a)) :=
  ⟨⟨wB, 3, 65535, some 5#32, 5#32, by decide⟩,
    ⟨wB, 3, 65535, none, by decide⟩,
    ⟨wB, 0, 65535, some (5#32, [true, true, true, true]), 5#32, by decide⟩,
    ⟨wB, 0, 65535, none, by decide⟩,
    ⟨wB, 1, 65535, none, by decide⟩,
    ⟨{ wB with mem := { MemSys.reset with r := { MemRegs.reset with xprot := 0x80000000 } } }, 1, 65535, none, by decide⟩,
    ⟨wB, 0, 65535, 5#32, by decide⟩,
    ⟨{ wB with host := (wPart 0 { Part.reset with irqMask := 1 }).host }, 3, 3, bankWords - 1, by decide⟩,
    ⟨{ wB with host := (wPart 0 { Part.reset with irqMask := 1 }).host }, 3, 3, bankWords - 1, by decide⟩,
    ⟨{ wB with host := (wPart 0 { Part.reset with irqMask := 1 }).host, mem := { MemSys.reset with wins := [(24, 0xFFFF0000)] } }, 3, 3, bankWords - 1, by decide⟩,
    ⟨{ wB with host := (wPart 0 { Part.reset with irqMask := 1 }).host, mem := { MemSys.reset with wins := [(24, 0xFFFF0000)], waiting := [⟨.tile 3, 127, .read⟩] } }, 3, 3, bankWords - 1, by decide⟩⟩

theorem witness_DramChannelCommands :
    (∃ (s : State) (ch : Nat) (q : DramReq),
    s.quiet = true ∧ s.ramsWf = true ∧ ch < 2 ∧ q.wf = true ∧ s.awake = true ∧ s.dram.trained = true ∧ s.dram.waiting = [] ∧ s.dram.selfRef = true) ∧
    (∃ (s : State) (ch : Nat) (q : DramReq) (i : Nat) (v : Word),
    s.quiet = true ∧ s.ramsWf = true ∧ ch < 2 ∧ q.wf = true ∧ s.awake = true ∧ s.dram.trained = true ∧ s.dram.waiting = [] ∧ s.dram.selfRef = false ∧
      q.read = 0 ∧ q.word % 4 = 0 ∧ q.data.length % 4 = 0 ∧ q.word + q.data.length ≤ s.dram.usable ch ∧ q.data[i]? = some v) ∧
    (∃ (s : State) (ch : Nat) (q : DramReq) (k : Nat),
    s.quiet = true ∧ s.ramsWf = true ∧ ch < 2 ∧ q.wf = true ∧ s.awake = true ∧ s.dram.trained = true ∧ s.dram.waiting = [] ∧ s.dram.selfRef = false ∧
      q.read = 0 ∧ q.word % 4 = 0 ∧ q.data.length % 4 = 0 ∧ q.word + q.data.length ≤ s.dram.usable ch ∧
      (k < dramKey ch q.word ∨ dramKey ch (q.word + q.data.length) ≤ k)) ∧
    (∃ (s : State) (ch : Nat) (q : DramReq) (n : Nat),
    s.quiet = true ∧ s.ramsWf = true ∧ ch < 2 ∧ q.wf = true ∧ s.awake = true ∧ s.dram.trained = true ∧ s.dram.waiting = [] ∧ s.dram.selfRef = false ∧
      q.who = .core n ∧ q.data = [] ∧ s.dram.bad = [] ∧ q.word + q.read ≤ s.dram.usable ch) ∧
    (∃ (s : State) (ch : Nat) (q : DramReq),
    s.quiet = true ∧ s.ramsWf = true ∧ ch < 2 ∧ q.wf = true ∧ s.awake = true ∧ s.dram.trained = true ∧ s.dram.waiting = [] ∧ s.dram.selfRef = false ∧
      q.data = [] ∧ s.dram.usable ch < q.word + q.read) ∧
    (∃ (s : State) (ch : Nat),
    ch < 2 ∧ s.awake = true ∧ s.dram.trained = true ∧ s.dram.selfRef = false) ∧
    (∃ (s : State) (ch : Nat) (c : Nat),
    let old := if ch = 0 then s.dram.rateA else s.dram.rateB
    ch < 2 ∧ c < 8 ∧ s.awake = true ∧ s.dram.trained = true ∧ s.dram.selfRef = false ∧ 3 < c ∧ old ≤ 3) ∧
    (∃ (s : State) (ch : Nat) (c : Nat),
    let old := if ch = 0 then s.dram.rateA else s.dram.rateB
    ch < 2 ∧ c < 8 ∧ s.awake = true ∧ s.dram.trained = true ∧ s.dram.selfRef = false ∧ c ≤ 3 ∧ 3 < old) ∧
    (∃ (s : State) (ch : Nat) (c : Nat),
    let old := if ch = 0 then s.dram.rateA else s.dram.rateB
    ch < 2 ∧ c < 8 ∧ s.awake = true ∧ s.dram.trained = true ∧ s.dram.selfRef = false ∧ (3 < c ↔ 3 < old)) ∧
    (∃ (s : State),
    s.awake = true ∧ s.dram.trained = true ∧ s.dram.selfRef = false ∧ s.dram.ctl.flag 0 = true ∧ s.dram.waiting = []) ∧
    (∃ (s : State),
    s.awake = true ∧ s.dram.trained = true ∧ s.dram.selfRef = true) :=
  ⟨⟨wDram { DramSys.reset with selfRef := true }, 1, ⟨.core 3, 8, 0, [1, 2, 3, 4]⟩, by decide⟩,
    ⟨wDram { DramSys.reset with ctl := 1 }, 1, ⟨.core 3, 8, 0, [1, 2, 3, 4]⟩, 3, 4#32, by decide⟩,
    ⟨wDram { DramSys.reset with ctl := 1 }, 1, ⟨.core 3, 8, 0, [1, 2, 3, 4]⟩, 0, by decide⟩,
    ⟨wDram { DramSys.reset with ctl := 1 }, 1, ⟨.core 3, 8, 2, []⟩, 3, by decide⟩,
    ⟨wDram { DramSys.reset with ctl := 1 }, 1, ⟨.core 3, 896 * 262144, 4, []⟩, by decide⟩,
    ⟨wDram { DramSys.reset with ctl := 1 }, 1, by decide⟩,
    ⟨wDram { DramSys.reset with ctl := 1 }, 1, 7, by decide⟩,
    ⟨wDram { DramSys.reset with rateB := 4 }, 1, 3, by decide⟩,
    ⟨wDram { DramSys.reset with rateB := 4 }, 1, 7, by decide⟩,
    ⟨wDram { DramSys.reset with ctl := 1 }, by decide⟩,
    ⟨wDram { DramSys.reset with selfRef := true }, by decide⟩⟩

theorem witness_DelayLineStream :
    (∃ (l : DramLine) (n : Nat) (m : Nat),
    512 ≤ l.d ∧ l.ld = 16 * ((l.d + 15) / 16) ∧ n < m ∧ m < n + l.ld) ∧
    (∃ (s : State) (id : Nat) (q : Nat) (l : DramLine) (i : Nat),
    s.ramsWf = true ∧ s.unitsWf = true ∧ s.dram.line id = some l ∧ l.next = none ∧ l.facet < 64 ∧ 16 ≤ l.ld ∧ l.ch < 2 ∧ l.base + l.ld ≤ 2 ^ 31 ∧
      s.awake = true ∧ s.dram.trained = true ∧ s.dram.selfRef = false ∧ s.dram.bad = [] ∧ (s.facet l.facet).m.bad = [] ∧ 16 * q + 15 ≤ s.period l.dom ∧
      s.period l.dom < 16 * q + 256 ∧ i < 16) ∧
    (∃ (s : State) (id : Nat) (q : Nat) (l : DramLine) (k : Nat),
    s.ramsWf = true ∧ s.unitsWf = true ∧ s.dram.line id = some l ∧ l.next = none ∧ l.facet < 64 ∧ 16 ≤ l.ld ∧ l.ch < 2 ∧ l.base + l.ld ≤ 2 ^ 31 ∧
      s.awake = true ∧ s.dram.trained = true ∧ s.dram.selfRef = false ∧ s.dram.bad = [] ∧ (s.facet l.facet).m.bad = [] ∧ 16 * q + 15 ≤ s.period l.dom ∧
      s.period l.dom < 16 * q + 256 ∧ (∀ i, i < 16 → k ≠ dramKey l.ch (l.wordOf (16 * q + i) 0))) ∧
    (∃ (s : State) (id : Nat) (q : Nat) (l : DramLine) (n : Nat),
    s.ramsWf = true ∧ s.unitsWf = true ∧ s.dram.line id = some l ∧ l.next = none ∧ l.facet < 64 ∧ 0 < l.ld ∧ l.d ≤ 16 * q ∧ s.awake = true ∧
      s.dram.trained = true ∧ s.dram.selfRef = false ∧ s.dram.bad = [] ∧ Memory.wf zeroW (s.facet l.facet).m.y = true ∧
      16 * q + 15 ≤ s.period l.dom + 256 ∧ l.upto < 16 * q + 16 ∧ n ≠ l.facet) ∧
    (∃ (s : State) (id : Nat) (q : Nat) (l : DramLine) (i : Nat),
    s.ramsWf = true ∧ s.unitsWf = true ∧ s.dram.line id = some l ∧ l.next = none ∧ l.facet < 64 ∧ 0 < l.ld ∧ l.d ≤ 16 * q ∧ s.awake = true ∧
      s.dram.trained = true ∧ s.dram.selfRef = false ∧ s.dram.bad = [] ∧ Memory.wf zeroW (s.facet l.facet).m.y = true ∧
      16 * q + 15 ≤ s.period l.dom + 256 ∧ l.upto < 16 * q + 16 ∧ i < 16 ∧ s.period l.dom + 1 < 16 * q + i) ∧
    (∃ (s : State) (id : Nat) (l : DramLine),
    s.unitsWf = true ∧ s.dram.line id = some l ∧ l.next = none ∧ l.facet < 64 ∧ s.awake = true ∧ Memory.wf zeroW (s.facet l.facet).m.y = true ∧
      l.upto ≤ s.period l.dom + 1) :=
  ⟨⟨⟨1, 0, 0, 0, 512, 512, 0, 0, 0, 0, none⟩, 0, 511, by decide⟩,
    ⟨{ wDram { DramSys.reset with lines := [⟨5, 0, 1, 0, 1000, 1008, 63, 16, 1040, 5000, none⟩] } with clk := (wDom 0 { wRun with next := 112 }).clk }, 5, 6, ⟨5, 0, 1, 0, 1000, 1008, 63, 16, 1040, 5000, none⟩, 0, by decide⟩,
    ⟨{ wDram { DramSys.reset with lines := [⟨5, 0, 1, 0, 1000, 1008, 63, 16, 1040, 5000, none⟩] } with clk := (wDom 0 { wRun with next := 112 }).clk }, 5, 6, ⟨5, 0, 1, 0, 1000, 1008, 63, 16, 1040, 5000, none⟩, 4096, ⟨by decide, by decide, by decide, by decide, by decide, by decide, by decide, by decide, by decide, by decide, by decide, by decide, by decide, by decide, by decide, by decide⟩⟩,
    ⟨{ wDram { DramSys.reset with lines := [⟨5, 0, 1, 0, 1000, 1008, 63, 16, 1040, 1000, none⟩] } with clk := (wDom 0 { wRun with next := 1000 }).clk }, 5, 63, ⟨5, 0, 1, 0, 1000, 1008, 63, 16, 1040, 1000, none⟩, 0, by decide⟩,
    ⟨{ wDram { DramSys.reset with lines := [⟨5, 0, 1, 0, 1000, 1008, 63, 16, 1040, 1000, none⟩] } with clk := (wDom 0 { wRun with next := 1000 }).clk }, 5, 63, ⟨5, 0, 1, 0, 1000, 1008, 63, 16, 1040, 1000, none⟩, 15, by decide⟩,
    ⟨{ wDram { DramSys.reset with lines := [⟨5, 0, 1, 0, 1000, 1008, 63, 16, 1040, 995, none⟩] } with clk := (wDom 0 { wRun with next := 1000 }).clk }, 5, ⟨5, 0, 1, 0, 1000, 1008, 63, 16, 1040, 995, none⟩, by decide⟩⟩

theorem witness_CorePllRescueAndReferences :
    (∃ (s : State) (cause : Nat),
    1 ≤ cause ∧ cause ≤ 2 ∧ s.clocked = true ∧ (s.clk.coreLock = true ∨ s.clk.rescue = true) ∧ s.clk.rescue = false) ∧
    (∃ (s : State) (cause : Nat),
    1 ≤ cause ∧ cause ≤ 2 ∧ s.clocked = true ∧ (s.clk.coreLock = true ∨ s.clk.rescue = true) ∧ s.clk.rescue = true) ∧
    (∃ (s : State),
    s.awake = true ∧ s.clk.rescue = true ∧ s.clk.coreLock = true) ∧
    (∃ (s : State) (p : Nat),
    p < 4 ∧ s.awake = true ∧ s.clk.rescue = false ∧ p ∈ s.clk.recommit ∧ s.setter.armedOf p = false ∧ (∀ b ∈ s.setter.builds, b.entry.part ≠ p) ∧
      (s.setter.part p).live = false) ∧
    (∃ (s : State) (p : Nat),
    p < 4 ∧ s.awake = true ∧ s.clk.rescue = false ∧ p ∈ s.clk.recommit ∧ s.setter.armedOf p = false ∧ (∀ b ∈ s.setter.builds, b.entry.part ≠ p) ∧
      (s.setter.part p).live = true) ∧
    (∃ (s : State) (i : Nat) (es : List Int) (j : Nat),
    s.unitsWf = true ∧ i < 2 ∧ es.length = 3 ∧ s.clocked = true ∧ s.clk.refPresent i = true ∧ j < 2 ∧ j ≠ i) ∧
    (∃ (s : State) (i : Nat) (es : List Int),
    s.unitsWf = true ∧ i < 2 ∧ es.length = 3 ∧ s.clocked = true ∧ s.clk.refPresent i = true ∧ s.clk.active ≠ i + 1) ∧
    (∃ (s : State) (i : Nat) (es : List Int) (k : Nat),
    s.unitsWf = true ∧ i < 2 ∧ es.length = 3 ∧ s.clocked = true ∧ s.clk.refPresent i = true ∧ s.clk.active = i + 1 ∧ s.clk.source = i + 1 ∧
      s.clk.enabled = true ∧ k < 3 ∧ (s.dom k).run = true ∧ (s.dom k).st ≠ .clamped ∧ (s.dom k).st ≠ .stepping ∧ (s.dom k).st ≠ .stopped) ∧
    (∃ (s : State) (i : Nat) (es : List Int),
    s.unitsWf = true ∧ i < 2 ∧ es.length = 3 ∧ s.clocked = true ∧ s.clk.refPresent i = true ∧ s.clk.active = i + 1 ∧ s.clk.source = i + 1 ∧
      s.clk.enabled = true ∧ s.clk.holdover = false) ∧
    (∃ (s : State) (i : Nat) (es : List Int),
    s.unitsWf = true ∧ i < 2 ∧ es.length = 3 ∧ s.clocked = true ∧ s.clk.refQual i = false ∧ (s.clk.enabled = false ∨ s.clk.holdover = false)) ∧
    (∃ (s : State) (i : Nat) (es : List Int) (k : Nat),
    s.unitsWf = true ∧ i < 2 ∧ es.length = 3 ∧ s.clocked = true ∧ s.clk.refQual i = false ∧ s.clk.enabled = true ∧ s.clk.holdover = true ∧
      s.clk.source = i + 1 ∧ k < 3 ∧ (s.dom k).run = true ∧ (s.dom k).st ≠ .stepping ∧ (s.dom k).policy = 0 ∧ (es.getD k 0).natAbs ≤ 1000000) ∧
    (∃ (s : State) (i : Nat) (es : List Int) (k : Nat),
    s.unitsWf = true ∧ i < 2 ∧ es.length = 3 ∧ s.clocked = true ∧ s.clk.refQual i = false ∧ s.clk.enabled = true ∧ s.clk.holdover = true ∧
      s.clk.source = i + 1 ∧ k < 3 ∧ (s.dom k).run = true ∧ (s.dom k).st ≠ .stepping ∧ (s.dom k).policy = 0 ∧ 1000000 < (es.getD k 0).natAbs) ∧
    (∃ (s : State) (i : Nat) (es : List Int) (k : Nat),
    s.unitsWf = true ∧ i < 2 ∧ es.length = 3 ∧ s.clocked = true ∧ s.clk.refQual i = false ∧ s.clk.enabled = true ∧ s.clk.holdover = true ∧
      s.clk.source = i + 1 ∧ k < 3 ∧ (s.dom k).run = true ∧ (s.dom k).st ≠ .stepping ∧ (s.dom k).policy = 1) ∧
    (∃ (s : State) (i : Nat) (es : List Int) (k : Nat),
    s.unitsWf = true ∧ i < 2 ∧ es.length = 3 ∧ s.clocked = true ∧ s.clk.refQual i = false ∧ s.clk.enabled = true ∧ s.clk.holdover = true ∧
      s.clk.source = i + 1 ∧ k < 3 ∧ (s.dom k).run = true ∧ (s.dom k).st ≠ .stepping ∧ (s.dom k).policy = 2) ∧
    (∃ (s : State) (r : Nat) (code : Nat) (es : List Int),
    r < 7 ∧ code < 8 ∧ es.length = 3 ∧ s.commands r = true ∧ 5 ≤ code) ∧
    (∃ (s : State) (r : Nat) (code : Nat) (es : List Int),
    r < 7 ∧ code < 8 ∧ es.length = 3 ∧ s.commands r = true ∧ s.clk.source = 0 ∧ s.clk.holdover = false ∧ code = 1 ∧ s.clk.qual.1 = true ∧
      s.clk.enabled = true) ∧
    (∃ (s : State) (r : Nat) (code : Nat) (es : List Int),
    r < 7 ∧ code < 8 ∧ es.length = 3 ∧ s.commands r = true ∧ code = 0 ∧ s.clk.enabled = true) ∧
    (∃ (s : State) (r : Nat) (code : Nat) (es : List Int),
    r < 7 ∧ code < 8 ∧ es.length = 3 ∧ s.commands r = true ∧ code < 5 ∧ s.clk.enabled = false) ∧
    (∃ (s : State) (r : Nat) (on : Bool) (es : List Int),
    r < 7 ∧ es.length = 3 ∧ s.commands r = true ∧ on = true ∧ s.clk.enabled = true) ∧
    (∃ (s : State) (r : Nat) (on : Bool) (es : List Int),
    r < 7 ∧ es.length = 3 ∧ s.commands r = true ∧ on = true ∧ s.clk.enabled = false) ∧
    (∃ (s : State) (r : Nat) (on : Bool) (es : List Int),
    r < 7 ∧ es.length = 3 ∧ s.commands r = true ∧ on = false) ∧
    (∃ (s : State),
    s.clocked = true ∧ s.clk.enabled = true ∧ s.clk.lockMode = true ∧ s.clk.mpllLock = false ∧ s.clk.enabledAt + 50000 ≤ s.us) ∧
    (∃ (s : State),
    s.clocked = true ∧ s.clk.enabled = true ∧ s.clk.lockMode = false) ∧
    (∃ (s : State),
    s.clocked = true ∧ s.clk.lockMode = false) :=
  ⟨⟨wB, 1, by decide⟩,
    ⟨wClk { ClkSys.reset with rescue := true }, 2, by decide⟩,
    ⟨wClk { ClkSys.reset with rescue := true }, by decide⟩,
    ⟨wClk { ClkSys.reset with recommit := [3] }, 3, by decide⟩,
    ⟨{ wClk { ClkSys.reset with recommit := [3] } with setter := { SetterSys.reset with parts := [(3, { SetPart.reset with live := true })] } }, 3, by decide⟩,
    ⟨wClk { ClkSys.reset with present := (true, true) }, 1, [0, 0, 0], 0, by decide⟩,
    ⟨wClk { ClkSys.reset with present := (true, true) }, 1, [0, 0, 0], by decide⟩,
    ⟨wClk { ClkSys.reset with present := (true, true), active := 2, mpllCtl := 0x1002, doms := [(2, wRun)] }, 1, [0, 0, 0], 2, by decide⟩,
    ⟨wClk { ClkSys.reset with present := (true, true), active := 2, mpllCtl := 0x1002, doms := [(2, wRun)] }, 1, [0, 0, 0], by decide⟩,
    ⟨wB, 1, [0, 0, 0], by decide⟩,
    ⟨wClk { ClkSys.reset with mpllCtl := 0x1002, holdover := true, doms := [(2, { wRun with st := .holdover })] }, 1, [0, 0, 1000000], 2, by decide⟩,
    ⟨wClk { ClkSys.reset with mpllCtl := 0x1002, holdover := true, doms := [(2, { wRun with st := .holdover })] }, 1, [0, 0, -1000001], 2, by decide⟩,
    ⟨wClk { ClkSys.reset with mpllCtl := 0x1002, holdover := true, doms := [(2, { wRun with st := .holdover, policy := 1 })] }, 1, [0, 0, 0], 2, by decide⟩,
    ⟨wClk { ClkSys.reset with mpllCtl := 0x1002, holdover := true, doms := [(2, { wRun with st := .holdover, policy := 2 })] }, 1, [0, 0, 0], 2, by decide⟩,
    ⟨wB, 6, 5, [0, 0, 0], by decide⟩,
    ⟨wClk { ClkSys.reset with mpllCtl := 0x1000, qual := (true, false) }, 6, 1, [0, 0, 0], by decide⟩,
    ⟨wClk { ClkSys.reset with mpllCtl := 0x1002 }, 6, 0, [0, 0, 0], by decide⟩,
    ⟨wB, 6, 4, [0, 0, 0], by decide⟩,
    ⟨wClk { ClkSys.reset with present := (true, true), active := 2, mpllCtl := 0x1002, doms := [(2, wRun)] }, 6, true, [0, 0, 0], by decide⟩,
    ⟨wB, 6, true, [0, 0, 0], by decide⟩,
    ⟨wB, 6, false, [0, 0, 0], by decide⟩,
    ⟨wClk { ClkSys.reset with mpllCtl := 0x1012 }, by decide⟩,
    ⟨wClk { ClkSys.reset with present := (true, true), active := 2, mpllCtl := 0x1002, doms := [(2, wRun)] }, by decide⟩,
    ⟨wB, by decide⟩⟩

theorem witness_RateDomainCommands :
    (∃ (s : State) (k : Nat) (j : Nat),
    s.unitsWf = true ∧ k < 3 ∧ s.clocked = true ∧ (s.dom k).run = true ∧ j ≠ k) ∧
    (∃ (s : State) (k : Nat),
    s.unitsWf = true ∧ k < 3 ∧ s.clocked = true ∧ (s.dom k).run = true ∧ (s.dom k).st ≠ .clamped ∧ (s.dom k).st ≠ .stepping) ∧
    (∃ (s : State) (k : Nat),
    s.unitsWf = true ∧ k < 3 ∧ s.clocked = true ∧ (s.dom k).run = true ∧ ((s.dom k).st = .clamped ∨ (s.dom k).st = .stepping)) ∧
    (∃ (s : State) (k : Nat) (j : Nat),
    s.unitsWf = true ∧ k < 3 ∧ s.clocked = true ∧ (s.dom k).run = true ∧ (s.dom k).st = .clamped ∧ s.clk.active ≠ 0 ∧ j ≠ k) ∧
    (∃ (s : State) (k : Nat) (e : Int),
    s.unitsWf = true ∧ k < 3 ∧ s.clocked = true ∧ (s.dom k).run = true ∧ (s.dom k).st = .clamped ∧ s.clk.active ≠ 0 ∧ (s.dom k).policy = 0 ∧
      e.natAbs ≤ 1000000) ∧
    (∃ (s : State) (k : Nat),
    s.unitsWf = true ∧ k < 3 ∧ s.clocked = true ∧ (s.dom k).run = true ∧ (s.dom k).st = .clamped ∧ s.clk.active ≠ 0 ∧ (s.dom k).policy = 1) ∧
    (∃ (s : State) (k : Nat) (e : Int),
    s.unitsWf = true ∧ k < 3 ∧ s.clocked = true ∧ (s.dom k).run = true ∧ (s.dom k).st = .clamped ∧ s.clk.active ≠ 0 ∧
      ((s.dom k).policy = 2 ∨ ((s.dom k).policy = 0 ∧ 1000000 < e.natAbs))) ∧
    (∃ (s : State) (k : Nat) (j : Nat),
    s.unitsWf = true ∧ k < 3 ∧ s.clocked = true ∧ (s.dom k).st = .slewing ∧ j ≠ k) ∧
    (∃ (s : State) (k : Nat) (e : Int),
    s.unitsWf = true ∧ k < 3 ∧ s.clocked = true ∧ (s.dom k).st = .slewing ∧ e.natAbs ≤ 1000 ∧ e.natAbs ≤ s.clk.lockWin) ∧
    (∃ (s : State) (k : Nat) (e : Int),
    s.unitsWf = true ∧ k < 3 ∧ s.clocked = true ∧ (s.dom k).st = .slewing ∧ (1000 < e.natAbs ∨ s.clk.lockWin < e.natAbs)) ∧
    (∃ (s : State) (k : Nat) (j : Nat),
    s.unitsWf = true ∧ k < 3 ∧ s.clocked = true ∧ (s.dom k).st = .stepping ∧ 64 ≤ (s.dom k).stepPos ∧ j ≠ k) ∧
    (∃ (s : State) (r : Nat) (k : Nat) (code : Nat) (j : Nat),
    s.unitsWf = true ∧ r < 7 ∧ k < 3 ∧ code < 4 ∧ s.commands r = true ∧ j ≠ k) ∧
    (∃ (s : State) (r : Nat) (k : Nat) (j : Nat),
    s.unitsWf = true ∧ r < 7 ∧ k < 3 ∧ s.commands r = true ∧ j ≠ k) ∧
    (∃ (s : State) (r : Nat) (k : Nat),
    let ok := (s.dom k).st = .held ∧ s.clk.active ≠ 0
    s.unitsWf = true ∧ r < 7 ∧ k < 3 ∧ s.commands r = true ∧ ok) ∧
    (∃ (c : ClkSys) (k : Nat),
    Memory.wf (fun _ => Dom.reset) c.doms = true ∧ (c.dom k).st = .held ∧ c.active ≠ 0 ∧ (c.dom k).policyNew = false ∧ (c.dom k).stepDue = false ∧
      (c.dom k).cmd = some true) ∧
    (∃ (c : ClkSys) (k : Nat),
    Memory.wf (fun _ => Dom.reset) c.doms = true ∧ (c.dom k).st = .held ∧ c.active ≠ 0 ∧ (c.dom k).policyNew = false ∧ (c.dom k).stepDue = false ∧
      (c.dom k).cmd = some false) ∧
    (∃ (c : ClkSys) (k : Nat),
    Memory.wf (fun _ => Dom.reset) c.doms = true ∧ (c.dom k).st = .held ∧ c.active ≠ 0 ∧ (c.dom k).policyNew = false ∧ (c.dom k).stepDue = false ∧
      (c.dom k).cmd = none) ∧
    (∃ (s : State) (k : Nat) (j : Nat),
    s.unitsWf = true ∧ k < 3 ∧ s.awake = true ∧ (s.dom k).run = true ∧ (s.dom k).declared = false ∧ s.oldWork k = false ∧ j ≠ k) ∧
    (∃ (s : State) (k : Nat),
    s.unitsWf = true ∧ k < 3 ∧ s.awake = true ∧ (s.dom k).run = true ∧ (s.dom k).declared = false ∧ s.oldWork k = false) ∧
    (∃ (s : State) (k : Nat) (rate : Nat) (tol : Nat) (j : Nat),
    s.unitsWf = true ∧ k < 3 ∧ s.awake = true ∧ (s.dom k).run = false ∧ (s.dom k).restart = some (rate, tol) ∧ s.awaitsRestart k = true ∧ j ≠ k) ∧
    (∃ (s : State) (r : Nat) (k : Nat) (j : Nat),
    s.unitsWf = true ∧ s.quiet = true ∧ r < 7 ∧ k < 3 ∧ s.readable = true ∧ (r = 6 ∨ (s.host.view r).isSome = true) ∧ j ≠ k) :=
  ⟨⟨wDom 2 { wRun with st := .locked }, 2, 0, by decide⟩,
    ⟨wDom 2 { wRun with st := .locked }, 2, by decide⟩,
    ⟨wDom 2 { wRun with st := .clamped }, 2, by decide⟩,
    ⟨wDom 2 { wRun with st := .clamped }, 2, 0, by decide⟩,
    ⟨wDom 2 { wRun with st := .clamped }, 2, 0, by decide⟩,
    ⟨wDom 2 { wRun with st := .clamped, policy := 1 }, 2, by decide⟩,
    ⟨wDom 2 { wRun with st := .clamped }, 2, 1000001, by decide⟩,
    ⟨wDom 2 { wRun with st := .slewing }, 2, 0, by decide⟩,
    ⟨wDom 2 { wRun with st := .slewing }, 2, -100, by decide⟩,
    ⟨wDom 2 { wRun with st := .slewing }, 2, 101, by decide⟩,
    ⟨wDom 2 { wRun with st := .stepping, stepPos := 64 }, 2, 0, by decide⟩,
    ⟨wDom 2 { wRun with st := .locked }, 6, 2, 3, 0, by decide⟩,
    ⟨wDom 2 { wRun with st := .locked }, 6, 2, 0, by decide⟩,
    ⟨wDom 2 { wRun with st := .held }, 6, 2, by decide⟩,
    ⟨(wDom 2 { wRun with st := .held, cmd := some true }).clk, 2, by decide⟩,
    ⟨(wDom 2 { wRun with st := .held, cmd := some false }).clk, 2, by decide⟩,
    ⟨(wDom 2 { wRun with st := .held, cmd := none }).clk, 2, by decide⟩,
    ⟨wDom 2 { wRun with declared := false }, 2, 0, by decide⟩,
    ⟨wDom 2 { wRun with declared := false }, 2, by decide⟩,
    ⟨{ wDom 2 { wRun with run := false, st := .stopped, restart := some (2, 50) } with setter := { SetterSys.reset with armed := [wArm 0 .dip [⟨1, 0, 2, 0, 9, false⟩] 4] } }, 2, 2, 50, 0, by decide⟩,
    ⟨wDom 2 { wRun with st := .locked }, 6, 2, 0, by decide⟩⟩

theorem witness_ClockOutputCommands :
    (∃ (s : State) (r : Nat) (n : Nat) (m : Nat),
    Memory.wf zeroW s.clk.outCfg = true ∧ r < 7 ∧ n < 8 ∧ s.commands r = true ∧ m ≠ n) ∧
    (∃ (s : State) (r : Nat) (n : Nat) (v : Word),
    Memory.wf zeroW s.clk.outCfg = true ∧ r < 7 ∧ n < 8 ∧ s.commands r = true ∧ s.clk.outHiZ = false ∧ (v.flag 31 = false ∨ v.fld 0 3 = 0)) ∧
    (∃ (s : State) (r : Nat) (n : Nat) (v : Word),
    Memory.wf zeroW s.clk.outCfg = true ∧ r < 7 ∧ n < 8 ∧ s.commands r = true ∧ s.clk.outHiZ = false ∧ v.flag 31 = true ∧ v.fld 0 3 = 5) ∧
    (∃ (s : State) (r : Nat) (n : Nat) (v : Word),
    Memory.wf zeroW s.clk.outCfg = true ∧ r < 7 ∧ n < 8 ∧ s.commands r = true ∧ s.clk.outHiZ = false ∧ v.flag 31 = true ∧ v.fld 0 3 = 6) ∧
    (∃ (s : State) (r : Nat) (n : Nat) (m : Nat),
    Memory.wf outDivReset s.clk.outDiv = true ∧ r < 7 ∧ n < 8 ∧ s.commands r = true ∧ m ≠ n) ∧
    (∃ (s : State) (r : Nat) (n : Nat) (v : Word),
    Memory.wf outDivReset s.clk.outDiv = true ∧ r < 7 ∧ n < 8 ∧ s.commands r = true ∧ 2 ≤ v.fld 20 12) ∧
    (∃ (s : State) (r : Nat) (n : Nat) (v : Word),
    Memory.wf outDivReset s.clk.outDiv = true ∧ r < 7 ∧ n < 8 ∧ s.commands r = true ∧ v.fld 20 12 < 2) ∧
    (∃ (s : State) (falling : Bool),
    s.clocked = true ∧ s.clk.sync.fld 2 2 ≠ 0 ∧ s.clk.sync.flag 0 = falling) ∧
    (∃ (s : State) (falling : Bool),
    s.clocked = true ∧ (s.clk.sync.fld 2 2 = 0 ∨ s.clk.sync.flag 0 ≠ falling)) ∧
    (∃ (s : State) (ns : Nat) (n : Nat),
    let d := s.dom (s.clk.sync.fld 4 2)
    s.clocked = true ∧ s.clk.syncEdges = [ns] ∧ Memory.wf (fun _ => 0) s.clk.outRestart = true ∧ d.run = true ∧ 0 < d.next ∧ ns + 100 ≤ d.lastNs ∧
      n < 8) ∧
    (∃ (s : State) (ns : Nat),
    let d := s.dom (s.clk.sync.fld 4 2)
    s.clocked = true ∧ s.clk.syncEdges = [ns] ∧ Memory.wf (fun _ => 0) s.clk.outRestart = true ∧
      (d.run = false ∨ d.next = 0 ∨ d.lastNs < ns + 100)) :=
  ⟨⟨wB, 6, 7, 0, by decide⟩,
    ⟨wClk { ClkSys.reset with outHiZ := false }, 6, 7, 0x5#32, by decide⟩,
    ⟨wClk { ClkSys.reset with outHiZ := false }, 6, 7, 0x80000005#32, by decide⟩,
    ⟨wClk { ClkSys.reset with outHiZ := false }, 6, 7, 0x80000006#32, by decide⟩,
    ⟨wB, 6, 7, 0, by decide⟩,
    ⟨wB, 6, 7, 0x00200000#32, by decide⟩,
    ⟨wB, 6, 7, 0x001FFFFF#32, by decide⟩,
    ⟨wClk { ClkSys.reset with sync := 0x5 }, true, by decide⟩,
    ⟨wB, true, by decide⟩,
    ⟨wClk { ClkSys.reset with sync := 0x4, syncEdges := [4999999900], doms := [(0, { wRun with lastNs := 5000000000 })] }, 4999999900, 7, by decide⟩,
    ⟨wClk { ClkSys.reset with sync := 0x4, syncEdges := [4999999900], doms := [(0, { wRun with lastNs := 4999999999 })] }, 4999999900, by decide⟩⟩

theorem witness_NetworkPortCommands :
    (∃ (s : State) (i : Nat),
    i < 2 ∧ s.netUp = true ∧ (s.net.port i).link = false) ∧
    (∃ (s : State) (i : Nat) (los : Bool) (blk : Bool) (ber : Bool),
    i < 2 ∧ s.netUp = true ∧ (s.net.port i).link = true ∧ (los = true ∨ blk = false ∨ ber = true)) ∧
    (∃ (s : State) (i : Nat) (los : Bool) (blk : Bool) (ber : Bool),
    i < 2 ∧ s.netUp = true ∧ (s.net.port i).link = true ∧ los = false ∧ blk = true ∧ ber = false) ∧
    (∃ (s : State) (r : Nat),
    s.quiet = true ∧ r < 7 ∧ s.commands r = true ∧ s.net.i2c.flag 31 = true) ∧
    (∃ (s : State) (r : Nat) (v : Word),
    s.quiet = true ∧ r < 7 ∧ s.commands r = true ∧ s.net.i2c.flag 31 = false ∧ v.flag 31 = true ∧ (v.fld 17 7 = 0x50 ∨ v.fld 17 7 = 0x51)) ∧
    (∃ (s : State) (ack : Bool) (d : Nat),
    d < 256 ∧ s.awake = true ∧ s.net.i2c.flag 31 = true ∧ ack = true ∧ s.net.i2c.flag 26 = false) ∧
    (∃ (s : State) (ack : Bool) (d : Nat),
    d < 256 ∧ s.awake = true ∧ s.net.i2c.flag 31 = true ∧ ack = false) ∧
    (∃ (s : State) (i : Nat),
    i < 2 ∧ s.netUp = true ∧ (s.net.port i).garp = true ∧ (s.net.port i).link = true) ∧
    (∃ (s : State) (i : Nat) (ip : Nat) (a : Arp),
    i < 2 ∧ ip < 2 ^ 32 ∧ s.netUp = true ∧ (s.net.port i).arpOf ip = some a ∧ a.mac.isSome = true ∧ a.asked = none ∧ a.at_ + 60000000 ≤ s.us) ∧
    (∃ (s : State) (i : Nat) (ip : Nat) (a : Arp),
    i < 2 ∧ ip < 2 ^ 32 ∧ s.netUp = true ∧ (s.net.port i).arpOf ip = some a ∧ a.asked.isSome = true ∧ a.lastReq + 1000000 ≤ s.us ∧
      ((s.net.port i).nextHop ip).isSome = true) ∧
    (∃ (s : State) (i : Nat) (ip : Nat) (a : Arp) (u : Nat),
    i < 2 ∧ ip < 2 ^ 32 ∧ s.netUp = true ∧ (s.net.port i).arpOf ip = some a ∧ a.asked = some u ∧ u + 3000000 ≤ s.us ∧ a.raised = false) ∧
    (∃ (s : State) (i : Nat),
    i < 2 ∧ s.netUp = true ∧ (s.net.port i).queries ≠ []) ∧
    (∃ (s : State) (i : Nat),
    i < 2 ∧ s.netUp = true ∧ (s.net.port i).resend ≠ []) ∧
    (∃ (s : State) (i : Nat),
    i < 2 ∧ s.netUp = true ∧ (s.net.port i).compat ≠ none) :=
  ⟨⟨wB, 1, by decide⟩,
    ⟨wNet { NetSys.reset with n1 := { wUp with garp := true } }, 1, true, true, false, by decide⟩,
    ⟨wNet { NetSys.reset with n1 := { wUp with garp := true } }, 1, false, true, false, by decide⟩,
    ⟨wNet { NetSys.reset with i2c := 0x80000000 }, 6, by decide⟩,
    ⟨wB, 6, 0x80A20000#32, by decide⟩,
    ⟨wNet { NetSys.reset with i2c := 0x80000000 }, true, 255, by decide⟩,
    ⟨wNet { NetSys.reset with i2c := 0x80000000 }, false, 255, by decide⟩,
    ⟨wNet { NetSys.reset with n1 := { wUp with garp := true } }, 1, by decide⟩,
    ⟨wNet { NetSys.reset with n1 := { wUp with arp := [({ ip := 0x0A000002, mac := some 5, at_ := 40000000, asked := none, lastReq := 0, raised := false } : Arp)] } }, 1, 0x0A000002, ({ ip := 0x0A000002, mac := some 5, at_ := 40000000, asked := none, lastReq := 0, raised := false } : Arp), by decide⟩,
    ⟨wNet { NetSys.reset with n1 := { wUp with arp := [({ ip := 0x0A000002, mac := none, at_ := 0, asked := some 97000000, lastReq := 99000000, raised := false } : Arp)] } }, 1, 0x0A000002, ({ ip := 0x0A000002, mac := none, at_ := 0, asked := some 97000000, lastReq := 99000000, raised := false } : Arp), by decide⟩,
    ⟨wNet { NetSys.reset with n1 := { wUp with arp := [({ ip := 0x0A000002, mac := none, at_ := 0, asked := some 97000000, lastReq := 99000000, raised := false } : Arp)] } }, 1, 0x0A000002, ({ ip := 0x0A000002, mac := none, at_ := 0, asked := some 97000000, lastReq := 99000000, raised := false } : Arp), 97000000, by decide⟩,
    ⟨wNet { NetSys.reset with n1 := { wUp with queries := [none] } }, 1, by decide⟩,
    ⟨wNet { NetSys.reset with n1 := { wUp with resend := [⟨0xEF000001, 4, [], 1⟩] } }, 1, by decide⟩,
    ⟨wNet { NetSys.reset with n1 := { wUp with compat := some 2 } }, 1, by decide⟩⟩

theorem witness_StreamContextCommands :
    (∃ (s : State) (i : Nat) (es : List Int),
    i < 2 ∧ es.length = 3 ∧ s.netUp = true ∧ ((s.net.port i).en = false ∨ (s.net.port i).link = false)) ∧
    (∃ (s : State) (i : Nat) (f : List Byte) (es : List Int),
    i < 2 ∧ es.length = 3 ∧ s.netUp = true ∧ (s.net.port i).en = true ∧ (s.net.port i).link = true ∧ parseEth (s.net.port i) f = .error .fcs) ∧
    (∃ (s : State) (i : Nat) (f : List Byte) (es : List Int),
    i < 2 ∧ es.length = 3 ∧ s.netUp = true ∧ (s.net.port i).en = true ∧ (s.net.port i).link = true ∧ parseEth (s.net.port i) f = .error .other) ∧
    (∃ (s : NetSys) (n : Nat) (ts : Nat) (ws : List Nat),
    Memory.wf (fun _ => RxCtx.reset) s.rx = true ∧ Memory.wf (fun _ => none) (s.rxc n).buf = true ∧
      Memory.get (fun _ => none) (s.rxc n).buf ts = some ws) ∧
    (∃ (s : NetSys) (n : Nat) (r : Rtp),
    Memory.wf (fun _ => RxCtx.reset) s.rx = true ∧ Memory.wf (fun _ => none) (s.rxc n).buf = true ∧
      (r.pt ≠ (s.rxc n).pt ∨ r.data.length ≠ (s.rxc n).ch * (s.rxc n).ptime * fmtBytes (s.rxc n).fmt ∨ (∃ x, (s.rxc n).ssrc = some x ∧ x ≠ r.ssrc))) ∧
    (∃ (s : State) (n : Nat) (i : Nat) (ns : Nat) (m : Nat),
    s.unitsWf = true ∧ n < 1024 ∧ i < 2 ∧ s.netUp = true ∧ (s.net.rxc n).used = true ∧ leg (s.net.rxc n).legOk i = true ∧
      ((s.net.port i).link = false ∨ leg (s.net.rxc n).lastNs i + 1000000 ≤ ns) ∧ m ≠ n) ∧
    (∃ (s : State) (n : Nat) (ns : Nat) (m : Nat),
    s.unitsWf = true ∧ n < 1024 ∧ s.netUp = true ∧ (s.net.rxc n).used = true ∧ (s.net.rxc n).present = true ∧
      max (s.net.rxc n).lastNs.1 (s.net.rxc n).lastNs.2 + max (4 * (s.net.rxc n).ptime * 1000000000 / max 1 (s.net.rxc n).hz) 1000000 < ns ∧ m ≠ n) ∧
    (∃ (s : State) (n : Nat) (q : Nat) (k : TxPkt) (rest : List TxPkt) (m : Nat),
    s.unitsWf = true ∧ n < 1024 ∧ s.netUp = true ∧ (s.net.txc n).ready = k :: rest ∧ (s.net.txc n).seq = some q ∧ m ≠ n) ∧
    (∃ (s : State) (n : Nat) (q : Nat) (k : TxPkt) (rest : List TxPkt),
    s.unitsWf = true ∧ n < 1024 ∧ s.netUp = true ∧ (s.net.txc n).ready = k :: rest ∧ (s.net.txc n).seq = some q ∧ s.quiet = true ∧
      s.clk.rescue = true) ∧
    (∃ (s : State) (n : Nat) (q : Nat) (k : TxPkt) (rest : List TxPkt),
    let c := s.net.txc n
    s.unitsWf = true ∧ n < 1024 ∧ s.netUp = true ∧ (s.net.txc n).ready = k :: rest ∧ (s.net.txc n).seq = some q ∧ s.quiet = true ∧ s.txOn = true ∧
      s.clk.rescue = false ∧ c.ports = 1 ∧ s.net.n0.en = true ∧ s.net.n0.link = true ∧ isGroup c.addr.1 = true) :=
  ⟨⟨wB, 1, [0, 0, 0], by decide⟩,
    ⟨wNet { NetSys.reset with n1 := { wUp with rxDrop := 0 } }, 1, [], [0, 0, 0], ⟨by decide, by decide, by decide, by decide, by decide, by rfl⟩⟩,
    ⟨wNet { NetSys.reset with n1 := { wUp with rxDrop := 0 } }, 1, (List.replicate 60 0 ++ leBytes 4 (crc32 (List.replicate 60 0))), [0, 0, 0], ⟨by decide, by decide, by decide, by decide, by decide, by rfl⟩⟩,
    ⟨{ NetSys.reset with rx := [(1023, { RxCtx.reset with used := true, ports := 3, ch := 1, ptime := 48, hz := 48000, fmt := 1, pt := 98, buf := [(9, some [1])] })] }, 1023, 9, [1], by decide⟩,
    ⟨{ NetSys.reset with rx := [(1023, { RxCtx.reset with used := true, ports := 3, ch := 1, ptime := 48, hz := 48000, fmt := 1, pt := 98, buf := [(9, some [1])] })] }, 1023, ⟨97, 0, 9, 5, []⟩, ⟨by decide, by decide, Or.inl (by decide)⟩⟩,
    ⟨wNet { NetSys.reset with n1 := wUp, rx := [(1023, { RxCtx.reset with used := true, ports := 3, ch := 1, ptime := 48, hz := 48000, fmt := 1, present := true, legOk := (false, true), lastNs := (0, 5999000000) })] }, 1023, 1, 6000000000, 0, by decide⟩,
    ⟨wNet { NetSys.reset with n1 := wUp, rx := [(1023, { RxCtx.reset with used := true, ports := 3, ch := 1, ptime := 48, hz := 48000, fmt := 1, present := true, legOk := (false, true), lastNs := (0, 5995999999) })] }, 1023, 6000000000, 0, by decide⟩,
    ⟨{ wNet { NetSys.reset with n0 := wUp, tx := [(1023, { TxCtx.reset with used := true, ports := 1, addr := (0xEF000001, 0), udp := (5004, 0), pt := 97, seq := some 65535, ready := [⟨1, 2, [3]⟩] })] } with clk := { wB.clk with rescue := true } }, 1023, 65535, ⟨1, 2, [3]⟩, [], 0, by decide⟩,
    ⟨{ wNet { NetSys.reset with n0 := wUp, tx := [(1023, { TxCtx.reset with used := true, ports := 1, addr := (0xEF000001, 0), udp := (5004, 0), pt := 97, seq := some 65535, ready := [⟨1, 2, [3]⟩] })] } with clk := { wB.clk with rescue := true } }, 1023, 65535, ⟨1, 2, [3]⟩, [], by decide⟩,
    ⟨{ wNet { NetSys.reset with n0 := wUp, tx := [(1023, { TxCtx.reset with used := true, ports := 1, addr := (0xEF000001, 0), udp := (5004, 0), pt := 97, seq := some 65535, ready := [⟨1, 2, [3]⟩] })] } with clk := { wB.clk with rescue := false } }, 1023, 65535, ⟨1, 2, [3]⟩, [], by decide⟩⟩

theorem witness_TimeCoreCommands :
    (∃ (n : NetSys) (i : Nat) (off : Int),
    i < 2 ∧ i = n.ptp.follow ∧ (n.ptp.port i).state = 2 ∧ n.ptp.ok = false ∧ n.ptp.first = true ∧ 1000 < off.natAbs) ∧
    (∃ (n : NetSys) (i : Nat) (off : Int),
    i < 2 ∧ i = n.ptp.follow ∧ (n.ptp.port i).state = 2 ∧ n.ptp.ok = false ∧ n.ptp.good = 15 ∧ off.natAbs ≤ 1000) ∧
    (∃ (n : NetSys) (i : Nat),
    i < 2 ∧ i = n.ptp.follow ∧ (n.ptp.port i).state = 2 ∧ n.ptp.ok = false ∧ n.ptp.good < 15) ∧
    (∃ (n : NetSys) (i : Nat) (off : Int),
    i < 2 ∧ i = n.ptp.follow ∧ (n.ptp.port i).state = 2 ∧ n.ptp.ok = true ∧ n.ptp.bad = 7 ∧ 10000 < off.natAbs) ∧
    (∃ (n : NetSys) (i : Nat) (off : Int),
    i < 2 ∧ i = n.ptp.follow ∧ (n.ptp.port i).state = 2 ∧ n.ptp.ok = true ∧ (n.ptp.bad < 7 ∨ off.natAbs ≤ 10000)) ∧
    (∃ (s : State) (i : Nat) (es : List Int),
    i < 2 ∧ es.length = 3 ∧ s.netUp = true ∧ (s.net.ptp.port i).state = 0) ∧
    (∃ (s : State) (i : Nat) (es : List Int),
    i < 2 ∧ es.length = 3 ∧ s.netUp = true ∧ (s.net.ptp.port i).state ≠ 0 ∧ s.net.ptp.en = true ∧ (s.net.port i).en = true ∧
      (s.net.port i).link = true) ∧
    (∃ (s : State) (i : Nat) (es : List Int),
    i < 2 ∧ es.length = 3 ∧ s.netUp = true ∧ (s.net.ptp.port i).state ≠ 0 ∧ (s.net.ptp.port i).state = 2 ∧ s.net.ptp.follow = i ∧
      s.net.ptp.servo = i) ∧
    (∃ (s : State) (i : Nat) (es : List Int),
    i < 2 ∧ es.length = 3 ∧ s.netUp = true ∧ (i ≠ s.net.ptp.follow ∨ s.net.ptp.en = false)) ∧
    (∃ (s : State) (i : Nat) (es : List Int),
    i < 2 ∧ es.length = 3 ∧ s.netUp = true ∧ i = s.net.ptp.follow ∧ s.net.ptp.en = true ∧ s.net.ptp.servo ≠ 2) ∧
    (∃ (s : State) (i : Nat) (es : List Int),
    i < 2 ∧ es.length = 3 ∧ s.netUp = true ∧ i = s.net.ptp.follow ∧ s.net.ptp.en = true ∧ s.net.ptp.servo = 2 ∧ (s.net.ptp.port (1 - i)).state = 2 ∧
      (s.net.ptp.port (1 - i)).parent.map Announce.gm = some s.net.ptp.gm ∧
      ((s.net.ptp.port (1 - i)).offset - (s.net.ptp.port i).offset).natAbs ≤ 1000) ∧
    (∃ (s : State) (i : Nat),
    s.quiet = true ∧ i < 2 ∧ s.netUp = true ∧ (s.net.ptp.port i).state = 3 ∧ s.txOn = true) ∧
    (∃ (s : State) (i : Nat),
    s.quiet = true ∧ i < 2 ∧ s.netUp = true ∧ (s.net.ptp.port i).state = 2 ∧ s.txOn = true) ∧
    (∃ (s : State) (r : Nat) (i : Nat) (j : Nat),
    r < 7 ∧ i < 2 ∧ s.commands r = true ∧ j < 2 ∧ j ≠ i) ∧
    (∃ (s : State) (r : Nat) (i : Nat) (v : Word),
    r < 7 ∧ i < 2 ∧ s.commands r = true ∧ (s.net.port i).en = true ∧ v.flag 0 = false) ∧
    (∃ (s : State) (r : Nat) (v : Word) (es : List Int),
    r < 7 ∧ es.length = 3 ∧ s.commands r = true ∧ s.net.ptp.en = false ∧ v.flag 0 ≠ s.net.ptp.aes67) ∧
    (∃ (s : State) (r : Nat) (v : Word) (es : List Int),
    r < 7 ∧ es.length = 3 ∧ s.commands r = true ∧ s.net.ptp.en = true ∧ v.flag 16 = false) :=
  ⟨⟨{ NetSys.reset with ptp := { PtpSys.reset with p0 := { PtpPort.reset with state := 2 }, first := true } }, 0, -1001, by decide⟩,
    ⟨{ NetSys.reset with ptp := { PtpSys.reset with p0 := { PtpPort.reset with state := 2 }, good := 15 } }, 0, 1000, by decide⟩,
    ⟨{ NetSys.reset with ptp := { PtpSys.reset with p0 := { PtpPort.reset with state := 2 }, first := true } }, 0, by decide⟩,
    ⟨{ NetSys.reset with ptp := { PtpSys.reset with p0 := { PtpPort.reset with state := 2 }, ok := true, bad := 7 } }, 0, 10001, by decide⟩,
    ⟨{ NetSys.reset with ptp := { PtpSys.reset with p0 := { PtpPort.reset with state := 2 }, ok := true, bad := 6 } }, 0, 10001, by decide⟩,
    ⟨wB, 1, [0, 0, 0], by decide⟩,
    ⟨wNet { NetSys.reset with n1 := wUp, ptp := { PtpSys.reset with ctl := 0x10080, p1 := { PtpPort.reset with state := 2 }, follow := 1 } }, 1, [0, 0, 0], by decide⟩,
    ⟨wNet { NetSys.reset with n1 := wUp, ptp := { PtpSys.reset with ctl := 0x10090, p1 := { PtpPort.reset with state := 2 }, follow := 1 } }, 1, [0, 0, 0], by decide⟩,
    ⟨wB, 1, [0, 0, 0], by decide⟩,
    ⟨wNet { NetSys.reset with n1 := wUp, ptp := { PtpSys.reset with ctl := 0x10080, p1 := { PtpPort.reset with state := 2 }, follow := 1 } }, 1, [0, 0, 0], by decide⟩,
    ⟨wNet { NetSys.reset with n1 := wUp, ptp := { PtpSys.reset with ctl := 0x100A0, follow := 1, gm := 77, p0 := { PtpPort.reset with state := 2, offset := 1000, parent := some ⟨128, 6, 0x21, 0, 128, 77, 0, 5⟩ }, p1 := { PtpPort.reset with state := 2 } } }, 1, [0, 0, 0], by decide⟩,
    ⟨wNet { NetSys.reset with n1 := wUp, ptp := { PtpSys.reset with ctl := 0x10080, p1 := { PtpPort.reset with state := 3 } } }, 1, by decide⟩,
    ⟨wNet { NetSys.reset with n1 := wUp, ptp := { PtpSys.reset with ctl := 0x10080, p1 := { PtpPort.reset with state := 2 }, follow := 1 } }, 1, by decide⟩,
    ⟨wB, 6, 1, 0, by decide⟩,
    ⟨wNet { NetSys.reset with n1 := wUp, ptp := { PtpSys.reset with ctl := 0x10080, p1 := { PtpPort.reset with state := 2 }, follow := 1 } }, 6, 1, 0x10000#32, by decide⟩,
    ⟨wB, 6, 1#32, [0, 0, 0], by decide⟩,
    ⟨wNet { NetSys.reset with n1 := wUp, ptp := { PtpSys.reset with ctl := 0x10080, follow := 0 } }, 6, 0#32, [0, 0, 0], by decide⟩⟩

theorem witness_FadeAndRampLaws :
    (∃ (xs : List Word) (i : Nat),
    i < xs.length) ∧
    (∃ (x : Word) (c : Nat),
    let y := (gainMul x c).toInt
    c ≤ 2 ^ 28 ∧ (2 ^ 28 * y - x.toInt * c).natAbs = 2 ^ 27) :=
  ⟨⟨[1#32, 2#32], 1, by decide⟩,
    ⟨1#32, 2 ^ 27, by decide⟩⟩

theorem witness_PortInputCommands :
    (∃ (s : State) (p : Nat) (f : RxFrame),
    let q := s.ports.port p
    s.unitsWf = true ∧ p < 36 ∧ s.blockUp 2 = true ∧ p < 16 ∧ q.en = true ∧ q.run = .running ∧ q.bit8 = false ∧ q.dom < 3 ∧ q.loss = false ∧
      q.await = false ∧ q.gap = false ∧ q.refLen = f.len ∧ f.len ≠ 0 ∧ f.count = q.act.slots * q.act.width ∧ q.queue.length < portDepth) ∧
    (∃ (s : State) (p : Nat) (f : RxFrame),
    let q := s.ports.port p
    s.unitsWf = true ∧ p < 36 ∧ s.blockUp 2 = true ∧ p < 16 ∧ q.en = true ∧ q.run = .running ∧ q.bit8 = false ∧ q.dom < 3 ∧ q.loss = false ∧
      q.await = false ∧ q.gap = false ∧ q.refLen = f.len ∧ f.len ≠ 0 ∧ f.count ≠ q.act.slots * q.act.width ∧ q.slip = false) ∧
    (∃ (s : State) (p : Nat),
    s.unitsWf = true ∧ p < 28 ∧ s.blockUp 2 = true ∧ isMaster p (s.ports.port p) = false ∧ (s.ports.port p).loss = false ∧
      (s.ports.port p).run = .running ∧ (s.ports.port p).gap = false) ∧
    (∃ (s : State) (p : Nat),
    s.unitsWf = true ∧ p < 36 ∧ s.blockUp 2 = true ∧ (s.ports.port p).loss = true ∧ 256 + (s.ports.port p).queue.length ≤ (s.ports.port p).stable ∧
      ((s.ports.port p).slip = true ∨ (s.ports.port p).mis = true)) ∧
    (∃ (s : State) (p : Nat),
    s.unitsWf = true ∧ p < 36 ∧ s.blockUp 2 = true ∧ (s.ports.port p).loss = true ∧ 256 + (s.ports.port p).queue.length ≤ (s.ports.port p).stable ∧
      (s.ports.port p).slip = false ∧ (s.ports.port p).mis = false) ∧
    (∃ (s : State) (p : Nat),
    s.unitsWf = true ∧ p < 36 ∧ s.blockUp 2 = true ∧ (s.ports.port p).dom ≠ 3 ∧ (s.ports.port p).fade.phase = .fadeOut 64) ∧
    (∃ (s : State) (p : Nat),
    s.unitsWf = true ∧ p < 36 ∧ s.blockUp 2 = true ∧ (s.ports.port p).fade.phase = .rampBack 512) ∧
    (∃ (s : State) (p : Nat) (rate : Nat) (dr : Nat),
    s.unitsWf = true ∧ p < 28 ∧ s.blockUp 2 = true ∧ (s.ports.port p).en = true ∧ (s.ports.port p).run ≠ .off ∧ (s.ports.port p).dom ≠ 3 ∧
      isMaster p (s.ports.port p) = false ∧ (s.ports.port p).loss = false ∧ (s.ports.port p).mis = false ∧ rate ≠ 0 ∧
      200 * dr < (if rate < dr then dr - rate else rate - dr) * 1000000) ∧
    (∃ (s : State) (p : Nat) (rate : Nat) (dr : Nat),
    s.unitsWf = true ∧ p < 28 ∧ s.blockUp 2 = true ∧ (s.ports.port p).en = true ∧ (s.ports.port p).run ≠ .off ∧ (s.ports.port p).dom ≠ 3 ∧
      isMaster p (s.ports.port p) = false ∧ (s.ports.port p).loss = false ∧ (s.ports.port p).mis = false ∧ rate ≠ 0 ∧
      (if rate < dr then dr - rate else rate - dr) * 1000000 ≤ 200 * dr) :=
  ⟨⟨wPort 15 { SerPort.reset 15 with ctl := 0x21, run := .running, refLen := 1000 }, 15, ⟨7000000000, [1, 2], 64, 1000, [], 0, [], false⟩, by decide⟩,
    ⟨wPort 15 { SerPort.reset 15 with ctl := 0x21, run := .running, refLen := 1000 }, 15, ⟨7000000000, [1, 2], 63, 1000, [], 0, [], false⟩, by decide⟩,
    ⟨wPort 15 { SerPort.reset 15 with ctl := 0x21, run := .running, refLen := 1000 }, 15, by decide⟩,
    ⟨wPort 35 { SerPort.reset 35 with loss := true, stable := 256, mis := true }, 35, by decide⟩,
    ⟨wPort 35 { SerPort.reset 35 with loss := true, stable := 256 }, 35, by decide⟩,
    ⟨wPort 35 { SerPort.reset 35 with ctl := 0x20000, fade := { Fade.reset with phase := .fadeOut 64 } }, 35, by decide⟩,
    ⟨wPort 35 { SerPort.reset 35 with fade := { Fade.reset with phase := .rampBack 512 } }, 35, by decide⟩,
    ⟨wPort 27 { SerPort.reset 27 with ctl := 1, run := .running }, 27, 4800961, 4800000, by decide⟩,
    ⟨wPort 27 { SerPort.reset 27 with ctl := 1, run := .running }, 27, 4800960, 4800000, by decide⟩⟩

theorem witness_PortControlAndLaneCommands :
    (∃ (s : State) (r : Nat) (p : Nat),
    s.unitsWf = true ∧ r < 7 ∧ p < 16 ∧ s.commands r = true ∧ (s.ports.port p).en = false) ∧
    (∃ (s : State) (r : Nat) (p : Nat),
    s.unitsWf = true ∧ r < 7 ∧ p < 16 ∧ s.commands r = true ∧ (s.ports.port p).en = true ∧ (s.ports.port p).cfgStop = false) ∧
    (∃ (s : State) (p : Nat) (c : TdmCfg),
    s.unitsWf = true ∧ p < 16 ∧ s.blockUp 2 = true ∧ (s.ports.port p).armed = some c ∧
      (s.portRate p = 0 ∨ c.slots * c.width * s.portRate p ≤ 4915200000)) ∧
    (∃ (s : State) (p : Nat) (c : TdmCfg),
    s.unitsWf = true ∧ p < 16 ∧ s.blockUp 2 = true ∧ (s.ports.port p).armed = some c ∧ s.portRate p ≠ 0 ∧
      4915200000 < c.slots * c.width * s.portRate p) ∧
    (∃ (s : State) (r : Nat) (p : Nat),
    s.unitsWf = true ∧ r < 7 ∧ p < 36 ∧ s.commands r = true ∧ (s.ports.port p).slip = true) ∧
    (∃ (s : State) (r : Nat) (p : Nat),
    s.unitsWf = true ∧ r < 7 ∧ p < 36 ∧ s.commands r = true ∧ (s.ports.port p).slip = false ∧ (s.ports.port p).mis = false) ∧
    (∃ (s : State) (r : Nat) (v : Word),
    r < 7 ∧ s.commands r = true ∧ (v.fld 0 2 = 3 ∨ v.fld 4 2 = 3)) ∧
    (∃ (s : State) (r : Nat) (v : Word),
    r < 7 ∧ s.commands r = true ∧ v.fld 0 2 ≠ 3 ∧ v.fld 4 2 ≠ 3) ∧
    (∃ (s : State),
    s.blockUp 2 = true) ∧
    (∃ (s : State) (r : Nat) (p : Nat) (v : Word),
    s.unitsWf = true ∧ r < 7 ∧ p < 28 ∧ s.commands r = true ∧ (s.ports.port p).en = true ∧ v.flag 0 = false) ∧
    (∃ (s : State) (n : Nat),
    s.unitsWf = true ∧ n < 2048 ∧ s.working = true ∧ s.blockUp 3 = true ∧ (s.links.lane n).used = true ∧ (s.links.lane n).st ≠ .retired ∧
      (s.links.lane n).st ≠ .idle ∧ (s.links.lane n).async = false) ∧
    (∃ (s : State) (n : Nat) (fill : Bool),
    s.unitsWf = true ∧ n < 2048 ∧ s.working = true ∧ s.blockUp 3 = true ∧ (s.links.lane n).used = true ∧ (s.links.lane n).st ≠ .retired ∧
      (s.links.lane n).st ≠ .idle ∧ (fill = false ∨ (s.links.lane n).async = true)) ∧
    (∃ (s : State) (n : Nat),
    s.unitsWf = true ∧ n < 2048 ∧ s.working = true ∧ s.blockUp 3 = true ∧ (s.links.lane n).used = true ∧ (s.links.lane n).st = .acquiring ∧
      (s.links.lane n).fresh = true) ∧
    (∃ (s : State) (n : Nat),
    s.unitsWf = true ∧ n < 2048 ∧ s.working = true ∧ s.blockUp 3 = true ∧ (s.links.lane n).used = true ∧ (s.links.lane n).st = .acquiring ∧
      (s.links.lane n).fresh = false) :=
  ⟨⟨wB, 6, 15, by decide⟩,
    ⟨wPort 15 { SerPort.reset 15 with ctl := 1 }, 6, 15, by decide⟩,
    ⟨wPort 15 { SerPort.reset 15 with armed := some TdmCfg.reset }, 15, TdmCfg.reset, by decide⟩,
    ⟨{ wPort 15 { SerPort.reset 15 with ctl := 0x21, armed := some { TdmCfg.reset with fmt := 0x63F } } with clk := (wDom 2 { wRun with rate := 6 }).clk }, 15, { TdmCfg.reset with fmt := 0x63F }, by decide⟩,
    ⟨wPort 35 { SerPort.reset 35 with slip := true }, 6, 35, by decide⟩,
    ⟨wB, 6, 15, by decide⟩,
    ⟨wB, 6, 3#32, by decide⟩,
    ⟨wB, 6, 0#32, by decide⟩,
    ⟨wB, by decide⟩,
    ⟨wPort 15 { SerPort.reset 15 with ctl := 1 }, 6, 15, 0#32, by decide⟩,
    ⟨wLane 2047 { Lane.reset with used := true, st := .locked }, 2047, by decide⟩,
    ⟨wLane 2047 { Lane.reset with used := true, st := .locked, async := true }, 2047, true, by decide⟩,
    ⟨wLane 2047 { Lane.reset with used := true, st := .acquiring, fresh := true }, 2047, by decide⟩,
    ⟨wLane 2047 { Lane.reset with used := true, st := .acquiring }, 2047, by decide⟩⟩

theorem witness_ClaimCommands :
    (∃ (s : State) (r : Nat) (p : Nat),
    s.unitsWf = true ∧ r < 6 ∧ s.writable = true ∧ s.host.view r = some p ∧ s.us < Memory.get (fun _ => 0) s.host.until_ r) ∧
    (∃ (s : State) (r : Nat) (p : Nat),
    let q := s.host.part p
    s.unitsWf = true ∧ r < 6 ∧ s.writable = true ∧ s.host.view r = some p ∧ Memory.get (fun _ => 0) s.host.until_ r ≤ s.us ∧ q.claim = none ∧
      q.enrol = none ∧ s.claimKey p = none) ∧
    (∃ (s : State) (r : Nat) (p : Nat),
    let q := s.host.part p
    s.unitsWf = true ∧ r < 6 ∧ s.writable = true ∧ s.host.view r = some p ∧ Memory.get (fun _ => 0) s.host.until_ r ≤ s.us ∧ q.claim = none ∧
      q.enrol = none ∧ s.claimKey p ≠ none) ∧
    (∃ (s : State) (r : Nat) (p : Nat),
    let q := s.host.part p
    s.unitsWf = true ∧ r < 6 ∧ s.writable = true ∧ s.host.view r = some p ∧ (q.claim.isSome = true ∨ q.enrol.isSome = true)) ∧
    (∃ (s : State) (r : Nat) (p : Nat),
    let q := s.host.part p
    s.unitsWf = true ∧ r < 6 ∧ s.writable = true ∧ s.host.view r = some p ∧ q.claim = none ∧ q.enrol = none) ∧
    (∃ (s : State) (p : Nat) (r : Nat) (res : Nat) (resp : Nat),
    s.unitsWf = true ∧ Memory.wf (fun _ => 0) s.host.fails = true ∧ Memory.wf (fun _ => 0) s.host.until_ = true ∧ p < 4 ∧ s.awake = true ∧
      (s.host.part p).claim = some (r, res, resp) ∧ res = 1) ∧
    (∃ (s : State) (p : Nat) (r : Nat) (res : Nat) (resp : Nat),
    s.unitsWf = true ∧ Memory.wf (fun _ => 0) s.host.fails = true ∧ Memory.wf (fun _ => 0) s.host.until_ = true ∧ p < 4 ∧ s.awake = true ∧
      (s.host.part p).claim = some (r, res, resp) ∧ res ≠ 1) ∧
    (∃ (s : State) (r : Nat) (p : Nat),
    let q := s.host.part p
    s.unitsWf = true ∧ r < 6 ∧ s.writable = true ∧ s.host.view r = some p ∧ q.holder ≠ some (ifaceOf r)) ∧
    (∃ (s : State) (r : Nat) (p : Nat),
    let q := s.host.part p
    s.unitsWf = true ∧ r < 6 ∧ s.writable = true ∧ s.host.view r = some p ∧ q.holder = some (ifaceOf r)) ∧
    (∃ (s : State) (r : Nat) (p : Nat),
    s.unitsWf = true ∧ r < 6 ∧ s.writable = true ∧ s.host.view r = some p ∧ Memory.get (fun _ => 0) s.host.until_ r ≤ s.us ∧
      (p ≠ 0 ∨ s.mem.locked = true ∨ (s.boot.otp.state ≠ 1 ∧ s.boot.otp.state ≠ 2) ∨ (s.boot.partKey 0).isSome = true)) ∧
    (∃ (s : State) (r : Nat) (p : Nat),
    let q := s.host.part p
    s.unitsWf = true ∧ r < 6 ∧ s.writable = true ∧ s.host.view r = some p ∧ Memory.get (fun _ => 0) s.host.until_ r ≤ s.us ∧ p = 0 ∧
      s.mem.locked = false ∧ (s.boot.otp.state = 1 ∨ s.boot.otp.state = 2) ∧ s.boot.partKey 0 = none ∧ q.enrol = none ∧ q.claim = none) ∧
    (∃ (s : State) (stored : Bool) (r : Nat) (k : List Byte),
    s.unitsWf = true ∧ s.awake = true ∧ (s.host.part 0).enrol = some (r, k) ∧ stored = false) ∧
    (∃ (s : State) (p : Nat) (n : Nat) (t0 : Nat),
    s.unitsWf = true ∧ p < 4 ∧ s.awake = true ∧ (s.host.part p).nonce = some (n, t0)) ∧
    (∃ (s : State) (r : Nat),
    Memory.wf (fun _ => 0) s.host.until_ = true ∧ r < 7 ∧ s.awake = true) :=
  ⟨⟨{ wB with host := { HostSys.reset with until_ := [(3, 100000001)] } }, 3, 3, by decide +kernel⟩,
    ⟨wB, 3, 3, by decide +kernel⟩,
    ⟨{ wB with boot := (wKeyed.storeKey 3 (List.replicate 32 2) (List.replicate 12 3)).getD wKeyed }, 3, 3, by decide +kernel⟩,
    ⟨wPart 3 { Part.reset with claim := some (3, 2, 4) }, 3, 3, by decide +kernel⟩,
    ⟨{ wB with host := { HostSys.reset with until_ := [(3, 100000001)] } }, 3, 3, by decide +kernel⟩,
    ⟨wPart 3 { Part.reset with claim := some (3, 1, 4) }, 3, 3, 1, 4, by decide +kernel⟩,
    ⟨wPart 3 { Part.reset with claim := some (3, 2, 4) }, 3, 3, 2, 4, by decide +kernel⟩,
    ⟨{ wB with host := { HostSys.reset with until_ := [(3, 100000001)] } }, 3, 3, by decide +kernel⟩,
    ⟨wHeld Part.reset, 3, 3, by decide +kernel⟩,
    ⟨wB, 3, 3, by decide +kernel⟩,
    ⟨{ wB with boot := wKeyed }, 0, 0, by decide +kernel⟩,
    ⟨wPart 0 { Part.reset with enrol := some (0, []) }, false, 0, [], by decide +kernel⟩,
    ⟨wPart 3 { Part.reset with nonce := some (5, 1) }, 3, 5, 1, by decide +kernel⟩,
    ⟨{ wB with host := { HostSys.reset with until_ := [(3, 100000001)] } }, 3, by decide +kernel⟩⟩

theorem witness_RingCommands :
    (∃ (s : State) (r : Nat) (p : Nat) (n : Nat) (v : Nat) (m : Nat),
    s.unitsWf = true ∧ Memory.wf (fun _ => Ring.reset) (s.host.part p).sq = true ∧ r < 6 ∧ n < 8 ∧ v < 2 ^ 16 ∧ s.served = true ∧
      s.power.phase = .run ∧ s.host.view r = some p ∧ s.host.holds r = true ∧ m ≠ n) ∧
    (∃ (s : State) (r : Nat) (p : Nat) (n : Nat) (v : Nat),
    let g := (s.host.part p).ring true n
    s.unitsWf = true ∧ Memory.wf (fun _ => Ring.reset) (s.host.part p).sq = true ∧ r < 6 ∧ n < 8 ∧ v < 2 ^ 16 ∧ s.served = true ∧
      s.power.phase = .run ∧ s.host.view r = some p ∧ s.host.holds r = true ∧ v < g.size) ∧
    (∃ (s : State) (r : Nat) (p : Nat) (n : Nat) (v : Nat),
    let g := (s.host.part p).ring true n
    s.unitsWf = true ∧ Memory.wf (fun _ => Ring.reset) (s.host.part p).sq = true ∧ r < 6 ∧ n < 8 ∧ v < 2 ^ 16 ∧ s.served = true ∧
      s.power.phase = .run ∧ s.host.view r = some p ∧ s.host.holds r = true ∧ g.size ≤ v) ∧
    (∃ (s : State) (r : Nat) (p : Nat) (n : Nat) (v : Nat) (m : Nat),
    s.unitsWf = true ∧ Memory.wf (fun _ => Ring.reset) (s.host.part p).cq = true ∧ r < 6 ∧ n < 8 ∧ v < 2 ^ 16 ∧ s.writable = true ∧
      s.host.view r = some p ∧ s.host.holds r = true ∧ m ≠ n) ∧
    (∃ (s : State) (r : Nat) (p : Nat) (n : Nat) (v : Nat),
    let g := (s.host.part p).ring false n
    s.unitsWf = true ∧ Memory.wf (fun _ => Ring.reset) (s.host.part p).cq = true ∧ r < 6 ∧ n < 8 ∧ v < 2 ^ 16 ∧ s.writable = true ∧
      s.host.view r = some p ∧ s.host.holds r = true ∧ v < g.size) ∧
    (∃ (s : State) (r : Nat) (p : Nat) (n : Nat) (v : Nat),
    let g := (s.host.part p).ring false n
    s.unitsWf = true ∧ Memory.wf (fun _ => Ring.reset) (s.host.part p).cq = true ∧ r < 6 ∧ n < 8 ∧ v < 2 ^ 16 ∧ s.writable = true ∧
      s.host.view r = some p ∧ s.host.holds r = true ∧ g.size ≤ v) ∧
    (∃ (s : State) (r : Nat) (p : Nat) (v : Nat),
    let g := (s.host.part p).fr
    s.unitsWf = true ∧ r < 6 ∧ v < 2 ^ 16 ∧ s.writable = true ∧ s.host.view r = some p ∧ s.host.holds r = true ∧ v < g.size) ∧
    (∃ (s : State) (r : Nat) (p : Nat) (v : Nat),
    let g := (s.host.part p).fr
    s.unitsWf = true ∧ r < 6 ∧ v < 2 ^ 16 ∧ s.writable = true ∧ s.host.view r = some p ∧ s.host.holds r = true ∧ g.size ≤ v) ∧
    (∃ (s : State) (r : Nat) (p : Nat) (k : Nat) (n : Nat) (v : Word),
    let ring := fun (q : Part) => if k = 2 then q.fr else q.ring (k == 0) n
    let g := ring (s.host.part p)
    s.unitsWf = true ∧ Memory.wf (fun _ => Ring.reset) (s.host.part p).sq = true ∧ Memory.wf (fun _ => Ring.reset) (s.host.part p).cq = true ∧ r < 6 ∧
      k < 3 ∧ n < 8 ∧ s.writable = true ∧ s.host.view r = some p ∧ s.host.holds r = true ∧ g.en = false ∧ v.flag 31 = true ∧ 1 ≤ v.fld 0 4 ∧
      v.fld 0 4 ≤ 10 ∧ (ifaceOf r = 0 ∨ spaceOf g.lo = true) ∧ k ≠ 0) ∧
    (∃ (s : State) (r : Nat) (p : Nat) (k : Nat) (n : Nat) (v : Word),
    let ring := fun (q : Part) => if k = 2 then q.fr else q.ring (k == 0) n
    let g := ring (s.host.part p)
    s.unitsWf = true ∧ Memory.wf (fun _ => Ring.reset) (s.host.part p).sq = true ∧ Memory.wf (fun _ => Ring.reset) (s.host.part p).cq = true ∧ r < 6 ∧
      k < 3 ∧ n < 8 ∧ s.writable = true ∧ s.host.view r = some p ∧ s.host.holds r = true ∧ g.en = false ∧ v.flag 31 = true ∧ 1 ≤ v.fld 0 4 ∧
      v.fld 0 4 ≤ 10 ∧ (ifaceOf r = 0 ∨ spaceOf g.lo = true) ∧ k = 0) ∧
    (∃ (s : State) (r : Nat) (p : Nat) (k : Nat) (n : Nat) (v : Word),
    let ring := fun (q : Part) => if k = 2 then q.fr else q.ring (k == 0) n
    let g := ring (s.host.part p)
    s.unitsWf = true ∧ Memory.wf (fun _ => Ring.reset) (s.host.part p).sq = true ∧ Memory.wf (fun _ => Ring.reset) (s.host.part p).cq = true ∧ r < 6 ∧
      k < 3 ∧ n < 8 ∧ s.writable = true ∧ s.host.view r = some p ∧ s.host.holds r = true ∧ g.en = false ∧ (v.fld 0 4 = 0 ∨ 10 < v.fld 0 4)) ∧
    (∃ (s : State) (r : Nat) (p : Nat) (k : Nat) (n : Nat) (v : Word),
    let ring := fun (q : Part) => if k = 2 then q.fr else q.ring (k == 0) n
    let g := ring (s.host.part p)
    s.unitsWf = true ∧ Memory.wf (fun _ => Ring.reset) (s.host.part p).sq = true ∧ Memory.wf (fun _ => Ring.reset) (s.host.part p).cq = true ∧ r < 6 ∧
      k < 3 ∧ n < 8 ∧ s.writable = true ∧ s.host.view r = some p ∧ s.host.holds r = true ∧ g.en = true ∧ v.flag 31 = false ∧ k = 0) ∧
    (∃ (s : State) (r : Nat) (k : Nat) (j : Nat),
    s.unitsWf = true ∧ Memory.wf (fun _ => Tap.reset) (s.host.part r).taps = true ∧ r < 4 ∧ k < 64 ∧ s.writable = true ∧ s.host.holds r = true ∧
      j ≠ k) ∧
    (∃ (s : State) (r : Nat) (k : Nat) (v : Word),
    s.unitsWf = true ∧ Memory.wf (fun _ => Tap.reset) (s.host.part r).taps = true ∧ r < 4 ∧ k < 64 ∧ s.writable = true ∧ s.host.holds r = true ∧
      1 ≤ v.fld 0 11 ∧ v.fld 0 11 ≤ 1024) ∧
    (∃ (s : State) (r : Nat) (k : Nat) (v : Word),
    let x := (s.host.part r).tap k
    s.unitsWf = true ∧ Memory.wf (fun _ => Tap.reset) (s.host.part r).taps = true ∧ r < 4 ∧ k < 64 ∧ s.writable = true ∧ s.host.holds r = true ∧
      x.en = true ∧ v.flag 31 = false) ∧
    (∃ (s : State) (r : Nat) (k : Nat),
    let x := (s.host.part r).tap k
    s.unitsWf = true ∧ Memory.wf (fun _ => Tap.reset) (s.host.part r).taps = true ∧ r < 4 ∧ k < 64 ∧ s.writable = true ∧ s.host.holds r = true ∧
      x.en = false) ∧
    (∃ (s : State) (p : Nat) (r : Nat) (b0 : List Byte),
    let g := (s.host.part p).ring true r
    let b := if spaceOf g.lo then (s.xramRead p (xramBase g.lo + 64 * g.dev) 64).2 else b0
    s.unitsWf = true ∧ Memory.wf (fun _ => Ring.reset) (s.host.part p).sq = true ∧ p < 4 ∧ b0.length = 64 ∧ s.dmaUp = true ∧ s.fetchPaused p = false ∧
      s.host.nextRing p = some r ∧ opcodes.contains (le b 0 1) = true) ∧
    (∃ (s : State) (p : Nat) (r : Nat) (b0 : List Byte),
    let g := (s.host.part p).ring true r
    let b := if spaceOf g.lo then (s.xramRead p (xramBase g.lo + 64 * g.dev) 64).2 else b0
    s.unitsWf = true ∧ Memory.wf (fun _ => Ring.reset) (s.host.part p).sq = true ∧ p < 4 ∧ b0.length = 64 ∧ s.dmaUp = true ∧ s.fetchPaused p = false ∧
      s.host.nextRing p = some r ∧ opcodes.contains (le b 0 1) = false) ∧
    (∃ (s : State) (p : Nat) (q : Nat) (bp : List Byte) (bq : List Byte),
    s.unitsWf = true ∧ p < q ∧ q < 4 ∧ bp.length = 64 ∧ bq.length = 64 ∧ s.dmaUp = true ∧ s.mayFetch p = true ∧ s.mayFetch q = true ∧
      (∀ k r, k = p ∨ k = q → s.host.nextRing k = some r → spaceOf ((s.host.part k).ring true r).lo = false) ∧ opcodes.contains (le bp 0 1) = true ∧
      opcodes.contains (le bq 0 1) = true) ∧
    (∃ (s : State) (p : Nat),
    let q := s.host.part p
    let ok := fun c : Compl => (q.ring false c.cq).room && s.host.reach p (q.ring false c.cq).lo
    s.unitsWf = true ∧ Memory.wf (fun _ => Ring.reset) (s.host.part p).cq = true ∧ s.quiet = true ∧ p < 4 ∧ s.dmaUp = true ∧
      q.compl.find? ok = none) ∧
    (∃ (s : State) (p : Nat) (c : _),
    let q := s.host.part p
    let ok := fun c : Compl => (q.ring false c.cq).room && s.host.reach p (q.ring false c.cq).lo
    let g := q.ring false c.cq
    s.unitsWf = true ∧ Memory.wf (fun _ => Ring.reset) (s.host.part p).cq = true ∧ s.quiet = true ∧ p < 4 ∧ s.dmaUp = true ∧
      q.compl.find? ok = some c ∧ c.cq < 8 ∧ spaceOf g.lo = false) ∧
    (∃ (s : State) (p : Nat) (n : Nat) (t0 : Nat) (rest : List (Option Nat)),
    let g := (s.host.part p).ring false n
    let w := fun k : Nat => Memory.get msixReset (s.host.part p).msix (4 * g.cfg.fld 24 6 + k)
    s.unitsWf = true ∧ Memory.wf (fun _ => Ring.reset) (s.host.part p).cq = true ∧ s.quiet = true ∧ p < 4 ∧ n < 8 ∧ s.dmaUp = true ∧ g.en = true ∧
      g.since = some t0 :: rest ∧ t0 + g.cfg.fld 16 8 ≤ s.us ∧ (s.host.part p).holder = some 0 ∧ s.host.pcie.bme.testBit p = true ∧
      (w 3).flag 0 = false) :=
  ⟨⟨wHeld { Part.reset with sq := [(7, wRing)] }, 3, 3, 7, 1, 0, by decide⟩,
    ⟨wHeld { Part.reset with sq := [(7, wRing)] }, 3, 3, 7, 1, by decide⟩,
    ⟨wHeld { Part.reset with sq := [(7, wRing)] }, 3, 3, 7, 2, by decide⟩,
    ⟨wHeld { Part.reset with sq := [(7, wRing)] }, 3, 3, 7, 1, 0, by decide⟩,
    ⟨wHeld { Part.reset with cq := [(7, wRing)] }, 3, 3, 7, 1, by decide⟩,
    ⟨wHeld { Part.reset with sq := [(7, wRing)] }, 3, 3, 7, 1, by decide⟩,
    ⟨wHeld { Part.reset with fr := wRing }, 3, 3, 1, by decide⟩,
    ⟨wHeld { Part.reset with sq := [(7, wRing)] }, 3, 3, 1, by decide⟩,
    ⟨wHeld { Part.reset with qSel := 0x20 }, 3, 3, 1, 7, 0x8000000A#32, by decide⟩,
    ⟨wHeld { Part.reset with qSel := 0x20 }, 3, 3, 0, 7, 0x80000001#32, by decide⟩,
    ⟨wHeld { Part.reset with cq := [(7, wRing)] }, 3, 3, 2, 7, 65535, by decide⟩,
    ⟨wHeld { Part.reset with sq := [(7, wRing)] }, 3, 3, 0, 7, 0#32, by decide⟩,
    ⟨wHeld { Part.reset with sq := [(7, wRing)] }, 3, 2, 0, by decide⟩,
    ⟨wHeld { Part.reset with sq := [(7, wRing)] }, 3, 2, 1, by decide⟩,
    ⟨wHeld { Part.reset with taps := [(63, { Tap.reset with cfg := 0x80000001 })] }, 3, 63, 1#32, by decide⟩,
    ⟨wHeld { Part.reset with sq := [(7, wRing)] }, 3, 2, by decide⟩,
    ⟨wHeld { Part.reset with sq := [(7, { wRing with host := 1 })] }, 3, 7, 1 :: List.replicate 63 0, by decide⟩,
    ⟨wHeld { Part.reset with sq := [(7, { wRing with host := 1 })] }, 3, 7, List.replicate 64 0, by decide⟩,
    ⟨wTwo, 2, 3, 1 :: List.replicate 63 0, 1 :: List.replicate 63 0, ⟨by decide, by decide, by decide, by decide, by decide, by decide, by decide, by decide, by rintro k r (rfl | rfl) h <;> (cases h.symm.trans (show _ = some 7 by decide); decide), by decide, by decide⟩⟩,
    ⟨wHeld { Part.reset with sq := [(7, wRing)] }, 3, by decide⟩,
    ⟨wHeld { Part.reset with compl := [complOf (wEnt 1 3 []) 0], cq := [(0, wRing)] }, 3, complOf (wEnt 1 3 []) 0, by decide⟩,
    ⟨wHeld { Part.reset with cq := [(7, { wRing with since := [some 1] })], msix := [(3, 0)] }, 3, 7, 1, [], by decide⟩⟩

theorem witness_PolicyCommands :
    (∃ (x : _) (s : State) (e : Entry),
    let front := fun (s : State) (op : Nat) (e : Entry) => s.unitsWf = true ∧ s.awake = true ∧ s.s2Runs = true ∧ s.setter.builds = [] ∧
      s.setter.intake.head? = some e ∧ e.op = op ∧ (e.reads = true → e.fail = true ∨ e.data.isSome = true)
    x ∈ [(Instr.setQuota, 0x10), (.setPriority, 0x11), (.grant, 0x12), (.revoke, 0x13), (.mapSpi, 0x14), (.setXram, 0x15), (.savePolicy, 0x16), (.resetPartition, 0x17)] ∧ front s x.2 e ∧ e.part ≠ 0) ∧
    (∃ (s : State) (e : Entry),
    let front := fun (s : State) (op : Nat) (e : Entry) => s.unitsWf = true ∧ s.awake = true ∧ s.s2Runs = true ∧ s.setter.builds = [] ∧
      s.setter.intake.head? = some e ∧ e.op = op ∧ (e.reads = true → e.fail = true ∨ e.data.isSome = true)
    let p := e.arg 0x18 1
    let r := e.arg 0x19 1
    let u := e.arg 0x1A 1
    let l := e.arg 0x1C 4
    let c := e.arg 0x20 4
    let bad := p = 0 ∨ 4 ≤ p ∨ (r, u) ∉ quotaKeys ∨ l < c
    front s 0x10 e ∧ e.part = 0 ∧ e.fail = false ∧ bad) ∧
    (∃ (s : State) (e : Entry),
    let front := fun (s : State) (op : Nat) (e : Entry) => s.unitsWf = true ∧ s.awake = true ∧ s.s2Runs = true ∧ s.setter.builds = [] ∧
      s.setter.intake.head? = some e ∧ e.op = op ∧ (e.reads = true → e.fail = true ∨ e.data.isSome = true)
    let p := e.arg 0x18 1
    let r := e.arg 0x19 1
    let u := e.arg 0x1A 1
    let l := e.arg 0x1C 4
    let c := e.arg 0x20 4
    let cap := s.cap r u
    let q := Memory.set (fun _ => (0, 0)) s.host.pol.quota (quotaKey p r u) (l, c)
    let sum := (quotaOf q cap 1 r u).2 + (quotaOf q cap 2 r u).2 + (quotaOf q cap 3 r u).2
    let bad := p = 0 ∨ 4 ≤ p ∨ (r, u) ∉ quotaKeys ∨ l < c
    front s 0x10 e ∧ e.part = 0 ∧ e.fail = false ∧ ¬ bad ∧ cap < sum) ∧
    (∃ (s : State) (e : Entry),
    let front := fun (s : State) (op : Nat) (e : Entry) => s.unitsWf = true ∧ s.awake = true ∧ s.s2Runs = true ∧ s.setter.builds = [] ∧
      s.setter.intake.head? = some e ∧ e.op = op ∧ (e.reads = true → e.fail = true ∨ e.data.isSome = true)
    let p := e.arg 0x18 1
    let r := e.arg 0x19 1
    let u := e.arg 0x1A 1
    let l := e.arg 0x1C 4
    let c := e.arg 0x20 4
    let cap := s.cap r u
    let q := Memory.set (fun _ => (0, 0)) s.host.pol.quota (quotaKey p r u) (l, c)
    let used := fun k => Memory.get (fun _ => (0, 0)) (s.setter.part k).use (16 * r + u)
    let past := ∃ k, (k = p ∨ k = 0) ∧ ((quotaOf q cap k r u).1 < (used k).1 ∨ (quotaOf q cap k r u).2 < (used k).2)
    let sum := (quotaOf q cap 1 r u).2 + (quotaOf q cap 2 r u).2 + (quotaOf q cap 3 r u).2
    let bad := p = 0 ∨ 4 ≤ p ∨ (r, u) ∉ quotaKeys ∨ l < c
    front s 0x10 e ∧ e.part = 0 ∧ e.fail = false ∧ ¬ bad ∧ sum ≤ cap ∧ past) ∧
    (∃ (s : State) (e : Entry),
    let front := fun (s : State) (op : Nat) (e : Entry) => s.unitsWf = true ∧ s.awake = true ∧ s.s2Runs = true ∧ s.setter.builds = [] ∧
      s.setter.intake.head? = some e ∧ e.op = op ∧ (e.reads = true → e.fail = true ∨ e.data.isSome = true)
    let p := e.arg 0x18 1
    let r := e.arg 0x19 1
    let u := e.arg 0x1A 1
    let l := e.arg 0x1C 4
    let c := e.arg 0x20 4
    let cap := s.cap r u
    let q := Memory.set (fun _ => (0, 0)) s.host.pol.quota (quotaKey p r u) (l, c)
    let used := fun k => Memory.get (fun _ => (0, 0)) (s.setter.part k).use (16 * r + u)
    let past := ∃ k, (k = p ∨ k = 0) ∧ ((quotaOf q cap k r u).1 < (used k).1 ∨ (quotaOf q cap k r u).2 < (used k).2)
    let sum := (quotaOf q cap 1 r u).2 + (quotaOf q cap 2 r u).2 + (quotaOf q cap 3 r u).2
    let bad := p = 0 ∨ 4 ≤ p ∨ (r, u) ∉ quotaKeys ∨ l < c
    front s 0x10 e ∧ e.part = 0 ∧ e.fail = false ∧ ¬ bad ∧ sum ≤ cap ∧ ¬ past) ∧
    (∃ (s : State) (e : Entry),
    let front := fun (s : State) (op : Nat) (e : Entry) => s.unitsWf = true ∧ s.awake = true ∧ s.s2Runs = true ∧ s.setter.builds = [] ∧
      s.setter.intake.head? = some e ∧ e.op = op ∧ (e.reads = true → e.fail = true ∨ e.data.isSome = true)
    let p := e.arg 0x18 1
    front s 0x11 e ∧ e.part = 0 ∧ e.fail = false ∧ 4 ≤ p) ∧
    (∃ (s : State) (e : Entry),
    let front := fun (s : State) (op : Nat) (e : Entry) => s.unitsWf = true ∧ s.awake = true ∧ s.s2Runs = true ∧ s.setter.builds = [] ∧
      s.setter.intake.head? = some e ∧ e.op = op ∧ (e.reads = true → e.fail = true ∨ e.data.isSome = true)
    let p := e.arg 0x18 1
    front s 0x11 e ∧ e.part = 0 ∧ e.fail = false ∧ p < 4) ∧
    (∃ (s : State) (e : Entry),
    let front := fun (s : State) (op : Nat) (e : Entry) => s.unitsWf = true ∧ s.awake = true ∧ s.s2Runs = true ∧ s.setter.builds = [] ∧
      s.setter.intake.head? = some e ∧ e.op = op ∧ (e.reads = true → e.fail = true ∨ e.data.isSome = true)
    let r := e.arg 0x18 1
    let f := e.arg 0x1A 2
    let n := e.arg 0x1C 2
    let l := s.host.pol.grants
    let l' := if n = 0 ∨ (⟨r, f, n⟩ : Grant) ∈ l then l else l ++ [⟨r, f, n⟩]
    let bad := 4 ≤ r ∨ f = 0 ∨ 32768 < f + n ∨ 256 < (l'.filter fun g => g.reader == r).length
    front s 0x12 e ∧ e.part = 0 ∧ e.fail = false ∧ bad) ∧
    (∃ (s : State) (e : Entry),
    let front := fun (s : State) (op : Nat) (e : Entry) => s.unitsWf = true ∧ s.awake = true ∧ s.s2Runs = true ∧ s.setter.builds = [] ∧
      s.setter.intake.head? = some e ∧ e.op = op ∧ (e.reads = true → e.fail = true ∨ e.data.isSome = true)
    let r := e.arg 0x18 1
    let f := e.arg 0x1A 2
    let n := e.arg 0x1C 2
    let l := s.host.pol.grants
    let l' := if n = 0 ∨ (⟨r, f, n⟩ : Grant) ∈ l then l else l ++ [⟨r, f, n⟩]
    let bad := 4 ≤ r ∨ f = 0 ∨ 32768 < f + n ∨ 256 < (l'.filter fun g => g.reader == r).length
    front s 0x12 e ∧ e.part = 0 ∧ e.fail = false ∧ ¬ bad) ∧
    (∃ (s : State) (e : Entry),
    let front := fun (s : State) (op : Nat) (e : Entry) => s.unitsWf = true ∧ s.awake = true ∧ s.s2Runs = true ∧ s.setter.builds = [] ∧
      s.setter.intake.head? = some e ∧ e.op = op ∧ (e.reads = true → e.fail = true ∨ e.data.isSome = true)
    let r := e.arg 0x18 1
    front s 0x13 e ∧ e.part = 0 ∧ e.fail = false ∧ 4 ≤ r) ∧
    (∃ (s : State) (e : Entry),
    let front := fun (s : State) (op : Nat) (e : Entry) => s.unitsWf = true ∧ s.awake = true ∧ s.s2Runs = true ∧ s.setter.builds = [] ∧
      s.setter.intake.head? = some e ∧ e.op = op ∧ (e.reads = true → e.fail = true ∨ e.data.isSome = true)
    let r := e.arg 0x18 1
    let f := e.arg 0x1A 2
    let n := e.arg 0x1C 2
    front s 0x13 e ∧ e.part = 0 ∧ e.fail = false ∧ r < 4 ∧ (f = 0 ∨ 32768 < f + n)) ∧
    (∃ (s : State) (e : Entry),
    let front := fun (s : State) (op : Nat) (e : Entry) => s.unitsWf = true ∧ s.awake = true ∧ s.s2Runs = true ∧ s.setter.builds = [] ∧
      s.setter.intake.head? = some e ∧ e.op = op ∧ (e.reads = true → e.fail = true ∨ e.data.isSome = true)
    let r := e.arg 0x18 1
    let f := e.arg 0x1A 2
    let n := e.arg 0x1C 2
    front s 0x13 e ∧ e.part = 0 ∧ e.fail = false ∧ r < 4 ∧ f ≠ 0 ∧ f + n ≤ 32768) ∧
    (∃ (s : State) (e : Entry),
    let front := fun (s : State) (op : Nat) (e : Entry) => s.unitsWf = true ∧ s.awake = true ∧ s.s2Runs = true ∧ s.setter.builds = [] ∧
      s.setter.intake.head? = some e ∧ e.op = op ∧ (e.reads = true → e.fail = true ∨ e.data.isSome = true)
    let r := e.arg 0x18 1
    front s 0x13 e ∧ e.part = 0 ∧ e.fail = false ∧ r < 4) ∧
    (∃ (s : State) (e : Entry) (x : GNode) (q : _),
    let front := fun (s : State) (op : Nat) (e : Entry) => s.unitsWf = true ∧ s.awake = true ∧ s.s2Runs = true ∧ s.setter.builds = [] ∧
      s.setter.intake.head? = some e ∧ e.op = op ∧ (e.reads = true → e.fail = true ∨ e.data.isSome = true)
    let r := e.arg 0x18 1
    front s 0x13 e ∧ e.part = 0 ∧ e.fail = false ∧ r < 4 ∧ x ∈ (s.setter.part r).graph.nodes ∧ x.typ = tSnkPort ∧ nodePort x = some q) ∧
    (∃ (s : State) (e : Entry),
    let front := fun (s : State) (op : Nat) (e : Entry) => s.unitsWf = true ∧ s.awake = true ∧ s.s2Runs = true ∧ s.setter.builds = [] ∧
      s.setter.intake.head? = some e ∧ e.op = op ∧ (e.reads = true → e.fail = true ∨ e.data.isSome = true)
    let k := e.arg 0x18 1
    let m := e.arg 0x19 1
    let bad := 2 ≤ k ∨ (4 ≤ m ∧ m ≠ 0xFF)
    front s 0x14 e ∧ e.part = 0 ∧ e.fail = false ∧ bad) ∧
    (∃ (s : State) (e : Entry),
    let front := fun (s : State) (op : Nat) (e : Entry) => s.unitsWf = true ∧ s.awake = true ∧ s.s2Runs = true ∧ s.setter.builds = [] ∧
      s.setter.intake.head? = some e ∧ e.op = op ∧ (e.reads = true → e.fail = true ∨ e.data.isSome = true)
    let k := e.arg 0x18 1
    let m := e.arg 0x19 1
    let old := (s.host.spi k).map
    let bad := 2 ≤ k ∨ (4 ≤ m ∧ m ≠ 0xFF)
    let moved := old < 4 ∧ old ≠ m ∧ (s.host.part old).holder = some (k + 1)
    front s 0x14 e ∧ e.part = 0 ∧ e.fail = false ∧ ¬ bad ∧ ¬ moved) ∧
    (∃ (s : State) (e : Entry),
    let front := fun (s : State) (op : Nat) (e : Entry) => s.unitsWf = true ∧ s.awake = true ∧ s.s2Runs = true ∧ s.setter.builds = [] ∧
      s.setter.intake.head? = some e ∧ e.op = op ∧ (e.reads = true → e.fail = true ∨ e.data.isSome = true)
    let k := e.arg 0x18 1
    let m := e.arg 0x19 1
    let old := (s.host.spi k).map
    let bad := 2 ≤ k ∨ (4 ≤ m ∧ m ≠ 0xFF)
    let moved := old < 4 ∧ old ≠ m ∧ (s.host.part old).holder = some (k + 1)
    front s 0x14 e ∧ e.part = 0 ∧ e.fail = false ∧ ¬ bad ∧ moved) ∧
    (∃ (s : State) (e : Entry),
    let front := fun (s : State) (op : Nat) (e : Entry) => s.unitsWf = true ∧ s.awake = true ∧ s.s2Runs = true ∧ s.setter.builds = [] ∧
      s.setter.intake.head? = some e ∧ e.op = op ∧ (e.reads = true → e.fail = true ∨ e.data.isSome = true)
    let f := e.arg 0x18 1
    let n := e.arg 0x19 1
    let o := e.arg 0x1A 1
    front s 0x15 e ∧ e.part = 0 ∧ e.fail = false ∧ Memory.wf xownReset s.mem.r.xown = true ∧ (64 < f + n ∨ 4 ≤ o)) ∧
    (∃ (s : State) (e : Entry) (p : Nat),
    let front := fun (s : State) (op : Nat) (e : Entry) => s.unitsWf = true ∧ s.awake = true ∧ s.s2Runs = true ∧ s.setter.builds = [] ∧
      s.setter.intake.head? = some e ∧ e.op = op ∧ (e.reads = true → e.fail = true ∨ e.data.isSome = true)
    let f := e.arg 0x18 1
    let n := e.arg 0x19 1
    let o := e.arg 0x1A 1
    front s 0x15 e ∧ e.part = 0 ∧ e.fail = false ∧ Memory.wf xownReset s.mem.r.xown = true ∧ f + n ≤ 64 ∧ o < 4 ∧ p < 64) ∧
    (∃ (s : State) (e : Entry),
    let front := fun (s : State) (op : Nat) (e : Entry) => s.unitsWf = true ∧ s.awake = true ∧ s.s2Runs = true ∧ s.setter.builds = [] ∧
      s.setter.intake.head? = some e ∧ e.op = op ∧ (e.reads = true → e.fail = true ∨ e.data.isSome = true)
    front s 0x16 e ∧ e.part = 0 ∧ e.fail = false) :=
  ⟨⟨(.setQuota, 0x10), wIn (wEnt 0x10 3 ([])), (wEnt 0x10 3 ([])), by decide⟩,
    ⟨wIn (wEnt 0x10 0 ([0, 33, 0, 0] ++ leBytes 4 5 ++ leBytes 4 5)), (wEnt 0x10 0 ([0, 33, 0, 0] ++ leBytes 4 5 ++ leBytes 4 5)), by decide⟩,
    ⟨wIn (wEnt 0x10 0 ([1, 33, 0, 0] ++ leBytes 4 387420489 ++ leBytes 4 387420489)), (wEnt 0x10 0 ([1, 33, 0, 0] ++ leBytes 4 387420489 ++ leBytes 4 387420489)), by decide⟩,
    ⟨{ wIn (wEnt 0x10 0 ([1, 33, 0, 0] ++ leBytes 4 1 ++ leBytes 4 1)) with setter := { SetterSys.reset with intake := [wEnt 0x10 0 ([1, 33, 0, 0] ++ leBytes 4 1 ++ leBytes 4 1)], parts := [(1, { SetPart.reset with use := [(528, (9, 0))] })] } }, (wEnt 0x10 0 ([1, 33, 0, 0] ++ leBytes 4 1 ++ leBytes 4 1)), ⟨by decide, by decide, by decide, by decide, by decide, ⟨1, Or.inl (by decide), by decide⟩⟩⟩,
    ⟨wIn (wEnt 0x10 0 ([1, 33, 0, 0] ++ leBytes 4 1 ++ leBytes 4 1)), (wEnt 0x10 0 ([1, 33, 0, 0] ++ leBytes 4 1 ++ leBytes 4 1)), ⟨by decide, by decide, by decide, by decide, by decide, by rintro ⟨k, rfl | rfl, h⟩ <;> revert h <;> decide⟩⟩,
    ⟨wIn (wEnt 0x11 0 ([4])), (wEnt 0x11 0 ([4])), by decide⟩,
    ⟨wIn (wEnt 0x11 0 ([3])), (wEnt 0x11 0 ([3])), by decide⟩,
    ⟨wIn (wEnt 0x12 0 ([4, 0, 1, 0, 1, 0])), (wEnt 0x12 0 ([4, 0, 1, 0, 1, 0])), by decide⟩,
    ⟨wIn (wEnt 0x12 0 ([3, 0, 1, 0, 255, 127])), (wEnt 0x12 0 ([3, 0, 1, 0, 255, 127])), by decide⟩,
    ⟨wIn (wEnt 0x13 0 ([4, 0, 1, 0, 1, 0])), (wEnt 0x13 0 ([4, 0, 1, 0, 1, 0])), by decide⟩,
    ⟨wIn (wEnt 0x13 0 ([3, 0, 0, 0, 1, 0])), (wEnt 0x13 0 ([3, 0, 0, 0, 1, 0])), by decide⟩,
    ⟨wIn (wEnt 0x13 0 ([3, 0, 255, 127, 1, 0])), (wEnt 0x13 0 ([3, 0, 255, 127, 1, 0])), by decide⟩,
    ⟨wIn (wEnt 0x13 0 ([3, 0, 255, 127, 1, 0])), (wEnt 0x13 0 ([3, 0, 255, 127, 1, 0])), by decide⟩,
    ⟨{ wIn (wEnt 0x13 0 ([3, 0, 255, 127, 1, 0])) with setter := { SetterSys.reset with intake := [wEnt 0x13 0 [3, 0, 255, 127, 1, 0]], parts := [(3, { SetPart.reset with graph := wSink })] } }, (wEnt 0x13 0 ([3, 0, 255, 127, 1, 0])), wSinkNode, 15, by decide⟩,
    ⟨wIn (wEnt 0x14 0 ([2, 0])), (wEnt 0x14 0 ([2, 0])), by decide⟩,
    ⟨wIn (wEnt 0x14 0 ([1, 255])), (wEnt 0x14 0 ([1, 255])), by decide⟩,
    ⟨{ wIn (wEnt 0x14 0 ([1, 255])) with host := { HostSys.reset with spi1 := ⟨3, false, false⟩, parts := [(3, { Part.reset with holder := some 2 })] } }, (wEnt 0x14 0 ([1, 255])), by decide⟩,
    ⟨wIn (wEnt 0x15 0 ([63, 2, 0, 0])), (wEnt 0x15 0 ([63, 2, 0, 0])), by decide⟩,
    ⟨wIn (wEnt 0x15 0 ([60, 4, 3, 1])), (wEnt 0x15 0 ([60, 4, 3, 1])), 63, by decide⟩,
    ⟨wIn (wEnt 0x16 0 ([])), (wEnt 0x16 0 ([])), by decide⟩⟩

theorem witness_ImageAndKeyCommands :
    (∃ (x : _) (s : State) (e : Entry),
    let front := fun (s : State) (op : Nat) (e : Entry) => s.unitsWf = true ∧ s.awake = true ∧ s.s2Runs = true ∧ s.setter.builds = [] ∧
      s.setter.intake.head? = some e ∧ e.op = op ∧ (e.reads = true → e.fail = true ∨ e.data.isSome = true)
    x ∈ [(Instr.imgBegin, 0x20), (.imgData, 0x21), (.imgFinish, 0x22), (.imgActivate, 0x23), (.ksPut, 0x26), (.ksDel, 0x27), (.earlyWrite, 0x28), (.hmExtend, 0x29), (.logRead, 0x2A), (.keySet, 0x2B)] ++ [(true, true), (true, false), (false, true), (false, false)].flatMap (fun v => [(.rollbackRaise v.1 v.2, 0x24), (.lcAdvance v.1 v.2, 0x25)]) ∧ front s x.2 e ∧ (x.2 = 0x2A → s.canWrite = true) ∧ (e.part ≠ 0 ∨ e.fail = true)) ∧
    (∃ (s : State) (e : Entry),
    let front := fun (s : State) (op : Nat) (e : Entry) => s.unitsWf = true ∧ s.awake = true ∧ s.s2Runs = true ∧ s.setter.builds = [] ∧
      s.setter.intake.head? = some e ∧ e.op = op ∧ (e.reads = true → e.fail = true ∨ e.data.isSome = true)
    let n := e.arg 0x18 4
    front s 0x20 e ∧ e.part = 0 ∧ e.fail = false ∧ s.ramsWf = true ∧ 31457280 < n) ∧
    (∃ (s : State) (e : Entry),
    let front := fun (s : State) (op : Nat) (e : Entry) => s.unitsWf = true ∧ s.awake = true ∧ s.s2Runs = true ∧ s.setter.builds = [] ∧
      s.setter.intake.head? = some e ∧ e.op = op ∧ (e.reads = true → e.fail = true ∨ e.data.isSome = true)
    let n := e.arg 0x18 4
    front s 0x20 e ∧ e.part = 0 ∧ e.fail = false ∧ s.ramsWf = true ∧ n ≤ 31457280 ∧ s.boot.upd ≠ none) ∧
    (∃ (s : State) (e : Entry),
    let front := fun (s : State) (op : Nat) (e : Entry) => s.unitsWf = true ∧ s.awake = true ∧ s.s2Runs = true ∧ s.setter.builds = [] ∧
      s.setter.intake.head? = some e ∧ e.op = op ∧ (e.reads = true → e.fail = true ∨ e.data.isSome = true)
    let n := e.arg 0x18 4
    front s 0x20 e ∧ e.part = 0 ∧ e.fail = false ∧ s.ramsWf = true ∧ n ≤ 31457280 ∧ s.boot.upd = none) ∧
    (∃ (s : State) (e : Entry),
    let front := fun (s : State) (op : Nat) (e : Entry) => s.unitsWf = true ∧ s.awake = true ∧ s.s2Runs = true ∧ s.setter.builds = [] ∧
      s.setter.intake.head? = some e ∧ e.op = op ∧ (e.reads = true → e.fail = true ∨ e.data.isSome = true)
    front s 0x21 e ∧ e.part = 0 ∧ e.fail = false ∧ s.ramsWf = true ∧ s.boot.upd = none) ∧
    (∃ (s : State) (e : Entry) (u : Update),
    let front := fun (s : State) (op : Nat) (e : Entry) => s.unitsWf = true ∧ s.awake = true ∧ s.s2Runs = true ∧ s.setter.builds = [] ∧
      s.setter.intake.head? = some e ∧ e.op = op ∧ (e.reads = true → e.fail = true ∨ e.data.isSome = true)
    let off := e.arg 0x18 4
    front s 0x21 e ∧ e.part = 0 ∧ e.fail = false ∧ s.ramsWf = true ∧ s.boot.upd = some u ∧ ¬ (off = u.written ∧ u.written + e.bytes.length ≤ u.len)) ∧
    (∃ (s : State) (e : Entry) (u : Update),
    let front := fun (s : State) (op : Nat) (e : Entry) => s.unitsWf = true ∧ s.awake = true ∧ s.s2Runs = true ∧ s.setter.builds = [] ∧
      s.setter.intake.head? = some e ∧ e.op = op ∧ (e.reads = true → e.fail = true ∨ e.data.isSome = true)
    let off := e.arg 0x18 4
    front s 0x21 e ∧ e.part = 0 ∧ e.fail = false ∧ s.ramsWf = true ∧ s.boot.upd = some u ∧ off = u.written ∧ u.written + e.bytes.length ≤ u.len) ∧
    (∃ (s : State) (e : Entry),
    let front := fun (s : State) (op : Nat) (e : Entry) => s.unitsWf = true ∧ s.awake = true ∧ s.s2Runs = true ∧ s.setter.builds = [] ∧
      s.setter.intake.head? = some e ∧ e.op = op ∧ (e.reads = true → e.fail = true ∨ e.data.isSome = true)
    front s 0x22 e ∧ e.part = 0 ∧ e.fail = false ∧ (∀ u, s.boot.upd = some u → u.written ≠ u.len)) ∧
    (∃ (s : State) (e : Entry) (u : Update),
    let front := fun (s : State) (op : Nat) (e : Entry) => s.unitsWf = true ∧ s.awake = true ∧ s.s2Runs = true ∧ s.setter.builds = [] ∧
      s.setter.intake.head? = some e ∧ e.op = op ∧ (e.reads = true → e.fail = true ∨ e.data.isSome = true)
    front s 0x22 e ∧ e.part = 0 ∧ e.fail = false ∧ s.boot.upd = some u ∧ u.written = u.len) ∧
    (∃ (s : State) (e : Entry),
    let front := fun (s : State) (op : Nat) (e : Entry) => s.unitsWf = true ∧ s.awake = true ∧ s.s2Runs = true ∧ s.setter.builds = [] ∧
      s.setter.intake.head? = some e ∧ e.op = op ∧ (e.reads = true → e.fail = true ∨ e.data.isSome = true)
    let ok := s.boot.upd = none ∧ ∃ r, s.boot.current s.boot.updateSlot = some r ∧ r.state = 2
    front s 0x23 e ∧ e.part = 0 ∧ e.fail = false ∧ ¬ ok) ∧
    (∃ (s : State) (e : Entry),
    let front := fun (s : State) (op : Nat) (e : Entry) => s.unitsWf = true ∧ s.awake = true ∧ s.s2Runs = true ∧ s.setter.builds = [] ∧
      s.setter.intake.head? = some e ∧ e.op = op ∧ (e.reads = true → e.fail = true ∨ e.data.isSome = true)
    let ok := s.boot.upd = none ∧ ∃ r, s.boot.current s.boot.updateSlot = some r ∧ r.state = 2
    front s 0x23 e ∧ e.part = 0 ∧ e.fail = false ∧ ok) ∧
    (∃ (s : State) (e : Entry) (votp : Bool),
    let front := fun (s : State) (op : Nat) (e : Entry) => s.unitsWf = true ∧ s.awake = true ∧ s.s2Runs = true ∧ s.setter.builds = [] ∧
      s.setter.intake.head? = some e ∧ e.op = op ∧ (e.reads = true → e.fail = true ∨ e.data.isSome = true)
    front s 0x24 e ∧ e.part = 0 ∧ e.fail = false ∧ votp = false) ∧
    (∃ (s : State) (e : Entry) (votp : Bool) (readback : Bool),
    let front := fun (s : State) (op : Nat) (e : Entry) => s.unitsWf = true ∧ s.awake = true ∧ s.s2Runs = true ∧ s.setter.builds = [] ∧
      s.setter.intake.head? = some e ∧ e.op = op ∧ (e.reads = true → e.fail = true ∨ e.data.isSome = true)
    front s 0x24 e ∧ e.part = 0 ∧ e.fail = false ∧ votp = true ∧ readback = true ∧ (s.host.part 0).session = e.session) ∧
    (∃ (s : State) (e : Entry) (votp : Bool) (readback : Bool) (i : Nat),
    let front := fun (s : State) (op : Nat) (e : Entry) => s.unitsWf = true ∧ s.awake = true ∧ s.s2Runs = true ∧ s.setter.builds = [] ∧
      s.setter.intake.head? = some e ∧ e.op = op ∧ (e.reads = true → e.fail = true ∨ e.data.isSome = true)
    let old := s.boot.otp.fuses
    front s 0x24 e ∧ e.part = 0 ∧ e.fail = false ∧ votp = true ∧ readback = false ∧ old.testBit i = true) ∧
    (∃ (s : State) (e : Entry),
    let front := fun (s : State) (op : Nat) (e : Entry) => s.unitsWf = true ∧ s.awake = true ∧ s.s2Runs = true ∧ s.setter.builds = [] ∧
      s.setter.intake.head? = some e ∧ e.op = op ∧ (e.reads = true → e.fail = true ∨ e.data.isSome = true)
    let o := s.boot.otp
    let far := e.arg 0x18 1 ≠ o.state + 1 ∨ 4 ≤ o.state
    front s 0x25 e ∧ e.part = 0 ∧ e.fail = false ∧ far) ∧
    (∃ (s : State) (e : Entry),
    let front := fun (s : State) (op : Nat) (e : Entry) => s.unitsWf = true ∧ s.awake = true ∧ s.s2Runs = true ∧ s.setter.builds = [] ∧
      s.setter.intake.head? = some e ∧ e.op = op ∧ (e.reads = true → e.fail = true ∨ e.data.isSome = true)
    let o := s.boot.otp
    let far := e.arg 0x18 1 ≠ o.state + 1 ∨ 4 ≤ o.state
    front s 0x25 e ∧ e.part = 0 ∧ e.fail = false ∧ ¬ far ∧ e.arg 0x1C 4 ≠ o.devId % 2 ^ 32) ∧
    (∃ (s : State) (e : Entry) (votp : Bool),
    let front := fun (s : State) (op : Nat) (e : Entry) => s.unitsWf = true ∧ s.awake = true ∧ s.s2Runs = true ∧ s.setter.builds = [] ∧
      s.setter.intake.head? = some e ∧ e.op = op ∧ (e.reads = true → e.fail = true ∨ e.data.isSome = true)
    let o := s.boot.otp
    let far := e.arg 0x18 1 ≠ o.state + 1 ∨ 4 ≤ o.state
    front s 0x25 e ∧ e.part = 0 ∧ e.fail = false ∧ ¬ far ∧ e.arg 0x1C 4 = o.devId % 2 ^ 32 ∧ votp = false) ∧
    (∃ (s : State) (e : Entry) (votp : Bool) (readback : Bool),
    let front := fun (s : State) (op : Nat) (e : Entry) => s.unitsWf = true ∧ s.awake = true ∧ s.s2Runs = true ∧ s.setter.builds = [] ∧
      s.setter.intake.head? = some e ∧ e.op = op ∧ (e.reads = true → e.fail = true ∨ e.data.isSome = true)
    let o := s.boot.otp
    let far := e.arg 0x18 1 ≠ o.state + 1 ∨ 4 ≤ o.state
    front s 0x25 e ∧ e.part = 0 ∧ e.fail = false ∧ ¬ far ∧ e.arg 0x1C 4 = o.devId % 2 ^ 32 ∧ votp = true ∧ readback = true) ∧
    (∃ (s : State) (e : Entry) (votp : Bool) (readback : Bool) (i : Nat),
    let front := fun (s : State) (op : Nat) (e : Entry) => s.unitsWf = true ∧ s.awake = true ∧ s.s2Runs = true ∧ s.setter.builds = [] ∧
      s.setter.intake.head? = some e ∧ e.op = op ∧ (e.reads = true → e.fail = true ∨ e.data.isSome = true)
    let o := s.boot.otp
    let far := e.arg 0x18 1 ≠ o.state + 1 ∨ 4 ≤ o.state
    front s 0x25 e ∧ e.part = 0 ∧ e.fail = false ∧ ¬ far ∧ e.arg 0x1C 4 = o.devId % 2 ^ 32 ∧ votp = true ∧ readback = false ∧ o.lc.testBit i = true) ∧
    (∃ (s : State) (e : Entry),
    let front := fun (s : State) (op : Nat) (e : Entry) => s.unitsWf = true ∧ s.awake = true ∧ s.s2Runs = true ∧ s.setter.builds = [] ∧
      s.setter.intake.head? = some e ∧ e.op = op ∧ (e.reads = true → e.fail = true ∨ e.data.isSome = true)
    let k := e.arg 0x18 2
    let host := 0x5000 ≤ k ∧ k < 0xF000
    front s 0x26 e ∧ e.part = 0 ∧ e.fail = false ∧ ¬ host) ∧
    (∃ (s : State) (e : Entry),
    let front := fun (s : State) (op : Nat) (e : Entry) => s.unitsWf = true ∧ s.awake = true ∧ s.s2Runs = true ∧ s.setter.builds = [] ∧
      s.setter.intake.head? = some e ∧ e.op = op ∧ (e.reads = true → e.fail = true ∨ e.data.isSome = true)
    let k := e.arg 0x18 2
    let host := 0x5000 ≤ k ∧ k < 0xF000
    front s 0x26 e ∧ e.part = 0 ∧ e.fail = false ∧ host ∧ 4064 < e.len) ∧
    (∃ (s : State) (e : Entry),
    let front := fun (s : State) (op : Nat) (e : Entry) => s.unitsWf = true ∧ s.awake = true ∧ s.s2Runs = true ∧ s.setter.builds = [] ∧
      s.setter.intake.head? = some e ∧ e.op = op ∧ (e.reads = true → e.fail = true ∨ e.data.isSome = true)
    let k := e.arg 0x18 2
    let host := 0x5000 ≤ k ∧ k < 0xF000
    front s 0x26 e ∧ e.part = 0 ∧ e.fail = false ∧ host ∧ e.len ≤ 4064 ∧ s.boot.put k e.bytes = none) ∧
    (∃ (s : State) (e : Entry) (b : Boot),
    let front := fun (s : State) (op : Nat) (e : Entry) => s.unitsWf = true ∧ s.awake = true ∧ s.s2Runs = true ∧ s.setter.builds = [] ∧
      s.setter.intake.head? = some e ∧ e.op = op ∧ (e.reads = true → e.fail = true ∨ e.data.isSome = true)
    let k := e.arg 0x18 2
    let host := 0x5000 ≤ k ∧ k < 0xF000
    front s 0x26 e ∧ e.part = 0 ∧ e.fail = false ∧ host ∧ e.len ≤ 4064 ∧ s.boot.put k e.bytes = some b) ∧
    (∃ (s : State) (e : Entry),
    let front := fun (s : State) (op : Nat) (e : Entry) => s.unitsWf = true ∧ s.awake = true ∧ s.s2Runs = true ∧ s.setter.builds = [] ∧
      s.setter.intake.head? = some e ∧ e.op = op ∧ (e.reads = true → e.fail = true ∨ e.data.isSome = true)
    let k := e.arg 0x18 2
    front s 0x27 e ∧ e.part = 0 ∧ e.fail = false ∧ (k < 0x5000 ∨ 0xF000 ≤ k)) ∧
    (∃ (s : State) (e : Entry),
    let front := fun (s : State) (op : Nat) (e : Entry) => s.unitsWf = true ∧ s.awake = true ∧ s.s2Runs = true ∧ s.setter.builds = [] ∧
      s.setter.intake.head? = some e ∧ e.op = op ∧ (e.reads = true → e.fail = true ∨ e.data.isSome = true)
    let k := e.arg 0x18 2
    front s 0x27 e ∧ e.part = 0 ∧ e.fail = false ∧ 0x5000 ≤ k ∧ k < 0xF000) ∧
    (∃ (s : State) (e : Entry),
    let front := fun (s : State) (op : Nat) (e : Entry) => s.unitsWf = true ∧ s.awake = true ∧ s.s2Runs = true ∧ s.setter.builds = [] ∧
      s.setter.intake.head? = some e ∧ e.op = op ∧ (e.reads = true → e.fail = true ∨ e.data.isSome = true)
    let b := earlyStamp e.bytes s.clasp.seq
    front s 0x28 e ∧ e.part = 0 ∧ e.fail = false ∧ earlyValid b = false) ∧
    (∃ (s : State) (e : Entry),
    let front := fun (s : State) (op : Nat) (e : Entry) => s.unitsWf = true ∧ s.awake = true ∧ s.s2Runs = true ∧ s.setter.builds = [] ∧
      s.setter.intake.head? = some e ∧ e.op = op ∧ (e.reads = true → e.fail = true ∨ e.data.isSome = true)
    let b := earlyStamp e.bytes s.clasp.seq
    front s 0x28 e ∧ e.part = 0 ∧ e.fail = false ∧ earlyValid b = true) ∧
    (∃ (s : State) (e : Entry) (k : Nat),
    let front := fun (s : State) (op : Nat) (e : Entry) => s.unitsWf = true ∧ s.awake = true ∧ s.s2Runs = true ∧ s.setter.builds = [] ∧
      s.setter.intake.head? = some e ∧ e.op = op ∧ (e.reads = true → e.fail = true ∨ e.data.isSome = true)
    front s 0x29 e ∧ e.part = 0 ∧ e.fail = false ∧ Memory.wf hmReset s.boot.hm = true ∧ k ≠ 7) ∧
    (∃ (s : State) (e : Entry),
    let front := fun (s : State) (op : Nat) (e : Entry) => s.unitsWf = true ∧ s.awake = true ∧ s.s2Runs = true ∧ s.setter.builds = [] ∧
      s.setter.intake.head? = some e ∧ e.op = op ∧ (e.reads = true → e.fail = true ∨ e.data.isSome = true)
    front s 0x29 e ∧ e.part = 0 ∧ e.fail = false ∧ Memory.wf hmReset s.boot.hm = true ∧ s.boot.log.length < 4096) ∧
    (∃ (s : State) (e : Entry),
    let front := fun (s : State) (op : Nat) (e : Entry) => s.unitsWf = true ∧ s.awake = true ∧ s.s2Runs = true ∧ s.setter.builds = [] ∧
      s.setter.intake.head? = some e ∧ e.op = op ∧ (e.reads = true → e.fail = true ∨ e.data.isSome = true)
    front s 0x29 e ∧ e.part = 0 ∧ e.fail = false ∧ Memory.wf hmReset s.boot.hm = true ∧ 4096 ≤ s.boot.log.length) ∧
    (∃ (s : State) (e : Entry),
    let front := fun (s : State) (op : Nat) (e : Entry) => s.unitsWf = true ∧ s.awake = true ∧ s.s2Runs = true ∧ s.setter.builds = [] ∧
      s.setter.intake.head? = some e ∧ e.op = op ∧ (e.reads = true → e.fail = true ∨ e.data.isSome = true)
    let bs := (s.boot.log.flatMap HmRec.bytes).take e.len
    front s 0x2A e ∧ e.part = 0 ∧ e.fail = false ∧ s.canWrite = true ∧ (e.addr % 2 = 0 ∨ bs = [])) ∧
    (∃ (s : State) (e : Entry),
    let front := fun (s : State) (op : Nat) (e : Entry) => s.unitsWf = true ∧ s.awake = true ∧ s.s2Runs = true ∧ s.setter.builds = [] ∧
      s.setter.intake.head? = some e ∧ e.op = op ∧ (e.reads = true → e.fail = true ∨ e.data.isSome = true)
    let bs := (s.boot.log.flatMap HmRec.bytes).take e.len
    front s 0x2A e ∧ e.part = 0 ∧ e.fail = false ∧ s.canWrite = true ∧ e.addr % 2 = 0 ∧ bs ≠ []) ∧
    (∃ (s : State) (e : Entry),
    let front := fun (s : State) (op : Nat) (e : Entry) => s.unitsWf = true ∧ s.awake = true ∧ s.s2Runs = true ∧ s.setter.builds = [] ∧
      s.setter.intake.head? = some e ∧ e.op = op ∧ (e.reads = true → e.fail = true ∨ e.data.isSome = true)
    let p := e.arg 0x18 1
    front s 0x2B e ∧ e.part = 0 ∧ e.fail = false ∧ (e.len ≠ 32 ∨ 4 ≤ p)) ∧
    (∃ (s : State) (e : Entry),
    let front := fun (s : State) (op : Nat) (e : Entry) => s.unitsWf = true ∧ s.awake = true ∧ s.s2Runs = true ∧ s.setter.builds = [] ∧
      s.setter.intake.head? = some e ∧ e.op = op ∧ (e.reads = true → e.fail = true ∨ e.data.isSome = true)
    let p := e.arg 0x18 1
    front s 0x2B e ∧ e.part = 0 ∧ e.fail = false ∧ e.len = 32 ∧ p < 4 ∧ (s.mem.locked = true ∨ s.boot.devKey = none)) ∧
    (∃ (s : State) (e : Entry),
    let front := fun (s : State) (op : Nat) (e : Entry) => s.unitsWf = true ∧ s.awake = true ∧ s.s2Runs = true ∧ s.setter.builds = [] ∧
      s.setter.intake.head? = some e ∧ e.op = op ∧ (e.reads = true → e.fail = true ∨ e.data.isSome = true)
    let p := e.arg 0x18 1
    front s 0x2B e ∧ e.part = 0 ∧ e.fail = false ∧ e.len = 32 ∧ p < 4 ∧ s.mem.locked = false ∧ s.boot.devKey ≠ none) :=
  ⟨⟨(.imgBegin, 0x20), wIn (wEnt 0x20 3 ([])), (wEnt 0x20 3 ([])), by decide +kernel⟩,
    ⟨wIn (wEnt 0x20 0 (leBytes 4 31457281)), (wEnt 0x20 0 (leBytes 4 31457281)), by decide +kernel⟩,
    ⟨{ wIn (wEnt 0x20 0 (leBytes 4 31457280)) with boot := { wB.boot with upd := some ⟨1, 10, 0⟩ } }, (wEnt 0x20 0 (leBytes 4 31457280)), by decide +kernel⟩,
    ⟨wIn (wEnt 0x20 0 (leBytes 4 31457280)), (wEnt 0x20 0 (leBytes 4 31457280)), by decide +kernel⟩,
    ⟨wIn ({ wEnt 0x21 0 (leBytes 4 0) with data := some [1] }), ({ wEnt 0x21 0 (leBytes 4 0) with data := some [1] }), by decide +kernel⟩,
    ⟨{ wIn ({ wEnt 0x21 0 (leBytes 4 10) with data := some [1] }) with boot := { wB.boot with upd := some ⟨1, 10, 10⟩ } }, ({ wEnt 0x21 0 (leBytes 4 10) with data := some [1] }), ⟨1, 10, 10⟩, by decide +kernel⟩,
    ⟨{ wIn ({ wEnt 0x21 0 (leBytes 4 9) with data := some [1] }) with boot := { wB.boot with upd := some ⟨1, 10, 9⟩ } }, ({ wEnt 0x21 0 (leBytes 4 9) with data := some [1] }), ⟨1, 10, 9⟩, by decide +kernel⟩,
    ⟨wIn (wEnt 0x22 0 ([])), (wEnt 0x22 0 ([])), ⟨by decide +kernel, by decide +kernel, by decide +kernel, by intro u h; cases h⟩⟩,
    ⟨{ wIn (wEnt 0x22 0 ([])) with boot := { wB.boot with upd := some ⟨1, 10, 10⟩ } }, (wEnt 0x22 0 ([])), ⟨1, 10, 10⟩, by decide +kernel⟩,
    ⟨{ wIn (wEnt 0x23 0 ([])) with boot := { wB.boot with upd := some ⟨1, 10, 10⟩ } }, (wEnt 0x23 0 ([])), ⟨by decide +kernel, by decide +kernel, by decide +kernel, by rintro ⟨h, -⟩; cases h⟩⟩,
    ⟨{ wIn (wEnt 0x23 0 []) with boot := wLedger }, wEnt 0x23 0 [], ⟨by decide +kernel, by decide +kernel, by decide +kernel, ⟨by decide, _, wLedger_current, by decide⟩⟩⟩,
    ⟨wIn (wEnt 0x24 0 ([])), (wEnt 0x24 0 ([])), false, by decide +kernel⟩,
    ⟨wIn (wEnt 0x24 0 ([])), (wEnt 0x24 0 ([])), true, true, by decide +kernel⟩,
    ⟨{ wIn (wEnt 0x24 0 ([])) with boot := { wB.boot with otp := { Otp.blank with fuses := 1 } } }, (wEnt 0x24 0 ([])), true, false, 0, by decide +kernel⟩,
    ⟨wIn (wEnt 0x25 0 ([5, 0, 0, 0] ++ leBytes 4 0)), (wEnt 0x25 0 ([5, 0, 0, 0] ++ leBytes 4 0)), by decide +kernel⟩,
    ⟨wIn (wEnt 0x25 0 ([1, 0, 0, 0] ++ leBytes 4 7)), (wEnt 0x25 0 ([1, 0, 0, 0] ++ leBytes 4 7)), by decide +kernel⟩,
    ⟨wIn (wEnt 0x25 0 ([1, 0, 0, 0] ++ leBytes 4 0)), (wEnt 0x25 0 ([1, 0, 0, 0] ++ leBytes 4 0)), false, by decide +kernel⟩,
    ⟨wIn (wEnt 0x25 0 ([1, 0, 0, 0] ++ leBytes 4 0)), (wEnt 0x25 0 ([1, 0, 0, 0] ++ leBytes 4 0)), true, true, by decide +kernel⟩,
    ⟨{ wIn (wEnt 0x25 0 ([2, 0, 0, 0] ++ leBytes 4 0)) with boot := { wB.boot with otp := { Otp.blank with lc := 3 } } }, (wEnt 0x25 0 ([2, 0, 0, 0] ++ leBytes 4 0)), true, false, 0, by decide +kernel⟩,
    ⟨wIn ({ wEnt 0x26 0 (leBytes 2 1) with data := some [] }), ({ wEnt 0x26 0 (leBytes 2 1) with data := some [] }), by decide +kernel⟩,
    ⟨wIn ({ wEnt 0x26 0 (leBytes 2 0x6000) with len := 4065 }), ({ wEnt 0x26 0 (leBytes 2 0x6000) with len := 4065 }), by decide +kernel⟩,
    ⟨wIn ({ wEnt 0x26 0 (leBytes 2 0x6000) with data := some (List.replicate 4065 1) }), ({ wEnt 0x26 0 (leBytes 2 0x6000) with data := some (List.replicate 4065 1) }), by decide +kernel⟩,
    ⟨wIn ({ wEnt 0x26 0 (leBytes 2 0x6000) with data := some [1] }), ({ wEnt 0x26 0 (leBytes 2 0x6000) with data := some [1] }), (({ wIn (wEnt 0 0 []) with boot := wB.boot }).boot.put 0x6000 [1]).getD wB.boot, by decide +kernel⟩,
    ⟨wIn (wEnt 0x27 0 (leBytes 2 0xF000)), (wEnt 0x27 0 (leBytes 2 0xF000)), by decide +kernel⟩,
    ⟨wIn (wEnt 0x27 0 (leBytes 2 0x5000)), (wEnt 0x27 0 (leBytes 2 0x5000)), by decide +kernel⟩,
    ⟨wIn ({ wEnt 0x28 0 ([]) with data := some [] }), ({ wEnt 0x28 0 ([]) with data := some [] }), by decide +kernel⟩,
    ⟨wIn ({ wEnt 0x28 0 ([]) with data := some wEarly }), ({ wEnt 0x28 0 ([]) with data := some wEarly }), by decide +kernel⟩,
    ⟨wIn ({ wEnt 0x29 0 ([]) with data := some (List.replicate 48 1) }), ({ wEnt 0x29 0 ([]) with data := some (List.replicate 48 1) }), 0, by decide +kernel⟩,
    ⟨wIn ({ wEnt 0x29 0 ([]) with data := some (List.replicate 48 1) }), ({ wEnt 0x29 0 ([]) with data := some (List.replicate 48 1) }), by decide +kernel⟩,
    ⟨{ wIn ({ wEnt 0x29 0 ([]) with data := some (List.replicate 48 1) }) with boot := { wB.boot with log := List.replicate 4096 ⟨0, 7, 0, 0, []⟩ } }, ({ wEnt 0x29 0 ([]) with data := some (List.replicate 48 1) }), by decide +kernel⟩,
    ⟨{ wIn (wEnt 0x2A 0 ([])) with host := { HostSys.reset with pcie := ⟨1, 0, 0, 0⟩ } }, (wEnt 0x2A 0 ([])), by decide +kernel⟩,
    ⟨{ wIn ({ wEnt 0x2A 0 (leBytes 4 1 ++ leBytes 4 5) with len := 128 }) with host := { HostSys.reset with pcie := ⟨1, 0, 0, 0⟩ }, boot := { wB.boot with log := [⟨1, 7, 1, 5, List.replicate 48 0⟩] } }, ({ wEnt 0x2A 0 (leBytes 4 1 ++ leBytes 4 5) with len := 128 }), by decide +kernel⟩,
    ⟨wIn ({ wEnt 0x2B 0 ([0]) with len := 31 }), ({ wEnt 0x2B 0 ([0]) with len := 31 }), by decide +kernel⟩,
    ⟨wIn ({ wEnt 0x2B 0 ([3]) with len := 32, data := some (List.replicate 32 1) }), ({ wEnt 0x2B 0 ([3]) with len := 32, data := some (List.replicate 32 1) }), by decide +kernel⟩,
    ⟨{ wIn ({ wEnt 0x2B 0 ([3]) with len := 32, data := some (List.replicate 32 1) }) with boot := wKeyed }, ({ wEnt 0x2B 0 ([3]) with len := 32, data := some (List.replicate 32 1) }), by decide +kernel⟩⟩

theorem witness_DmaAndEndpointCommands :
    (∃ (s : State) (p : Nat) (d : Option (List Byte)),
    p < 4 ∧ s.dmaUp = true ∧ s.setter.reading p = none ∧ (d = none ∨ d = some [])) ∧
    (∃ (s : State) (p : Nat) (d : Option (List Byte)) (i : Nat) (e : _),
    p < 4 ∧ s.dmaUp = true ∧ s.setter.reading p = some i ∧ s.setter.intake[i]? = some e ∧ (∀ b, d = some b → b.length = e.len)) ∧
    (∃ (s : State) (p : Nat) (i : Instr),
    s.unitsWf = true ∧ Memory.wf (fun _ => Ring.reset) (s.host.part p).sq = true ∧ p < 4 ∧ s.dmaUp = true ∧
      i ∈ [Instr.dmaReadComplete p 65 none, .dmaTimeout p 65] ∧ s.host.nextRing p = none) ∧
    (∃ (s : State) (p : Nat) (i : Instr) (r : Nat) (k : Nat),
    s.unitsWf = true ∧ Memory.wf (fun _ => Ring.reset) (s.host.part p).sq = true ∧ p < 4 ∧ s.dmaUp = true ∧
      i ∈ [Instr.dmaReadComplete p 65 none, .dmaTimeout p 65] ∧ s.host.nextRing p = some r ∧ k ≠ r) ∧
    (∃ (s : State) (p : Nat) (k : Nat) (b : Nat × Nat) (rest : List (Nat × Nat)) (i : Instr) (j : Nat),
    s.unitsWf = true ∧ Memory.wf (fun _ => Tap.reset) (s.host.part p).taps = true ∧ p < 4 ∧ k < 64 ∧ s.dmaUp = true ∧
      ((s.host.part p).tap k).reads = b :: rest ∧ i ∈ [Instr.dmaReadComplete p k none, .dmaTimeout p k] ∧ j ≠ k) ∧
    (∃ (s : State) (p : Nat) (k : Nat) (f0 : Nat) (lim : Nat) (rest : List (Nat × Nat)) (nd : TapNode) (bs : List Byte) (j : Nat),
    let x := (s.host.part p).tap k
    s.unitsWf = true ∧ Memory.wf (fun _ => Tap.reset) (s.host.part p).taps = true ∧ p < 4 ∧ k < 64 ∧ s.dmaUp = true ∧ x.reads = (f0, lim) :: rest ∧
      x.node = some nd ∧ bs.length = x.blk * x.frameLen ∧ j ≠ k) ∧
    (∃ (s : State) (p : Nat) (k : Nat) (f0 : Nat) (lim : Nat) (rest : List (Nat × Nat)) (nd : TapNode) (bs : List Byte),
    let x := (s.host.part p).tap k
    s.unitsWf = true ∧ Memory.wf (fun _ => Tap.reset) (s.host.part p).taps = true ∧ p < 4 ∧ k < 64 ∧ s.dmaUp = true ∧ x.reads = (f0, lim) :: rest ∧
      x.node = some nd ∧ bs.length = x.blk * x.frameLen ∧ x.wait = false) ∧
    (∃ (s : State) (p : Nat) (k : Nat),
    let x := (s.host.part p).tap k
    s.unitsWf = true ∧ Memory.wf (fun _ => Tap.reset) (s.host.part p).taps = true ∧ s.quiet = true ∧ p < 4 ∧ k < 64 ∧ s.dmaUp = true ∧
      (x.done = [] ∨ s.host.reach p x.lo = false)) ∧
    (∃ (s : State) (p : Nat) (k : Nat) (f1 : _) (bs : List Byte) (rest : List (Nat × List Byte)) (j : Nat),
    let x := (s.host.part p).tap k
    s.unitsWf = true ∧ Memory.wf (fun _ => Tap.reset) (s.host.part p).taps = true ∧ s.quiet = true ∧ p < 4 ∧ k < 64 ∧ s.dmaUp = true ∧
      x.done = (f1, bs) :: rest ∧ s.host.reach p x.lo = true ∧ j ≠ k) ∧
    (∃ (s : State) (p : Nat) (k : Nat) (f1 : _) (bs : List Byte) (rest : List (Nat × List Byte)),
    let x := (s.host.part p).tap k
    s.unitsWf = true ∧ Memory.wf (fun _ => Tap.reset) (s.host.part p).taps = true ∧ s.quiet = true ∧ p < 4 ∧ k < 64 ∧ s.dmaUp = true ∧
      x.done = (f1, bs) :: rest ∧ s.host.reach p x.lo = true ∧ spaceOf x.lo = false) ∧
    (∃ (s : State) (p : Nat) (k : Nat) (f1 : _) (bs : List Byte) (rest : List (Nat × List Byte)),
    let x := (s.host.part p).tap k
    s.unitsWf = true ∧ Memory.wf (fun _ => Tap.reset) (s.host.part p).taps = true ∧ s.quiet = true ∧ p < 4 ∧ k < 64 ∧ s.dmaUp = true ∧
      x.done = (f1, bs) :: rest ∧ s.host.reach p x.lo = true ∧ spaceOf x.lo = true) ∧
    (∃ (s : State) (p : Nat) (j : Nat),
    s.unitsWf = true ∧ s.quiet = true ∧ p < 4 ∧ s.dmaUp = true ∧ (s.host.part p).meters[j]? = none) ∧
    (∃ (s : State) (p : Nat) (j : Nat) (m : Meter),
    let q := s.host.part p
    s.unitsWf = true ∧ s.quiet = true ∧ p < 4 ∧ s.dmaUp = true ∧ (s.host.part p).meters[j]? = some m ∧ q.mtrCfg.flag 31 = true ∧
      spaceOf q.mtrLo = false ∧ s.host.pcie.bme.testBit p = true ∧ m.n ≠ 0) ∧
    (∃ (s : State) (p : Nat) (on : Bool),
    s.unitsWf = true ∧ p < 4 ∧ s.readable = true ∧ on = false) ∧
    (∃ (s : State) (p : Nat) (on : Bool),
    s.unitsWf = true ∧ p < 4 ∧ s.readable = true ∧ on = true) ∧
    (∃ (s : State) (p : Nat) (q : _),
    s.unitsWf = true ∧ p < 4 ∧ s.readable = true ∧ q ≠ p) ∧
    (∃ (s : State) (p : Nat) (i : Nat) (e : Entry),
    s.unitsWf = true ∧ p < 4 ∧ s.readable = true ∧ s.setter.intake[i]? = some e ∧ (e.part ≠ p ∨ e.op = 1 ∨ e.reads = false ∨ e.wait = true)) ∧
    (∃ (s : State) (p : Nat) (on : Bool) (i : Nat) (e : Entry),
    s.unitsWf = true ∧ p < 4 ∧ s.readable = true ∧ s.setter.intake[i]? = some e ∧ e.part = p ∧ e.op ≠ 1 ∧ e.reads = true ∧ e.wait = false ∧
      e.fail = false ∧ e.data = none ∧ e.len ≠ 0 ∧ e.addr % 2 = 0 ∧ on = true) ∧
    (∃ (s : State) (p : Nat) (q : _),
    s.unitsWf = true ∧ p < 4 ∧ s.readable = true ∧ q ≠ p) ∧
    (∃ (s : State) (p : Nat),
    s.unitsWf = true ∧ p < 4 ∧ s.readable = true ∧ (s.host.part p).holder = some 0) ∧
    (∃ (s : State) (p : Nat),
    s.unitsWf = true ∧ p < 4 ∧ s.readable = true ∧ (s.host.part p).holder ≠ some 0) ∧
    (∃ (s : State) (width : Nat) (speed : Nat) (p : Nat),
    s.unitsWf = true ∧ width ∈ [0, 1, 2, 4] ∧ speed ≤ 4 ∧ s.power.phase = .run ∧ p < 4 ∧ (s.host.part p).holder = some 0) ∧
    (∃ (s : State) (width : Nat) (speed : Nat) (p : Nat),
    s.unitsWf = true ∧ width ∈ [0, 1, 2, 4] ∧ speed ≤ 4 ∧ s.power.phase = .run ∧ p < 4 ∧ (s.host.part p).holder ≠ some 0) :=
  ⟨⟨wB, 3, none, by decide⟩,
    ⟨{ wB with setter := { SetterSys.reset with intake := [{ wEnt 1 3 [] with len := 2, wait := true }] } }, 3, some [1, 2], 0, { wEnt 1 3 [] with len := 2, wait := true }, by decide⟩,
    ⟨wB, 3, .dmaTimeout 3 65, by decide⟩,
    ⟨wHeld { Part.reset with sq := [(7, { wRing with host := 1 })] }, 3, .dmaTimeout 3 65, 7, 1, by decide⟩,
    ⟨wHeld { Part.reset with taps := [(63, { Tap.reset with reads := [(0, 5)], cfg := 1, node := some ⟨true, 0, 0, [Reader.of 5]⟩ })] }, 3, 63, (0, 5), [], .dmaTimeout 3 63, 0, by decide⟩,
    ⟨wHeld { Part.reset with taps := [(63, { Tap.reset with reads := [(0, 5)], cfg := 1, node := some ⟨true, 0, 0, [Reader.of 5]⟩ })] }, 3, 63, 0, 5, [], ⟨true, 0, 0, [Reader.of 5]⟩, [1, 2, 3], 0, by decide⟩,
    ⟨wHeld { Part.reset with taps := [(63, { Tap.reset with reads := [(0, 5)], cfg := 1, node := some ⟨true, 0, 0, [Reader.of 5]⟩ })] }, 3, 63, 0, 5, [], ⟨true, 0, 0, [Reader.of 5]⟩, [1, 2, 3], by decide⟩,
    ⟨wB, 3, 1, by decide⟩,
    ⟨wHeld { Part.reset with taps := [(63, { Tap.reset with done := [(4, [1, 2, 3])], cfg := 1, frames_ := 2 })] }, 3, 63, 4, [1, 2, 3], [], 0, by decide⟩,
    ⟨wHeld { Part.reset with taps := [(63, { Tap.reset with done := [(4, [1, 2, 3])], cfg := 1, frames_ := 2 })] }, 3, 63, 4, [1, 2, 3], [], by decide⟩,
    ⟨wHeld { Part.reset with taps := [(63, { Tap.reset with done := [(4, [1, 2, 3])], cfg := 1, frames_ := 2, lo := 1 })] }, 3, 63, 4, [1, 2, 3], [], by decide⟩,
    ⟨wB, 3, 0, by decide⟩,
    ⟨wHeld { Part.reset with meters := [⟨1, [5], 0, 0, 0, 10, [7], [1], 3, 4⟩], mtrCfg := 0x80000000 }, 3, 0, ⟨1, [5], 0, 0, 0, 10, [7], [1], 3, 4⟩, by decide⟩,
    ⟨wB, 3, false, by decide⟩,
    ⟨wB, 3, true, by decide⟩,
    ⟨wB, 3, 0, by decide⟩,
    ⟨{ wB with setter := { SetterSys.reset with intake := [{ wEnt 1 3 [] with len := 2, wait := true }] } }, 3, 0, { wEnt 1 3 [] with len := 2, wait := true }, by decide⟩,
    ⟨{ wB with setter := { SetterSys.reset with intake := [{ wEnt 0x21 0 [] with len := 8 }] } }, 0, true, 0, { wEnt 0x21 0 [] with len := 8 }, by decide⟩,
    ⟨wB, 3, 0, by decide⟩,
    ⟨wHeld { Part.reset with sq := [(7, { wRing with host := 1 })] }, 3, by decide⟩,
    ⟨wB, 3, by decide⟩,
    ⟨wHeld { Part.reset with sq := [(7, { wRing with host := 1 })] }, 4, 4, 3, by decide⟩,
    ⟨wB, 4, 4, 3, by decide⟩⟩

theorem witness_RegisterAndSpiCommands :
    (∃ (s : State) (r : Nat) (off : Nat),
    r < 7 ∧ off < 2 ^ 20 ∧ s.readable = true ∧
      (off % 4 ≠ 0 ∨ (0x1000 ≤ off ∧ off < 0x10000) ∨ (0x10C00 ≤ off ∧ off < 0x11000) ∨ (0x11400 ≤ off ∧ off < 0x20000) ∨ 0x4A000 ≤ off ∨ (4 ≤ r ∧ r < 6 ∧ s.host.view r = none) ∨ (s.awake = false ∧ ¬ (r < 4 ∧ 0x10100 ≤ off ∧ off < 0x10180)) ∨ (r < 6 ∧ s.owns r = false ∧ 0x20000 ≤ off ∧ off < 0x4A000 ∧ off ∉ [0x23000, 0x25030, 0x25C08, 0x25C18]))) ∧
    (∃ (s : State) (r : Nat) (off : Nat) (n : Nat),
    r < 7 ∧ off < 2 ^ 20 ∧ s.readable = true ∧ 1 ≤ n ∧ n < 4) ∧
    (∃ (s : State) (r : Nat) (k : Nat) (j : Nat),
    Memory.wf zeroW s.host.scratch = true ∧ r < 7 ∧ k < 4 ∧ s.writable = true ∧ s.s2Runs = true ∧ (r = 6 ∨ s.host.view r ≠ none) ∧ j < 4 ∧ j ≠ k) ∧
    (∃ (s : State) (p : Nat) (k : Nat) (q : Nat) (r : Nat) (u : Word) (v : Word) (i : Instr) (j : Nat),
    s.unitsWf = true ∧ k < 8 ∧ q < 6 ∧ r < 6 ∧ ((q = 4 ∧ r ≠ 4) ∨ (q = 5 ∧ r < 4)) ∧ s.writable = true ∧ s.host.view q = some p ∧
      s.host.view r = some p ∧ i ∈ [Instr.registerWrite q (0x10040 + 4 * k) 4 u none [(r, v)], .registerWrite r (0x10040 + 4 * k) 4 v none [(q, u)]] ∧
      j ≠ p) ∧
    (∃ (s : State) (r : Nat) (p : Nat) (q : _),
    s.unitsWf = true ∧ r < 6 ∧ s.writable = true ∧ s.host.view r = some p ∧ s.host.holds r = true ∧ q ≠ p) ∧
    (∃ (s : State) (r : Nat) (i : Nat),
    r < 7 ∧ s.commands r = true ∧ s.boot.lastTamper < 8 ∧ (r = 6 ∨ s.host.view r ≠ none) ∧ i < 3) ∧
    (∃ (s : State) (r : Nat) (off : Nat),
    r < 7 ∧ off < 2 ^ 20 ∧ s.readable = true ∧ s.quiet = true ∧ off ≠ 0x1C) ∧
    (∃ (s : State) (r : Nat) (off : Nat),
    r < 7 ∧ off < 2 ^ 20 ∧ s.readable = true ∧ s.quiet = true ∧ off ∉ [0x20050, 0x20070, 0x20090]) ∧
    (∃ (s : State) (r : Nat) (off : Nat),
    r < 7 ∧ off < 2 ^ 20 ∧ s.readable = true ∧ s.quiet = true ∧ off ≠ 0x20420) ∧
    (∃ (s : State) (r : Nat) (q : _),
    Memory.wf (fun _ => 0) s.host.uptLat = true ∧ r < 7 ∧ s.readable = true ∧ (r = 6 ∨ s.host.view r ≠ none) ∧ q ≠ r) ∧
    (∃ (s : State) (r : Nat),
    4 ≤ r ∧ r < 6 ∧ s.host.view r = none) ∧
    (∃ (s : State) (g : Nat) (cmd : Nat) (bits : Nat),
    let bad := bits < 32 ∨ (cmd / 2 ^ 20) % 2 ^ 9 ≠ 0 ∨ cmd % 4 ≠ 0 ∨ (cmd.testBit 30 = true ∧ (cmd / 2 ^ 18) % 4 ≠ 0)
    g < 2 ∧ cmd < 2 ^ 32 ∧ bits ≤ 32 ∧ s.served = true ∧ s.power.phase = .run ∧ s.quiet = true ∧ bad ∧ (bits < 32 ∨ cmd.testBit 31 = true)) ∧
    (∃ (s : State) (g : Nat) (cmd : Nat) (bits : Nat),
    let bad := bits < 32 ∨ (cmd / 2 ^ 20) % 2 ^ 9 ≠ 0 ∨ cmd % 4 ≠ 0 ∨ (cmd.testBit 30 = true ∧ (cmd / 2 ^ 18) % 4 ≠ 0)
    g < 2 ∧ cmd < 2 ^ 32 ∧ bits ≤ 32 ∧ s.served = true ∧ s.power.phase = .run ∧ s.quiet = true ∧ bad ∧ (bits < 32 ∨ cmd.testBit 31 = false)) ∧
    (∃ (s : State) (g : Nat) (cmd : Nat) (bits : Nat),
    let bad := bits < 32 ∨ (cmd / 2 ^ 20) % 2 ^ 9 ≠ 0 ∨ cmd % 4 ≠ 0 ∨ (cmd.testBit 30 = true ∧ (cmd / 2 ^ 18) % 4 ≠ 0)
    g < 2 ∧ cmd < 2 ^ 32 ∧ bits ≤ 32 ∧ s.served = true ∧ s.power.phase = .run ∧ s.quiet = true ∧ ¬ bad ∧ cmd.testBit 31 = true) ∧
    (∃ (s : State) (g : Nat) (cmd : Nat) (bits : Nat),
    let bad := bits < 32 ∨ (cmd / 2 ^ 20) % 2 ^ 9 ≠ 0 ∨ cmd % 4 ≠ 0 ∨ (cmd.testBit 30 = true ∧ (cmd / 2 ^ 18) % 4 ≠ 0)
    g < 2 ∧ cmd < 2 ^ 32 ∧ bits ≤ 32 ∧ s.served = true ∧ s.power.phase = .run ∧ s.quiet = true ∧ ¬ bad ∧ cmd.testBit 31 = false ∧
      cmd.testBit 30 = false) ∧
    (∃ (s : State) (g : Nat) (cmd : Nat) (bits : Nat),
    let bad := bits < 32 ∨ (cmd / 2 ^ 20) % 2 ^ 9 ≠ 0 ∨ cmd % 4 ≠ 0 ∨ (cmd.testBit 30 = true ∧ (cmd / 2 ^ 18) % 4 ≠ 0)
    g < 2 ∧ cmd < 2 ^ 32 ∧ bits ≤ 32 ∧ s.served = true ∧ s.power.phase = .run ∧ s.quiet = true ∧ ¬ bad ∧ cmd.testBit 31 = false) ∧
    (∃ (s : State) (g : Nat) (cmd : Nat),
    g < 2 ∧ cmd < 2 ^ 32 ∧ s.served = true ∧ s.power.phase = .standby ∧ cmd.testBit 31 = true) ∧
    (∃ (s : State) (g : Nat) (cmd : Nat),
    g < 2 ∧ cmd < 2 ^ 32 ∧ s.served = true ∧ s.power.phase = .standby ∧ cmd.testBit 31 = false) :=
  ⟨⟨wB, 5, 0xFFFFC, by decide⟩,
    ⟨wB, 5, 0xFFFFC, 2, by decide⟩,
    ⟨wB, 6, 3, 0, by decide⟩,
    ⟨{ wB with host := { HostSys.reset with spi0 := ⟨3, false, false⟩ } }, 3, 7, 4, 3, 0#32, 1#32, .registerWrite 4 0x1005C 4 0 none [(3, 1)], 0, by decide⟩,
    ⟨wHeld Part.reset, 3, 3, 0, by decide⟩,
    ⟨wB, 6, 2, by decide⟩,
    ⟨wB, 5, 0xFFFFC, by decide⟩,
    ⟨wB, 5, 0xFFFFC, by decide⟩,
    ⟨wB, 5, 0xFFFFC, by decide⟩,
    ⟨wB, 6, 0, by decide⟩,
    ⟨wB, 5, by decide⟩,
    ⟨wB, 1, 0, 31, by decide⟩,
    ⟨wB, 1, 0, 31, by decide⟩,
    ⟨wB, 1, 0x800FFFFC, 32, by decide⟩,
    ⟨wB, 1, 0xFFFFC, 32, by decide⟩,
    ⟨wB, 1, 0xFFFFC, 32, by decide⟩,
    ⟨{ wB with power := { Power.reset with phase := .standby } }, 1, 0x80000000, by decide⟩,
    ⟨{ wB with power := { Power.reset with phase := .standby } }, 1, 0, by decide⟩⟩

theorem witness_GraphCommands :
    (∃ (s : State) (e : Entry),
    let front := fun (s : State) (op : Nat) (e : Entry) => s.unitsWf = true ∧ s.awake = true ∧ s.s2Runs = true ∧ s.setter.builds = [] ∧
      s.setter.intake.head? = some e ∧ e.op = op
    front s 0x02 e ∧ (∀ x ∈ s.setter.cleanup, s.setter.armedOf x.1 = true) ∧ e.fail = true) ∧
    (∃ (s : State) (e : Entry),
    let front := fun (s : State) (op : Nat) (e : Entry) => s.unitsWf = true ∧ s.awake = true ∧ s.s2Runs = true ∧ s.setter.builds = [] ∧
      s.setter.intake.head? = some e ∧ e.op = op
    front s 0x02 e ∧ (∀ x ∈ s.setter.cleanup, s.setter.armedOf x.1 = true) ∧ e.fail = false ∧ (s.host.part e.part).session = e.session) ∧
    (∃ (s : State) (e : Entry),
    let front := fun (s : State) (op : Nat) (e : Entry) => s.unitsWf = true ∧ s.awake = true ∧ s.s2Runs = true ∧ s.setter.builds = [] ∧
      s.setter.intake.head? = some e ∧ e.op = op
    let p := e.arg 0x18 1
    front s 0x17 e ∧ (∀ x ∈ s.setter.cleanup, s.setter.armedOf x.1 = true) ∧ e.part = 0 ∧ e.fail = false ∧ 4 ≤ p) ∧
    (∃ (s : State) (e : Entry) (q : _),
    let front := fun (s : State) (op : Nat) (e : Entry) => s.unitsWf = true ∧ s.awake = true ∧ s.s2Runs = true ∧ s.setter.builds = [] ∧
      s.setter.intake.head? = some e ∧ e.op = op
    let p := e.arg 0x18 1
    front s 0x17 e ∧ (∀ x ∈ s.setter.cleanup, s.setter.armedOf x.1 = true) ∧ e.part = 0 ∧ e.fail = false ∧ p < 4 ∧ q ≠ p ∧ q ≠ 0) ∧
    (∃ (s : State) (e : Entry),
    s.unitsWf = true ∧ s.awake = true ∧ s.s2Runs = true ∧ s.setterFree = true ∧
      (s.setter.intake.head? = none ∨ (s.setter.intake.head? = some e ∧ e.op ≠ 1))) ∧
    (∃ (s : State) (e : Entry),
    s.unitsWf = true ∧ s.awake = true ∧ s.s2Runs = true ∧ s.setterFree = true ∧ s.setter.intake.head? = some e ∧ e.op = 1 ∧
      s.setter.armedOf e.part = true ∧ (e.fail = true ∨ e.data ≠ none)) ∧
    (∃ (s : State) (e : Entry),
    s.unitsWf = true ∧ s.awake = true ∧ s.s2Runs = true ∧ s.setterFree = true ∧ s.setter.intake.head? = some e ∧ e.op = 1 ∧
      s.setter.armedOf e.part = false ∧ e.fail = true) ∧
    (∃ (s : State) (e : Entry) (f : _),
    s.unitsWf = true ∧ s.awake = true ∧ s.s2Runs = true ∧ s.setterFree = true ∧ s.setter.intake.head? = some e ∧ e.op = 1 ∧
      s.setter.armedOf e.part = false ∧ e.fail = false ∧ e.data = some f ∧ s.clk.rescue = true) ∧
    (∃ (s : State) (e : Entry) (f : _),
    s.unitsWf = true ∧ s.awake = true ∧ s.s2Runs = true ∧ s.setterFree = true ∧ s.setter.intake.head? = some e ∧ e.op = 1 ∧
      s.setter.armedOf e.part = false ∧ e.fail = false ∧ e.data = some f ∧ s.clk.rescue = false ∧ s.boot.at_ ≠ .full) ∧
    (∃ (s : State) (e : Entry) (f : _),
    s.unitsWf = true ∧ s.awake = true ∧ s.s2Runs = true ∧ s.setterFree = true ∧ s.setter.intake.head? = some e ∧ e.op = 1 ∧
      s.setter.armedOf e.part = false ∧ e.fail = false ∧ e.data = some f ∧ s.clk.rescue = false ∧ s.boot.at_ = .full ∧ f.length ≠ le f 8 4) ∧
    (∃ (s : State) (plan : Plan) (e : Entry),
    s.unitsWf = true ∧ s.awake = true ∧ s.s2Runs = true ∧ s.setterFree = true ∧ s.setter.intake.head? = some e ∧ e.op = 1 ∧ s.judge e plan = .wait) ∧
    (∃ (s : State) (plan : Plan) (e : Entry) (tag : _) (r : Refuse),
    s.unitsWf = true ∧ s.awake = true ∧ s.s2Runs = true ∧ s.setterFree = true ∧ s.setter.intake.head? = some e ∧ e.op = 1 ∧
      s.judge e plan = .refuse tag r) ∧
    (∃ (s : State) (plan : Plan) (e : Entry) (b : Build),
    s.unitsWf = true ∧ s.awake = true ∧ s.s2Runs = true ∧ s.setterFree = true ∧ s.setter.intake.head? = some e ∧ e.op = 1 ∧
      s.judge e plan = .accept b) ∧
    (∃ (s : State) (b : Build) (l : List Build) (ns : List Nat),
    s.unitsWf = true ∧ s.working = true ∧ s.s2Runs = true ∧ s.setter.builds = b :: l ∧ s.mayArm = true ∧ ns.length = 3) ∧
    (∃ (s : State) (e : Entry), s.unitsWf = true ∧ s.awake = true ∧ s.s2Runs = true ∧ s.setter.builds = [] ∧ s.setter.intake.head? = some e ∧ e.op = 2 ∧ (∀ x ∈ s.setter.cleanup, s.setter.armedOf x.1 = true) ∧ e.fail = false ∧ s.setter.armedOf e.part = true) ∧
    (∃ (s : State) (e : Entry), s.unitsWf = true ∧ s.awake = true ∧ s.s2Runs = true ∧ s.setter.builds = [] ∧ s.setter.intake.head? = some e ∧ e.op = 2 ∧ (∀ x ∈ s.setter.cleanup, s.setter.armedOf x.1 = true) ∧ e.fail = false ∧ s.setter.armedOf e.part = false ∧ (s.setter.part e.part).graph.domains ≠ 0) :=
  ⟨⟨wIn ({ wEnt 0x2 3 ([]) with fail := true }), ({ wEnt 0x2 3 ([]) with fail := true }), by decide +kernel⟩,
    ⟨wIn (wEnt 0x2 3 ([])), (wEnt 0x2 3 ([])), by decide +kernel⟩,
    ⟨wIn (wEnt 0x17 0 ([4])), (wEnt 0x17 0 ([4])), by decide +kernel⟩,
    ⟨wIn (wEnt 0x17 0 ([3])), (wEnt 0x17 0 ([3])), 2, by decide +kernel⟩,
    ⟨wIn ({ wEnt 0x2 3 ([]) with fail := true }), ({ wEnt 0x2 3 ([]) with fail := true }), by decide +kernel⟩,
    ⟨{ wB with setter := { SetterSys.reset with intake := [{ wEnt 1 3 [] with fail := true }], armed := [{ wArm 3 .blend [] 1 with force := 0 }] } }, { wEnt 1 3 [] with fail := true }, by decide +kernel⟩,
    ⟨wIn ({ wEnt 0x1 3 ([]) with fail := true }), ({ wEnt 0x1 3 ([]) with fail := true }), by decide +kernel⟩,
    ⟨{ wIn ({ wEnt 0x1 3 ([]) with data := some [] }) with clk := { wB.clk with rescue := true } }, ({ wEnt 0x1 3 ([]) with data := some [] }), [], by decide +kernel⟩,
    ⟨{ wIn ({ wEnt 0x1 3 ([]) with data := some [] }) with boot := { wB.boot with at_ := .s2 } }, ({ wEnt 0x1 3 ([]) with data := some [] }), [], by decide +kernel⟩,
    ⟨wIn ({ wEnt 0x1 3 ([]) with data := some [0, 0, 0, 0, 0, 0, 0, 0, 1] }), ({ wEnt 0x1 3 ([]) with data := some [0, 0, 0, 0, 0, 0, 0, 0, 1] }), [0, 0, 0, 0, 0, 0, 0, 0, 1], by decide +kernel⟩,
    ⟨{ wB with setter := { SetterSys.reset with intake := [wEnt 1 3 []] }, host := { HostSys.reset with pcie := ⟨8, 0, 0, 0⟩ } }, wPlan, wEnt 1 3 [], by decide +kernel⟩,
    ⟨wIn ({ wEnt 0x1 3 ([]) with data := some [] }), wPlan, ({ wEnt 0x1 3 ([]) with data := some [] }), 0, Refuse.at 0x01 0, by decide +kernel⟩,
    ⟨wIn ({ wEnt 0x1 3 ([]) with data := some wFile }), wPlan, ({ wEnt 0x1 3 ([]) with data := some wFile }), wBuild, by decide +kernel⟩,
    ⟨{ wB with setter := { SetterSys.reset with builds := [wBuild] } }, wBuild, [], [0, 0, 0], by decide +kernel⟩,
    ⟨{ wB with setter := { SetterSys.reset with intake := [wEnt 2 3 []], armed := [{ wArm 3 .blend [] 1 with force := 0 }] } }, wEnt 2 3 [], by decide⟩,
    ⟨{ wB with setter := { SetterSys.reset with intake := [wEnt 2 3 []], parts := [(3, { SetPart.reset with live := true, graph := wSink })] } }, wEnt 2 3 [], by decide⟩⟩

theorem witness_EpochCommands :
    (∃ (s : State) (p : Nat),
    let ok := fun (a : Armed) => a.part == p && !a.done && s.inForce a && !s.reportWaits a
    s.unitsWf = true ∧ p < 4 ∧ s.awake = true ∧ s.setter.armed.find? ok = none) ∧
    (∃ (s : State) (p : Nat) (a : _),
    let ok := fun (a : Armed) => a.part == p && !a.done && s.inForce a && !s.reportWaits a
    s.unitsWf = true ∧ p < 4 ∧ s.awake = true ∧ s.setter.armed.find? ok = some a ∧ a.from_.map (·.op) = some 1 ∧ a.law ≠ .remove) ∧
    (∃ (s : State) (p : Nat) (a : _),
    let ok := fun (a : Armed) => a.part == p && !a.done && s.inForce a && !s.reportWaits a
    s.unitsWf = true ∧ p < 4 ∧ s.awake = true ∧ s.setter.armed.find? ok = some a ∧ a.from_.map (·.op) ≠ some 1) ∧
    (∃ (s : State) (p : Nat) (a : _),
    let ok := fun (a : Armed) => a.part == p && !a.done && s.inForce a && !s.reportWaits a
    s.unitsWf = true ∧ p < 4 ∧ s.awake = true ∧ s.setter.armed.find? ok = some a ∧ a.law = .remove ∧ a.from_ = none) ∧
    (∃ (s : State) (p : Nat) (a : _),
    let ok := fun (a : Armed) => a.part == p && !a.done && s.inForce a && !s.reportWaits a
    let e := a.from_.getD (Entry.none_ p (s.host.part p).session)
    s.unitsWf = true ∧ p < 4 ∧ s.awake = true ∧ s.setter.armed.find? ok = some a ∧ (a.law ≠ .remove ∨ a.from_ ≠ none) ∧
      (s.host.part e.part).session = e.session) ∧
    (∃ (s : State) (p : Nat) (a : _) (x : SinkChg) (n : GNode) (q : Nat),
    let ok := fun (a : Armed) => a.part == p && (a.law == .dip || a.law == .fadeIn) && (domList a.doms).any fun k => decide (a.f.getD k 0 ≤ s.period k)
    s.unitsWf = true ∧ p < 4 ∧ s.awake = true ∧ s.setter.armed.find? ok = some a ∧ a.sinks = [x] ∧ s.clk.rescue = false ∧
      s.clk.recommit.contains p = false ∧ a.doms.testBit x.dom = true ∧ a.f.getD x.dom 0 ≤ s.period x.dom ∧ a.new.node x.node = some n ∧
      n.typ = tSnkPort ∧ nodePort n = some q) ∧
    (∃ (s : State) (p : Nat) (a : _) (q : LinePlace) (l : _),
    let ok := fun (a : Armed) => a.part == p && a.law != .param && a.geo.any (s.geoDue p a)
    s.unitsWf = true ∧ p < 4 ∧ s.awake = true ∧ s.setter.armed.find? ok = some a ∧ a.geo.find? (s.geoDue p a) = some q ∧ s.geoLine p q = some l ∧
      a.done = false) ∧
    (∃ (s : State) (p : Nat),
    s.unitsWf = true ∧ p < 4 ∧ s.awake = true ∧ s.setter.smooth.find? (s.smoothReady p) = none) ∧
    (∃ (s : State) (p : Nat) (q : Smooth),
    s.unitsWf = true ∧ p < 4 ∧ s.awake = true ∧ s.setter.smooth.find? (s.smoothReady p) = some q ∧
      ((s.setter.part p).graph.node q.node = none ∨ q.next = none)) ∧
    (∃ (s : State) (p : Nat) (q : Smooth) (n : GNode) (u : Nat),
    s.unitsWf = true ∧ p < 4 ∧ s.awake = true ∧ s.setter.smooth.find? (s.smoothReady p) = some q ∧ (s.setter.part p).graph.node q.node = some n ∧
      q.next = some u) ∧
    (∃ (s : State) (cls : Nat) (unit : Nat) (plans : List (Nat × Plan)),
    s.unitsWf = true ∧ s.awake = true ∧
      ((cls = 1 ∧ unit < 64) ∨ (cls = 2 ∧ unit < 32) ∨ (cls = 4 ∧ unit < 128 ∧ s.mem.spareFor ≠ none) ∨ (cls = 15 ∧ unit < 32)) ∧
      (∀ x ∈ plans, x.1 < 4) ∧ s.plansLegal cls unit plans = true ∧ cls = 15) ∧
    (∃ (s : State) (cls : Nat) (unit : Nat) (plans : List (Nat × Plan)),
    s.unitsWf = true ∧ s.awake = true ∧
      ((cls = 1 ∧ unit < 64) ∨ (cls = 2 ∧ unit < 32) ∨ (cls = 4 ∧ unit < 128 ∧ s.mem.spareFor ≠ none) ∨ (cls = 15 ∧ unit < 32)) ∧
      (∀ x ∈ plans, x.1 < 4) ∧ s.plansLegal cls unit plans = true ∧ cls = 4) ∧
    (∃ (s : State) (cls : Nat) (unit : Nat) (plans : List (Nat × Plan)),
    s.unitsWf = true ∧ s.awake = true ∧
      ((cls = 1 ∧ unit < 64) ∨ (cls = 2 ∧ unit < 32) ∨ (cls = 4 ∧ unit < 128 ∧ s.mem.spareFor ≠ none) ∨ (cls = 15 ∧ unit < 32)) ∧
      (∀ x ∈ plans, x.1 < 4) ∧ s.plansLegal cls unit plans = true ∧ plans ≠ []) ∧
    (∃ (s : State) (cls : Nat) (unit : Nat) (plans : List (Nat × Plan)) (a : _) (e : _),
    s.unitsWf = true ∧ s.awake = true ∧
      ((cls = 1 ∧ unit < 64) ∨ (cls = 2 ∧ unit < 32) ∨ (cls = 4 ∧ unit < 128 ∧ s.mem.spareFor ≠ none) ∨ (cls = 15 ∧ unit < 32)) ∧
      (∀ x ∈ plans, x.1 < 4) ∧ s.plansLegal cls unit plans = true ∧ s.setter.armed = [a] ∧ a.part < 4 ∧ a.pending = true ∧ a.law ≠ .remove ∧
      a.from_ = some e ∧ (s.host.part e.part).session = e.session) ∧
    (∃ (s : State) (p : Nat), s.unitsWf = true ∧ p < 4 ∧ s.awake = true ∧ s.setter.armed.find? (fun a => a.part == p && (domList a.doms).any fun k => a.law == .blend && a.force.testBit k && !a.gone.testBit k && decide (a.c.getD k 0 + a.x ≤ s.period k)) = none) ∧
    (∃ (s : State) (p : Nat) (a : Armed), s.unitsWf = true ∧ p < 4 ∧ s.awake = true ∧ s.setter.armed.find? (fun a => a.part == p && (domList a.doms).any fun k => a.law == .blend && a.force.testBit k && !a.gone.testBit k && decide (a.c.getD k 0 + a.x ≤ s.period k)) = some a ∧ a.done = false) ∧
    (∃ (s : State) (p : Nat), s.unitsWf = true ∧ p < 4 ∧ s.awake = true ∧ s.setter.armed.find? (fun a => a.part == p && (domList a.doms).any fun k => a.law != .param && a.law != .blend && a.force.testBit k && !a.gone.testBit k && decide (a.c.getD k 0 + 32 ≤ s.period k)) = none) ∧
    (∃ (s : State) (p : Nat) (a : Armed), s.unitsWf = true ∧ p < 4 ∧ s.awake = true ∧ s.setter.armed.find? (fun a => a.part == p && (domList a.doms).any fun k => a.law != .param && a.law != .blend && a.force.testBit k && !a.gone.testBit k && decide (a.c.getD k 0 + 32 ≤ s.period k)) = some a ∧ a.done = false) :=
  ⟨⟨wB, 3, by decide +kernel⟩,
    ⟨{ wDom 2 { wRun with next := 60 } with setter := { SetterSys.reset with armed := [wArm 3 .blend [] 4] } }, 3, wArm 3 .blend [] 4, by decide +kernel⟩,
    ⟨{ wDom 2 { wRun with next := 60 } with setter := { SetterSys.reset with armed := [{ wArm 3 .remove [] 4 with from_ := none }] } }, 3, { wArm 3 .remove [] 4 with from_ := none }, by decide +kernel⟩,
    ⟨{ wDom 2 { wRun with next := 60 } with setter := { SetterSys.reset with armed := [{ wArm 3 .remove [] 4 with from_ := none }] } }, 3, { wArm 3 .remove [] 4 with from_ := none }, by decide +kernel⟩,
    ⟨{ wDom 2 { wRun with next := 60 } with setter := { SetterSys.reset with armed := [wArm 3 .blend [] 4] } }, 3, wArm 3 .blend [] 4, by decide +kernel⟩,
    ⟨{ wDom 2 { wRun with next := 60 } with setter := { SetterSys.reset with armed := [{ wArm 3 .dip [⟨1, 0, 2, 0, 9, false⟩] 4 with new := wSink }] } }, 3, { wArm 3 .dip [⟨1, 0, 2, 0, 9, false⟩] 4 with new := wSink }, ⟨1, 0, 2, 0, 9, false⟩, wSinkNode, 15, by decide +kernel⟩,
    ⟨{ wDom 2 { wRun with next := 60 } with setter := { SetterSys.reset with armed := [{ wArm 3 .blend [] 4 with geo := [wLine] }], parts := [(3, { SetPart.reset with work := wWork })] } }, 3, { wArm 3 .blend [] 4 with geo := [wLine] }, wLine, wLineRec, by decide +kernel⟩,
    ⟨wB, 3, by decide +kernel⟩,
    ⟨{ wB with setter := { SetterSys.reset with smooth := [⟨3, 1, [], none⟩] } }, 3, ⟨3, 1, [], none⟩, by decide +kernel⟩,
    ⟨{ wB with setter := { SetterSys.reset with smooth := [⟨3, 1, [⟨0, 1, 2, 10, 4⟩], none⟩], parts := [(3, { SetPart.reset with graph := wSink })] } }, 3, ⟨3, 1, [⟨0, 1, 2, 10, 4⟩], none⟩, wSinkNode, 10, by decide +kernel⟩,
    ⟨wB, 15, 31, [], by decide +kernel⟩,
    ⟨{ wB with mem := { MemSys.reset with spareFor := some 5 } }, 4, 127, [], by decide +kernel⟩,
    ⟨{ wB with setter := { SetterSys.reset with parts := [(3, { SetPart.reset with graph := wDelay, work := wWork })] } }, 1, 63, [(3, { wPlan with shed := [(3, 1)] })], by decide +kernel⟩,
    ⟨{ wDom 2 { wRun with next := 60 } with setter := { SetterSys.reset with armed := [{ wArm 3 .blend [] 4 with force := 0 }] } }, 2, 31, [], { wArm 3 .blend [] 4 with force := 0 }, wEnt 1 3 [], by decide +kernel⟩,
    ⟨wB, 3, by decide⟩,
    ⟨{ wDom 2 { wRun with next := 60 } with setter := { SetterSys.reset with armed := [{ wArm 3 .blend [] 4 with gone := 0, x := 20 }] } }, 3, { wArm 3 .blend [] 4 with gone := 0, x := 20 }, by decide⟩,
    ⟨wB, 3, by decide⟩,
    ⟨{ wDom 2 { wRun with next := 60 } with setter := { SetterSys.reset with armed := [{ wArm 3 .remove [] 4 with gone := 0, x := 20 }] } }, 3, { wArm 3 .remove [] 4 with gone := 0, x := 20 }, by decide⟩⟩

theorem witness_LifelineCommands :
    (∃ (s : State) (ins : List (Nat × List (List Nat))),
    s.powered = true ∧ (s.clasp.stage = .selected ∨ s.clasp.stage = .live) ∧ (∀ x ∈ ins, x.1 < 36) ∧ s.quiet = true) ∧
    (∃ (r : Route),
    r.gain = 0 ∧ 32 ≤ r.age) ∧
    (∃ (s : State),
    s.powered = true ∧ s.clasp.stage ≠ .off ∧ s.clasp.flags.testBit 1 = true ∧ s.clk.present.1 = true ∧ (s.clasp.pll = .cref ∨ s.clasp.pll = .hold)) ∧
    (∃ (s : State),
    s.powered = true ∧ s.clasp.stage ≠ .off ∧ (s.clasp.flags.testBit 1 = false ∨ s.clk.present.1 = false)) ∧
    (∃ (s : State),
    s.powered = true ∧ s.clasp.stage ≠ .off ∧ s.clasp.pll = .rescue ∧ s.clk.crefLost = false) ∧
    (∃ (s : State),
    s.powered = true ∧ s.clasp.stage ≠ .off ∧ s.clk.crefLost = true) ∧
    (∃ (s : State) (p : Nat),
    p < 36 ∧ s.awake = true ∧ s.clasp.stage = .live ∧ s.onLifeline p = true ∧ s.coverDom p = none) ∧
    (∃ (s : State) (p : Nat) (k : Nat) (q : ClaspPort),
    p < 36 ∧ s.awake = true ∧ s.clasp.stage = .live ∧ s.onLifeline p = true ∧ s.coverDom p = some k ∧ q.port ≠ p) :=
  ⟨⟨{ wB with clasp := { Clasp.reset with stage := .selected }, clk := { ClkSys.reset with coreLock := true } }, [(35, [])], by decide⟩,
    ⟨⟨(0, 0), (0, 1), 0, [], 32, .life⟩, by decide⟩,
    ⟨{ wB with clasp := { Clasp.reset with flags := 2 }, clk := { ClkSys.reset with coreLock := true, present := (true, false) } }, by decide⟩,
    ⟨{ wB with clasp := { Clasp.reset with stage := .selected }, clk := { ClkSys.reset with coreLock := true } }, by decide⟩,
    ⟨{ wB with clasp := { Clasp.reset with pll := .rescue }, clk := { ClkSys.reset with coreLock := true } }, by decide⟩,
    ⟨{ wB with clasp := { Clasp.reset with pll := .rescue }, clk := { ClkSys.reset with coreLock := true, crefLost := true } }, by decide⟩,
    ⟨{ wB with clasp := { Clasp.reset with stage := .live, ports := [{ port := 15, fmt := 0x1601, rxMask := 1, txMask := 1, ok := true, dom := none, released := false, fade := 0, buf := [], last := [], slips := 0, now := none }] }, clk := { ClkSys.reset with coreLock := true } }, 15, by decide⟩,
    ⟨{ wDom 2 { wRun with rate := 2 } with clasp := { Clasp.reset with stage := .live, ports := [{ port := 15, fmt := 0x1601, rxMask := 1, txMask := 1, ok := true, dom := none, released := false, fade := 0, buf := [], last := [], slips := 0, now := none }] }, setter := { SetterSys.reset with parts := [(3, { SetPart.reset with live := true, graph := wSink })] } }, 15, 2, { port := 0, fmt := 0x1601, rxMask := 1, txMask := 1, ok := true, dom := none, released := false, fade := 0, buf := [], last := [], slips := 0, now := none }, by decide⟩⟩

theorem witness_PowerStateCommands :
    (∃ (s : State),
    let due := s.power.phase = .run ∧ s.power.idleS ≠ 0 ∧ s.held = false ∧ s.power.idleAt ≤ s.us
    ¬ due) ∧
    (∃ (s : State),
    let due := s.power.phase = .run ∧ s.power.idleS ≠ 0 ∧ s.held = false ∧ s.power.idleAt ≤ s.us
    due ∧ s.power.wakeN = true) ∧
    (∃ (s : State),
    let due := s.power.phase = .run ∧ s.power.idleS ≠ 0 ∧ s.held = false ∧ s.power.idleAt ≤ s.us
    due ∧ s.power.wakeN = false) ∧
    (∃ (s : State) (e : Entry) (w : Bool) (x : _),
    s.unitsWf = true ∧ s.s2Runs = true ∧ s.setter.builds = [] ∧ s.setter.intake.head? = some e ∧ s.power.phase = .run ∧
      x ∈ [(Instr.pwrStandby w, 0x30, false), (.pwrDormant w, 0x31, true)] ∧ e.op = x.2.1 ∧ e.part ≠ 0) ∧
    (∃ (s : State) (e : Entry) (w : Bool) (x : _),
    s.unitsWf = true ∧ s.s2Runs = true ∧ s.setter.builds = [] ∧ s.setter.intake.head? = some e ∧ s.power.phase = .run ∧
      x ∈ [(Instr.pwrStandby w, 0x30, false), (.pwrDormant w, 0x31, true)] ∧ e.op = x.2.1 ∧ e.part = 0 ∧ e.fail = true) ∧
    (∃ (s : State) (e : Entry) (w : Bool) (x : _),
    let a := e.arg 0x18 4
    let bad := x.2.2 = true ∧ a ≠ 2 ^ 32 - 1 ∧ 86400 < a
    s.unitsWf = true ∧ s.s2Runs = true ∧ s.setter.builds = [] ∧ s.setter.intake.head? = some e ∧ s.power.phase = .run ∧
      x ∈ [(Instr.pwrStandby w, 0x30, false), (.pwrDormant w, 0x31, true)] ∧ e.op = x.2.1 ∧ e.part = 0 ∧ e.fail = false ∧ bad) ∧
    (∃ (s : State) (e : Entry) (w : Bool) (x : _),
    let a := e.arg 0x18 4
    let bad := x.2.2 = true ∧ a ≠ 2 ^ 32 - 1 ∧ 86400 < a
    s.unitsWf = true ∧ s.s2Runs = true ∧ s.setter.builds = [] ∧ s.setter.intake.head? = some e ∧ s.power.phase = .run ∧
      x ∈ [(Instr.pwrStandby w, 0x30, false), (.pwrDormant w, 0x31, true)] ∧ e.op = x.2.1 ∧ e.part = 0 ∧ e.fail = false ∧ ¬ bad ∧ s.held = true) ∧
    (∃ (s : State) (e : Entry) (w : Bool) (x : _),
    let a := e.arg 0x18 4
    let bad := x.2.2 = true ∧ a ≠ 2 ^ 32 - 1 ∧ 86400 < a
    s.unitsWf = true ∧ s.s2Runs = true ∧ s.setter.builds = [] ∧ s.setter.intake.head? = some e ∧ s.power.phase = .run ∧
      x ∈ [(Instr.pwrStandby w, 0x30, false), (.pwrDormant w, 0x31, true)] ∧ e.op = x.2.1 ∧ e.part = 0 ∧ e.fail = false ∧ ¬ bad ∧ s.held = false ∧
      w = false ∧ s.power.wakeN = false) ∧
    (∃ (s : State) (e : Entry) (w : Bool) (x : _),
    let a := e.arg 0x18 4
    let bad := x.2.2 = true ∧ a ≠ 2 ^ 32 - 1 ∧ 86400 < a
    s.unitsWf = true ∧ s.s2Runs = true ∧ s.setter.builds = [] ∧ s.setter.intake.head? = some e ∧ s.power.phase = .run ∧
      x ∈ [(Instr.pwrStandby w, 0x30, false), (.pwrDormant w, 0x31, true)] ∧ e.op = x.2.1 ∧ e.part = 0 ∧ e.fail = false ∧ ¬ bad ∧ s.held = false ∧
      w = true) ∧
    (∃ (s : State) (e : Entry) (w : Bool) (x : _),
    let a := e.arg 0x18 4
    let bad := x.2.2 = true ∧ a ≠ 2 ^ 32 - 1 ∧ 86400 < a
    s.unitsWf = true ∧ s.s2Runs = true ∧ s.setter.builds = [] ∧ s.setter.intake.head? = some e ∧ s.power.phase = .run ∧
      x ∈ [(Instr.pwrStandby w, 0x30, false), (.pwrDormant w, 0x31, true)] ∧ e.op = x.2.1 ∧ e.part = 0 ∧ e.fail = false ∧ ¬ bad ∧ s.held = false ∧
      w = false ∧ s.power.wakeN = true) ∧
    (∃ (s : State),
    let b := s.power.stopped
    s.unitsWf = true ∧ s.power.phase = .quiescing ∧ s.power.stopped ≤ 6 ∧ s.held = true ∧ (b = 4 ∨ b = 5)) ∧
    (∃ (s : State),
    let b := s.power.stopped
    s.unitsWf = true ∧ s.power.phase = .quiescing ∧ s.power.stopped ≤ 6 ∧ (b = 2 ∨ b = 3)) ∧
    (∃ (s : State) (r : Nat),
    let b := s.power.stopped
    s.unitsWf = true ∧ s.power.phase = .quiescing ∧ s.power.stopped ≤ 6 ∧ s.blockRefuses b = some r) ∧
    (∃ (s : State),
    let b := s.power.stopped
    s.unitsWf = true ∧ s.power.phase = .quiescing ∧ s.power.stopped ≤ 6 ∧ s.blockRefuses b = none ∧ b < 6) ∧
    (∃ (s : State),
    let b := s.power.stopped
    s.unitsWf = true ∧ s.power.phase = .quiescing ∧ s.power.stopped ≤ 6 ∧ s.blockRefuses b = none ∧ b = 6) ∧
    (∃ (s : State),
    s.power.phase = .run) ∧
    (∃ (s : State),
    s.power.phase = .quiescing) ∧
    (∃ (s : State) (i : Instr) (src : Nat),
    ((∃ low, i = .wakeNEdge low ∧ src = 1) ∨ (i = .aonTimerExpiry ∧ src = 5 ∧ s.power.aonS ≠ 0 ∧ s.power.aonLeft s.us = 0)) ∧
      s.power.phase = .standby) ∧
    (∃ (s : State) (i : Instr) (src : Nat),
    ((∃ low, i = .wakeNEdge low ∧ src = 1) ∨ (i = .aonTimerExpiry ∧ src = 5 ∧ s.power.aonS ≠ 0 ∧ s.power.aonLeft s.us = 0)) ∧
      s.power.phase = .dormant) ∧
    (∃ (s : State),
    (s.power.phase = .standby ∨ s.power.phase = .dormant) ∧ (s.power.aonS = 0 ∨ s.power.aonLeft s.us ≠ 0)) ∧
    (∃ (s : State) (kind : Nat) (n : Nat),
    (kind = 0 ∧ n < 64 ∨ (kind = 1 ∨ kind = 2) ∧ n < 32) ∧ s.awake = true ∧ s.unitFree kind n = false) ∧
    (∃ (s : State) (kind : Nat) (n : Nat) (x : Nat × Nat),
    (kind = 0 ∧ n < 64 ∨ (kind = 1 ∨ kind = 2) ∧ n < 32) ∧ s.awake = true ∧ s.unitFree kind n = true ∧ x ≠ (kind, n)) :=
  ⟨⟨{ wB with power := { Power.reset with idleS := 0 } }, by decide⟩,
    ⟨{ wB with power := { Power.reset with idleAt := 30000000 } }, by decide⟩,
    ⟨{ wB with power := { Power.reset with wakeN := false } }, by decide⟩,
    ⟨wIn (wEnt 0x30 3 ([])), (wEnt 0x30 3 ([])), false, (.pwrStandby false, 0x30, false), by decide⟩,
    ⟨wIn ({ wEnt 0x31 0 ([]) with fail := true }), ({ wEnt 0x31 0 ([]) with fail := true }), false, (.pwrDormant false, 0x31, true), by decide⟩,
    ⟨wIn (wEnt 0x31 0 (leBytes 4 86401)), (wEnt 0x31 0 (leBytes 4 86401)), false, (.pwrDormant false, 0x31, true), by decide⟩,
    ⟨{ wIn (wEnt 0x31 0 (leBytes 4 86400)) with setter := { SetterSys.reset with intake := [wEnt 0x31 0 (leBytes 4 86400)], parts := [(3, { SetPart.reset with live := true })] } }, (wEnt 0x31 0 (leBytes 4 86400)), false, (.pwrDormant false, 0x31, true), by decide⟩,
    ⟨{ wIn (wEnt 0x30 0 ([])) with power := { Power.reset with wakeN := false } }, (wEnt 0x30 0 ([])), false, (.pwrStandby false, 0x30, false), by decide⟩,
    ⟨wIn (wEnt 0x31 0 (leBytes 4 86400)), (wEnt 0x31 0 (leBytes 4 86400)), true, (.pwrDormant true, 0x31, true), by decide⟩,
    ⟨wIn (wEnt 0x31 0 (leBytes 4 0xFFFFFFFF)), (wEnt 0x31 0 (leBytes 4 0xFFFFFFFF)), false, (.pwrDormant false, 0x31, true), by decide⟩,
    ⟨{ wB with power := { Power.reset with phase := .quiescing, stopped := 4 }, setter := { SetterSys.reset with parts := [(3, { SetPart.reset with live := true })] } }, by decide⟩,
    ⟨{ wB with power := { Power.reset with phase := .quiescing, stopped := 3 } }, by decide⟩,
    ⟨{ wB with power := { Power.reset with phase := .quiescing, stopped := 4 }, setter := { SetterSys.reset with parts := [(3, { SetPart.reset with live := true })] } }, 3, by decide⟩,
    ⟨{ wB with power := { Power.reset with phase := .quiescing, stopped := 3 } }, by decide⟩,
    ⟨{ wB with power := { Power.reset with phase := .quiescing, stopped := 6 }, dram := (wDram { DramSys.reset with initDone := true }).dram }, by decide⟩,
    ⟨{ wB with power := { Power.reset with idleS := 0 } }, by decide⟩,
    ⟨{ wB with power := { Power.reset with phase := .quiescing, stopped := 4 }, setter := { SetterSys.reset with parts := [(3, { SetPart.reset with live := true })] } }, by decide⟩,
    ⟨{ wB with power := { Power.reset with phase := .standby } }, .wakeNEdge true, 1, ⟨Or.inl ⟨true, rfl, rfl⟩, by decide⟩⟩,
    ⟨{ wB with power := { Power.reset with phase := .dormant } }, .wakeNEdge true, 1, ⟨Or.inl ⟨true, rfl, rfl⟩, by decide⟩⟩,
    ⟨{ wB with power := { Power.reset with phase := .standby } }, by decide⟩,
    ⟨wLane 2047 { Lane.reset with used := true }, 2, 31, by decide⟩,
    ⟨wB, 2, 31, (0, 5), by decide⟩⟩

theorem witness_SupplyAndTemperatureCommands :
    (∃ (s : State),
    s.powered = true) ∧
    (∃ (s : State) (n : Nat),
    n < 11 ∧ s.powered = true ∧ s.power.railsOut = 0) ∧
    (∃ (s : State) (temp : Nat), temp < 2 ^ 16 ∧ s.powered = true ∧ s.power.hot = false ∧ (if Config.industrial then 105 * 8 else 100 * 8 : Int) < (if temp < 2 ^ 15 then (temp : Int) else temp - 2 ^ 16 : Int)) ∧
    (∃ (s : State) (temp : Nat), temp < 2 ^ 16 ∧ s.powered = true ∧ s.power.hot = true ∧ (if temp < 2 ^ 15 then (temp : Int) else temp - 2 ^ 16 : Int) ≤ (if Config.industrial then 105 * 8 else 100 * 8 : Int) - 16) ∧
    (∃ (s : State) (temp : Nat), temp < 2 ^ 16 ∧ s.powered = true ∧ (if Config.industrial then 105 * 8 else 100 * 8 : Int) - 16 < (if temp < 2 ^ 15 then (temp : Int) else temp - 2 ^ 16 : Int) ∧ (if temp < 2 ^ 15 then (temp : Int) else temp - 2 ^ 16 : Int) ≤ (if Config.industrial then 105 * 8 else 100 * 8 : Int)) :=
  ⟨⟨wB, by decide⟩,
    ⟨wB, 10, by decide⟩,
    ⟨wB, 0x7FFF, by decide, by decide, by decide, by cases Config.industrial <;> decide⟩,
    ⟨{ wB with power := { Power.reset with hot := true } }, 0, by decide, by decide, by decide, by cases Config.industrial <;> decide⟩,
    ⟨wB, if Config.industrial then 840 else 800, by cases Config.industrial <;> decide, by decide, by cases Config.industrial <;> decide, by cases Config.industrial <;> decide⟩⟩

theorem witness_HealthAndGpioCommands :
    (∃ (s : State),
    (s.healthRuns = false ∨ s.health.flying = [])) ∧
    (∃ (s : State) (r : Report) (l : List Report) (c : Nat),
    Memory.wf zeroN s.health.total = true ∧ Memory.wf zeroN s.health.supp = true ∧ s.healthRuns = true ∧ s.health.flying = r :: l ∧ c ≠ r.cause) ∧
    (∃ (s : State) (r : Report) (l : List Report),
    Memory.wf zeroN s.health.total = true ∧ Memory.wf zeroN s.health.supp = true ∧ s.healthRuns = true ∧ s.health.flying = r :: l ∧
      stateCauses.contains r.cause = false) ∧
    (∃ (s : State) (r : Report) (l : List Report),
    Memory.wf zeroN s.health.total = true ∧ Memory.wf zeroN s.health.supp = true ∧ s.healthRuns = true ∧ s.health.flying = r :: l ∧ r.quiet = true) ∧
    (∃ (s : State) (r : Report) (l : List Report),
    let hidden := s.activeParents.any fun p => s.scope.covers p r.cause r.cls r.inst (if r.dom < 3 then r.dom else s.recordDom r)
    Memory.wf zeroN s.health.total = true ∧ Memory.wf zeroN s.health.supp = true ∧ s.healthRuns = true ∧ s.health.flying = r :: l ∧ r.quiet = false ∧
      parentCauses.contains r.cause = false ∧ hidden = true) ∧
    (∃ (s : State) (r : Report) (l : List Report),
    let h := s.screened.health
    let hidden := s.activeParents.any fun p => s.scope.covers p r.cause r.cls r.inst (if r.dom < 3 then r.dom else s.recordDom r)
    Memory.wf zeroN s.health.total = true ∧ Memory.wf zeroN s.health.supp = true ∧ s.healthRuns = true ∧ s.health.flying = r :: l ∧ r.quiet = false ∧
      parentCauses.contains r.cause = false ∧ hidden = false ∧ r.clear = false ∧ (∀ o ∈ h.openRecs, o.takes r (s.recordDom r) = false) ∧
      h.openRecs.length < 256) ∧
    (∃ (s : State) (r : Report) (l : List Report),
    let h := s.screened.health
    let hidden := s.activeParents.any fun p => s.scope.covers p r.cause r.cls r.inst (if r.dom < 3 then r.dom else s.recordDom r)
    Memory.wf zeroN s.health.total = true ∧ Memory.wf zeroN s.health.supp = true ∧ s.healthRuns = true ∧ s.health.flying = r :: l ∧ r.quiet = false ∧
      parentCauses.contains r.cause = false ∧ hidden = false ∧ r.clear = false ∧ (∀ o ∈ h.openRecs, o.takes r (s.recordDom r) = false) ∧
      256 ≤ h.openRecs.length) ∧
    (∃ (s : State),
    (s.healthRuns = false ∨ s.screened.health.due s.us = none)) ∧
    (∃ (s : State) (o : Open) (k : Nat),
    s.unitsWf = true ∧ Memory.wf (fun _ => []) s.health.ring = true ∧ s.healthRuns = true ∧ s.screened.health.due s.us = some o ∧
      k ≠ s.health.seq % 1024) ∧
    (∃ (s : State) (o : Open) (p : Nat),
    s.unitsWf = true ∧ Memory.wf (fun _ => []) s.health.ring = true ∧ s.healthRuns = true ∧ s.screened.health.due s.us = some o ∧ p < 4 ∧
      p ∉ o.affected) ∧
    (∃ (s : State) (r : Nat),
    r < 7 ∧ s.commands r = false) ∧
    (∃ (s : State) (r : Nat),
    r < 7 ∧ s.commands r = true) ∧
    (∃ (s : State) (n : Nat) (level : Bool),
    let g := s.pin n
    s.unitsWf = true ∧ n < 16 ∧ (s.gpioUp n = false ∨ g.en = false ∨ level = g.level)) ∧
    (∃ (s : State) (n : Nat) (level : Bool) (m : Nat),
    let g := s.pin n
    s.unitsWf = true ∧ n < 16 ∧ s.gpioUp n = true ∧ g.en = true ∧ level ≠ g.level ∧ m ≠ n) ∧
    (∃ (s : State) (n : Nat) (level : Bool),
    let g := s.pin n
    s.unitsWf = true ∧ n < 16 ∧ s.gpioUp n = true ∧ g.en = true ∧ level ≠ g.level ∧ g.masked = true) ∧
    (∃ (s : State) (n : Nat) (level : Bool),
    let g := s.pin n
    let edges := (g.edges.filter fun x => decide (s.us < x + g.lim.fld 8 8 * 1000)) ++ [s.us]
    s.unitsWf = true ∧ n < 16 ∧ s.gpioUp n = true ∧ g.en = true ∧ level ≠ g.level ∧ g.masked = false ∧ g.lim.fld 0 8 ≠ 0 ∧
      g.lim.fld 0 8 < edges.length) ∧
    (∃ (s : State) (n : Nat) (level : Bool),
    let g := s.pin n
    let edges := (g.edges.filter fun x => decide (s.us < x + g.lim.fld 8 8 * 1000)) ++ [s.us]
    let active := level != g.cfg.flag 30
    let tell := (if active then g.cfg.flag 28 else g.cfg.flag 29) || (g.stuck && !active)
    s.unitsWf = true ∧ n < 16 ∧ s.gpioUp n = true ∧ g.en = true ∧ level ≠ g.level ∧ g.masked = false ∧
      (g.lim.fld 0 8 = 0 ∨ edges.length ≤ g.lim.fld 0 8) ∧ tell = true) ∧
    (∃ (s : State) (n : Nat) (level : Bool),
    let g := s.pin n
    let edges := (g.edges.filter fun x => decide (s.us < x + g.lim.fld 8 8 * 1000)) ++ [s.us]
    let active := level != g.cfg.flag 30
    s.unitsWf = true ∧ n < 16 ∧ s.gpioUp n = true ∧ g.en = true ∧ level ≠ g.level ∧ g.masked = false ∧
      (g.lim.fld 0 8 = 0 ∨ edges.length ≤ g.lim.fld 0 8) ∧ g.stuck = true ∧ active = false) ∧
    (∃ (s : State) (n : Nat) (level : Bool),
    let g := s.pin n
    let edges := (g.edges.filter fun x => decide (s.us < x + g.lim.fld 8 8 * 1000)) ++ [s.us]
    let active := level != g.cfg.flag 30
    let tell := (if active then g.cfg.flag 28 else g.cfg.flag 29) || (g.stuck && !active)
    s.unitsWf = true ∧ n < 16 ∧ s.gpioUp n = true ∧ g.en = true ∧ level ≠ g.level ∧ g.masked = false ∧
      (g.lim.fld 0 8 = 0 ∨ edges.length ≤ g.lim.fld 0 8) ∧ tell = false) ∧
    (∃ (s : State) (n : Nat),
    let g := s.pin n
    let ripe := s.gpioUp n = true ∧ g.lim.fld 16 16 ≠ 0 ∧ g.active = true ∧ g.masked = false ∧ g.stuck = false ∧
      g.since + g.lim.fld 16 16 * 1000 ≤ s.us
    s.unitsWf = true ∧ n < 16 ∧ ¬ ripe) ∧
    (∃ (s : State) (n : Nat) (m : Nat),
    let g := s.pin n
    let ripe := s.gpioUp n = true ∧ g.lim.fld 16 16 ≠ 0 ∧ g.active = true ∧ g.masked = false ∧ g.stuck = false ∧
      g.since + g.lim.fld 16 16 * 1000 ≤ s.us
    s.unitsWf = true ∧ n < 16 ∧ ripe ∧ m ≠ n) ∧
    (∃ (s : State) (r : Nat) (mask : Nat),
    s.unitsWf = true ∧ r < 7 ∧ mask < 2 ^ 16 ∧ s.commands r = false) ∧
    (∃ (s : State) (r : Nat) (mask : Nat) (n : Nat),
    let g := s.pin n
    s.unitsWf = true ∧ r < 7 ∧ mask < 2 ^ 16 ∧ s.commands r = true ∧ n < 16 ∧ (mask.testBit n = false ∨ g.masked = false)) ∧
    (∃ (s : State) (r : Nat) (mask : Nat) (n : Nat),
    let g := s.pin n
    s.unitsWf = true ∧ r < 7 ∧ mask < 2 ^ 16 ∧ s.commands r = true ∧ n < 16 ∧ mask.testBit n = true ∧ g.masked = true ∧ g.level ≠ g.told) :=
  ⟨⟨wB, by decide⟩,
    ⟨{ wB with health := { Health.reset with flying := [⟨0x800, 12, 15, 3, false, false, 0⟩] } }, ⟨0x800, 12, 15, 3, false, false, 0⟩, [], 1, by decide⟩,
    ⟨{ wB with health := { Health.reset with flying := [{ ({ cause := 0x800, cls := 12, inst := 15, dom := 3, clear := false, quiet := false, detail := 0 } : Report) with cause := 0x302 }] } }, { ({ cause := 0x800, cls := 12, inst := 15, dom := 3, clear := false, quiet := false, detail := 0 } : Report) with cause := 0x302 }, [], by decide⟩,
    ⟨{ wB with health := { Health.reset with flying := [{ ({ cause := 0x800, cls := 12, inst := 15, dom := 3, clear := false, quiet := false, detail := 0 } : Report) with quiet := true }] } }, { ({ cause := 0x800, cls := 12, inst := 15, dom := 3, clear := false, quiet := false, detail := 0 } : Report) with quiet := true }, [], by decide⟩,
    ⟨{ wB with ports := { Serial.reset with ports := [(15, { SerPort.reset 15 with loss := true })] }, health := { Health.reset with flying := [⟨0x304, 7, 15, 3, false, false, 0⟩] } }, ⟨0x304, 7, 15, 3, false, false, 0⟩, [], by decide⟩,
    ⟨{ wB with health := { Health.reset with flying := [{ ({ cause := 0x800, cls := 12, inst := 15, dom := 3, clear := false, quiet := false, detail := 0 } : Report) with cause := 0x302 }] } }, { ({ cause := 0x800, cls := 12, inst := 15, dom := 3, clear := false, quiet := false, detail := 0 } : Report) with cause := 0x302 }, [], by decide⟩,
    ⟨{ wB with health := { Health.reset with flying := [⟨0x302, 16, 3, 3, false, false, 0⟩], openRecs := List.replicate 256 ({ cause := 0x303, cls := 16, dom := 3, hi := 0, clear := false, solo := false, since := 0, reps := [⟨3, 0, 0, [], false⟩] } : Open) } }, ⟨0x302, 16, 3, 3, false, false, 0⟩, [], by decide⟩,
    ⟨wB, by decide⟩,
    ⟨{ wB with health := { Health.reset with openRecs := [{ cause := 0x302, cls := 16, dom := 3, hi := 0, clear := false, solo := false, since := 0, reps := [⟨3, 0, 0, [], false⟩] }] } }, { cause := 0x302, cls := 16, dom := 3, hi := 0, clear := false, solo := false, since := 0, reps := [⟨3, 0, 0, [], false⟩] }, 1, by decide⟩,
    ⟨{ wB with health := { Health.reset with openRecs := [{ cause := 0x302, cls := 16, dom := 3, hi := 0, clear := false, solo := false, since := 0, reps := [⟨3, 0, 0, [], false⟩] }] } }, { cause := 0x302, cls := 16, dom := 3, hi := 0, clear := false, solo := false, since := 0, reps := [⟨3, 0, 0, [], false⟩] }, 3, by decide⟩,
    ⟨wB, 5, by decide⟩,
    ⟨wB, 6, by decide⟩,
    ⟨wB, 11, true, by decide⟩,
    ⟨{ wB with gpio := [(11, { Gpio.reset with cfg := 0x80080000 })] }, 11, true, 0, by decide⟩,
    ⟨{ wB with gpio := [(11, { Gpio.reset with cfg := 0x80080000, masked := true })] }, 11, true, by decide⟩,
    ⟨{ wB with gpio := [(11, { Gpio.reset with cfg := 0x80080000, lim := 0x0A01, edges := [99999999] })] }, 11, true, by decide⟩,
    ⟨{ wB with gpio := [(11, { Gpio.reset with cfg := 0xB0080000, lim := 0x0A00 })] }, 11, true, by decide⟩,
    ⟨{ wB with gpio := [(11, { Gpio.reset with cfg := 0xC0080000, stuck := true })] }, 11, true, by decide⟩,
    ⟨{ wB with gpio := [(11, { Gpio.reset with cfg := 0x80080000 })] }, 11, true, by decide⟩,
    ⟨wB, 11, by decide⟩,
    ⟨{ wB with gpio := [(11, { Gpio.reset with cfg := 0x80080000, lim := 0x00010A00, level := true })] }, 11, 0, by decide⟩,
    ⟨wB, 5, 65535, by decide⟩,
    ⟨wB, 6, 65535, 11, by decide⟩,
    ⟨{ wB with gpio := [(11, { Gpio.reset with masked := true, told := true })] }, 6, 65535, 11, by decide⟩⟩

theorem witness_JtagCommands :
    (∃ (s : State),
    s.powered = true) ∧
    (∃ (s : State) (bits : List Bool) (x : _),
    s.powered = true ∧ s.quiet = true ∧ x ∈ [(Instr.bypass bits, JtagInstr.bypass), (.highz bits, .highz), (.clamp bits, .clamp)]) ∧
    (∃ (s : State) (pins : List Bool) (bits : List Bool) (x : _) (i : Nat),
    s.powered = true ∧ s.quiet = true ∧
      x ∈ [(Instr.samplePreload pins bits, JtagInstr.sample), (.extest pins bits, .extest), (.extestPulse pins bits, .pulse), (.extestTrain pins bits, .train)] ∧ i < pins.length) :=
  ⟨⟨wB, by decide⟩,
    ⟨wB, [true], (.bypass [true], .bypass), by decide⟩,
    ⟨wB, [false, true], [true], (.extestTrain [false, true] [true], .train), 1, by decide⟩⟩

end Sys2Proof.Tests
end

/-!
SUPPORT. What register accesses and SPI frames do (R9, R397, R461, R489 to R499): the queue they keep, the pieces of the state they
leave, one law for each kind of access.
-/

namespace Sys2Proof.Machine

/-! ### Register writes keep the queue -/

@[simp] theorem State.idleAgain_pending (s : State) : s.idleAgain.pending = s.pending := by
  rw [State.idleAgain, apply_ite State.pending, State.withPower_pending, ite_self]

@[simp] theorem State.complete_pending (s : State) (e : Entry) (c : Compl) : (s.complete e c).pending = s.pending := rfl

@[simp] theorem State.loadFacet_pending (s : State) (f k t : Nat) (all : Bool) : (s.loadFacet f k t all).pending = s.pending := by
  simp only [State.loadFacet]
  split
  · split
    · rfl
    · exact (State.withSetter_pending _ _).trans (State.modFacet_pending ..)
  · split
    · exact State.setFacet_pending ..
    · rfl

@[simp] theorem State.loadTile_pending (s : State) (n k t : Nat) (all : Bool) : (s.loadTile n k t all).pending = s.pending := by
  simp only [State.loadTile]
  split
  · split
    · rfl
    · exact State.modTile_pending ..
  · exact State.setTile_pending ..

@[simp] theorem State.loadUnits_pending (s : State) (fs ts : List Nat) (k t : Nat) (all : Bool) :
    (s.loadUnits fs ts k t all).pending = s.pending := by
  unfold State.loadUnits
  rw [foldl_keeps State.pending _ (fun _ _ => by simp), foldl_keeps State.pending _ (fun _ _ => by simp)]

@[simp] theorem State.loadArmed_pending (s : State) (a : Armed) (k : Nat) : (s.loadArmed a k).pending = s.pending :=
  State.loadUnits_pending ..

@[simp] theorem State.selfArm_pending (s : State) (p : Nat) (e : Entry) (law : Law) (new : Graph) (number : Nat) (sinks : List SinkChg) :
    (s.selfArm p e law new number sinks).pending = s.pending :=
  foldl_keeps State.pending _ (fun _ _ => by simp) _ _

@[simp] theorem State.removeGraph_pending (s : State) (p : Nat) (e : Entry) : (s.removeGraph p e).pending = s.pending := by
  simp only [State.removeGraph]
  split
  · split <;> simp
  · simp

@[simp] theorem State.cleanup_pending (s : State) : s.cleanup.pending = s.pending := by
  refine foldl_keeps State.pending _ (fun t x => ?_) _ _
  split <;> simp

@[simp] theorem State.dropGraph_pending (s : State) (p : Nat) (e : Entry) : (s.dropGraph p e).pending = s.pending := by
  simp [State.dropGraph]

@[simp] theorem State.resetPart_pending (s : State) (p : Nat) (e : Entry) : (s.resetPart p e).pending = s.pending := by
  simp [State.resetPart]

@[simp] theorem State.claimStart_pending (s : State) (r : Nat) : (s.claimStart r).pending = s.pending :=
  (State.withHost_pending _ _).trans (State.take_pending s 1)

@[simp] theorem State.claimSubmit_pending (s : State) (r : Nat) : (s.claimSubmit r).pending = s.pending := State.withHost_pending _ _

@[simp] theorem State.enrol_pending (s : State) (r : Nat) : (s.enrol r).pending = s.pending := State.withHost_pending _ _

@[simp] theorem State.claimCtl_pending (s : State) (r : Nat) (v : Word) : (s.claimCtl r v).pending = s.pending := by
  simp [State.claimCtl, apply_ite State.pending]

@[simp] theorem State.doorbell_pending (s : State) (r p kind ring v : Nat) : (s.doorbell r p kind ring v).pending = s.pending := by
  simp only [State.doorbell, apply_ite State.pending, State.withHost_pending, ite_self]
  split
  · exact State.withPower_pending ..
  · rfl

@[simp] theorem State.writePart_pending (s : State) (r p o : Nat) (v : Word) : (s.writePart r p o v).pending = s.pending := by
  simp [State.writePart, apply_ite State.pending]

@[simp] theorem State.writePort_pending (s : State) (r : Nat) (p : Option Nat) (o : Nat) (v : Word) :
    (s.writePort r p o v).pending = s.pending := by
  cases p with
  | none => rfl
  | some p => simp [State.writePort, State.portRestart, State.tdmCommit, apply_ite State.pending]

@[simp] theorem State.afterPtp_pending (s : State) (was : Bool) (es : List Int) (freq : Int) :
    (s.afterPtp was es freq).pending = s.pending := by
  simp [State.afterPtp, apply_ite State.pending]

@[simp] theorem State.afterJoins_pending (s : State) (old : NetSys) : (s.afterJoins old).pending = s.pending := rfl

@[simp] theorem State.netCtl_pending (s : State) (i : Nat) (v : Word) (es : List Int) (freq : Int) :
    (s.netCtl i v es freq).pending = s.pending := by
  simp [State.netCtl]

@[simp] theorem State.ptpCtl_pending (s : State) (v : Word) (es : List Int) (freq : Int) :
    (s.ptpCtl v es freq).pending = s.pending := by
  simp [State.ptpCtl]

@[simp] theorem State.stopDomain_pending (s : State) (k : Nat) : (s.stopDomain k).pending = s.pending := by
  simp [State.stopDomain, apply_ite State.pending]

@[simp] theorem State.startAt_pending (s : State) (k : Nat) (x : Nat × Nat) (t : Nat) : (s.startAt k x t).pending = s.pending := by
  simp only [State.startAt]
  split <;> rfl

@[simp] theorem State.clkRun_pending (s : State) (k : Nat) (on : Bool) : (s.clkRun k on).pending = s.pending := by
  simp [State.clkRun, apply_ite State.pending]

@[simp] theorem State.clkCommand_pending (s : State) (k : Nat) (v : Word) : (s.clkCommand k v).pending = s.pending := by
  simp [State.clkCommand, apply_ite State.pending]

@[simp] theorem State.writeClk_pending (s : State) (r o : Nat) (v : Word) : (s.writeClk r o v).pending = s.pending := by
  simp only [State.writeClk, apply_ite State.pending]
  split
  · exact (State.withClk_pending _ _).trans (by split <;> simp [State.mpllSource])
  · simp

@[simp] theorem State.i2cWrite_pending (s : State) (v : Word) : (s.i2cWrite v).pending = s.pending := by
  simp [State.i2cWrite, apply_ite State.pending]

@[simp] theorem State.writeNet_pending (s : State) (o : Nat) (v : Word) : (s.writeNet o v).pending = s.pending := by
  simp [State.writeNet, apply_ite State.pending]

@[simp] theorem State.writeHlt_pending (s : State) (r o : Nat) (v : Word) : (s.writeHlt r o v).pending = s.pending := by
  simp [State.writeHlt, apply_ite State.pending]

@[simp] theorem State.writePwr_pending (s : State) (r o : Nat) (v : Word) : (s.writePwr r o v).pending = s.pending := by
  simp [State.writePwr, apply_ite State.pending]

@[simp] theorem State.writeXram_pending (s : State) (r o : Nat) (v : Word) : (s.writeXram r o v).pending = s.pending := by
  simp [State.writeXram, apply_ite State.pending]

@[simp] theorem State.rearm_pending (s : State) (mask : Nat) : (s.rearm mask).pending = s.pending :=
  foldl_keeps State.pending _ (fun _ _ => by simp) _ _

@[simp] theorem State.pushTile_pending (s : State) (n : Nat) (v : Word) : (s.pushTile n v).pending = s.pending := rfl

/-- Without implicit definitional proofs: the kernel would compare states with times in microseconds unfolded. -/
@[simp] theorem State.writeWindow_pending (s : State) (r o : Nat) (v : Word) (own : Bool) :
    (s.writeWindow r o v own).pending = s.pending := by
  simp -implicitDefEqProofs [State.writeWindow, State.startCtl, apply_ite State.pending]

@[simp] theorem State.writeReg_pending (s : State) (r o : Nat) (v : Word) : (s.writeReg r o v).pending = s.pending := by
  cases hv : s.host.view r <;> simp -implicitDefEqProofs [State.writeReg, hv, apply_ite State.pending]

/-! ### What a command leaves as it was -/

theorem onlyChanges_settle (s : State) : OnlyChanges [] s s.settle :=
  ⟨rfl, fun p _ => by cases p <;> simp [Piece.same]⟩

/-- A command without effect sends off what the units held, and nothing more. -/
theorem completes_of_settle {i : Instr} {s : State} (h : exec i s = .next s.settle) : Completes i s [] fun _ => True :=
  ⟨s.settle, h, trivial, onlyChanges_settle s⟩

theorem State.unitReports_withHost (s : State) (f : HostSys → HostSys) (hrep : (f s.host).rep = s.host.rep) :
    (s.withHost f).unitReports = s.unitReports := by
  change _ ++ (f s.host).rep.map _ = _
  rw [hrep]
  rfl

/-- An operation of the host block that makes no report changes the host block and the outputs. -/
theorem onlyChanges_withHost (s : State) (f : HostSys → HostSys) (hrep : (f s.host).rep = s.host.rep) :
    OnlyChanges [.host, .out] s (s.withHost f).settle := by
  refine ⟨rfl, fun p hp => ?_⟩
  cases p
  case host | out => simp at hp
  case reports => exact congrArg (s.health.flying ++ ·) (s.unitReports_withHost f hrep)
  case time => exact ⟨rfl, rfl⟩
  all_goals rfl

/-- One that also makes no output changes the host block alone. -/
theorem onlyChanges_withHost_silent (s : State) (f : HostSys → HostSys) (hrep : (f s.host).rep = s.host.rep)
    (houts : (f s.host).outs = s.host.outs) : OnlyChanges [.host] s (s.withHost f).settle := by
  refine ⟨rfl, fun p hp => ?_⟩
  by_cases hout : p = .out
  · subst hout
    exact congrArg (· ++ if s.txOn then s.net.sent.map fun f => Out.netFrame f.1 f.2 else []) houts
  · exact (onlyChanges_withHost s f hrep).2 p (by simp_all)

theorem onlyChanges_withBoot (s : State) (f : Boot → Boot) (hat : (f s.boot).at_ = s.boot.at_) :
    OnlyChanges [.boot] s (s.withBoot f).settle := by
  have htx : (s.withBoot f).txOn = s.txOn := by
    rw [State.txOn, State.withBoot_boot, hat]
    rfl
  refine ⟨rfl, fun p hp => ?_⟩
  cases p
  case boot => simp at hp
  case out => simp [Piece.same, htx]
  case time => exact ⟨rfl, rfl⟩
  all_goals rfl

theorem State.quiet_outs {s : State} (h : s.quiet = true) : s.host.outs = [] ∧ s.net.sent = [] := by
  simp only [State.quiet, Bool.and_eq_true, List.isEmpty_iff] at h
  exact ⟨h.2, h.1.2⟩

/-- In a quiet state a command that sends one output and no frame puts that output alone on the interfaces. -/
theorem State.settle_out_emit {s x : State} (o : Out) (hq : s.quiet = true) (houts : x.host.outs = s.host.outs ++ [o])
    (hsent : x.net.sent = s.net.sent) : x.settle.out = [o] := by
  obtain ⟨hout, hnet⟩ := State.quiet_outs hq
  simp [houts, hout, hsent, hnet]

/-! ### What reads latch (R310, R356, R390, R494) -/

/-- `t` is `s` but for the registers that reads latch. -/
def State.Latched (s t : State) : Prop :=
  ∃ u d p l, t = { s with host := { s.host with uptLat := u }, clk := { s.clk with doms := d }, net := { s.net with ptp := p },
                          links := { s.links with latHi := l } }

theorem State.Latched.refl (s : State) : s.Latched s := ⟨_, _, _, _, rfl⟩

theorem State.Latched.trans {s t u : State} (h : s.Latched t) (h' : t.Latched u) : s.Latched u := by
  obtain ⟨_, _, _, _, rfl⟩ := h
  obtain ⟨_, _, _, _, rfl⟩ := h'
  exact ⟨_, _, _, _, rfl⟩

theorem State.readLatch_latched (s : State) (r o : Nat) : s.Latched (s.readLatch r o) := by
  unfold State.readLatch
  repeat' split
  all_goals exact ⟨_, _, _, _, rfl⟩

theorem State.Latched.onlyChanges {s x : State} (h : s.Latched x) (f : HostSys → HostSys) (hrep : (f x.host).rep = x.host.rep) :
    OnlyChanges [.host, .clk, .net, .links, .out] s (x.withHost f).settle := by
  obtain ⟨_, _, _, _, rfl⟩ := h
  refine ⟨rfl, fun p hp => ?_⟩
  cases p
  case host | clk | net | links | out => simp at hp
  case reports => exact congrArg (s.health.flying ++ ·) (State.unitReports_withHost _ f hrep)
  case time => exact ⟨rfl, rfl⟩
  all_goals rfl

theorem State.Latched.parts_eq {s x : State} (h : s.Latched x) : x.host.parts = s.host.parts := by
  obtain ⟨_, _, _, _, rfl⟩ := h
  rfl

theorem State.Latched.outs_eq {s x : State} (h : s.Latched x) : x.host.outs = s.host.outs := by
  obtain ⟨_, _, _, _, rfl⟩ := h
  rfl

theorem State.Latched.sent_eq {s x : State} (h : s.Latched x) : x.net.sent = s.net.sent := by
  obtain ⟨_, _, _, _, rfl⟩ := h
  rfl

theorem State.Latched.pending_eq {s x : State} (h : s.Latched x) : x.pending = s.pending := by
  obtain ⟨_, _, _, _, rfl⟩ := h
  rfl

theorem State.readLatch_host (s : State) (r o : Nat) (h : o ≠ 0x1C) : (s.readLatch r o).host = s.host := by
  simp [State.readLatch, h, apply_ite State.host]

theorem State.readLatch_clk (s : State) (r o : Nat) (h : o ∉ [0x20050, 0x20070, 0x20090]) : (s.readLatch r o).clk = s.clk := by
  simp only [List.mem_cons, List.not_mem_nil, or_false] at h
  simp [State.readLatch, h, apply_ite State.clk]

theorem State.readLatch_net (s : State) (r o : Nat) (h : o ≠ 0x20420) : (s.readLatch r o).net = s.net := by
  simp [State.readLatch, h, apply_ite State.net]

/-! ### Register writes -/

/-- Register accesses are answered in Run. -/
theorem State.readable_of_writable {s : State} (h : s.writable = true) : s.readable = true := by
  simp only [State.writable, Bool.and_eq_true] at h
  simp [State.readable, h]

theorem exec_registerWrite {s : State} {r o : Nat} {chip : Option Word} {rivals : List (Nat × Word)} (v : Word) (hr : r < 7)
    (ho : o < 2 ^ 20) (hw : rivalsWf r rivals = true) (hs : s.readable = true) :
    exec (.registerWrite r o 4 v chip rivals) s = .next (s.wordWrites o ((r, v) :: rivals) chip).settle :=
  done_on (by simp [Instr.wf, hr, hw]; omega) hs

/-- A write that meets no other is the reader's own, over that of a Setter core. -/
theorem State.wordWrites_single (s : State) (r o : Nat) (v : Word) : s.wordWrites o [(r, v)] none = s.regWrite r o v := by
  simp [State.wordWrites, State.beats]

theorem exec_registerWrite_single {s : State} {r o : Nat} (v : Word) (hr : r < 7) (ho : o < 2 ^ 20) (hs : s.readable = true) :
    exec (.registerWrite r o 4 v none []) s = .next (s.regWrite r o v).settle := by
  rw [exec_registerWrite v hr ho rfl hs, State.wordWrites_single]

/-- Only a host's write of a doorbell wakes (R467). -/
theorem State.regWrite_of_no_bell (s : State) {r o : Nat} (v : Word) (h : 4 ≤ r ∨ isDoorbell o = false) :
    s.regWrite r o v = if s.writable then s.writeReg r o v else s := by
  have hbell : (if isDoorbell o then s.bellWake r else s) = s := by
    rcases h with h | h
    · have : ¬ r < 4 := by omega
      simp [State.bellWake, this]
    · simp [h]
  simp [State.regWrite, hbell]

theorem State.regWrite_of_writable {s : State} {r o : Nat} (v : Word) (h : 4 ≤ r ∨ isDoorbell o = false) (hw : s.writable = true) :
    s.regWrite r o v = s.writeReg r o v := by
  rw [s.regWrite_of_no_bell v h, if_pos hw]

theorem isDoorbell_iff (o : Nat) : isDoorbell o = true ↔ 0x10100 ≤ o ∧ o < 0x10180 ∧ o % 16 = 12 := by
  simp [isDoorbell, and_assoc]

theorem isDoorbell_eq_false (o : Nat) : isDoorbell o = false ↔ ¬ (0x10100 ≤ o ∧ o < 0x10180 ∧ o % 16 = 12) := by
  rw [← isDoorbell_iff, Bool.not_eq_true]

theorem ite_eq_of {α : Type} {c : Prop} [Decidable c] {a b x : α} (ha : c → a = x) (hb : ¬ c → b = x) : (if c then a else b) = x := by
  split
  · exact ha ‹_›
  · exact hb ‹_›

/-- Misaligned offsets, and those at which the register map has nothing (R9, R489). -/
def RegHole (o : Nat) : Prop :=
  o % 4 ≠ 0 ∨ (0x1000 ≤ o ∧ o < 0x10000) ∨ (0x10C00 ≤ o ∧ o < 0x11000) ∨ (0x11400 ≤ o ∧ o < 0x20000) ∨ 0x4A000 ≤ o

theorem RegHole.not_doorbell {o : Nat} (h : RegHole o) : isDoorbell o = false := by
  rw [isDoorbell_eq_false]
  unfold RegHole at h
  omega

theorem State.writeReg_hole (s : State) (r o : Nat) (v : Word) (h : RegHole o) : s.writeReg r o v = s := by
  unfold RegHole at h
  unfold State.writeReg
  refine ite_eq_of (fun _ => rfl) fun h4 => ite_eq_of (fun _ => rfl) fun _ => ?_
  have hglb : ¬ o < 0x1000 := by omega
  rw [if_neg hglb]
  refine ite_eq_of (fun _ => rfl) fun h10000 => ?_
  have hprt : ¬ o < 0x10C00 := by omega
  rw [if_neg hprt]
  refine ite_eq_of (fun _ => rfl) fun h11000 => ?_
  have hmsix : ¬ o < 0x11400 := by omega
  rw [if_neg hmsix]
  refine ite_eq_of (fun _ => rfl) fun h20000 => if_neg ?_
  omega

/-- The registers of the global block and the windows are there for the Setter and for every reader with a view. -/
theorem State.not_hidden {s : State} {r : Nat} (h : r = 6 ∨ s.host.view r ≠ none) : ¬ (r ≠ 6 ∧ (s.host.view r).isNone = true) := by
  rw [Option.isNone_iff_eq_none]
  exact fun ⟨hset, hview⟩ => h.elim hset fun hsome => hsome hview

theorem State.writeReg_window {s : State} {r o : Nat} (v : Word) (h4 : o % 4 = 0) (hr : r = 6 ∨ s.host.view r ≠ none)
    (hlo : 0x20000 ≤ o) (hhi : o < 0x4A000) : s.writeReg r o v = s.writeWindow r o v (s.owns r) := by
  rw [State.writeReg, if_neg (by omega), if_neg (State.not_hidden hr), if_neg (by omega), if_neg (by omega), if_neg (by omega),
    if_neg (by omega), if_neg (by omega), if_neg (by omega), if_pos hhi]

theorem State.writeReg_unmapped (s : State) (r o : Nat) (v : Word) (hr : r ≠ 6) (h : s.host.view r = none) : s.writeReg r o v = s := by
  simp [State.writeReg, hr, h]

theorem LinkSys.writeReg_other (l : LinkSys) (r o : Nat) (v : Word) (h : o ≠ 0) : l.writeReg r o v = l := by
  simp [LinkSys.writeReg, h]

theorem Boot.writeReg_other (b : Boot) (r o : Nat) (v : Word) (hr : r ≠ 6) (h : o ≠ 0x30) : b.writeReg r o v = b := by
  simp [Boot.writeReg, hr, h]

theorem Health.writeReg_other (h : Health) (r o : Nat) (v : Word) (h8 : o ≠ 8) (h18 : o ≠ 0x18) : h.writeReg r o v false = h := by
  simp [Health.writeReg, h8, h18]

/-- R490: of the status windows a reader that does not hold P0 writes its own selectors alone. -/
theorem State.writeWindow_not_own (s : State) (r o : Nat) (v : Word) (hr : r < 6)
    (hsel : o ∉ [0x23000, 0x25030, 0x25C08, 0x25C18]) (hown : s.owns r = false) : s.writeWindow r o v false = s := by
  simp only [List.mem_cons, List.not_mem_nil, or_false, not_or] at hsel
  have hset : (r == 6) = false := by simp; omega
  have hlinks (hlo : 0x23000 ≤ o) : (s.withLinks fun l => l.writeReg r (o - 0x23000) v) = s := by
    simp only [State.withLinks, s.links.writeReg_other r (o - 0x23000) v (by omega)]
  have hboot (hlo : 0x25000 ≤ o) : (s.withBoot fun b => b.writeReg r (o - 0x25000) v) = s := by
    simp only [State.withBoot, s.boot.writeReg_other r (o - 0x25000) v (by omega) (by omega)]
  have hhlt (hlo : 0x25C00 ≤ o) : s.writeHlt r (o - 0x25C00) v = s := by
    simp [State.writeHlt, State.withHealth, hown, s.health.writeReg_other r (o - 0x25C00) v (by omega) (by omega)]
  simp only [State.writeWindow, hset, Bool.false_eq_true, Bool.not_false, if_true, if_false]
  repeat' with_reducible refine ite_eq_of (fun _ => ?_) (fun _ => ?_)
  any_goals with_reducible rfl
  · exact hlinks (by omega)
  · exact hboot (by omega)
  · exact hhlt (by omega)

/-! ### Writes and reads without effect -/

/-- What the register space discards (R9, R461, R489, R490): writes that reach nothing, those in Standby, those of a window that only
P0's holder writes. -/
def State.Discards (s : State) (r off : Nat) : Prop :=
  off % 4 ≠ 0 ∨ (0x1000 ≤ off ∧ off < 0x10000) ∨ (0x10C00 ≤ off ∧ off < 0x11000) ∨ (0x11400 ≤ off ∧ off < 0x20000) ∨ 0x4A000 ≤ off ∨
    (4 ≤ r ∧ r < 6 ∧ s.host.view r = none) ∨ (s.awake = false ∧ ¬ (r < 4 ∧ 0x10100 ≤ off ∧ off < 0x10180)) ∨
    (r < 6 ∧ s.owns r = false ∧ 0x20000 ≤ off ∧ off < 0x4A000 ∧ off ∉ [0x23000, 0x25030, 0x25C08, 0x25C18])

theorem State.regWrite_discarded (s : State) (r off : Nat) (v : Word) (h : s.Discards r off) :
    s.regWrite r off v = s := by
  have hhole (h : RegHole off) : s.regWrite r off v = s := by
    rw [s.regWrite_of_no_bell v (.inr h.not_doorbell), s.writeReg_hole r off v h, ite_self]
  rcases h with h | h | h | h | h | ⟨hr, hr6, hview⟩ | ⟨hsleep, hbell⟩ | ⟨hr, hown, hlo, hhi, hsel⟩
  · exact hhole (.inl h)
  · exact hhole (.inr (.inl h))
  · exact hhole (.inr (.inr (.inl h)))
  · exact hhole (.inr (.inr (.inr (.inl h))))
  · exact hhole (.inr (.inr (.inr (.inr h))))
  · rw [s.regWrite_of_no_bell v (.inl hr), s.writeReg_unmapped r off v (by omega) hview, ite_self]
  · have hno : 4 ≤ r ∨ isDoorbell off = false := by
      rw [isDoorbell_eq_false]
      omega
    have hw : ¬ s.writable = true := by simp [State.writable, hsleep]
    rw [s.regWrite_of_no_bell v hno, if_neg hw]
  · have hwin : s.writeReg r off v = s := by
      by_cases h4 : off % 4 = 0
      · by_cases hview : s.host.view r = none
        · exact s.writeReg_unmapped r off v (by omega) hview
        · rw [State.writeReg_window v h4 (.inr hview) hlo hhi, hown, s.writeWindow_not_own r off v hr hsel hown]
      · exact s.writeReg_hole r off v (.inl h4)
    rw [s.regWrite_of_no_bell v (.inr ((isDoorbell_eq_false off).2 (by omega))), hwin, ite_self]

theorem completes_discarded_write (s : State) (r off : Nat) (v : Word) (hr : r < 7) (ho : off < 2 ^ 20) (hs : s.readable = true)
    (h : s.Discards r off) : Completes (.registerWrite r off 4 v none []) s [] fun _ => True :=
  completes_of_settle (by rw [exec_registerWrite_single v hr ho hs, s.regWrite_discarded r off v h])

theorem completes_narrow_write (s : State) (r off n : Nat) (v : Word) (hr : r < 7) (ho : off < 2 ^ 20) (hs : s.readable = true)
    (h1 : 1 ≤ n) (h4 : n < 4) : Completes (.registerWrite r off n v none []) s [] fun _ => True := by
  have hn : n ≠ 4 := by omega
  have hexec : exec (.registerWrite r off n v none []) s = .next (s.wordWrites off ((if n = 4 then [(r, v)] else []) ++ []) none).settle :=
    done_on (by simp [Instr.wf, rivalsWf, hr, h1]; omega) hs
  exact completes_of_settle (by rw [hexec, if_neg hn]; rfl)

theorem exec_read {s : State} {r off n : Nat} (hr : r < 7) (ho : off < 2 ^ 20) (hs : s.readable = true) (h1 : 1 ≤ n) (h4 : n ≤ 4) :
    exec (.latchingRegisterRead r off n) s = .next (if n = 4 then s.regRead r off else s.emit (.reg r off 0)).settle :=
  done_on (by simp [Instr.wf, hr, h1, h4]; omega) hs

theorem completes_narrow_read (s : State) (r off n : Nat) (hr : r < 7) (ho : off < 2 ^ 20) (hs : s.readable = true)
    (h1 : 1 ≤ n) (h4 : n < 4) :
    Completes (.latchingRegisterRead r off n) s [.out] fun t => s.quiet = true → t.out = [.reg r off 0] := by
  have hn : n ≠ 4 := by omega
  refine ⟨(s.emit (.reg r off 0)).settle, by rw [exec_read hr ho hs h1 (by omega), if_neg hn],
    fun hq => State.settle_out_emit _ hq rfl rfl, rfl, fun p hp => ?_⟩
  by_cases hhost : p = .host
  · subst hhost
    rfl
  · exact (onlyChanges_withHost s (·.emit (.reg r off 0)) rfl).2 p (by simp_all)

/-! ### Writes of the host block -/

/-- The state with `m` as GLB_SCRATCH. -/
def State.withScratch (s : State) (m : Memory Word) : State := s.withHost fun h => { h with scratch := m }

theorem State.writeReg_scratch (s : State) (r k : Nat) (v : Word) (hk : k < 4) (hr : r = 6 ∨ s.host.view r ≠ none) :
    s.writeReg r (0x30 + 4 * k) v =
      if s.owns r then s.withScratch (Memory.set zeroW s.host.scratch k v) else s := by
  have hvis := State.not_hidden hr
  have h4 : ¬ (0x30 + 4 * k) % 4 ≠ 0 := by omega
  have hglb : 0x30 + 4 * k < 0x1000 := by omega
  have hidx : (0x30 + 4 * k - 0x30) / 4 = k := by omega
  have hin : 0x30 ≤ 0x30 + 4 * k ∧ 0x30 + 4 * k < 0x40 := by omega
  simp only [State.writeReg, if_neg h4, if_neg hvis, if_pos hglb, hidx, hin, and_true]
  rfl

theorem State.readReg_scratch (s : State) (k : Nat) (hk : k < 4) : s.readReg 6 (0x30 + 4 * k) = Memory.get zeroW s.host.scratch k := by
  obtain rfl | rfl | rfl | rfl : k = 0 ∨ k = 1 ∨ k = 2 ∨ k = 3 := by omega
  all_goals rfl

theorem State.regWrite_scratch (s : State) (r k : Nat) (v : Word) (hk : k < 4) (hw : s.writable = true)
    (hr : r = 6 ∨ s.host.view r ≠ none) :
    s.regWrite r (0x30 + 4 * k) v =
      if s.owns r then s.withScratch (Memory.set zeroW s.host.scratch k v) else s := by
  rw [s.regWrite_of_writable v (.inr ((isDoorbell_eq_false _).2 (by omega))) hw, s.writeReg_scratch r k v hk hr]

/-- R10, R494: GLB_SCRATCHk after the writes of one cycle: the Setter core's value lies under the host's. -/
theorem State.wordWrites_scratch (s : State) (r k : Nat) (v : Word) (chip : Option Word) (hk : k < 4)
    (hwf : Memory.wf zeroW s.host.scratch = true) (hw : s.writable = true) (hs2 : s.s2Runs = true) (hr : r = 6 ∨ s.host.view r ≠ none) :
    ∃ m, s.wordWrites (0x30 + 4 * k) [(r, v)] chip = s.withScratch m ∧
      Memory.get zeroW m k = (if s.owns r then v else chip.getD (Memory.get zeroW s.host.scratch k)) ∧
      ∀ j, j ≠ k → Memory.get zeroW m j = Memory.get zeroW s.host.scratch j := by
  have hawake : s.awake = true := by
    simp only [State.writable, Bool.and_eq_true] at hw
    exact hw.2
  have hcore (u : Word) : s.writeReg 6 (0x30 + 4 * k) u = s.withScratch (Memory.set zeroW s.host.scratch k u) := by
    rw [s.writeReg_scratch 6 k u hk (.inl rfl)]
    rfl
  cases chip with
  | none =>
    rw [State.wordWrites_single, s.regWrite_scratch r k v hk hw hr]
    split
    · exact ⟨_, rfl, Memory.get_set_same zeroW _ k v hwf, fun j hj => Memory.get_set_other zeroW _ k j v hj⟩
    · exact ⟨_, rfl, rfl, fun _ _ => rfl⟩
  | some u =>
    have hunder : s.wordWrites (0x30 + 4 * k) [(r, v)] (some u) =
        (s.withScratch (Memory.set zeroW s.host.scratch k u)).regWrite r (0x30 + 4 * k) v := by
      rw [← hcore u, ← State.wordWrites_single]
      simp [State.wordWrites, hawake, hs2]
    have hover := (s.withScratch (Memory.set zeroW s.host.scratch k u)).regWrite_scratch r k v hk hw hr
    have howns : (s.withScratch (Memory.set zeroW s.host.scratch k u)).owns r = s.owns r := rfl
    rw [hunder, hover, howns]
    split
    · refine ⟨_, rfl, Memory.get_set_same zeroW _ k v (Memory.wf_set zeroW _ k u hwf), fun j hj => ?_⟩
      exact (Memory.get_set_other zeroW _ k j v hj).trans (Memory.get_set_other zeroW _ k j u hj)
    · exact ⟨_, rfl, Memory.get_set_same zeroW _ k u hwf, fun j hj => Memory.get_set_other zeroW _ k j u hj⟩

theorem completes_scratch_write (s : State) (r k : Nat) (v : Word) (chip : Option Word) (hwf : Memory.wf zeroW s.host.scratch = true)
    (hr7 : r < 7) (hk : k < 4) (hw : s.writable = true) (hs2 : s.s2Runs = true) (hr : r = 6 ∨ s.host.view r ≠ none) :
    Completes (.registerWrite r (0x30 + 4 * k) 4 v chip []) s [.host] fun t => t.host.parts = s.host.parts ∧ t.host.pol = s.host.pol ∧
      t.readReg 6 (0x30 + 4 * k) = (if s.owns r then v else chip.getD (s.readReg 6 (0x30 + 4 * k))) ∧
      ∀ j, j < 4 → j ≠ k → t.readReg 6 (0x30 + 4 * j) = s.readReg 6 (0x30 + 4 * j) := by
  obtain ⟨m, hm, hsame, hother⟩ := s.wordWrites_scratch r k v chip hk hwf hw hs2 hr
  refine ⟨(s.withScratch m).settle, ?_, ⟨rfl, rfl, ?_, fun j hj hne => ?_⟩,
    onlyChanges_withHost_silent s _ rfl rfl⟩
  · rw [exec_registerWrite v hr7 (by omega) rfl (State.readable_of_writable hw), hm]
  · rw [State.readReg_scratch _ k hk, State.readReg_scratch _ k hk]
    exact hsame
  · rw [State.readReg_scratch _ j hj, State.readReg_scratch _ j hj]
    exact hother j hne

/-! ### The partition block -/

theorem State.unitsWf_parts {s : State} (h : s.unitsWf = true) : Memory.wf (fun _ => Part.reset) s.host.parts = true := by
  simp only [State.unitsWf, Bool.and_eq_true] at h
  exact h.1.2

theorem HostSys.part_modPart_same (h : HostSys) (p : Nat) (f : Part → Part) (hwf : Memory.wf (fun _ => Part.reset) h.parts = true) :
    (h.modPart p f).part p = f (h.part p) :=
  Memory.get_set_same _ _ _ _ hwf

theorem HostSys.part_modPart_other (h : HostSys) {p q : Nat} (f : Part → Part) (hq : q ≠ p) : (h.modPart p f).part q = h.part q :=
  Memory.get_set_other _ _ _ _ _ hq

theorem State.writeReg_partBlock {s : State} {r p o : Nat} (v : Word) (hr : r < 6) (hview : s.host.view r = some p) (h4 : o % 4 = 0)
    (hlo : 0x10000 ≤ o) (hhi : o < 0x10C00) : s.writeReg r o v = s.writePart r p (o - 0x10000) v := by
  have hvis : ¬ (r ≠ 6 ∧ (s.host.view r).isNone = true) := by simp [hview]
  rw [State.writeReg, if_neg (by omega), if_neg hvis, if_neg (by omega), if_neg (by omega), if_pos hhi]
  simp only [hview, if_neg (show r ≠ 6 by omega)]

/-- An operation on the partition that reader `r` sees changes the host block, and there that partition, alone. -/
theorem completes_modPart {i : Instr} {s : State} {p : Nat} (f : Part → Part) (hwf : s.unitsWf = true)
    (hexec : exec i s = .next (s.withHost fun h => h.modPart p f).settle) :
    Completes i s [.host] fun t => t.host.part p = f (s.host.part p) ∧ (∀ q, q ≠ p → t.host.part q = s.host.part q) ∧
      t.host.pol = s.host.pol :=
  ⟨_, hexec, ⟨s.host.part_modPart_same p f (State.unitsWf_parts hwf), fun _ hq => s.host.part_modPart_other f hq, rfl⟩,
    onlyChanges_withHost_silent s _ rfl rfl⟩

theorem completes_irqStat_write (s : State) (r p : Nat) (v : Word) (hwf : s.unitsWf = true) (hr : r < 6) (hw : s.writable = true)
    (hview : s.host.view r = some p) (hholds : s.host.holds r = true) :
    Completes (.registerWrite r 0x10080 4 v none []) s [.host] fun t =>
      t.host.part p = { s.host.part p with irqStat := (s.host.part p).irqStat &&& ~~~v } ∧ (∀ q, q ≠ p → t.host.part q = s.host.part q) ∧
        t.host.pol = s.host.pol := by
  refine completes_modPart (fun q => { q with irqStat := q.irqStat &&& ~~~v }) hwf ?_
  rw [exec_registerWrite_single v (by omega) (by omega) (State.readable_of_writable hw), State.regWrite_of_writable v (.inr rfl) hw,
    State.writeReg_partBlock v hr hview rfl (by omega) (by omega)]
  simp [State.writePart, hholds, Part.writePlain]

/-- R397: a write of PRT_CLAIM_MACk is open to every interface. -/
theorem State.regWrite_claimMac {s : State} {q p k : Nat} (u : Word) (hk : k < 8) (hq : q < 6) (hw : s.writable = true)
    (hview : s.host.view q = some p) :
    s.regWrite q (0x10040 + 4 * k) u = s.withHost fun h => h.modPart p fun x => x.writeMac k u := by
  have hmac : 0x40 ≤ 0x10040 + 4 * k - 0x10000 ∧ 0x10040 + 4 * k - 0x10000 < 0x60 := by omega
  have hidx : (0x10040 + 4 * k - 0x10000 - 0x40) / 4 = k := by omega
  rw [State.regWrite_of_writable u (.inr ((isDoorbell_eq_false _).2 (by omega))) hw,
    State.writeReg_partBlock u hq hview (by omega) (by omega) (by omega), State.writePart, if_neg (by omega), if_pos hmac, hidx]

/-- R499: of two writes of one claim register in one cycle that of the interface first in rank is kept. -/
theorem State.wordWrites_race {s : State} {o q r : Nat} (u v : Word) (ho : isClaimReg o = true) (hview : s.host.view q = s.host.view r)
    (hrank : ifaceRank q < ifaceRank r) :
    s.wordWrites o [(q, u), (r, v)] none = s.regWrite q o u ∧ s.wordWrites o [(r, v), (q, u)] none = s.regWrite q o u := by
  have hqr : s.beats o q r = true := by simp [State.beats, ho, hview, hrank]
  have hrq : s.beats o r q = false := by simp [State.beats]; omega
  have hself (x : Nat) : s.beats o x x = false := by simp [State.beats]
  simp [State.wordWrites, hqr, hrq, hself]

theorem completes_claimMac_race (s : State) (p k q r : Nat) (u v : Word) (hwf : s.unitsWf = true) (hk : k < 8) (hq : q < 6) (hr : r < 6)
    (hrank : (q = 4 ∧ r ≠ 4) ∨ (q = 5 ∧ r < 4)) (hw : s.writable = true) (hvq : s.host.view q = some p) (hvr : s.host.view r = some p) :
    ∀ i ∈ [Instr.registerWrite q (0x10040 + 4 * k) 4 u none [(r, v)], .registerWrite r (0x10040 + 4 * k) 4 v none [(q, u)]],
      Completes i s [.host] fun t => t.host.part p = (s.host.part p).writeMac k u ∧ ∀ j, j ≠ p → t.host.part j = s.host.part j := by
  have hlt : ifaceRank q < ifaceRank r := by
    unfold ifaceRank
    repeat' split
    all_goals omega
  have hclaim : isClaimReg (0x10040 + 4 * k) = true := by simp [isClaimReg]; omega
  obtain ⟨hfirst, hsecond⟩ := State.wordWrites_race u v hclaim (hvq.trans hvr.symm) hlt
  have hs := State.readable_of_writable hw
  have hexec : ∀ i ∈ [Instr.registerWrite q (0x10040 + 4 * k) 4 u none [(r, v)], .registerWrite r (0x10040 + 4 * k) 4 v none [(q, u)]],
      exec i s = .next (s.withHost fun h => h.modPart p fun x => x.writeMac k u).settle := by
    simp only [List.forall_mem_cons, List.not_mem_nil, false_imp_iff, implies_true, and_true]
    rw [← State.regWrite_claimMac u hk hq hw hvq]
    constructor
    · rw [exec_registerWrite u (by omega) (by omega) (by simp [rivalsWf, hq, hr]; omega) hs, hfirst]
    · rw [exec_registerWrite v (by omega) (by omega) (by simp [rivalsWf, hq, hr]; omega) hs, hsecond]
  intro i hi
  obtain ⟨t, ht, ⟨hpart, hother, -⟩, hframe⟩ := completes_modPart (fun x => x.writeMac k u) hwf (hexec i hi)
  exact ⟨t, ht, ⟨hpart, hother⟩, hframe⟩

/-! ### SEC_TAMPER -/

theorem testBit_seven_sub (x i : Nat) (hx : x < 8) (hi : i < 3) : (7 - x).testBit i = !x.testBit i := by
  have h : ∀ x < 8, ∀ i < 3, (7 - x).testBit i = !x.testBit i := by decide
  exact h x hx i hi

/-- R10: a bit of LAST stays unless it is written 1. -/
theorem Boot.writeSec_lastTamper (b : Boot) (v : Word) (i : Nat) (hi : i < 3) :
    (b.writeSec 8 v).lastTamper.testBit i = (b.lastTamper.testBit i && !v.toNat.testBit i) := by
  change (b.lastTamper &&& (7 - v.toNat >>> 0 % 2 ^ 3)).testBit i = _
  rw [Nat.testBit_and, testBit_seven_sub (v.toNat >>> 0 % 2 ^ 3) i (Nat.mod_lt _ (by decide)) hi, Nat.testBit_mod_two_pow, Nat.shiftRight_zero]
  simp [hi]

theorem completes_tamper_write (s : State) (r : Nat) (v : Word) (hr7 : r < 7) (hc : s.commands r = true)
    (hr : r = 6 ∨ s.host.view r ≠ none) :
    Completes (.registerWrite r 0x25408 4 v none []) s [.boot] fun t => { t.boot with lastTamper := 0 } = { s.boot with lastTamper := 0 } ∧
      ∀ i, i < 3 → t.boot.lastTamper.testBit i = (s.boot.lastTamper.testBit i && !v.toNat.testBit i) := by
  simp only [State.commands, Bool.and_eq_true] at hc
  obtain ⟨hw, hown⟩ := hc
  have hreg : s.writeReg r 0x25408 v = s.withBoot fun b => b.writeSec 8 v := by
    rw [State.writeReg_window v rfl hr (by omega) (by omega), hown]
    simp [State.writeWindow]
  refine ⟨(s.withBoot fun b => b.writeSec 8 v).settle, ?_, ⟨rfl, s.boot.writeSec_lastTamper v⟩, onlyChanges_withBoot s _ rfl⟩
  rw [exec_registerWrite_single v hr7 (by omega) (State.readable_of_writable hw), State.regWrite_of_writable v (.inr rfl) hw, hreg]

/-! ### Reads -/

theorem exec_registerRead {s : State} {r off : Nat} (hr : r < 7) (ho : off < 2 ^ 20) (hs : s.readable = true) :
    exec (.latchingRegisterRead r off 4) s = .next (s.regRead r off).settle := by
  rw [exec_read hr ho hs (by omega) (Nat.le_refl 4), if_pos rfl]

theorem completes_read (s : State) (r off : Nat) (hr : r < 7) (ho : off < 2 ^ 20) (hs : s.readable = true) (hq : s.quiet = true) :
    Completes (.latchingRegisterRead r off 4) s [.host, .clk, .net, .links, .out] fun t => t.out = [.reg r off (s.readReg r off)] ∧
      t.host.parts = s.host.parts ∧ (off ≠ 0x1C → t.host.uptLat = s.host.uptLat) ∧
      (off ∉ [0x20050, 0x20070, 0x20090] → t.clk.doms = s.clk.doms) ∧ (off ≠ 0x20420 → t.net.ptp = s.net.ptp) := by
  have hlat := s.readLatch_latched r off
  refine ⟨(s.regRead r off).settle, exec_registerRead hr ho hs, ⟨?_, hlat.parts_eq, fun h => ?_, fun h => ?_, fun h => ?_⟩,
    hlat.onlyChanges (·.emit (.reg r off (s.readReg r off))) rfl⟩
  · exact State.settle_out_emit _ hq (congrArg (· ++ _) hlat.outs_eq) hlat.sent_eq
  · exact congrArg (·.uptLat) (s.readLatch_host r off h)
  · exact congrArg (·.doms) (s.readLatch_clk r off h)
  · exact congrArg (·.ptp) (s.readLatch_net r off h)

theorem State.readReg_unmapped (s : State) (r o : Nat) (hr : r ≠ 6) (h : s.host.view r = none) : s.readReg r o = 0 := by
  simp [State.readReg, hr, h]

theorem State.readReg_uptimeHi (s : State) (r : Nat) (hr : r = 6 ∨ s.host.view r ≠ none) :
    s.readReg r 0x20 = BitVec.ofNat 32 (Memory.get (fun _ => 0) s.host.uptLat r) := by
  rw [State.readReg, if_neg (by decide), if_neg (State.not_hidden hr)]
  rfl

theorem State.readReg_uptimeLo (s : State) (r : Nat) (hr : r = 6 ∨ s.host.view r ≠ none) : s.readReg r 0x1C = BitVec.ofNat 32 s.us := by
  rw [State.readReg, if_neg (by decide), if_neg (State.not_hidden hr)]
  rfl

/-- R494: a read of GLB_UPTIME_LO latches the high word for its reader. -/
theorem State.readLatch_uptime (s : State) (r : Nat) (hr : r = 6 ∨ s.host.view r ≠ none) :
    s.readLatch r 0x1C = s.withHost fun h => { h with uptLat := Memory.set (fun _ => 0) h.uptLat r (s.us / 2 ^ 32) } := by
  rw [State.readLatch, if_neg (State.not_hidden hr), if_pos rfl]

theorem completes_uptime_read (s : State) (r : Nat) (hwf : Memory.wf (fun _ => 0) s.host.uptLat = true) (hr7 : r < 7)
    (hs : s.readable = true) (hr : r = 6 ∨ s.host.view r ≠ none) :
    Completes (.latchingRegisterRead r 0x1C 4) s [.host, .out] fun t => s.readReg r 0x1C = BitVec.ofNat 32 s.us ∧
      t.readReg r 0x20 = BitVec.ofNat 32 (s.us / 2 ^ 32) ∧ ∀ q, q ≠ r → t.readReg q 0x20 = s.readReg q 0x20 := by
  have hread : s.regRead r 0x1C = s.withHost fun h =>
      { h with uptLat := Memory.set (fun _ => 0) h.uptLat r (s.us / 2 ^ 32) }.emit (.reg r 0x1C (s.readReg r 0x1C)) := by
    rw [State.regRead, s.readLatch_uptime r hr]
    rfl
  refine ⟨(s.regRead r 0x1C).settle, exec_registerRead hr7 (by omega) hs, ?_, hread ▸ onlyChanges_withHost s _ rfl⟩
  rw [hread]
  refine ⟨s.readReg_uptimeLo r hr, ?_, fun q hq => ?_⟩
  · exact (State.readReg_uptimeHi _ r (by exact hr)).trans (congrArg _ (Memory.get_set_same _ _ _ _ hwf))
  · by_cases hvis : q = 6 ∨ s.host.view q ≠ none
    · rw [s.readReg_uptimeHi q hvis]
      exact (State.readReg_uptimeHi _ q (by exact hvis)).trans (congrArg _ (Memory.get_set_other _ _ _ _ _ hq))
    · obtain ⟨hset, hsome⟩ := not_or.1 hvis
      have hview : s.host.view q = none := Classical.not_not.1 hsome
      rw [s.readReg_unmapped q 0x20 hset hview]
      exact State.readReg_unmapped _ q 0x20 hset hview

/-! ### The end of an SPI frame (R495, R498) -/

/-- The host block once target `g` has returned the words `ws`, drives BUSY or not, and holds the flags of its next status word. -/
def HostSys.spiAnswer (h : HostSys) (g bits : Nat) (bad busy : Bool) (ws : List Word) : HostSys :=
  let x : SpiTgt := { h.spi g with err := bad, conflict := busy || (bits < 32 && (h.spi g).conflict) }
  { h with outs := h.outs ++ .spi g ws :: if busy then [.busy g] else []
           spi0 := if g = 0 then x else h.spi0
           spi1 := if g = 0 then h.spi1 else x }

theorem State.emit_spiEnd (s : State) (g bits : Nat) (bad busy : Bool) (ws : List Word) :
    (s.emit (.spi g ws)).spiEnd g bits bad busy = s.withHost fun h => h.spiAnswer g bits bad busy ws := by
  by_cases hg : g = 0 <;> cases busy <;>
    simp [State.emit, State.spiEnd, State.withHost, HostSys.spiAnswer, HostSys.emit, HostSys.setSpi, HostSys.spi, hg]

@[simp] theorem HostSys.spiAnswer_parts (h : HostSys) (g bits : Nat) (bad busy : Bool) (ws : List Word) :
    (h.spiAnswer g bits bad busy ws).parts = h.parts := rfl
@[simp] theorem HostSys.spiAnswer_scratch (h : HostSys) (g bits : Nat) (bad busy : Bool) (ws : List Word) :
    (h.spiAnswer g bits bad busy ws).scratch = h.scratch := rfl
@[simp] theorem HostSys.spiAnswer_rep (h : HostSys) (g bits : Nat) (bad busy : Bool) (ws : List Word) :
    (h.spiAnswer g bits bad busy ws).rep = h.rep := rfl
@[simp] theorem HostSys.spiAnswer_outs (h : HostSys) (g bits : Nat) (bad busy : Bool) (ws : List Word) :
    (h.spiAnswer g bits bad busy ws).outs = h.outs ++ .spi g ws :: if busy then [.busy g] else [] := rfl

@[simp] theorem HostSys.spiAnswer_spi_same (h : HostSys) (g bits : Nat) (bad busy : Bool) (ws : List Word) :
    (h.spiAnswer g bits bad busy ws).spi g = { h.spi g with err := bad, conflict := busy || (bits < 32 && (h.spi g).conflict) } := by
  by_cases hg : g = 0 <;> simp [HostSys.spiAnswer, HostSys.spi, hg]

theorem HostSys.spiAnswer_spi_other (h : HostSys) {g : Nat} (bits : Nat) (bad busy : Bool) (ws : List Word) (hg : g < 2) :
    (h.spiAnswer g bits bad busy ws).spi (1 - g) = h.spi (1 - g) := by
  obtain rfl | rfl : g = 0 ∨ g = 1 := by omega
  all_goals rfl

/-- What a target returns reaches its interface. -/
theorem State.spi_mem_out (s : State) (g bits : Nat) (bad busy : Bool) (ws : List Word) :
    .spi g ws ∈ (s.withHost fun h => h.spiAnswer g bits bad busy ws).settle.out := by
  simp

/-- The flags that target `g` then holds for its next status word. -/
theorem State.spi_flags (s : State) (g bits : Nat) (bad busy : Bool) (ws : List Word) :
    (s.withHost fun h => h.spiAnswer g bits bad busy ws).settle.host.spi g =
      { s.host.spi g with err := bad, conflict := busy || (bits < 32 && (s.host.spi g).conflict) } :=
  s.host.spiAnswer_spi_same g bits bad busy ws

theorem spiBad_iff (cmd bits : Nat) :
    spiBad cmd bits = true ↔
      bits < 32 ∨ (cmd / 2 ^ 20) % 2 ^ 9 ≠ 0 ∨ cmd % 4 ≠ 0 ∨ (cmd.testBit 30 = true ∧ (cmd / 2 ^ 18) % 4 ≠ 0) := by
  simp [spiBad, fld, Nat.shiftRight_eq_div_pow, or_assoc]

theorem exec_spiReadFrame {s : State} {g cmd bits : Nat} (n : Nat) (co : List (Option CoA)) (hg : g < 2) (hcmd : cmd < 2 ^ 32) (hbits : bits ≤ 32)
    (hs : s.served = true) (hp : s.power.phase ≠ .off) (hdir : bits < 32 ∨ cmd.testBit 31 = true) :
    exec (.spiReadFrame g cmd bits n co) s = .next (s.spiReadFrame g cmd bits n co).settle :=
  done_on (by simp [Instr.wf, hg, hbits]; omega) (by simp [State.powered, hs, hp, hdir])

theorem exec_spiWriteFrame {s : State} {g cmd bits : Nat} (ws : List Word) (co : List (Option CoA)) (hg : g < 2) (hcmd : cmd < 2 ^ 32)
    (hbits : bits ≤ 32) (hs : s.served = true) (hp : s.power.phase ≠ .off) (hdir : bits < 32 ∨ cmd.testBit 31 = false) :
    exec (.spiWriteFrame g cmd bits ws co) s = .next (s.spiWriteFrame g cmd bits ws co).settle :=
  done_on (by simp [Instr.wf, hg, hbits]; omega) (by simp [State.powered, hs, hp, hdir])

theorem State.spiSelect_run {s : State} (g : Nat) (hp : s.power.phase = .run) : s.spiSelect g = (s, false) := by
  simp [State.spiSelect, hp]

/-! ### Malformed frames (R498) -/

theorem completes_malformed {i : Instr} {s : State} {g bits : Nat} {ws : List Word} (hg : g < 2) (hq : s.quiet = true)
    (hexec : exec i s = .next (s.withHost fun h => h.spiAnswer g bits true false ws).settle) :
    Completes i s [.host, .out] fun t => t.host.parts = s.host.parts ∧ t.host.scratch = s.host.scratch ∧
      t.host.spi g = { s.host.spi g with err := true, conflict := (s.host.spi g).conflict && decide (bits < 32) } ∧
      t.host.spi (1 - g) = s.host.spi (1 - g) ∧ t.out = [.spi g ws] := by
  refine ⟨_, hexec, ⟨rfl, rfl, ?_, s.host.spiAnswer_spi_other bits true false ws hg, ?_⟩,
    onlyChanges_withHost s _ (HostSys.spiAnswer_rep ..)⟩
  · rw [Bool.and_comm]
    exact s.spi_flags g bits true false ws
  · exact State.settle_out_emit _ hq (HostSys.spiAnswer_outs ..) rfl

theorem State.spiReadFrame_bad {s : State} {g cmd bits : Nat} (n : Nat) (co : List (Option CoA)) (hp : s.power.phase = .run)
    (hbad : spiBad cmd bits = true) : s.spiReadFrame g cmd bits n co =
      s.withHost fun h => h.spiAnswer g bits true false (if bits < 32 then [] else s.spiStatus g :: List.replicate n 0) := by
  rw [← State.emit_spiEnd]
  simp [State.spiReadFrame, State.spiSelect_run g hp, hbad]

theorem State.spiWriteFrame_bad {s : State} {g cmd bits : Nat} (ws : List Word) (co : List (Option CoA)) (hp : s.power.phase = .run)
    (hbad : spiBad cmd bits = true) : s.spiWriteFrame g cmd bits ws co =
      s.withHost fun h => h.spiAnswer g bits true false (if bits < 32 then [] else [s.spiStatus g]) := by
  rw [← State.emit_spiEnd]
  simp [State.spiWriteFrame, State.spiSelect_run g hp, hbad]

theorem completes_malformed_read {s : State} {g cmd bits : Nat} (n : Nat) (co : List (Option CoA)) (hg : g < 2) (hcmd : cmd < 2 ^ 32)
    (hbits : bits ≤ 32) (hs : s.served = true) (hp : s.power.phase = .run) (hq : s.quiet = true) (hbad : spiBad cmd bits = true)
    (hdir : bits < 32 ∨ cmd.testBit 31 = true) :
    Completes (.spiReadFrame g cmd bits n co) s [.host, .out] fun t => t.host.parts = s.host.parts ∧
      t.host.spi g = { s.host.spi g with err := true, conflict := (s.host.spi g).conflict && decide (bits < 32) } ∧
      t.host.spi (1 - g) = s.host.spi (1 - g) ∧ t.out = [.spi g (if bits < 32 then [] else s.spiStatus g :: List.replicate n 0)] := by
  have hexec := exec_spiReadFrame n co hg hcmd hbits hs (by simp [hp]) hdir
  rw [State.spiReadFrame_bad n co hp hbad] at hexec
  obtain ⟨t, ht, ⟨hparts, -, hrest⟩, hframe⟩ := completes_malformed hg hq hexec
  exact ⟨t, ht, ⟨hparts, hrest⟩, hframe⟩

theorem completes_malformed_write {s : State} {g cmd bits : Nat} (ws : List Word) (co : List (Option CoA)) (hg : g < 2)
    (hcmd : cmd < 2 ^ 32) (hbits : bits ≤ 32) (hs : s.served = true) (hp : s.power.phase = .run) (hq : s.quiet = true)
    (hbad : spiBad cmd bits = true) (hdir : bits < 32 ∨ cmd.testBit 31 = false) :
    Completes (.spiWriteFrame g cmd bits ws co) s [.host, .out] fun t => t.host.parts = s.host.parts ∧ t.host.scratch = s.host.scratch ∧
      t.host.spi g = { s.host.spi g with err := true, conflict := (s.host.spi g).conflict && decide (bits < 32) } ∧
      t.host.spi (1 - g) = s.host.spi (1 - g) ∧ t.out = [.spi g (if bits < 32 then [] else [s.spiStatus g])] := by
  have hexec := exec_spiWriteFrame ws co hg hcmd hbits hs (by simp [hp]) hdir
  rw [State.spiWriteFrame_bad ws co hp hbad] at hexec
  exact completes_malformed hg hq hexec

/-! ### Read frames (R495 to R497) -/

@[simp] theorem State.answer_pending (s : State) (who : Requester) (addr : Nat) (wr : Option Word) (v : Word) :
    (s.answer who addr wr v).pending = s.pending := by
  unfold State.answer
  split
  · rfl
  · split <;> rfl

@[simp] theorem State.portB_pending (s : State) (b : PortB) (co : Option CoA) : (s.portB b co).1.pending = s.pending := by
  cases co with
  | none => rfl
  | some c => exact State.answer_pending ..

@[simp] theorem State.spiRead_pending (s : State) (g cmd k : Nat) (co : Option CoA) : (s.spiRead g cmd k co).1.pending = s.pending := by
  unfold State.spiRead
  split
  · rfl
  · split
    · split <;> simp
    · exact (s.readLatch_latched _ _).pending_eq

/-- A data word of a read of the register space. -/
theorem State.spiRead_register (s : State) (g cmd k : Nat) (co : Option CoA) (h30 : cmd.testBit 30 = false) :
    s.Latched (s.spiRead g cmd k co).1 ∧ (s.spiRead g cmd k co).2.2 = false := by
  unfold State.spiRead
  split
  · exact ⟨.refl s, rfl⟩
  · simp [h30, State.readLatch_latched]

theorem spiAddr_first (cmd : Nat) (h30 : cmd.testBit 30 = false) : spiAddr cmd 0 = some (cmd % 2 ^ 20) := by
  simp [spiAddr, h30, Nat.mod_lt]

theorem State.spiRead_first (s : State) (g cmd : Nat) (co : Option CoA) (h30 : cmd.testBit 30 = false) :
    (s.spiRead g cmd 0 co).2.1 = s.readReg (4 + g) (cmd % 2 ^ 20) := by
  simp [State.spiRead, spiAddr_first cmd h30, h30]

/-- The first `n` data words of a read frame: the state, the words returned, whether BUSY is driven. -/
def State.spiReadWords (s : State) (g cmd : Nat) (co : List (Option CoA)) : Nat → State × List Word × Bool
  | 0 => (s, [], false)
  | n + 1 =>
    let r := s.spiReadWords g cmd co n
    let x := r.1.spiRead g cmd n (co.getD n none)
    (x.1, r.2.1 ++ [x.2.1], r.2.2 || x.2.2)

theorem State.spiReadWords_foldl (s : State) (g cmd n : Nat) (co : List (Option CoA)) :
    (List.range n).foldl (fun (r : State × List Word × Bool) k =>
      let x := r.1.spiRead g cmd k (co.getD k none)
      (x.1, r.2.1 ++ [x.2.1], r.2.2 || x.2.2)) (s, [s.spiStatus g], false) =
    ((s.spiReadWords g cmd co n).1, s.spiStatus g :: (s.spiReadWords g cmd co n).2.1, (s.spiReadWords g cmd co n).2.2) := by
  induction n with
  | zero => rfl
  | succ n ih =>
    rw [List.range_succ, List.foldl_append, ih]
    rfl

theorem State.spiReadFrame_good {s : State} {g cmd bits : Nat} (n : Nat) (co : List (Option CoA)) (hp : s.power.phase = .run)
    (hgood : spiBad cmd bits = false) : s.spiReadFrame g cmd bits n co =
      (s.spiReadWords g cmd co n).1.withHost fun h =>
        h.spiAnswer g bits false (s.spiReadWords g cmd co n).2.2 (s.spiStatus g :: (s.spiReadWords g cmd co n).2.1) := by
  rw [← State.emit_spiEnd]
  simp only [State.spiReadFrame, State.spiSelect_run g hp, hgood, Bool.false_eq_true, if_false, State.spiReadWords_foldl]

theorem State.spiReadWords_pending (s : State) (g cmd n : Nat) (co : List (Option CoA)) :
    (s.spiReadWords g cmd co n).1.pending = s.pending := by
  induction n with
  | zero => rfl
  | succ n ih => simp [State.spiReadWords, ih]

theorem State.spiReadWords_length (s : State) (g cmd n : Nat) (co : List (Option CoA)) :
    (s.spiReadWords g cmd co n).2.1.length = n := by
  induction n with
  | zero => rfl
  | succ n ih => simp [State.spiReadWords, ih]

theorem State.spiReadWords_first (s : State) (g cmd n : Nat) (co : List (Option CoA)) (h30 : cmd.testBit 30 = false) (hn : 0 < n) :
    (s.spiReadWords g cmd co n).2.1.getD 0 0 = s.readReg (4 + g) (cmd % 2 ^ 20) := by
  induction n with
  | zero => exact absurd hn (Nat.lt_irrefl 0)
  | succ n ih =>
    rcases Nat.eq_zero_or_pos n with rfl | hpos
    · exact s.spiRead_first g cmd _ h30
    · have hlen : 0 < (s.spiReadWords g cmd co n).2.1.length := by
        rw [State.spiReadWords_length]
        exact hpos
      rw [← ih hpos, List.getD_eq_getElem?_getD, List.getD_eq_getElem?_getD, State.spiReadWords, List.getElem?_append_left hlen]

theorem State.spiReadWords_register (s : State) (g cmd n : Nat) (co : List (Option CoA)) (h30 : cmd.testBit 30 = false) :
    s.Latched (s.spiReadWords g cmd co n).1 ∧ (s.spiReadWords g cmd co n).2.2 = false := by
  induction n with
  | zero => exact ⟨.refl s, rfl⟩
  | succ n ih =>
    obtain ⟨hlat, hbusy⟩ := ih
    obtain ⟨hstep, hfree⟩ := (s.spiReadWords g cmd co n).1.spiRead_register g cmd n (co.getD n none) h30
    exact ⟨hlat.trans hstep, by simp only [State.spiReadWords, hbusy, hfree, Bool.or_self]⟩

/-- A target's words are the first output of a frame that finds none waiting. -/
theorem State.spi_head_out (s : State) (g bits : Nat) (bad busy : Bool) (ws : List Word) (houts : s.host.outs = []) :
    (s.withHost fun h => h.spiAnswer g bits bad busy ws).settle.out =
      .spi g ws :: (s.withHost fun h => h.spiAnswer g bits bad busy ws).settle.out.tail := by
  simp [houts]

theorem spiReadFrame_served {s : State} {g cmd bits : Nat} (n : Nat) (co : List (Option CoA)) (hg : g < 2) (hcmd : cmd < 2 ^ 32)
    (hbits : bits ≤ 32) (hs : s.served = true) (hp : s.power.phase = .run) (hq : s.quiet = true) (hgood : spiBad cmd bits = false)
    (h31 : cmd.testBit 31 = true) :
    ∃ t ws l, exec (.spiReadFrame g cmd bits n co) s = .next t ∧ t.pending = s.pending ∧ ws.length = n ∧ (t.host.spi g).err = false ∧
      .spi g (s.spiStatus g :: ws) ∈ t.out ∧
      (cmd.testBit 30 = false → OnlyChanges [.host, .clk, .net, .links, .out] s t ∧ t.host.parts = s.host.parts ∧
        (t.host.spi g).conflict = false ∧ t.out = .spi g (s.spiStatus g :: ws) :: l ∧
        (0 < n → ws.getD 0 0 = s.readReg (4 + g) (cmd % 2 ^ 20))) := by
  have hexec := exec_spiReadFrame n co hg hcmd hbits hs (by simp [hp]) (.inr h31)
  rw [State.spiReadFrame_good n co hp hgood] at hexec
  let r := s.spiReadWords g cmd co n
  let t := (r.1.withHost fun h => h.spiAnswer g bits false r.2.2 (s.spiStatus g :: r.2.1)).settle
  refine ⟨t, r.2.1, t.out.tail, hexec, s.spiReadWords_pending g cmd n co, s.spiReadWords_length g cmd n co,
    congrArg SpiTgt.err (State.spi_flags ..), State.spi_mem_out .., fun h30 => ?_⟩
  obtain ⟨hlat, hbusy⟩ := s.spiReadWords_register g cmd n co h30
  have hbits : ¬ bits < 32 := fun h => by simp [(spiBad_iff cmd bits).2 (.inl h)] at hgood
  refine ⟨hlat.onlyChanges _ (HostSys.spiAnswer_rep ..), hlat.parts_eq, ?_,
    State.spi_head_out _ g bits _ _ _ (hlat.outs_eq.trans (State.quiet_outs hq).1),
    s.spiReadWords_first g cmd n co h30⟩
  exact (congrArg SpiTgt.conflict (State.spi_flags ..)).trans (by simp [r, hbusy, hbits])

/-! ### Write frames (R495 to R497) -/

@[simp] theorem State.regWrite_spi_pending (s : State) (g o : Nat) (v : Word) : (s.regWrite (4 + g) o v).pending = s.pending := by
  rw [s.regWrite_of_no_bell v (.inl (by omega))]
  split <;> simp

@[simp] theorem State.spiWrite_pending (s : State) (g cmd k : Nat) (v : Word) (co : Option CoA) :
    (s.spiWrite g cmd k v co).1.pending = s.pending := by
  unfold State.spiWrite
  split
  · rfl
  · split
    · split <;> simp
    · simp

/-- The data words `ws` of a write frame: the state, whether BUSY is driven. -/
def State.spiWriteWords (s : State) (g cmd : Nat) (ws : List Word) (co : List (Option CoA)) : State × Bool :=
  ((List.range ws.length).zip ws).foldl (fun (r : State × Bool) x =>
    let y := r.1.spiWrite g cmd x.1 x.2 (co.getD x.1 none)
    (y.1, r.2 || y.2)) (s, false)

theorem State.spiWriteFrame_good {s : State} {g cmd bits : Nat} (ws : List Word) (co : List (Option CoA)) (hp : s.power.phase = .run)
    (hgood : spiBad cmd bits = false) : s.spiWriteFrame g cmd bits ws co =
      (s.spiWriteWords g cmd ws co).1.withHost fun h =>
        h.spiAnswer g bits false (s.spiWriteWords g cmd ws co).2 [s.spiStatus g] := by
  rw [← State.emit_spiEnd]
  simp only [State.spiWriteFrame, State.spiSelect_run g hp, hgood, Bool.false_eq_true, if_false]
  rfl

theorem State.spiWriteWords_pending (s : State) (g cmd : Nat) (ws : List Word) (co : List (Option CoA)) :
    (s.spiWriteWords g cmd ws co).1.pending = s.pending :=
  foldl_keeps (fun r : State × Bool => r.1.pending) _ (fun _ _ => by simp) _ _

/-- A write frame of one word writes the register that its command names. -/
theorem State.spiWriteWords_one (s : State) (g cmd : Nat) (w : Word) (co : List (Option CoA)) (h30 : cmd.testBit 30 = false) :
    s.spiWriteWords g cmd [w] co = (s.regWrite (4 + g) (cmd % 2 ^ 20) w, false) := by
  simp [State.spiWriteWords, State.spiWrite, spiAddr_first cmd h30, h30]

theorem spiWriteFrame_served {s : State} {g cmd bits : Nat} (ws : List Word) (co : List (Option CoA)) (hg : g < 2) (hcmd : cmd < 2 ^ 32)
    (hbits : bits ≤ 32) (hs : s.served = true) (hp : s.power.phase = .run) (hgood : spiBad cmd bits = false)
    (h31 : cmd.testBit 31 = false) :
    ∃ t, exec (.spiWriteFrame g cmd bits ws co) s = .next t ∧ t.pending = s.pending ∧ .spi g [s.spiStatus g] ∈ t.out := by
  have hexec := exec_spiWriteFrame ws co hg hcmd hbits hs (by simp [hp]) (.inr h31)
  rw [State.spiWriteFrame_good ws co hp hgood] at hexec
  exact ⟨_, hexec, s.spiWriteWords_pending g cmd ws co, State.spi_mem_out ..⟩

/-! ### What a second sending-off changes -/

theorem filter_map_idem {α : Type} (f : α → α) (p : α → Bool) (hf : ∀ x, f (f x) = f x) (m : List α) :
    (((m.map f).filter p).map f).filter p = (m.map f).filter p := by
  have hfix : ∀ x ∈ (m.map f).filter p, f x = x := by
    intro x hx
    obtain ⟨y, -, rfl⟩ := List.mem_map.1 (List.mem_filter.1 hx).1
    exact hf y
  have hmap : ((m.map f).filter p).map f = (m.map f).filter p :=
    (List.map_congr_left hfix).trans (List.map_id' _)
  rw [hmap, List.filter_filter]
  simp

theorem quietFacets_idem (m : Memory Facet) : quietFacets (quietFacets m) = quietFacets m :=
  filter_map_idem (fun e : Nat × Facet => (e.1, { e.2 with rep := [] })) _ (fun _ => rfl) m

theorem quietTiles_idem (m : Memory Tile) : quietTiles (quietTiles m) = quietTiles m :=
  filter_map_idem (fun e : Nat × Tile => (e.1, { e.2 with rep := [] })) _ (fun _ => rfl) m

/-- A frame over `x` is one over `x` with its reports and outputs sent off, the outputs apart. -/
theorem OnlyChanges.of_settled {ps : List Piece} {x t : State} (h : OnlyChanges ps x t) (hout : .out ∈ ps) : OnlyChanges ps x.settle t := by
  refine ⟨h.1, fun p hp => ?_⟩
  have hx := h.2 p hp
  cases p
  case out => exact absurd hout hp
  case facets => exact hx.trans (quietFacets_idem x.facets).symm
  case tiles => exact hx.trans (quietTiles_idem x.tiles).symm
  case reports => exact hx.trans (by simp [x.settle_unitReports])
  all_goals exact hx

theorem spiWriteFrame_as_registerWrite {s : State} {g cmd bits : Nat} (w : Word) (co : List (Option CoA)) (hg : g < 2)
    (hcmd : cmd < 2 ^ 32) (hbits : bits ≤ 32) (hs : s.served = true) (hp : s.power.phase = .run) (hgood : spiBad cmd bits = false)
    (h31 : cmd.testBit 31 = false) (h30 : cmd.testBit 30 = false) :
    ∃ t u, exec (.spiWriteFrame g cmd bits [w] co) s = .next t ∧ exec (.registerWrite (4 + g) (cmd % 2 ^ 20) 4 w none []) s = .next u ∧
      OnlyChanges [.host, .out] u t ∧ t.host.parts = u.host.parts ∧ t.host.scratch = u.host.scratch ∧ (t.host.spi g).err = false ∧
      .spi g [s.spiStatus g] ∈ t.out := by
  have hexec := exec_spiWriteFrame [w] co hg hcmd hbits hs (by simp [hp]) (.inr h31)
  rw [State.spiWriteFrame_good [w] co hp hgood, s.spiWriteWords_one g cmd w co h30] at hexec
  have hread : s.readable = true := by simp [State.readable, hs, State.awake, Power.awake, hp]
  refine ⟨_, _, hexec, exec_registerWrite_single w (by omega) (Nat.mod_lt _ (by decide)) hread,
    (onlyChanges_withHost _ _ (HostSys.spiAnswer_rep ..)).of_settled (by simp), rfl, rfl,
    congrArg SpiTgt.err (State.spi_flags ..), State.spi_mem_out ..⟩

/-! ### A frame that wakes the device (R467) -/

theorem Power.setIdleAt_phase (p : Power) (n : Nat) : ({ p with idleAt := n } : Power).phase = p.phase := rfl
theorem Power.setIdleAt_wakeSrc (p : Power) (n : Nat) : ({ p with idleAt := n } : Power).wakeSrc = p.wakeSrc := rfl

@[simp] theorem Power.reload_phase (p : Power) (now : Nat) : (p.reload now).phase = p.phase := Power.setIdleAt_phase p _
@[simp] theorem Power.reload_wakeSrc (p : Power) (now : Nat) : (p.reload now).wakeSrc = p.wakeSrc := Power.setIdleAt_wakeSrc p _

@[simp] theorem State.restartBlocks_host (s : State) (n : Nat) : (s.restartBlocks n).host = s.host := by
  simp [State.restartBlocks, apply_ite State.host]

theorem State.wake_standby_host {s : State} (src : Nat) (hp : s.power.phase = .standby) : (s.wake src).host = s.host := by
  simp only [State.wake, hp]
  rw [State.withPower_host, State.restartBlocks_host]

theorem State.wake_standby_power {s : State} (src : Nat) (hp : s.power.phase = .standby) :
    (s.wake src).power.phase = .run ∧ (s.wake src).power.wakeSrc = src := by
  simp only [State.wake, hp]
  rw [State.withPower_power, Power.reload_phase, Power.reload_wakeSrc]
  exact ⟨rfl, rfl⟩

theorem State.spiSelect_standby {s : State} (g : Nat) (hp : s.power.phase = .standby) : s.spiSelect g = (s.wake (3 + g), true) := by
  simp [State.spiSelect, hp]

/-- The chip-select edge of a target in Standby wakes the device, whose frame is not served and conflicts. -/
theorem spiFrame_wakes {i : Instr} {s : State} {g : Nat} {ws : List Word} (hp : s.power.phase = .standby)
    (hexec : exec i s = .next (((s.wake (3 + g)).emit (.spi g ws)).spiEnd g 32 false true).settle) :
    ∃ t, exec i s = .next t ∧ t.power.phase = .run ∧ t.power.wakeSrc = 3 + g ∧ t.host.parts = s.host.parts ∧
      t.host.scratch = s.host.scratch ∧ (t.host.spi g).conflict = true ∧ .spi g ws ∈ t.out ∧ .busy g ∈ t.out := by
  obtain ⟨hrun, hsrc⟩ := State.wake_standby_power (3 + g) hp
  have hparts : (s.wake (3 + g)).host.parts = s.host.parts := by rw [State.wake_standby_host _ hp]
  have hscratch : (s.wake (3 + g)).host.scratch = s.host.scratch := by rw [State.wake_standby_host _ hp]
  rw [State.emit_spiEnd] at hexec
  refine ⟨_, hexec, hrun, hsrc, hparts, hscratch,
    congrArg SpiTgt.conflict (State.spi_flags ..), State.spi_mem_out .., ?_⟩
  simp

theorem spiReadFrame_wakes {s : State} {g cmd : Nat} (n : Nat) (hg : g < 2) (hcmd : cmd < 2 ^ 32) (hs : s.served = true)
    (hp : s.power.phase = .standby) (h31 : cmd.testBit 31 = true) :
    ∃ t, exec (.spiReadFrame g cmd 32 n []) s = .next t ∧ t.power.phase = .run ∧ t.power.wakeSrc = 3 + g ∧ t.host.parts = s.host.parts ∧
      (t.host.spi g).conflict = true ∧ .spi g (List.replicate (n + 1) 0) ∈ t.out ∧ .busy g ∈ t.out := by
  have hexec := exec_spiReadFrame n [] hg hcmd (Nat.le_refl 32) hs (by simp [hp]) (.inr h31)
  simp only [State.spiReadFrame, State.spiSelect_standby g hp, if_true] at hexec
  obtain ⟨t, ht, hrun, hsrc, hparts, -, hrest⟩ := spiFrame_wakes hp hexec
  exact ⟨t, ht, hrun, hsrc, hparts, hrest⟩

theorem spiWriteFrame_wakes {s : State} {g cmd : Nat} (ws : List Word) (hg : g < 2) (hcmd : cmd < 2 ^ 32) (hs : s.served = true)
    (hp : s.power.phase = .standby) (h31 : cmd.testBit 31 = false) :
    ∃ t, exec (.spiWriteFrame g cmd 32 ws []) s = .next t ∧ t.power.phase = .run ∧ t.power.wakeSrc = 3 + g ∧
      t.host.parts = s.host.parts ∧ t.host.scratch = s.host.scratch ∧ .busy g ∈ t.out := by
  have hexec := exec_spiWriteFrame ws [] hg hcmd (Nat.le_refl 32) hs (by simp [hp]) (.inr h31)
  simp only [State.spiWriteFrame, State.spiSelect_standby g hp, if_true] at hexec
  obtain ⟨t, ht, hrun, hsrc, hparts, hscratch, -, -, hbusy⟩ := spiFrame_wakes hp hexec
  exact ⟨t, ht, hrun, hsrc, hparts, hscratch, hbusy⟩

/-! ### The statement -/

/-- Settles O53, one lemma for each sentence of the statement: what the register space discards and what it takes, what reads latch,
and SPI frames as register accesses between the status word and the flags of the next one. -/
theorem registerAndSpiCommands : Obligations.RegisterAndSpiCommands := by
  refine ⟨completes_discarded_write,
    fun s r off n v hr ho hs h1 h4 => ⟨completes_narrow_write s r off n v hr ho hs h1 h4, completes_narrow_read s r off n hr ho hs h1 h4⟩,
    completes_scratch_write, completes_claimMac_race, completes_irqStat_write,
    fun s r v hr hc _ hv => completes_tamper_write s r v hr hc hv, completes_read, completes_uptime_read,
    fun s r off h4 _ hv => s.readReg_unmapped r off (by omega) hv, ?_,
    fun s g cmd n ws hg hcmd hs hp => ⟨spiReadFrame_wakes n hg hcmd hs hp, spiWriteFrame_wakes ws hg hcmd hs hp⟩⟩
  intro s g cmd bits n co hg hcmd hbits hs hp hq
  simp only [← spiBad_iff, Bool.not_eq_true]
  exact ⟨completes_malformed_read n co hg hcmd hbits hs hp hq, fun ws => completes_malformed_write ws co hg hcmd hbits hs hp hq,
    spiReadFrame_served n co hg hcmd hbits hs hp hq, fun w => spiWriteFrame_as_registerWrite w co hg hcmd hbits hs hp,
    fun ws => spiWriteFrame_served ws co hg hcmd hbits hs hp⟩

end Sys2Proof.Machine

/-!
SUPPORT. The architecture statements: ill-formed commands and the reset state (R15, R422), what a Setter core reaches over the control
fabric (R25, R26), what a DRAM channel serves and keeps (R285 to R291).
-/

namespace Sys2Proof.Machine

/-! ### Ill-formed commands -/

/-- The meaning of every command ends in `done` for that command. -/
theorem exec_eq_done (i : Instr) (s : State) : ∃ on t, exec i s = done s i on t := by
  cases i <;> exact ⟨_, _, rfl⟩

theorem exec_of_not_wf {i : Instr} (s : State) (h : i.wf = false) : exec i s = .next s.settle := by
  obtain ⟨on, t, heq⟩ := exec_eq_done i s
  rw [heq, done_off (by rw [h, Bool.false_and])]

theorem State.quiet_reports {s : State} (h : s.quiet = true) : s.unitReports = [] := by
  simp only [State.quiet, Bool.and_eq_true, List.isEmpty_iff] at h
  exact h.1.1

theorem State.unitsWf_units {s : State} (h : s.unitsWf = true) :
    Memory.wf (fun _ => Facet.reset) s.facets = true ∧ Memory.wf (fun _ => Tile.reset) s.tiles = true := by
  simp only [State.unitsWf, Bool.and_eq_true, and_assoc] at h
  obtain ⟨hfacets, htiles, -⟩ := h
  exact ⟨hfacets, htiles⟩

/-- Where no unit holds anything, the end of a command takes the last outputs away and nothing else. -/
theorem State.settle_of_quiet {s : State} (hq : s.quiet = true) (hw : s.unitsWf = true) : s.settle = { s with out := [] } := by
  obtain ⟨hfacets, htiles⟩ := State.unitsWf_units hw
  obtain ⟨houts, hsent⟩ := State.quiet_outs hq
  have hnone := State.quiet_reports hq
  have hparts := hnone
  simp only [State.unitReports, List.append_eq_nil_iff, List.map_eq_nil_iff] at hparts
  obtain ⟨⟨⟨⟨⟨⟨⟨⟨hf, ht⟩, hmem⟩, hdram⟩, hnet⟩, hclk⟩, hports⟩, hlinks⟩, hhost⟩ := hparts
  simp only [State.settle, hnone, quietFacets_of_wf _ hfacets hf, quietTiles_of_wf _ htiles ht, houts, hsent, List.map_nil,
    List.append_nil, ite_self]
  rw [← houts, ← hsent, ← hmem, ← hdram, ← hnet, ← hclk, ← hports, ← hlinks, ← hhost]

/-- Settles O4: a command that is not well formed only sends off what the units hold, and they hold nothing. -/
theorem illFormedCommandsChangeNothing : Obligations.IllFormedCommandsChangeNothing := fun i s hq hw hi => by
  rw [exec_of_not_wf s hi, State.settle_of_quiet hq hw]

/-! ### The reset state -/

/-- Settles O10, by evaluation of the reset state: an empty store reads as its default at every index. -/
theorem resetState : Obligations.ResetState :=
  ⟨rfl, rfl, rfl, rfl, rfl, fun _ => ⟨rfl, rfl⟩, rfl, rfl, rfl, fun _ => ⟨rfl, rfl⟩, fun _ => rfl, rfl, rfl, rfl, rfl, rfl, rfl, rfl,
    rfl, rfl, rfl⟩

/-! ### Frames of a command that changes one memory -/

/-- A command that changes one block, whose reports may be more, leaves the pieces outside that block and the report network. -/
theorem onlyChanges_withMem (s : State) (f : MemSys → MemSys) : OnlyChanges [.mem, .reports] s (s.withMem f).settle := by
  refine ⟨rfl, fun p hp => ?_⟩
  cases p
  case mem | reports => simp at hp
  case time => exact ⟨rfl, rfl⟩
  all_goals rfl

theorem onlyChanges_withDram (s : State) (f : DramSys → DramSys) : OnlyChanges [.dram, .reports] s (s.withDram f).settle := by
  refine ⟨rfl, fun p hp => ?_⟩
  cases p
  case dram | reports => simp at hp
  case time => exact ⟨rfl, rfl⟩
  all_goals rfl

theorem State.unitReports_withDram (s : State) (f : DramSys → DramSys) (hrep : (f s.dram).rep = s.dram.rep) :
    (s.withDram f).unitReports = s.unitReports := by
  simp only [State.unitReports, State.withDram_dram, hrep]
  rfl

/-- A command of external memory that makes no report changes external memory alone. -/
theorem onlyChanges_withDram_silent (s : State) (f : DramSys → DramSys) (hrep : (f s.dram).rep = s.dram.rep) :
    OnlyChanges [.dram] s (s.withDram f).settle := by
  refine ⟨rfl, fun p hp => ?_⟩
  by_cases hreports : p = .reports
  · subst hreports
    exact congrArg (s.health.flying ++ ·) (s.unitReports_withDram f hrep)
  · exact (onlyChanges_withDram s f).2 p (by simp_all)

theorem onlyChanges_sram (s : State) (m : Memory Word) : OnlyChanges [.sram] s ({ s with sram := m } : State).settle := by
  refine ⟨rfl, fun p hp => ?_⟩
  cases p
  case sram => simp at hp
  case time => exact ⟨rfl, rfl⟩
  all_goals rfl

theorem onlyChanges_note (s : State) (r : Report) : OnlyChanges [.reports] s (s.note r).settle := by
  refine ⟨rfl, fun p hp => ?_⟩
  cases p
  case reports => simp at hp
  case time => exact ⟨rfl, rfl⟩
  all_goals rfl

theorem OnlyChanges.mono {ps qs : List Piece} {s t : State} (h : OnlyChanges ps s t) (hsub : ∀ p ∈ ps, p ∈ qs) : OnlyChanges qs s t :=
  ⟨h.1, fun p hp => h.2 p fun hmem => hp (hsub p hmem)⟩

/-- Outputs that a command adds appear in the outputs alone. -/
theorem OnlyChanges.add_outs {ps : List Piece} {s x : State} (h : OnlyChanges ps s x.settle) (f : HostSys → List Out) :
    OnlyChanges (.out :: ps) s (x.withHost fun k => { k with outs := f k }).settle := by
  refine ⟨h.1, fun p hp => ?_⟩
  rw [List.mem_cons, not_or] at hp
  have hx := h.2 p hp.2
  cases p
  case out => exact absurd rfl hp.1
  all_goals exact hx

theorem OnlyChanges.emit {ps : List Piece} {s x : State} (h : OnlyChanges ps s x.settle) (o : Out) :
    OnlyChanges (.out :: ps) s (x.emit o).settle := h.add_outs fun k => k.outs ++ [o]

/-! ### The answer to a Setter core -/

theorem State.answer_read (s : State) (core addr : Nat) (v : Word) : s.answer (.core core) addr none v = s.emit (.core core addr v) := rfl
theorem State.answer_write (s : State) (core addr : Nat) (u v : Word) : s.answer (.core core) addr (some u) v = s := rfl

theorem OnlyChanges.answer {ps : List Piece} {s x : State} (h : OnlyChanges ps s x.settle) (core addr : Nat) (wr : Option Word) (v : Word) :
    OnlyChanges (.out :: ps) s (x.answer (.core core) addr wr v).settle := by
  cases wr with
  | some u => exact h.mono fun p hp => List.mem_cons_of_mem _ hp
  | none => exact h.emit (.core core addr v)

/-- In a quiet state a core's read is answered by one output, a write by none. -/
theorem State.answer_settle_out {s x : State} (hq : s.quiet = true) (houts : x.host.outs = s.host.outs) (hsent : x.net.sent = s.net.sent)
    (core addr : Nat) (wr : Option Word) (v : Word) :
    (x.answer (.core core) addr wr v).settle.out = if wr.isNone then [.core core addr v] else [] := by
  cases wr with
  | none => exact State.settle_out_emit _ hq (congrArg (· ++ [_]) houts) hsent
  | some u =>
    obtain ⟨hout, hnet⟩ := State.quiet_outs hq
    simp [State.answer_write, houts, hout, hsent, hnet]

/-! ### What an access over the control fabric keeps -/

@[simp] theorem State.hole_pending (s : State) (core : Nat) : (s.hole core).pending = s.pending := rfl

@[simp] theorem State.facetWindow_pending (s : State) (core n o : Nat) (wr : Option Word) :
    (s.facetWindow core n o wr).1.pending = s.pending := by
  unfold State.facetWindow
  cases wr <;> dsimp only <;> split <;> rfl

@[simp] theorem State.tileWindow_pending (s : State) (core n o : Nat) (wr : Option Word) :
    (s.tileWindow core n o wr).1.pending = s.pending := by
  unfold State.tileWindow
  cases wr with
  | none => dsimp only; split <;> rfl
  | some v =>
    dsimp only
    split
    · rfl
    · split <;> rfl

theorem State.fabric_pending (s : State) (core addr : Nat) (wr : Option Word) : (s.fabric core addr wr).1.pending = s.pending := by
  have hlatch (o : Nat) : (s.readLatch 6 o).pending = s.pending := (s.readLatch_latched 6 o).pending_eq
  cases wr <;> simp [State.fabric, hlatch, apply_ite Prod.fst, apply_ite State.pending]

theorem State.returned_pending (s : State) (r : Option (BankReq × Word)) : (s.returned r).pending = s.pending := by
  unfold State.returned
  split
  · rfl
  · split <;> rfl

theorem State.bankRequest_pending (s : State) (q : BankReq) : (s.bankRequest q).pending = s.pending := by
  simp [State.bankRequest, apply_ite State.pending, State.returned_pending]

theorem State.dramRequest_pending (s : State) (core addr : Nat) (wr : Option Word) : (s.dramRequest core addr wr).pending = s.pending := by
  simp [State.dramRequest, apply_ite State.pending]

theorem State.coreAccess_pending (s : State) (core addr : Nat) (wr : Option Word) : (s.coreAccess core addr wr).pending = s.pending := by
  simp [State.coreAccess, apply_ite State.pending, State.bankRequest_pending, State.dramRequest_pending, State.fabric_pending]

/-! ### The Exchange RAM's port A -/

/-- The canonical RAMs that the accesses of this part read and write: Exchange RAM, Setter memory, external memory. -/
theorem State.ramsWf_parts {s : State} (h : s.ramsWf = true) :
    Memory.wf zeroW s.mem.xram = true ∧ Memory.wf zeroW s.sram = true ∧ Memory.wf zeroW s.dram.words = true := by
  simp only [State.ramsWf, Bool.and_eq_true, and_assoc] at h
  obtain ⟨-, -, hxram, -, hsram, hdram, -⟩ := h
  exact ⟨hxram, hsram, hdram⟩

theorem State.ramsWf_xram {s : State} (h : s.ramsWf = true) : Memory.wf zeroW s.mem.xram = true := (State.ramsWf_parts h).1
theorem State.ramsWf_sram {s : State} (h : s.ramsWf = true) : Memory.wf zeroW s.sram = true := (State.ramsWf_parts h).2.1
theorem State.ramsWf_dram {s : State} (h : s.ramsWf = true) : Memory.wf zeroW s.dram.words = true := (State.ramsWf_parts h).2.2

/-- A read with error correction keeps the stored words of the Exchange RAM. -/
theorem MemSys.fetch_xram (m : MemSys) (e : EccMem) (i : Nat) (who : Requester) : (m.fetch e i who).1.xram = m.xram := by
  unfold MemSys.fetch
  split
  · rfl
  · rfl
  · simp [MemSys.found, MemSys.note, apply_ite MemSys.xram]

theorem MemSys.portA_read_good {m : MemSys} (core word : Nat) (h : markOf m.bad .xram word = none) :
    m.portA core word none = (m, Memory.get zeroW m.xram word) := by
  simp only [MemSys.portA, MemSys.fetch, h]
  rfl

/-! ### The internal address map (R25) -/

theorem exec_controlFabricAccess {s : State} {core addr : Nat} (wr : Option Word) (hc : core < 4) (ha : addr < 2 ^ 40) (h4 : addr % 4 = 0)
    (hr : s.coreRuns core = true) : exec (.controlFabricAccess core addr wr) s = .next (s.coreAccess core addr wr).settle :=
  done_on (by simp [Instr.wf, hc]; omega) (by simp [hr, h4])

/-- Beyond the banks and the DRAM windows an access is one of the fabric, answered with what the fabric returns. -/
theorem State.coreAccess_fabric {s : State} {core addr : Nat} (wr : Option Word) (h1 : 0x1000000 ≤ addr)
    (h2 : addr < 0x1000000000 ∨ 0x1400000000 ≤ addr) {x : State} {v : Word} (hx : s.fabric core addr wr = (x, v)) :
    s.coreAccess core addr wr = x.answer (.core core) addr wr v := by
  unfold State.coreAccess
  rw [if_neg (by omega), if_neg (by omega), hx]

section
variable {s : State} {core addr : Nat}

theorem State.fabric_xram (wr : Option Word) (h : addr < 0x1040000) :
    s.fabric core addr wr =
      (s.withMem fun m => (m.portA core ((addr - 0x1000000) / 4) wr).1, (s.mem.portA core ((addr - 0x1000000) / 4) wr).2) := by
  unfold State.fabric
  rw [if_pos h]
  rfl

theorem State.fabric_register_read (h1 : 0x8000000 ≤ addr) (h2 : addr < 0x8100000) :
    s.fabric core addr none = (s.readLatch 6 (addr - 0x8000000), s.readReg 6 (addr - 0x8000000)) := by
  unfold State.fabric
  repeat rw [if_neg (by omega)]
  rw [if_pos ⟨h1, h2⟩]

theorem State.fabric_sram_write (v : Word) (h1 : 0x9000000 ≤ addr) (h2 : addr < 0x9400000) :
    s.fabric core addr (some v) = ({ s with sram := Memory.set zeroW s.sram ((addr - 0x9000000) / 4) v }, 0) := by
  unfold State.fabric
  repeat rw [if_neg (by omega)]
  rw [if_pos ⟨h1, h2⟩]

theorem State.fabric_sram_read (h1 : 0x9000000 ≤ addr) (h2 : addr < 0x9400000) :
    s.fabric core addr none = (s, Memory.get zeroW s.sram ((addr - 0x9000000) / 4)) := by
  unfold State.fabric
  repeat rw [if_neg (by omega)]
  rw [if_pos ⟨h1, h2⟩]

theorem State.fabric_bootRom (wr : Option Word) (h1 : 0xA000000 ≤ addr) (h2 : addr < 0xA010000) :
    s.fabric core addr wr = (s, if wr.isNone ∧ core = 0 then Config.bootRom ((addr - 0xA000000) / 4) else 0) := by
  unfold State.fabric
  repeat rw [if_neg (by omega)]
  rw [if_pos ⟨h1, h2⟩]

theorem State.fabric_flash (wr : Option Word) (h1 : 0x10000000 ≤ addr) (h2 : addr < 0x20000000) :
    s.fabric core addr wr =
      (s, if wr.isNone then BitVec.ofNat 32 (leNat (Memory.getRun erased s.boot.flash (addr - 0x10000000) 4)) else 0) := by
  unfold State.fabric
  repeat rw [if_neg (by omega)]
  rw [if_pos ⟨h1, h2⟩]

/-- The holes of the internal address map (R25). -/
def FabricHole (addr : Nat) : Prop :=
  (0x1080000 ≤ addr ∧ addr < 0x2000000) ∨ (0x8100000 ≤ addr ∧ addr < 0x9000000) ∨ (0x9400000 ≤ addr ∧ addr < 0xA000000) ∨
    (0xA010000 ≤ addr ∧ addr < 0x10000000) ∨ (0x20000000 ≤ addr ∧ addr < 0x1000000000) ∨ 0x1400000000 ≤ addr

theorem State.fabric_hole (wr : Option Word) (h : FabricHole addr) : s.fabric core addr wr = (s.hole core, 0) := by
  unfold FabricHole at h
  unfold State.fabric
  repeat rw [if_neg (by omega)]

/-! ### What an access to each region does -/

theorem sramAccess_settle (hq : s.quiet = true) (hwf : s.ramsWf = true) (wr : Option Word) (h1 : 0x9000000 ≤ addr)
    (h2 : addr < 0x9400000) :
    OnlyChanges [.sram, .out] s (s.coreAccess core addr wr).settle ∧
    (∀ v, wr = some v → (s.coreAccess core addr wr).settle.out = [] ∧ ∀ w, Memory.get zeroW (s.coreAccess core addr wr).settle.sram w =
      if w = (addr - 0x9000000) / 4 then v else Memory.get zeroW s.sram w) ∧
    (wr = none → (s.coreAccess core addr wr).settle.sram = s.sram ∧
      (s.coreAccess core addr wr).settle.out = [.core core addr (Memory.get zeroW s.sram ((addr - 0x9000000) / 4))]) := by
  cases wr with
  | some u =>
    rw [State.coreAccess_fabric (some u) (by omega) (by omega) (State.fabric_sram_write u h1 h2)]
    refine ⟨((onlyChanges_sram s _).answer core addr (some u) 0).mono (by simp), ?_, by simp⟩
    rintro v ⟨⟩
    exact ⟨State.answer_settle_out hq rfl rfl core addr (some u) 0, fun w => Memory.get_set zeroW s.sram _ w u (State.ramsWf_sram hwf)⟩
  | none =>
    rw [State.coreAccess_fabric none (by omega) (by omega) (State.fabric_sram_read h1 h2)]
    exact ⟨((onlyChanges_settle s).answer core addr none _).mono (by simp), by simp,
      fun _ => ⟨rfl, State.answer_settle_out hq rfl rfl core addr none _⟩⟩

theorem xramAccess_settle (hq : s.quiet = true) (hwf : s.ramsWf = true) (wr : Option Word) (h1 : 0x1000000 ≤ addr)
    (h2 : addr < 0x1040000) :
    OnlyChanges [.mem, .reports, .out] s (s.coreAccess core addr wr).settle ∧
    (∀ v, wr = some v → ∀ w, Memory.get zeroW (s.coreAccess core addr wr).settle.mem.xram w =
      if w = (addr - 0x1000000) / 4 then v else Memory.get zeroW s.mem.xram w) ∧
    (wr = none → (s.coreAccess core addr wr).settle.mem.xram = s.mem.xram ∧ (markOf s.mem.bad .xram ((addr - 0x1000000) / 4) = none →
      (s.coreAccess core addr wr).settle.out = [.core core addr (Memory.get zeroW s.mem.xram ((addr - 0x1000000) / 4))])) := by
  rw [State.coreAccess_fabric wr h1 (by omega) (State.fabric_xram wr h2)]
  refine ⟨((onlyChanges_withMem s _).answer core addr wr _).mono (by simp), ?_, ?_⟩
  · rintro v rfl w
    exact Memory.get_set zeroW s.mem.xram _ w v (State.ramsWf_xram hwf)
  · rintro rfl
    refine ⟨s.mem.fetch_xram _ _ _, fun hgood => ?_⟩
    refine (State.answer_settle_out hq rfl rfl core addr none _).trans ?_
    rw [MemSys.portA_read_good _ _ hgood]
    rfl

theorem registerRead_settle_out (hq : s.quiet = true) (h1 : 0x8000000 ≤ addr) (h2 : addr < 0x8100000) :
    (s.coreAccess core addr none).settle.out = [.core core addr (s.readReg 6 (addr - 0x8000000))] := by
  have hlatch := s.readLatch_latched 6 (addr - 0x8000000)
  rw [State.coreAccess_fabric none (by omega) (by omega) (State.fabric_register_read h1 h2)]
  exact State.answer_settle_out hq hlatch.outs_eq hlatch.sent_eq core addr none _

/-- A region that discards writes: an access changes nothing, and a read returns what the fabric returns. -/
theorem readOnlyAccess_settle (hq : s.quiet = true) {wr : Option Word} {v : Word} (h1 : 0x1000000 ≤ addr) (h2 : addr < 0x1000000000)
    (hfab : s.fabric core addr wr = (s, v)) :
    OnlyChanges [.out] s (s.coreAccess core addr wr).settle ∧ (wr = none → (s.coreAccess core addr wr).settle.out = [.core core addr v]) := by
  rw [State.coreAccess_fabric wr h1 (.inl h2) hfab]
  refine ⟨(onlyChanges_settle s).answer core addr wr v, ?_⟩
  rintro rfl
  exact State.answer_settle_out hq rfl rfl core addr none v

theorem holeAccess_settle (hq : s.quiet = true) (wr : Option Word) (h : FabricHole addr) :
    OnlyChanges [.reports, .out] s (s.coreAccess core addr wr).settle ∧
    ⟨0x302, 16, core, 3, false, false, 0⟩ ∈ (s.coreAccess core addr wr).settle.health.flying ∧
    (wr = none → (s.coreAccess core addr wr).settle.out = [.core core addr 0]) := by
  have hbounds : 0x1000000 ≤ addr ∧ (addr < 0x1000000000 ∨ 0x1400000000 ≤ addr) := by
    unfold FabricHole at h
    omega
  rw [State.coreAccess_fabric wr hbounds.1 hbounds.2 (State.fabric_hole wr h)]
  refine ⟨((onlyChanges_note s _).answer core addr wr 0).mono (by simp), ?_, ?_⟩
  · cases wr <;> simp [State.answer_read, State.answer_write, State.hole, State.report]
  · rintro rfl
    exact State.answer_settle_out hq rfl rfl core addr none 0

end

/-- Settles O22: an access beyond the banks and DRAM is the fabric's, region by region of the internal address map. -/
theorem controlFabricReachesTheMap : Obligations.ControlFabricReachesTheMap := by
  intro s core addr wr hq hwf hc ha h4 hr
  refine ⟨_, exec_controlFabricAccess wr hc ha h4 hr, s.coreAccess_pending core addr wr, sramAccess_settle hq hwf wr,
    xramAccess_settle hq hwf wr, ?_, ?_, ?_, holeAccess_settle hq wr⟩
  · rintro h1 h2 rfl
    exact registerRead_settle_out hq h1 h2
  · intro h1 h2
    obtain ⟨honly, hread⟩ := readOnlyAccess_settle hq (by omega) (by omega) (State.fabric_bootRom wr h1 h2)
    exact ⟨honly, fun hnone => by simpa [hnone] using hread hnone⟩
  · intro h1 h2
    obtain ⟨honly, hread⟩ := readOnlyAccess_settle hq (by omega) (by omega) (State.fabric_flash wr h1 h2)
    exact ⟨honly, fun hnone => by simpa [hnone] using hread hnone⟩

end Sys2Proof.Machine

namespace Sys2Proof

/-! ### Runs of words -/

theorem Memory.get_setRun_other {α : Type} [DecidableEq α] (d : Nat → α) (m : Memory α) (a : Nat) (vs : List α) {b : Nat}
    (h : b < a ∨ a + vs.length ≤ b) : Memory.get d (Memory.setRun d m a vs) b = Memory.get d m b := by
  induction vs generalizing m a with
  | nil => rfl
  | cons v vs ih =>
    rw [List.length_cons] at h
    rw [Memory.setRun, ih _ _ (by omega), Memory.get_set_other d m a b v (by omega)]

theorem Memory.get_setRun_at {α : Type} [DecidableEq α] (d : Nat → α) (m : Memory α) (a : Nat) (vs : List α) {i : Nat} {v : α}
    (hwf : Memory.wf d m = true) (h : vs[i]? = some v) : Memory.get d (Memory.setRun d m a vs) (a + i) = v := by
  induction vs generalizing m a i with
  | nil => simp at h
  | cons u vs ih =>
    cases i with
    | zero =>
      rw [Memory.setRun, Memory.get_setRun_other d _ _ _ (.inl (by omega))]
      simpa using (Memory.get_set_same d m a u hwf).trans (by simpa using h)
    | succ i =>
      rw [Memory.setRun, show a + (i + 1) = a + 1 + i by omega]
      exact ih _ _ (Memory.wf_set d m a u hwf) (by simpa using h)

end Sys2Proof

namespace Sys2Proof.Machine

/-! ### Error checks of codewords keep what is stored -/

/-- Whether two states of external memory store the same words, serve the same lines and let the same accesses wait. -/
def DramSys.Keeps (m n : DramSys) : Prop := n.words = m.words ∧ n.lines = m.lines ∧ n.waiting = m.waiting

theorem DramSys.Keeps.trans {m n o : DramSys} (h : m.Keeps n) (h' : n.Keeps o) : m.Keeps o :=
  ⟨h'.1.trans h.1, h'.2.1.trans h.2.1, h'.2.2.trans h.2.2⟩

theorem DramSys.check_keeps (m : DramSys) (ch cw who : Nat) : m.Keeps (m.check ch cw who).1 := by
  unfold DramSys.check
  split <;> exact ⟨rfl, rfl, rfl⟩

theorem DramSys.check_of_no_marks {m : DramSys} (h : m.bad = []) (ch cw who : Nat) : m.check ch cw who = (m, false) := by
  simp [DramSys.check, markOf, h]

theorem DramSys.readAt_keeps (m : DramSys) (l : List (Nat × Nat)) (who : Nat) : m.Keeps (m.readAt l who).1 := by
  exact List.foldlRecOn (motive := fun r : DramSys × List (Nat × Nat) => m.Keeps r.1) _ _ ⟨rfl, rfl, rfl⟩
    fun r hr c _ => hr.trans (r.1.check_keeps c.1 c.2 who)

/-- Without marks every listed word reads as it is stored. -/
theorem DramSys.readAt_of_no_marks {m : DramSys} (h : m.bad = []) (l : List (Nat × Nat)) (who : Nat) :
    m.readAt l who = (m, l.map fun x => Memory.get zeroW m.words (dramKey x.1 x.2)) := by
  have hfold (cs : List (Nat × Nat)) : cs.foldl (fun (s : DramSys × List (Nat × Nat)) c =>
      let k := s.1.check c.1 c.2 who
      (k.1, if k.2 then s.2 ++ [c] else s.2)) (m, []) = (m, []) :=
    List.foldlRecOn (motive := fun r => r = (m, [])) _ _ rfl fun r hr c _ => by
      subst hr
      simp [DramSys.check_of_no_marks h]
  simp [DramSys.readAt, hfold]

/-! ### Writes of whole codewords -/

theorem dramRun_succ (ch w n : Nat) : dramRun ch w (n + 1) = (ch, w) :: dramRun ch (w + 1) n := by
  simp [dramRun, List.range_succ_eq_map, Function.comp_def, Nat.add_assoc, Nat.add_comm 1]

@[simp] theorem dramRun_length (ch w n : Nat) : (dramRun ch w n).length = n := by simp [dramRun]

theorem dramKey_add (ch w i : Nat) : dramKey ch (w + i) = dramKey ch w + i := (Nat.add_assoc ..).symm

theorem foldl_set_dramRun (m : Memory Word) (ch w : Nat) (vs : List Word) :
    ((dramRun ch w vs.length).zip vs).foldl (fun m x => Memory.set zeroW m (dramKey x.1.1 x.1.2) x.2) m =
      Memory.setRun zeroW m (dramKey ch w) vs := by
  induction vs generalizing m w with
  | nil => simp [dramRun, Memory.setRun]
  | cons v vs ih => rw [List.length_cons, dramRun_succ, List.zip_cons_cons, List.foldl_cons, ih, Memory.setRun, dramKey_add]

/-- A run that begins and ends at codeword boundaries covers each codeword that it touches. -/
theorem dramRun_covers {ch w n : Nat} (hw : w % 4 = 0) (hn : n % 4 = 0) {c : Nat × Nat} (hc : c ∈ dramCws (dramRun ch w n)) :
    ((List.range 4).all fun i => (dramRun ch w n).contains (c.1, 4 * c.2 + i)) = true := by
  simp only [dramCws, dramRun, List.mem_eraseDups, List.mem_map, List.mem_range] at hc
  obtain ⟨x, ⟨j, hj, rfl⟩, rfl⟩ := hc
  simp only [List.all_eq_true, List.mem_range, List.contains_iff_mem, dramRun, List.mem_map, Prod.mk.injEq, true_and]
  exact fun i hi => ⟨4 * ((w + j) / 4) + i - w, by omega, by omega⟩

theorem DramSys.write_waiting (m : DramSys) (ch w : Nat) (vs : List Word) (who : Nat) : (m.write ch w vs who).waiting = m.waiting := by
  refine List.foldlRecOn (motive := fun r : DramSys => r.waiting = m.waiting) _ _ rfl fun r hr c _ => ?_
  refine Eq.trans ?_ hr
  dsimp only
  split
  · rfl
  · exact (r.check_keeps c.1 c.2 who).2.2

theorem DramSys.write_words {m : DramSys} {ch w : Nat} {vs : List Word} (hw : w % 4 = 0) (hn : vs.length % 4 = 0) (who : Nat) :
    (m.write ch w vs who).words = Memory.setRun zeroW m.words (dramKey ch w) vs := by
  have hat : ((dramRun ch w vs.length).zip vs).map (·.1) = dramRun ch w vs.length := List.map_fst_zip (by simp)
  rw [← foldl_set_dramRun]
  refine congrArg (List.foldl _ · _) (List.foldlRecOn (motive := fun r : DramSys => r.words = m.words) _ _ rfl fun r hr c hc => ?_)
  rw [hat] at hc ⊢
  rw [dramRun_covers hw hn hc]
  exact hr

/-! ### One access -/

theorem DramSys.access_read {m : DramSys} {ch : Nat} {q : DramReq} (hd : q.data = []) (hpos : 0 < q.read)
    (hin : q.word + q.read ≤ m.usable ch) : m.access ch q = m.read ch q.word q.read (reqCode q.who) := by
  simp [DramSys.access, DramSys.inRegion, hd, hin, hpos]

theorem DramSys.access_write {m : DramSys} {ch : Nat} {q : DramReq} (hr : q.read = 0) (hin : q.word + q.data.length ≤ m.usable ch) :
    m.access ch q = (m.write ch q.word q.data (reqCode q.who), []) := by
  simp [DramSys.access, DramSys.inRegion, hr, hin]

theorem DramSys.access_hole {m : DramSys} {ch : Nat} {q : DramReq} (hout : m.usable ch < q.word + max q.read q.data.length) :
    m.access ch q =
      ({ m with rep := m.rep ++ [(0x0302, (reqUnit q.who).1, (reqUnit q.who).2, false, q.word + reqCode q.who <<< 32)] },
       List.replicate q.read 0) := by
  simp [DramSys.access, DramSys.inRegion, Nat.not_le.2 hout]

theorem DramSys.access_waiting (m : DramSys) (ch : Nat) (q : DramReq) : (m.access ch q).1.waiting = m.waiting := by
  unfold DramSys.access
  dsimp only
  split
  · rfl
  · split
    · exact (m.readAt_keeps _ _).2.2
    · exact m.write_waiting ..

/-- An access that carries no data keeps every stored word. -/
theorem DramSys.access_words_of_no_data (m : DramSys) (ch : Nat) {q : DramReq} (hd : q.data = []) :
    (m.access ch q).1.words = m.words := by
  unfold DramSys.access
  dsimp only
  split
  · rfl
  · split
    · exact (m.readAt_keeps _ _).1
    · rw [hd]
      rfl

/-! ### What a channel serves -/

theorem DramSys.serve_selfRef {m : DramSys} (h : m.selfRef = true) (ch : Nat) (arrive : List DramReq) :
    m.serve ch arrive = ({ m with waiting := m.waiting ++ arrive.map fun q => (ch, q) }, none) := by
  simp [DramSys.serve, h]

/-- A single access at an idle channel is served at once. -/
theorem DramSys.serve_alone {m : DramSys} (hs : m.selfRef = false) (ht : m.trained = true) (hw : m.waiting = []) (ch : Nat) (q : DramReq) :
    m.serve ch [q] = ((m.access ch q).1, some (q, (m.access ch q).2)) := by
  have hidle : ({ m with waiting := [] } : DramSys) = m := by rw [← hw]
  have hserves : (m.selfRef || !m.trained) = false := by simp [hs, ht]
  have hfirst : dramFirst [(ch, q)] ch = some q := by simp [dramFirst]
  simp only [DramSys.serve, hw, List.map_cons, List.map_nil, List.nil_append, hserves, hfirst, List.erase_cons_head, hidle]
  rfl

/-- What the words that a served read returned put on the interfaces: a Setter core takes them one by one. -/
def dramOuts (ch : Nat) (r : Option (DramReq × List Word)) : List Out :=
  match r with
  | some (q, vs) => match q.who with
    | .core n => ((List.range vs.length).zip vs).map fun x => .core n (dramBase ch + 4 * (q.word + x.1)) x.2
    | _ => []
  | none => []

theorem State.foldl_emit {α : Type} (s : State) (o : α → Out) (l : List α) :
    l.foldl (fun s x => s.emit (o x)) s = s.withHost fun h => { h with outs := h.outs ++ l.map o } := by
  induction l generalizing s with
  | nil => simp [State.withHost]
  | cons x l ih =>
    rw [List.foldl_cons, ih]
    simp [State.emit, State.withHost, HostSys.emit]

theorem State.dramServe_eq (s : State) (ch : Nat) (arrive : List DramReq) :
    s.dramServe ch arrive [] = (s.withDram fun d => (d.serve ch arrive).1).withHost fun h =>
      { h with outs := h.outs ++ dramOuts ch (s.dram.serve ch arrive).2 } := by
  have hnone (t : State) : t = t.withHost fun h => { h with outs := h.outs ++ [] } := by simp [State.withHost]
  simp only [State.dramServe, State.strikes, List.foldl_nil]
  rcases (s.dram.serve ch arrive).2 with _ | ⟨q, vs⟩
  · exact hnone _
  · obtain ⟨who, word, read, data⟩ := q
    cases who
    case core n => exact State.foldl_emit ..
    all_goals exact hnone _

theorem dramOuts_nil (ch : Nat) (q : DramReq) : dramOuts ch (some (q, [])) = [] := by
  unfold dramOuts
  split
  next heq => cases heq; split <;> rfl
  next heq => cases heq

theorem dramOuts_core {ch n : Nat} {q : DramReq} (hq : q.who = .core n) (g : Nat → Word) (k : Nat) :
    dramOuts ch (some (q, (List.range k).map g)) =
      (List.range k).map fun i => .core n (0x1000000000 + 0x200000000 * ch + 4 * (q.word + i)) (g i) := by
  have hzip : (List.range k).zip ((List.range k).map g) = (List.range k).map fun i => (i, g i) := by
    simpa using List.zip_map' (l := List.range k) (f := id) (g := g)
  simp [dramOuts, hq, hzip, dramBase]

/-! ### Reports of external memory -/

theorem State.mem_unitReports_dram {s : State} {r : Nat × Nat × Nat × Bool × Nat} (h : r ∈ s.dram.rep) :
    ⟨r.1, r.2.1, r.2.2.1, 3, r.2.2.2.1, false, r.2.2.2.2⟩ ∈ s.unitReports := by
  have hdram : (⟨r.1, r.2.1, r.2.2.1, 3, r.2.2.2.1, false, r.2.2.2.2⟩ : Report) ∈
      s.dram.rep.map fun r => ⟨r.1, r.2.1, r.2.2.1, 3, r.2.2.2.1, false, r.2.2.2.2⟩ := List.mem_map.2 ⟨r, h, rfl⟩
  simp only [State.unitReports, List.mem_append, hdram, or_true, true_or]

/-- A report that external memory holds leaves for the health unit at the end of the command. -/
theorem State.mem_flying_of_dram_rep {s : State} {f : DramSys → DramSys} {r : Nat × Nat × Nat × Bool × Nat} (h : r ∈ (f s.dram).rep) :
    ⟨r.1, r.2.1, r.2.2.1, 3, r.2.2.2.1, false, r.2.2.2.2⟩ ∈ (s.withDram f).settle.health.flying := by
  rw [State.settle_health]
  exact List.mem_append_right _ (State.mem_unitReports_dram h)

/-! ### DRAM_ACCESS -/

theorem State.onlyChanges_dramServe (s : State) (ch : Nat) (arrive : List DramReq) :
    OnlyChanges [.dram, .reports, .out] s (s.dramServe ch arrive []).settle := by
  rw [State.dramServe_eq]
  exact ((onlyChanges_withDram s _).add_outs _).mono (by simp)

section
variable {s : State} {ch : Nat} {q : DramReq}

theorem State.dramServe_selfRef_settle (hq : s.quiet = true) (hwait : s.dram.waiting = []) (hself : s.dram.selfRef = true) :
    (s.dramServe ch [q] []).settle.dram = { s.dram with waiting := [(ch, q)], rep := [] } ∧ (s.dramServe ch [q] []).settle.out = [] := by
  obtain ⟨houts, hsent⟩ := State.quiet_outs hq
  rw [State.dramServe_eq]
  simp [DramSys.serve_selfRef hself, hwait, dramOuts, State.withHost, houts, hsent]

/-- An access that is served leaves external memory as `access` does and puts out what it returned. -/
theorem State.dramServe_alone_settle (hq : s.quiet = true) (ht : s.dram.trained = true) (hwait : s.dram.waiting = [])
    (hself : s.dram.selfRef = false) :
    (s.dramServe ch [q] []).settle.dram = { (s.dram.access ch q).1 with rep := [] } ∧
      (s.dramServe ch [q] []).settle.out = dramOuts ch (some (q, (s.dram.access ch q).2)) := by
  obtain ⟨houts, hsent⟩ := State.quiet_outs hq
  rw [State.dramServe_eq]
  simp [DramSys.serve_alone hself ht hwait, State.withHost, houts, hsent]

theorem State.dramServe_hole_flying (ht : s.dram.trained = true) (hwait : s.dram.waiting = []) (hself : s.dram.selfRef = false)
    (hout : s.dram.usable ch < q.word + max q.read q.data.length) :
    ∃ d, ⟨0x302, (reqUnit q.who).1, (reqUnit q.who).2, 3, false, false, d⟩ ∈ (s.dramServe ch [q] []).settle.health.flying := by
  refine ⟨q.word + reqCode q.who <<< 32, ?_⟩
  rw [State.dramServe_eq]
  refine State.mem_flying_of_dram_rep (s := s) (f := fun d => (d.serve ch [q]).1)
    (r := (0x302, (reqUnit q.who).1, (reqUnit q.who).2, false, q.word + reqCode q.who <<< 32)) ?_
  rw [DramSys.serve_alone hself ht hwait, DramSys.access_hole hout]
  simp

theorem DramSys.access_read_of_no_marks {m : DramSys} (hbad : m.bad = []) (hd : q.data = []) (hin : q.word + q.read ≤ m.usable ch) :
    (m.access ch q).2 = (List.range q.read).map fun i => Memory.get zeroW m.words (dramKey ch (q.word + i)) := by
  rcases Nat.eq_zero_or_pos q.read with h0 | hpos
  · rw [DramSys.access_write h0 (by simpa [hd, h0] using hin), h0]
    rfl
  · rw [DramSys.access_read hd hpos hin, DramSys.read, DramSys.readAt_of_no_marks hbad, dramRun, List.map_map]
    rfl

end

/-! ### Commands that keep what is stored (R287, R289, R290) -/

theorem State.dramServes_of {s : State} (ha : s.awake = true) (ht : s.dram.trained = true) (hs : s.dram.selfRef = false) :
    s.dramServes = true := by
  simp [State.dramServes, ha, ht, hs]

/-- A command that updates external memory without a report ends with that update, nothing held back. -/
theorem completes_withDram {i : Instr} {s : State} {f : DramSys → DramSys} (hexec : exec i s = .next (s.withDram f).settle)
    (hrep : (f s.dram).rep = s.dram.rep) : Completes i s [.dram] fun t => t.dram = { f s.dram with rep := [] } :=
  ⟨_, hexec, rfl, onlyChanges_withDram_silent s f hrep⟩

theorem completes_dqsTracking {s : State} {ch : Nat} (hch : ch < 2) (hserves : s.dramServes = true) :
    Completes (.dqsTracking ch) s [.dram] fun t => t.dram = { s.dram with dqsRuns := bumpCh ch s.dram.dqsRuns, rep := [] } :=
  completes_withDram (f := fun d => { d with dqsRuns := bumpCh ch d.dqsRuns }) (done_on (by simp [Instr.wf, hch]) hserves) rfl

theorem completes_dramRefresh {s : State} {ch : Nat} (hch : ch < 2) (hserves : s.dramServes = true) :
    Completes (.dramRefresh ch) s [.dram] fun t => t.dram = { s.dram with refreshes := bumpCh ch s.dram.refreshes, rep := [] } :=
  completes_withDram (f := fun d => { d with refreshes := bumpCh ch d.refreshes }) (done_on (by simp [Instr.wf, hch]) hserves) rfl

theorem completes_dramCrefLoss {s : State} (hserves : s.dramServes = true) :
    Completes .dramCrefLoss s [.dram] fun t => t.dram = { s.dram with selfRef := true, rep := [] } :=
  completes_withDram (f := fun d => { d with selfRef := true }) (done_on rfl hserves) rfl

theorem completes_dramCrefReturn {s : State} (ha : s.awake = true) (ht : s.dram.trained = true) (hs : s.dram.selfRef = true) :
    Completes .dramCrefReturn s [.dram, .clk] fun t => t.clk = { s.clk with crefLost := false, rep := [] } ∧
      t.dram = { s.dram with selfRef := false, dqsRuns := (s.dram.dqsRuns.1 + 1, s.dram.dqsRuns.2 + 1), rep := [] } := by
  refine ⟨_, done_on rfl (by simp [ha, ht, hs]), ⟨rfl, rfl⟩, rfl, fun p hp => ?_⟩
  cases p
  case dram | clk => simp at hp
  case time => exact ⟨rfl, rfl⟩
  all_goals rfl

/-! ### The rate code of MR4 (R289) -/

/-- The report that a channel's rate code `c` makes after the code `old`. -/
def hotReport (ch old c : Nat) : List (Nat × Nat × Nat × Bool × Nat) :=
  if 3 < c ∧ old ≤ 3 then [(0x0510, 5, ch, false, c)] else if c ≤ 3 ∧ 3 < old then [(0x0510, 5, ch, true, c)] else []

theorem DramSys.mr4_single (m : DramSys) (ch : Nat) {c : Nat} (hc : c < 8) :
    m.mr4 ch [c] = { m with rateA := if ch = 0 then c else m.rateA, rateB := if ch = 0 then m.rateB else c,
                            rep := m.rep ++ hotReport ch (if ch = 0 then m.rateA else m.rateB) c } := by
  have hmod : c % 8 = c := Nat.mod_eq_of_lt hc
  by_cases hch : ch = 0
  all_goals
    simp only [DramSys.mr4, hotReport, List.foldl_cons, List.foldl_nil, Nat.zero_max, hmod, hch, if_true, if_false, Bool.and_eq_true,
      decide_eq_true_eq, gt_iff_lt]
    split
    · rfl
    · split <;> simp

theorem completes_mr4Read {s : State} {ch c : Nat} (hch : ch < 2) (hc : c < 8) (hserves : s.dramServes = true) :
    Completes (.mr4Read ch [c]) s [.dram, .reports] fun t =>
      t.dram = { s.dram with rateA := if ch = 0 then c else s.dram.rateA, rateB := if ch = 0 then s.dram.rateB else c, rep := [] } ∧
      (let old := if ch = 0 then s.dram.rateA else s.dram.rateB
       (3 < c → old ≤ 3 → ⟨0x510, 5, ch, 3, false, false, c⟩ ∈ t.health.flying) ∧
       (c ≤ 3 → 3 < old → ⟨0x510, 5, ch, 3, true, false, c⟩ ∈ t.health.flying) ∧
       ((3 < c ↔ 3 < old) → t.health = s.settle.health)) := by
  have hrep := congrArg DramSys.rep (s.dram.mr4_single ch hc)
  refine ⟨_, done_on (by simp [Instr.wf, hch]) (by simp [hserves]), ⟨?_, fun hhot hcool => ?_, fun hcool hhot => ?_, fun hsame => ?_⟩,
    onlyChanges_withDram s _⟩
  · rw [State.settle_dram, State.withDram_dram, DramSys.mr4_single _ _ hc]
  · refine State.mem_flying_of_dram_rep (r := (0x510, 5, ch, false, c)) ?_
    simp [hrep, hotReport, hhot, hcool]
  · refine State.mem_flying_of_dram_rep (r := (0x510, 5, ch, true, c)) ?_
    simp [hrep, hotReport, hcool, hhot, Nat.not_lt.2 hcool]
  · have hnone : hotReport ch (if ch = 0 then s.dram.rateA else s.dram.rateB) c = [] := by
      rw [hotReport, if_neg (by omega), if_neg (by omega)]
    rw [hnone, List.append_nil] at hrep
    rw [State.settle_health, State.settle_health, s.unitReports_withDram _ hrep, State.withDram_health]

/-! ### The scrubber (R291) -/

theorem DramSys.scrub_keeps {m : DramSys} (hctl : m.ctl.flag 0 = true) (ht : m.trained = true) (hs : m.selfRef = false) :
    m.Keeps m.scrub ∧ m.scrub.scrubPos = if m.scrubPos < 2 * (m.usable 0 / 4) then m.scrubPos + 1 else 1 := by
  have hscrub : m.scrub = { (m.check m.scrubNext.1 m.scrubNext.2 0x700).1 with
      scrubPos := (if m.scrubPos < 2 * (m.usable 0 / 4) then m.scrubPos else 0) + 1 } := if_neg (by simp [hctl, ht, hs])
  rw [hscrub]
  exact ⟨m.check_keeps .., apply_ite (· + 1) _ _ _⟩

theorem completes_dramScrubRead {s : State} (hserves : s.dramServes = true) (hctl : s.dram.ctl.flag 0 = true)
    (ht : s.dram.trained = true) (hs : s.dram.selfRef = false) (hwait : s.dram.waiting = []) :
    Completes (.dramScrubRead []) s [.dram, .reports] fun t => t.dram.words = s.dram.words ∧ t.dram.lines = s.dram.lines ∧
      t.dram.scrubPos = (if s.dram.scrubPos < 2 * (s.dram.usable 0 / 4) then s.dram.scrubPos + 1 else 1) := by
  obtain ⟨⟨hwords, hlines, -⟩, hpos⟩ := DramSys.scrub_keeps hctl ht hs
  exact ⟨(s.withDram DramSys.scrub).settle, done_on rfl (by simp [hserves, hctl, hwait]), ⟨hwords, hlines, hpos⟩, onlyChanges_withDram s _⟩

/-- Settles O36, command by command; DRAM_ACCESS clause by clause, on what `access` does at an idle channel. -/
theorem dramChannelCommands : Obligations.DramChannelCommands := by
  refine ⟨fun s ch q hq hwf hch hqwf ha ht hwait => ?_,
    fun _ _ hch ha ht hs => completes_dqsTracking hch (State.dramServes_of ha ht hs),
    fun _ _ hch ha ht hs => completes_dramRefresh hch (State.dramServes_of ha ht hs),
    fun _ _ _ hch hc ha ht hs => completes_mr4Read hch hc (State.dramServes_of ha ht hs),
    fun _ ha ht hs hctl hwait => completes_dramScrubRead (State.dramServes_of ha ht hs) hctl ht hs hwait,
    fun _ ha ht hs => completes_dramCrefLoss (State.dramServes_of ha ht hs),
    fun _ ha ht hs => completes_dramCrefReturn ha ht hs⟩
  refine ⟨(s.dramServe ch [q] []).settle, done_on (by simp [Instr.wf, hch, hqwf]) (by simp [ha, ht]),
    ⟨State.dramServe_selfRef_settle hq hwait, fun hself => ?_⟩, s.onlyChanges_dramServe ch [q]⟩
  obtain ⟨hdram, hout⟩ := State.dramServe_alone_settle (ch := ch) (q := q) hq ht hwait hself
  simp only [hdram, hout]
  refine ⟨(s.dram.access_waiting ch q).trans hwait, fun hr hw hn hin => ?whole, s.dram.access_words_of_no_data ch,
    fun n hcore hd hbad hin => ?read, fun hd hlt => ?hole⟩
  case whole =>
    rw [DramSys.access_write hr hin]
    simp only [DramSys.write_words hw hn, dramKey_add]
    exact ⟨dramOuts_nil ch q, fun i v hv => Memory.get_setRun_at zeroW _ _ _ (State.ramsWf_dram hwf) hv,
      fun k hk => Memory.get_setRun_other zeroW _ _ _ hk⟩
  case read => rw [DramSys.access_read_of_no_marks hbad hd hin, dramOuts_core hcore]
  case hole => exact State.dramServe_hole_flying ht hwait hself (by simpa [hd] using hlt)

end Sys2Proof.Machine

/-!
SUPPORT. The signal plane (R27 to R34): the two buffers of a slot, what a write does to them, what the flip clears, what a reader sees.
-/

namespace Sys2Proof

/-- What a search by index finds after an insertion. -/
theorem Memory.find?_insert {α : Type} (m : Memory α) (a b : Nat) (v : α) :
    (Memory.insert m a v).find? (fun e => e.1 == b) = if b = a then some (a, v) else m.find? (fun e => e.1 == b) := by
  induction m with
  | nil => by_cases hb : b = a <;> simp [Memory.insert, hb, eq_comm (a := a)]
  | cons e r ih =>
    obtain ⟨k, w⟩ := e
    simp only [Memory.insert]
    by_cases hb : b = a
    · subst hb
      split
      · simp
      · split
        · simp
        next hlt hne => simp [Ne.symm hne, ih]
    · split
      · simp [hb, eq_comm (a := a)]
      · split
        next hk => simp [hb, ← hk, eq_comm (a := a)]
        · simp [hb, ih, List.find?_cons]

/-- In a list whose indexes differ a search finds the entry that the list holds. -/
theorem Memory.find?_of_mem {α : Type} {m : Memory α} {a : Nat} {v : α} (hm : (a, v) ∈ m)
    (hd : List.Pairwise (fun x y => x.1 ≠ y.1) m) : m.find? (fun e => e.1 == a) = some (a, v) := by
  induction m with
  | nil => simp at hm
  | cons e r ih =>
    obtain ⟨hhead, htail⟩ := List.pairwise_cons.1 hd
    rcases List.mem_cons.1 hm with rfl | hr
    · simp
    · rw [List.find?_cons_of_neg (by simpa using hhead _ hr), ih hr htail]

/-- A search outside a cleared range finds what it found before. -/
theorem Memory.find?_clearRun {α : Type} (m : Memory α) (a n b : Nat) (h : b < a ∨ a + n ≤ b) :
    (Memory.clearRun m a n).find? (fun e => e.1 == b) = m.find? (fun e => e.1 == b) := by
  rw [Memory.clearRun, List.find?_filter]
  congr 1
  funext e
  by_cases he : e.1 = b <;> simp [he, h]

end Sys2Proof

namespace Sys2Proof.Machine

/-! ### Slots and their buffers -/

/-- R31: the two buffers of a slot lie apart. -/
theorem planeKey_succ_ne (k n i j : Nat) (hi : i < planeSize) (hj : j < planeSize) : planeKey k (n + 1) i ≠ planeKey k n j := by
  unfold planeKey planeSize at *
  omega

theorem planeKey_succ_succ (k n i : Nat) : planeKey k (n + 1 + 1) i = planeKey k n i := by
  simp [planeKey, Nat.add_assoc]

/-- R32: a slot of the plane in the previous buffer reads what that buffer holds. -/
theorem State.readSid?_eq (s : State) (k : Nat) {sid : Nat} (h0 : 0 < sid) (hn : sid < planeSize) :
    s.readSid? k sid = (s.plane.find? fun e => e.1 == planeKey k (s.period k + 1) sid).map fun e => e.2.val :=
  if_neg (by omega)

/-! ### Writes -/

theorem State.writeSid_outside (s : State) (k kind inst : Nat) (v : Word) {sid : Nat} (h : sid = 0 ∨ planeSize ≤ sid) :
    s.writeSid k kind inst sid v = s := if_pos h

/-- R33: a write into a slot that holds nothing. -/
theorem State.writeSid_free_slot {s : State} {k sid : Nat} (kind inst : Nat) (v : Word) (h0 : 0 < sid) (hn : sid < planeSize)
    (h : (s.plane.find? fun e => e.1 == planeKey k (s.period k) sid) = none) :
    s.writeSid k kind inst sid v = { s with plane := Memory.insert s.plane (planeKey k (s.period k) sid) ⟨v, kind, inst⟩ } := by
  rw [State.writeSid, if_neg (by omega)]
  simp only [h]

/-- R34: a write into a slot that holds another writer's value. -/
theorem State.writeSid_conflict {s : State} {k kind inst sid key : Nat} {o : PCell} (v : Word) (h0 : 0 < sid) (hn : sid < planeSize)
    (h : (s.plane.find? fun e => e.1 == planeKey k (s.period k) sid) = some (key, o)) (hne : ¬(o.kind = kind ∧ o.inst = inst)) :
    s.writeSid k kind inst sid v =
      ({ s with plane := Memory.insert s.plane (planeKey k (s.period k) sid)
                  (if kind < o.kind ∨ kind = o.kind ∧ inst < o.inst then ⟨v, kind, inst⟩ else o) } : State).notes
        [conflictOf k o.kind o.inst, conflictOf k kind inst] := by
  rw [State.writeSid, if_neg (by omega)]
  simp only [h, if_neg hne]

/-- Every write of a slot puts something into its current buffer, and changes no other slot. -/
theorem State.writeSid_plane (s : State) (k kind inst : Nat) (v : Word) {sid : Nat} (h0 : 0 < sid) (hn : sid < planeSize) :
    ∃ c, (s.writeSid k kind inst sid v).plane = Memory.insert s.plane (planeKey k (s.period k) sid) c := by
  cases h : s.plane.find? fun e => e.1 == planeKey k (s.period k) sid with
  | none => exact ⟨_, by rw [State.writeSid_free_slot kind inst v h0 hn h]⟩
  | some e =>
    obtain ⟨key, o⟩ := e
    by_cases hsame : o.kind = kind ∧ o.inst = inst
    · exact ⟨⟨v, kind, inst⟩, by rw [State.writeSid, if_neg (by omega)]; simp only [h, if_pos hsame]⟩
    · exact ⟨_, by rw [State.writeSid_conflict v h0 hn h hsame, State.notes_plane]⟩

theorem State.writeSid_period (s : State) (k kind inst sid j : Nat) (v : Word) : (s.writeSid k kind inst sid v).period j = s.period j := by
  simp [State.period, State.dom]

/-- R31: a write goes to the current buffer, so that no reader of the domain sees it. -/
theorem State.readSid_writeSid (s : State) (k kind inst sid i : Nat) (v : Word) :
    (s.writeSid k kind inst sid v).readSid k i = s.readSid k i := by
  by_cases hs : sid = 0 ∨ planeSize ≤ sid
  · rw [State.writeSid_outside s k kind inst v hs]
  by_cases hi : i = 0 ∨ planeSize ≤ i
  · simp [State.readSid, State.readSid?, hi]
  rw [not_or, Nat.not_le] at hs hi
  obtain ⟨c, hc⟩ := s.writeSid_plane k kind inst v (Nat.pos_of_ne_zero hs.1) hs.2
  rw [State.readSid, State.readSid, State.readSid?_eq _ k (Nat.pos_of_ne_zero hi.1) hi.2, State.readSid?_eq _ k (Nat.pos_of_ne_zero hi.1) hi.2,
    hc, State.writeSid_period, Memory.find?_insert, if_neg (planeKey_succ_ne k _ _ _ hi.2 hs.2)]

/-! ### The statements on the plane -/

/-- Settles O18: the flip clears the range of the buffer, a write inserts into it, a read searches the other one. -/
theorem planeValidBits : Obligations.PlaneValidBits := by
  unfold Obligations.PlaneValidBits
  intro valid s k sid h0 hn
  refine ⟨fun n => ?_, fun c i v => ?_, fun h => ?_, fun w hw hd => ?_⟩
  · rw [Bool.eq_false_iff]
    intro hany
    obtain ⟨e, he, hkey⟩ := List.any_eq_true.1 hany
    have hkept := (List.mem_filter.1 he).2
    simp only [beq_iff_eq] at hkey
    simp only [hkey, planeKey, Bool.or_eq_true, decide_eq_true_eq] at hkept
    omega
  · obtain ⟨d, hd⟩ := s.writeSid_plane k c i v h0 hn
    have hfound := Memory.find?_insert s.plane (planeKey k (s.period k) sid) (planeKey k (s.period k) sid) d
    rw [if_pos rfl, ← hd] at hfound
    exact List.any_eq_true.2 ⟨_, List.mem_of_find?_eq_some hfound, beq_self_eq_true _⟩
  · have hnone : (s.plane.find? fun e => e.1 == planeKey k (s.period k + 1) sid) = none := by
      simpa [valid] using h
    rw [State.readSid, State.readSid?_eq s k h0 hn, hnone]
    rfl
  · rw [State.readSid, State.readSid?_eq s k h0 hn, Memory.find?_of_mem hw hd]
    rfl

/-! ### Records of the rate domains -/

theorem State.unitsWf_doms {s : State} (h : s.unitsWf = true) : Memory.wf (fun _ => Dom.reset) s.clk.doms = true := by
  simp only [State.unitsWf, Bool.and_eq_true, and_assoc] at h
  obtain ⟨-, -, -, hdoms, -⟩ := h
  exact hdoms

theorem State.dom_modDom_same {s : State} (h : Memory.wf (fun _ => Dom.reset) s.clk.doms = true) (k : Nat) (f : Dom → Dom) :
    (s.withClk fun y => y.modDom k f).dom k = f (s.dom k) := Memory.get_set_same _ _ _ _ h

/-- Settles O19: the buffer that a write fills is the one that reads address once the period has gone on by one. -/
theorem planeWriteIsReadInTheNextPeriod : Obligations.PlaneWriteIsReadInTheNextPeriod := by
  refine ⟨fun s k c i sid v hwf _ hnext h0 hn hfree => ?_, fun s k c i v => ⟨s.writeSid_outside k c i v (.inl rfl), rfl⟩⟩
  intro t u
  refine ⟨fun sid' => s.readSid_writeSid k c i sid sid' v, ?_⟩
  have hnone : (s.plane.find? fun e => e.1 == planeKey k (s.period k) sid) = none := by simpa using hfree
  have ht : t.plane = Memory.insert s.plane (planeKey k (s.period k) sid) ⟨v, c, i⟩ :=
    congrArg State.plane (State.writeSid_free_slot c i v h0 hn hnone)
  have htd : t.dom k = s.dom k := by simp [t, State.dom]
  have hu : u.dom k = { s.dom k with next := (s.dom k).next + 1 } := by
    rw [← htd]
    exact State.dom_modDom_same (by simpa [t] using State.unitsWf_doms hwf) k _
  have hperiod : u.period k = s.period k + 1 := by
    simp only [State.period, hu, Dom.count]
    omega
  have hplane : u.plane = Memory.clearRun t.plane (planeKey k (s.period k + 1) 0) planeSize := by
    rw [← State.writeSid_period s k c i sid k v]
    rfl
  have hkept : planeKey k (s.period k) sid < planeKey k (s.period k + 1) 0 ∨
      planeKey k (s.period k + 1) 0 + planeSize ≤ planeKey k (s.period k) sid := by
    unfold planeKey planeSize at *
    omega
  rw [State.readSid, State.readSid?_eq u k h0 hn, hperiod, planeKey_succ_succ, hplane, Memory.find?_clearRun _ _ _ _ hkept, ht,
    Memory.find?_insert, if_pos rfl]
  rfl

/-- Settles O20: the comparison of R34 is the one by which the slot keeps a cell, and both reports are noted. -/
theorem planeConflictKeepsTheFirstOfR34 : Obligations.PlaneConflictKeepsTheFirstOfR34 := by
  intro s k kind inst sid v o h0 hn hfind hne t key
  have ht : t = _ := State.writeSid_conflict v h0 hn hfind hne
  have hkept : Memory.get noCell t.plane key = if kind < o.kind ∨ kind = o.kind ∧ inst < o.inst then ⟨v, kind, inst⟩ else o := by
    rw [ht, State.notes_plane, Memory.get_insert, if_pos rfl]
  refine ⟨fun h => by rw [hkept, if_pos h], fun h => by rw [hkept, if_neg (by omega)], ?_⟩
  rw [ht]
  exact ⟨rfl, rfl, rfl⟩

end Sys2Proof.Machine

/-!
SUPPORT. A tick of a rate domain (R31, R305, R307, R461): what it counts, and that the work it starts in the units moves no time.
-/

namespace Sys2Proof.Machine

/-! ### The timebase -/

/-- What a tick's work in the units leaves alone: the queue, the time and the clock system. -/
def State.timebase (s : State) : List Instr × Nat × Nat × ClkSys := (s.pending, s.us, s.ns, s.clk)

@[simp] theorem State.withMem_timebase (s : State) (f : MemSys → MemSys) : (s.withMem f).timebase = s.timebase := rfl
@[simp] theorem State.withDram_timebase (s : State) (f : DramSys → DramSys) : (s.withDram f).timebase = s.timebase := rfl
@[simp] theorem State.withPorts_timebase (s : State) (f : Serial → Serial) : (s.withPorts f).timebase = s.timebase := rfl
@[simp] theorem State.withLinks_timebase (s : State) (f : LinkSys → LinkSys) : (s.withLinks f).timebase = s.timebase := rfl
@[simp] theorem State.withNet_timebase (s : State) (f : NetSys → NetSys) : (s.withNet f).timebase = s.timebase := rfl
@[simp] theorem State.withHost_timebase (s : State) (f : HostSys → HostSys) : (s.withHost f).timebase = s.timebase := rfl
@[simp] theorem State.withSetter_timebase (s : State) (f : SetterSys → SetterSys) : (s.withSetter f).timebase = s.timebase := rfl
@[simp] theorem State.withClasp_timebase (s : State) (f : Clasp → Clasp) : (s.withClasp f).timebase = s.timebase := rfl
@[simp] theorem State.withPower_timebase (s : State) (f : Power → Power) : (s.withPower f).timebase = s.timebase := rfl
@[simp] theorem State.withHealth_timebase (s : State) (f : Health → Health) : (s.withHealth f).timebase = s.timebase := rfl
@[simp] theorem State.setFacet_timebase (s : State) (n : Nat) (f : Facet) : (s.setFacet n f).timebase = s.timebase := rfl
@[simp] theorem State.setTile_timebase (s : State) (n : Nat) (t : Tile) : (s.setTile n t).timebase = s.timebase := rfl
@[simp] theorem State.modFacet_timebase (s : State) (n : Nat) (g : Facet → Facet) : (s.modFacet n g).timebase = s.timebase := rfl
@[simp] theorem State.modTile_timebase (s : State) (n : Nat) (g : Tile → Tile) : (s.modTile n g).timebase = s.timebase := rfl
@[simp] theorem State.ungate_timebase (s : State) (kind n : Nat) : (s.ungate kind n).timebase = s.timebase := rfl
@[simp] theorem State.notes_timebase (s : State) (rs : List Report) : (s.notes rs).timebase = s.timebase := rfl
@[simp] theorem State.emit_timebase (s : State) (o : Out) : (s.emit o).timebase = s.timebase := rfl
@[simp] theorem State.modArmed_timebase (s : State) (i : Nat) (a : Armed) : (s.modArmed i a).timebase = s.timebase := rfl
@[simp] theorem State.complete_timebase (s : State) (e : Entry) (c : Compl) : (s.complete e c).timebase = s.timebase := rfl

@[simp] theorem State.writeSid_timebase (s : State) (k c i sid : Nat) (v : Word) : (s.writeSid k c i sid v).timebase = s.timebase := by
  simp [State.timebase]
@[simp] theorem State.writeSids_timebase (s : State) (k c i : Nat) (ws : List (Nat × Word)) :
    (s.writeSids k c i ws).timebase = s.timebase := by
  simp [State.timebase]

/-- A fold of steps that leave the timebase leaves it. -/
theorem timebase_foldl {α : Type} {f : State → α → State} (h : ∀ s x, (f s x).timebase = s.timebase) (l : List α) (s : State) :
    (l.foldl f s).timebase = s.timebase := foldl_keeps State.timebase f h l s

/-! ### Late work (R33, R40, R200) -/

theorem State.latePosts_timebase (s : State) (f m k : Nat) : (s.latePosts f m k).timebase = s.timebase := by
  simp [State.latePosts, apply_ite State.timebase]

@[simp] theorem State.tileOut_timebase (s : State) (k n : Nat) (o : TileOut) : (s.tileOut k n o).timebase = s.timebase :=
  (State.writeSids_timebase ..).trans (State.setTile_timebase ..)

theorem State.lateSinks_timebase (s : State) (n m c k : Nat) : (s.lateSinks n m c k).timebase = s.timebase := by
  simp [State.lateSinks, apply_ite State.timebase]

theorem State.allLate_timebase (s : State) (k : Nat) (late : List (Nat × Nat)) : (s.allLate k late).timebase = s.timebase :=
  (timebase_foldl (fun _ _ => State.lateSinks_timebase ..) _ _).trans (timebase_foldl (fun _ _ => State.latePosts_timebase ..) _ _)

/-! ### Units (R88 to R96, R190, R197, R341, R380) -/

@[simp] theorem State.constTick_timebase (s : State) (k : Nat) : (s.constTick k).timebase = s.timebase :=
  timebase_foldl (fun _ _ => State.writeSid_timebase ..) _ _

@[simp] theorem State.facetTick_timebase (s : State) (k n : Nat) : (s.facetTick k n).timebase = s.timebase := rfl

@[simp] theorem State.publish_timebase (s : State) (k t : Nat) (x : Nat × Nat) : (s.publish k t x).timebase = s.timebase :=
  State.writeSid_timebase ..

@[simp] theorem State.tileTick_timebase (s : State) (k n : Nat) : (s.tileTick k n).timebase = s.timebase := by
  refine timebase_foldl (fun s e => ?_) _ _
  split
  · exact (timebase_foldl (fun _ _ => State.publish_timebase ..) _ _).trans (State.setTile_timebase ..)
  · rfl

@[simp] theorem State.rxTick_timebase (s : State) (k n : Nat) : (s.rxTick k n).timebase = s.timebase :=
  timebase_foldl (fun _ _ => State.writeSid_timebase ..) _ _

@[simp] theorem State.rxOwnTick_timebase (s : State) (k ns : Nat) : (s.rxOwnTick k ns).timebase = s.timebase := by
  refine timebase_foldl (fun s i => ?_) _ _
  dsimp only
  split <;> rfl

@[simp] theorem State.linkTick_timebase (s : State) (k ns : Nat) : (s.linkTick k ns).timebase = s.timebase :=
  timebase_foldl (fun _ _ => State.writeSid_timebase ..) _ _

/-! ### Ports and streams (R344, R361, R435 to R438) -/

@[simp] theorem State.portInTick_timebase (s : State) (k ns : Nat) : (s.portInTick k ns).timebase = s.timebase := by
  refine timebase_foldl (fun s p => ?_) _ _
  dsimp only
  split
  · rfl
  · exact timebase_foldl (fun _ _ => State.writeSid_timebase ..) _ _

@[simp] theorem State.txTick_timebase (s : State) (k n : Nat) : (s.txTick k n).timebase = s.timebase := by
  refine timebase_foldl (fun s i => ?_) _ _
  dsimp only
  split <;> rfl

@[simp] theorem State.lifeReleases_timebase (s : State) (k : Nat) : (s.lifeReleases k).timebase = s.timebase := by
  refine timebase_foldl (fun s p => ?_) _ _
  simp [apply_ite State.timebase]

@[simp] theorem State.mergeOut_timebase (s : State) (k p : Nat) (slots : List (Option Nat)) :
    (s.mergeOut k p slots).1.timebase = s.timebase := by
  simp only [State.mergeOut]
  split <;> rfl

theorem State.portOut_timebase (s : State) (k n p : Nat) : (s.portOut k n p).timebase = s.timebase := by
  simp only [State.portOut]
  split
  · rfl
  · split
    · rfl
    · rw [apply_ite State.timebase, State.emit_timebase, State.mergeOut_timebase, ite_self]
      rfl

@[simp] theorem State.portOutTick_timebase (s : State) (k n : Nat) : (s.portOutTick k n).timebase = s.timebase :=
  timebase_foldl (fun _ _ => State.portOut_timebase ..) _ _

/-! ### Taps and meters (R413 to R417) -/

@[simp] theorem State.xramRead_timebase (s : State) (p a n : Nat) : (s.xramRead p a n).1.timebase = s.timebase :=
  foldl_keeps (fun r : State × List Byte => r.1.timebase) _ (fun _ _ => by rfl) _ _

@[simp] theorem State.tapRead_timebase (s : State) (p t : Nat) (b : Nat × Nat) : (s.tapRead p t b).timebase = s.timebase := by
  simp [State.tapRead, apply_ite State.timebase]

@[simp] theorem State.tapUnd_timebase (s : State) (p : Nat) (was : Bool) (t : Nat) (begins : Bool) (k : Nat) :
    (s.tapUnd p was t begins k).timebase = s.timebase := by
  simp [State.tapUnd, apply_ite State.timebase]

theorem State.tapTick_timebase (s : State) (k n p t : Nat) : (s.tapTick k n p t).timebase = s.timebase := by
  simp only [State.tapTick]
  split
  · split
    · rfl
    · split
      · rw [timebase_foldl (fun _ _ => State.writeSid_timebase ..), State.tapUnd_timebase, State.withHost_timebase,
          timebase_foldl (fun _ _ => State.tapRead_timebase ..), State.withHost_timebase]
      · rfl
  · rfl

@[simp] theorem State.tapsTick_timebase (s : State) (k n : Nat) : (s.tapsTick k n).timebase = s.timebase :=
  timebase_foldl (fun _ _ => timebase_foldl (fun _ _ => State.tapTick_timebase ..) _ _) _ _

@[simp] theorem State.meterTick_timebase (s : State) (k : Nat) : (s.meterTick k).timebase = s.timebase :=
  timebase_foldl (fun _ _ => by rfl) _ _

/-- R31: everything that runs on the core clock leaves the timebase. -/
theorem State.unitTick_timebase (s : State) (k n ns : Nat) : (s.unitTick k n ns).timebase = s.timebase := by
  have hstart (t : State) : ({ t with ports := t.ports.startTick k n ns (t.hz k) } : State).timebase = t.timebase := rfl
  simp [State.unitTick, apply_ite State.timebase, hstart]

/-! ### Epochs under way (R243, R244, R250 to R255, R408) -/

@[simp] theorem State.startNode_timebase (s : State) (part : Nat) (g : Graph) (dup : List Chan) (k : Nat) (n : GNode) :
    (s.startNode part g dup k n).timebase = s.timebase := by
  simp only [State.startNode]
  split
  · rfl
  · split
    · split <;> rfl
    · simp [apply_ite State.timebase]

@[simp] theorem State.startWork_timebase (s : State) (part : Nat) (g : Graph) (dup : List Chan) (k : Nat) (own : Bool) :
    (s.startWork part g dup k own).timebase = s.timebase :=
  timebase_foldl (fun s n => by simp [apply_ite State.timebase]) _ _

@[simp] theorem State.placeLive_timebase (s : State) (w : Placed) : (s.placeLive w).timebase = s.timebase :=
  (timebase_foldl (fun _ _ => by rfl) _ _).trans (timebase_foldl (fun _ _ => by rfl) _ _)

@[simp] theorem State.swapLines_timebase (s : State) (gone new : List LineRec) (n : Nat) : (s.swapLines gone new n).timebase = s.timebase :=
  (timebase_foldl (fun _ _ => by dsimp only; split <;> rfl) _ _).trans (timebase_foldl (fun _ _ => by rfl) _ _)

@[simp] theorem State.dropEntries_timebase (s : State) (was now : Placed) : (s.dropEntries was now).timebase = s.timebase :=
  timebase_foldl (fun _ _ => timebase_foldl (fun _ _ => by split <;> rfl) _ _) _ _

@[simp] theorem State.takeWork_timebase (s : State) (p : Nat) (w : Placed) (n : Nat) : (s.takeWork p w n).timebase = s.timebase := by
  simp only [State.takeWork]
  rw [timebase_foldl (fun _ _ => by split <;> rfl), timebase_foldl (fun _ _ => by split <;> rfl)]
  simp

@[simp] theorem State.enterWork_timebase (s : State) (a : Armed) (k n : Nat) : (s.enterWork a k n).timebase = s.timebase := by
  simp [State.enterWork, apply_ite State.timebase]

@[simp] theorem State.setSink_timebase (s : State) (part : Nat) (g : Graph) (n : GNode) (ch : Nat) (r : Reader) :
    (s.setSink part g n ch r).timebase = s.timebase := by
  simp only [State.setSink]
  split
  · split <;> rfl
  · simp [apply_ite State.timebase]

@[simp] theorem State.putSink_timebase (s : State) (a : Armed) (x : SinkChg) (r : Reader) : (s.putSink a x r).timebase = s.timebase := by
  unfold State.putSink
  split
  · exact State.setSink_timebase ..
  · rfl

@[simp] theorem State.turnSinks_timebase (s : State) (a : Armed) (k : Nat) : (s.turnSinks a k).timebase = s.timebase :=
  timebase_foldl (fun _ _ => State.putSink_timebase ..) _ _

@[simp] theorem State.pushOrWait_timebase (s : State) (g : GainWait) : (s.pushOrWait g).timebase = s.timebase := by
  simp [State.pushOrWait, apply_ite State.timebase]

@[simp] theorem State.drainGains_timebase (s : State) : s.drainGains.timebase = s.timebase := by
  unfold State.drainGains
  split
  · rfl
  · exact timebase_foldl (fun _ _ => State.pushOrWait_timebase ..) _ _

@[simp] theorem State.idleAgain_timebase (s : State) : s.idleAgain.timebase = s.timebase := by
  rw [State.idleAgain, apply_ite State.timebase, State.withPower_timebase, ite_self]

@[simp] theorem State.loadFacet_timebase (s : State) (f k t : Nat) (all : Bool) : (s.loadFacet f k t all).timebase = s.timebase := by
  simp only [State.loadFacet]
  split
  · simp [apply_ite State.timebase]
  · split
    · exact State.setFacet_timebase ..
    · rfl

@[simp] theorem State.loadTile_timebase (s : State) (n k t : Nat) (all : Bool) : (s.loadTile n k t all).timebase = s.timebase := by
  simp [State.loadTile, apply_ite State.timebase]

@[simp] theorem State.loadUnits_timebase (s : State) (fs ts : List Nat) (k t : Nat) (all : Bool) :
    (s.loadUnits fs ts k t all).timebase = s.timebase :=
  (timebase_foldl (fun _ _ => by simp) _ _).trans (timebase_foldl (fun _ _ => by simp) _ _)

@[simp] theorem State.selfArm_timebase (s : State) (p : Nat) (e : Entry) (law : Law) (new : Graph) (number : Nat) (sinks : List SinkChg) :
    (s.selfArm p e law new number sinks).timebase = s.timebase :=
  timebase_foldl (fun _ _ => State.loadUnits_timebase ..) _ _

@[simp] theorem State.removeGraph_timebase (s : State) (p : Nat) (e : Entry) : (s.removeGraph p e).timebase = s.timebase := by
  simp [State.removeGraph, apply_ite State.timebase]

@[simp] theorem State.cleanup_timebase (s : State) : s.cleanup.timebase = s.timebase := by
  refine timebase_foldl (fun s x => ?_) _ _
  simp [apply_ite State.timebase]

/-! ### Tick counts -/

/-- In a canonical store of domains `c'` has the tick counts of `c`. -/
def ClkSys.SameCounts (c c' : ClkSys) : Prop :=
  Memory.wf (fun _ => Dom.reset) c.doms = true →
    Memory.wf (fun _ => Dom.reset) c'.doms = true ∧ ∀ j, (c'.dom j).next = (c.dom j).next

theorem ClkSys.SameCounts.refl (c : ClkSys) : c.SameCounts c := fun h => ⟨h, fun _ => rfl⟩

theorem ClkSys.SameCounts.trans {c d e : ClkSys} (h : c.SameCounts d) (h' : d.SameCounts e) : c.SameCounts e := fun hwf => by
  obtain ⟨hd, hnext⟩ := h hwf
  obtain ⟨he, hnext'⟩ := h' hd
  exact ⟨he, fun j => (hnext' j).trans (hnext j)⟩

theorem ClkSys.dom_setDom {c : ClkSys} (h : Memory.wf (fun _ => Dom.reset) c.doms = true) (k j : Nat) (d : Dom) :
    (c.setDom k d).dom j = if j = k then d else c.dom j := Memory.get_set _ _ _ _ _ h

/-- A change of a domain's record that keeps its tick count. -/
theorem ClkSys.sameCounts_setDom (c : ClkSys) (k : Nat) {d : Dom} (hd : d.next = (c.dom k).next) : c.SameCounts (c.setDom k d) :=
  fun hwf => ⟨Memory.wf_set _ _ _ _ hwf, fun j => by rw [ClkSys.dom_setDom hwf]; split <;> simp_all⟩

theorem ClkSys.SameCounts.setDom {b c : ClkSys} (h : b.SameCounts c) {k : Nat} {d : Dom} (hd : d.next = (c.dom k).next) :
    b.SameCounts (c.setDom k d) := h.trans (c.sameCounts_setDom k hd)

theorem ClkSys.SameCounts.note {b c : ClkSys} (h : b.SameCounts c) {cause cls inst : Nat} {clear : Bool} {detail : Int} :
    b.SameCounts (c.note cause cls inst clear detail) := h

theorem ClkSys.SameCounts.ite {b c d : ClkSys} {p : Prop} [Decidable p] (hc : b.SameCounts c) (hd : b.SameCounts d) :
    b.SameCounts (if p then c else d) := by
  split
  · exact hc
  · exact hd

theorem ClkSys.SameCounts.foldl {α : Type} {f : ClkSys → α → ClkSys} (h : ∀ (c : ClkSys) x, c.SameCounts (f c x)) (l : List α) (c : ClkSys) :
    c.SameCounts (l.foldl f c) := by
  induction l generalizing c with
  | nil => exact ClkSys.SameCounts.refl c
  | cons x r ih => exact (h c x).trans (ih (f c x))

theorem ClkSys.endHold_sameCounts (c : ClkSys) (k : Nat) : c.SameCounts (c.endHold k) := by
  unfold ClkSys.endHold
  split
  · exact ClkSys.SameCounts.note (c.sameCounts_setDom k (by rfl))
  · exact ClkSys.SameCounts.refl c

theorem ClkSys.endClamp_sameCounts (c : ClkSys) (k : Nat) : c.SameCounts (c.endClamp k) := by
  unfold ClkSys.endClamp
  split
  · exact ClkSys.SameCounts.note (c.sameCounts_setDom k (by rfl))
  · exact ClkSys.SameCounts.refl c

theorem ClkSys.domReturn_sameCounts (c : ClkSys) (k : Nat) (e : Int) : c.SameCounts (c.domReturn k e) := by
  have hbase : c.SameCounts ((c.endClamp k).endHold k) := (c.endClamp_sameCounts k).trans (ClkSys.endHold_sameCounts _ k)
  simp only [ClkSys.domReturn]
  split
  · exact ClkSys.SameCounts.refl c
  · split
    · split
      · exact hbase.setDom rfl
      · exact ClkSys.SameCounts.note (hbase.setDom (by rfl))
    · exact hbase.setDom rfl
    · exact hbase.setDom rfl

/-- R315, R318: a POLICY write or a command that acts at a tick changes no tick count. -/
theorem ClkSys.tickPolicy_sameCounts (c : ClkSys) (k : Nat) (e : Int) : c.SameCounts (c.tickPolicy k e) := by
  have hclear : c.SameCounts (c.setDom k { c.dom k with policyNew := false, cmd := none }) := c.sameCounts_setDom k rfl
  have hpolicy {p : Prop} [Decidable p] : c.SameCounts (if p then ClkSys.domReturn (c.setDom k { c.dom k with policyNew := false, cmd := none }) k e
      else c.setDom k { c.dom k with policyNew := false, cmd := none }) :=
    .ite (hclear.trans (ClkSys.domReturn_sameCounts _ k e)) hclear
  simp only [ClkSys.tickPolicy]
  cases (c.dom k).cmd with
  | none => exact hpolicy
  | some step =>
    refine .ite (.ite ?_ ?_) (ClkSys.SameCounts.setDom hpolicy rfl)
    · exact ClkSys.SameCounts.setDom (.trans hpolicy (ClkSys.endHold_sameCounts _ k)) rfl
    · exact ClkSys.SameCounts.setDom (.trans hpolicy (ClkSys.endHold_sameCounts _ k)) rfl

/-- R317: a step changes no tick count. -/
theorem ClkSys.tickStep_sameCounts (c : ClkSys) (k : Nat) : c.SameCounts (c.tickStep k) := by
  simp only [ClkSys.tickStep]
  split
  · exact c.sameCounts_setDom k rfl
  · split
    · exact ClkSys.SameCounts.note (c.sameCounts_setDom k (by rfl))
    · exact ClkSys.SameCounts.refl c

/-- R305: a tick counts once in its domain and in no other. -/
theorem ClkSys.tick_next {c : ClkSys} (hwf : Memory.wf (fun _ => Dom.reset) c.doms = true) (k ns : Nat) (e : Int) :
    Memory.wf (fun _ => Dom.reset) (c.tick k ns e).doms = true ∧
      ∀ j, ((c.tick k ns e).dom j).next = if j = k then (c.dom k).next + 1 else (c.dom j).next := by
  have hrest {c' : ClkSys} {d : Dom} (e' : Int) (hc : c'.doms = (c.setDom k d).doms) (hd : d.next = (c.dom k).next + 1) :
      Memory.wf (fun _ => Dom.reset) ((c'.tickPolicy k e').tickStep k).doms = true ∧
        ∀ j, (((c'.tickPolicy k e').tickStep k).dom j).next = if j = k then (c.dom k).next + 1 else (c.dom j).next := by
    obtain ⟨hwf', hnext⟩ := (c'.tickPolicy_sameCounts k e').trans (ClkSys.tickStep_sameCounts _ k) (hc ▸ Memory.wf_set _ _ _ _ hwf)
    refine ⟨hwf', fun j => (hnext j).trans ?_⟩
    rw [ClkSys.dom, hc, ← hd, ← apply_ite Dom.next]
    exact congrArg Dom.next (ClkSys.dom_setDom hwf k j d)
  simp only [ClkSys.tick]
  exact hrest _ rfl rfl

/-- `t` comes of `s` without time passing: the queue and the time stay, and so do the tick counts. -/
structure State.SameTime (s t : State) : Prop where
  pending : t.pending = s.pending
  us : t.us = s.us
  ns : t.ns = s.ns
  counts : s.clk.SameCounts t.clk

theorem State.SameTime.trans {s t u : State} (h : s.SameTime t) (h' : t.SameTime u) : s.SameTime u :=
  ⟨h'.pending.trans h.pending, h'.us.trans h.us, h'.ns.trans h.ns, h.counts.trans h'.counts⟩

theorem State.sameTime_of_timebase {s t : State} (h : t.timebase = s.timebase) : s.SameTime t := by
  simp only [State.timebase, Prod.mk.injEq] at h
  obtain ⟨hpending, hus, hns, hclk⟩ := h
  exact ⟨hpending, hus, hns, hclk ▸ ClkSys.SameCounts.refl _⟩

theorem State.SameTime.refl (s : State) : s.SameTime s := State.sameTime_of_timebase rfl

theorem State.sameTime_withClk (s : State) {f : ClkSys → ClkSys} (h : s.clk.SameCounts (f s.clk)) : s.SameTime (s.withClk f) :=
  ⟨rfl, rfl, rfl, h⟩

theorem State.sameTime_foldl {α : Type} {f : State → α → State} (h : ∀ (s : State) x, s.SameTime (f s x)) (l : List α) (s : State) :
    s.SameTime (l.foldl f s) := by
  induction l generalizing s with
  | nil => exact State.SameTime.refl s
  | cons x r ih => exact (h s x).trans (ih (f s x))

/-- R307: domains that an epoch undeclares keep their counts. -/
theorem State.epochForce_sameTime (s : State) (a : Armed) : s.SameTime (s.epochForce a) := by
  refine (State.sameTime_withClk s (f := fun c => ((List.range 3).filter a.undecl.testBit).foldl (fun c k =>
    c.modDom k fun d => { d with declared := false }) c) (ClkSys.SameCounts.foldl (fun c k => c.sameCounts_setDom k (by rfl)) _ _)).trans
    (State.sameTime_of_timebase (t := s.epochForce a) ?_)
  simp only [State.epochForce, apply_ite State.timebase, State.withHealth_timebase, State.idleAgain_timebase, State.withSetter_timebase,
    ite_self]

/-- The end of an epoch's tick, where it may come in force. -/
theorem State.sameTime_force {s t : State} (a : Armed) (p : Prop) [Decidable p] (h : t.timebase = s.timebase) :
    s.SameTime (if p then t.epochForce a else t) := by
  split
  · exact (State.sameTime_of_timebase h).trans (t.epochForce_sameTime a)
  · exact State.sameTime_of_timebase h

theorem State.armedTick_sameTime (s : State) (i : Nat) (a : Armed) (k n : Nat) : s.SameTime (s.armedTick i a k n) := by
  simp only [State.armedTick]
  split
  · exact State.SameTime.refl s
  · exact State.sameTime_force _ _ (by simp [apply_ite State.timebase])

theorem State.commitTick_sameTime (s : State) (k n : Nat) : s.SameTime (s.commitTick k n) := by
  refine State.sameTime_foldl (fun t i => ?_) _ _
  split
  · exact State.armedTick_sameTime ..
  · exact State.SameTime.refl t

/-! ### The tick of a domain (R31, R305, R461) -/

theorem State.stepBegins_sameTime (s : State) (k : Nat) (was : DomPhase) : s.SameTime (s.stepBegins k was) := by
  simp only [State.stepBegins]
  split
  · exact ⟨rfl, rfl, rfl, s.clk.sameCounts_setDom k (by rfl)⟩
  · exact State.SameTime.refl s

/-- Time is the tick's instant and the domain has counted; the rest of the clock's part moves neither. -/
theorem State.clockTick_sameTime (s : State) (k ns : Nat) (e : Int) :
    ((s.at_ ns).withClk fun c => c.tick k ns e).SameTime (s.clockTick k ns e) := by
  have hflip (t : State) (n : Nat) : t.SameTime (t.flip k n) := State.sameTime_of_timebase rfl
  exact (hflip _ _).trans (State.stepBegins_sameTime _ k _)

/-- What follows the clock's part of a tick. -/
def State.workTick (s : State) (k ns : Nat) : State :=
  if !s.awake then s
  else (((s.commitTick k (s.period k)).lifeReleases k).unitTick k (s.period k) ns).drainGains.cleanup

theorem State.domainTick_eq (s : State) (k ns : Nat) (e : Int) (late : List (Nat × Nat)) :
    s.domainTick k ns e late = ((if s.working then s.allLate k late else s).clockTick k ns e).workTick k ns := rfl

theorem State.workTick_sameTime (s : State) (k ns : Nat) : s.SameTime (s.workTick k ns) := by
  unfold State.workTick
  split
  · exact State.SameTime.refl s
  · refine (s.commitTick_sameTime k (s.period k)).trans (State.sameTime_of_timebase ?_)
    rw [State.cleanup_timebase, State.drainGains_timebase, State.unitTick_timebase, State.lifeReleases_timebase]

/-- Late work and the work that a tick starts are before and after the one step of time. -/
theorem State.domainTick_sameTime (s : State) (k ns : Nat) (e : Int) (late : List (Nat × Nat)) :
    ∃ r : State, r.timebase = s.timebase ∧ ((r.at_ ns).withClk fun c => c.tick k ns e).SameTime (s.domainTick k ns e late) := by
  refine ⟨if s.working then s.allLate k late else s, ?_, ?_⟩
  · rw [apply_ite State.timebase, State.allLate_timebase, ite_self]
  · rw [State.domainTick_eq]
    exact (State.clockTick_sameTime _ k ns e).trans (State.workTick_sameTime _ k ns)

theorem State.awake_of_standby {s : State} (h : s.power.phase = .standby) : s.awake = false := by
  simp [State.awake, Power.awake, h]

/-- R307, R461: in Standby a tick is its clock's part alone. -/
theorem State.domainTick_standby {s : State} (h : s.power.phase = .standby) (k ns : Nat) (e : Int) (late : List (Nat × Nat)) :
    s.domainTick k ns e late = s.clockTick k ns e := by
  have hawake : (s.clockTick k ns e).awake = false := by
    rw [← State.awake_of_standby h]
    simp only [State.clockTick, State.stepBegins]
    split <;> rfl
  have hworking : s.working = false := by simp [State.working, State.awake_of_standby h]
  rw [State.domainTick_eq, hworking, if_neg (by simp), State.workTick, hawake, if_pos (by simp)]

theorem onlyChanges_clockTick (s : State) (k ns : Nat) (e : Int) :
    OnlyChanges [.clk, .plane, .links, .net, .reports, .time] s (s.clockTick k ns e).settle := by
  simp only [State.clockTick, State.stepBegins]
  split
  all_goals
    refine ⟨rfl, fun p hp => ?_⟩
    cases p
    case clk | plane | links | net | reports | time => simp at hp
    all_goals rfl

theorem exec_domainTick {s : State} {k : Nat} (ns : Nat) (e : Int) {late : List (Nat × Nat)} (hk : k < 3) (hlate : ∀ l ∈ late, l.1 < 128)
    (hst : (s.dom k).st ≠ .stopped) (hup : s.awake = true ∨ s.power.phase = .standby) :
    exec (.domainTick k ns e late) s = .next (s.domainTick k ns e late).settle :=
  done_on (by simpa [Instr.wf, hk] using hlate) (by simpa [State.ticks, hst] using hup)

@[simp] theorem State.settle_dom (s : State) (k : Nat) : s.settle.dom k = s.dom k := rfl

/-- Settles O21: the work that a tick starts moves no time, and in Standby it starts none. -/
theorem domainTickCountsAndMovesTime : Obligations.DomainTickCountsAndMovesTime := by
  refine ⟨fun s k ns e late hwf hk hlate hst hup => ?_, fun s k ns e late hk hlate hst hstandby => ?_⟩
  · obtain ⟨r, hr, htick⟩ := s.domainTick_sameTime k ns e late
    simp only [State.timebase, Prod.mk.injEq] at hr
    obtain ⟨hpending, hus, hns, hclk⟩ := hr
    have hdoms : Memory.wf (fun _ => Dom.reset) r.clk.doms = true := hclk ▸ State.unitsWf_doms hwf
    have hcount (j : Nat) : ((s.domainTick k ns e late).dom j).next = if j = k then (s.dom k).next + 1 else (s.dom j).next := by
      obtain ⟨hwf', hnext⟩ := ClkSys.tick_next hdoms k ns e
      rw [State.dom, (htick.counts hwf').2 j]
      exact (hnext j).trans (by simp only [hclk, State.dom])
    refine ⟨_, exec_domainTick ns e hk hlate hst hup, ?_, ?_, ?_, ?_, fun j hj => ?_⟩
    · rw [State.settle_pending, htick.pending, State.withClk_pending, State.at__pending, hpending]
    · rw [State.settle_ns, htick.ns, State.withClk_ns, State.at__ns]
    · rw [State.settle_us, htick.us, State.withClk_us, State.at__us, hus, hns]
    · rw [State.settle_dom, hcount, if_pos rfl]
    · rw [State.settle_dom, hcount, if_neg hj]
  · refine ⟨_, exec_domainTick ns e hk hlate hst (.inr hstandby), trivial, ?_⟩
    rw [State.domainTick_standby hstandby]
    exact onlyChanges_clockTick s k ns e

end Sys2Proof.Machine

/-!
SUPPORT. REVOKE (R29, R402) while the reader's graph reads the SID: the Setter silences it in the unit records of the partition too.
-/

namespace Sys2Proof.Machine

/-- REVOKE of SID 5 from partition 1, by P0. -/
def revokeFive : Entry :=
  { part := 0, sq := 0, cq := 0, cmdId := 0, op := 0x13, addr := 0, len := 0, args := [1, 0, 5, 0, 1, 0], data := none, wait := false,
    fail := false, session := 0 }

/-- A delay line of partition 1 in Facet 0 that reads SID 5. -/
def lineOfFive : LineRec :=
  { part := 1, dom := 0, cls := 1, d := 64, inSid := some 5, sid := 9
    at_ := { node := 0, kind := .delay, chan := 0, id := 0, facet := 0, inp := 0, out := 1, base := 16, len := 64, dram := false, ch := 0,
             area := 0, wring := 0, rring := 0, nb := 1, bundles := 1 } }

/-- A device in full service in which partition 1 reads SID 5 by a grant, and P0 is about to revoke it. -/
def grantedLine : State :=
  { State.reset with
    boot := { Boot.reset with at_ := .full }
    host := { HostSys.reset with pol := { HostSys.reset.pol with grants := [⟨1, 5, 1⟩] } }
    setter := { SetterSys.reset with intake := [revokeFive], parts := [(1, { SetPart.reset with live := true, work := ⟨[], [lineOfFive], []⟩ })] } }

/-- R29: after the REVOKE the Setter's record of the line brings silence to its input. -/
theorem revoke_silences_line_record :
    ((grantedLine.perform true State.revoke).settle.setter.part 1).work.lines.map (·.inSid) = [some 0] := by decide

/-- Refutes O50, by its clause on REVOKE: each answer to a range that can be revoked asks that the Setter's partition records stay, but a
reader's record changes with the SIDs that it no longer hears. -/
theorem not_policyCommands : ¬ Obligations.PolicyCommands := by
  unfold Obligations.PolicyCommands
  intro h
  obtain ⟨-, -, -, -, hrevoke, -⟩ := h
  obtain ⟨t, hexec, ⟨-, -, hanswer, -⟩, -⟩ := hrevoke grantedLine revokeFive (by decide) rfl rfl
  have ht : t = (grantedLine.perform true State.revoke).settle :=
    (Host.Outcome.next.inj ((done_on rfl rfl).symm.trans hexec)).symm
  have hparts : t.setter.parts = grantedLine.setter.parts := by
    rcases hanswer (by decide) (by decide) (by decide) with ⟨⟨-, hparts, -⟩, -⟩ | ⟨⟨-, hparts, -⟩, -⟩
    · exact hparts
    · exact hparts
  have hkept : (t.setter.part 1).work.lines.map (·.inSid) = [some 5] := by
    rw [SetterSys.part, hparts]
    rfl
  rw [ht, revoke_silences_line_record] at hkept
  exact absurd hkept (by decide)

end Sys2Proof.Machine

/-!
SUPPORT. The operations of a bundle (R77, R78, R82): the two writebacks, and when the landings of each slot come.
-/

namespace Sys2Proof.Machine

/-! ### Writebacks (R77, R78, R112) -/

theorem natCast_two_pow (k : Nat) : ((2 ^ k : Nat) : Int) = 2 ^ k := Int.natCast_pow 2 k

/-- Saturation takes the nearest value of the range. -/
theorem satN_eq_clamp (n : Nat) (v : Int) : satN n v = max (-2 ^ (n - 1)) (min (2 ^ (n - 1) - 1) v) := by
  have hpos : (0 : Int) < 2 ^ (n - 1) := Int.pow_pos (by decide)
  simp only [satN, natCast_two_pow]
  split
  · omega
  · split <;> omega

/-- An integer lies outside the range exactly when saturation changes it. -/
theorem overN_iff (n : Nat) (v : Int) : overN n v = true ↔ satN n v ≠ v := by
  simp only [overN, satN, natCast_two_pow, Bool.or_eq_true, decide_eq_true_eq]
  split
  · omega
  · split <;> omega

/-- A saturated value fits its word. -/
theorem toInt_ofInt_satN {n : Nat} (hn : 0 < n) (v : Int) : (BitVec.ofInt n (satN n v)).toInt = satN n v := by
  have hpos : (0 : Int) < 2 ^ (n - 1) := Int.pow_pos (by decide)
  have hfits := satN_eq_clamp n v
  exact BitVec.toInt_ofInt_eq_self hn (by omega) (by omega)

/-- The writeback with S = 1, at any width. -/
theorem ofInt_satN_saturates {n : Nat} (hn : 0 < n) (v : Int) :
    (BitVec.ofInt n (satN n v)).toInt = max (-2 ^ (n - 1)) (min (2 ^ (n - 1) - 1) v) ∧
      (overN n v = true ↔ (BitVec.ofInt n (satN n v)).toInt ≠ v) := by
  rw [toInt_ofInt_satN hn]
  exact ⟨satN_eq_clamp n v, overN_iff n v⟩

/-- A D-register writeback lands its value in the register that the name means at issue. -/
theorem mem_dWb (u : Uzor) (l k : Nat) (v : Int) (s : Bool) : (l, Eff.d (u.phys k) (wb32 v s).1) ∈ dWb u l k v s :=
  List.mem_cons_self

theorem aluExec_add (u : Uzor) {w : Nat} (h : aluOp w = 1) :
    aluExec u w = dWb u 1 (aluDst w) ((u.rd (aluA w)).toInt + (u.rd (aluB w)).toInt) (aluS w) := by
  simp only [aluExec, h]

/-- Settles O28: both writebacks are one saturation at two widths. -/
theorem writebackSaturatesOrWraps : Obligations.WritebackSaturatesOrWraps := by
  refine ⟨ofInt_satN_saturates (by decide), fun _ => ⟨rfl, rfl⟩, ofInt_satN_saturates (by decide), fun _ => ⟨rfl, rfl⟩, fun u w hop hs => ?_⟩
  rw [aluExec_add u hop, hs]
  exact ⟨_, (ofInt_satN_saturates (by decide) _).1, mem_dWb ..⟩

/-! ### Latencies (R82) -/

/-- Every landing of the list comes after as many bundles as `lat` gives its effect. -/
def Landings.Timed (lat : Eff → Nat) (es : Landings) : Prop := ∀ e ∈ es, e.1 = lat e.2

section
variable (lat : Eff → Nat)

@[simp] theorem Landings.timed_nil : Landings.Timed lat [] := List.forall_mem_nil _

@[simp] theorem Landings.timed_cons (e : Nat × Eff) (es : Landings) :
    Landings.Timed lat (e :: es) ↔ e.1 = lat e.2 ∧ Landings.Timed lat es := List.forall_mem_cons

@[simp] theorem Landings.timed_append (as bs : Landings) :
    Landings.Timed lat (as ++ bs) ↔ Landings.Timed lat as ∧ Landings.Timed lat bs := List.forall_mem_append

@[simp] theorem Landings.timed_map {α : Type} (g : α → Nat × Eff) (xs : List α) :
    Landings.Timed lat (xs.map g) ↔ ∀ x ∈ xs, (g x).1 = lat (g x).2 := List.forall_mem_map

theorem Landings.timed_flatMap {α : Type} {g : α → Landings} (h : ∀ x, Landings.Timed lat (g x)) (xs : List α) :
    Landings.Timed lat (xs.flatMap g) := by
  intro e he
  obtain ⟨x, -, hx⟩ := List.mem_flatMap.1 he
  exact h x e hx

@[simp] theorem Landings.timed_ite {c : Prop} [Decidable c] {as bs : Landings} (ha : Landings.Timed lat as)
    (hb : Landings.Timed lat bs) : Landings.Timed lat (if c then as else bs) := by
  split
  · exact ha
  · exact hb

end

@[simp] theorem dLand_timed (u : Uzor) (l k : Nat) (v : Word) : Landings.Timed (fun _ => l) (dLand u l k v) := by simp [dLand]

@[simp] theorem dWb_timed (u : Uzor) (l k : Nat) (v : Int) (s : Bool) : Landings.Timed (fun _ => l) (dWb u l k v s) := by simp [dWb]

@[simp] theorem accLand_timed (k : Nat) (v : Int) (s : Bool) : Landings.Timed (fun _ => 4) (accLand k v s) := by simp [accLand]

theorem macExec_timed (u : Uzor) (w : Nat) : Landings.Timed (fun _ => 4) (macExec u w) := by
  unfold macExec
  split
  · exact Landings.timed_nil _
  · exact accLand_timed _ _ _
  · simp [macAput]
  · simp [macAsh]
  · exact Landings.timed_flatMap _ (fun _ => accLand_timed _ _ _) _

theorem aluExec_timed (u : Uzor) (w : Nat) : Landings.Timed (fun _ => 1) (aluExec u w) := by
  simp only [aluExec]
  split
  case h_22 => split <;> simp
  all_goals simp

theorem acsExec_timed (u : Uzor) (w : Nat) : Landings.Timed (fun _ => 2) (acsExec u w) := by simp [acsExec]

/-- R120: the latency of each effect that a mover can have. -/
def Eff.moverLatency : Eff → Nat
  | .d _ _ => 3
  | .mem _ _ _ => 2
  | _ => 1

/-- R131, R133: what a mover's address mode leaves for the boundary: the pointer update, and CIRC_OOB with it. -/
def Uzor.pointerLandings (u : Uzor) (m : FMem) (w : Nat) : Landings :=
  let ad := u.addr m (mvAm w) (mvP w) (mvM w)
  match ad.2.1 with
  | some p => (1, .sp (spP m (mvP w)) (BitVec.ofNat 16 p)) :: if ad.2.2 then [(1, .stat facCircOob)] else []
  | none => []

theorem Uzor.pointerLandings_timed (u : Uzor) (m : FMem) (w : Nat) : Landings.Timed Eff.moverLatency (u.pointerLandings m w) := by
  simp only [Uzor.pointerLandings]
  split <;> simp [Eff.moverLatency]

theorem moverExec_timed (f : Facet) (m : FMem) (w : Nat) : Landings.Timed Eff.moverLatency (moverExec f m w).2 := by
  have hupd := f.u.pointerLandings_timed m w
  simp only [moverExec]
  split
  case isTrue => exact Landings.timed_nil _
  split
  case isTrue => exact hupd
  split
  · exact (Landings.timed_append ..).2 ⟨by simp [Eff.moverLatency], hupd⟩
  · exact (Landings.timed_append ..).2 ⟨by simp [Eff.moverLatency], hupd⟩

theorem loopEnds_timed (u : Uzor) (set ix : Nat) : Landings.Timed (fun _ => 1) (loopEnds u set ix).2 := by simp [loopEnds]

/-- Settles O25: the landings of each slot, slot by slot. -/
theorem operationLatencies : Obligations.OperationLatencies := by
  refine ⟨macExec_timed, aluExec_timed, acsExec_timed, fun f m w e he => ?_, loopEnds_timed⟩
  have htimed := moverExec_timed f m w e he
  obtain ⟨l, eff⟩ := e
  cases eff <;> exact htimed

end Sys2Proof.Machine

/-!
SUPPORT. A Facet's period (R82 to R89, R117, R152, R159): what landings, memory accesses and bundles leave of a Facet's control state,
and commands that change one Facet.
-/

namespace Sys2Proof.Machine

/-! ### What landings and memory accesses keep -/

/-- What no landing, memory access or error record of a Facet changes: its phase, its stall, the PC, and the FAC_ registers other
than FAC_STAT and FAC_ECC_ADDR. -/
def Facet.control (f : Facet) : FacPhase × Option SbReq × Nat × FacRegs :=
  (f.st, f.stall, f.u.pc, { f.r with stat := 0, eccAddr := 0 })

section
variable {f g : Facet} (h : f.control = g.control)
include h

theorem Facet.st_of_control : f.st = g.st := congrArg (fun c => c.1) h
theorem Facet.stall_of_control : f.stall = g.stall := congrArg (fun c => c.2.1) h
theorem Facet.pc_of_control : f.u.pc = g.u.pc := congrArg (fun c => c.2.2.1) h
theorem Facet.ctl_of_control : f.r.ctl = g.r.ctl := congrArg (fun c => c.2.2.2.ctl) h
theorem Facet.vec_of_control : f.r.vec = g.r.vec := congrArg (fun c => c.2.2.2.vec) h
theorem Facet.rstub_of_control : f.r.rstub = g.r.rstub := congrArg (fun c => c.2.2.2.rstub) h

end

@[simp] theorem Facet.setStat_control (f : Facet) (b : Nat) : (f.setStat b).control = f.control := by
  simp only [Facet.setStat]
  split <;> rfl

@[simp] theorem Facet.noteUe_control (f : Facet) (a : Word) : (f.noteUe a).control = f.control := by
  simp only [Facet.noteUe, Facet.setStat_control]
  split <;> rfl

@[simp] theorem Facet.write_control (f : Facet) (m : FMem) (a : Nat) (v : Word) : (f.write m a v).control = f.control := rfl

@[simp] theorem Facet.readEcc_control (f : Facet) (m : FMem) (a : Nat) : (f.readEcc m a).1.control = f.control := by
  unfold Facet.readEcc
  split <;> simp

/-- A fold that carries a Facet and what it gathers keeps the control state when each of its steps does. -/
theorem foldl_control {α β : Type} {f : Facet × β → α → Facet × β} (h : ∀ s x, (f s x).1.control = s.1.control) (l : List α)
    (s : Facet × β) : (l.foldl f s).1.control = s.1.control :=
  foldl_keeps (fun s : Facet × β => s.1.control) f h l s

@[simp] theorem Facet.load_control (f : Facet) (m : FMem) (w a : Nat) : (f.load m w a).1.control = f.control := by
  have halign : (if a % w = 0 then f else f.setStat facAlign).control = f.control := by simp [apply_ite Facet.control]
  simp only [Facet.load]
  split
  · rw [foldl_control]
    · exact halign
    · exact fun _ _ => Facet.readEcc_control _ _ _
  · exact (Facet.setStat_control _ _).trans halign

@[simp] theorem Facet.storeTo_control (f : Facet) (m : FMem) (a : Nat) (vs : List Word) : (f.storeTo m a vs).1.control = f.control := by
  simp only [Facet.storeTo, apply_ite Prod.fst, apply_ite Facet.control, Facet.setStat_control, ite_self]

@[simp] theorem land_control (f : Facet) (e : Eff) : (land f e).control = f.control := by
  cases e with
  | pf k b =>
    simp only [land]
    split <;> rfl
  | stat b => exact f.setStat_control b
  | _ => rfl

@[simp] theorem land_flight (f : Facet) (e : Eff) : (land f e).u.flight = f.u.flight := by
  cases e with
  | pf k b =>
    simp only [land]
    split <;> rfl
  | stat b =>
    simp only [land, Facet.setStat]
    split <;> rfl
  | _ => rfl

@[simp] theorem boundary_control (f : Facet) : (boundary f).control = f.control :=
  foldl_keeps Facet.control _ (fun _ _ => land_control _ _) _ _

/-- R82: a boundary leaves in flight what was more than one boundary away, one nearer. -/
theorem boundary_flight (f : Facet) : (boundary f).u.flight =
    (f.u.flight.filter fun e => !(e.left ≤ 1)).map fun e => { e with left := e.left - 1 } :=
  foldl_keeps (fun g : Facet => g.u.flight) _ (fun _ _ => land_flight _ _) _ _

theorem boundary_flight_length (f : Facet) : (boundary f).u.flight.length ≤ f.u.flight.length := by
  rw [boundary_flight, List.length_map]
  exact List.length_filter_le _ _

/-- A single operation that is due lands. -/
theorem boundary_due {f : Facet} {e : Eff} (h : f.u.flight = [⟨1, e⟩]) : boundary f = land { f with u := { f.u with flight := [] } } e := by
  simp [boundary, h]

theorem boundary_lands_d {f : Facet} {k : Nat} {v : Word} (hv : v ≠ 0) (h : f.u.flight = [⟨1, .d k v⟩]) :
    Memory.get zeroW (boundary f).u.d k = v := by
  have hset : Memory.set zeroW f.u.d k v = Memory.insert f.u.d k v := if_neg hv
  rw [boundary_due h]
  simp only [land, hset, Memory.get_insert, if_pos]

theorem boundary_later {f : Facet} {j : Nat} {e : Eff} (h : f.u.flight = [⟨j + 2, e⟩]) : (boundary f).u.flight = [⟨j + 1, e⟩] := by
  simp [boundary_flight, h]

theorem boundary_idle {f : Facet} (h : f.u.flight = []) : boundary f = f := by
  simp only [boundary, h, List.filter_nil, List.map_nil, List.foldl_nil]
  rw [← h]

@[simp] theorem landAll_control (f : Facet) : (landAll f).control = f.control := by simp [landAll]

theorem landAll_idle {f : Facet} (h : f.u.flight = []) : landAll f = f := by simp [landAll, boundary_idle h]

/-! ### Delay lines, lists and tick-armed writes -/

@[simp] theorem Facet.tapRead_control (f : Facet) (g : LineGeo) (d t : Nat) : (f.tapRead g d t).1.control = f.control := by
  simp [Facet.tapRead, apply_ite Prod.fst, apply_ite Facet.control]

@[simp] theorem Facet.lineOut_control (f : Facet) (l : DLine) (t : Nat) : (f.lineOut l t).1.control = f.control := by
  simp only [Facet.lineOut]
  split
  · simp [apply_ite Prod.fst, apply_ite Facet.control]
  · simp

@[simp] theorem Facet.runLine_control (f : Facet) (l : DLine) (t : Nat) : (f.runLine l t).1.control = f.control := by
  simp [Facet.runLine, apply_ite Prod.fst, apply_ite Facet.control]

theorem Facet.control_of_lines (f : Facet) (ls : List DLine) : ({ f with lines := ls } : Facet).control = f.control := rfl

@[simp] theorem Facet.runLines_control (f : Facet) (t : Nat) : (f.runLines t).control = f.control := by
  simp only [Facet.runLines]
  split
  · rfl
  · rw [Facet.control_of_lines, foldl_control]
    · exact landAll_control f
    · exact fun s l => s.1.runLine_control l t

@[simp] theorem Facet.applyArmed_control (f : Facet) (t : Nat) : (f.applyArmed t).control = f.control :=
  foldl_keeps Facet.control _ (fun _ _ => Facet.write_control _ _ _ _) _ _

@[simp] theorem Facet.listEntry_control (f : Facet) (base i : Nat) : (f.listEntry base i).1.control = f.control := by
  simp [Facet.listEntry, apply_ite Prod.fst, apply_ite Facet.control]

@[simp] theorem Facet.postRange_control (f : Facet) (a b : Nat) : (f.postRange a b).1.control = f.control := by
  simp only [Facet.postRange]
  rw [foldl_control]
  · simp [apply_ite Facet.control]
  · intro s i
    rw [← Facet.listEntry_control s.1 (f.r.plist.fld 0 14) i]
    split
    next h => rw [h]; exact Facet.readEcc_control _ _ _
    next h => rw [h]

/-! ### The gather and the post (R88, R89, R159) -/

/-- R88: after the gather the sample program begins at FAC_VEC. -/
theorem Facet.gather_pc (f : Facet) (rd : Nat → Word) : (f.gather rd).u.pc = f.r.vec.toNat % 4096 := by
  have hvec : (f.gather rd).r.vec = f.r.vec := by
    simp only [Facet.gather]
    refine Facet.vec_of_control (g := f) ?_
    rw [foldl_keeps Facet.control]
    · simp [apply_ite Facet.control]
    · intro g i
      have hentry (base : Nat) := g.listEntry_control base i
      split
      next h => rw [← hentry, h, Facet.write_control]
      next h => rw [← hentry, h]
  rw [← hvec]
  rfl

/-- R88: with one list entry and nothing in flight the gather writes the value of the entry's SID to the entry's Y word. -/
theorem Facet.gather_single {f : Facet} (rd : Nat → Word) (hflight : f.u.flight = []) (hcount : f.r.glist.fld 16 13 = 1)
    (hmark : markOf f.m.bad .facZ (f.r.glist.fld 0 14) = none) (hwf : Memory.wf zeroW f.m.y = true) :
    let e := Memory.get zeroW f.m.z (f.r.glist.fld 0 14)
    Memory.get zeroW (f.gather rd).m.y (e.fld 16 15) = rd (e.fld 0 15) := by
  have hbase : f.r.glist.fld 0 14 < FMem.z.size := Nat.mod_lt _ (by decide)
  have hentry : f.listEntry (f.r.glist.fld 0 14) 0 = (f, some ((Memory.get zeroW f.m.z (f.r.glist.fld 0 14)).fld 16 15,
      (Memory.get zeroW f.m.z (f.r.glist.fld 0 14)).fld 0 15)) := by
    simp [Facet.listEntry, hbase, Facet.readEcc, FMem.ecc, hmark, FacMem.of]
  simp only [Facet.gather, hcount, landAll_idle hflight, List.range_one, List.foldl_cons, List.foldl_nil, hentry, ite_self]
  exact Memory.get_set_same zeroW _ _ _ hwf

/-- R89, R159: what the end of the post leaves. -/
theorem Facet.complete_control (f : Facet) (cyc : Nat) :
    (f.complete cyc).r.cycLast = min cyc 0xFFFF ∧
      (f.bgEn = true → (f.complete cyc).st = .background ∧ (f.complete cyc).u.pc = f.r.rstub.toNat % 4096) ∧
      (f.bgEn = false → (f.complete cyc).st = .waiting) := by
  cases hbg : f.bgEn <;> simp [Facet.complete, hbg, Word.fld, fld]

theorem Facet.postRange_empty {f : Facet} (h : f.r.plist.fld 16 13 = 0) (b : Nat) : (f.postRange 0 b).2 = [] := by
  simp [Facet.postRange, h]

/-! ### One bundle (R82, R97, R117, R152) -/

@[simp] theorem noteIllegal_control (f : Facet) (b : Bool) : (noteIllegal f b).control = f.control := by
  simp [noteIllegal, apply_ite Facet.control]

@[simp] theorem moverExec_control (f : Facet) (m : FMem) (w : Nat) : (moverExec f m w).1.control = f.control := by
  simp [moverExec, apply_ite Prod.fst, apply_ite Facet.control]

@[simp] theorem sbExec_control (f : Facet) (n w : Nat) (seq : SeqOp) : (sbExec f n w seq).1.control = f.control := by
  simp [sbExec, apply_ite Prod.fst, apply_ite Facet.control]

@[simp] theorem clearFrames_control (f : Facet) (set : Nat) : (clearFrames f set).control = f.control := rfl

theorem issueBundle_st (f : Facet) (n b : Nat) : (issueBundle f n b).f.st = f.st := by
  unfold issueBundle
  dsimp only
  refine Facet.st_of_control ?_
  simp [apply_ite Prod.fst, apply_ite Facet.control]

/-- R152, R160: where a bundle of the sample program goes on. -/
theorem issueBundle_pc {f : Facet} (n b : Nat) (hst : f.st = .sample) :
    (issueBundle f n b).f.u.pc = if (issueBundle f n b).seq = .resume then f.u.pc + 1 else (loopEnds f.u 0 f.u.pc).1 := by
  have hillegal (c : Bool) : (noteIllegal f c).st = .sample := (Facet.st_of_control (noteIllegal_control f c)).trans hst
  simp [issueBundle, hillegal, frameSet]

/-- R97: without errors the bundle at the PC is fetched, and nothing but the loop cache changes. -/
theorem Facet.fetch_of_no_errors {f : Facet} (h : f.m.bad = []) :
    ∃ c, f.fetch = ({ f with cache := c }, some (f.m.bundle f.bank f.u.pc)) := by
  have hmark (mem : EccMem) (i : Nat) : markOf f.m.bad mem i = none := by simp [markOf, h]
  have hfour : List.range 4 = [0, 1, 2, 3] := rfl
  simp only [Facet.fetch]
  split
  · exact ⟨f.cache, rfl⟩
  · exact ⟨cacheFill f.cache f.u.pc, by simp [hfour, hmark]⟩

/-- R122: no sequencer operation at the end of a bundle of the sample program moves the PC. -/
theorem Facet.finish_pc {f : Facet} (t : Nat) (seq : SeqOp) (hst : f.st = .sample) : (f.finish t seq).u.pc = f.u.pc := by
  cases seq
  case halt =>
    simp only [Facet.finish, hst]
    exact Facet.pc_of_control (((clearFrames f 0).runLines_control t).trans (clearFrames_control f 0))
  all_goals simp only [Facet.finish, hst]

/-- R82: the sample program goes on where its bundle goes on, whether it stalls or not. -/
theorem Facet.issue_pc {f : Facet} (n t : Nat) (hi : f.issuing = true) (hst : f.st = .sample) (hbad : f.m.bad = [])
    (hpc : f.u.pc < 4096) :
    (f.issue n t).u.pc = f.u.pc + 1 ∨ (f.issue n t).u.pc = (loopEnds f.u 0 f.u.pc).1 := by
  obtain ⟨c, hfetch⟩ := Facet.fetch_of_no_errors hbad
  have hgo := issueBundle_pc (f := { f with cache := c }) n (f.m.bundle f.bank f.u.pc) hst
  have hst' : (boundary (issueBundle { f with cache := c } n (f.m.bundle f.bank f.u.pc)).f).st = .sample :=
    ((Facet.st_of_control (boundary_control _)).trans (issueBundle_st ..)).trans hst
  have hissue : (f.issue n t).u.pc = (issueBundle { f with cache := c } n (f.m.bundle f.bank f.u.pc)).f.u.pc := by
    simp only [Facet.issue, hi, hpc, hfetch, Bool.not_true, Bool.false_eq_true, if_false, if_true]
    split
    · rfl
    · rw [Facet.finish_pc t _ hst']
      exact Facet.pc_of_control (boundary_control _)
  rw [hissue, hgo]
  split
  · exact .inl rfl
  · exact .inr rfl

/-- R152: at the END of a level-0 loop whose counter has run out the next bundle follows. -/
theorem Facet.loopEnds_of_loopEnding {f : Facet} (hst : f.st = .sample) (hend : f.loopEnding = true)
    (hinner : (f.u.frame 1).active = false) : (loopEnds f.u 0 f.u.pc).1 = f.u.pc + 1 := by
  simp only [Facet.loopEnding, frameSet, hst, reduceCtorEq, if_false, loopEnds, Nat.mul_zero, Nat.zero_add, hinner,
    Bool.false_and, Bool.not_false, Bool.and_true, Bool.false_or, Bool.false_eq_true, List.nil_append] at hend ⊢
  split
  next hback =>
    -- a counter above 1 lands only its new value, and no frame closes
    rw [if_pos hback] at hend
    split at hend <;> simp at hend
  next => rfl

/-! ### The end of a stall (R95, R117, R262) -/

@[simp] theorem Facet.beginGather_stall (f : Facet) (t : Nat) : (f.beginGather t).stall = none := rfl

theorem Facet.stopIdle_stall (f : Facet) (t : Nat) : (f.stopIdle t).stall = none := by
  have hlanded : (landAll { f with stall := none }).stall = none := Facet.stall_of_control (landAll_control _)
  have hswapped : (if (landAll { f with stall := none }).swapDue then (landAll { f with stall := none }).swap
      else landAll { f with stall := none }).stall = none := by
    split <;> exact hlanded
  exact (Facet.stall_of_control (Facet.applyArmed_control _ t)).trans hswapped

theorem Facet.takeBackground_stall {f : Facet} (t : Nat) (h : f.stall = none) : (f.takeBackground t).stall = none := by
  have hillegal : (if f.u.pc < 4096 then f else f.setStat facIllegal).stall = none := by
    refine (Facet.stall_of_control (g := f) ?_).trans h
    simp [apply_ite Facet.control]
  unfold Facet.takeBackground
  split
  · exact hillegal
  · rfl

/-- The end of a bundle starts no stall. -/
theorem Facet.finish_stall {f : Facet} (t : Nat) (seq : SeqOp) (h : f.stall = none) : (f.finish t seq).stall = none := by
  unfold Facet.finish
  split
  · exact (Facet.stall_of_control (((clearFrames f 0).runLines_control t).trans (clearFrames_control f 0))).trans h
  · exact h
  · exact h
  · rfl
  · split
    · rfl
    · exact h
  · exact h

theorem Facet.endStall_stall (f : Facet) (t : Nat) (v : Word) : (f.endStall t v).stall = none := by
  unfold Facet.endStall
  split
  next h => exact h
  next q _ =>
    have hfinish (u : Uzor) : ((boundary { f with stall := none, u := u }).finish t q.seq).stall = none :=
      Facet.finish_stall t q.seq (Facet.stall_of_control (boundary_control _))
    dsimp only
    split
    · exact hfinish _
    · exact Facet.stopIdle_stall _ t
    · rw [apply_ite Facet.stall, Facet.takeBackground_stall t (hfinish _), Facet.beginGather_stall, ite_self]

/-! ### Commands that change one Facet -/

/-- The Facet, its reports sent off. -/
def Facet.sent (f : Facet) : Facet := { f with rep := [] }

@[simp] theorem Facet.sent_u (f : Facet) : f.sent.u = f.u := rfl
@[simp] theorem Facet.sent_m (f : Facet) : f.sent.m = f.m := rfl
@[simp] theorem Facet.sent_r (f : Facet) : f.sent.r = f.r := rfl
@[simp] theorem Facet.sent_st (f : Facet) : f.sent.st = f.st := rfl
@[simp] theorem Facet.sent_stall (f : Facet) : f.sent.stall = f.stall := rfl

theorem quietFacets_cons (k : Nat) (f : Facet) (r : Memory Facet) :
    quietFacets ((k, f) :: r) = if f.sent = Facet.reset then quietFacets r else (k, f.sent) :: quietFacets r := by
  have hfilter : quietFacets ((k, f) :: r) = if f.sent != Facet.reset then (k, f.sent) :: quietFacets r else quietFacets r :=
    List.filter_cons
  rw [hfilter]
  by_cases h : f.sent = Facet.reset
  · simp [h]
  · simp [h]

theorem get_quietFacets {m : Memory Facet} (h : Memory.wf (fun _ => Facet.reset) m = true) (n : Nat) :
    Memory.get (fun _ => Facet.reset) (quietFacets m) n = (Memory.get (fun _ => Facet.reset) m n).sent := by
  induction m with
  | nil => rfl
  | cons e r ih =>
    obtain ⟨k, f⟩ := e
    obtain ⟨-, habove, hr⟩ := (Memory.wf_cons _ k f r).1 h
    have hat : Memory.get (fun _ => Facet.reset) r k = Facet.reset := Memory.get_of_above _ r k k habove (Nat.le_refl k)
    rw [quietFacets_cons]
    split
    next hreset =>
      rw [ih hr, Memory.get]
      split
      next hk => rw [← hk, hat, hreset]; rfl
      next => rfl
    next =>
      simp only [Memory.get]
      split
      · rfl
      · exact ih hr

theorem State.settle_facet {s : State} (h : s.unitsWf = true) (n : Nat) : s.settle.facet n = (s.facet n).sent :=
  get_quietFacets (State.unitsWf_units h).1 n

/-- Where a command gave Facet `n` the record `f`, it ends with that record, and with every other Facet as it was. -/
theorem State.settle_facet_of_setFacet {s t : State} (hwf : s.unitsWf = true) {n : Nat} {f : Facet}
    (ht : t.facets = (s.setFacet n f).facets) :
    t.settle.facet n = f.sent ∧ ∀ m, m ≠ n → t.settle.facet m = s.settle.facet m := by
  have hfacets : Memory.wf (fun _ => Facet.reset) s.facets = true := (State.unitsWf_units hwf).1
  have hget (m : Nat) : t.settle.facet m = (if m = n then f else s.facet m).sent := by
    rw [State.facet, State.settle_facets, ht, State.setFacet_facets, get_quietFacets (Memory.wf_set _ _ _ _ hfacets),
      Memory.get_set _ _ _ _ _ hfacets, State.facet]
  exact ⟨by rw [hget, if_pos rfl], fun m hm => by rw [hget, if_neg hm, State.settle_facet hwf]⟩

theorem onlyChanges_setFacet (s : State) (n : Nat) (f : Facet) : OnlyChanges [.facets, .reports] s (s.setFacet n f).settle := by
  refine ⟨rfl, fun p hp => ?_⟩
  cases p
  case facets | reports => simp at hp
  case time => exact ⟨rfl, rfl⟩
  all_goals rfl

theorem State.withMem_setFacet_facets (s : State) (g : MemSys → MemSys) (n : Nat) (f : Facet) :
    ((s.withMem g).setFacet n f).facets = (s.setFacet n f).facets := rfl

theorem onlyChanges_withMem_setFacet (s : State) (g : MemSys → MemSys) (n : Nat) (f : Facet) :
    OnlyChanges [.facets, .mem, .reports] s ((s.withMem g).setFacet n f).settle := by
  refine ⟨rfl, fun p hp => ?_⟩
  cases p
  case facets | mem | reports => simp at hp
  case time => exact ⟨rfl, rfl⟩
  all_goals rfl

/-- Writes of the plane leave the health unit itself as it was; conflicts only send reports. -/
theorem State.writeSid_health (s : State) (k c i sid : Nat) (v : Word) :
    ({ (s.writeSid k c i sid v).health with flying := [] } : Health) = { s.health with flying := [] } := by
  unfold State.writeSid
  split
  · rfl
  · dsimp only
    split
    · rfl
    · split <;> rfl

theorem State.writeSids_health (s : State) (k c i : Nat) (ws : List (Nat × Word)) :
    ({ (s.writeSids k c i ws).health with flying := [] } : Health) = { s.health with flying := [] } :=
  foldl_keeps (fun s : State => ({ s.health with flying := [] } : Health)) _ (fun _ _ => State.writeSid_health ..) ws s

theorem onlyChanges_setFacet_writeSids (s : State) (n : Nat) (f : Facet) (k c i : Nat) (ws : List (Nat × Word)) :
    OnlyChanges [.facets, .plane, .reports] s ((s.setFacet n f).writeSids k c i ws).settle := by
  refine ⟨by simp, fun p hp => ?_⟩
  cases p
  case facets | plane | reports => simp at hp
  case health => exact State.writeSids_health ..
  all_goals simp [Piece.same, State.txOn]

/-- A command whose effect is a new record of Facet `n` changes that Facet alone. -/
theorem completes_setFacet {i : Instr} {s : State} {n : Nat} {f : Facet} {P : State → Prop} (hwf : s.unitsWf = true)
    (hexec : exec i s = .next (s.setFacet n f).settle)
    (hP : ∀ t : State, t.facet n = f.sent → (∀ m, m ≠ n → t.facet m = s.settle.facet m) → P t) : Completes i s [.facets, .reports] P := by
  obtain ⟨hself, hothers⟩ := State.settle_facet_of_setFacet (f := f) hwf rfl
  exact ⟨_, hexec, hP _ hself hothers, onlyChanges_setFacet ..⟩

/-! ### The commands of a Facet -/

section
variable {s : State} {n : Nat}

theorem completes_facetGatherDone (hwf : s.unitsWf = true) (hn : n < 64) (hrun : s.facetsRun = true) (hst : (s.facet n).st = .gather) :
    Completes (.facetGatherDone n) s [.facets, .reports] fun t =>
      (t.facet n).st = .sample ∧ (t.facet n).u.pc = (s.facet n).r.vec.toNat % 4096 ∧ (∀ m, m ≠ n → t.facet m = s.settle.facet m) ∧
      (∀ b : Nat, let f := s.facet n; let e := Memory.get zeroW f.m.z b
        f.u.flight = [] → f.r.glist.fld 16 13 = 1 → f.r.glist.fld 0 14 = b → markOf f.m.bad .facZ b = none → Memory.wf zeroW f.m.y = true →
        Memory.get zeroW (t.facet n).m.y (e.fld 16 15) = s.readSid f.domain (e.fld 0 15)) := by
  have hexec : exec (.facetGatherDone n) s = .next (s.gathered n).settle :=
    done_on (by simpa [Instr.wf] using hn) (by simp [hrun, hst])
  refine completes_setFacet hwf hexec fun t hself hothers => ?_
  rw [hself]
  refine ⟨rfl, Facet.gather_pc .., hothers, ?_⟩
  rintro b f e hflight hcount rfl hmark hY
  exact Facet.gather_single _ hflight hcount hmark hY

theorem completes_bundleIssue (hwf : s.unitsWf = true) (hn : n < 64) (hrun : s.facetsRun = true) (hi : (s.facet n).issuing = true) :
    Completes (.bundleIssue n) s [.facets, .reports] fun t => ∀ m, m ≠ n → t.facet m = s.settle.facet m := by
  have hexec : exec (.bundleIssue n) s = .next (s.issued n).settle := done_on (by simpa [Instr.wf] using hn) (by simp [hrun, hi])
  exact completes_setFacet hwf hexec fun _ _ hothers => hothers

theorem completes_operationLanding (hwf : s.unitsWf = true) (hn : n < 64) (hrun : s.facetsRun = true)
    (hflight : (s.facet n).u.flight ≠ []) (hi : (s.facet n).issuing = false) (hstall : (s.facet n).stall = none) :
    Completes (.operationLanding n) s [.facets, .reports] fun t =>
      (∀ m, m ≠ n → t.facet m = s.settle.facet m) ∧ (t.facet n).u.flight.length ≤ (s.facet n).u.flight.length ∧
      (∀ (k : Nat) (v : Word), v ≠ 0 → (s.facet n).u.flight = [⟨1, .d k v⟩] → Memory.get zeroW (t.facet n).u.d k = v ∧ (t.facet n).u.flight = []) ∧
      (∀ (j : Nat) (e : Eff), (s.facet n).u.flight = [⟨j + 2, e⟩] → (t.facet n).u.flight = [⟨j + 1, e⟩]) := by
  have hidle : (s.facet n).idleCycle = boundary (s.facet n) := by simp [Facet.idleCycle, hi, hstall]
  have hexec : exec (.operationLanding n) s = .next (s.setFacet n (boundary (s.facet n))).settle := by
    rw [← hidle]
    exact done_on (by simpa [Instr.wf] using hn) (by simp [hrun, hflight, hi, hstall])
  refine completes_setFacet hwf hexec fun t hself hothers => ?_
  rw [hself]
  refine ⟨hothers, boundary_flight_length _, fun k v hv hone => ?_, fun j e hone => boundary_later hone⟩
  exact ⟨boundary_lands_d hv hone, by rw [Facet.sent_u, boundary_due hone, land_flight]⟩

theorem completes_sharedBankStallEnd {q : SbReq} (hwf : s.unitsWf = true) (hn : n < 64) (hrun : s.facetsRun = true)
    (hstall : (s.facet n).stall = some q) :
    Completes (.sharedBankStallEnd n) s [.facets, .mem, .reports] fun t =>
      (t.facet n).stall = none ∧ t.mem = { (s.mem.access ⟨.facet n, q.addr, sbOp q⟩).1 with rep := [] } ∧
        ∀ m, m ≠ n → t.facet m = s.settle.facet m := by
  have hends : s.stallEnds n = (s.withMem fun m => (m.access ⟨.facet n, q.addr, sbOp q⟩).1).setFacet n
      ((s.facet n).endStall (s.period (s.facet n).domain) (s.mem.access ⟨.facet n, q.addr, sbOp q⟩).2) := by
    simp only [State.stallEnds, hstall]
    rfl
  have hexec : exec (.sharedBankStallEnd n) s = .next (s.stallEnds n).settle :=
    done_on (by simpa [Instr.wf] using hn) (by simp [hrun, hstall])
  rw [hends] at hexec
  refine ⟨_, hexec, ?_, onlyChanges_withMem_setFacet ..⟩
  obtain ⟨hself, hothers⟩ := State.settle_facet_of_setFacet hwf (State.withMem_setFacet_facets ..)
  exact ⟨by rw [hself, Facet.sent_stall, Facet.endStall_stall], rfl, hothers⟩

theorem completes_loopExit (hwf : s.unitsWf = true) (hn : n < 64) (hrun : s.facetsRun = true) (hi : (s.facet n).issuing = true)
    (hend : (s.facet n).loopEnding = true) :
    Completes (.loopExit n) s [.facets, .reports] fun t =>
      (s.facet n).st = .sample → (s.facet n).m.bad = [] → (s.facet n).u.pc < 4096 → ((s.facet n).u.frame 1).active = false →
        (t.facet n).u.pc = (s.facet n).u.pc + 1 := by
  have hexec : exec (.loopExit n) s = .next (s.issued n).settle :=
    done_on (by simpa [Instr.wf] using hn) (by simp [hrun, hi, hend])
  refine completes_setFacet hwf hexec fun t hself _ hst hbad hpc hinner => ?_
  rw [hself, Facet.sent_u]
  rcases Facet.issue_pc n (s.period (s.facet n).domain) hi hst hbad hpc with hgo | hgo
  · exact hgo
  · exact hgo.trans (Facet.loopEnds_of_loopEnding hst hend hinner)

theorem completes_facetPostDone (cyc : Nat) (hwf : s.unitsWf = true) (hn : n < 64) (hrun : s.facetsRun = true)
    (hst : (s.facet n).st = .post) :
    Completes (.facetPostDone n cyc) s [.facets, .plane, .reports] fun t =>
      (t.facet n).r.cycLast = min cyc 0xFFFF ∧
      ((s.facet n).bgEn = true → (t.facet n).st = .background ∧ (t.facet n).u.pc = (s.facet n).r.rstub.toNat % 4096) ∧
      ((s.facet n).bgEn = false → (t.facet n).st = .waiting) ∧
      ((s.facet n).r.plist.fld 16 13 = 0 → t.plane = s.plane) := by
  have hexec : exec (.facetPostDone n cyc) s = .next (s.posted n cyc).settle :=
    done_on (by simpa [Instr.wf] using hn) (by simp [hrun, hst])
  refine ⟨_, hexec, ?_, onlyChanges_setFacet_writeSids ..⟩
  have hself : (s.posted n cyc).settle.facet n = (((s.facet n).postRange 0 4096).1.complete cyc).sent :=
    (State.settle_facet_of_setFacet hwf (State.writeSids_facets ..)).1
  have hctl := Facet.ctl_of_control ((s.facet n).postRange_control 0 4096)
  have hrstub := Facet.rstub_of_control ((s.facet n).postRange_control 0 4096)
  obtain ⟨hcyc, hbg, hwait⟩ := ((s.facet n).postRange 0 4096).1.complete_control cyc
  rw [Facet.bgEn, hctl, ← Facet.bgEn, hrstub] at hbg
  rw [Facet.bgEn, hctl, ← Facet.bgEn] at hwait
  dsimp only
  rw [hself]
  refine ⟨hcyc, hbg, hwait, fun hempty => ?_⟩
  rw [State.settle_plane, State.posted, Facet.postRange_empty hempty]
  rfl

end

/-- Settles O23, command by command. -/
theorem facetPeriod : Obligations.FacetPeriod :=
  ⟨fun _ _ => completes_facetGatherDone, fun _ _ => completes_bundleIssue, fun _ _ => completes_operationLanding,
    fun _ _ _ => completes_sharedBankStallEnd, fun _ _ => completes_loopExit, fun _ _ cyc => completes_facetPostDone cyc⟩

end Sys2Proof.Machine

/-!
SUPPORT. The shift amount of SHL, SHR, ASR and ASL (R113).
-/

namespace Sys2Proof.Machine

/-- R113: what makes a shift slot illegal; only ASL takes the S bit. -/
theorem aluIllegal_shift {w : Nat} (ix : Nat) (h : aluOp w = 0x0B ∨ aluOp w = 0x0C ∨ aluOp w = 0x0D ∨ aluOp w = 0x0E) :
    aluIllegal w ix = (aluOp w != 0x0E && aluS w || aluSub w ≥ 2 || aluSub w == 1 && aluB w ≥ 32) := by
  obtain h | h | h | h := h <;> simp [aluIllegal, h]

theorem shiftAmount_register (u : Uzor) {w : Nat} (h : aluSub w % 2 = 0) : shiftAmount u w = (u.rd (aluB w)).toNat % 32 :=
  if_pos h

theorem shiftAmount_immediate (u : Uzor) {w : Nat} (h : aluSub w = 1) (hb : aluB w < 32) : shiftAmount u w = aluB w := by
  rw [shiftAmount, if_neg (by omega), Nat.mod_eq_of_lt hb]

end Sys2Proof.Machine

namespace Sys2Proof

/-- Settles O26: a legal immediate shift has SRCB below 32, so its five low bits are the field itself. -/
theorem shiftAmount : Obligations.ShiftAmount := by
  intro u w ix hop
  rw [Machine.aluIllegal_shift ix hop]
  refine ⟨Machine.shiftAmount_register u, fun hsub hlegal => ?_, fun hsub hb => ?_, fun hsub => ?_⟩
  · have hb : Machine.aluB w < 32 := by
      simp only [Bool.or_eq_false_iff] at hlegal
      simpa [hsub] using hlegal.2
    exact ⟨hb, Machine.shiftAmount_immediate u hsub hb⟩
  · simp [hsub, hb]
  · simp [hsub]

end Sys2Proof

/-!
SUPPORT. Slots whose opcode field is 0, and the bundle of zeros (R103).
-/

namespace Sys2Proof.Machine

/-! ### Slots whose opcode is 0 -/

section
variable {w : Nat}

theorem macIllegal_of_op_zero (h : macOp w = 0) : macIllegal w = false := by simp [macIllegal, h]

theorem macExec_of_op_zero (u : Uzor) (h : macOp w = 0) : macExec u w = [] := by simp [macExec, h]

theorem aluIllegal_of_op_zero (ix : Nat) (h : aluOp w = 0) : aluIllegal w ix = false := by simp [aluIllegal, h]

theorem aluExec_of_op_zero (u : Uzor) (h : aluOp w = 0) : aluExec u w = [] := by simp [aluExec, h]

theorem moverIllegal_of_op_zero (m : FMem) (h : mvOp w = 0) : moverIllegal m w = false := by simp [moverIllegal, h]

theorem moverExec_of_op_zero (f : Facet) (m : FMem) (h : mvOp w = 0) : moverExec f m w = (f, []) := if_pos h

theorem seqValid_of_sop_zero (st : FacPhase) (h : seqSop w = 0) : seqValid (seqSop w) st = true := by rw [h]; rfl

theorem seqOf_of_sop_zero (h : seqSop w = 0) : seqOf (seqSop w) = .none := by rw [h]; rfl

end

/-! ### The bundle of zeros -/

/-- R150: with no frame open no bundle ends a loop. -/
theorem loopEnds_of_no_frames {u : Uzor} (set e : Nat) (h : u.frames = []) : loopEnds u set e = (e + 1, []) := by
  have hoff (i : Nat) : u.frame i = Frame.off := by rw [Uzor.frame, h]; rfl
  simp [loopEnds, hoff, Frame.off]

/-- R97, R154: without errors and with an empty loop cache the fetch leaves the Facet as it was. -/
theorem Facet.fetch_uncached {f : Facet} (hbad : f.m.bad = []) (hcache : f.cache = none) :
    f.fetch = (f, some (f.m.bundle f.bank f.u.pc)) := by
  have hmark (mem : EccMem) (i : Nat) : markOf f.m.bad mem i = none := by simp [markOf, hbad]
  have hfour : List.range 4 = [0, 1, 2, 3] := rfl
  have hkeep : ({ f with cache := cacheFill f.cache f.u.pc } : Facet) = f := by rw [hcache, cacheFill, ← hcache]
  have hmiss : cacheHit f.cache f.u.pc = false := by rw [hcache]; rfl
  simp only [Facet.fetch, hmiss, Bool.false_eq_true, if_false, hfour, List.foldl_cons, List.foldl_nil, hmark, hkeep]

/-- The Facet with its PC at the next bundle. -/
def Facet.advanced (f : Facet) : Facet := { f with u := { f.u with pc := f.u.pc + 1 } }

/-- R102: every slot of the bundle of zeros is 0. -/
theorem slotsOf_zero : slotsOf 0 = ⟨0, 0, 0, 0, 0, 0⟩ := rfl

/-- R103: the bundle of zeros lands nothing and moves the PC of a sample program outside loops to the next bundle. -/
theorem issueBundle_zero {f : Facet} (n : Nat) (hst : f.st = .sample) (hframes : f.u.frames = []) :
    issueBundle f n 0 = ⟨f.advanced, .none, none⟩ := by
  have hmac : macOp 0 = 0 := rfl
  have halu : aluOp 0 = 0 := rfl
  have hmv : mvOp 0 = 0 := rfl
  have hsop : seqSop 0 = 0 := rfl
  have hseq : seqIllegal 0 = false := rfl
  simp [issueBundle, slotsOf_zero, macIllegal_of_op_zero hmac, macExec_of_op_zero f.u hmac, aluIllegal_of_op_zero f.u.pc halu,
    aluExec_of_op_zero f.u halu, halu, moverIllegal_of_op_zero _ hmv, moverExec_of_op_zero _ _ hmv, seqValid_of_sop_zero _ hsop,
    seqOf_of_sop_zero hsop, hseq, noteIllegal, hst, loopEnds_of_no_frames _ _ hframes, Facet.advanced]

/-- R122: without a sequencer operation nothing happens at the end of a bundle of the sample program. -/
theorem Facet.finish_none {f : Facet} (t : Nat) (hst : f.st = .sample) : f.finish t .none = f := by
  simp only [Facet.finish, hst]

/-- R103: issuing the bundle of zeros moves the PC of a sample program that is in no loop and has nothing in flight, and nothing else. -/
theorem Facet.issue_zero {f : Facet} (n t : Nat) (hi : f.issuing = true) (hst : f.st = .sample) (hpc : f.u.pc < 4096)
    (hframes : f.u.frames = []) (hflight : f.u.flight = []) (hcache : f.cache = none) (hbad : f.m.bad = [])
    (hzero : f.m.bundle f.bank f.u.pc = 0) : f.issue n t = f.advanced := by
  have hidle : boundary f.advanced = f.advanced := boundary_idle hflight
  simp only [Facet.issue, hi, hpc, Facet.fetch_uncached hbad hcache, hzero, issueBundle_zero n hst hframes, hidle, Bool.not_true,
    Bool.false_eq_true, if_false, if_true]
  exact Facet.finish_none t hst

theorem completes_bundleIssue_zero {s : State} {n : Nat} (hwf : s.unitsWf = true) (hn : n < 64) (hrun : s.facetsRun = true)
    (hst : (s.facet n).st = .sample) (hstall : (s.facet n).stall = none) (hpc : (s.facet n).u.pc < 4096)
    (hframes : (s.facet n).u.frames = []) (hflight : (s.facet n).u.flight = []) (hcache : (s.facet n).cache = none)
    (hrep : (s.facet n).rep = []) (hbad : (s.facet n).m.bad = [])
    (hzero : (s.facet n).m.bundle (s.facet n).bank (s.facet n).u.pc = 0) :
    Completes (.bundleIssue n) s [.facets, .reports] fun t =>
      t.facet n = { s.facet n with u := { (s.facet n).u with pc := (s.facet n).u.pc + 1 } } := by
  have hi : (s.facet n).issuing = true := by simp [Facet.issuing, hst, hstall]
  have hexec : exec (.bundleIssue n) s = .next (s.issued n).settle := done_on (by simpa [Instr.wf] using hn) (by simp [hrun, hi])
  refine completes_setFacet hwf hexec fun t hself _ => ?_
  have hissue : (s.facet n).issue n (s.period (s.facet n).domain) = (s.facet n).advanced :=
    Facet.issue_zero n _ hi hst hpc hframes hflight hcache hbad hzero
  dsimp only at hself
  rw [hself, hissue, Facet.sent, Facet.advanced, ← hrep]

/-- Settles O24, slot by slot, then the bundle of zeros. -/
theorem zeroOpcodeIsNop : Obligations.ZeroOpcodeIsNop :=
  ⟨fun u _ h => ⟨macIllegal_of_op_zero h, macExec_of_op_zero u h⟩,
    fun u _ ix h => ⟨aluIllegal_of_op_zero ix h, aluExec_of_op_zero u h⟩,
    fun f m _ h => ⟨moverIllegal_of_op_zero m h, moverExec_of_op_zero f m h⟩,
    fun _ st h => ⟨seqValid_of_sop_zero st h, seqOf_of_sop_zero h⟩,
    fun _ _ => completes_bundleIssue_zero⟩

end Sys2Proof.Machine

/-!
SUPPORT. The stream engine of the DRAM delay lines (R143 to R145, R292, R293): where a line keeps a period's word, what a burst
reads and writes, what a missed deadline leaves.
-/

namespace Sys2Proof

/-! ### Lists of writes -/

theorem Memory.get_setAll_other {α : Type} [DecidableEq α] (d : Nat → α) (m : Memory α) {ws : List (Nat × α)} {k : Nat}
    (h : ∀ w ∈ ws, w.1 ≠ k) : Memory.get d (Memory.setAll d m ws) k = Memory.get d m k := by
  induction ws generalizing m with
  | nil => rfl
  | cons w ws ih =>
    obtain ⟨hw, hws⟩ := List.forall_mem_cons.1 h
    exact (ih _ hws).trans (Memory.get_set_other d m w.1 k w.2 hw.symm)

/-- Of writes to different indexes each is read back. -/
theorem Memory.get_setAll_mem {α : Type} [DecidableEq α] (d : Nat → α) {m : Memory α} {ws : List (Nat × α)} {k : Nat} {v : α}
    (hwf : Memory.wf d m = true) (hnodup : (ws.map (·.1)).Nodup) (h : (k, v) ∈ ws) :
    Memory.get d (Memory.setAll d m ws) k = v := by
  induction ws generalizing m with
  | nil => cases h
  | cons w ws ih =>
    obtain ⟨hfirst, hrest⟩ := List.nodup_cons.1 hnodup
    cases h with
    | head =>
      have hothers : ∀ x ∈ ws, x.1 ≠ k := fun x hx he => hfirst (List.mem_map.2 ⟨x, hx, he⟩)
      exact (Memory.get_setAll_other d _ hothers).trans (Memory.get_set_same d m k v hwf)
    | tail _ h => exact ih (Memory.wf_set d m _ _ hwf) hrest h

end Sys2Proof

namespace Sys2Proof.Machine

/-! ### The place of a period's word (R292) -/

theorem DramLine.from_eq {l : DramLine} (h : l.next = none) (n : Nat) : l.from_ n = l := by
  rw [DramLine.from_, h]

/-- R292: the word of `back` periods before period `n` is at (n − back) mod Ld. -/
theorem DramLine.wordOf_eq (l : DramLine) {n back : Nat} (h : back ≤ n) : l.wordOf n back = l.base + (n - back) % l.ld := by
  rw [DramLine.wordOf, Nat.sub_add_comm h, Nat.add_mul_mod_self_left]

/-- Periods less than Ld apart have different words. -/
theorem DramLine.wordOf_ne (l : DramLine) {n m : Nat} (h : n < m) (hld : m < n + l.ld) : l.wordOf m 0 ≠ l.wordOf n 0 := by
  rw [l.wordOf_eq m.zero_le, l.wordOf_eq n.zero_le]
  intro heq
  have hmod : (m - n) % l.ld = 0 := Nat.sub_mod_eq_zero_of_mod_eq (by simpa using heq)
  rw [Nat.mod_eq_of_lt (by omega)] at hmod
  omega

/-! ### Bursts in DRAM without errors -/

/-- Without marks a write of any words stores them, and does no more. -/
theorem DramSys.writeAt_of_no_marks {m : DramSys} (h : m.bad = []) (l : List ((Nat × Nat) × Word)) (who : Nat) :
    m.writeAt l who = { m with words := Memory.setAll zeroW m.words (l.map fun x => (dramKey x.1.1 x.1.2, x.2)) } := by
  have hchecks (cs : List (Nat × Nat)) : cs.foldl (fun (m : DramSys) c =>
      let full := (List.range 4).all fun i => (l.map (·.1)).contains (c.1, 4 * c.2 + i)
      let k := if full then (m, false) else m.check c.1 c.2 who
      let z := if k.2 then Memory.clearRun k.1.words (dramKey c.1 (4 * c.2)) 4 else k.1.words
      { k.1 with words := z, bad := unmark k.1.bad .dram (c.1 * 2 ^ 29 + c.2) }) m = m :=
    List.foldlRecOn (motive := fun r => r = m) _ _ rfl fun r hr c _ => by
      have hmarks : ({ m with bad := [] } : DramSys) = m := by rw [← h]
      subst hr
      simp [DramSys.check_of_no_marks h, unmark, h, hmarks]
  simp only [DramSys.writeAt, hchecks, Memory.setAll, List.foldl_map]

/-! ### Rings in Y memory -/

/-- Without marks a row of Y words reads as it is stored. -/
theorem Facet.foldl_readEcc_of_no_marks {f : Facet} (h : f.m.bad = []) (at_ : Nat → Nat) (l : List Nat) (ws : List Word) :
    l.foldl (fun (s : Facet × List Word) i => let x := s.1.readEcc .y (at_ i); (x.1, s.2 ++ [x.2.getD 0])) (f, ws) =
      (f, ws ++ l.map fun i => Memory.get zeroW f.m.y (at_ i)) := by
  induction l generalizing ws with
  | nil => simp
  | cons i l ih =>
    have hread : f.readEcc .y (at_ i) = (f, some (Memory.get zeroW f.m.y (at_ i))) := by
      simp [Facet.readEcc, markOf, h, FacMem.of]
    simp only [List.foldl_cons, hread, Option.getD_some, ih, List.append_assoc, List.map_cons, List.singleton_append]

@[simp] theorem Facet.write_y (f : Facet) (a : Nat) (v : Word) : (f.write .y a v).m.y = Memory.set zeroW f.m.y a v := rfl

/-- The Y words that a row of writes leaves, some of them left out. -/
theorem Facet.foldl_write_y {α : Type} (skip : α → Prop) [DecidablePred skip] (at_ : α → Nat) (v : α → Word) (l : List α) (f : Facet) :
    (l.foldl (fun f x => if skip x then f else f.write .y (at_ x) (v x)) f).m.y =
      Memory.setAll zeroW f.m.y ((l.filter fun x => !decide (skip x)).map fun x => (at_ x, v x)) := by
  induction l generalizing f with
  | nil => rfl
  | cons x l ih =>
    rw [List.foldl_cons, ih]
    by_cases hx : skip x <;> simp [hx, Memory.setAll]

/-! ### Commands on a line -/

theorem onlyChanges_withDram_setFacet (s : State) (g : DramSys → DramSys) (n : Nat) (f : Facet) :
    OnlyChanges [.dram, .facets, .reports] s ((s.withDram g).setFacet n f).settle := by
  refine ⟨rfl, fun p hp => ?_⟩
  cases p
  case facets | dram | reports => simp at hp
  case time => exact ⟨rfl, rfl⟩
  all_goals rfl

/-- A command on a line ends with the new state of DRAM and the new record of the line's Facet, what DRAM reports sent off. -/
theorem completes_onLine {i : Instr} {s : State} {id : Nat} {l : DramLine} {g : DramLine → DramSys × Facet} {P : State → Prop}
    (hwf : s.unitsWf = true) (hline : s.dram.line id = some l) (hexec : exec i s = .next (s.onLine id g).settle)
    (hP : ∀ t : State, t.dram = { (g l).1 with rep := [] } → t.facet l.facet = (g l).2.sent →
      (∀ n, n ≠ l.facet → t.facet n = s.settle.facet n) →
      (∀ r ∈ (g l).1.rep, ⟨r.1, r.2.1, r.2.2.1, 3, r.2.2.2.1, false, r.2.2.2.2⟩ ∈ t.health.flying) → P t) :
    Completes i s [.dram, .facets, .reports] P := by
  have hon : s.onLine id g = (s.withDram fun _ => (g l).1).setFacet l.facet (g l).2 := by
    simp only [State.onLine, hline]
    rfl
  rw [hon] at hexec
  obtain ⟨hself, hothers⟩ :=
    State.settle_facet_of_setFacet (t := (s.withDram fun _ => (g l).1).setFacet l.facet (g l).2) (f := (g l).2) hwf rfl
  refine ⟨_, hexec, hP _ rfl hself hothers fun r hr => ?_, onlyChanges_withDram_setFacet s (fun _ => (g l).1) _ _⟩
  rw [State.settle_health]
  exact List.mem_append_right _ (State.mem_unitReports_dram hr)

theorem State.lineReady_of {s : State} {id : Nat} {l : DramLine} {p : DramLine → Nat → Bool} (hline : s.dram.line id = some l)
    (hserves : s.dramServes = true) (hp : p l (s.period l.dom) = true) : s.lineReady id p = true := by
  simp [State.lineReady, hline, hserves, hp]

/-! ### STREAM_BURST_WRITE (R144, R293) -/

/-- In an area of at least 16 words the 16 periods of a burst have 16 different words. -/
theorem DramLine.wordOf_burst_inj (l : DramLine) {q i j : Nat} (hld : 16 ≤ l.ld) (hi : i < 16) (hj : j < 16)
    (h : l.wordOf (16 * q + i) 0 = l.wordOf (16 * q + j) 0) : i = j := by
  rcases Nat.lt_trichotomy i j with hij | hij | hij
  · exact absurd h.symm (l.wordOf_ne (by omega) (by omega))
  · exact hij
  · exact absurd h (l.wordOf_ne (by omega) (by omega))

/-- R144, R293: the DRAM words that a write burst of Facet `f` stores, and their values. -/
def DramLine.stores (l : DramLine) (q : Nat) (f : Facet) : List (Nat × Word) :=
  (List.range 16).map fun i =>
    (dramKey l.ch (l.wordOf (16 * q + i) 0), Memory.get zeroW f.m.y ((l.wring + (16 * q + i) % 256) % 32768))

theorem DramLine.stores_nodup (l : DramLine) (q : Nat) (f : Facet) (hld : 16 ≤ l.ld) : ((l.stores q f).map (·.1)).Nodup := by
  rw [DramLine.stores, List.map_map]
  refine List.pairwise_map.2 (List.nodup_range.imp_of_mem fun hi hj hne h => hne ?_)
  exact l.wordOf_burst_inj hld (List.mem_range.1 hi) (List.mem_range.1 hj) (Nat.add_left_cancel h)

theorem DramSys.burstWrite_of_no_marks {m : DramSys} {l : DramLine} {f : Facet} (hm : m.bad = []) (hf : f.m.bad = [])
    (hnext : l.next = none) (q : Nat) :
    m.burstWrite l q f = ({ m with words := Memory.setAll zeroW m.words (l.stores q f) }, f) := by
  simp only [DramSys.burstWrite, Facet.foldl_readEcc_of_no_marks hf, DramSys.writeAt_of_no_marks hm, DramLine.burst,
    DramLine.from_eq hnext, List.nil_append, List.zip_map', List.map_map]
  rfl

theorem completes_streamBurstWrite {s : State} {id q : Nat} {l : DramLine} (hram : s.ramsWf = true) (hwf : s.unitsWf = true)
    (hline : s.dram.line id = some l) (hnext : l.next = none) (hld : 16 ≤ l.ld) (hserves : s.dramServes = true)
    (hbad : s.dram.bad = []) (hfbad : (s.facet l.facet).m.bad = []) (hq : 16 * q + 15 ≤ s.period l.dom)
    (hq' : s.period l.dom < 16 * q + 256) :
    Completes (.streamBurstWrite id q) s [.dram, .facets, .reports] fun t => t.dram.lines = s.dram.lines ∧
      (∀ i, i < 16 → Memory.get zeroW t.dram.words (dramKey l.ch (l.wordOf (16 * q + i) 0)) =
        Memory.get zeroW (s.facet l.facet).m.y ((l.wring + (16 * q + i) % 256) % 32768)) ∧
      ∀ k, (∀ i, i < 16 → k ≠ dramKey l.ch (l.wordOf (16 * q + i) 0)) → Memory.get zeroW t.dram.words k = Memory.get zeroW s.dram.words k := by
  refine completes_onLine hwf hline (done_on rfl (State.lineReady_of hline hserves (by simp [hq, hq']))) fun t hdram _ _ _ => ?_
  rw [hdram, DramSys.burstWrite_of_no_marks hbad hfbad hnext]
  refine ⟨rfl, fun i hi => ?_, fun k hk => ?_⟩
  · exact Memory.get_setAll_mem zeroW (State.ramsWf_dram hram) (l.stores_nodup q _ hld)
      (List.mem_map.2 ⟨i, List.mem_range.2 hi, rfl⟩)
  · refine Memory.get_setAll_other zeroW _ fun w hw => ?_
    obtain ⟨i, hi, rfl⟩ := List.mem_map.1 hw
    exact (hk i (List.mem_range.1 hi)).symm

/-! ### STREAM_BURST_FETCH (R144, R145, R293) -/

/-- R145, R293: the ring words that a fetch burst at tick count `t` fills, the periods after the next, and their values. -/
def DramSys.fetches (m : DramSys) (l : DramLine) (q t : Nat) : List (Nat × Word) :=
  ((List.range 16).filter fun i => !decide (16 * q + i ≤ t + 1)).map fun i =>
    ((l.rring + (16 * q + i) % 256) % 32768, Memory.get zeroW m.words (dramKey l.ch (l.wordOf (16 * q + i) l.d)))

theorem DramSys.fetches_nodup (m : DramSys) (l : DramLine) (q t : Nat) : ((m.fetches l q t).map (·.1)).Nodup := by
  rw [DramSys.fetches, List.map_map]
  refine List.pairwise_map.2 ((List.Pairwise.filter _ List.nodup_range).imp_of_mem fun {i j} hi hj hne h => hne ?_)
  have hi16 := List.mem_range.1 (List.mem_filter.1 hi).1
  have hj16 := List.mem_range.1 (List.mem_filter.1 hj).1
  simp only [Function.comp_apply] at h
  omega

theorem DramSys.burstFetch_of_no_marks {m : DramSys} {l : DramLine} (hm : m.bad = []) (hnext : l.next = none) (q t : Nat) (f : Facet) :
    (m.burstFetch l q t f).1 = m.setLine { l with upto := max l.upto (16 * q + 16) } ∧
      (m.burstFetch l q t f).2.m.y = Memory.setAll zeroW f.m.y (m.fetches l q t) := by
  have hzip (g : Nat → Word) : (List.range 16).zip ((List.range 16).map g) = (List.range 16).map fun i => (i, g i) := by
    simpa using List.zip_map' (l := List.range 16) (f := id) (g := g)
  simp only [DramSys.burstFetch, DramSys.readAt_of_no_marks hm, DramLine.burst, DramLine.from_eq hnext, List.map_map, hzip,
    List.foldl_map, true_and]
  exact Facet.foldl_write_y ..

theorem completes_streamBurstFetch {s : State} {id q : Nat} {l : DramLine} (hwf : s.unitsWf = true)
    (hline : s.dram.line id = some l) (hnext : l.next = none) (hd : l.d ≤ 16 * q) (hserves : s.dramServes = true)
    (hbad : s.dram.bad = []) (hy : Memory.wf zeroW (s.facet l.facet).m.y = true) (hq : 16 * q + 15 ≤ s.period l.dom + 256)
    (hupto : l.upto < 16 * q + 16) :
    Completes (.streamBurstFetch id q) s [.dram, .facets, .reports] fun t => t.dram.words = s.dram.words ∧
      (∀ n, n ≠ l.facet → t.facet n = s.settle.facet n) ∧
      ∀ i, i < 16 → s.period l.dom + 1 < 16 * q + i →
        Memory.get zeroW (t.facet l.facet).m.y ((l.rring + (16 * q + i) % 256) % 32768) =
          Memory.get zeroW s.dram.words (dramKey l.ch (l.base + (16 * q + i - l.d) % l.ld)) := by
  obtain ⟨hlines, hring⟩ := DramSys.burstFetch_of_no_marks hbad hnext q (s.period l.dom) (s.facet l.facet)
  refine completes_onLine hwf hline (done_on rfl (State.lineReady_of hline hserves (by simp [hq, hupto])))
    fun t hdram hself hothers _ => ⟨?_, hothers, fun i hi hlate => ?_⟩
  · rw [hdram, hlines]
    rfl
  · rw [hself, Facet.sent_m, hring, ← l.wordOf_eq (by omega)]
    refine Memory.get_setAll_mem zeroW hy (s.dram.fetches_nodup l q _) (List.mem_map.2 ⟨i, ?_, rfl⟩)
    simpa [hi] using hlate

/-! ### STREAM_DEADLINE_MISS (R145) -/

theorem completes_streamDeadlineMiss {s : State} {id : Nat} {l : DramLine} (hwf : s.unitsWf = true)
    (hline : s.dram.line id = some l) (ha : s.awake = true) (hy : Memory.wf zeroW (s.facet l.facet).m.y = true)
    (hupto : l.upto ≤ s.period l.dom + 1) :
    Completes (.streamDeadlineMiss id (s.period l.dom + 1)) s [.dram, .facets, .reports] fun t =>
      t.dram.words = s.dram.words ∧ t.dram.lateCount = min 0xFFFF (s.dram.lateCount + 1) ∧ t.dram.stat.flag dramLate = true ∧
      ⟨0x505, 5, l.ch, 3, false, false, l.who <<< 32⟩ ∈ t.health.flying ∧
      Memory.get zeroW (t.facet l.facet).m.y ((l.rring + (s.period l.dom + 1) % 256) % 32768) = 0 := by
  refine completes_onLine hwf hline (done_on rfl (by simp [hline, ha, hupto])) fun t hdram hself _ hrep => ?_
  rw [hdram, hself]
  refine ⟨rfl, ?_, ?_, hrep _ (List.mem_append_right _ (List.mem_singleton_self _)), ?_⟩
  · change incSat 0xFFFF s.dram.lateCount = _
    unfold incSat
    split <;> omega
  · change (s.dram.stat ||| Word.one dramLate).flag dramLate = true
    simp [Word.flag, Word.one, dramLate]
  · simp only [Facet.sent_m, DramSys.miss, Facet.write_y]
    exact Memory.get_set_same zeroW _ _ _ hy

/-- Settles O37, command by command. -/
theorem delayLineStream : Obligations.DelayLineStream := by
  unfold Obligations.DelayLineStream
  refine ⟨fun l n m hd hld => ⟨l.wordOf_eq n.zero_le, ?_, l.wordOf_ne⟩, ?_, ?_, ?_⟩
  · rw [l.wordOf_eq (Nat.le_add_left ..), l.wordOf_eq n.zero_le, Nat.add_sub_cancel, Nat.sub_zero]
  · intro s id q l hram hwf hline hnext _ hld _ _ ha ht hs hbad hfbad hq hq'
    exact completes_streamBurstWrite hram hwf hline hnext hld (State.dramServes_of ha ht hs) hbad hfbad hq hq'
  · intro s id q l _ hwf hline hnext _ _ hd ha ht hs hbad hy hq hupto
    exact completes_streamBurstFetch hwf hline hnext hd (State.dramServes_of ha ht hs) hbad hy hq hupto
  · intro s id l hwf hline _ _ ha hy hupto
    exact completes_streamDeadlineMiss hwf hline ha hy hupto

end Sys2Proof.Machine

/-!
SUPPORT. The fade-in of a dip (R247, R248) where the new graph keeps a sink with fewer channels: the channel that it loses fades out
and then delivers 0, its reader is released, and nothing fades in.
-/

namespace Sys2Proof.Machine

/-- R248: at the fade-in tick of an epoch whose only sink change is a removed channel, that channel's reader is released. -/
theorem State.fadeInStart_removed {s : State} {p : Nat} {a : Armed} {x : SinkChg}
    (hfind : s.setter.armed.find? (fun a => a.part == p && (a.law == .dip || a.law == .fadeIn) &&
      (domList a.doms).any fun k => a.f.getD k 0 ≤ s.period k) = some a)
    (hsinks : a.sinks = [x]) (hgone : x.gone = true) (hdom : a.doms.testBit x.dom = true) (hdue : a.f.getD x.dom 0 ≤ s.period x.dom) :
    s.fadeInStart p = (s.freeSink a x).pruneArmed := by
  have hturns : a.sinks.filter (fun x => a.doms.testBit x.dom && decide (a.f.getD x.dom 0 ≤ s.period x.dom)) = [x] := by
    rw [hsinks, List.filter_cons_of_pos (by rw [hdom, decide_eq_true hdue]; rfl), List.filter_nil]
  rw [State.fadeInStart, hfind]
  simp only [hturns, List.foldl_cons, List.foldl_nil, hgone, if_true]

/-- The sink of serial port 15 in domain 2, with `n` channels. -/
def portSink (n : Nat) : GNode :=
  { id := 1, typ := tSnkPort, cls := 0, dom := 2, nIn := n, nOut := 0, name := [], attr := [0, 15, 0, 0], slots := [], adm := 1, sids := [],
    cross := [], pads := [], hops := [], ctx := 0, lanes := [], off := 0 }

/-- The graph of that sink alone. -/
def portSinkGraph (n : Nat) : Graph := { Graph.empty with nodes := [portSink n] }

/-- Channel 1 of the sink is removed. -/
def channelRemoved : SinkChg := ⟨1, 1, 2, 0, 0, true⟩

/-- R246, R247: a new graph in which the sink has one channel in place of two makes this change and no other. -/
theorem sinkChanges_portSink : sinkChanges (portSinkGraph 2) (portSinkGraph 1) = [channelRemoved] := by decide

/-- The dip of partition 3 to that graph: its commit tick in domain 2 is 10, its fade-in tick 50. -/
def narrowingDip : Armed :=
  { Armed.base 3 .dip (portSinkGraph 2) (portSinkGraph 1) with
    sinks := [channelRemoved], doms := 4, c := [0, 0, 10], f := [0, 0, 50], begun := 4, force := 4, gone := 4, swaps := 4 }

/-- A device in full service in which that fade-in tick has come; port 15 still reads its two channels. -/
def narrowedSink : State :=
  { State.reset with
    boot := { Boot.reset with at_ := .full }
    clk := { ClkSys.reset with coreLock := true, doms := [(2, { Dom.reset with run := true, declared := true, st := .locked, next := 60 })] }
    ports := { Serial.reset with ports := [(15, { SerPort.reset 15 with outs := [(0, Reader.of 0), (1, ⟨0, 0, .dip 10 50⟩)] })] }
    setter := { SetterSys.reset with armed := [narrowingDip] } }

/-- R247, R248: after FADE_IN_START the port reads the channel that it keeps, and no other. -/
theorem fadeInStart_narrowedSink : ((narrowedSink.fadeInStart 3).settle.ports.port 15).outs = [(0, Reader.of 0)] := by
  have hfree : narrowedSink.fadeInStart 3 = (narrowedSink.freeSink narrowingDip channelRemoved).pruneArmed :=
    State.fadeInStart_removed (by decide) rfl rfl (by decide) (by decide)
  rw [hfree]
  decide

/-- Refutes O55, by its clause on FADE_IN_START: it asks a fade-in of every changed sink channel whose node the new graph holds, but
where that node has lost the channel, R248 has it deliver 0. -/
theorem not_epochCommands : ¬ Obligations.EpochCommands := by
  unfold Obligations.EpochCommands
  intro h
  obtain ⟨-, -, hfade, -⟩ := h
  obtain ⟨t, hexec, ⟨-, houts⟩, -⟩ := (hfade narrowedSink 3 (by decide) (by decide) (by decide)).2 narrowingDip (by decide)
  have ht : t = (narrowedSink.fadeInStart 3).settle := (Host.Outcome.next.inj ((done_on rfl rfl).symm.trans hexec)).symm
  have hreader := houts channelRemoved (portSink 1) 15 rfl rfl rfl (by decide) (by decide) rfl rfl rfl
  rw [ht, fadeInStart_narrowedSink] at hreader
  exact absurd hreader (by decide)

end Sys2Proof.Machine

/-!
SUPPORT. The rotating register names of R156: what a name means at issue, and that a landing in a D register holds a physical number.
-/

namespace Sys2Proof.Machine

theorem Uzor.phys_fixed (u : Uzor) {k : Nat} (h : k < 32) : u.phys k = k := if_pos h

theorem Uzor.phys_rotating (u : Uzor) {k : Nat} (h : 32 ≤ k) : u.phys k = 32 + (k - 32 + (u.rsp spROTB).toNat) % 32 :=
  if_neg (Nat.not_lt.2 h)

/-- R156: a landing in a D register does not resolve its number again. -/
theorem land_d (f : Facet) (k : Nat) (v : Word) : (land f (.d k v)).u.d = Memory.set zeroW f.u.d k v := rfl

/-- Settles O27: names are resolved by `phys` at issue, and a landing takes its register from the effect alone. -/
theorem rotatingNames : Obligations.RotatingNames := by
  unfold Obligations.RotatingNames
  refine ⟨fun u k hk => ?fixed, fun u k hk _ => ?rotating, mem_dWb, fun f k v r => ⟨rfl, ?landing⟩⟩
  case fixed => simp only [Uzor.rd, u.phys_fixed hk, and_self]
  case rotating => simp only [Uzor.rd, u.phys_rotating hk, and_self]
  case landing => simp only [land_d]

end Sys2Proof.Machine

/-!
SUPPORT. The accumulation of a tile without errors (R188, R189, R195): what an entry adds, what a row of entries adds up to, and what
a sink of one row puts out.
-/

namespace Sys2Proof.Machine

/-! ### A tile without errors -/

section
variable {t : Tile} (hbad : t.bad = [])
include hbad

theorem Tile.check_of_bad_nil (m : EccMem) (i : Nat) : t.check m i = (t, false) := by
  rw [Tile.check, hbad]
  rfl

theorem Tile.checks_of_bad_nil (m : EccMem) (is : List Nat) : t.checks m is = (t, false) := by
  unfold Tile.checks
  induction is with
  | nil => rfl
  | cons i is ih => simpa only [List.foldl_cons, t.check_of_bad_nil hbad, Bool.or_false] using ih

theorem Tile.fresh_of_bad_nil (m : EccMem) (is : List Nat) : t.fresh m is = t := by
  have hmarks : is.foldl (fun b i => unmark b m i) t.bad = t.bad := by
    rw [hbad]
    induction is with
    | nil => rfl
    | cons i is ih => exact ih
  rw [Tile.fresh, hmarks]

end

/-- R189: what a SID reads in a tile without errors; the silence slot and a source that is not present read 0. -/
def sourceValue (rd : Nat → Option Word) (sid : Nat) : Word := if sid = 0 then 0 else (rd sid).getD 0

theorem Tile.source_of_bad_nil {t : Tile} (hbad : t.bad = []) (rd : Nat → Option Word) (pb sid : Nat) :
    ∃ present, t.source rd pb sid = (t, sourceValue rd sid, present) := by
  simp only [Tile.source, t.check_of_bad_nil hbad, sourceValue]
  split
  · exact ⟨_, rfl⟩
  · exact ⟨_, rfl⟩

theorem Tile.entry_setEntry_other (t : Tile) {e k : Nat} (v : BitVec 48) (h : k ≠ e) : (t.setEntry e v).entry k = t.entry k :=
  Memory.get_set_other _ _ _ _ _ h

/-! ### Entries (R188) -/

/-- R188: the product x_e × g_e that entry `e` adds to its sink; an entry that is not active adds nothing. -/
def Tile.product (t : Tile) (rd : Nat → Option Word) (e : Nat) : Int :=
  if entActive (t.entry e) then (sourceValue rd (entSid (t.entry e))).toInt * entSigned (t.entry e) else 0

/-- R188: one entry adds its product, and the tile changes at that entry alone. -/
theorem Tile.accEntry_of_bad_nil {s : Tile × Int × Nat} (hbad : s.1.bad = []) (rd : Nat → Option Word) (pb e : Nat) :
    (Tile.accEntry s rd pb e).2.1 = s.2.1 + s.1.product rd e ∧
      ((Tile.accEntry s rd pb e).1 = s.1 ∨ ∃ v, (Tile.accEntry s rd pb e).1 = s.1.setEntry e v) := by
  obtain ⟨present, hsource⟩ := Tile.source_of_bad_nil hbad rd pb (entSid (s.1.entry e))
  simp only [Tile.accEntry, Tile.product, s.1.checks_of_bad_nil hbad, Bool.or_false, hsource]
  cases entActive (s.1.entry e) with
  | false => exact ⟨(Int.add_zero _).symm, .inl rfl⟩
  | true => exact ⟨rfl, .inr ⟨_, Tile.fresh_of_bad_nil (t := s.1.setEntry e (entPut (s.1.entry e) 5 present)) hbad _ _⟩⟩

/-- R188: different entries add up their products, each as the entry stood before the first of them was taken. -/
theorem Tile.accEntries_of_bad_nil (rd : Nat → Option Word) (pb : Nat) {es : List Nat} (hes : es.Nodup) {s : Tile × Int × Nat}
    (hbad : s.1.bad = []) :
    let r := es.foldl (fun s e => Tile.accEntry s rd pb e) s
    r.1.bad = [] ∧ r.1.slots = s.1.slots ∧ r.2.1 = s.2.1 + (es.map (s.1.product rd)).sum := by
  induction es generalizing s with
  | nil => exact ⟨hbad, rfl, (Int.add_zero _).symm⟩
  | cons e es ih =>
    obtain ⟨hnew, hes⟩ := List.nodup_cons.1 hes
    obtain ⟨hacc, htile⟩ := Tile.accEntry_of_bad_nil hbad rd pb e
    have hframe : (Tile.accEntry s rd pb e).1.bad = [] ∧ (Tile.accEntry s rd pb e).1.slots = s.1.slots ∧
        es.map ((Tile.accEntry s rd pb e).1.product rd) = es.map (s.1.product rd) := by
      obtain hsame | ⟨v, hset⟩ := htile
      · rw [hsame]
        exact ⟨hbad, rfl, rfl⟩
      · rw [hset]
        refine ⟨hbad, rfl, List.map_congr_left fun k hk => ?_⟩
        rw [Tile.product, Tile.product, s.1.entry_setEntry_other v (ne_of_mem_of_not_mem hk hnew)]
    obtain ⟨hbad', hslots, hproducts⟩ := hframe
    obtain ⟨hbadEnd, hslotsEnd, haccEnd⟩ := ih hes hbad'
    refine ⟨hbadEnd, hslotsEnd.trans hslots, haccEnd.trans ?_⟩
    rw [hacc, hproducts, List.map_cons, List.sum_cons, Int.add_assoc]

/-! ### Sinks of one row (R182, R188, R195) -/

/-- The entries of a row, in the order in which the tile takes them. -/
def rowEntries (row : Nat) : List Nat := (List.range 8).map (8 * row + ·)

theorem rowEntries_nodup (row : Nat) : (rowEntries row).Nodup :=
  List.Pairwise.map (8 * row + ·) (fun _ _ hne heq => hne (Nat.add_left_cancel heq)) List.nodup_range

/-- R182: a sink whose first row ends with SINK_LAST has that row alone. -/
theorem sinkRows_of_last {t : Tile} {row : Nat} (h : entLast (t.entry (8 * row + 7)) = true) (fuel : Nat) :
    sinkRows t (fuel + 1) row = ([row], true) := if_pos h

/-- R197: a slot that a swap asks to initialise starts at the target scale. -/
theorem SinkSlot.step_scale_of_init {sl : SinkSlot} (h : sl.init = true) (n target : Nat) : (sl.step n target).scale = target := by
  rw [SinkSlot.step, if_pos h]

/-- R195: without scaling the target scale is unity. -/
theorem targetScale_unscaled (n : Nat) : targetScale 0 n = 2 ^ 23 := ite_self _

theorem descModes_of_not_faulty {d : Nat} (h : descFaulty d = false) : descModes d = (descXmode d, descScale d) := by
  rw [descModes, h]
  rfl

/-- R188: a single-tile sink of one row at unity scale writes its sum of products, rounded and saturated, to its OUT_SID. -/
theorem Tile.accSink_one_row {o : TileOut} (rd : Nat → Option Word) (pb n i : Nat) (hbad : o.t.bad = []) {d : Nat}
    (hd : o.t.desc o.t.bank i = d) (hfault : descFaulty d = false) (hxmode : descXmode d = 0) (hscale : descScale d = 0)
    (hinit : (Memory.get (fun _ => SinkSlot.zero) o.t.slots (descSlot d)).init = true)
    (hlast : entLast (o.t.entry (8 * descRow d + 7)) = true) :
    (Tile.accSink o rd pb n i).plane = o.plane ++
        [(descSid d, wordI (satN 32 (roundEven (((rowEntries (descRow d)).map (o.t.product rd)).sum * 2 ^ 23) 43)))] ∧
      (Tile.accSink o rd pb n i).adds = o.adds := by
  obtain ⟨hbad', hslots, hacc⟩ := Tile.accEntries_of_bad_nil rd pb (rowEntries_nodup (descRow d)) (s := (o.t, 0, 0)) hbad
  rw [Int.zero_add] at hacc
  have hmodes : descModes d = (0, 0) := by rw [descModes_of_not_faulty hfault, hxmode, hscale]
  have hrow (s : Tile × Int × Nat) : (List.range 8).foldl (fun s k => Tile.accEntry s rd pb (8 * descRow d + k)) s =
      (rowEntries (descRow d)).foldl (fun s e => Tile.accEntry s rd pb e) s := List.foldl_map.symm
  rw [← hslots] at hinit
  simp only [Tile.accSink, Tile.checks_of_bad_nil hbad, hd, sinkRows_of_last hlast, hfault, hmodes, List.foldl_cons, List.foldl_nil,
    hrow, Tile.checks_of_bad_nil hbad', SinkSlot.step_scale_of_init hinit, targetScale_unscaled, hacc, if_true, Bool.false_eq_true,
    if_false, Int.natCast_pow, Int.cast_ofNat_Int, and_self]

/-! ### The accumulation -/

theorem Tile.handleAll_of_queue_nil {t : Tile} (h : t.queue = []) (rd : Nat → Option Word) (pb n : Nat) (p : Nat → Bool) :
    t.handleAll rd pb n p = t := by
  rw [Tile.handleAll, h]
  rfl

/-- R188: without pending gain changes, an accumulation puts out what its sinks put out. -/
theorem Tile.accumulate_of_queue_nil {t : Tile} (h : t.queue = []) (rd : Nat → Option Word) (pb n cyc : Nat) :
    (t.accumulate rd pb n cyc).plane = (t.accSinks rd pb n t.descCount).plane ∧
      (t.accumulate rd pb n cyc).adds = (t.accSinks rd pb n t.descCount).adds := by
  simp only [Tile.accumulate, t.handleAll_of_queue_nil h, and_self]

/-- Settles O29: the one sink is of one row, and its slot starts at unity scale. -/
theorem tileMixesASink : Obligations.TileMixesASink := by
  unfold Obligations.TileMixesASink
  intro t rd pb n cyc hbad hqueue hcount d x hfault hxmode hscale hinit hlast
  have hone : t.descCount = 1 := by rw [Tile.descCount, hcount]; rfl
  have hsum : ((rowEntries (descRow d)).map (t.product rd)).sum = x 0 + x 1 + x 2 + x 3 + x 4 + x 5 + x 6 + x 7 := by
    change x 0 + (x 1 + (x 2 + (x 3 + (x 4 + (x 5 + (x 6 + (x 7 + 0))))))) = _
    simp only [Int.add_zero, Int.add_assoc]
  obtain ⟨hplane, hadds⟩ := t.accumulate_of_queue_nil hqueue rd pb n cyc
  rw [hone] at hplane hadds
  rw [hplane, hadds, ← hsum]
  exact Tile.accSink_one_row rd pb n 0 hbad rfl hfault hxmode hscale hinit hlast

end Sys2Proof.Machine

/-!
SUPPORT. The arming of a transaction that starts a rate domain (R32, R241, R305, R306): no sample of an earlier run of the domain is valid
from then on, so the plane changes with the arming.
-/

namespace Sys2Proof.Machine

/-- R32, R305: a domain starts with the valid bits of both its buffers clear. -/
theorem State.startAt_plane (s : State) (k : Nat) (x : Nat × Nat) (t : Nat) :
    (s.startAt k x t).plane = Memory.clearRun (Memory.clearRun s.plane (planeKey k 0 0) planeSize) (planeKey k 1 0) planeSize := by
  unfold State.startAt
  dsimp only
  split <;> rfl

/-- P0's transaction that declares domain 1, at 48 kHz with tolerance code 0, and holds no node; it commits at the earliest tick. -/
def domainStart : Build :=
  { entry := { Entry.none_ 0 0 with op := 1 }
    law := .blend
    fq := { part := 0, full := true, tag := 77, graph := Graph.empty, doms := [(1, some (2, 0))], commit := ⟨2, 0, 240, 0⟩, param := false, chgs := []
            recs := 1, groups := true }
    plan := { refuse := none, dip := false, sids := [], pads := [], hops := [], ctxs := [], lanes := [], blocks := [], sinks := [], lines := [], geo := []
              facs := [], earliest := 4, shed := [] }
    graph := Graph.empty, chg := [], marks := [], sinks := [] }

/-- A sample that TDM port 15 wrote. -/
def staleSample : PCell := ⟨5, 4, 15⟩

/-- A device in full service in which domain 1 does not run, while the plane still holds a sample of its last run in slot 9; the
transaction that starts it anew has been admitted. -/
def stoppedDomain : State :=
  { State.reset with
    boot := { Boot.reset with at_ := .full, rel := 7 }
    clk := { ClkSys.reset with coreLock := true }
    plane := [(planeKey 1 0 9, staleSample)]
    setter := { SetterSys.reset with builds := [domainStart] } }

/-- R306: of this arming the plane sees the start of domain 1 alone. -/
theorem arm_stoppedDomain_plane : (stoppedDomain.arm [0, 0, 0]).plane = (stoppedDomain.startAt 1 (2, 0) 0).plane := by decide

/-- R32: the sample of the last run is not valid in the new one. -/
theorem startAt_stoppedDomain_plane : (stoppedDomain.startAt 1 (2, 0) 0).plane = [] := by
  rw [State.startAt_plane]
  decide

/-- Refutes O54, by the frame of its clause on ARMING_COMPLETE: it leaves the plane out of what the arming changes, but the arming of a
transaction that declares a stopped domain starts the domain (R306), and the samples of its earlier run go. -/
theorem not_graphCommands : ¬ Obligations.GraphCommands := by
  unfold Obligations.GraphCommands
  intro h
  obtain ⟨-, -, -, -, harm⟩ := h
  obtain ⟨t, hexec, -, -, hframe⟩ := harm stoppedDomain domainStart [] [0, 0, 0] (by decide) (by decide) (by decide) rfl (by decide) rfl
  have ht : t = (stoppedDomain.arm [0, 0, 0]).settle := (Host.Outcome.next.inj ((done_on rfl (by decide)).symm.trans hexec)).symm
  have hplane : t.plane = stoppedDomain.plane := hframe .plane (by decide)
  rw [ht, State.settle_plane, arm_stoppedDomain_plane, startAt_stoppedDomain_plane] at hplane
  exact List.cons_ne_nil _ _ hplane.symm

end Sys2Proof.Machine

/-!
SUPPORT. FULL_SERVICE and the network transmitters (R325, R422): they are off before it and on with it, so what the network block still
holds goes onto the wire as full service begins.
-/

namespace Sys2Proof.Machine

/-- R422 step 5: the start of full service. -/
theorem exec_fullService {s : State} (ha : s.awake = true) (hat : s.boot.at_ = .s2) (hpads : s.power.pads = true) :
    exec .fullService s = .next (s.withBoot fun b => { b with at_ := .full, code := 8 }).settle :=
  done_on rfl (by simp [ha, hat, hpads])

/-- R325: before full service no frame leaves. -/
theorem State.settle_out_of_not_full {s : State} (hat : s.boot.at_ ≠ .full) : s.settle.out = s.host.outs := by
  have htx : s.txOn = false := by simp [State.txOn, hat]
  rw [State.settle_out, htx, if_neg Bool.false_ne_true, List.append_nil]

/-- R325: in Run FULL_SERVICE puts every frame that the network block holds on the wire, beside the outputs of a command without effect. -/
theorem fullService_out {s t : State} (hrun : s.power.phase = .run) (hat : s.boot.at_ = .s2) (hpads : s.power.pads = true)
    (hexec : exec .fullService s = .next t) : t.out = s.settle.out ++ s.net.sent.map fun f => Out.netFrame f.1 f.2 := by
  have ha : s.awake = true := by simp [State.awake, Power.awake, hrun]
  have ht : t = (s.withBoot fun b => { b with at_ := .full, code := 8 }).settle :=
    (Host.Outcome.next.inj ((exec_fullService ha hat hpads).symm.trans hexec)).symm
  have htx : (s.withBoot fun b => { b with at_ := .full, code := 8 }).txOn = true := by simp [State.txOn, Power.awake, hrun]
  rw [ht, State.settle_out, htx, if_pos rfl, State.settle_out_of_not_full (by simp [hat]), State.withBoot_host, State.withBoot_net]

/-- A device whose S2 has released the pads, while the network block still holds a frame for port 0. -/
def frameBeforeFullService : State :=
  { State.reset with
    boot := { Boot.reset with at_ := .s2 }
    power := { Power.reset with pads := true }
    net := { NetSys.reset with sent := [(0, [])] } }

/-- Refutes O15, by the frame of its clause on FULL_SERVICE: it leaves the outputs out of what the command changes and does not ask for a
quiet state, so a frame that the network block still holds leaves as the transmitters go on. No command leaves such a state behind (each
ends in a quiet one): with `quiet` as a hypothesis, `fullService_out` is the frame's clause on the outputs. -/
theorem not_dramInitAndS2 : ¬ Obligations.DramInitAndS2 := by
  unfold Obligations.DramInitAndS2
  intro h
  obtain ⟨-, -, -, -, -, -, hfull⟩ := h
  obtain ⟨t, hexec, -, -, hframe⟩ := hfull frameBeforeFullService rfl rfl rfl
  have hsame : t.out = frameBeforeFullService.settle.out := hframe .out (by decide)
  have hsends := fullService_out rfl rfl rfl hexec
  exact List.cons_ne_nil _ _ (List.self_eq_append_right.1 (hsame.symm.trans hsends))

end Sys2Proof.Machine

/-!
SUPPORT. The step and the end of a command (R422, R473): a step runs the front command, idling publishes, and a command that has ended
leaves nothing unsent.
-/

namespace Sys2Proof.Machine

/-- Settles O1: this is the step of a queue that is not empty. -/
theorem stepRunsTheFrontCommand : Obligations.StepRunsTheFrontCommand := fun _ _ _ => rfl

/-- A device in which tile 0 publishes its cross-tile sums (R38). -/
def publishingTile : State := { State.reset with tiles := [(0, { Tile.reset with st := .publishing })] }

/-- Refutes O2: when a microsecond of idling has passed, the window of 256 cycles in which a tile publishes (R38) is over, so a tile that
published accumulates. -/
theorem not_emptyQueueLetsAMicrosecondPass : ¬ Obligations.EmptyQueueLetsAMicrosecondPass := by
  unfold Obligations.EmptyQueueLetsAMicrosecondPass
  intro h
  have hstep : publishingTile.idle = { publishingTile with us := 1, ns := 1000 } := Host.Outcome.next.inj (h publishingTile rfl)
  have htiles : publishingTile.idle.tiles = publishingTile.tiles := by rw [hstep]
  exact absurd htiles (by decide)

theorem State.settle_quiet (s : State) : s.settle.quiet = true := by
  simp [State.quiet, State.settle_unitReports]

/-- Settles O3: the meaning of every command ends in `done`, and what `done` answers has been settled. -/
theorem commandsAnswerAndSendOff : Obligations.CommandsAnswerAndSendOff := fun i s => by
  obtain ⟨on, t, hexec⟩ := exec_eq_done i s
  exact ⟨(if i.wf && on then t else s).settle, hexec, State.settle_quiet _⟩

/-- POR from a state in which no unit holds anything back needs no sending off. -/
theorem State.por_settle (s : State) : s.por.settle = s.por := rfl

/-- Settles O11. -/
theorem powerOnReset : Obligations.PowerOnReset :=
  ⟨fun s => (done_on (s := s) (t := s.por) rfl rfl).trans (congrArg Host.Outcome.next s.por_settle), rfl⟩

end Sys2Proof.Machine

/-!
SUPPORT. What decides the queue and the quiesce handshake (R465): the waiting commands, the power phase and the count of stopped blocks.
-/

namespace Sys2Proof.Machine

/-- The waiting commands, the power phase and the number of stopped blocks. -/
def State.control (s : State) : List Instr × PwrPhase × Nat := (s.pending, s.power.phase, s.power.stopped)

theorem State.control_of_same {s t : State} (hq : t.pending = s.pending) (hp : t.power.phase = s.power.phase)
    (hn : t.power.stopped = s.power.stopped) : t.control = s.control := by
  simp only [State.control, hq, hp, hn]

/-! ### Updates of one piece -/

@[simp] theorem State.withMem_control (s : State) (f : MemSys → MemSys) : (s.withMem f).control = s.control := rfl
@[simp] theorem State.withDram_control (s : State) (f : DramSys → DramSys) : (s.withDram f).control = s.control := rfl
@[simp] theorem State.withClk_control (s : State) (f : ClkSys → ClkSys) : (s.withClk f).control = s.control := rfl
@[simp] theorem State.withPorts_control (s : State) (f : Serial → Serial) : (s.withPorts f).control = s.control := rfl
@[simp] theorem State.withLinks_control (s : State) (f : LinkSys → LinkSys) : (s.withLinks f).control = s.control := rfl
@[simp] theorem State.withNet_control (s : State) (f : NetSys → NetSys) : (s.withNet f).control = s.control := rfl
@[simp] theorem State.withHost_control (s : State) (f : HostSys → HostSys) : (s.withHost f).control = s.control := rfl
@[simp] theorem State.withSetter_control (s : State) (f : SetterSys → SetterSys) : (s.withSetter f).control = s.control := rfl
@[simp] theorem State.withClasp_control (s : State) (f : Clasp → Clasp) : (s.withClasp f).control = s.control := rfl
@[simp] theorem State.withBoot_control (s : State) (f : Boot → Boot) : (s.withBoot f).control = s.control := rfl
@[simp] theorem State.withHealth_control (s : State) (f : Health → Health) : (s.withHealth f).control = s.control := rfl
@[simp] theorem State.setFacet_control (s : State) (n : Nat) (f : Facet) : (s.setFacet n f).control = s.control := rfl
@[simp] theorem State.setTile_control (s : State) (n : Nat) (t : Tile) : (s.setTile n t).control = s.control := rfl
@[simp] theorem State.setPin_control (s : State) (n : Nat) (g : Gpio) : (s.setPin n g).control = s.control := rfl
@[simp] theorem State.modFacet_control (s : State) (n : Nat) (g : Facet → Facet) : (s.modFacet n g).control = s.control := rfl
@[simp] theorem State.modTile_control (s : State) (n : Nat) (g : Tile → Tile) : (s.modTile n g).control = s.control := rfl
@[simp] theorem State.at__control (s : State) (ns : Nat) : (s.at_ ns).control = s.control := rfl
@[simp] theorem State.stepNs_control (s : State) (d : Int) : (s.stepNs d).control = s.control := rfl
@[simp] theorem State.note_control (s : State) (r : Report) : (s.note r).control = s.control := rfl
@[simp] theorem State.report_control (s : State) (cause cls inst : Nat) (clear : Bool) : (s.report cause cls inst clear).control = s.control := rfl
@[simp] theorem State.notes_control (s : State) (rs : List Report) : (s.notes rs).control = s.control := rfl
@[simp] theorem State.take_control (s : State) (n : Nat) : (s.take n).2.control = s.control := rfl
@[simp] theorem State.events_control (s : State) (n : Nat) : (s.events n).2.control = s.control := rfl
@[simp] theorem State.emit_control (s : State) (o : Out) : (s.emit o).control = s.control := rfl
@[simp] theorem State.hostPut_control (s : State) (g : HostSys → HostSys × List (Nat × List Byte)) : (s.hostPut g).control = s.control := rfl
@[simp] theorem State.putXram_control (s : State) (ws : List (Nat × List Byte)) : (s.putXram ws).control = s.control := rfl
@[simp] theorem State.ungate_control (s : State) (kind n : Nat) : (s.ungate kind n).control = s.control := rfl
@[simp] theorem State.settle_control (s : State) : s.settle.control = s.control := rfl

theorem State.withPower_control {s : State} {f : Power → Power} (hp : (f s.power).phase = s.power.phase)
    (hn : (f s.power).stopped = s.power.stopped) : (s.withPower f).control = s.control :=
  State.control_of_same rfl hp hn

theorem State.mem_update_control (s : State) (x : MemSys) : ({ s with mem := x } : State).control = s.control := rfl
theorem State.sram_update_control (s : State) (x : Memory Word) : ({ s with sram := x } : State).control = s.control := rfl
theorem State.dram_update_control (s : State) (x : DramSys) : ({ s with dram := x } : State).control = s.control := rfl
theorem State.ports_update_control (s : State) (x : Serial) : ({ s with ports := x } : State).control = s.control := rfl
theorem State.clasp_update_control (s : State) (x : Clasp) : ({ s with clasp := x } : State).control = s.control := rfl
theorem State.boot_update_control (s : State) (x : Boot) : ({ s with boot := x } : State).control = s.control := rfl
theorem State.plane_update_control (s : State) (x : Memory PCell) : ({ s with plane := x } : State).control = s.control := rfl

theorem Power.writeReg_phase (p : Power) (now o : Nat) (v : Word) : (p.writeReg now o v).phase = p.phase := by
  simp [Power.writeReg, Power.reload, apply_ite Power.phase]

theorem Power.writeReg_stopped (p : Power) (now o : Nat) (v : Word) : (p.writeReg now o v).stopped = p.stopped := by
  simp [Power.writeReg, Power.reload, apply_ite Power.stopped]

theorem Power.setIdleAt_stopped (p : Power) (n : Nat) : ({ p with idleAt := n } : Power).stopped = p.stopped := rfl

theorem Power.reload_stopped (p : Power) (now : Nat) : (p.reload now).stopped = p.stopped := Power.setIdleAt_stopped p _

theorem State.foldl_control {α : Type} {f : State → α → State} (h : ∀ s x, (f s x).control = s.control) (l : List α) (s : State) :
    (l.foldl f s).control = s.control := foldl_keeps State.control f h l s


/-! ### The plane and memories -/

@[simp] theorem State.writeSid_control (s : State) (k kind inst sid : Nat) (v : Word) :
    (s.writeSid k kind inst sid v).control = s.control := by
  simp only [State.writeSid]
  split
  · simp
  · split <;> simp [↓State.plane_update_control, apply_ite State.control]
@[simp] theorem State.writeSids_control (s : State) (k kind inst : Nat) (ws : List (Nat × Word)) :
    (s.writeSids k kind inst ws).control = s.control :=
    State.foldl_control (fun _ _ => by simp) _ _
@[simp] theorem State.flip_control (s : State) (k n : Nat) : (s.flip k n).control = s.control := rfl
@[simp] theorem State.xramRead_control (s : State) (p a n : Nat) : (s.xramRead p a n).1.control = s.control := by
  unfold State.xramRead
  exact foldl_keeps (fun r : State × List Byte => r.1.control) _ (fun _ _ => by simp) _ _
@[simp] theorem State.screened_control (s : State) : s.screened.control = s.control := rfl

/-! ### The work of the Setter (R206 to R257) -/

@[simp] theorem State.loadFacet_control (s : State) (f k t : Nat) (all : Bool) : (s.loadFacet f k t all).control = s.control := by
  simp only [State.loadFacet]
  split
  · simp [apply_ite State.control]
  · split <;> simp
@[simp] theorem State.loadTile_control (s : State) (n k t : Nat) (all : Bool) : (s.loadTile n k t all).control = s.control :=
    by simp [State.loadTile, apply_ite State.control]
@[simp] theorem State.loadUnits_control (s : State) (fs ts : List Nat) (k t : Nat) (all : Bool) :
    (s.loadUnits fs ts k t all).control = s.control :=
    by simp [State.loadUnits, State.foldl_control]
@[simp] theorem State.placeIdle_control (s : State) (g : Graph) (w : Placed) : (s.placeIdle g w).control = s.control := by
  simp only [State.placeIdle]
  rw [State.foldl_control fun _ _ => by simp, State.foldl_control fun _ _ => by simp]
@[simp] theorem State.placeLive_control (s : State) (w : Placed) : (s.placeLive w).control = s.control := by
  simp only [State.placeLive]
  rw [State.foldl_control fun _ _ => by simp, State.foldl_control fun _ _ => by simp]
@[simp] theorem State.swapLines_control (s : State) (gone new : List LineRec) (n : Nat) : (s.swapLines gone new n).control = s.control := by
  simp only [State.swapLines]
  rw [State.foldl_control fun _ _ => by split <;> simp, State.foldl_control fun _ _ => by simp]
@[simp] theorem State.modLine_control (s : State) (f id : Nat) (g : DLine → DLine) : (s.modLine f id g).control = s.control := rfl
@[simp] theorem State.moveLine_control (s : State) (l : LineRec) (d c x : Nat) (dip : Bool) (geo : Option LinePlace) :
    (s.moveLine l d c x dip geo).control = s.control :=
    by simp [State.moveLine, apply_ite State.control]
@[simp] theorem State.installLine_control (s : State) (p : Nat) (l : LineRec) (q : LinePlace) (t : Nat) :
    (s.installLine p l q t).control = s.control :=
    rfl
@[simp] theorem State.complete_control (s : State) (e : Entry) (c : Compl) : (s.complete e c).control = s.control := rfl
@[simp] theorem State.completeWith_control (s : State) (e : Entry) (status : Nat) : (s.completeWith e status).control = s.control := rfl
@[simp] theorem State.popIntake_control (s : State) : s.popIntake.control = s.control := rfl
@[simp] theorem State.extendObjs_control (s : State) (objs : List (List Byte)) : (s.extendObjs objs).control = s.control :=
    State.foldl_control (fun _ _ => by simp) _ _
@[simp] theorem State.txnStart_control (s : State) (plan : Plan) : (s.txnStart plan).control = s.control := by
  unfold State.txnStart
  repeat' split
  all_goals simp
@[simp] theorem State.ungateLanes_control (s : State) (g : Graph) : (s.ungateLanes g).control = s.control :=
    State.foldl_control (fun _ _ => by simp) _ _
@[simp] theorem State.armUnits_control (s : State) (part : Nat) (b : Build) (hz : Nat → Nat) : (s.armUnits part b hz).control = s.control :=
    State.foldl_control (fun _ _ => by
  repeat' split
  all_goals rfl) _ _
@[simp] theorem State.startNode_control (s : State) (part : Nat) (g : Graph) (dup : List Chan) (k : Nat) (n : GNode) :
    (s.startNode part g dup k n).control = s.control := by
  simp only [State.startNode]
  repeat' split
  all_goals rfl
@[simp] theorem State.padLanes_control (s : State) (g : Graph) (k : Nat) : (s.padLanes g k).control = s.control := rfl
@[simp] theorem State.startWork_control (s : State) (part : Nat) (g : Graph) (dup : List Chan) (k : Nat) (own : Bool) :
    (s.startWork part g dup k own).control = s.control := by
  simp only [State.startWork, State.padLanes_control]
  exact State.foldl_control (fun _ _ => by split <;> simp) _ _
@[simp] theorem State.stopWork_control (s : State) (part : Nat) (old g : Graph) (k : Nat) : (s.stopWork part old g k).control = s.control :=
    by simp [State.stopWork, State.foldl_control, apply_ite State.control]
@[simp] theorem State.setSink_control (s : State) (part : Nat) (g : Graph) (n : GNode) (ch : Nat) (r : Reader) :
    (s.setSink part g n ch r).control = s.control := by
  simp only [State.setSink]
  split
  · split <;> simp
  · simp [apply_ite State.control]
@[simp] theorem State.putSink_control (s : State) (a : Armed) (x : SinkChg) (r : Reader) : (s.putSink a x r).control = s.control := by
  unfold State.putSink
  split <;> simp
@[simp] theorem State.freeSink_control (s : State) (a : Armed) (x : SinkChg) : (s.freeSink a x).control = s.control := by
  unfold State.freeSink
  repeat' split
  all_goals simp
@[simp] theorem State.turnSinks_control (s : State) (a : Armed) (k : Nat) : (s.turnSinks a k).control = s.control :=
    State.foldl_control (fun _ _ => by simp) _ _
@[simp] theorem State.hushNode_control (s : State) (p : Nat) (ok : Nat → Bool) (n : GNode) : (s.hushNode p ok n).control = s.control := by
  simp only [State.hushNode]
  split
  · split <;> simp
  · simp [apply_ite State.control]
@[simp] theorem State.silence_control (s : State) (p : Nat) : (s.silence p).control = s.control := by
  simp only [State.silence, State.withSetter_control]
  rw [State.foldl_control fun _ _ => by simp, State.foldl_control fun _ _ => State.foldl_control (fun _ _ => by simp) _ _,
    State.withHost_control, State.foldl_control fun _ _ => by simp]
@[simp] theorem State.modArmed_control (s : State) (i : Nat) (a : Armed) : (s.modArmed i a).control = s.control := rfl
@[simp] theorem State.idleAgain_control (s : State) : s.idleAgain.control = s.control := by
  unfold State.idleAgain
  split
  · rfl
  · exact State.withPower_control (Power.reload_phase ..) (Power.reload_stopped ..)
@[simp] theorem State.epochForce_control (s : State) (a : Armed) : (s.epochForce a).control = s.control :=
    by simp [State.epochForce, apply_ite State.control]
@[simp] theorem State.dropEntries_control (s : State) (was now : Placed) : (s.dropEntries was now).control = s.control :=
    by simp [State.dropEntries, State.foldl_control, apply_ite State.control]
@[simp] theorem State.takeWork_control (s : State) (p : Nat) (w : Placed) (n : Nat) : (s.takeWork p w n).control = s.control :=
    by simp [State.takeWork, State.foldl_control, apply_ite State.control]
@[simp] theorem State.enterWork_control (s : State) (a : Armed) (k n : Nat) : (s.enterWork a k n).control = s.control :=
    by simp [State.enterWork, apply_ite State.control]
@[simp] theorem State.armedTick_control (s : State) (i : Nat) (a : Armed) (k n : Nat) : (s.armedTick i a k n).control = s.control :=
    by simp [State.armedTick, apply_ite State.control]
@[simp] theorem State.commitTick_control (s : State) (k n : Nat) : (s.commitTick k n).control = s.control :=
    State.foldl_control (fun _ _ => by split <;> simp) _ _
@[simp] theorem State.pruneArmed_control (s : State) : s.pruneArmed.control = s.control := rfl
@[simp] theorem State.modCalls_control (s : State) (p : Nat) (f : Call → Call) : (s.modCalls p f).control = s.control := rfl
@[simp] theorem State.armX_control (s : State) (f tick a : Nat) (v : Word) : (s.armX f tick a v).control = s.control := rfl
@[simp] theorem State.flipBlocks_control (s : State) (part node t : Nat) (ws : List Word) :
    (s.flipBlocks part node t ws).control = s.control :=
    State.foldl_control (fun _ _ => by simp) _ _
@[simp] theorem State.pushOrWait_control (s : State) (g : GainWait) : (s.pushOrWait g).control = s.control :=
    by simp [State.pushOrWait, apply_ite State.control]
@[simp] theorem State.drainGains_control (s : State) : s.drainGains.control = s.control :=
    by simp [State.drainGains, State.foldl_control, apply_ite State.control]
@[simp] theorem State.pushGain_control (s : State) (part node inp out t : Nat) (w : Word) (timeout : Nat) :
    (s.pushGain part node inp out t w timeout).control = s.control :=
    State.foldl_control (fun _ _ => by simp) _ _
@[simp] theorem State.rewriteBlocks_control (s : State) (part node : Nat) (ws : List Word) :
    (s.rewriteBlocks part node ws).control = s.control :=
    State.foldl_control (fun _ _ => by simp) _ _
@[simp] theorem State.stepSmooth_control (s : State) (q : Smooth) (n : GNode) : (s.stepSmooth q n).control = s.control := by
  unfold State.stepSmooth
  split <;> simp
@[simp] theorem State.setWords_control (s : State) (part : Nat) (n : GNode) (t : Nat) (ws : List (Nat × Word × Word × Nat)) :
    (s.setWords part n t ws).control = s.control := by
  simp only [State.setWords]
  split <;> simp [apply_ite State.control]
@[simp] theorem State.patchCalls_control (s : State) (part : Nat) (chgs : List PChange) (pl : Plan) (c : List Nat) :
    (s.patchCalls part chgs pl c).control = s.control := by
  simp only [State.patchCalls]
  rw [State.foldl_control fun _ _ => by simp, State.modCalls_control, State.foldl_control fun _ _ => by simp]
@[simp] theorem State.armParam_control (s : State) (part : Nat) (g : Graph) (chgs : List PChange) (c : List Nat) :
    (s.armParam part g chgs c).control = s.control := by
  simp only [State.armParam]
  rw [State.foldl_control, State.foldl_control]
  · intro t id
    split <;> simp
  · intro t x
    split
    · split <;> simp
    · rfl
@[simp] theorem State.smoothStep_control (s : State) (part : Nat) : (s.smoothStep part).control = s.control := by
  simp only [State.smoothStep]
  split
  · simp
  · split <;> simp
@[simp] theorem State.dropWork_control (s : State) (p k : Nat) (w : Placed) : (s.dropWork p k w).control = s.control :=
    by simp [State.dropWork]
@[simp] theorem State.shedNow_control (s : State) (shed : List (Nat × Nat)) : (s.shedNow shed).control = s.control :=
    State.foldl_control (fun _ _ => by
  simp only [State.withHost_control]
  rw [State.foldl_control fun _ _ => by simp, State.withSetter_control, State.foldl_control fun _ _ => by simp,
    State.foldl_control fun _ _ => by simp]) _ _
@[simp] theorem State.startAt_control (s : State) (k : Nat) (x : Nat × Nat) (t : Nat) : (s.startAt k x t).control = s.control := by
  simp only [State.startAt]
  split <;> simp [↓State.plane_update_control]
@[simp] theorem State.startDoms_control (s : State) (ds : List (Nat × Option (Nat × Nat))) (ns : List Nat) :
    (s.startDoms ds ns).control = s.control :=
    State.foldl_control (fun _ _ => by
  split
  · split <;> simp
  · rfl) _ _
@[simp] theorem State.moveLines_control (s : State) (part : Nat) (b : Build) (c : List Nat) : (s.moveLines part b c).control = s.control :=
    State.foldl_control (fun _ _ => by split <;> simp) _ _
@[simp] theorem State.loadArmed_control (s : State) (a : Armed) (k : Nat) : (s.loadArmed a k).control = s.control :=
    by simp [State.loadArmed]
@[simp] theorem State.arm_control (s : State) (ns : List Nat) : (s.arm ns).control = s.control := by
  unfold State.arm
  split <;> simp [State.foldl_control, apply_ite State.control]
@[simp] theorem State.collapse_control (s : State) (a : Armed) (k : Nat) : (s.collapse a k).control = s.control :=
    State.foldl_control (fun _ _ => by simp [apply_ite State.control]) _ _
theorem State.onArmed_control {f : State → Armed → State × Armed} (h : ∀ s a, (f s a).1.control = s.control) (s : State) (p : Nat)
    (ok : Armed → Bool) : (s.onArmed p ok f).control = s.control := by
  simp only [State.onArmed]
  split
  · rfl
  · split
    · rfl
    · simp [h]
theorem State.eachReady_control {f : State → Armed → Nat → State × Armed} (h : ∀ s a k, (f s a k).1.control = s.control) (s : State) (p : Nat)
    (ready : State → Armed → Nat → Bool) : (s.eachReady p ready f).control = s.control := by
  refine State.onArmed_control (fun t a => ?_) _ _ _
  refine foldl_keeps (fun r : State × Armed => r.1.control) _ (fun r k => ?_) _ _
  split
  · exact h ..
  · rfl
@[simp] theorem State.removalSwap_control (s : State) (p : Nat) : (s.removalSwap p).control = s.control :=
    State.eachReady_control (fun _ _ _ => by simp) _ _ _
@[simp] theorem State.dipSwap_control (s : State) (p : Nat) : (s.dipSwap p).control = s.control :=
    State.eachReady_control (fun _ _ _ => by simp) _ _ _
@[simp] theorem State.fadeInStart_control (s : State) (p : Nat) : (s.fadeInStart p).control = s.control := by
  unfold State.fadeInStart
  split <;> simp [State.foldl_control, apply_ite State.control]
@[simp] theorem State.geometrySwap_control (s : State) (p : Nat) : (s.geometrySwap p).control = s.control :=
    State.onArmed_control (fun t a => by
    split
    · rfl
    · split <;> simp) _ _ _
@[simp] theorem State.writeReport_control (s : State) (a : Armed) : (s.writeReport a).1.control = s.control := by
  simp only [State.writeReport]
  split <;> simp
@[simp] theorem State.epochCompletion_control (s : State) (p : Nat) : (s.epochCompletion p).control = s.control := by
  simp only [State.epochCompletion]
  split
  · rfl
  · split
    · rfl
    · simp [apply_ite State.control, apply_ite Prod.fst]
@[simp] theorem State.selfArm_control (s : State) (p : Nat) (e : Entry) (law : Law) (new : Graph) (number : Nat) (sinks : List SinkChg) :
    (s.selfArm p e law new number sinks).control = s.control :=
    State.foldl_control (fun _ _ => by simp) _ _
@[simp] theorem State.removeGraph_control (s : State) (p : Nat) (e : Entry) : (s.removeGraph p e).control = s.control :=
    by simp [State.removeGraph, apply_ite State.control]
@[simp] theorem State.recommit_control (s : State) (p : Nat) : (s.recommit p).control = s.control :=
    by simp [State.recommit, apply_ite State.control]
@[simp] theorem State.undoLines_control (s : State) (a : Armed) : (s.undoLines a).control = s.control :=
    State.foldl_control (fun _ _ => by split <;> simp) _ _
@[simp] theorem State.unarm_control (s : State) (w : Placed) : (s.unarm w).control = s.control := by
  simp only [State.unarm]
  rw [State.foldl_control fun _ _ => by simp, State.foldl_control fun _ _ => by simp]
@[simp] theorem State.undo_control (s : State) (a : Armed) : (s.undo a).control = s.control := by
  simp only [State.undo]
  rw [State.foldl_control, State.withSetter_control, State.undoLines_control, State.withClk_control, State.foldl_control fun _ _ => by simp,
    State.foldl_control]
  · intro t x
    repeat' split
    all_goals simp
  · intro t k
    split <;> simp
@[simp] theorem State.disarm_control (s : State) (p : Nat) : (s.disarm p).control = s.control := by
  simp only [State.disarm]
  split
  · simp
  · split <;> simp
@[simp] theorem State.lose_control (s : State) (p cls unit : Nat) : (s.lose p cls unit).control = s.control :=
    by simp [State.lose, State.foldl_control]
@[simp] theorem State.replace_control (s : State) (r : Replace) : (s.replace r).control = s.control := rfl
@[simp] theorem State.restartDom_control (s : State) (k ns : Nat) : (s.restartDom k ns).control = s.control := by
  simp only [State.restartDom]
  split
  · simp
  · split <;> simp [State.foldl_control, apply_ite State.control]
@[simp] theorem State.cleanup_control (s : State) : s.cleanup.control = s.control := State.foldl_control (fun _ _ => by split <;> simp) _ _
@[simp] theorem State.dropGraph_control (s : State) (p : Nat) (e : Entry) : (s.dropGraph p e).control = s.control :=
    by simp [State.dropGraph]
@[simp] theorem State.readLatch_control (s : State) (r o : Nat) : (s.readLatch r o).control = s.control :=
    by simp [State.readLatch, apply_ite State.control]

/-! ### Register accesses (R9, R421, R489 to R494) -/

@[simp] theorem State.afterPtp_control (s : State) (was : Bool) (es : List Int) (freq : Int) :
    (s.afterPtp was es freq).control = s.control :=
    by simp [State.afterPtp, apply_ite State.control]
@[simp] theorem State.afterJoins_control (s : State) (old : NetSys) : (s.afterJoins old).control = s.control := rfl
@[simp] theorem State.stopDomain_control (s : State) (k : Nat) : (s.stopDomain k).control = s.control :=
    by simp [State.stopDomain, apply_ite State.control]
@[simp] theorem State.tdmCommit_control (s : State) (p : Nat) : (s.tdmCommit p).control = s.control := rfl
@[simp] theorem State.portRestart_control (s : State) (p : Nat) : (s.portRestart p).control = s.control := rfl
@[simp] theorem State.startCtl_control (s : State) (v : Word) : (s.startCtl v).control = s.control := rfl
@[simp] theorem State.netCtl_control (s : State) (i : Nat) (v : Word) (es : List Int) (freq : Int) :
    (s.netCtl i v es freq).control = s.control :=
    by simp [State.netCtl]
@[simp] theorem State.ptpCtl_control (s : State) (v : Word) (es : List Int) (freq : Int) : (s.ptpCtl v es freq).control = s.control :=
    by simp [State.ptpCtl]
@[simp] theorem State.mpllSource_control (s : State) (code : Nat) (es : List Int) (freq : Int) :
    (s.mpllSource code es freq).control = s.control :=
    rfl
@[simp] theorem State.mpllEnable_control (s : State) (on : Bool) (es : List Int) (freq : Int) :
    (s.mpllEnable on es freq).control = s.control :=
    rfl
@[simp] theorem State.clkCommand_control (s : State) (k : Nat) (v : Word) : (s.clkCommand k v).control = s.control :=
    by simp [State.clkCommand, apply_ite State.control]
@[simp] theorem State.clkRun_control (s : State) (k : Nat) (on : Bool) : (s.clkRun k on).control = s.control :=
    by simp [State.clkRun, apply_ite State.control]
@[simp] theorem State.rearm_control (s : State) (mask : Nat) : (s.rearm mask).control = s.control :=
    State.foldl_control (fun _ _ => by simp) _ _
@[simp] theorem State.pushTile_control (s : State) (n : Nat) (apply : Word) : (s.pushTile n apply).control = s.control := rfl
@[simp] theorem State.claimStart_control (s : State) (r : Nat) : (s.claimStart r).control = s.control := rfl
@[simp] theorem State.claimSubmit_control (s : State) (r : Nat) : (s.claimSubmit r).control = s.control := rfl
@[simp] theorem State.enrol_control (s : State) (r : Nat) : (s.enrol r).control = s.control := rfl
@[simp] theorem State.resetPart_control (s : State) (p : Nat) (e : Entry) : (s.resetPart p e).control = s.control :=
    by simp [State.resetPart]
@[simp] theorem State.claimCtl_control (s : State) (r : Nat) (v : Word) : (s.claimCtl r v).control = s.control :=
    by simp [State.claimCtl, apply_ite State.control]
@[simp] theorem State.doorbell_control (s : State) (r p kind ring v : Nat) : (s.doorbell r p kind ring v).control = s.control := by
  simp only [State.doorbell, apply_ite State.control, State.withHost_control, ite_self]
  split
  · exact State.withPower_control (Power.reload_phase ..) (Power.reload_stopped ..)
  · rfl
@[simp] theorem State.writePart_control (s : State) (r p o : Nat) (v : Word) : (s.writePart r p o v).control = s.control :=
    by simp [State.writePart, apply_ite State.control]
@[simp] theorem State.writePort_control (s : State) (r : Nat) (p : Option Nat) (o : Nat) (v : Word) :
    (s.writePort r p o v).control = s.control := by
  unfold State.writePort
  split <;> simp [apply_ite State.control]
@[simp] theorem State.writeClk_control (s : State) (r o : Nat) (v : Word) : (s.writeClk r o v).control = s.control := by
  unfold State.writeClk
  dsimp only
  repeat' split
  all_goals simp
@[simp] theorem State.i2cWrite_control (s : State) (v : Word) : (s.i2cWrite v).control = s.control :=
    by simp [State.i2cWrite, apply_ite State.control]
@[simp] theorem State.writeNet_control (s : State) (o : Nat) (v : Word) : (s.writeNet o v).control = s.control :=
    by simp [State.writeNet, apply_ite State.control]
@[simp] theorem State.writeHlt_control (s : State) (r o : Nat) (v : Word) : (s.writeHlt r o v).control = s.control :=
    by simp [State.writeHlt, apply_ite State.control]
@[simp] theorem State.writePwr_control (s : State) (r o : Nat) (v : Word) : (s.writePwr r o v).control = s.control := by
  simp only [State.writePwr]
  split
  · split <;> rfl
  · exact State.withPower_control (Power.writeReg_phase ..) (Power.writeReg_stopped ..)
@[simp] theorem State.writeXram_control (s : State) (r o : Nat) (v : Word) : (s.writeXram r o v).control = s.control :=
    by simp [State.writeXram, apply_ite State.control]
@[simp] theorem State.writeWindow_control (s : State) (r o : Nat) (v : Word) (own : Bool) :
    (s.writeWindow r o v own).control = s.control := by
  simp -implicitDefEqProofs [State.writeWindow, State.startCtl, apply_ite State.control]
@[simp] theorem State.writeReg_control (s : State) (r o : Nat) (v : Word) : (s.writeReg r o v).control = s.control := by
  cases hv : s.host.view r <;> simp -implicitDefEqProofs [State.writeReg, hv, apply_ite State.control]
@[simp] theorem State.pinConfig_control (s : State) : s.pinConfig.control = s.control := by simp [State.pinConfig, apply_ite State.control]

/-! ### Start-up, boot and the Locket -/

@[simp] theorem State.earlyRead_control (s : State) (answers : Bool) : (s.earlyRead answers).control = s.control := rfl
@[simp] theorem State.clockPlan_control (s : State) : s.clockPlan.control = s.control := by simp [State.clockPlan, apply_ite State.control]
@[simp] theorem State.earlySelect_control (s : State) : s.earlySelect.control = s.control :=
    by simp [State.earlySelect, apply_ite State.control]
@[simp] theorem State.startTimeout_control (s : State) (edges : Bool) : (s.startTimeout edges).control = s.control := rfl
@[simp] theorem State.loadStage_control (s : State) (rd : Nat → Nat → List Byte) (n : Nat) : (s.loadStage rd n).control = s.control :=
    by simp [State.loadStage, ↓State.sram_update_control, apply_ite State.control]
@[simp] theorem State.tryStage1_control (s : State) (r : Ledger) : (s.tryStage1 r).control = s.control :=
    by simp [State.tryStage1, apply_ite State.control]
@[simp] theorem State.s0_control (s : State) (sfdp : Option (Nat × Nat × Nat)) (low : Bool) : (s.s0 sfdp low).control = s.control :=
    by simp [State.s0, State.foldl_control, apply_ite State.control]
@[simp] theorem State.s1_control (s : State) (faulty : List Nat) : (s.s1 faulty).control = s.control := by
  simp only [State.s1]
  split <;> simp
@[simp] theorem State.trained_control (s : State) (ok : Bool) (dA rA dB rB : Nat) : (s.trained ok dA rA dB rB).control = s.control :=
    by simp [State.trained, ↓State.dram_update_control, apply_ite State.control]
@[simp] theorem State.initArea_control (s : State) (mib : Nat) : (s.initArea mib).control = s.control :=
    by simp [State.initArea, apply_ite State.control]
@[simp] theorem State.restorePolicy_control (s : State) : s.restorePolicy.control = s.control := by
  unfold State.restorePolicy
  split <;> simp
@[simp] theorem State.s2_control (s : State) : s.s2.control = s.control := by simp [State.s2, State.foldl_control]
@[simp] theorem State.recoveryPin_control (s : State) : s.recoveryPin.control = s.control := rfl
@[simp] theorem State.recover_control (s : State) (r : Boot × List Byte) : (s.recover r).control = s.control := rfl
@[simp] theorem State.recGo_control (s : State) (frame : List Byte) : (s.recGo frame).control = s.control :=
    by simp [State.recGo, apply_ite State.control]
@[simp] theorem State.tamper_control (s : State) (src : Nat) : (s.tamper src).control = s.control := rfl
@[simp] theorem State.lockEnd_control (s : State) : s.lockEnd.control = s.control := rfl
@[simp] theorem State.answer_control (s : State) (who : Requester) (addr : Nat) (wr : Option Word) (v : Word) :
    (s.answer who addr wr v).control = s.control := by
  simp only [State.answer]
  split
  · simp
  · split <;> simp
@[simp] theorem State.locket_control (s : State) (who : Requester) (word : Nat) (wr : Option Word) :
    (s.locket who word wr).control = s.control :=
    by simp [State.locket, ↓State.mem_update_control]

/-! ### A tick of a domain -/

@[simp] theorem State.latePosts_control (s : State) (f m k : Nat) : (s.latePosts f m k).control = s.control :=
    by simp [State.latePosts, apply_ite State.control]
@[simp] theorem State.tileOut_control (s : State) (k n : Nat) (o : TileOut) : (s.tileOut k n o).control = s.control :=
    State.foldl_control (fun _ _ => by simp) _ _
@[simp] theorem State.lateSinks_control (s : State) (n m c k : Nat) : (s.lateSinks n m c k).control = s.control :=
    by simp [State.lateSinks, apply_ite State.control]
@[simp] theorem State.allLate_control (s : State) (k : Nat) (late : List (Nat × Nat)) : (s.allLate k late).control = s.control :=
    by simp [State.allLate, State.foldl_control]
@[simp] theorem State.constTick_control (s : State) (k : Nat) : (s.constTick k).control = s.control :=
    State.foldl_control (fun _ _ => by simp) _ _
@[simp] theorem State.facetTick_control (s : State) (k n : Nat) : (s.facetTick k n).control = s.control := rfl
@[simp] theorem State.publish_control (s : State) (k t : Nat) (x : Nat × Nat) : (s.publish k t x).control = s.control :=
    by simp [State.publish, ↓State.mem_update_control]
@[simp] theorem State.tileTick_control (s : State) (k n : Nat) : (s.tileTick k n).control = s.control := State.foldl_control (fun _ _ => by
  split
  · exact State.foldl_control (fun _ _ => by simp) _ _
  · rfl) _ _
@[simp] theorem State.rxTick_control (s : State) (k n : Nat) : (s.rxTick k n).control = s.control :=
    State.foldl_control (fun _ _ => by simp) _ _
@[simp] theorem State.rxOwnTick_control (s : State) (k ns : Nat) : (s.rxOwnTick k ns).control = s.control := by
  refine State.foldl_control (fun _ _ => ?_) _ _
  dsimp only
  split <;> rfl
@[simp] theorem State.linkTick_control (s : State) (k ns : Nat) : (s.linkTick k ns).control = s.control :=
    State.foldl_control (fun _ _ => by simp) _ _
@[simp] theorem State.portInTick_control (s : State) (k ns : Nat) : (s.portInTick k ns).control = s.control := by
  refine State.foldl_control (fun _ _ => ?_) _ _
  dsimp only
  split
  · rfl
  · exact (State.foldl_control (fun _ _ => by simp) _ _).trans rfl
@[simp] theorem State.txTick_control (s : State) (k n : Nat) : (s.txTick k n).control = s.control := by
  refine State.foldl_control (fun _ _ => ?_) _ _
  dsimp only
  split <;> rfl
@[simp] theorem State.lifeReleases_control (s : State) (k : Nat) : (s.lifeReleases k).control = s.control := by
  refine State.foldl_control (fun _ _ => ?_) _ _
  dsimp only
  repeat' split
  all_goals rfl
@[simp] theorem State.mergeOut_control (s : State) (k p : Nat) (slots : List (Option Nat)) : (s.mergeOut k p slots).1.control = s.control :=
    by simp [State.mergeOut, ↓State.clasp_update_control, apply_ite State.control]
@[simp] theorem State.portOut_control (s : State) (k n p : Nat) : (s.portOut k n p).control = s.control := by
  simp only [State.portOut]
  split
  · simp
  · split <;> simp [↓State.ports_update_control, apply_ite State.control]
@[simp] theorem State.portOutTick_control (s : State) (k n : Nat) : (s.portOutTick k n).control = s.control :=
    State.foldl_control (fun _ _ => by simp) _ _
@[simp] theorem State.tapRead_control (s : State) (p t : Nat) (b : Nat × Nat) : (s.tapRead p t b).control = s.control :=
    by simp [State.tapRead, apply_ite State.control]
@[simp] theorem State.tapUnd_control (s : State) (p : Nat) (was : Bool) (t : Nat) (begins : Bool) (k : Nat) :
    (s.tapUnd p was t begins k).control = s.control :=
    by simp [State.tapUnd, apply_ite State.control]
@[simp] theorem State.tapTick_control (s : State) (k n p t : Nat) : (s.tapTick k n p t).control = s.control := by
  simp only [State.tapTick]
  split <;> simp [State.foldl_control, apply_ite State.control]
@[simp] theorem State.tapsTick_control (s : State) (k n : Nat) : (s.tapsTick k n).control = s.control :=
    by simp [State.tapsTick, State.foldl_control]
@[simp] theorem State.meterTick_control (s : State) (k : Nat) : (s.meterTick k).control = s.control := by
  unfold State.meterTick
  exact State.foldl_control (fun _ _ => by simp) _ _
@[simp] theorem State.stepBegins_control (s : State) (k : Nat) (was : DomPhase) : (s.stepBegins k was).control = s.control :=
    by simp [State.stepBegins, apply_ite State.control]
@[simp] theorem State.clockTick_control (s : State) (k ns : Nat) (e : Int) : (s.clockTick k ns e).control = s.control :=
    by simp [State.clockTick]
@[simp] theorem State.unitTick_control (s : State) (k n ns : Nat) : (s.unitTick k n ns).control = s.control :=
    by simp [State.unitTick, ↓State.ports_update_control, apply_ite State.control]
@[simp] theorem State.domainTick_control (s : State) (k ns : Nat) (e : Int) (late : List (Nat × Nat)) :
    (s.domainTick k ns e late).control = s.control :=
    by simp [State.domainTick, apply_ite State.control]

/-! ### Memories, Facets and tiles -/

@[simp] theorem State.hole_control (s : State) (core : Nat) : (s.hole core).control = s.control := rfl
@[simp] theorem State.facetWindow_control (s : State) (core n o : Nat) (wr : Option Word) :
    (s.facetWindow core n o wr).1.control = s.control := by
  simp only [State.facetWindow]
  split <;> split <;> simp
@[simp] theorem State.tileWindow_control (s : State) (core n o : Nat) (wr : Option Word) :
    (s.tileWindow core n o wr).1.control = s.control := by
  simp only [State.tileWindow]
  split
  · split
    · simp
    · split <;> simp
  · split <;> simp
@[simp] theorem State.dramRequest_control (s : State) (core addr : Nat) (wr : Option Word) :
    (s.dramRequest core addr wr).control = s.control :=
    by simp [State.dramRequest, ↓State.dram_update_control, apply_ite State.control]
@[simp] theorem State.fabric_control (s : State) (core addr : Nat) (wr : Option Word) : (s.fabric core addr wr).1.control = s.control := by
  unfold State.fabric
  repeat' split
  all_goals simp [↓State.mem_update_control, ↓State.sram_update_control]
@[simp] theorem State.returned_control (s : State) (r : Option (BankReq × Word)) : (s.returned r).control = s.control := by
  simp only [State.returned]
  split
  · simp
  · split <;> simp
@[simp] theorem State.bankRequest_control (s : State) (q : BankReq) : (s.bankRequest q).control = s.control :=
    by simp [State.bankRequest, ↓State.mem_update_control, apply_ite State.control]
@[simp] theorem State.coreAccess_control (s : State) (core addr : Nat) (wr : Option Word) :
    (s.coreAccess core addr wr).control = s.control :=
    by simp [State.coreAccess, apply_ite State.control]
@[simp] theorem State.gathered_control (s : State) (n : Nat) : (s.gathered n).control = s.control := rfl
@[simp] theorem State.issued_control (s : State) (n : Nat) : (s.issued n).control = s.control := rfl
@[simp] theorem State.stallEnds_control (s : State) (n : Nat) : (s.stallEnds n).control = s.control := by
  simp only [State.stallEnds]
  split <;> simp [↓State.mem_update_control]
@[simp] theorem State.posted_control (s : State) (n cyc : Nat) : (s.posted n cyc).control = s.control := by simp [State.posted]
@[simp] theorem State.accumulated_control (s : State) (n cyc : Nat) : (s.accumulated n cyc).control = s.control :=
    by simp [State.accumulated]
@[simp] theorem State.gains_control (s : State) (n p : Nat) : (s.gains n p).control = s.control := rfl
@[simp] theorem State.strike_control (s : State) (u : Upset) : (s.strike u).control = s.control :=
    by simp [State.strike, apply_ite State.control]
@[simp] theorem State.strikes_control (s : State) (ups : List Upset) : (s.strikes ups).control = s.control :=
    State.foldl_control (fun _ _ => by simp) _ _
@[simp] theorem State.bankCycle_control (s : State) (b t : Nat) (arrive : List BankReq) (ups : List Upset) :
    (s.bankCycle b t arrive ups).control = s.control :=
    by simp [State.bankCycle, ↓State.mem_update_control]
@[simp] theorem State.bankCompletes_control (s : State) (b : Nat) : (s.bankCompletes b).control = s.control :=
    by simp [State.bankCompletes, ↓State.mem_update_control]
@[simp] theorem State.scrubAt_control (s : State) (pos : Nat) : (s.scrubAt pos).control = s.control := by
  unfold State.scrubAt
  dsimp only
  repeat' split
  all_goals simp
@[simp] theorem State.scrubRead_control (s : State) (ups : List Upset) : (s.scrubRead ups).control = s.control :=
    by simp [State.scrubRead, apply_ite State.control]
@[simp] theorem State.portA_control (s : State) (core word : Nat) (wr : Option Word) : (s.portA core word wr).control = s.control :=
    by simp [State.portA, ↓State.mem_update_control]
@[simp] theorem State.portB_control (s : State) (b : PortB) (co : Option CoA) : (s.portB b co).1.control = s.control := by
  unfold State.portB
  dsimp only
  split
  · exact (State.answer_control ..).trans rfl
  · rfl
@[simp] theorem State.portBAccess_control (s : State) (b : PortB) (co : Option CoA) : (s.portBAccess b co).control = s.control :=
    by simp [State.portBAccess, apply_ite State.control]
@[simp] theorem State.dmaAccess_control (s : State) (pf part addr : Nat) (op : BankOp) : (s.dmaAccess pf part addr op).control = s.control :=
    by simp [State.dmaAccess, apply_ite State.control]
@[simp] theorem State.dramServe_control (s : State) (ch : Nat) (arrive : List DramReq) (ups : List Upset) :
    (s.dramServe ch arrive ups).control = s.control := by
  simp only [State.dramServe]
  split
  · split
    · exact (State.foldl_control (fun _ _ => by simp) _ _).trans (State.strikes_control s ups)
    · exact State.strikes_control s ups
  · exact State.strikes_control s ups
@[simp] theorem State.onLine_control (s : State) (id : Nat) (f : DramLine → DramSys × Facet) : (s.onLine id f).control = s.control := by
  unfold State.onLine
  split <;> simp [↓State.dram_update_control]

/-! ### Clocks, network, ports and the Clasp -/

@[simp] theorem State.mute_control (s : State) (p : Nat) : (s.mute p).control = s.control := State.foldl_control (fun _ _ => by simp) _ _
@[simp] theorem State.coreLost_control (s : State) (cause : Nat) : (s.coreLost cause).control = s.control :=
    by simp [State.coreLost, State.foldl_control]
@[simp] theorem State.refLoss_control (s : State) (input : Nat) (es : List Int) (mean : Int) :
    (s.refLoss input es mean).control = s.control :=
    by simp [State.refLoss, apply_ite State.control]
@[simp] theorem State.showLock_control (s : State) (on : Bool) : (s.showLock on).control = s.control := rfl
@[simp] theorem State.regRead_control (s : State) (r o : Nat) : (s.regRead r o).control = s.control := by simp [State.regRead]
@[simp] theorem State.netStep_control (s : State) (es : List Int) (freq : Int) (f : NetSys → NetSys) :
    (s.netStep es freq f).control = s.control :=
    by simp [State.netStep]
@[simp] theorem State.frameReceive_control (s : State) (i ns : Nat) (f : List Byte) (es : List Int) (freq : Int) :
    (s.frameReceive i ns f es freq).control = s.control := by
  simp only [State.frameReceive]
  split <;> simp
@[simp] theorem State.depart_control (s : State) (ctx ns : Nat) : (s.depart ctx ns).control = s.control := rfl
@[simp] theorem State.alignBlock_control (s : State) (o : Nat) (src : SerPort) : (s.alignBlock o src).control = s.control := rfl
@[simp] theorem State.ownLanes_control (s : State) (o : Nat) : (s.ownLanes o).control = s.control := by
  simp only [State.ownLanes]
  split <;> rfl
@[simp] theorem State.emitOwn_control (s : State) (src : SerPort) (o : Nat) : (s.emitOwn src o).control = s.control := by
  simp only [State.emitOwn]
  split
  · simp
  · split <;> simp [↓State.ports_update_control, apply_ite State.control]
@[simp] theorem State.ownInput_control (s : State) (p ns : Nat) : (s.ownInput p ns).control = s.control :=
    by simp [State.ownInput, apply_ite State.control]
@[simp] theorem State.ownBack_control (s : State) (o : Nat) : (s.ownBack o).control = s.control := rfl
@[simp] theorem State.portFrame_control (s : State) (p : Nat) (f : RxFrame) : (s.portFrame p f).control = s.control := by
  simp only [State.portFrame]
  rw [State.foldl_control fun _ _ => by simp, State.ownInput_control, State.withPorts_control, State.at__control]
  split
  · exact State.foldl_control (fun _ _ => by simp) _ _
  · rfl
@[simp] theorem State.tdmApply_control (s : State) (p : Nat) : (s.tdmApply p).control = s.control :=
    by simp [State.tdmApply, apply_ite State.control]
@[simp] theorem State.lifeline_control (s : State) (ins : List (Nat × List (List Nat))) : (s.lifeline ins).control = s.control := by
  simp only [State.lifeline]
  rw [State.foldl_control fun _ _ => by simp]
  split <;> rfl
@[simp] theorem State.clockMove_control (s : State) (p : Nat) : (s.clockMove p).control = s.control := by
  unfold State.clockMove
  split <;> simp
@[simp] theorem State.flushCompl_control (s : State) (p : Nat) : (s.flushCompl p).control = s.control :=
    State.foldl_control (fun _ _ => by simp) _ _
@[simp] theorem State.stopBlock_control (s : State) (b : Nat) : (s.stopBlock b).control = s.control := by
  unfold State.stopBlock
  split <;> simp [State.foldl_control]
@[simp] theorem State.restartBlocks_control (s : State) (n : Nat) : (s.restartBlocks n).control = s.control :=
    by simp [State.restartBlocks, apply_ite State.control]
@[simp] theorem State.railMoves_control (s : State) (n : Nat) (out : Bool) : (s.railMoves n out).control = s.control := by
  simp only [State.railMoves, apply_ite State.control, State.report_control, State.withPower_control, ite_self]
@[simp] theorem State.tempMoves_control (s : State) (temp : Nat) : (s.tempMoves temp).control = s.control := by
  simp only [State.tempMoves, apply_ite State.control, State.report_control, State.withPower_control, ite_self]
@[simp] theorem State.writeBlock_control (s : State) (r o : Nat) (v : Word) : (s.writeBlock r o v).control = s.control := by
  unfold State.writeBlock
  split <;> simp
@[simp] theorem State.enrolDone_control (s : State) (stored : Bool) : (s.enrolDone stored).control = s.control := by
  unfold State.enrolDone
  split
  · rfl
  · dsimp only
    split <;> rfl

/-! ### The host interface -/

@[simp] theorem State.commandRead_control (s : State) (p : Nat) (data : Option (List Byte)) : (s.commandRead p data).control = s.control :=
    rfl
@[simp] theorem State.tapReadEnds_control (s : State) (p t : Nat) (data : Option (List Byte)) :
    (s.tapReadEnds p t data).control = s.control := by
  unfold State.tapReadEnds
  dsimp only
  split
  · rfl
  · split
    · rfl
    · split
      · rfl
      · exact State.foldl_control (fun _ _ => by simp) _ _
@[simp] theorem State.readEnds_control (s : State) (p tap : Nat) (data : Option (List Byte)) :
    (s.readEnds p tap data).control = s.control := by
  unfold State.readEnds
  repeat' split
  all_goals simp
@[simp] theorem State.meterEnds_control (s : State) (p meter : Nat) : (s.meterEnds p meter).control = s.control := rfl
@[simp] theorem State.issueRead_control (s : State) (i : Nat) : (s.issueRead i).control = s.control := by
  unfold State.issueRead
  split <;> simp [apply_ite State.control]
@[simp] theorem State.busMaster_control (s : State) (pf : Nat) (on : Bool) : (s.busMaster pf on).control = s.control :=
    State.foldl_control (fun _ _ => by simp [apply_ite State.control]) _ _
@[simp] theorem State.spiRead_control (s : State) (t cmd k : Nat) (co : Option CoA) : (s.spiRead t cmd k co).1.control = s.control := by
  unfold State.spiRead
  repeat' split
  all_goals simp
@[simp] theorem State.spiEnd_control (s : State) (t bits : Nat) (bad busy : Bool) : (s.spiEnd t bits bad busy).control = s.control :=
    by simp [State.spiEnd, apply_ite State.control]

/-! ### Commands at intake -/

@[simp] theorem State.fetch_control (s : State) (p : Nat) (bytes : List Byte) : (s.fetch p bytes).control = s.control := by
  simp only [State.fetch]
  split
  · simp
  · split <;> simp [apply_ite State.control]
@[simp] theorem State.fetchAll_control (s : State) (l : List (Nat × List Byte)) : (s.fetchAll l).control = s.control :=
    State.foldl_control (fun _ _ => by split <;> simp [apply_ite State.control]) _ _
@[simp] theorem State.setQuota_control (s : State) (e : Entry) : (s.setQuota e).control = s.control := by
  simp only [State.setQuota]
  split
  · simp
  · split <;> simp
@[simp] theorem State.setPriority_control (s : State) (e : Entry) : (s.setPriority e).control = s.control :=
    by simp [State.setPriority, apply_ite State.control]
@[simp] theorem State.grants_control (s : State) (e : Entry) (f : List Grant → Nat → Nat → Nat → List Grant) :
    (s.grants e f).control = s.control :=
    by simp [State.grants, apply_ite State.control]
@[simp] theorem State.revoke_control (s : State) (e : Entry) : (s.revoke e).control = s.control :=
    by simp [State.revoke, apply_ite State.control]
@[simp] theorem State.mapSpi_control (s : State) (e : Entry) : (s.mapSpi e).control = s.control :=
    by simp [State.mapSpi, apply_ite State.control]
@[simp] theorem State.setXram_control (s : State) (e : Entry) : (s.setXram e).control = s.control :=
    by simp [State.setXram, apply_ite State.control]
@[simp] theorem State.stored_control (s : State) (e : Entry) (b : Option Boot) : (s.stored e b).control = s.control := by
  unfold State.stored
  split <;> simp [↓State.boot_update_control]
@[simp] theorem State.imaged_control (s : State) (e : Entry) (b : Option Boot) : (s.imaged e b).control = s.control := by
  unfold State.imaged
  split <;> simp [↓State.boot_update_control]
@[simp] theorem State.rollback_control (s : State) (e : Entry) (votp readback : Bool) : (s.rollback e votp readback).control = s.control :=
    by simp [State.rollback, apply_ite State.control]
@[simp] theorem State.earlyWrite_control (s : State) (e : Entry) : (s.earlyWrite e).control = s.control :=
    by simp [State.earlyWrite, ↓State.boot_update_control, apply_ite State.control]
@[simp] theorem State.hmExtend_control (s : State) (e : Entry) : (s.hmExtend e).control = s.control := rfl
@[simp] theorem State.logRead_control (s : State) (e : Entry) : (s.logRead e).control = s.control :=
    by simp [State.logRead, apply_ite State.control]
@[simp] theorem State.keySet_control (s : State) (e : Entry) : (s.keySet e).control = s.control :=
    by simp [State.keySet, apply_ite State.control]

/-! ### Retirement, reports, GPIO and JTAG -/

@[simp] theorem State.retireUnit_control (s : State) (cls unit : Nat) : (s.retireUnit cls unit).control = s.control :=
    by simp [State.retireUnit, apply_ite State.control]
@[simp] theorem State.afterRetire_control (s : State) (cls unit : Nat) : (s.afterRetire cls unit).control = s.control :=
    by simp [State.afterRetire, State.foldl_control]
@[simp] theorem State.unitRetired_control (s : State) (cls unit : Nat) (plans : List (Nat × Plan)) :
    (s.unitRetired cls unit plans).control = s.control := by
  simp only [State.unitRetired]
  rw [State.foldl_control fun _ _ => by simp, State.foldl_control fun _ _ => by simp, State.shedNow_control]
  split <;> simp
@[simp] theorem State.reportArrives_control (s : State) : s.reportArrives.control = s.control := by
  unfold State.reportArrives
  split <;> simp
@[simp] theorem State.recordCloses_control (s : State) : s.recordCloses.control = s.control := by
  unfold State.recordCloses
  dsimp only
  split
  · exact State.screened_control s
  · exact (State.foldl_control (fun _ _ => by simp) _ _).trans (State.screened_control s)
@[simp] theorem State.onPin_control (s : State) (n : Nat) (r : Gpio × List (Nat × Bool)) : (s.onPin n r).control = s.control := rfl
@[simp] theorem State.scan_control (s : State) (i : JtagInstr) (cap bits : List Bool) : (s.scan i cap bits).control = s.control := rfl
@[simp] theorem State.boundary_control (s : State) (i : JtagInstr) (pins bits : List Bool) : (s.boundary i pins bits).control = s.control :=
    rfl

end Sys2Proof.Machine

/-!
SUPPORT. The queue and the quiesce handshake over every command (R465, R466): what a command that ends the handshake, wakes or resets the
device leaves of them, and that every other command keeps them.
-/

namespace Sys2Proof.Machine

/-- The queue is kept, and the invariant of the handshake with it. -/
structure State.Steady (s t : State) : Prop where
  queue : t.pending = s.pending
  handshake : s.handshakeOk = true → t.handshakeOk = true

theorem State.handshakeOk_iff (s : State) :
    s.handshakeOk = true ↔ s.power.stopped ≤ 6 ∧ (s.power.phase = .quiescing ∨ s.power.stopped = 0) := by
  simp [State.handshakeOk]

theorem State.handshakeOk_of_stopped_zero {s : State} (h : s.power.stopped = 0) : s.handshakeOk = true :=
  (State.handshakeOk_iff s).2 ⟨by omega, .inr h⟩

namespace State.Steady

theorem refl (s : State) : s.Steady s := ⟨rfl, id⟩

theorem trans {s t u : State} (h : s.Steady t) (h' : t.Steady u) : s.Steady u :=
  ⟨h'.queue.trans h.queue, fun hs => h'.handshake (h.handshake hs)⟩

theorem of_control {s t : State} (h : t.control = s.control) : s.Steady t := by
  simp only [State.control, Prod.mk.injEq] at h
  obtain ⟨hq, hp, hn⟩ := h
  exact ⟨hq, fun hs => by rwa [State.handshakeOk, hp, hn]⟩

theorem of_stopped_zero {s t : State} (hq : t.pending = s.pending) (hn : t.power.stopped = 0) : s.Steady t :=
  ⟨hq, fun _ => State.handshakeOk_of_stopped_zero hn⟩

/-- What keeps both, followed by what leaves the queue alone and no block stopped. -/
theorem then_stopped_zero {s t u : State} (h : s.Steady t) (hq : u.pending = t.pending) (hn : u.power.stopped = 0) : s.Steady u :=
  h.trans (of_stopped_zero hq hn)

theorem ite {s t u : State} {c : Prop} [Decidable c] (ht : c → s.Steady t) (hu : ¬ c → s.Steady u) : s.Steady (if c then t else u) := by
  split
  · exact ht ‹_›
  · exact hu ‹_›

theorem foldl {α : Type} {f : State → α → State} (h : ∀ (s : State) x, s.Steady (f s x)) (l : List α) (s : State) : s.Steady (l.foldl f s) := by
  induction l generalizing s with
  | nil => exact refl s
  | cons x r ih => exact (h s x).trans (ih (f s x))

/-- What follows a step and keeps both goes on from it. -/
theorem then_control {s t u : State} (h : s.Steady t) (hu : u.control = t.control) : s.Steady u := h.trans (of_control hu)

end State.Steady

theorem State.queue_of_control {s t : State} (h : t.control = s.control) : t.pending = s.pending := congrArg Prod.fst h

/-! ### Resets (R422, R471, R506, R514) -/

theorem State.por_steady (s : State) : s.Steady s.por := .of_stopped_zero rfl rfl

theorem State.brownOut_steady (s : State) : s.Steady s.brownOut := .of_stopped_zero rfl rfl

theorem State.supplyLoss_steady (s : State) (aon : Bool) : s.Steady (s.supplyLoss aon) := .of_stopped_zero rfl rfl

theorem State.pinConfig_power (s : State) : s.pinConfig.power = s.power := by
  simp only [State.pinConfig, apply_ite State.power, State.withHost_power, ite_self]

theorem State.restart_steady (s : State) (dormant : Bool) : s.Steady (s.restart dormant) :=
  .of_stopped_zero ((State.queue_of_control (State.pinConfig_control _)).trans rfl) ((congrArg Power.stopped (State.pinConfig_power _)).trans rfl)

theorem State.resetN_steady (s : State) : s.Steady s.resetN := by
  unfold State.resetN
  split
  · exact .refl s
  · exact .refl s
  · exact s.restart_steady false

/-! ### Entry (R463 to R466) -/

theorem State.refuseEntry_steady (s : State) (block reason : Nat) : s.Steady (s.refuseEntry block reason) := .of_stopped_zero rfl rfl

theorem State.requestEntry_steady (s : State) (dormant wake : Bool) : s.Steady (s.requestEntry dormant wake) :=
  .ite (fun _ => .refl s) fun _ => .ite (fun _ => .of_control rfl) fun _ =>
    .ite (fun _ => s.refuseEntry_steady 7 6) fun _ => .of_stopped_zero rfl rfl

theorem State.quiesceRefuse_steady (s : State) (reason : Nat) : s.Steady (s.quiesceRefuse reason) :=
  (State.Steady.of_control (s.restartBlocks_control _)).trans (State.refuseEntry_steady ..)

theorem State.enterLow_steady (s : State) : s.Steady s.enterLow :=
  State.Steady.then_stopped_zero (t := (s.withNet fun n => n.withPtp PtpSys.lose).afterPtp s.ptpOk s.heldEs s.clk.freq)
    (.of_control (State.afterPtp_control ..)) rfl rfl

/-- R465: while the handshake is under way and fewer than six blocks have stopped, the answer of one more keeps the invariant; with the
seventh the device is in the state asked for. -/
theorem State.quiesceAnswer_steady {s : State} (hp : s.power.phase = .quiescing) : s.Steady s.quiesceAnswer := by
  have hstop := s.stopBlock_control s.power.stopped
  simp only [State.quiesceAnswer]
  split
  · exact s.quiesceRefuse_steady _
  · have hq := State.queue_of_control hstop
    refine .ite (fun _ => ?_) fun hb => ⟨hq, fun hs => ?_⟩
    · exact .of_stopped_zero ((State.enterLow_steady _).queue.trans hq) rfl
    · obtain ⟨hle, -⟩ := (State.handshakeOk_iff s).1 hs
      have hphase : (s.stopBlock s.power.stopped).power.phase = .quiescing := by
        rw [← hp]
        exact congrArg (fun c => c.2.1) hstop
      exact (State.handshakeOk_iff _).2 ⟨Nat.succ_le_of_lt (Nat.lt_of_le_of_ne hle hb), .inl hphase⟩

/-! ### Wake (R467 to R470) -/

theorem Power.reload_wake_stopped (p : Power) (src now : Nat) :
    (({ p with phase := .run, wakeSrc := src, aonS := p.aonLeft now } : Power).reload now).stopped = p.stopped := Power.reload_stopped _ _

theorem State.wake_steady (s : State) (src : Nat) : s.Steady (s.wake src) := by
  unfold State.wake
  split
  · exact State.Steady.then_stopped_zero (.of_control (s.restartBlocks_control _)) rfl (Power.reload_stopped _ _)
  · have hrestart := s.restartBlocks_control 7
    have hq := State.queue_of_control hrestart
    refine ⟨hq, fun hs => State.handshakeOk_of_stopped_zero ?_⟩
    obtain ⟨-, hquiet | hzero⟩ := (State.handshakeOk_iff s).1 hs
    · exact absurd hquiet (by simp [*])
    · exact (Power.reload_wake_stopped ..).trans ((congrArg (fun c => c.2.2) hrestart).trans hzero)
  · exact (s.restart_steady true).then_control (State.withPower_control rfl rfl)
  · exact .refl s

theorem State.bellWake_steady (s : State) (r : Nat) : s.Steady (s.bellWake r) := .ite (fun _ => s.wake_steady 6) fun _ => .refl s

theorem State.regWrite_steady (s : State) (r o : Nat) (v : Word) : s.Steady (s.regWrite r o v) := by
  have hbell : s.Steady (if isDoorbell o then s.bellWake r else s) := .ite (fun _ => s.bellWake_steady r) fun _ => .refl s
  exact .ite (fun _ => hbell.then_control (State.writeReg_control ..)) fun _ => hbell

theorem State.wordWrites_steady (s : State) (o : Nat) (ws : List (Nat × Word)) (chip : Option Word) : s.Steady (s.wordWrites o ws chip) := by
  unfold State.wordWrites
  refine State.Steady.trans (.of_control ?_) (.foldl (fun (t : State) (x : Nat × Word) => t.regWrite_steady x.1 o x.2) _ _)
  split
  · split
    · exact State.writeReg_control ..
    · rfl
  · rfl

theorem State.sqBell_steady (s : State) (r ring v : Nat) : s.Steady (s.sqBell r ring v) := by
  have hbell := s.bellWake_steady r
  refine .ite (fun _ => ?_) fun _ => hbell
  split
  · exact hbell.then_control (State.doorbell_control ..)
  · exact hbell

/-! ### SPI frames (R467, R495 to R498) -/

theorem State.spiSelect_steady (s : State) (t : Nat) : s.Steady (s.spiSelect t).1 := by
  unfold State.spiSelect
  split
  · exact s.wake_steady _
  · exact s.wake_steady _
  · exact s.wake_steady _
  · exact .refl s

theorem State.spiWrite_steady (s : State) (t cmd k : Nat) (v : Word) (co : Option CoA) : s.Steady (s.spiWrite t cmd k v co).1 := by
  unfold State.spiWrite
  split
  · exact .refl s
  · split
    · split
      · exact .refl s
      · exact .of_control (State.portB_control ..)
    · exact State.regWrite_steady ..

theorem State.spiReadFrame_steady (s : State) (t cmd bits n : Nat) (co : List (Option CoA)) : s.Steady (s.spiReadFrame t cmd bits n co) := by
  refine (s.spiSelect_steady t).then_control ?_
  simp only [State.spiReadFrame, apply_ite State.control, State.spiEnd_control, State.emit_control]
  rw [foldl_keeps (fun r : State × List Word × Bool => r.1.control) _ fun _ _ => by simp, ite_self, ite_self]

theorem State.spiWriteFrame_steady (s : State) (t cmd bits : Nat) (ws : List Word) (co : List (Option CoA)) :
    s.Steady (s.spiWriteFrame t cmd bits ws co) := by
  refine (s.spiSelect_steady t).trans (.ite (fun _ => .of_control (by simp)) fun _ => .ite (fun _ => .of_control (by simp)) fun _ => ?_)
  refine State.Steady.then_control ?_ ((State.spiEnd_control ..).trans (State.emit_control ..))
  generalize (List.range ws.length).zip ws = l
  suffices h : ∀ r : State × Bool, r.1.Steady (l.foldl (fun (r : State × Bool) x =>
      ((r.1.spiWrite t cmd x.1 x.2 (co.getD x.1 none)).1, r.2 || (r.1.spiWrite t cmd x.1 x.2 (co.getD x.1 none)).2)) r).1 from
    h ((s.spiSelect t).1, false)
  induction l with
  | nil => exact fun r => .refl r.1
  | cons x l ih => exact fun r => (r.1.spiWrite_steady t cmd x.1 x.2 (co.getD x.1 none)).trans (ih (_, r.2 || (r.1.spiWrite t cmd x.1 x.2 (co.getD x.1 none)).2))

/-! ### Commands at intake (R404, R407) -/

theorem State.perform_steady {f : State → Entry → State} (h : ∀ t e, State.Steady t (f t e)) (s : State) (owner : Bool) :
    s.Steady (s.perform owner f) := by
  unfold State.perform
  split
  · exact .ite (fun _ => .of_control (by simp)) fun _ => .ite (fun _ => .of_control (by simp)) fun _ =>
      .trans (.of_control (State.popIntake_control s)) (h ..)
  · exact .refl s

theorem State.lcAdvance_steady (s : State) (e : Entry) (votp readback : Bool) : s.Steady (s.lcAdvance e votp readback) :=
  .ite (fun _ => .of_control (by simp)) fun _ => .ite (fun _ => .of_control (by simp)) fun _ => .ite (fun _ => .of_control (by simp)) fun _ =>
    .ite (fun _ => .trans (.of_control (by simp)) (State.restart_steady ..)) fun _ => .of_control (by simp)

theorem State.pwrCommand_steady (s : State) (e : Entry) (dormant wake : Bool) : s.Steady (s.pwrCommand e dormant wake) :=
  .ite (fun _ => .of_control (by simp)) fun _ => .trans (.of_control (by simp)) (State.requestEntry_steady ..)

theorem State.pwrDormant_steady (s : State) (e : Entry) (wake : Bool) : s.Steady (s.pwrDormant e wake) := by
  unfold State.pwrDormant
  refine .ite (fun _ => .of_control (by simp)) fun _ => .trans (.of_control ?_) (State.pwrCommand_steady ..)
  split <;> rfl

/-! ### Every command -/

theorem done_steady {s t u : State} {i : Instr} {on : Bool} (h : on = true → s.Steady t) (hu : done s i on t = .next u) : s.Steady u := by
  have heq : u = (if i.wf && on then t else s).settle := (Host.Outcome.next.inj hu).symm
  rw [heq]
  refine .then_control (.ite (fun hon => h ?_) fun _ => .refl s) (State.settle_control _)
  simp_all

/-- Every command keeps the queue and leaves no block stopped on its own. -/
theorem exec_steady {i : Instr} {s t : State} (h : exec i s = .next t) : s.Steady t := by
  cases i
  case por => exact done_steady (fun _ => s.por_steady) h
  case resetN => exact done_steady (fun _ => s.resetN_steady) h
  case brownOut => exact done_steady (fun _ => s.brownOut_steady) h
  case supplyLoss aon => exact done_steady (fun _ => s.supplyLoss_steady aon) h
  case idleTimerExpiry w => exact done_steady (fun _ => s.requestEntry_steady false w) h
  case quiesceAnswer => exact done_steady (fun hon => State.quiesceAnswer_steady (by simpa using hon)) h
  case quiesceTimeout => exact done_steady (fun _ => s.quiesceRefuse_steady 1) h
  case wakeNEdge low => exact done_steady (fun _ => State.Steady.then_control (s.wake_steady 1) (State.withPower_control rfl rfl)) h
  case aonTimerExpiry => exact done_steady (fun _ => s.wake_steady 5) h
  case perstN => exact done_steady (fun _ => State.Steady.then_control (t := (s.wake 2).withHost _) ((s.wake_steady 2).then_control rfl) (State.withPower_control rfl rfl)) h
  case registerWrite => exact done_steady (fun _ => State.wordWrites_steady ..) h
  case sqDoorbell => exact done_steady (fun _ => State.sqBell_steady ..) h
  case spiReadFrame => exact done_steady (fun _ => State.spiReadFrame_steady ..) h
  case spiWriteFrame => exact done_steady (fun _ => State.spiWriteFrame_steady ..) h
  case lcAdvance => exact done_steady (fun _ => s.perform_steady (fun t e => t.lcAdvance_steady ..) _) h
  case pwrStandby w => exact done_steady (fun _ => s.perform_steady (fun t e => t.pwrCommand_steady e false w) _) h
  case pwrDormant w => exact done_steady (fun _ => s.perform_steady (fun t e => t.pwrDormant_steady e w) _) h
  case release | setQuota | setPriority | grant | revoke | mapSpi | setXram | savePolicy | imgActivate | rollbackRaise | ksDel |
      earlyWrite | hmExtend | logRead | keySet | imgData | imgBegin | ksPut | resetPartition =>
    exact done_steady (fun _ => s.perform_steady (fun t e => .of_control (by simp [apply_ite State.control])) _) h
  case padRelease => exact done_steady (fun _ => .of_control (State.withPower_control rfl rfl)) h
  case unitGate kind unit =>
    exact done_steady (t := s.withPower fun p => p.gate kind unit) (fun _ => .of_control (State.withPower_control rfl rfl)) h
  case jtagReset => exact done_steady (t := { s with jtag := { s.jtag with ir := .idcode } }) (fun _ => .of_control rfl) h
  case imgFinish =>
    refine done_steady (fun _ => s.perform_steady (fun t e => .of_control ?_) _) h
    split <;> simp [↓State.boot_update_control]
  all_goals exact done_steady (fun _ => .of_control (by simp [apply_ite State.control])) h

/-- Settles O5. -/
theorem commandsKeepTheQueue : Obligations.CommandsKeepTheQueue := fun _ _ _ h => (exec_steady h).queue

/-- Settles O8: idling leaves the power controller alone, and every command keeps the invariant. -/
theorem blocksStopOnlyInAHandshake : Obligations.BlocksStopOnlyInAHandshake := fun s t hs hstep => by
  unfold step at hstep
  split at hstep
  · rwa [← Host.Outcome.next.inj hstep]
  · exact (exec_steady hstep).handshake hs

end Sys2Proof.Machine

/-!
SUPPORT. Frames of unsettled states: the pieces that an operation leaves as they are, before what the units hold is sent off.
-/

namespace Sys2Proof.Machine

/-- An operation led from `s` to `t` and changed nothing outside the pieces `ps`, reports and outputs not yet sent off. -/
def State.Within (ps : List Piece) (s t : State) : Prop := t.pending = s.pending ∧ ∀ p : Piece, p ∉ ps → p.same s t

theorem State.txOn_congr {s t : State} (hat : t.boot.at_ = s.boot.at_) (hpower : t.power = s.power) : t.txOn = s.txOn := by
  rw [State.txOn, State.txOn, hat, hpower]

namespace State.Within

theorem same {ps : List Piece} {s t : State} (h : s.Within ps t) (p : Piece) (hp : p ∉ ps := by decide) : p.same s t := h.2 p hp

theorem refl (ps : List Piece) (s : State) : s.Within ps s := ⟨rfl, fun p _ => by cases p <;> simp [Piece.same]⟩

theorem trans {ps : List Piece} {s t u : State} (h : s.Within ps t) (h' : t.Within ps u) : s.Within ps u := by
  refine ⟨h'.1.trans h.1, fun p hp => ?_⟩
  have hst := h.2 p hp
  have htu := h'.2 p hp
  cases p
  case time => exact ⟨htu.1.trans hst.1, htu.2.trans hst.2⟩
  all_goals exact Eq.trans htu hst

theorem mono {ps qs : List Piece} {s t : State} (h : s.Within ps t) (hsub : ∀ p ∈ ps, p ∈ qs := by decide) : s.Within qs t :=
  ⟨h.1, fun p hp => h.2 p fun hmem => hp (hsub p hmem)⟩

theorem ite {ps : List Piece} {s t u : State} {c : Prop} [Decidable c] (ht : c → s.Within ps t) (hu : ¬ c → s.Within ps u) :
    s.Within ps (if c then t else u) := by
  split
  · exact ht ‹_›
  · exact hu ‹_›

theorem foldl {α : Type} {ps : List Piece} {f : State → α → State} (h : ∀ (s : State) x, s.Within ps (f s x)) (l : List α) (s : State) :
    s.Within ps (l.foldl f s) := by
  induction l generalizing s with
  | nil => exact refl ps s
  | cons x r ih => exact (h s x).trans (ih (f s x))

/-- What the units held goes out alike, so a frame of the operation is a frame of the command. -/
theorem settle {ps : List Piece} {s t : State} (h : s.Within ps t)
    (hrep : .reports ∉ ps → t.unitReports = s.unitReports)
    (hout : .out ∉ ps → t.host.outs = s.host.outs ∧ t.txOn = s.txOn ∧ t.net.sent = s.net.sent) : OnlyChanges ps s t.settle := by
  refine ⟨h.1, fun p hp => ?_⟩
  have hs := h.2 p hp
  cases p
  case time => exact hs
  case reports =>
    have hu := hrep hp
    exact congrArg₂ (· ++ ·) hs hu
  case out =>
    obtain ⟨ho, ht, hn⟩ := hout hp
    simp [Piece.same, ho, ht, hn]
  all_goals
    simp only [Piece.same] at hs
    simp [Piece.same, hs]

/-- A command whose frame leaves reports and outputs open. -/
theorem settle_open {ps : List Piece} {s t : State} (h : s.Within ps t) (hrep : .reports ∈ ps := by decide) (hout : .out ∈ ps := by decide) :
    OnlyChanges ps s t.settle :=
  h.settle (fun hn => absurd hrep hn) fun hn => absurd hout hn

/-- A command that changes the host interfaces by its outputs alone. -/
theorem settle_outs {ps : List Piece} {s t : State} {l : List Out} (h : s.Within (.host :: ps) t) (hhost : t.host = { s.host with outs := l })
    (hrep : .reports ∉ ps → t.unitReports = s.unitReports) : OnlyChanges (.out :: ps) s t.settle := by
  refine ⟨h.1, fun p hp => ?_⟩
  obtain ⟨hpout, hps⟩ := List.ne_and_not_mem_of_not_mem_cons hp
  by_cases hphost : p = .host
  · subst hphost
    simp [Piece.same, hhost]
  · have hopen : OnlyChanges (.reports :: .out :: .host :: ps) s t.settle := (h.mono (by simp +contextual)).settle_open (by simp) (by simp)
    by_cases hpreports : p = .reports
    · subst hpreports
      have hflying := h.2 .reports (by simp [hps])
      exact congrArg₂ (· ++ ·) hflying (hrep hps)
    · exact hopen.2 p (by simp [hpout, hphost, hpreports, hps])

end State.Within

/-! ### One frame per piece -/

theorem State.within_mem (s : State) (f : MemSys → MemSys) : s.Within [.mem] (s.withMem f) :=
  ⟨rfl, fun p hp => by cases p <;> simp_all [Piece.same]⟩

theorem State.within_dram (s : State) (f : DramSys → DramSys) : s.Within [.dram] (s.withDram f) :=
  ⟨rfl, fun p hp => by cases p <;> simp_all [Piece.same]⟩

theorem State.within_clk (s : State) (f : ClkSys → ClkSys) : s.Within [.clk] (s.withClk f) :=
  ⟨rfl, fun p hp => by cases p <;> simp_all [Piece.same]⟩

theorem State.within_ports (s : State) (f : Serial → Serial) : s.Within [.ports] (s.withPorts f) :=
  ⟨rfl, fun p hp => by cases p <;> simp_all [Piece.same]⟩

theorem State.within_links (s : State) (f : LinkSys → LinkSys) : s.Within [.links] (s.withLinks f) :=
  ⟨rfl, fun p hp => by cases p <;> simp_all [Piece.same]⟩

theorem State.within_net (s : State) (f : NetSys → NetSys) : s.Within [.net] (s.withNet f) :=
  ⟨rfl, fun p hp => by cases p <;> simp_all [Piece.same]⟩

theorem State.within_host (s : State) (f : HostSys → HostSys) : s.Within [.host] (s.withHost f) :=
  ⟨rfl, fun p hp => by cases p <;> simp_all [Piece.same]⟩

theorem State.within_setter (s : State) (f : SetterSys → SetterSys) : s.Within [.setter] (s.withSetter f) :=
  ⟨rfl, fun p hp => by cases p <;> simp_all [Piece.same]⟩

theorem State.within_clasp (s : State) (f : Clasp → Clasp) : s.Within [.clasp] (s.withClasp f) :=
  ⟨rfl, fun p hp => by cases p <;> simp_all [Piece.same]⟩

theorem State.within_boot (s : State) (f : Boot → Boot) : s.Within [.boot] (s.withBoot f) :=
  ⟨rfl, fun p hp => by cases p <;> simp_all [Piece.same]⟩

theorem State.within_power (s : State) (f : Power → Power) : s.Within [.power] (s.withPower f) :=
  ⟨rfl, fun p hp => by cases p <;> simp_all [Piece.same]⟩

theorem State.within_health (s : State) (f : Health → Health) : s.Within [.health, .reports] (s.withHealth f) :=
  ⟨rfl, fun p hp => by cases p <;> simp_all [Piece.same]⟩

theorem State.within_note (s : State) (r : Report) : s.Within [.reports] (s.note r) :=
  ⟨rfl, fun p hp => by cases p <;> simp_all [Piece.same, State.note]⟩

theorem State.within_report (s : State) (cause cls inst : Nat) (clear : Bool) : s.Within [.reports] (s.report cause cls inst clear) :=
  s.within_note _

theorem State.within_notes (s : State) (rs : List Report) : s.Within [.reports] (s.notes rs) :=
  ⟨rfl, fun p hp => by cases p <;> simp_all [Piece.same, State.notes]⟩

theorem State.within_jtag (s : State) (j : Jtag) : s.Within [.jtag] { s with jtag := j } :=
  ⟨rfl, fun p hp => by cases p <;> simp_all [Piece.same]⟩

theorem State.within_sram (s : State) (m : Memory Word) : s.Within [.sram] { s with sram := m } :=
  ⟨rfl, fun p hp => by cases p <;> simp_all [Piece.same]⟩

theorem State.within_gpio (s : State) (n : Nat) (g : Gpio) : s.Within [.gpio] (s.setPin n g) :=
  ⟨rfl, fun p hp => by cases p <;> simp_all [Piece.same, State.setPin]⟩

theorem State.within_facet (s : State) (n : Nat) (f : Facet) : s.Within [.facets] (s.setFacet n f) :=
  ⟨rfl, fun p hp => by cases p <;> simp_all [Piece.same, State.setFacet]⟩

theorem State.within_tile (s : State) (n : Nat) (t : Tile) : s.Within [.tiles] (s.setTile n t) :=
  ⟨rfl, fun p hp => by cases p <;> simp_all [Piece.same, State.setTile]⟩

end Sys2Proof.Machine

/-!
SUPPORT. The JTAG port (R517), and supplies and temperature (R471, R505, R506, R516).
-/

namespace Sys2Proof.Machine

/-! ### JTAG -/

theorem shiftOut_length (cap bits : List Bool) : (shiftOut cap bits).length = bits.length := by simp [shiftOut]

/-- What comes out is what was captured, and after it what was shifted in. -/
theorem shiftOut_getD (cap bits : List Bool) {i : Nat} (hi : i < bits.length) :
    (shiftOut cap bits).getD i false = if i < cap.length then cap.getD i false else bits.getD (i - cap.length) false := by
  simp only [shiftOut, List.getD_eq_getElem?_getD, List.getElem?_take, hi, if_true]
  split
  · rw [List.getElem?_append_left ‹_›]
  · rw [List.getElem?_append_right (by omega)]

theorem shiftIn_length (cap bits : List Bool) : (shiftIn cap bits).length = cap.length := by simp [shiftIn]

theorem shiftIn_getD (cap bits : List Bool) (i : Nat) :
    (shiftIn cap bits).getD i false =
      if bits.length + i < cap.length then cap.getD (bits.length + i) false else bits.getD (bits.length + i - cap.length) false := by
  simp only [shiftIn, List.getD_eq_getElem?_getD, List.getElem?_drop]
  split
  · rw [List.getElem?_append_left ‹_›]
  · rw [List.getElem?_append_right (by omega)]

/-- A scan puts its output alone on the interfaces. -/
theorem State.jtag_emit_out {s : State} (j : Jtag) (o : Out) (hq : s.quiet = true) :
    (({ s with jtag := j } : State).emit o).settle.out = [o] :=
  State.settle_out_emit o hq rfl rfl

theorem onlyChanges_jtag (s : State) (j : Jtag) : OnlyChanges [.jtag] s ({ s with jtag := j } : State).settle :=
  (s.within_jtag j).settle (fun _ => rfl) fun _ => ⟨rfl, rfl, rfl⟩

theorem onlyChanges_jtag_emit (s : State) (j : Jtag) (o : Out) :
    OnlyChanges [.jtag, .out] s (({ s with jtag := j } : State).emit o).settle :=
  ((onlyChanges_jtag s j).emit o).mono (by decide)

/-- R517: an instruction that selects a register of captured value `cap`. -/
theorem completes_scan {i : Instr} {s : State} {ir : JtagInstr} {cap bits : List Bool} (hq : s.quiet = true)
    (hexec : exec i s = .next (s.scan ir cap bits).settle) :
    Completes i s [.jtag, .out] fun t => t.jtag = { s.jtag with ir := ir } ∧ ∃ o, t.out = [.jtag o] ∧ o.length = bits.length ∧
      ∀ i, i < bits.length → o.getD i false = if i < cap.length then cap.getD i false else bits.getD (i - cap.length) false :=
  ⟨_, hexec, ⟨rfl, _, State.jtag_emit_out _ _ hq, shiftOut_length .., fun _ => shiftOut_getD cap bits⟩, onlyChanges_jtag_emit ..⟩

/-- R517: an instruction that selects the boundary chain. -/
theorem completes_boundary {i : Instr} {s : State} {ir : JtagInstr} {pins bits : List Bool} (hq : s.quiet = true)
    (hexec : exec i s = .next (s.boundary ir pins bits).settle) :
    Completes i s [.jtag, .out] fun t => t.jtag.ir = ir ∧ t.jtag.cells.length = pins.length ∧
      (∀ i, i < pins.length → t.jtag.cells.getD i false =
        if bits.length + i < pins.length then pins.getD (bits.length + i) false else bits.getD (bits.length + i - pins.length) false) ∧
      ∃ o, t.out = [.jtag o] ∧ o.length = bits.length ∧
        ∀ i, i < bits.length → o.getD i false = if i < pins.length then pins.getD i false else bits.getD (i - pins.length) false :=
  ⟨_, hexec, ⟨rfl, shiftIn_length .., fun i _ => shiftIn_getD pins bits i, _, State.jtag_emit_out _ _ hq, shiftOut_length ..,
    fun _ => shiftOut_getD pins bits⟩, onlyChanges_jtag_emit ..⟩

/-- A 1-bit register captures 0, so what is shifted in comes out one bit later. -/
theorem completes_scan_bit {i : Instr} {s : State} {ir : JtagInstr} {bits : List Bool} (hq : s.quiet = true)
    (hexec : exec i s = .next (s.scan ir [false] bits).settle) :
    Completes i s [.jtag, .out] fun t => t.jtag = { s.jtag with ir := ir } ∧ ∃ o, t.out = [.jtag o] ∧ o.length = bits.length ∧
      ∀ i, i < bits.length → o.getD i false = if i = 0 then false else bits.getD (i - 1) false := by
  obtain ⟨t, hexec, ⟨hjtag, o, hout, hlen, hbits⟩, hframe⟩ := completes_scan hq hexec
  refine ⟨t, hexec, ⟨hjtag, o, hout, hlen, fun i hi => (hbits i hi).trans ?_⟩, hframe⟩
  cases i <;> rfl

theorem idcodeBits_getD {i : Nat} (hi : i < 32) : idcodeBits.getD i false = (0x18064A3D : Nat).testBit i := by
  simp [idcodeBits, hi]

/-- Settles O60. -/
theorem jtagCommands : Obligations.JtagCommands := by
  refine ⟨fun s hs => ⟨_, done_on rfl hs, rfl, onlyChanges_jtag ..⟩, fun s bits hs hq => ?_, fun s bits hs hq x hx => ?_,
    fun s pins bits hs hq x hx => ?_⟩
  · obtain ⟨t, hexec, ⟨hjtag, o, hout, hlen, hbits⟩, hframe⟩ := completes_scan (i := .idcode bits) hq (done_on rfl hs)
    refine ⟨t, hexec, ⟨hjtag, o, hout, hlen, fun i hi => (hbits i hi).trans ?_⟩, hframe⟩
    exact ite_congr rfl (fun h => idcodeBits_getD h) fun _ => rfl
  · simp only [List.mem_cons, List.not_mem_nil, or_false] at hx
    obtain rfl | rfl | rfl := hx <;> exact completes_scan_bit hq (done_on rfl hs)
  · simp only [List.mem_cons, List.not_mem_nil, or_false] at hx
    obtain rfl | rfl | rfl | rfl := hx <;> exact completes_boundary hq (done_on rfl hs)

/-! ### Rails and temperature -/

theorem testBit_sub_two_pow {x n : Nat} (h : x.testBit n = true) (m : Nat) : (x - 2 ^ n).testBit m = (x.testBit m && !decide (m = n)) := by
  obtain ⟨y, rfl⟩ := Nat.exists_eq_add_of_le (Nat.ge_two_pow_of_testBit h)
  rw [Nat.testBit_two_pow_add_eq, Bool.not_eq_true'] at h
  rw [Nat.add_sub_cancel_left]
  obtain hm | rfl | hm := Nat.lt_trichotomy m n
  · simp [Nat.testBit_two_pow_add_gt hm, hm.ne]
  · simp [h]
  · have hhalf : (2 ^ n + y) / 2 ^ (n + 1) = y / 2 ^ (n + 1) := by
      have hlow : y / 2 ^ n % 2 = 0 := by simpa [Nat.testBit_eq_decide_div_mod_eq] using h
      rw [pow_succ, ← Nat.div_div_eq_div_mul, ← Nat.div_div_eq_div_mul, Nat.add_div_left _ (by positivity)]
      omega
    obtain ⟨k, rfl⟩ := Nat.exists_eq_add_of_le hm
    rw [Nat.add_comm (n + 1) k, ← Nat.testBit_div_two_pow, ← Nat.testBit_div_two_pow, hhalf]
    simp
    omega

/-- The record of the power controller changes, the device stays as awake as it was, and one report goes out where `r` holds. -/
def State.powerReport (s : State) (f : Power → Power) (r : Option (Nat × Nat × Bool)) : State :=
  match r with
  | none => s.withPower f
  | some (cause, cls, clear) => (s.withPower f).report cause cls 0 clear

theorem State.powerReport_power (s : State) (f : Power → Power) (r : Option (Nat × Nat × Bool)) : (s.powerReport f r).power = f s.power := by
  rcases r with - | ⟨cause, cls, clear⟩ <;> rfl

theorem onlyChanges_powerReport (s : State) {f : Power → Power} (r : Option (Nat × Nat × Bool)) (hp : (f s.power).phase = s.power.phase)
    (hn : (f s.power).stopped = s.power.stopped) : OnlyChanges [.power, .reports] s (s.powerReport f r).settle := by
  have htx : (s.withPower f).txOn = s.txOn := by simp [State.txOn, Power.awake, hp, hn]
  have hpower := (s.within_power f).mono (qs := [.power, .reports])
  rcases r with - | ⟨cause, cls, clear⟩
  · exact hpower.settle (fun _ => rfl) fun _ => ⟨rfl, htx, rfl⟩
  · exact (hpower.trans ((State.within_report ..).mono)).settle (fun _ => rfl) fun _ => ⟨rfl, htx, rfl⟩

theorem State.powerReport_silent (s : State) (f : Power → Power) :
    (s.powerReport f none).settle.health.flying = s.settle.health.flying := rfl

theorem State.powerReport_tells (s : State) (f : Power → Power) (cause cls : Nat) (clear : Bool) :
    let t := (s.powerReport f (some (cause, cls, clear))).settle
    (∃ r ∈ t.health.flying, r.cause = cause ∧ r.clear = clear) ∧ t.health.flying.length = s.settle.health.flying.length + 1 := by
  have hflying : (s.powerReport f (some (cause, cls, clear))).settle.health.flying =
      s.health.flying ++ [⟨cause, cls, 0, 3, clear, false, 0⟩] ++ s.unitReports := rfl
  refine ⟨⟨⟨cause, cls, 0, 3, clear, false, 0⟩, by rw [hflying]; simp, rfl, rfl⟩, ?_⟩
  rw [hflying, State.settle_health]
  simp
  omega

/-- R506: the rails out of range after rail `n` has moved, and the report of SUPPLY_LIMIT. -/
def railsAfter (old n : Nat) (out : Bool) : Nat := if out then old ||| 2 ^ n else if old.testBit n then old - 2 ^ n else old

theorem State.railMoves_eq (s : State) (n : Nat) (out : Bool) :
    s.railMoves n out = s.powerReport (fun p => { p with railsOut := railsAfter s.power.railsOut n out })
      (if s.power.railsOut = 0 ∧ railsAfter s.power.railsOut n out ≠ 0 then some (0x0B04, 19, false)
       else if s.power.railsOut ≠ 0 ∧ railsAfter s.power.railsOut n out = 0 then some (0x0B04, 19, true) else none) := by
  rw [apply_ite (s.powerReport _), apply_ite (s.powerReport _)]
  rfl

theorem railsAfter_out_ne_zero (old n : Nat) : railsAfter old n true ≠ 0 := by
  have hbit : (old ||| 2 ^ n).testBit n = true := by simp
  intro h
  rw [railsAfter, if_pos rfl] at h
  simp [h] at hbit

theorem railsAfter_back_testBit (old n m : Nat) : (railsAfter old n false).testBit m = (old.testBit m && !decide (m = n)) := by
  simp only [railsAfter, Bool.false_eq_true, if_false]
  split
  · exact testBit_sub_two_pow ‹_› m
  · by_cases hm : m = n <;> simp_all

theorem railsAfter_back_eq_zero {old : Nat} (n : Nat) (h : old ≠ 0) : railsAfter old n false = 0 ↔ old = 2 ^ n := by
  constructor
  · simp only [railsAfter, Bool.false_eq_true, if_false]
    split
    · have := Nat.ge_two_pow_of_testBit (x := old) (i := n) ‹_›
      omega
    · exact fun h0 => absurd h0 h
  · rintro rfl
    simp [railsAfter]

theorem completes_supplyLimit {s : State} {n : Nat} (hn : n < 11) (hs : s.powered = true) :
    Completes (.supplyLimit n) s [.power, .reports] fun t => t.power = { s.power with railsOut := s.power.railsOut ||| 2 ^ n } ∧
      (s.power.railsOut = 0 → (∃ r ∈ t.health.flying, r.cause = 0x0B04 ∧ r.clear = false) ∧
        t.health.flying.length = s.settle.health.flying.length + 1) ∧
      (s.power.railsOut ≠ 0 → t.health.flying = s.settle.health.flying) := by
  have hne := railsAfter_out_ne_zero s.power.railsOut n
  refine ⟨_, (done_on (by simp [Instr.wf, hn]) hs).trans (by rw [State.railMoves_eq]), ⟨State.powerReport_power .., fun h0 => ?_, fun h0 => ?_⟩,
    onlyChanges_powerReport s _ rfl rfl⟩
  · rw [if_pos ⟨h0, hne⟩]
    exact s.powerReport_tells ..
  · rw [if_neg fun h => h0 h.1, if_neg fun h => hne h.2]
    exact s.powerReport_silent _

theorem completes_supplyExcursionEnd {s : State} {n : Nat} (hn : n < 11) (hs : s.powered = true) :
    Completes (.supplyExcursionEnd n) s [.power, .reports] fun t => t.power = { s.power with railsOut := t.power.railsOut } ∧
      t.power.railsOut.testBit n = false ∧ (∀ m, m ≠ n → t.power.railsOut.testBit m = s.power.railsOut.testBit m) ∧
      (s.power.railsOut = 2 ^ n → (∃ r ∈ t.health.flying, r.cause = 0x0B04 ∧ r.clear = true) ∧
        t.health.flying.length = s.settle.health.flying.length + 1) ∧
      (s.power.railsOut ≠ 2 ^ n → t.health.flying = s.settle.health.flying) := by
  refine ⟨_, (done_on (by simp [Instr.wf, hn]) hs).trans (by rw [State.railMoves_eq]), ?_, onlyChanges_powerReport s _ rfl rfl⟩
  have hpower := State.powerReport_power s (fun p => { p with railsOut := railsAfter s.power.railsOut n false })
  refine ⟨by rw [State.settle_power, hpower], by rw [State.settle_power, hpower]; simp [railsAfter_back_testBit],
    fun m hm => by rw [State.settle_power, hpower]; simp [railsAfter_back_testBit, hm], fun h0 => ?_, fun h0 => ?_⟩
  · have hne : s.power.railsOut ≠ 0 := by rw [h0]; positivity
    rw [if_neg fun h => hne h.1, if_pos ⟨hne, (railsAfter_back_eq_zero n hne).2 h0⟩]
    exact s.powerReport_tells ..
  · have hnone : railsAfter 0 n false = 0 := by simp [railsAfter]
    rw [if_neg fun h => h.2 (h.1 ▸ hnone), if_neg fun h => h0 ((railsAfter_back_eq_zero n h.1).1 h.2)]
    exact s.powerReport_silent _

/-- R516: whether the condition of TEMP_LIMIT lasts at `temp`. -/
def hotAfter (was : Bool) (temp : Nat) : Bool := decide (gradeMax < sext 16 temp) || (was && decide (gradeMax - 16 < sext 16 temp))

theorem hotAfter_of_lt {was : Bool} {temp : Nat} (h : gradeMax < sext 16 temp) : hotAfter was temp = true := by simp [hotAfter, h]

theorem hotAfter_of_le {was : Bool} {temp : Nat} (h : sext 16 temp ≤ gradeMax - 16) : hotAfter was temp = false := by
  simp [hotAfter]
  omega

theorem hotAfter_between {was : Bool} {temp : Nat} (h : gradeMax - 16 < sext 16 temp) (h' : sext 16 temp ≤ gradeMax) :
    hotAfter was temp = was := by
  simp [hotAfter, h, not_lt.2 h']

theorem State.tempMoves_eq (s : State) (temp : Nat) :
    s.tempMoves temp = s.powerReport (fun p => { p with temp := temp, hot := hotAfter s.power.hot temp })
      (if s.power.hot = hotAfter s.power.hot temp then none else some (0x0B03, 0, !hotAfter s.power.hot temp)) := by
  rw [apply_ite (s.powerReport _)]
  rfl

theorem completes_tempLimit {s : State} {temp : Nat} (htemp : temp < 2 ^ 16) (hs : s.powered = true) :
    Completes (.tempLimit temp) s [.power, .reports] fun t => t.power = { s.power with temp := temp, hot := hotAfter s.power.hot temp } ∧
      (hotAfter s.power.hot temp ≠ s.power.hot →
        (∃ r ∈ t.health.flying, r.cause = 0x0B03 ∧ r.clear = !hotAfter s.power.hot temp) ∧
          t.health.flying.length = s.settle.health.flying.length + 1) ∧
      (hotAfter s.power.hot temp = s.power.hot → t.health.flying = s.settle.health.flying) := by
  refine ⟨_, (done_on (by simp [Instr.wf]; omega) hs).trans (by rw [State.tempMoves_eq]), ⟨State.powerReport_power .., fun h0 => ?_, fun h0 => ?_⟩,
    onlyChanges_powerReport s _ rfl rfl⟩
  · rw [if_neg h0.symm]
    exact s.powerReport_tells ..
  · rw [if_pos h0.symm]
    exact s.powerReport_silent _

/-- Settles O58. -/
theorem supplyAndTemperatureCommands : Obligations.SupplyAndTemperatureCommands := by
  refine ⟨fun s hs => ⟨_, done_on rfl hs, ?_⟩, fun s aon => ⟨_, done_on rfl rfl, ?_⟩, fun s n hn hs => ⟨completes_supplyLimit hn hs,
    completes_supplyExcursionEnd hn hs⟩, fun s temp htemp hs => ?_⟩
  · repeat' constructor
  · repeat' constructor
  · obtain ⟨t, hexec, ⟨hpower, htells, hsilent⟩, hframe⟩ := completes_tempLimit htemp hs
    have hgrade : (if Config.industrial then 105 * 8 else 100 * 8 : Int) = gradeMax := rfl
    have htj : (if temp < 2 ^ 15 then (temp : Int) else (temp : Int) - 2 ^ 16) = sext 16 temp := by
      have hmod : temp % 65536 = temp := Nat.mod_eq_of_lt htemp
      simp only [sext]
      norm_num [hmod]
    refine ⟨t, hexec, ?_, hframe⟩
    simp only [hgrade, htj, hpower]
    refine ⟨trivial, trivial, fun h => ⟨hotAfter_of_lt h, fun h0 => ?_⟩, fun h => ⟨hotAfter_of_le h, fun h0 => ?_⟩,
      hotAfter_between, hsilent⟩
    · simpa [hotAfter_of_lt h, h0] using htells
    · simpa [hotAfter_of_le h, h0] using htells

end Sys2Proof.Machine

/-!
SUPPORT. Start-up: the early block, the core PLL, S0, S1, the recovery loader, and what RESET_N leaves (R422 to R428, R444 to R452, R514).
-/

namespace Sys2Proof.Machine

theorem incSat_eq_min (m c : Nat) : incSat m c = min m (c + 1) := by
  unfold incSat
  split <;> omega

/-! ### What the operations of start-up leave -/

theorem State.pinConfig_within (s : State) : s.Within [.host] s.pinConfig := .ite (fun _ => .refl _ s) fun _ => s.within_host _

/-- The pins change the mapping of the SPI targets, and nothing else of the host interfaces. -/
theorem State.pinConfig_host (s : State) : s.pinConfig.host.parts = s.host.parts ∧ s.pinConfig.host.rep = s.host.rep ∧
    s.pinConfig.host.outs = s.host.outs := by
  simp only [State.pinConfig]
  split <;> exact ⟨rfl, rfl, rfl⟩

theorem State.take_within (s : State) (n : Nat) : s.Within [.free] (s.take n).2 :=
  ⟨rfl, fun p hp => by cases p <;> simp_all [Piece.same]⟩

theorem State.events_within (s : State) (n : Nat) : s.Within [.free] (s.events n).2 := s.take_within n

theorem State.clockPlan_within (s : State) : s.Within [.clk, .free] s.clockPlan :=
  .ite (fun _ => .refl _ s) fun _ => ((s.take_within 2).mono).trans (((State.within_clk _ _).trans
    ((State.within_clk _ _).trans (State.within_clk _ _))).mono)

theorem State.loadStage_within (s : State) (rd : Nat → Nat → List Byte) (n : Nat) : s.Within [.sram, .dram] (s.loadStage rd n) :=
  .ite (fun _ => (s.within_sram _).mono) fun _ => (s.within_dram _).mono

theorem State.tryStage1_within (s : State) (r : Ledger) : s.Within [.sram, .dram] (s.tryStage1 r) :=
  .ite (fun _ => .refl _ s) fun _ => s.loadStage_within _ _

/-- Before full service nothing is sent to the network. -/
theorem State.txOn_of_not_full {s : State} (h : s.boot.at_ ≠ .full) : s.txOn = false := by simp [State.txOn, h]

/-- Before and after a command that stays off full service, with no output of its own. -/
theorem State.Within.settle_starting {ps : List Piece} {s t : State} (h : s.Within ps t) (hs : s.boot.at_ ≠ .full) (ht : t.boot.at_ ≠ .full)
    (hrep : .reports ∉ ps → t.unitReports = s.unitReports) (houts : t.host.outs = s.host.outs) (hnet : .net ∉ ps := by decide) :
    OnlyChanges ps s t.settle :=
  h.settle hrep fun _ => ⟨houts, by rw [State.txOn_of_not_full hs, State.txOn_of_not_full ht], congrArg NetSys.sent (h.2 .net hnet)⟩

/-! ### The early block and the core PLL (R422 to R427, R298) -/

/-- The Clasp has selected a copy (R426). -/
def Clasp.chosen (c : Clasp) (crefLost : Bool) : Clasp := { c.select with pll := if crefLost then .rescue else c.pll }

/-- The selection of a copy, its clock plan and its pin configuration (R426). -/
def State.earlyChosen (s : State) : State :=
  ((s.withClasp fun c => c.chosen s.clk.crefLost).clockPlan.withClk fun c => { c with outHiZ := false }).pinConfig

theorem State.earlySelect_eq (s : State) : s.earlySelect =
    if !s.earlyChosen.clasp.valid.1 && !s.earlyChosen.clasp.valid.2 then s.earlyChosen.report 0x0B00 18 0 false else s.earlyChosen := by
  simp only [State.earlySelect, State.earlyChosen, Clasp.chosen]
  congr 1

theorem State.earlyChosen_within (s : State) : s.Within [.clasp, .clk, .host, .free] s.earlyChosen := by
  have hselect := (s.within_clasp fun c => c.chosen s.clk.crefLost).mono (qs := [.clasp, .clk, .host, .free])
  have hplan := (State.clockPlan_within (s.withClasp fun c => c.chosen s.clk.crefLost)).mono (qs := [.clasp, .clk, .host, .free])
  have hpin := (State.pinConfig_within ((s.withClasp fun c => c.chosen s.clk.crefLost).clockPlan.withClk fun c =>
    { c with outHiZ := false })).mono (qs := [.clasp, .clk, .host, .free])
  exact hselect.trans (hplan.trans (((State.within_clk _ _).mono).trans hpin))

theorem State.earlySelect_within (s : State) : s.Within [.clasp, .clk, .host, .reports, .free] s.earlySelect := by
  rw [State.earlySelect_eq]
  exact .ite (fun _ => s.earlyChosen_within.mono.trans ((State.within_report ..).mono)) fun _ => s.earlyChosen_within.mono

theorem State.pinConfig_clasp (s : State) : s.pinConfig.clasp = s.clasp := s.pinConfig_within.same .clasp

theorem State.pinConfig_clk (s : State) : s.pinConfig.clk = s.clk := s.pinConfig_within.same .clk

theorem State.clockPlan_host (s : State) : s.clockPlan.host = s.host := s.clockPlan_within.same .host

theorem State.clockPlan_clasp (s : State) : s.clockPlan.clasp = s.clasp := s.clockPlan_within.same .clasp

theorem State.earlyChosen_clasp (s : State) : s.earlyChosen.clasp = s.clasp.chosen s.clk.crefLost :=
  (State.pinConfig_clasp _).trans (State.clockPlan_clasp _)

theorem State.earlyChosen_outHiZ (s : State) : s.earlyChosen.clk.outHiZ = false :=
  congrArg ClkSys.outHiZ (State.pinConfig_clk _)

theorem State.earlyChosen_outs (s : State) : s.earlyChosen.host.outs = s.host.outs :=
  (State.pinConfig_host _).2.2.trans (congrArg HostSys.outs (State.clockPlan_host _))

theorem Clasp.chosen_stage (c : Clasp) (crefLost : Bool) : (c.chosen crefLost).stage = .selected := by
  simp only [Clasp.chosen, Clasp.select]
  split <;> rfl

theorem Clasp.chosen_valid (c : Clasp) (crefLost : Bool) : (c.chosen crefLost).valid = (earlyValid c.copies.1, earlyValid c.copies.2) := by
  simp only [Clasp.chosen, Clasp.select]
  split <;> rfl

theorem completes_earlyBlockSelect {s : State} (hs : s.clasp.stage = .read_) :
    Completes .earlyBlockSelect s [.clasp, .clk, .host, .reports, .free] fun t =>
      t.clasp.stage = .selected ∧ t.clasp.valid = (earlyValid s.clasp.copies.1, earlyValid s.clasp.copies.2) ∧ t.clk.outHiZ = false ∧
      (t.clasp.valid = (false, false) → ⟨0x0B00, 18, 0, 3, false, false, 0⟩ ∈ t.health.flying) := by
  have hclasp : s.earlySelect.clasp = s.earlyChosen.clasp := by rw [State.earlySelect_eq]; split <;> rfl
  have hclk : s.earlySelect.clk = s.earlyChosen.clk := by rw [State.earlySelect_eq]; split <;> rfl
  have hhost : s.earlySelect.host = s.earlyChosen.host := by rw [State.earlySelect_eq]; split <;> rfl
  have hboot : s.earlySelect.boot = s.boot := s.earlySelect_within.same .boot
  have hpower : s.earlySelect.power = s.power := s.earlySelect_within.same .power
  have hnet : s.earlySelect.net = s.net := s.earlySelect_within.same .net
  refine ⟨s.earlySelect.settle, done_on rfl (by simp [hs]), ?_, s.earlySelect_within.settle (fun hn => absurd (by decide) hn) fun _ =>
    ⟨by rw [hhost, s.earlyChosen_outs], by simp [State.txOn, hboot, hpower], by rw [hnet]⟩⟩
  simp only [State.settle_clasp, State.settle_clk, hclasp, hclk, s.earlyChosen_clasp, s.earlyChosen_outHiZ, Clasp.chosen_stage,
    Clasp.chosen_valid, true_and]
  intro hnone
  have hvalid : s.earlyChosen.clasp.valid = (false, false) := by rw [s.earlyChosen_clasp]; exact (Clasp.chosen_valid ..).trans hnone
  simp [State.earlySelect_eq, hvalid, State.report, State.note]

theorem completes_corePllStartTimeout {s : State} (edges : Bool) (ha : s.awake = true) (hb : s.boot.at_ = .wait) (hl : s.clk.coreLock = false)
    (hf : s.boot.startFail = false) :
    Completes (.corePllStartTimeout edges) s [.boot, .clk, .clasp, .reports] fun t =>
      t.clk.rescueCount = min 0xFFFF (s.clk.rescueCount + 1) ∧ t.clk.cause = (if edges then 2 else 1) ∧ t.boot.at_ = .wait ∧
        t.faultLow = true ∧ t.bootErrLow = true := by
  have hwithin : s.Within [.boot, .clk, .clasp, .reports] (s.startTimeout edges) :=
    ((s.within_boot _).mono).trans (((State.within_clk _ _).mono).trans (((State.within_clasp _ _).mono).trans ((State.within_note _ _).mono)))
  refine ⟨(s.startTimeout edges).settle, done_on rfl (by simp [ha, hb, hl, hf]), ⟨?_, rfl, hb, ?_, ?_⟩,
    hwithin.settle_starting (by simp [hb]) (by simp [State.startTimeout, State.note, hb]) (fun hn => absurd (by decide) hn) rfl⟩
  · exact incSat_eq_min 0xFFFF s.clk.rescueCount
  · simp [State.startTimeout, State.note, State.faultLow]
  · simp [State.startTimeout, State.note, State.bootErrLow]

/-- Settles O13. -/
theorem earlyBlockAndCorePllStart : Obligations.EarlyBlockAndCorePllStart :=
  ⟨fun s answers hs => ⟨_, done_on rfl (by simp [hs]), rfl, (s.within_clasp _).settle (fun _ => rfl) fun _ => ⟨rfl, rfl, rfl⟩⟩,
    fun _ => completes_earlyBlockSelect,
    fun s ha hl => ⟨_, done_on rfl (by simp [ha, hl]), ⟨rfl, rfl, rfl, rfl⟩, (s.within_clk _).settle (fun _ => rfl) fun _ => ⟨rfl, rfl, rfl⟩⟩,
    fun _ => completes_corePllStartTimeout⟩

end Sys2Proof.Machine

/-!
SUPPORT. S0, S1, the recovery loader and RESET_N (R444 to R452, R514).
-/

namespace Sys2Proof.Machine

/-! ### The slots that S0 tries (R449, R450) -/

theorem Boot.currentIn_slot {b : Boot} {copy slot : Nat} {r : Ledger} (h : b.currentIn copy slot = some r) : r.slot = slot := by
  have hmem := List.mem_filter.1 (List.mem_of_getLast? h)
  simpa using hmem.2

theorem newerRec_eq {a b : Option Ledger} {r : Ledger} (h : newerRec a b = some r) : a = some r ∨ b = some r := by
  unfold newerRec at h
  split at h
  · split at h
    · exact .inr h
    · exact .inl h
  · exact .inr h
  · exact .inl h

theorem Boot.current_slot {b : Boot} {slot : Nat} {r : Ledger} (h : b.current slot = some r) : r.slot = slot := by
  obtain h | h := newerRec_eq h
  · exact Boot.currentIn_slot h
  · exact Boot.currentIn_slot h

theorem mem_bySeq {l : List Ledger} {r : Ledger} (h : r ∈ bySeq l) : r ∈ l := by
  unfold bySeq at h
  split at h
  · split at h
    · simpa [or_comm] using h
    · exact h
  · exact h

theorem Boot.slotOrder_slot {b : Boot} {r : Ledger} (h : r ∈ b.slotOrder) : r.slot ≤ 1 := by
  have hmem : r ∈ [b.current 0, b.current 1].filterMap fun r => r := by
    obtain h | h := List.mem_append.1 h
    · exact (List.mem_filter.1 (mem_bySeq h)).1
    · exact (List.mem_filter.1 (mem_bySeq h)).1
  obtain ⟨a, ha, hr⟩ := List.mem_filterMap.1 hmem
  simp only [List.mem_cons, List.not_mem_nil, or_false] at ha
  obtain ha | ha := ha
  · have hcur : b.current 0 = some r := ha ▸ hr
    rw [Boot.current_slot hcur]
    exact Nat.zero_le 1
  · have hcur : b.current 1 = some r := ha ▸ hr
    rw [Boot.current_slot hcur]

/-! ### S0 (R444, R447) -/

theorem Boot.extend_keeps (b : Boot) (k : Nat) (m : List Byte) (us event : Nat) : (b.extend k m us event).flash = b.flash ∧
    (b.extend k m us event).otp = b.otp ∧ (b.extend k m us event).flRead = b.flRead ∧ (b.extend k m us event).startFail = b.startFail ∧
    (b.extend k m us event).code = b.code ∧ (b.extend k m us event).rec_ = b.rec_ := by
  simp only [Boot.extend]
  split <;> exact ⟨rfl, rfl, rfl, rfl, rfl, rfl⟩

/-- What an accepted stage 1 changes of the boot state. -/
theorem Boot.accept1_keeps (b : Boot) (h : List Byte) (us : Nat) (ev : Nat → Nat) : (b.accept1 h us ev).flash = b.flash ∧
    (b.accept1 h us ev).otp = b.otp ∧ (b.accept1 h us ev).flRead = b.flRead ∧ (b.accept1 h us ev).startFail = b.startFail ∧
    (b.accept1 h us ev).code = b.code ∧ (b.accept1 h us ev).rec_ = b.rec_ := by
  obtain ⟨f1, o1, r1, s1, c1, e1⟩ := b.extend_keeps 0 (sha384 h) us (ev 0)
  obtain ⟨f2, o2, r2, s2, c2, e2⟩ := (b.extend 0 (sha384 h) us (ev 0)).extend_keeps 1
    [BitVec.ofNat 8 b.otp.state, BitVec.ofNat 8 b.otp.count] us (ev 1)
  exact ⟨f2.trans f1, o2.trans o1, r2.trans r1, s2.trans s1, c2.trans c1, e2.trans e1⟩

/-- Where S0 goes: into a halt, to the recovery loader, or on to stage 1. -/
inductive Boot.S0Ends (b t : Boot) : Prop where
  | halt (h : b.otp.bad.testBit 0 = true ∧ t.code = 0xE ∨ b.otp.bad.testBit 0 = false ∧ b.otp.state = 4 ∧ t.code = 0xD) (hat : t.at_ = .halt)
  | recovery (hbad : b.otp.bad.testBit 0 = false) (hstate : b.otp.state ≠ 4) (hat : t.at_ = .recovery) (hcode : t.code = 4)
  | stage1 (hbad : b.otp.bad.testBit 0 = false) (hstate : b.otp.state ≠ 4) (hblank : b.otp.state ≠ 0) (hat : t.at_ = .stage1) (hcode : t.code ≤ 3)

theorem Boot.s0_ends (b : Boot) (us : Nat) (ev : Nat → Nat) : b.S0Ends (b.s0 us ev) := by
  simp only [Boot.s0]
  split
  · exact .halt (.inl ⟨‹_›, rfl⟩) rfl
  next hbad =>
  rw [Bool.not_eq_true] at hbad
  split
  · exact .halt (.inr ⟨hbad, ‹_›, rfl⟩) rfl
  next hstate =>
  split
  · exact .recovery hbad hstate rfl rfl
  next hblank =>
  split
  · exact .recovery hbad hstate rfl rfl
  next r hr =>
  have hslot := Boot.slotOrder_slot (List.mem_of_find?_eq_some hr)
  obtain ⟨-, -, -, -, hcode, -⟩ := Boot.accept1_keeps { b with startFail := false, source := r.slot, code := 2 + r.slot }
    (Boot.slotRd { b with startFail := false } r.slot 0 512) us ev
  refine .stage1 hbad hstate hblank rfl (hcode.trans_le ?_)
  change 2 + r.slot ≤ 3
  change r.slot ≤ 1 at hslot
  omega

theorem Boot.s0_keeps (b : Boot) (us : Nat) (ev : Nat → Nat) :
    (b.s0 us ev).flash = b.flash ∧ (b.s0 us ev).otp = b.otp ∧ (b.s0 us ev).flRead = b.flRead ∧ (b.s0 us ev).startFail = false := by
  simp only [Boot.s0]
  split
  · exact ⟨rfl, rfl, rfl, rfl⟩
  split
  · exact ⟨rfl, rfl, rfl, rfl⟩
  split
  · exact ⟨rfl, rfl, rfl, rfl⟩
  split
  · exact ⟨rfl, rfl, rfl, rfl⟩
  next r _ =>
  obtain ⟨hflash, hotp, hread, hfail, -, -⟩ := Boot.accept1_keeps { b with startFail := false, source := r.slot, code := 2 + r.slot }
    (Boot.slotRd { b with startFail := false } r.slot 0 512) us ev
  exact ⟨hflash, hotp, hread, hfail⟩

/-- R447: S0 leaves BOOT_ERR_N low in a halt alone. -/
theorem Boot.s0_error (b : Boot) (us : Nat) (ev : Nat → Nat) :
    (decide (9 ≤ (b.s0 us ev).code) || (b.s0 us ev).startFail) = decide ((b.s0 us ev).at_ = .halt) := by
  rw [(b.s0_keeps us ev).2.2.2]
  cases b.s0_ends us ev with
  | halt h hat => obtain ⟨-, hcode⟩ | ⟨-, -, hcode⟩ := h <;> simp [hat, hcode]
  | recovery _ _ hat hcode => simp [hat, hcode]
  | stage1 _ _ _ hat hcode => simp [hat]; omega

/-- R440, R503: the mode in which S0 reads a flash device, at 133 MHz at most above 1.8 V. -/
def cappedMode (low : Bool) (x : Nat × Nat × Nat) : Nat × Nat × Nat := (x.1, x.2.1, if low then x.2.2 else min x.2.2 133)

theorem Boot.header_le {b : Boot} {k : Nat} {x : Nat × Nat × Nat} (h : b.header k = some x) : x.2.2 ≤ 200 := by
  simp only [Boot.header] at h
  split at h
  next hv =>
    obtain ⟨-, -, -, -, -, hmhz, -⟩ := hv
    rw [← Option.some.inj h]
    dsimp only
    exact hmhz
  · cases h

theorem min_mode {low : Bool} {x : Nat × Nat × Nat} (h : x.2.2 ≤ 200) : (x.1, x.2.1, min x.2.2 (if low then 200 else 133)) = cappedMode low x := by
  cases low <;> simp [cappedMode, h]

theorem Boot.flashMode_header0 {b : Boot} {x : Nat × Nat × Nat} (sfdp : Option (Nat × Nat × Nat)) (low : Bool) (h : b.header 0 = some x) :
    b.flashMode sfdp low = some (cappedMode low x) := by
  simp [Boot.flashMode, h, ← min_mode (Boot.header_le h)]

theorem Boot.flashMode_header1 {b : Boot} {x : Nat × Nat × Nat} (sfdp : Option (Nat × Nat × Nat)) (low : Bool) (h0 : b.header 0 = none)
    (h : b.header 1 = some x) : b.flashMode sfdp low = some (cappedMode low x) := by
  simp [Boot.flashMode, h0, h, ← min_mode (Boot.header_le h)]

theorem Boot.flashMode_sfdp {b : Boot} {sfdp : Option (Nat × Nat × Nat)} (low : Bool) (h0 : b.header 0 = none) (h1 : b.header 1 = none)
    (h : ∀ x, sfdp = some x → x.2.2 ≤ 200) : b.flashMode sfdp low = sfdp.map (cappedMode low) := by
  cases sfdp with
  | none => simp [Boot.flashMode, h0, h1]
  | some x => simp [Boot.flashMode, h0, h1, ← min_mode (h x rfl)]

/-- S0 loads what it tries, and then the boot state is what `Boot.s0` says. -/
def State.s0Loads (s : State) (b : Boot) : State :=
  if b.otp.bad.testBit 0 ∨ b.otp.state = 4 ∨ b.otp.state = 0 then (s.events 2).2 else b.tried.foldl State.tryStage1 (s.events 2).2

theorem State.s0Loads_within (s : State) (b : Boot) : s.Within [.sram, .dram, .free] (s.s0Loads b) :=
  .ite (fun _ => (s.events_within 2).mono) fun _ =>
    ((s.events_within 2).mono).trans (.foldl (fun t r => (t.tryStage1_within r).mono) _ _)

/-- The boot state with the mode in which S0 reads the flash (R440). -/
def Boot.reading (b : Boot) (sfdp : Option (Nat × Nat × Nat)) (low : Bool) : Boot := { b with flRead := b.flashMode sfdp low }

theorem Boot.reading_flRead (b : Boot) (sfdp : Option (Nat × Nat × Nat)) (low : Bool) : (b.reading sfdp low).flRead = b.flashMode sfdp low := by
  rw [Boot.reading]

/-- S0 once BOOT_ERR_N of R424 is released. -/
def State.s0Runs (s : State) (b : Boot) : State := (s.s0Loads b).withBoot fun _ => b.s0 (s.s0Loads b).us (s.events 2).1

theorem State.s0Runs_within (s : State) (b : Boot) : s.Within [.boot, .sram, .dram, .free] (s.s0Runs b) :=
  ((s.s0Loads_within b).mono).trans ((State.within_boot ..).mono)

theorem State.s0Runs_boot (s : State) (b : Boot) : (s.s0Runs b).boot = b.s0 s.us (s.events 2).1 := by
  have htime : (s.s0Loads b).us = s.us := ((s.s0Loads_within b).same .time).1
  rw [State.s0Runs, State.withBoot_boot, htime]

theorem State.s0_eq (s : State) (sfdp : Option (Nat × Nat × Nat)) (low : Bool) :
    s.s0 sfdp low =
      (let x := if s.boot.startFail then s.note ⟨0x0600, 10, 0, 3, true, false, 0⟩ else s
       x.s0Runs (x.boot.reading sfdp low)) := rfl

theorem State.s0_parts (s : State) (sfdp : Option (Nat × Nat × Nat)) (low : Bool) :
    s.Within [.boot, .sram, .dram, .reports, .free] (s.s0 sfdp low) ∧
      ∃ ev, (s.s0 sfdp low).boot = (s.boot.reading sfdp low).s0 s.us ev := by
  rw [State.s0_eq]
  split
  · have hboot : (s.note ⟨0x0600, 10, 0, 3, true, false, 0⟩).boot = s.boot := (s.within_note _).same .boot
    dsimp only
    rw [hboot]
    exact ⟨((s.within_note _).mono).trans ((State.s0Runs_within ..).mono), _, State.s0Runs_boot ..⟩
  · exact ⟨(s.s0Runs_within _).mono, _, State.s0Runs_boot ..⟩

theorem completes_s0Start {s : State} {sfdp : Option (Nat × Nat × Nat)} {low : Bool}
    (hsfdp : ∀ x, sfdp = some x → x.1 < 256 ∧ x.2.1 < 32 ∧ x.2.2 ≤ 200) (ha : s.awake = true) (hw : s.boot.at_ = .wait)
    (hl : s.clk.coreLock = true) :
    Completes (.s0Start sfdp low) s [.boot, .sram, .dram, .reports, .free] fun t => ∃ ev,
      t.boot = (s.boot.reading sfdp low).s0 s.us ev := by
  obtain ⟨hwithin, ev, hboot⟩ := s.s0_parts sfdp low
  have hwf : (Instr.s0Start sfdp low).wf = true := by
    cases sfdp with
    | none => rfl
    | some x =>
      obtain ⟨h1, h2, h3⟩ := hsfdp x rfl
      simp [Instr.wf, h1, h2, h3]
  have hat : (s.s0 sfdp low).boot.at_ ≠ .full := by
    rw [hboot]
    cases Boot.s0_ends (s.boot.reading sfdp low) s.us ev with
    | halt _ hat => simp [hat]
    | recovery _ _ hat => simp [hat]
    | stage1 _ _ _ hat => simp [hat]
  exact ⟨_, done_on hwf (by simp [ha, hw, hl]), ⟨ev, hboot⟩, hwithin.settle_starting (by simp [hw]) hat (fun hn => absurd (by decide) hn)
    (congrArg HostSys.outs (hwithin.same .host))⟩

/-! ### S1 (R444, R272) -/

theorem MemSys.bankFails_banks (m : MemSys) (b : Nat) : (m.bankFails b).banks = m.banks := by
  unfold MemSys.bankFails
  split <;> rfl

theorem State.s1_parts (s : State) (faulty : List Nat) : s.Within [.boot, .mem] (s.s1 faulty) ∧ (s.s1 faulty).boot = s.boot.s1Start ∧
    (s.s1 faulty).mem.banks = s.mem.banks ∧ (s.boot.s1Start.at_ ≠ .s1 → (s.s1 faulty).mem = s.mem) := by
  simp only [State.s1]
  split
  next hs1 =>
    refine ⟨((s.within_boot _).mono).trans ((State.within_mem _ _).mono), rfl, ?_, fun h => absurd hs1 h⟩
    exact foldl_keeps MemSys.banks MemSys.bankFails MemSys.bankFails_banks _ _
  · exact ⟨(s.within_boot _).mono, rfl, rfl, fun _ => rfl⟩

theorem Boot.s1Start_good {b : Boot} (hat : b.at_ = .stage1) (hgood : b.otp.bad.testBit 1 = false) :
    b.s1Start = { b with at_ := .s1, code := 6, devKey := some b.otp.deviceKey } := by
  simp [Boot.s1Start, hat, hgood]

theorem Boot.s1Start_bad {b : Boot} (hat : b.at_ = .stage1) (hbad : b.otp.bad.testBit 1 = true) :
    b.s1Start = { b with code := 6 }.haltS1 0xE := by
  simp [Boot.s1Start, hat, hbad]

theorem completes_s1Start {s : State} {faulty : List Nat} (hf : ∀ b ∈ faulty, b ≤ 128) (ha : s.awake = true) (hat : s.boot.at_ = .stage1) :
    Completes (.s1Start faulty) s [.boot, .mem, .reports] fun t =>
      (s.boot.otp.bad.testBit 1 = false → t.boot.at_ = .s1 ∧ t.boot.code = 6 ∧ t.boot.devKey = some s.boot.otp.deviceKey) ∧
      (s.boot.otp.bad.testBit 1 = true → t.boot.at_ = .halt ∧ t.boot.code = 0xE ∧
        (s.boot.source < 2 → t.boot.skip = s.boot.skip ||| 2 ^ s.boot.source) ∧ t.mem = s.settle.mem) ∧ t.mem.banks = s.mem.banks := by
  obtain ⟨hwithin, hboot, hbanks, hmem⟩ := s.s1_parts faulty
  have hfull : (s.s1 faulty).boot.at_ ≠ .full := by
    rw [hboot]
    cases hbad : s.boot.otp.bad.testBit 1
    · simp [Boot.s1Start_good hat hbad]
    · simp [Boot.s1Start_bad hat hbad, Boot.haltS1, Boot.haltWith]
  refine ⟨_, done_on (by simpa [Instr.wf] using hf) (by simp [ha, hat]), ⟨fun hgood => ?_, fun hbad => ?_, hbanks⟩,
    (hwithin.mono).settle_starting (by simp [hat]) hfull (fun hn => absurd (by decide) hn) (congrArg HostSys.outs (hwithin.same .host))⟩
  · simp [hboot, Boot.s1Start_good hat hgood]
  · have hhalt := Boot.s1Start_bad hat hbad
    have hkept := hmem (by simp [hhalt, Boot.haltS1, Boot.haltWith])
    refine ⟨by simp [hboot, hhalt, Boot.haltS1, Boot.haltWith], by simp [hboot, hhalt, Boot.haltS1, Boot.haltWith], fun hsource => ?_, ?_⟩
    · simp [hboot, hhalt, Boot.haltS1, Boot.haltWith, hsource]
    · rw [State.settle_mem, State.settle_mem, hkept]

/-- Settles O14. -/
theorem s0AndS1Start : Obligations.S0AndS1Start := by
  refine ⟨fun s sfdp low hsfdp ha hw hl => ?_, fun _ _ => completes_s1Start⟩
  obtain ⟨t, hexec, ⟨ev, hboot⟩, hframe⟩ := completes_s0Start hsfdp ha hw hl
  have hends := Boot.s0_ends (s.boot.reading sfdp low) s.us ev
  obtain ⟨hflash, hotp, hread, hfail⟩ := Boot.s0_keeps (s.boot.reading sfdp low) s.us ev
  have herror := Boot.s0_error (s.boot.reading sfdp low) s.us ev
  rw [← hboot] at hends hflash hotp hread hfail herror
  have hmode : t.boot.flRead = s.boot.flashMode sfdp low := hread.trans (Boot.reading_flRead ..)
  simp only [Boot.reading] at hflash hotp
  refine ⟨t, hexec, ⟨hfail, herror, hflash, hotp, fun x hx => by rw [hmode, Boot.flashMode_header0 sfdp low hx, cappedMode],
    fun h0 x hx => by rw [hmode, Boot.flashMode_header1 sfdp low h0 hx, cappedMode],
    fun h0 h1 => by rw [hmode, Boot.flashMode_sfdp low h0 h1 fun x hx => (hsfdp x hx).2.2]; rfl, fun hbad => ?_, fun hgood h4 => ?_,
    fun hgood h0 => ?_, fun hgood h4 => ?_⟩, hframe⟩
  all_goals cases hends <;> simp_all [Boot.reading]

/-! ### The recovery loader (R447, R452) -/

/-- R447: a halt of S0 comes before the loader. -/
theorem State.recoveryPin_boot (s : State) :
    s.recoveryPin.boot.flash = s.boot.flash ∧ s.recoveryPin.boot.at_ ≠ .full ∧
      (s.boot.otp.bad.testBit 0 = false → s.boot.otp.state ≠ 4 →
        s.recoveryPin.boot.at_ = .recovery ∧ s.recoveryPin.boot.code = 4 ∧ s.recoveryPin.boot.rec_ = []) := by
  simp only [State.recoveryPin, State.withBoot_boot]
  split
  · split
    · simp_all [Boot.haltWith]
    · split
      · simp_all [Boot.haltWith]
      · simp [Boot.enterRecovery]
  · simp [Boot.enterRecovery]

theorem State.recover_within (s : State) (r : Boot × List Byte) : s.Within [.boot, .host] (s.recover r) :=
  ((s.within_boot fun _ => r.1).mono).trans ((State.within_host _ _).mono)

/-- The loader answers a frame with one STATUS frame. -/
theorem State.recover_out {s : State} (r : Boot × List Byte) (hq : s.quiet = true) : (s.recover r).settle.out = [.uart r.2] :=
  State.settle_out_emit _ hq rfl rfl

theorem onlyChanges_recover (s : State) (r : Boot × List Byte) (hat : r.1.at_ = s.boot.at_) :
    OnlyChanges [.boot, .out] s (s.recover r).settle :=
  ((onlyChanges_withBoot s (fun _ => r.1) hat).emit (.uart r.2)).mono (by decide)

theorem Boot.recData_keeps (b : Boot) (f : List Byte) : (b.recData f).1.flash = b.flash ∧ (b.recData f).1.at_ = b.at_ := by
  unfold Boot.recData
  split
  · split
    · exact ⟨rfl, rfl⟩
    · dsimp only
      split <;> exact ⟨rfl, rfl⟩
  · exact ⟨rfl, rfl⟩

theorem Boot.recData_malformed {b : Boot} {f : List Byte} (h : recFrame f = none) : b.recData f = (b, b.status 1) := by
  unfold Boot.recData
  rw [h]

theorem Boot.recData_continues {b : Boot} {f p : List Byte} (h : recFrame f = some (2, p)) (hp : 4 ≤ p.length)
    (hnext : le p 0 4 = b.rec_.length ∧ le p 0 4 + (p.length - 4) ≤ 3 * 2 ^ 20) :
    b.recData f = ({ b with code := 5, rec_ := b.rec_ ++ p.drop 4 }, b.status 0) := by
  unfold Boot.recData
  simp only [h]
  rw [if_neg (by omega), if_pos hnext]
  rfl

theorem Boot.recData_misplaced {b : Boot} {f p : List Byte} (h : recFrame f = some (2, p)) (hp : 4 ≤ p.length)
    (hnext : ¬ (le p 0 4 = b.rec_.length ∧ le p 0 4 + (p.length - 4) ≤ 3 * 2 ^ 20)) :
    b.recData f = ({ b with code := 5 }, b.status 2) := by
  unfold Boot.recData
  simp only [h]
  rw [if_neg (by omega), if_neg hnext]
  rfl

theorem completes_data {s : State} (f : List Byte) (hq : s.quiet = true) (hat : s.boot.at_ = .recovery) :
    Completes (.data f) s [.boot, .out] fun t => t.boot.flash = s.boot.flash ∧ t.boot = (s.boot.recData f).1 ∧
      t.out = [.uart (s.boot.recData f).2] := by
  obtain ⟨hflash, hkept⟩ := s.boot.recData_keeps f
  exact ⟨_, done_on rfl (by simp [hat]), ⟨hflash, rfl, State.recover_out _ hq⟩, onlyChanges_recover s _ hkept⟩

/-! ### GO -/

theorem Boot.recGo_keeps (b : Boot) (f : List Byte) (us : Nat) (ev : Nat → Nat) : (b.recGo f us ev).1.flash = b.flash ∧
    ((b.recGo f us ev).1.at_ = b.at_ ∨ (b.recGo f us ev).1.at_ = .stage1) := by
  unfold Boot.recGo
  split
  · dsimp only
    split
    · exact ⟨(Boot.accept1_keeps ..).1, .inr rfl⟩
    · exact ⟨rfl, .inl rfl⟩
  · exact ⟨rfl, .inl rfl⟩

theorem Boot.recGo_malformed {b : Boot} {f : List Byte} (us : Nat) (ev : Nat → Nat) (h : recFrame f = none) :
    b.recGo f us ev = (b, b.status 1) := by
  unfold Boot.recGo
  rw [h]

theorem Boot.recGo_empty {b : Boot} {f : List Byte} (us : Nat) (ev : Nat → Nat) (h : recFrame f = some (3, [])) (hr : b.rec_ = []) :
    b.recGo f us ev = ({ b with code := 4, rec_ := [] }, b.status 3) := by
  unfold Boot.recGo
  simp only [h]
  rw [if_neg fun h => h.1 hr]

/-- The loader's answer to a GO, before an accepted image is loaded. -/
def State.goAnswer (s : State) (f : List Byte) : State := (s.events 2).2.recover (s.boot.recGo f s.us (s.events 2).1)

theorem State.recGo_eq (s : State) (f : List Byte) : s.recGo f =
    if (s.goAnswer f).boot.at_ = .stage1 then
      (s.goAnswer f).loadStage (fun o n => slice s.boot.rec_ o n) (stageOf (slice s.boot.rec_ 0 512)).blocks
    else s.goAnswer f := rfl

theorem State.recGo_within (s : State) (f : List Byte) : (s.goAnswer f).Within [.sram, .dram] (s.recGo f) := by
  rw [State.recGo_eq]
  exact .ite (fun _ => State.loadStage_within ..) fun _ => .refl ..

theorem State.loadStage_unitReports (s : State) (rd : Nat → Nat → List Byte) (n : Nat) : (s.loadStage rd n).unitReports = s.unitReports := by
  simp only [State.loadStage]
  split <;> rfl

theorem State.recGo_unitReports (s : State) (f : List Byte) : (s.recGo f).unitReports = s.unitReports := by
  rw [State.recGo_eq]
  split
  · exact State.loadStage_unitReports ..
  · rfl

theorem completes_go {s : State} (f : List Byte) (hq : s.quiet = true) (hat : s.boot.at_ = .recovery) :
    Completes (.go f) s [.boot, .sram, .dram, .free, .out] fun t => ∃ ev, t.boot = (s.boot.recGo f s.us ev).1 ∧
      t.out = [.uart (s.boot.recGo f s.us ev).2] := by
  have hgo := s.recGo_within f
  have hanswer : s.Within [.boot, .host, .free] (s.goAnswer f) := ((s.events_within 2).mono).trans ((State.recover_within ..).mono)
  have hhost : (s.recGo f).host = s.host.emit (.uart (s.boot.recGo f s.us (s.events 2).1).2) := hgo.same .host
  have hboot : (s.recGo f).boot = (s.boot.recGo f s.us (s.events 2).1).1 := hgo.same .boot
  have hnet : (s.recGo f).net = s.net := hgo.same .net
  have hwithin : s.Within [.host, .boot, .sram, .dram, .free] (s.recGo f) := (hanswer.mono).trans (hgo.mono)
  exact ⟨_, done_on rfl (by simp [hat]), ⟨_, hboot, State.settle_out_emit _ hq (congrArg HostSys.outs hhost) (congrArg NetSys.sent hnet)⟩,
    (hwithin.settle_outs hhost fun _ => s.recGo_unitReports f).mono (by decide)⟩

/-- Settles O16. -/
theorem recoveryLoader : Obligations.RecoveryLoader := by
  refine ⟨fun s ha hl hat => ?_, fun s baud hat hlo hhi => ?_, fun s f hq hat => ?_, fun s f hq hat => ?_, fun s f hq hat => ?_⟩
  · obtain ⟨hflash, hfull, hloader⟩ := s.recoveryPin_boot
    refine ⟨_, done_on rfl (by simpa [ha, hl] using hat), ⟨hflash, hloader⟩, (s.within_boot _).settle_starting ?_ hfull (fun _ => rfl) rfl⟩
    obtain h | h := hat <;> simp [h]
  · exact ⟨_, done_on (by simp [Instr.wf]) (by simp [hat, hlo, hhi]), rfl, onlyChanges_withBoot s _ rfl⟩
  · exact ⟨_, done_on rfl (by simp [hat]), State.recover_out _ hq, (onlyChanges_settle s).emit _⟩
  · obtain ⟨t, hexec, ⟨hflash, hboot, hout⟩, hframe⟩ := completes_data f hq hat
    refine ⟨t, hexec, ⟨hflash, fun p hp h4 => ⟨fun hnext => ?_, fun hnext => ?_⟩, fun hnone => ?_⟩, hframe⟩
    · rw [hboot, hout, Boot.recData_continues hp h4 hnext]
      exact ⟨rfl, rfl⟩
    · rw [hboot, hout, Boot.recData_misplaced hp h4 hnext]
      exact ⟨rfl, rfl⟩
    · rw [hboot, hout, Boot.recData_malformed hnone]
      exact ⟨rfl, rfl⟩
  · obtain ⟨t, hexec, ⟨ev, hboot, hout⟩, hframe⟩ := completes_go f hq hat
    refine ⟨t, hexec, ⟨?_, by rw [hout]; rfl, fun hgo hnone => ?_, fun hnone => ?_⟩, hframe⟩
    · rw [hboot, (Boot.recGo_keeps ..).1]
    · rw [hboot, hout, Boot.recGo_empty _ _ hgo hnone]
      exact ⟨hat, rfl, rfl⟩
    · rw [hboot, hout, Boot.recGo_malformed _ _ hnone]
      exact ⟨rfl, rfl⟩

/-! ### RESET_N (R514) -/

/-- A device in which the committed graph delivers on a lifeline route, its output port on the clock of domain 0 (R436, R437). -/
def planeRouteDevice : State :=
  { State.reset with clasp := { Clasp.reset with
      ports := [⟨0, 0, 0, 0, true, some 0, false, 0, [], [], 0, none⟩], routes := [⟨(0, 0), (0, 0), 0, [], 0, .plane⟩] } }

theorem State.restart_clasp (s : State) (dormant : Bool) : (s.restart dormant).clasp = s.clasp.takeBack (fun _ => true) s.clk.crefLost :=
  State.pinConfig_clasp _

/-- Refutes O12: RESET_N takes every output back to the lifeline (R438), so a route on which the graph delivered is not what it was. -/
theorem not_resetPinRestartsAllButAonAndClasp : ¬ Obligations.ResetPinRestartsAllButAonAndClasp := by
  unfold Obligations.ResetPinRestartsAllButAonAndClasp
  intro h
  obtain ⟨t, hexec, -, -, -, -, -, -, -, -, -, -, -, -, -, -, -, -, -, hroutes, -⟩ := h planeRouteDevice rfl
  have hreset : exec .resetN planeRouteDevice = .next (planeRouteDevice.restart false).settle := done_on rfl rfl
  obtain rfl := Host.Outcome.next.inj (hexec.symm.trans hreset)
  rw [State.settle_clasp, State.restart_clasp] at hroutes
  exact absurd hroutes (by decide)

end Sys2Proof.Machine

/-!
SUPPORT. The fades of R368: the phase after any number of periods, and the rounding of a gain.
-/

namespace Sys2Proof.Machine

/-- Some periods of a fade, whatever their live values. -/
def Fade.run (f : Fade) (fs : List (List Word)) : Fade := fs.foldl (fun g ys => (g.deliver ys).2) f

theorem Fade.deliver_getElem? (f : Fade) {xs : List Word} {i : Nat} (hi : i < xs.length) :
    (f.deliver xs).1[i]? = some (f.phase.gain (f.base.getD i 0) (xs.getD i 0)) := by
  simp [Fade.deliver, hi]

theorem Fade.run_fadeOut (fs : List (List Word)) (f : Fade) (j : Nat) (hphase : f.phase = .fadeOut (min 64 j)) :
    (f.run fs).phase = .fadeOut (min 64 (j + fs.length)) ∧ (f.run fs).base = f.base := by
  induction fs generalizing f j with
  | nil => exact ⟨hphase, rfl⟩
  | cons ys r ih =>
    have hnext : (f.deliver ys).2.phase = .fadeOut (min 64 (j + 1)) := by
      simp only [Fade.deliver, hphase, FadePhase.next]
      congr 1
      omega
    obtain ⟨hp, hb⟩ := ih (f.deliver ys).2 (j + 1) hnext
    exact ⟨by rw [List.length_cons, Nat.add_comm r.length, ← Nat.add_assoc]; exact hp, hb⟩

theorem Fade.run_rampBack (fs : List (List Word)) (f : Fade) (j : Nat) (hphase : f.phase = .rampBack (min 512 j)) :
    (f.run fs).phase = .rampBack (min 512 (j + fs.length)) := by
  induction fs generalizing f j with
  | nil => exact hphase
  | cons ys r ih =>
    have hnext : (f.deliver ys).2.phase = .rampBack (min 512 (j + 1)) := by
      simp only [Fade.deliver, hphase, FadePhase.next]
      congr 1
      omega
    rw [List.length_cons, Nat.add_comm r.length, ← Nat.add_assoc]
    exact ih (f.deliver ys).2 (j + 1) hnext

theorem wordI_eq_ofInt (i : Int) : wordI i = BitVec.ofInt 32 i := by
  apply BitVec.eq_of_toNat_eq
  simp [wordI, wrapN]
  omega

theorem toInt_wordI {i : Int} (hlo : -2 ^ 31 ≤ i) (hhi : i < 2 ^ 31) : (wordI i).toInt = i := by
  rw [wordI_eq_ofInt]
  exact BitVec.toInt_ofInt_eq_self (by decide) hlo hhi

/-- R518: the nearest code of 2^28 to a product, ties to even. -/
theorem roundAcc_even (v : Int) : (2 ^ 28 * roundAcc v true - v).natAbs ≤ 2 ^ 27 ∧
    ((2 ^ 28 * roundAcc v true - v).natAbs = 2 ^ 27 → roundAcc v true % 2 = 0) := by
  simp only [roundAcc, if_true, Bool.or_eq_true, Bool.and_eq_true, decide_eq_true_eq, beq_iff_eq]
  split <;> omega

theorem roundAcc_bounds {v : Int} (hlo : -2 ^ 31 * 2 ^ 28 ≤ v) (hhi : v ≤ (2 ^ 31 - 1) * 2 ^ 28) :
    -2 ^ 31 ≤ roundAcc v true ∧ roundAcc v true < 2 ^ 31 := by
  obtain ⟨hnear, -⟩ := roundAcc_even v
  omega

theorem toInt_gainMul (x : Word) {c : Nat} (hc : c ≤ 2 ^ 28) : (gainMul x c).toInt = roundAcc (x.toInt * c) true := by
  have hlo : -2 ^ 31 ≤ x.toInt := BitVec.le_toInt x
  have hhi : x.toInt ≤ 2 ^ 31 - 1 := Int.le_sub_one_of_lt BitVec.toInt_lt
  have hcode : (c : Int) ≤ 2 ^ 28 := by exact_mod_cast hc
  have hcode0 : (0 : Int) ≤ c := Int.natCast_nonneg c
  obtain ⟨h1, h2⟩ := roundAcc_bounds (v := x.toInt * c) (by nlinarith) (by nlinarith)
  exact toInt_wordI h1 h2

/-- Settles O45. -/
theorem fadeAndRampLaws : Obligations.FadeAndRampLaws := by
  refine ⟨fun f fs xs i hi => ⟨?_, ?_⟩, fun x c hc => ?_⟩
  · obtain ⟨hphase, hbase⟩ := Fade.run_fadeOut fs f.start 0 rfl
    refine (Fade.deliver_getElem? (f.start.run fs) hi).trans ?_
    rw [hphase, hbase, Nat.zero_add]
    simp only [FadePhase.gain, Fade.start]
    congr 1
    split
    · rw [if_pos (by omega), Nat.min_eq_right (by omega)]
    · rw [if_neg (by omega)]
  · have hphase := Fade.run_rampBack fs { f with phase := .rampBack 0 } 0 rfl
    refine (Fade.deliver_getElem? (Fade.run { f with phase := .rampBack 0 } fs) hi).trans ?_
    rw [hphase, Nat.zero_add]
    simp only [FadePhase.gain]
    congr 1
    split
    · rw [if_pos (by omega), Nat.min_eq_right (by omega)]
    · rw [if_neg (by omega)]
  · rw [toInt_gainMul x hc]
    exact roundAcc_even _

end Sys2Proof.Machine

/-!
SUPPORT. The lifeline: its frames, the delay and gain of a route, the handover, the PLL and the move of a port's clock (R429 to R435).
-/

namespace Sys2Proof.Machine

/-! ### Outputs one after another -/

/-- Outputs sent one after another go to the end of what waits, and change nothing else. -/
theorem State.emits_eq {α : Type} (g : α → Out) (l : List α) (s : State) :
    l.foldl (fun t x => t.emit (g x)) s = s.withHost fun h => { h with outs := h.outs ++ l.map g } := by
  induction l generalizing s with
  | nil => simp [State.withHost]
  | cons x r ih =>
    rw [List.foldl_cons, ih]
    simp [State.emit, HostSys.emit, State.withHost]

/-! ### A frame (R431 to R433) -/

/-- The lifeline is live. -/
def Clasp.started (c : Clasp) : Clasp := { c with stage := .live }

theorem Clasp.started_lifeFrame (c : Clasp) (q : ClaspPort) : c.started.lifeFrame q = c.lifeFrame q := rfl

/-- The ports that a lifeline frame sends on. -/
def Clasp.senders (c : Clasp) : List ClaspPort := c.ports.filter fun q => q.ok && !q.released && q.dom.isNone && hasOutput q.port

theorem Clasp.frame_outs {c : Clasp} (h : c.stage = .live) (ins : List (Nat × List (List Nat))) :
    (c.frame ins).2 = c.senders.map fun q => (q.port, c.lifeFrame q) := by
  simp [Clasp.frame, Clasp.senders, h]

theorem ClaspPort.take_keeps (q : ClaspPort) (fs : List (List Nat)) : (q.take fs).port = q.port ∧ (q.take fs).dom = q.dom := by
  simp only [ClaspPort.take]
  split
  · exact ⟨rfl, rfl⟩
  · split
    · exact ⟨rfl, rfl⟩
    · split <;> exact ⟨rfl, rfl⟩

theorem Clasp.frame_keeps {c : Clasp} (h : c.stage = .live) (ins : List (Nat × List (List Nat))) :
    (c.frame ins).1.stage = .live ∧ (c.frame ins).1.pll = c.pll ∧ (c.frame ins).1.ports.map (·.port) = c.ports.map (·.port) ∧
      (c.frame ins).1.ports.map (·.dom) = c.ports.map (·.dom) ∧ (c.frame ins).1.routes.map (·.dst) = c.routes.map (·.dst) := by
  have hport : ∀ (q : ClaspPort) fs, (if q.ok = true then q.take fs else q).port = q.port := fun q fs => by
    split
    · exact (q.take_keeps fs).1
    · rfl
  have hdom : ∀ (q : ClaspPort) fs, (if q.ok = true then q.take fs else q).dom = q.dom := fun q fs => by
    split
    · exact (q.take_keeps fs).2
    · rfl
  simp [Clasp.frame, h, hport, hdom, Function.comp_def, Route.step]

/-- With the first frame the lifeline is live and BOOTSTAT reads 0x1 (R422). -/
def Boot.lifelineLive (b : Boot) : Boot := if b.code = 0 then { b with code := 1 } else b

theorem State.lifeline_of_live {s : State} (h : s.clasp.stage = .live) (ins : List (Nat × List (List Nat))) :
    s.lifeline ins = (s.withClasp fun c => (c.frame ins).1).withHost fun k =>
      { k with outs := k.outs ++ s.clasp.senders.map fun q => Out.txFrame q.port (s.clasp.lifeFrame q) [] } := by
  simp only [State.lifeline, h, reduceCtorEq, if_false]
  rw [State.emits_eq (fun f : Nat × List (Option Nat) => Out.txFrame f.1 f.2 []), Clasp.frame_outs h, List.map_map]
  rfl

theorem State.lifeline_of_selected {s : State} (h : s.clasp.stage = .selected) (ins : List (Nat × List (List Nat))) :
    s.lifeline ins = (((s.withClasp Clasp.started).withBoot Boot.lifelineLive).lifeline ins) := by
  simp only [State.lifeline, h, if_true]
  rfl

theorem Boot.lifelineLive_at (b : Boot) : b.lifelineLive.at_ = b.at_ := by
  unfold Boot.lifelineLive
  split <;> rfl

/-- A lifeline frame leaves everything but the Clasp and the outputs. -/
theorem State.lifeline_frame {s : State} (h : s.clasp.stage = .live) (ins : List (Nat × List (List Nat))) :
    s.Within [.clasp, .host] (s.lifeline ins) ∧ (s.lifeline ins).host = { s.host with
      outs := s.host.outs ++ s.clasp.senders.map fun q => Out.txFrame q.port (s.clasp.lifeFrame q) [] } ∧
      (s.lifeline ins).unitReports = s.unitReports := by
  rw [State.lifeline_of_live h]
  exact ⟨((s.within_clasp _).mono).trans ((State.within_host ..).mono), rfl, rfl⟩

theorem State.lifeline_settled {s : State} (h : s.clasp.stage = .live) (hq : s.quiet = true) (ins : List (Nat × List (List Nat))) :
    (s.lifeline ins).settle.clasp = (s.clasp.frame ins).1 ∧ (s.lifeline ins).settle.boot = s.boot ∧
      (s.lifeline ins).settle.out = s.clasp.senders.map fun q => Out.txFrame q.port (s.clasp.lifeFrame q) [] := by
  obtain ⟨houts, hsent⟩ := State.quiet_outs hq
  rw [State.lifeline_of_live h]
  refine ⟨rfl, rfl, ?_⟩
  simp [houts, hsent]

theorem completes_lifelineFrame {s : State} {ins : List (Nat × List (List Nat))} (hp : s.powered = true)
    (hstage : s.clasp.stage = .selected ∨ s.clasp.stage = .live) (hins : ∀ x ∈ ins, x.1 < 36) (hq : s.quiet = true) :
    Completes (.lifelineFrame ins) s [.clasp, .boot, .out] fun t => t.clasp.stage = .live ∧
      t.boot = (if s.clasp.stage = .selected ∧ s.boot.code = 0 then { s.boot with code := 1 } else s.boot) ∧
      t.out = s.clasp.senders.map (fun q => Out.txFrame q.port (s.clasp.lifeFrame q) []) ∧
      t.clasp.pll = s.clasp.pll ∧ t.clasp.ports.map (·.port) = s.clasp.ports.map (·.port) ∧
      t.clasp.ports.map (·.dom) = s.clasp.ports.map (·.dom) ∧ t.clasp.routes.map (·.dst) = s.clasp.routes.map (·.dst) := by
  have hexec : exec (.lifelineFrame ins) s = .next (s.lifeline ins).settle :=
    done_on (by simpa [Instr.wf] using hins) (by simpa [hp] using hstage)
  obtain hsel | hlive := hstage
  · obtain ⟨hclasp, hboot, hout⟩ := State.lifeline_settled (s := (s.withClasp Clasp.started).withBoot Boot.lifelineLive) rfl hq ins
    obtain ⟨hst, hpll, hports, hdoms, hroutes⟩ := Clasp.frame_keeps (c := s.clasp.started) rfl ins
    have hstart : s.Within [.clasp, .boot] ((s.withClasp Clasp.started).withBoot Boot.lifelineLive) :=
      ((s.within_clasp _).mono).trans ((State.within_boot ..).mono)
    obtain ⟨hwithin, hhost, hreports⟩ := State.lifeline_frame (s := (s.withClasp Clasp.started).withBoot Boot.lifelineLive) rfl ins
    have hframe : OnlyChanges [.out, .clasp, .boot] s (((s.withClasp Clasp.started).withBoot Boot.lifelineLive).lifeline ins).settle :=
      ((hstart.mono).trans (hwithin.mono)).settle_outs hhost fun _ => hreports
    rw [State.lifeline_of_selected hsel] at hexec
    refine ⟨_, hexec, ⟨by rw [hclasp]; exact hst, ?_, hout, by rw [hclasp]; exact hpll, by rw [hclasp]; exact hports,
      by rw [hclasp]; exact hdoms, by rw [hclasp]; exact hroutes⟩, hframe.mono (by decide)⟩
    rw [hboot]
    by_cases hcode : s.boot.code = 0 <;> simp [Boot.lifelineLive, hsel, hcode]
  · obtain ⟨hclasp, hboot, hout⟩ := State.lifeline_settled hlive hq ins
    obtain ⟨hst, hpll, hports, hdoms, hroutes⟩ := Clasp.frame_keeps hlive ins
    obtain ⟨hwithin, hhost, hreports⟩ := State.lifeline_frame hlive ins
    exact ⟨_, hexec, ⟨by rw [hclasp]; exact hst, by rw [hboot, if_neg (by simp [hlive])], hout, by rw [hclasp]; exact hpll,
      by rw [hclasp]; exact hports, by rw [hclasp]; exact hdoms, by rw [hclasp]; exact hroutes⟩,
      ((hwithin.mono (qs := [.host, .clasp])).settle_outs hhost fun _ => hreports).mono (by decide)⟩

/-! ### Routes and the handover (R432, R435) -/

theorem lifeFade_of_ge {j : Nat} (x : Word) (h : 32 ≤ j) : lifeFade x j = x := if_neg (by omega)

theorem Route.hist_step3 (r : Route) (w u v : Option Word) : (((r.step w).step u).step v).hist.getD 2 none = w := by
  simp [Route.step]

theorem Route.age_step (r : Route) (w : Option Word) : r.age ≤ (r.step w).age := by
  simp only [Route.step]
  split <;> omega

theorem Route.gain_step (r : Route) (w : Option Word) : (r.step w).gain = r.gain := rfl

/-- A route at unity whose fade-in is over delivers the word of three frames before. -/
theorem Route.out_step3 {r : Route} (x : Word) (u v : Option Word) (hgain : r.gain = 0) (hage : 32 ≤ r.age) :
    (((r.step (some x)).step u).step v).out = x := by
  have hhist := r.hist_step3 (some x) u v
  have hage3 : ((r.step (some x)).step u).age + 1 = (((r.step (some x)).step u).step v).age := by
    simp [Route.step]
  have hage1 := r.age_step (some x)
  have hage2 := (r.step (some x)).age_step u
  have hunity : (((r.step (some x)).step u).step v).gain = 0 := hgain
  rw [Route.out, hhist]
  simp only [lifeMul, hunity, if_true]
  exact lifeFade_of_ge x (by omega)

theorem Route.out_step3_none (r : Route) (u v : Option Word) : (((r.step none).step u).step v).out = 0 := by
  rw [Route.out, r.hist_step3]

theorem toInt_handover (a b : Word) (j : Nat) :
    (handover a b j).toInt = if j < 480 then a.toInt + (b.toInt - a.toInt) * (j + 1) / 480 else b.toInt := by
  unfold handover
  split
  · have ha : -2 ^ 31 ≤ a.toInt := BitVec.le_toInt a
    have ha' : a.toInt < 2 ^ 31 := BitVec.toInt_lt
    have hb : -2 ^ 31 ≤ b.toInt := BitVec.le_toInt b
    have hb' : b.toInt < 2 ^ 31 := BitVec.toInt_lt
    have hj : ((j + 1 : Nat) : Int) ≤ 480 := by exact_mod_cast ‹j < 480›
    have hj0 : (0 : Int) ≤ ((j + 1 : Nat) : Int) := Int.natCast_nonneg _
    -- the blend lies between the two words
    have hblend : -2 ^ 31 ≤ a.toInt + (b.toInt - a.toInt) * ((j + 1 : Nat) : Int) / 480 ∧
        a.toInt + (b.toInt - a.toInt) * ((j + 1 : Nat) : Int) / 480 < 2 ^ 31 := by
      obtain h | h := le_total a.toInt b.toInt
      · have h1 : 0 ≤ (b.toInt - a.toInt) * ((j + 1 : Nat) : Int) := mul_nonneg (by omega) hj0
        have h2 : (b.toInt - a.toInt) * ((j + 1 : Nat) : Int) ≤ (b.toInt - a.toInt) * 480 := mul_le_mul_of_nonneg_left hj (by omega)
        omega
      · have h1 : (b.toInt - a.toInt) * ((j + 1 : Nat) : Int) ≤ 0 := mul_nonpos_of_nonpos_of_nonneg (by omega) hj0
        have h2 : (b.toInt - a.toInt) * 480 ≤ (b.toInt - a.toInt) * ((j + 1 : Nat) : Int) := mul_le_mul_of_nonpos_left hj (by omega)
        omega
    rw [toInt_wordI hblend.1 hblend.2]
    push_cast
    rfl
  · rfl

/-! ### The lifeline PLL and the move of a clock (R430, R435) -/

theorem completes_withClasp {i : Instr} {s : State} {f : Clasp → Clasp} (hexec : exec i s = .next (s.withClasp f).settle) :
    Completes i s [.clasp] fun t => t.clasp = f s.clasp :=
  ⟨_, hexec, rfl, (s.within_clasp f).settle (fun _ => rfl) fun _ => ⟨rfl, rfl, rfl⟩⟩

theorem exec_lifelinePllLock {s : State} {refin : Bool}
    (h : (s.powered && s.clasp.stage != .off && (if refin then s.clasp.flags.testBit 1 && s.clk.present.1 && (s.clasp.pll == .cref || s.clasp.pll == .hold)
      else s.clasp.pll == .rescue && !s.clk.crefLost)) = true) :
    exec (.lifelinePllLock refin) s = .next (s.withClasp fun c => { c with pll := if refin then .refin else .cref }).settle :=
  done_on rfl h

theorem exec_lifelinePllLock_off {s : State} {refin : Bool}
    (h : (s.powered && s.clasp.stage != .off && (if refin then s.clasp.flags.testBit 1 && s.clk.present.1 && (s.clasp.pll == .cref || s.clasp.pll == .hold)
      else s.clasp.pll == .rescue && !s.clk.crefLost)) = false) : exec (.lifelinePllLock refin) s = .next s.settle :=
  done_off h

theorem Clasp.modPort_mem {c : Clasp} {p : Nat} {f : ClaspPort → ClaspPort} {q : ClaspPort} :
    q ∈ (c.modPort p f).ports ↔ (q.port ≠ p ∧ q ∈ c.ports) ∨ ∃ x ∈ c.ports, x.port = p ∧ f x = q := by
  simp only [Clasp.modPort, List.mem_map]
  constructor
  · rintro ⟨x, hx, rfl⟩
    split
    · exact .inr ⟨x, hx, ‹_›, rfl⟩
    · exact .inl ⟨‹_›, hx⟩
  · rintro (⟨hq, hmem⟩ | ⟨x, hx, hp, rfl⟩)
    · exact ⟨q, hmem, if_neg hq⟩
    · exact ⟨x, hx, if_pos hp⟩

/-- R435: after the move every declaration of the port runs on the domain. -/
theorem Clasp.move_dom {c : Clasp} {p k : Nat} {q : ClaspPort} (hq : q ∈ (c.move p k).ports) (hp : q.port = p) : q.dom = some k := by
  obtain ⟨hne, -⟩ | ⟨x, -, -, rfl⟩ := Clasp.modPort_mem.1 hq
  · exact absurd hp hne
  · rfl

theorem Clasp.move_other {c : Clasp} {p k : Nat} {q : ClaspPort} (hp : q.port ≠ p) : q ∈ (c.move p k).ports ↔ q ∈ c.ports := by
  refine Iff.trans Clasp.modPort_mem ⟨?_, fun h => .inl ⟨hp, h⟩⟩
  rintro (⟨-, h⟩ | ⟨x, -, hx, rfl⟩)
  · exact h
  · exact absurd hx hp

theorem State.onLifeline_move {s : State} {p k : Nat} : (s.withClasp fun c => c.move p k).settle.onLifeline p = false := by
  rw [State.onLifeline, Option.any_eq_false]
  intro q hq
  have hmem := List.mem_of_find?_eq_some hq
  have hfound := List.find?_some hq
  simp only [Bool.and_eq_true, beq_iff_eq] at hfound
  obtain ⟨hport, -⟩ := hfound
  simp [Clasp.move_dom hmem hport]

theorem State.coverDom_spec {s : State} {p k : Nat} (h : s.coverDom p = some k) : k < 3 ∧ (s.dom k).run = true ∧ s.hz k = 48000 := by
  obtain ⟨n, -, hn⟩ := List.exists_of_findSome?_eq_some h
  split at hn
  · exact Option.some.inj hn ▸ ‹_›
  · cases hn

theorem completes_lifelineClockMove {s : State} {p k : Nat} (hp : p < 36) (ha : s.awake = true) (hl : s.clasp.stage = .live)
    (hon : s.onLifeline p = true) (hk : s.coverDom p = some k) :
    Completes (.lifelineClockMove p) s [.clasp] fun t => t.clasp.pll = .domain k ∧ t.onLifeline p = false ∧ t.clasp.routes = s.clasp.routes ∧
      (∀ q ∈ t.clasp.ports, q.port = p → q.dom = some k) ∧ ∀ q, q.port ≠ p → (q ∈ t.clasp.ports ↔ q ∈ s.clasp.ports) := by
  have hmove : s.clockMove p = s.withClasp fun c => c.move p k := by rw [State.clockMove, hk]
  have hexec : exec (.lifelineClockMove p) s = .next (s.withClasp fun c => c.move p k).settle :=
    hmove ▸ done_on (by simp [Instr.wf, hp]) (by simp [ha, hl, hon])
  exact ⟨_, hexec, ⟨rfl, State.onLifeline_move, rfl, fun _ hq => Clasp.move_dom hq, fun _ hq => Clasp.move_other hq⟩,
    (s.within_clasp _).settle (fun _ => rfl) fun _ => ⟨rfl, rfl, rfl⟩⟩

/-- Settles O56. -/
theorem lifelineCommands : Obligations.LifelineCommands := by
  refine ⟨fun s ins hp hstage hins hq => completes_lifelineFrame hp hstage hins hq, fun r x u v => Route.out_step3 x u v,
    Route.out_step3_none, toInt_handover, fun s hp hstage => ⟨fun hflag hpres hpll => ?_, fun hnone => ?_, fun hpll hcref => ?_,
    fun hcref => ?_, ?_⟩, fun s p hp ha hl hon => ⟨fun hk => ?_, fun k hk => ?_⟩⟩
  · exact completes_withClasp (exec_lifelinePllLock (by obtain h | h := hpll <;> simp [hp, hstage, hflag, hpres, h]))
  · exact completes_of_settle (exec_lifelinePllLock_off (by obtain h | h := hnone <;> simp [h]))
  · exact completes_withClasp (exec_lifelinePllLock (by simp [hp, hstage, hpll, hcref]))
  · exact completes_of_settle (exec_lifelinePllLock_off (by simp [hcref]))
  · have hexec : exec .lifelineCrefLoss s = .next (s.withClasp fun c => { c with pll := .rescue }).settle :=
      done_on rfl (by simp [hp, hstage])
    exact completes_withClasp hexec
  · have hstay : s.clockMove p = s := by rw [State.clockMove, hk]
    have hexec : exec (.lifelineClockMove p) s = .next (s.clockMove p).settle := done_on (by simp [Instr.wf, hp]) (by simp [ha, hl, hon])
    exact completes_of_settle (hexec.trans (by rw [hstay]))
  · obtain ⟨hk3, hrun, hhz⟩ := State.coverDom_spec hk
    exact ⟨hk3, hrun, hhz, completes_lifelineClockMove hp ha hl hon hk⟩

end Sys2Proof.Machine

/-!
SUPPORT. The end of a quiesce handshake with frames on their way (R465, R466).
-/

namespace Sys2Proof.Machine

/-- A device whose network ports have stopped in a quiesce handshake, with a frame that has not left. -/
def stoppedNetworkDevice : State :=
  { State.reset with
      power := { Power.reset with phase := .quiescing, stopped := 2 }
      boot := { Boot.reset with at_ := .full }
      net := { NetSys.reset with sent := [(0, [])] } }

/-- Refutes O57: a refusal of the handshake restarts the network ports, so a frame that waits in them goes out, which a command without
effect would not have sent. -/
theorem not_powerStateCommands : ¬ Obligations.PowerStateCommands := by
  unfold Obligations.PowerStateCommands
  rintro ⟨-, -, hquiesce, -⟩
  obtain ⟨-, -, -, -, t, hexec, -, -, hframe⟩ := hquiesce stoppedNetworkDevice rfl rfl (by decide)
  have hrefuse : exec .quiesceTimeout stoppedNetworkDevice = .next (stoppedNetworkDevice.quiesceRefuse 1).settle := done_on rfl rfl
  obtain rfl := Host.Outcome.next.inj (hexec.symm.trans hrefuse)
  have hout : (stoppedNetworkDevice.quiesceRefuse 1).settle.out = stoppedNetworkDevice.settle.out := hframe .out (by decide)
  exact absurd hout (by decide)

end Sys2Proof.Machine

/-!
SUPPORT. Rate domains (R305 to R318): what an operation makes of a domain's record, and what it leaves of the others.
-/

namespace Sys2Proof.Machine

/-! ### One domain becomes another record -/

/-- The store of domains is canonical. -/
abbrev ClkSys.wf (c : ClkSys) : Prop := Memory.wf (fun _ => Dom.reset) c.doms = true

/-- Domain `k` of `c` becomes `d`; no other domain changes, nor what the media PLL follows. -/
structure ClkSys.Becomes (c : ClkSys) (k : Nat) (d : Dom) (c' : ClkSys) : Prop where
  wf : c'.wf
  dom : c'.dom k = d
  other : ∀ j, j ≠ k → c'.dom j = c.dom j
  active : c'.active = c.active

namespace ClkSys

theorem becomes_refl {c : ClkSys} (h : c.wf) (k : Nat) : c.Becomes k (c.dom k) c := ⟨h, rfl, fun _ _ => rfl, rfl⟩

theorem becomes_setDom {c : ClkSys} (h : c.wf) (k : Nat) (d : Dom) : c.Becomes k d (c.setDom k d) :=
  ⟨Memory.wf_set _ _ _ _ h, by rw [ClkSys.dom_setDom h, if_pos rfl], fun j hj => by rw [ClkSys.dom_setDom h, if_neg hj], rfl⟩

namespace Becomes

variable {c c' c'' : ClkSys} {k : Nat} {d d' : Dom}

theorem trans (h : c.Becomes k d c') (h' : c'.Becomes k d' c'') : c.Becomes k d' c'' :=
  ⟨h'.wf, h'.dom, fun j hj => (h'.other j hj).trans (h.other j hj), h'.active.trans h.active⟩

theorem note (h : c.Becomes k d c') (cause cls inst : Nat) (clear : Bool) (detail : Int) :
    c.Becomes k d (c'.note cause cls inst clear detail) := ⟨h.wf, h.dom, h.other, h.active⟩

theorem setDom (h : c.Becomes k d c') (d' : Dom) : c.Becomes k d' (c'.setDom k d') := h.trans (becomes_setDom h.wf k d')

theorem modDom (h : c.Becomes k d c') (f : Dom → Dom) : c.Becomes k (f d) (c'.modDom k f) := h.dom ▸ h.setDom (f (c'.dom k))

end Becomes

/-! ### The operations on a domain -/

theorem becomes_endHold {c : ClkSys} (h : c.wf) (k : Nat) : c.Becomes k { c.dom k with actHold := false } (c.endHold k) := by
  unfold ClkSys.endHold
  split
  · exact ((becomes_refl h k).modDom fun d => { d with actHold := false }).note ..
  next hact =>
    have hsame : ({ c.dom k with actHold := false } : Dom) = c.dom k := by
      rw [Bool.not_eq_true] at hact
      rw [← hact]
    rw [hsame]
    exact becomes_refl h k

/-- A domain once TOL_CLAMP and the hold of R315 have ended. -/
def freed (d : Dom) : Dom := { d with st := if d.st = .clamped then .holdover else d.st, actHold := false }

theorem becomes_endClamp {c : ClkSys} (h : c.wf) (k : Nat) :
    c.Becomes k { c.dom k with st := if (c.dom k).st = .clamped then .holdover else (c.dom k).st } (c.endClamp k) := by
  unfold ClkSys.endClamp
  split
  · exact ((becomes_refl h k).modDom fun d => { d with st := .holdover }).note ..
  · exact becomes_refl h k

theorem becomes_freed {c : ClkSys} (h : c.wf) (k : Nat) : c.Becomes k (freed (c.dom k)) ((c.endClamp k).endHold k) := by
  have hclamp := becomes_endClamp h k
  have hhold := becomes_endHold hclamp.wf k
  rw [hclamp.dom] at hhold
  exact hclamp.trans hhold

/-- R309. -/
theorem becomes_clamp {c : ClkSys} (h : c.wf) {k : Nat} (hrun : (c.dom k).run = true) (hc : (c.dom k).st ≠ .clamped)
    (hs : (c.dom k).st ≠ .stepping) : c.Becomes k { c.dom k with actHold := false, st := .clamped } (c.clamp k) := by
  rw [ClkSys.clamp, if_neg (by simp [hrun, hc, hs])]
  exact ((becomes_endHold h k).modDom fun d => { d with st := .clamped }).note ..

/-- The report of a clamp is the last that the clocks have sent. -/
theorem clamp_report {c : ClkSys} {k : Nat} (hrun : (c.dom k).run = true) (hc : (c.dom k).st ≠ .clamped) (hs : (c.dom k).st ≠ .stepping) :
    (0x602, 14, k, false, 0) ∈ (c.clamp k).rep := by
  rw [ClkSys.clamp, if_neg (by simp [hrun, hc, hs])]
  simp [ClkSys.note]

theorem clamp_again {c : ClkSys} {k : Nat} (hs : (c.dom k).st = .clamped ∨ (c.dom k).st = .stepping) : c.clamp k = c := by
  rw [ClkSys.clamp, if_pos (by obtain h | h := hs <;> simp [h])]

/-- R315: the record that a domain takes at a reference return. -/
def returned (d : Dom) (e : Int) : Dom :=
  match d.policy with
  | 0 => if e.natAbs ≤ 1000000 then { freed d with e := e, st := .slewing } else { freed d with e := e, st := .held, actHold := true }
  | 1 => { freed d with e := e, st := .held, stepDue := true }
  | _ => { freed d with e := e, st := .held }

theorem becomes_domReturn {c : ClkSys} (h : c.wf) {k : Nat} (e : Int) (hrun : (c.dom k).run = true) (hs : (c.dom k).st ≠ .stepping) :
    c.Becomes k (returned (c.dom k) e) (c.domReturn k e) := by
  have hfreed := becomes_freed h k
  have hpolicy : (freed (c.dom k)).policy = (c.dom k).policy := rfl
  simp only [ClkSys.domReturn, hrun, hs, Bool.not_true, Bool.false_eq_true, decide_false, Bool.or_self, if_false, hfreed.dom, hpolicy,
    returned]
  rcases (c.dom k).policy with - | - | n
  · by_cases he : e.natAbs ≤ 1000000
    · simp only [if_pos he]
      exact hfreed.setDom _
    · simp only [if_neg he]
      exact (hfreed.setDom _).note ..
  · exact hfreed.setDom _
  · exact hfreed.setDom _

theorem note_rep (c : ClkSys) (cause cls inst : Nat) (clear : Bool) (detail : Int) :
    (c.note cause cls inst clear detail).rep = c.rep ++ [(cause, cls, inst, clear, detail)] := rfl

theorem endHold_rep {c : ClkSys} {k : Nat} {x : Nat × Nat × Nat × Bool × Int} (h : x ∈ c.rep) : x ∈ (c.endHold k).rep := by
  unfold ClkSys.endHold
  split
  · rw [note_rep]
    exact List.mem_append_left _ h
  · exact h

theorem domReturn_report {c : ClkSys} {k : Nat} (e : Int) (hrun : (c.dom k).run = true) (hc : (c.dom k).st = .clamped) :
    (0x602, 14, k, true, 0) ∈ (c.domReturn k e).rep := by
  have hclamp : (0x602, 14, k, true, 0) ∈ ((c.endClamp k).endHold k).rep := by
    refine endHold_rep ?_
    rw [ClkSys.endClamp, if_pos hc, note_rep]
    exact List.mem_append_right _ (List.mem_singleton.2 rfl)
  simp only [ClkSys.domReturn, hrun, hc, Bool.not_true, Bool.false_eq_true, reduceCtorEq, decide_false, Bool.or_self, if_false]
  split
  · split
    · exact hclamp
    · rw [note_rep]
      exact List.mem_append_left _ hclamp
  · exact hclamp
  · exact hclamp

/-! ### Commands at a tick (R317, R318) -/

theorem becomes_tickStep_due {c : ClkSys} (h : c.wf) {k : Nat} (hs : (c.dom k).st ≠ .stepping) (hdue : (c.dom k).stepDue = true) :
    c.Becomes k { c.dom k with st := .stepping, stepDue := false, stepPos := 0 } (c.tickStep k) := by
  simp only [ClkSys.tickStep, hs, hdue, if_false, if_true]
  exact ((becomes_refl h k).setDom _).note ..

theorem tickStep_idle {c : ClkSys} {k : Nat} (hs : (c.dom k).st ≠ .stepping) (hdue : (c.dom k).stepDue = false) : c.tickStep k = c := by
  simp [ClkSys.tickStep, hs, hdue]

/-- A domain whose policy write and command have had their tick. -/
def calmed (d : Dom) : Dom := { d with policyNew := false, cmd := none }

theorem tickPolicy_command {c : ClkSys} {k : Nat} (e : Int) {step : Bool} (hp : (c.dom k).policyNew = false) (hcmd : (c.dom k).cmd = some step) :
    c.tickPolicy k e =
      (if ((c.setDom k (calmed (c.dom k))).dom k).st == .held && c.active != 0 && !((c.setDom k (calmed (c.dom k))).dom k).stepDue then
        if step then ((c.setDom k (calmed (c.dom k))).endHold k).modDom k fun d => { d with stepDue := true }
        else ((c.setDom k (calmed (c.dom k))).endHold k).modDom k fun d => { d with st := .slewing }
      else (c.setDom k (calmed (c.dom k))).modDom k fun d => { d with cmdRej := true }) := by
  simp only [ClkSys.tickPolicy, hp, hcmd, Bool.false_and, Bool.false_eq_true, if_false]
  rfl

/-- A held domain with a reference: its command acts, and is gone. -/
theorem becomes_tickPolicy_command {c : ClkSys} (h : c.wf) {k : Nat} (e : Int) {step : Bool} (hs : (c.dom k).st = .held) (ha : c.active ≠ 0)
    (hp : (c.dom k).policyNew = false) (hd : (c.dom k).stepDue = false) (hcmd : (c.dom k).cmd = some step) :
    c.Becomes k (if step then { calmed (c.dom k) with actHold := false, stepDue := true }
      else { calmed (c.dom k) with actHold := false, st := .slewing }) (c.tickPolicy k e) := by
  have hclear := becomes_setDom h k (calmed (c.dom k))
  have hhold := becomes_endHold hclear.wf k
  rw [hclear.dom] at hhold
  have hheld : (calmed (c.dom k)).st = .held := hs
  have hdue : (calmed (c.dom k)).stepDue = false := hd
  have hacts := tickPolicy_command e hp hcmd
  rw [hclear.dom, if_pos (by simp [hheld, ha, hdue])] at hacts
  rw [hacts]
  cases step
  · exact (hclear.trans hhold).modDom fun d => { d with st := .slewing }
  · exact (hclear.trans hhold).modDom fun d => { d with stepDue := true }

theorem becomes_tickPolicy_none {c : ClkSys} (h : c.wf) {k : Nat} (e : Int) (hp : (c.dom k).policyNew = false) (hcmd : (c.dom k).cmd = none) :
    c.Becomes k (calmed (c.dom k)) (c.tickPolicy k e) := by
  simp only [ClkSys.tickPolicy, hp, hcmd, Bool.false_and, Bool.false_eq_true, if_false]
  exact becomes_setDom h k _

/-- R305, R311, R312: domain `k` has counted one tick; its policy and commands are still to act. -/
def counted (c : ClkSys) (k ns : Nat) (e : Int) : ClkSys :=
  let d := c.dom k
  let e := c.phase d d.next ns e
  { c.setDom k { d with e := e, next := d.next + 1, lastNs := ns
                        stamps := if d.next % 1024 = 0 then (d.next, ns) :: d.stamps.take 3 else d.stamps } with
    detLock := c.source = 0 || e.natAbs ≤ c.lockWin }

theorem tick_eq (c : ClkSys) (k ns : Nat) (e : Int) :
    c.tick k ns e = ((c.counted k ns e).tickPolicy k (c.phase (c.dom k) (c.dom k).next ns e)).tickStep k := rfl

theorem counted_dom {c : ClkSys} (h : c.wf) (k ns : Nat) (e : Int) : (c.counted k ns e).wf ∧ (c.counted k ns e).active = c.active ∧
    ((c.counted k ns e).dom k).st = (c.dom k).st ∧ ((c.counted k ns e).dom k).policyNew = (c.dom k).policyNew ∧
    ((c.counted k ns e).dom k).stepDue = (c.dom k).stepDue ∧ ((c.counted k ns e).dom k).cmd = (c.dom k).cmd := by
  have hset := fun d => becomes_setDom h k d
  have hdom : (c.counted k ns e).dom k = _ := (hset _).dom
  rw [hdom]
  exact ⟨(hset _).wf, rfl, rfl, rfl, rfl, rfl⟩

/-- R317, R318: a waiting command of a held domain acts at the tick. -/
theorem tick_command {c : ClkSys} (h : c.wf) {k : Nat} (ns : Nat) (e : Int) (hs : (c.dom k).st = .held) (ha : c.active ≠ 0)
    (hp : (c.dom k).policyNew = false) (hd : (c.dom k).stepDue = false) :
    ((c.dom k).cmd = some true → ((c.tick k ns e).dom k).st = .stepping ∧ ((c.tick k ns e).dom k).stepPos = 0 ∧ ((c.tick k ns e).dom k).cmd = none) ∧
    ((c.dom k).cmd = some false → ((c.tick k ns e).dom k).st = .slewing ∧ ((c.tick k ns e).dom k).cmd = none) ∧
    ((c.dom k).cmd = none → ((c.tick k ns e).dom k).st = .held) := by
  obtain ⟨hwf, hactive, hst, hnew, hdue, hcmd⟩ := counted_dom h k ns e
  rw [← hactive] at ha
  rw [← hst] at hs
  rw [← hnew] at hp
  rw [← hdue] at hd
  rw [← hcmd, tick_eq]
  refine ⟨fun hstep => ?_, fun hslew => ?_, fun hnone => ?_⟩
  · have hpolicy := becomes_tickPolicy_command hwf (c.phase (c.dom k) (c.dom k).next ns e) hs ha hp hd hstep
    have hdom := hpolicy.dom
    have hstepped := becomes_tickStep_due hpolicy.wf (by rw [hdom]; exact fun h => by cases hs.symm.trans h) (by rw [hdom]; rfl)
    rw [hdom] at hstepped
    rw [hstepped.dom]
    exact ⟨rfl, rfl, rfl⟩
  · have hpolicy := becomes_tickPolicy_command hwf (c.phase (c.dom k) (c.dom k).next ns e) hs ha hp hd hslew
    have hdom := hpolicy.dom
    rw [tickStep_idle (by rw [hdom]; exact fun h => by cases h) (by rw [hdom]; exact hd), hdom]
    exact ⟨rfl, rfl⟩
  · have hpolicy := becomes_tickPolicy_none hwf (c.phase (c.dom k) (c.dom k).next ns e) hp hnone
    have hdom := hpolicy.dom
    rw [tickStep_idle (by rw [hdom]; exact fun h => by cases hs.symm.trans h) (by rw [hdom]; exact hd), hdom]
    exact hs

end ClkSys

end Sys2Proof.Machine

/-!
SUPPORT. The commands of a rate domain (R305 to R318).
-/

namespace Sys2Proof.Machine

theorem State.unitsWf_clk {s : State} (h : s.unitsWf = true) : s.clk.wf := State.unitsWf_doms h

/-- A command that changes one domain, and may report. -/
theorem completes_domain {i : Instr} {s : State} {f : ClkSys → ClkSys} {k : Nat} {d : Dom} (hexec : exec i s = .next (s.withClk f).settle)
    (hbecomes : s.clk.Becomes k d (f s.clk)) :
    Completes i s [.clk, .reports] fun t => (∀ j, j ≠ k → t.dom j = s.dom j) ∧ t.dom k = d ∧
      ∀ x ∈ (f s.clk).rep, (⟨x.1, x.2.1, x.2.2.1, if x.2.1 = 14 then x.2.2.1 else 3, x.2.2.2.1, false, x.2.2.2.2.toNat⟩ : Report) ∈ t.health.flying := by
  refine ⟨_, hexec, ⟨hbecomes.other, hbecomes.dom, fun x hx => ?_⟩,
    ((s.within_clk f).mono).settle (fun hn => absurd (by decide) hn) fun _ => ⟨rfl, rfl, rfl⟩⟩
  have hreport := List.mem_map_of_mem (f := fun r : Nat × Nat × Nat × Bool × Int =>
    (⟨r.1, r.2.1, r.2.2.1, if r.2.1 = 14 then r.2.2.1 else 3, r.2.2.2.1, false, r.2.2.2.2.toNat⟩ : Report)) hx
  simp only [State.settle_health, List.mem_append, State.unitReports, State.withClk_clk]
  tauto

/-- A command that changes one domain in silence. -/
theorem completes_domain_silent {i : Instr} {s : State} {f : ClkSys → ClkSys} {k : Nat} {d : Dom}
    (hexec : exec i s = .next (s.withClk f).settle) (hbecomes : s.clk.Becomes k d (f s.clk)) (hrep : (f s.clk).rep = s.clk.rep) :
    Completes i s [.clk] fun t => (∀ j, j ≠ k → t.dom j = s.dom j) ∧ t.dom k = d := by
  refine ⟨_, hexec, ⟨hbecomes.other, hbecomes.dom⟩, (s.within_clk f).settle (fun _ => ?_) fun _ => ⟨rfl, rfl, rfl⟩⟩
  rw [State.unitReports, State.withClk_clk, hrep]
  rfl

/-! ### Clamp, return, slew and step (R309, R315 to R317) -/

theorem completes_tolClamp {s : State} {k : Nat} (hwf : s.unitsWf = true) (hk : k < 3) (hc : s.clocked = true) (hrun : (s.dom k).run = true) :
    Completes (.tolClamp k) s [.clk, .reports] fun t => (∀ j, j ≠ k → t.dom j = s.dom j) ∧
      ((s.dom k).st ≠ .clamped → (s.dom k).st ≠ .stepping → (t.dom k).st = .clamped ∧ ⟨0x602, 14, k, k, false, false, 0⟩ ∈ t.health.flying) ∧
      ((s.dom k).st = .clamped ∨ (s.dom k).st = .stepping → t.dom k = s.dom k) := by
  have hexec : exec (.tolClamp k) s = .next (s.withClk fun c => c.clamp k).settle := done_on (by simp [Instr.wf, hk]) (by simp [hc, hrun])
  by_cases hs : (s.dom k).st = .clamped ∨ (s.dom k).st = .stepping
  · have hsame : s.clk.Becomes k (s.dom k) (s.clk.clamp k) := by
      rw [ClkSys.clamp_again hs]
      exact ClkSys.becomes_refl (State.unitsWf_clk hwf) k
    obtain ⟨t, hexec, ⟨hother, hdom, -⟩, hframe⟩ := completes_domain hexec hsame
    exact ⟨t, hexec, ⟨hother, fun h1 h2 => absurd hs (by simp [h1, h2]), fun _ => hdom⟩, hframe⟩
  · rw [not_or] at hs
    obtain ⟨hclamped, hstepping⟩ := hs
    obtain ⟨t, hexec, ⟨hother, hdom, hreports⟩, hframe⟩ :=
      completes_domain hexec (ClkSys.becomes_clamp (State.unitsWf_clk hwf) hrun hclamped hstepping)
    exact ⟨t, hexec, ⟨hother, fun _ _ => ⟨by rw [hdom], hreports _ (ClkSys.clamp_report hrun hclamped hstepping)⟩,
      fun h => absurd h (by simp [hclamped, hstepping])⟩, hframe⟩

theorem completes_clampExit {s : State} {k : Nat} (e : Int) (hwf : s.unitsWf = true) (hk : k < 3) (hc : s.clocked = true)
    (hrun : (s.dom k).run = true) (hs : (s.dom k).st = .clamped) (ha : s.clk.active ≠ 0) :
    Completes (.clampExit k e) s [.clk, .reports] fun t => (∀ j, j ≠ k → t.dom j = s.dom j) ∧ t.dom k = ClkSys.returned (s.dom k) e ∧
      ⟨0x602, 14, k, k, true, false, 0⟩ ∈ t.health.flying := by
  have hexec : exec (.clampExit k e) s = .next (s.withClk fun c => c.domReturn k e).settle :=
    done_on (by simp [Instr.wf, hk]) (by simp [hc, hs, ha])
  have hstepping : (s.clk.dom k).st ≠ .stepping := fun h => by cases hs.symm.trans h
  obtain ⟨t, hexec, ⟨hother, hdom, hreports⟩, hframe⟩ :=
    completes_domain hexec (ClkSys.becomes_domReturn (State.unitsWf_clk hwf) e hrun hstepping)
  exact ⟨t, hexec, ⟨hother, hdom, hreports _ (ClkSys.domReturn_report e hrun hs)⟩, hframe⟩

theorem returned_e (d : Dom) (e : Int) : (ClkSys.returned d e).e = e := by
  simp only [ClkSys.returned]
  split
  · split <;> rfl
  · rfl
  · rfl

/-- R315: where a POLICY leads. -/
theorem returned_policy (d : Dom) (e : Int) :
    (d.policy = 0 → e.natAbs ≤ 1000000 → (ClkSys.returned d e).st = .slewing) ∧
    (d.policy = 1 → (ClkSys.returned d e).st = .held ∧ (ClkSys.returned d e).stepDue = true) ∧
    (d.policy = 2 ∨ (d.policy = 0 ∧ 1000000 < e.natAbs) → (ClkSys.returned d e).st = .held) := by
  refine ⟨fun h0 he => by simp [ClkSys.returned, h0, he], fun h1 => by simp [ClkSys.returned, h1], ?_⟩
  rintro (h2 | ⟨h0, he⟩)
  · simp [ClkSys.returned, h2]
  · simp [ClkSys.returned, h0, not_le.2 he]

theorem completes_slewDone {s : State} {k : Nat} (e : Int) (hwf : s.unitsWf = true) (hk : k < 3) (hc : s.clocked = true)
    (hs : (s.dom k).st = .slewing) :
    Completes (.slewDone k e) s [.clk] fun t => (∀ j, j ≠ k → t.dom j = s.dom j) ∧
      t.dom k = if e.natAbs ≤ min 1000 s.clk.lockWin then { s.dom k with st := .locked, e := e } else s.dom k := by
  have hwfc := State.unitsWf_clk hwf
  refine completes_domain_silent (f := fun c => c.slewDone k e) (done_on (by simp [Instr.wf, hk]) (by simp [hc, hs])) ?_ ?_
  · have hslew : s.clk.slewDone k e = if e.natAbs ≤ min 1000 s.clk.lockWin then s.clk.setDom k { s.clk.dom k with st := .locked, e := e } else s.clk := by
      have hst : (s.clk.dom k).st = .slewing := hs
      simp [ClkSys.slewDone, hst]
    dsimp only
    rw [hslew]
    split
    · exact ClkSys.becomes_setDom hwfc k _
    · exact ClkSys.becomes_refl hwfc k
  · simp only [ClkSys.slewDone]
    split <;> rfl

theorem completes_stepFadeEnd {s : State} {k : Nat} (hwf : s.unitsWf = true) (hk : k < 3) (hc : s.clocked = true)
    (hs : (s.dom k).st = .stepping) (hpos : 64 ≤ (s.dom k).stepPos) :
    Completes (.stepFadeEnd k) s [.clk] fun t => (∀ j, j ≠ k → t.dom j = s.dom j) ∧
      t.dom k = { s.dom k with stepPos := 0, st := if s.clk.holdover = true then .holdover else .locked } := by
  have hend : s.clk.stepEnd k = s.clk.setDom k { s.clk.dom k with stepPos := 0, st := if s.clk.holdover then .holdover else .locked } := if_pos hs
  refine completes_domain_silent (f := fun c => c.stepEnd k) (done_on (by simp [Instr.wf, hk]) (by simp [hc, hs, hpos])) ?_ ?_
  · dsimp only
    rw [hend]
    exact ClkSys.becomes_setDom (State.unitsWf_clk hwf) k _
  · rw [hend]
    rfl

/-! ### Writes of P0's host or the Setter (R315, R318) -/

theorem completes_policyWrite {s : State} {r k code : Nat} (hwf : s.unitsWf = true) (hr : r < 7) (hk : k < 3) (hcode : code < 4)
    (hc : s.commands r = true) :
    Completes (.policyWrite r k code) s [.clk] fun t => (∀ j, j ≠ k → t.dom j = s.dom j) ∧
      t.dom k = (if code = 3 then s.dom k else { s.dom k with policy := code, policyNew := true }) := by
  have hwfc := State.unitsWf_clk hwf
  refine completes_domain_silent (f := fun c => c.setPolicy k code) (done_on (by simp [Instr.wf, hr, hk, hcode]) hc) ?_ ?_
  · by_cases h3 : code = 3
    · rw [if_pos h3]
      have hstay : s.clk.setPolicy k code = s.clk := if_pos (by omega)
      rw [hstay]
      exact ClkSys.becomes_refl hwfc k
    · rw [if_neg h3]
      have hset : s.clk.setPolicy k code = s.clk.modDom k fun d => { d with policy := code, policyNew := true } := if_neg (by omega)
      dsimp only
      rw [hset]
      exact (ClkSys.becomes_refl hwfc k).modDom fun d => { d with policy := code, policyNew := true }
  · simp only [ClkSys.setPolicy]
    split <;> rfl

/-- R318: the record of a domain to which a command has come. -/
def commanded (c : ClkSys) (k : Nat) (step : Bool) : Dom :=
  if (c.dom k).st == .held && c.active != 0 then { c.dom k with cmd := some (step || (c.dom k).cmd == some true) }
  else { c.dom k with cmdRej := true }

theorem becomes_command {c : ClkSys} (h : c.wf) (k : Nat) (step : Bool) : c.Becomes k (commanded c k step) (c.command k step) := by
  simp only [ClkSys.command, commanded]
  split <;> exact ClkSys.becomes_setDom h k _

theorem command_rep (c : ClkSys) (k : Nat) (step : Bool) : (c.command k step).rep = c.rep := by
  simp only [ClkSys.command]
  split <;> rfl

theorem completes_command {i : Instr} {s : State} {k : Nat} (step : Bool) (hwf : s.unitsWf = true)
    (hexec : exec i s = .next (s.withClk fun c => c.command k step).settle) :
    Completes i s [.clk] fun t => (∀ j, j ≠ k → t.dom j = s.dom j) ∧ t.dom k = commanded s.clk k step :=
  completes_domain_silent hexec (becomes_command (State.unitsWf_clk hwf) k step) (command_rep ..)

theorem commanded_held {c : ClkSys} {k : Nat} (step : Bool) (h : (c.dom k).st = .held ∧ c.active ≠ 0) :
    commanded c k step = { c.dom k with cmd := some (step || (c.dom k).cmd == some true) } :=
  if_pos (by simp [h])

theorem commanded_rejected {c : ClkSys} {k : Nat} (step : Bool) (h : ¬ ((c.dom k).st = .held ∧ c.active ≠ 0)) :
    commanded c k step = { c.dom k with cmdRej := true } :=
  if_neg (by simpa using h)

/-! ### DOMAIN_STOP and DOMAIN_TICK_READ (R307, R310) -/

/-- A domain that has stopped. -/
def halted (d : Dom) : Dom := { d with run := false, st := .stopped, stepDue := false, stepPos := 0, cmd := none, policyNew := false }

theorem becomes_stopDom {c : ClkSys} (h : c.wf) (k : Nat) : c.Becomes k (halted (ClkSys.freed (c.dom k))) (c.stopDom k) :=
  (ClkSys.becomes_freed h k).modDom halted

/-- R437: no port that has not been released stays on a domain from which ports are taken back. -/
theorem Clasp.takeBack_dom {c : Clasp} {f : Nat → Bool} {crefLost : Bool} {q : ClaspPort} {k : Nat} (hq : q ∈ (c.takeBack f crefLost).ports)
    (hk : f k = true) (hr : q.released = false) : q.dom ≠ some k := by
  simp only [Clasp.takeBack, List.mem_map] at hq
  obtain ⟨p, -, rfl⟩ := hq
  cases hp : p.dom with
  | none => simp [hp]
  | some j =>
    by_cases hback : (f j && !p.released) = true
    · simp [hback]
    · have hrel : p.released = false := by simpa [hp, hback] using hr
      have hj : f j = false := by simpa [hrel] using hback
      have hne : j ≠ k := fun h => by simp [h, hk] at hj
      simpa [hback, hp] using hne

theorem completes_domainStop {s : State} {k : Nat} (hwf : s.unitsWf = true) (hk : k < 3) (ha : s.awake = true) (hrun : (s.dom k).run = true)
    (hd : (s.dom k).declared = false) (hold : s.oldWork k = false) :
    Completes (.domainStop k) s [.clk, .clasp, .reports] fun t => (∀ j, j ≠ k → t.dom j = s.dom j) ∧
      (t.dom k).run = false ∧ (t.dom k).st = .stopped ∧ (t.dom k).next = (s.dom k).next ∧
      (∀ c ∈ t.clasp.ports, c.released = false → c.dom ≠ some k) := by
  have hstop : s.stopDomain k = (s.withClk fun c => c.stopDom k).withClasp fun c => c.takeBack (· == k) s.clk.crefLost := if_pos hrun
  have hbecomes := becomes_stopDom (State.unitsWf_clk hwf) k
  have hexec : exec (.domainStop k) s = .next (s.stopDomain k).settle := done_on (by simp [Instr.wf, hk]) (by simp [ha, hrun, hd, hold])
  have hdom : ((s.stopDomain k).settle).dom k = halted (ClkSys.freed (s.dom k)) := by
    rw [hstop]
    exact hbecomes.dom
  refine ⟨_, hexec, ⟨fun j hj => ?_, by rw [hdom]; rfl, by rw [hdom]; rfl, by rw [hdom]; rfl, fun c hc hr => ?_⟩, ?_⟩
  · rw [hstop]
    exact hbecomes.other j hj
  · rw [hstop] at hc
    exact Clasp.takeBack_dom hc (by simp) hr
  · rw [hstop]
    exact ((s.within_clk _).mono.trans ((State.within_clasp ..).mono)).settle (fun hn => absurd (by decide) hn) fun _ => ⟨rfl, rfl, rfl⟩

theorem State.readReg_tick (s : State) {r k : Nat} (hk : k < 3) (hr : r = 6 ∨ (s.host.view r).isSome = true) :
    s.readReg r (0x20050 + 0x20 * k) = BitVec.ofNat 32 ((s.dom k).next - 1) := by
  have hview : ¬ (r ≠ 6 ∧ (s.host.view r).isNone = true) := by
    obtain rfl | h := hr
    · simp
    · cases hv : s.host.view r <;> simp_all
  obtain rfl | rfl | rfl : k = 0 ∨ k = 1 ∨ k = 2 := by omega
  all_goals
    rw [State.readReg, if_neg (by decide), if_neg hview]
    rfl

theorem State.readLatch_tick (s : State) {r k : Nat} (hk : k < 3) (hr : r = 6 ∨ (s.host.view r).isSome = true) :
    s.readLatch r (0x20050 + 0x20 * k) = s.withClk fun c => c.latchTick k := by
  have hview : ¬ (r ≠ 6 ∧ (s.host.view r).isNone = true) := by
    obtain rfl | h := hr
    · simp
    · cases hv : s.host.view r <;> simp_all
  obtain rfl | rfl | rfl : k = 0 ∨ k = 1 ∨ k = 2 := by omega
  all_goals
    rw [State.readLatch, if_neg hview]
    rfl

theorem completes_domainTickRead {s : State} {r k : Nat} (hwf : s.unitsWf = true) (hq : s.quiet = true) (hr7 : r < 7) (hk : k < 3)
    (hs : s.readable = true) (hr : r = 6 ∨ (s.host.view r).isSome = true) :
    Completes (.domainTickRead r k) s [.clk, .out] fun t => (∀ j, j ≠ k → t.dom j = s.dom j) ∧
      t.dom k = { s.dom k with latHi := BitVec.ofNat 32 (((s.dom k).next - 1) / 2 ^ 32), latTs := (s.dom k).stamp } ∧
      t.out = [.reg r (0x20050 + 0x20 * k) (BitVec.ofNat 32 ((s.dom k).next - 1))] := by
  have hread : s.regRead r (0x20050 + 0x20 * k) =
      (s.withClk fun c => c.latchTick k).emit (.reg r (0x20050 + 0x20 * k) (BitVec.ofNat 32 ((s.dom k).next - 1))) := by
    rw [State.regRead, s.readLatch_tick hk hr, s.readReg_tick hk hr]
  have hlatch : s.clk.Becomes k { s.dom k with latHi := BitVec.ofNat 32 ((s.dom k).count >>> 32), latTs := (s.dom k).stamp } (s.clk.latchTick k) :=
    (ClkSys.becomes_refl (State.unitsWf_clk hwf) k).modDom fun d => { d with latHi := BitVec.ofNat 32 (d.count >>> 32), latTs := d.stamp }
  have hcount : (s.dom k).count = (s.dom k).next - 1 := rfl
  rw [hcount, Nat.shiftRight_eq_div_pow] at hlatch
  have hframe : OnlyChanges [.clk] s (s.withClk fun c => c.latchTick k).settle :=
    (s.within_clk _).settle (fun _ => rfl) fun _ => ⟨rfl, rfl, rfl⟩
  have hexec : exec (.domainTickRead r k) s = .next (s.regRead r (0x20050 + 0x20 * k)).settle := done_on (by simp [Instr.wf, hr7, hk]) hs
  rw [hread] at hexec
  refine ⟨_, hexec, ⟨hlatch.other, hlatch.dom, State.settle_out_emit _ hq rfl rfl⟩, (hframe.emit _).mono (by decide)⟩

/-! ### DOMAIN_RESTART (R308) -/

/-- What the work of a unit's placement leaves alone: all but the units, the network of sinks and the Setter's lists. -/
def State.aside (s : State) :
    (List Instr × Nat × Nat × ClkSys) × Nat × Memory Word × Clasp × Boot × Health × Memory Gpio × Jtag × List Out × Memory Word ×
      List Out × List (Nat × List Byte) × PwrPhase × Nat :=
  (s.timebase, s.free, s.sram, s.clasp, s.boot, s.health, s.gpio, s.jtag, s.out, s.dram.words, s.host.outs, s.net.sent, s.power.phase,
    s.power.stopped)

theorem aside_foldl {α : Type} {f : State → α → State} (h : ∀ s x, (f s x).aside = s.aside) (l : List α) (s : State) :
    (l.foldl f s).aside = s.aside := foldl_keeps State.aside f h l s

theorem State.placeLive_aside (s : State) (w : Placed) : (s.placeLive w).aside = s.aside :=
  (aside_foldl (fun _ _ => by rfl) _ _).trans (aside_foldl (fun _ _ => by rfl) _ _)

theorem State.swapLines_aside (s : State) (gone new : List LineRec) (n : Nat) : (s.swapLines gone new n).aside = s.aside :=
  (aside_foldl (fun _ _ => by dsimp only; split <;> rfl) _ _).trans (aside_foldl (fun _ _ => by rfl) _ _)

theorem State.dropEntries_aside (s : State) (was now : Placed) : (s.dropEntries was now).aside = s.aside :=
  aside_foldl (fun _ _ => aside_foldl (fun _ _ => by split <;> rfl) _ _) _ _

theorem State.takeWork_aside (s : State) (p : Nat) (w : Placed) (n : Nat) : (s.takeWork p w n).aside = s.aside := by
  simp only [State.takeWork]
  rw [aside_foldl (fun _ _ => by split <;> rfl), aside_foldl (fun _ _ => by split <;> rfl)]
  exact (State.dropEntries_aside ..).trans (State.swapLines_aside ..)

theorem State.enterWork_aside (s : State) (a : Armed) (k n : Nat) : (s.enterWork a k n).aside = s.aside := by
  refine (State.takeWork_aside ..).trans ?_
  split
  · rfl
  · exact State.placeLive_aside ..

theorem State.setSink_aside (s : State) (part : Nat) (g : Graph) (n : GNode) (ch : Nat) (r : Reader) :
    (s.setSink part g n ch r).aside = s.aside := by
  simp only [State.setSink]
  split
  · split <;> rfl
  · split
    · rfl
    · split
      · rfl
      · split <;> rfl

theorem State.putSink_aside (s : State) (a : Armed) (x : SinkChg) (r : Reader) : (s.putSink a x r).aside = s.aside := by
  unfold State.putSink
  split
  · exact State.setSink_aside ..
  · rfl

theorem State.freeSink_aside (s : State) (a : Armed) (x : SinkChg) : (s.freeSink a x).aside = s.aside := by
  unfold State.freeSink
  split
  · rfl
  · split
    · split <;> rfl
    · split
      · rfl
      · exact State.setSink_aside ..

theorem State.setFacet_aside (s : State) (n : Nat) (f : Facet) : (s.setFacet n f).aside = s.aside := rfl

theorem State.modFacet_aside (s : State) (n : Nat) (g : Facet → Facet) : (s.modFacet n g).aside = s.aside := rfl

theorem State.setTile_aside (s : State) (n : Nat) (t : Tile) : (s.setTile n t).aside = s.aside := rfl

theorem State.withSetter_aside (s : State) (f : SetterSys → SetterSys) : (s.withSetter f).aside = s.aside := rfl

theorem State.loadFacet_aside (s : State) (f k t : Nat) (all : Bool) : (s.loadFacet f k t all).aside = s.aside := by
  simp only [State.loadFacet]
  split
  · split
    · rfl
    · exact (State.withSetter_aside ..).trans (State.modFacet_aside ..)
  · split
    · exact State.setFacet_aside ..
    · rfl

theorem State.loadTile_aside (s : State) (n k t : Nat) (all : Bool) : (s.loadTile n k t all).aside = s.aside := by
  simp only [State.loadTile]
  split
  · split
    · rfl
    · exact State.setTile_aside ..
  · exact State.setTile_aside ..

theorem State.loadUnits_aside (s : State) (fs ts : List Nat) (k t : Nat) (all : Bool) : (s.loadUnits fs ts k t all).aside = s.aside := by
  refine (aside_foldl (fun s n => ?_) _ _).trans (aside_foldl (fun s f => ?_) _ _)
  · exact State.loadTile_aside ..
  · exact State.loadFacet_aside ..

/-- A frame of a placement. -/
theorem State.within_of_aside {s t : State} (h : t.aside = s.aside) :
    s.Within [.plane, .links, .net, .ports, .host, .setter, .facets, .tiles, .mem, .dram, .power] t := by
  simp only [State.aside, State.timebase, Prod.mk.injEq] at h
  obtain ⟨⟨hpending, hus, hns, hclk⟩, hfree, hsram, hclasp, hboot, hhealth, hgpio, hjtag, hout, -, -, -, -, -⟩ := h
  exact ⟨hpending, fun p hp => by cases p <;> simp_all [Piece.same]⟩

theorem State.txOn_of_aside {s t : State} (h : t.aside = s.aside) : t.txOn = s.txOn := by
  simp only [State.aside, Prod.mk.injEq] at h
  obtain ⟨-, -, -, -, hboot, -, -, -, -, -, -, -, hphase, hstopped⟩ := h
  simp only [State.txOn, Power.awake, hboot, hphase, hstopped]

/-- The record with which a domain starts (R305, R308). -/
def startRecord (c : ClkSys) (k : Nat) (x : Nat × Nat) : Dom :=
  { Dom.reset with run := true, declared := true, rate := x.1, tol := x.2, policy := (c.dom k).policy
                   st := if c.source != 0 && c.holdover then .holdover else .locked }

theorem becomes_start {c : ClkSys} (h : c.wf) (k : Nat) (x : Nat × Nat) (ns : Nat) :
    c.Becomes k { startRecord c k x with lastNs := ns, t0 := ns } ((c.startDom k x.1 x.2).modDom k fun d => { d with lastNs := ns, t0 := ns }) :=
  (ClkSys.becomes_setDom h k (startRecord c k x)).modDom fun d => { d with lastNs := ns, t0 := ns }

theorem State.startAt_clk (s : State) (k : Nat) (x : Nat × Nat) (ns : Nat) :
    (s.startAt k x ns).clk = (s.clk.startDom k x.1 x.2).modDom k fun d => { d with lastNs := ns, t0 := ns } := by
  simp only [State.startAt]
  split <;> rfl

theorem State.startAt_within (s : State) (k : Nat) (x : Nat × Nat) (ns : Nat) : s.Within [.plane, .clk, .net] (s.startAt k x ns) := by
  have hplane (m : Memory PCell) : s.Within [.plane, .clk, .net] { s with plane := m } :=
    ⟨rfl, fun p hp => by cases p <;> simp_all [Piece.same]⟩
  simp only [State.startAt]
  split
  · exact (hplane _).trans (((State.within_clk ..).mono).trans ((State.within_net ..).mono))
  · exact (hplane _).trans ((State.within_clk ..).mono)

theorem NetSys.od_update_sent (n : NetSys) (o : Memory Nat) : ({ n with od := o } : NetSys).sent = n.sent := rfl

theorem State.startAt_sent (s : State) (k : Nat) (x : Nat × Nat) (ns : Nat) : (s.startAt k x ns).net.sent = s.net.sent := by
  simp only [State.startAt]
  split
  · rw [State.withNet_net]
    exact (NetSys.od_update_sent ..).trans rfl
  · rfl

/-- R308. -/
theorem State.restartDom_eq {s : State} {k ns : Nat} {x : Nat × Nat} (hx : (s.dom k).restart = some x) (ha : s.awaitsRestart k = true) :
    (s.restartDom k ns).aside = (s.startAt k x ns).aside := by
  obtain ⟨a, hfind⟩ := Option.isSome_iff_exists.1 (List.find?_isSome.2 (List.any_eq_true.1 ha))
  unfold State.restartDom
  rw [hx, hfind]
  dsimp only
  refine (State.loadUnits_aside ..).trans ((State.withSetter_aside ..).trans ((State.enterWork_aside ..).trans ?_))
  refine (aside_foldl (fun t y => ?_) _ _).trans rfl
  split
  · exact State.freeSink_aside ..
  · exact State.putSink_aside ..

theorem completes_domainRestart {s : State} {k rate tol : Nat} (hwf : s.unitsWf = true) (hk : k < 3) (ha : s.awake = true)
    (hrun : (s.dom k).run = false) (hx : (s.dom k).restart = some (rate, tol)) (hawait : s.awaitsRestart k = true) :
    Completes (.domainRestart k) s [.clk, .plane, .links, .net, .ports, .host, .setter, .facets, .tiles, .mem, .dram, .power, .reports]
      fun t => (∀ j, j ≠ k → t.dom j = s.dom j) ∧ t.dom k = { startRecord s.clk k (rate, tol) with lastNs := s.ns, t0 := s.ns } ∧ t.dram.words = s.dram.words := by
  have haside := State.restartDom_eq (ns := s.ns) hx hawait
  have hstart := s.startAt_within k (rate, tol) s.ns
  have htx := (State.txOn_of_aside haside).trans (State.txOn_congr (congrArg Boot.at_ (hstart.same .boot)) (hstart.same .power))
  have hwithin := (hstart.mono (qs := [.clk, .plane, .links, .net, .ports, .host, .setter, .facets, .tiles, .mem, .dram, .power, .reports])).trans
    ((State.within_of_aside haside).mono)
  simp only [State.aside, State.timebase, Prod.mk.injEq] at haside
  obtain ⟨⟨-, -, -, hclk⟩, -, -, -, -, -, -, -, -, hwords, houts, hsent, -, -⟩ := haside
  have hbecomes : s.clk.Becomes k { startRecord s.clk k (rate, tol) with lastNs := s.ns, t0 := s.ns } (s.restartDom k s.ns).clk := by
    rw [hclk, State.startAt_clk]
    exact becomes_start (State.unitsWf_clk hwf) ..
  have hdram : (s.startAt k (rate, tol) s.ns).dram = s.dram := hstart.same .dram
  have hhost : (s.startAt k (rate, tol) s.ns).host = s.host := hstart.same .host
  exact ⟨_, done_on (by simp [Instr.wf, hk]) (by simp [ha, hrun, hx, hawait]), ⟨hbecomes.other, hbecomes.dom, by rw [← hdram]; exact hwords⟩,
    hwithin.settle (fun hn => absurd (by decide) hn) fun _ => ⟨by rw [houts, hhost], htx, hsent.trans (State.startAt_sent ..)⟩⟩

/-- Settles O39. -/
theorem rateDomainCommands : Obligations.RateDomainCommands := by
  refine ⟨fun s k => completes_tolClamp, fun s k e hwf hk hc hrun hs ha => ?_, fun s k e hwf hk hc hs => ?_, fun s k => completes_stepFadeEnd,
    fun s r k code => completes_policyWrite, fun s r k hwf hr hk hc => ⟨?_, ?_⟩, fun c k ns e hwf => ClkSys.tick_command hwf ns e,
    fun s k => completes_domainStop, fun s k rate tol hwf hk ha hrun hx hawait => ?_, fun s r k => completes_domainTickRead⟩
  · obtain ⟨t, hexec, ⟨hother, hdom, hreport⟩, hframe⟩ := completes_clampExit e hwf hk hc hrun hs ha
    refine ⟨t, hexec, ⟨hother, by rw [hdom, returned_e], hreport, ?_⟩, hframe⟩
    rw [hdom]
    exact returned_policy (s.dom k) e
  · obtain ⟨t, hexec, ⟨hother, hdom⟩, hframe⟩ := completes_slewDone e hwf hk hc hs
    refine ⟨t, hexec, ⟨hother, fun h1 h2 => ?_, fun h => ?_⟩, hframe⟩
    · rw [hdom, if_pos (by omega)]
    · rw [hdom, if_neg (by omega)]
  · have hexec : exec (.stepNow r k) s = .next (s.withClk fun c => c.command k true).settle := done_on (by simp [Instr.wf, hr, hk]) hc
    obtain ⟨t, hexec, ⟨hother, hdom⟩, hframe⟩ := completes_command true hwf hexec
    exact ⟨t, hexec, ⟨hother, fun h => hdom.trans (commanded_held true h), fun h => hdom.trans (commanded_rejected true h)⟩, hframe⟩
  · have hexec : exec (.slewAny r k) s = .next (s.withClk fun c => c.command k false).settle := done_on (by simp [Instr.wf, hr, hk]) hc
    obtain ⟨t, hexec, ⟨hother, hdom⟩, hframe⟩ := completes_command false hwf hexec
    refine ⟨t, hexec, ⟨hother, fun h hnone => hdom.trans ((commanded_held false h).trans ?_), fun h => hdom.trans (commanded_rejected false h)⟩, hframe⟩
    have hcmd : (s.clk.dom k).cmd = none := hnone
    simp only [hcmd]
    rfl
  · obtain ⟨t, hexec, ⟨hother, hdom, hwords⟩, hframe⟩ := completes_domainRestart hwf hk ha hrun hx hawait
    refine ⟨t, hexec, ⟨hother, ?_, ?_, ?_, ?_, ?_, ?_, hwords⟩, hframe⟩ <;> rw [hdom] <;> rfl

end Sys2Proof.Machine

/-!
SUPPORT. Fields of words, and the clock outputs (R320 to R323).
-/

namespace Sys2Proof.Machine

/-! ### Fields -/

theorem Word.fld_eq (w : Word) (lo n : Nat) : w.fld lo n = w.toNat / 2 ^ lo % 2 ^ n := by
  rw [Word.fld, Sys2Proof.fld, Nat.shiftRight_eq_div_pow]

theorem Word.flag_eq (w : Word) (i : Nat) : w.flag i = decide (w.toNat / 2 ^ i % 2 = 1) := by
  rw [Word.flag, ← BitVec.testBit_toNat, Nat.testBit_eq_decide_div_mod_eq]

theorem Word.toNat_setFld (w : Word) (lo n v : Nat) :
    (w.setFld lo n v).toNat = (w.toNat - w.toNat / 2 ^ lo % 2 ^ n * 2 ^ lo + v % 2 ^ n * 2 ^ lo) % 2 ^ 32 := by
  rw [Word.setFld, BitVec.toNat_ofNat, Nat.shiftLeft_eq, Nat.shiftLeft_eq, Sys2Proof.fld, Nat.shiftRight_eq_div_pow]

/-- The bits of CLK_OUTn_CFG that a write takes as they are: EN and INV. -/
theorem and_enMask (w : Word) : (w &&& 0x80000010).toNat = w.toNat / 2 ^ 31 % 2 * 2 ^ 31 + w.toNat / 2 ^ 4 % 2 * 2 ^ 4 := by
  have hmask : (0x80000010 : Nat) = 2 ^ 31 ||| 2 ^ 4 := rfl
  rw [BitVec.toNat_and]
  change w.toNat &&& 0x80000010 = _
  rw [hmask, Nat.and_or_distrib_left, Nat.and_two_pow, Nat.and_two_pow, Nat.testBit_eq_decide_div_mod_eq, Nat.testBit_eq_decide_div_mod_eq]
  have h31 := Nat.mod_two_eq_zero_or_one (w.toNat / 2 ^ 31)
  have h4 := Nat.mod_two_eq_zero_or_one (w.toNat / 2 ^ 4)
  obtain h31 | h31 := h31 <;> obtain h4 | h4 := h4 <;> rw [h31, h4] <;> rfl

/-! ### CLK_OUTn_CFG and CLK_OUTn_DIV (R323) -/

theorem Word.fld_lt (w : Word) (lo n : Nat) : w.fld lo n < 2 ^ n := by
  rw [Word.fld_eq]
  exact Nat.mod_lt _ (by positivity)

/-- What a write leaves in CLK_OUTn_CFG: EN, MULT, FMT, INV and SRC, and nothing else. -/
theorem toNat_outCfgWrite (old v : Word) : (outCfgWrite old v).toNat =
    v.toNat / 2 ^ 31 % 2 * 2 ^ 31 + (if 9 < v.fld 16 4 then old.fld 16 4 else v.fld 16 4) * 2 ^ 16 +
      (if v.fld 8 2 = 3 then old.fld 8 2 else v.fld 8 2) * 2 ^ 8 + v.toNat / 2 ^ 4 % 2 * 2 ^ 4 +
      (if v.fld 0 3 = 7 then old.fld 0 3 else v.fld 0 3) := by
  have hmult : (if 9 < v.fld 16 4 then old.fld 16 4 else v.fld 16 4) < 16 := by split <;> exact Word.fld_lt ..
  have hfmt : (if v.fld 8 2 = 3 then old.fld 8 2 else v.fld 8 2) < 4 := by split <;> exact Word.fld_lt ..
  have hsrc : (if v.fld 0 3 = 7 then old.fld 0 3 else v.fld 0 3) < 8 := by split <;> exact Word.fld_lt ..
  have hle : (if v.fld 16 4 ≤ 9 then v.fld 16 4 else old.fld 16 4) = if 9 < v.fld 16 4 then old.fld 16 4 else v.fld 16 4 := by
    split <;> split <;> omega
  simp only [outCfgWrite, hle]
  generalize (if 9 < v.fld 16 4 then old.fld 16 4 else v.fld 16 4) = mult at *
  generalize (if v.fld 8 2 = 3 then old.fld 8 2 else v.fld 8 2) = fmt at *
  generalize (if v.fld 0 3 = 7 then old.fld 0 3 else v.fld 0 3) = src at *
  simp only [Word.toNat_setFld, and_enMask]
  have h31 := Nat.mod_lt (v.toNat / 2 ^ 31) (y := 2) (by decide)
  have h4 := Nat.mod_lt (v.toNat / 2 ^ 4) (y := 2) (by decide)
  generalize v.toNat / 2 ^ 31 % 2 = en at *
  generalize v.toNat / 2 ^ 4 % 2 = inv at *
  norm_num only
  omega

/-- The fields of a written CLK_OUTn_CFG. -/
theorem outCfgWrite_fields (old v : Word) :
    (outCfgWrite old v).flag 31 = v.flag 31 ∧ (outCfgWrite old v).flag 4 = v.flag 4 ∧
    (outCfgWrite old v).fld 20 11 = 0 ∧ (outCfgWrite old v).fld 10 6 = 0 ∧ (outCfgWrite old v).fld 5 3 = 0 ∧ (outCfgWrite old v).flag 3 = false ∧
    (outCfgWrite old v).fld 0 3 = (if v.fld 0 3 = 7 then old.fld 0 3 else v.fld 0 3) ∧
    (outCfgWrite old v).fld 8 2 = (if v.fld 8 2 = 3 then old.fld 8 2 else v.fld 8 2) ∧
    (outCfgWrite old v).fld 16 4 = (if 9 < v.fld 16 4 then old.fld 16 4 else v.fld 16 4) := by
  have hmult : (if 9 < v.fld 16 4 then old.fld 16 4 else v.fld 16 4) < 16 := by split <;> exact Word.fld_lt ..
  have hfmt : (if v.fld 8 2 = 3 then old.fld 8 2 else v.fld 8 2) < 4 := by split <;> exact Word.fld_lt ..
  have hsrc : (if v.fld 0 3 = 7 then old.fld 0 3 else v.fld 0 3) < 8 := by split <;> exact Word.fld_lt ..
  have hval := toNat_outCfgWrite old v
  generalize (if 9 < v.fld 16 4 then old.fld 16 4 else v.fld 16 4) = mult at *
  generalize (if v.fld 8 2 = 3 then old.fld 8 2 else v.fld 8 2) = fmt at *
  generalize (if v.fld 0 3 = 7 then old.fld 0 3 else v.fld 0 3) = src at *
  simp only [Word.flag_eq, Word.fld_eq, hval, decide_eq_decide, decide_eq_false_iff_not]
  norm_num only
  omega

theorem outDivWrite_fields (old v : Word) : (2 ≤ v.fld 20 12 → outDivWrite old v = v) ∧
    (v.fld 20 12 < 2 → (outDivWrite old v).fld 0 20 = v.fld 0 20 ∧ (outDivWrite old v).fld 20 12 = old.fld 20 12) := by
  refine ⟨fun h => if_neg (by omega), fun h => ?_⟩
  rw [outDivWrite, if_pos h]
  have hold := old.isLt
  simp only [Word.fld_eq, Word.toNat_setFld]
  norm_num only
  omega

/-! ### The commands (R320 to R323) -/

theorem State.readReg_outCfg (s : State) {n : Nat} (hn : n < 8) : s.readReg 6 (0x20100 + 8 * n) = s.clk.cfg n := by
  obtain rfl | rfl | rfl | rfl | rfl | rfl | rfl | rfl : n = 0 ∨ n = 1 ∨ n = 2 ∨ n = 3 ∨ n = 4 ∨ n = 5 ∨ n = 6 ∨ n = 7 := by omega
  all_goals rfl

/-- R320, R321: an output that is off, or whose source is the pulse or CREF. -/
theorem ClkSys.outRuns_off {c : ClkSys} {n : Nat} (h : (c.cfg n).flag 31 = false ∨ (c.cfg n).fld 0 3 = 0) : c.outRuns n = false := by
  obtain h | h := h <;> simp [ClkSys.outRuns, h]

theorem ClkSys.outRuns_pulse {c : ClkSys} {n : Nat} (hz : c.outHiZ = false) (hen : (c.cfg n).flag 31 = true) (h : (c.cfg n).fld 0 3 = 5) :
    c.outRuns n = true := by
  by_cases hf : (c.cfg n).fld 8 2 = 2 <;> simp [ClkSys.outRuns, ClkSys.outHz, hz, hen, h, hf]

theorem ClkSys.outRuns_cref {c : ClkSys} {n : Nat} (hz : c.outHiZ = false) (hen : (c.cfg n).flag 31 = true) (h : (c.cfg n).fld 0 3 = 6) :
    c.outRuns n = !c.crefLost := by
  by_cases hf : (c.cfg n).fld 8 2 = 2 <;> simp [ClkSys.outRuns, ClkSys.outHz, hz, hen, h, hf]

theorem ClkSys.legs_eq {c : ClkSys} (n : Nat) (hz : c.outHiZ = false) :
    c.legs n = (some (c.outRuns n), if (c.cfg n).fld 8 2 = 2 then none else some (c.outRuns n)) := by
  simp [ClkSys.legs, hz]

theorem ClkSys.cfg_writeOut {c : ClkSys} (hwf : Memory.wf zeroW c.outCfg = true) (n m : Nat) (v : Word) :
    (c.writeOut n false v).cfg m = if m = n then outCfgWrite (c.cfg n) v else c.cfg m := Memory.get_set _ _ _ _ _ hwf

theorem ClkSys.div_writeOut {c : ClkSys} (hwf : Memory.wf outDivReset c.outDiv = true) (n m : Nat) (v : Word) :
    (c.writeOut n true v).div m = if m = n then outDivWrite (c.div n) v else c.div m := Memory.get_set _ _ _ _ _ hwf

/-- A command that changes the clock system alone, and reports nothing. -/
theorem completes_withClk {i : Instr} {s : State} {f : ClkSys → ClkSys} (hexec : exec i s = .next (s.withClk f).settle)
    (hrep : (f s.clk).rep = s.clk.rep) : Completes i s [.clk] fun t => t.clk = { f s.clk with rep := [] } := by
  refine ⟨_, hexec, rfl, (s.within_clk f).settle (fun _ => ?_) fun _ => ⟨rfl, rfl, rfl⟩⟩
  rw [State.unitReports, State.withClk_clk, hrep]
  rfl

theorem completes_clkoutCfg {s : State} {r n : Nat} {v : Word} (hwf : Memory.wf zeroW s.clk.outCfg = true) (hr : r < 7) (hn : n < 8)
    (hc : s.commands r = true) :
    Completes (.clkoutConfigWrite r n false v) s [.clk] fun t => t.clk.outDiv = s.clk.outDiv ∧ t.clk.doms = s.clk.doms ∧
      t.clk.sync = s.clk.sync ∧ (∀ m, m ≠ n → t.clk.cfg m = s.clk.cfg m) ∧ t.clk.cfg n = outCfgWrite (s.clk.cfg n) v ∧
      t.clk.outHiZ = s.clk.outHiZ ∧ t.clk.crefLost = s.clk.crefLost := by
  have hexec : exec (.clkoutConfigWrite r n false v) s = .next (s.withClk fun c => c.writeOut n false v).settle :=
    done_on (by simp [Instr.wf, hr, hn]) hc
  obtain ⟨t, hexec, hclk, hframe⟩ := completes_withClk hexec rfl
  refine ⟨t, hexec, ?_, hframe⟩
  dsimp only
  rw [hclk]
  refine ⟨rfl, rfl, rfl, fun m hm => ?_, ?_, rfl, rfl⟩
  · exact (ClkSys.cfg_writeOut hwf n m v).trans (if_neg hm)
  · exact (ClkSys.cfg_writeOut hwf n n v).trans (if_pos rfl)

theorem completes_clkoutDiv {s : State} {r n : Nat} {v : Word} (hwf : Memory.wf outDivReset s.clk.outDiv = true) (hr : r < 7) (hn : n < 8)
    (hc : s.commands r = true) :
    Completes (.clkoutConfigWrite r n true v) s [.clk] fun t => t.clk.outCfg = s.clk.outCfg ∧ t.clk.doms = s.clk.doms ∧
      (∀ m, m ≠ n → t.clk.div m = s.clk.div m) ∧ t.clk.div n = outDivWrite (s.clk.div n) v := by
  have hexec : exec (.clkoutConfigWrite r n true v) s = .next (s.withClk fun c => c.writeOut n true v).settle :=
    done_on (by simp [Instr.wf, hr, hn]) hc
  obtain ⟨t, hexec, hclk, hframe⟩ := completes_withClk hexec rfl
  refine ⟨t, hexec, ?_, hframe⟩
  dsimp only
  rw [hclk]
  refine ⟨rfl, rfl, fun m hm => ?_, ?_⟩
  · exact (ClkSys.div_writeOut hwf n m v).trans (if_neg hm)
  · exact (ClkSys.div_writeOut hwf n n v).trans (if_pos rfl)

/-! ### SYNC_IN (R322) -/

theorem Word.fld_setFld_mode (w : Word) : (w.setFld 2 2 0).fld 2 2 = 0 := by
  have hw := w.isLt
  rw [Word.fld_eq, Word.toNat_setFld]
  norm_num only
  omega

/-- An edge of the selected polarity is kept, and ends the one-shot mode. -/
theorem ClkSys.syncIn_kept {c : ClkSys} {falling : Bool} (ns : Nat) (hmode : c.sync.fld 2 2 ≠ 0) (hpol : c.sync.flag 0 = falling) :
    c.syncIn falling ns = { c with syncEdges := c.syncEdges ++ [ns], sync := if c.sync.fld 2 2 = 1 then c.sync.setFld 2 2 0 else c.sync } := by
  simp [ClkSys.syncIn, hmode, hpol]

theorem ClkSys.syncIn_other {c : ClkSys} {falling : Bool} (ns : Nat) (h : c.sync.fld 2 2 = 0 ∨ c.sync.flag 0 ≠ falling) :
    c.syncIn falling ns = c := by
  obtain h | h := h <;> simp [ClkSys.syncIn, h]

theorem completes_syncInEdge {s : State} {falling : Bool} (ns : Nat) (hc : s.clocked = true) :
    Completes (.syncInEdge falling ns) s [.clk, .time] fun t => t.ns = ns ∧ t.clk = { s.clk.syncIn falling ns with rep := [] } := by
  have htime : s.Within [.clk, .time] (s.at_ ns) := ⟨rfl, fun p hp => by cases p <;> simp_all [Piece.same, State.at_]⟩
  have hrep : (s.clk.syncIn falling ns).rep = s.clk.rep := by
    simp only [ClkSys.syncIn]
    split <;> rfl
  refine ⟨_, done_on rfl hc, ⟨rfl, rfl⟩, (htime.trans ((State.within_clk ..).mono)).settle (fun _ => ?_) fun _ => ⟨rfl, rfl, rfl⟩⟩
  have hclk : ((s.at_ ns).withClk fun c => c.syncIn falling ns).clk = s.clk.syncIn falling ns := rfl
  rw [State.unitReports, hclk, hrep]
  rfl

/-! ### The resynchronisation (R322) -/

/-- The outputs that a resynchronisation restarts. -/
def ClkSys.resyncOuts (c : ClkSys) : List Nat := (List.range 8).filter fun n => c.sync.flag (8 + n) && (c.cfg n).fld 0 3 = 4

theorem Memory.get_foldl_set {α : Type} [DecidableEq α] (d : Nat → α) (x : α) (l : List Nat) {m : Memory α} (h : Memory.wf d m = true) (j : Nat) :
    Memory.get d (l.foldl (fun m n => Memory.set d m n x) m) j = if j ∈ l then x else Memory.get d m j := by
  induction l generalizing m with
  | nil => simp
  | cons n r ih =>
    rw [List.foldl_cons, ih (Memory.wf_set d m n x h), Memory.get_set d m n j x h]
    by_cases hjr : j ∈ r
    · simp [hjr]
    · by_cases hjn : j = n <;> simp [hjr, hjn]

theorem ClkSys.resync_early {c : ClkSys} {ns : Nat} (hedges : c.syncEdges = [ns])
    (h : (c.dom (c.sync.fld 4 2)).run = false ∨ (c.dom (c.sync.fld 4 2)).next = 0 ∨ (c.dom (c.sync.fld 4 2)).lastNs < ns + 100) :
    c.resync = c := by
  simp only [ClkSys.resync, hedges]
  refine if_neg ?_
  obtain h | h | h := h <;> simp [h]

theorem ClkSys.resync_due {c : ClkSys} {ns : Nat} (hedges : c.syncEdges = [ns]) (hrun : (c.dom (c.sync.fld 4 2)).run = true)
    (hnext : 0 < (c.dom (c.sync.fld 4 2)).next) (hlate : ns + 100 ≤ (c.dom (c.sync.fld 4 2)).lastNs) :
    c.resync = { c with syncEdges := [], syncCap := BitVec.ofNat 32 ((c.dom (c.sync.fld 4 2)).next - 1)
                        outRestart := c.resyncOuts.foldl (fun m n => Memory.set (fun _ => 0) m n ((c.dom (c.sync.fld 4 2)).next - 1)) c.outRestart } := by
  simp only [ClkSys.resync, hedges]
  rw [if_pos (by simp [hrun, hnext, hlate])]
  have hgone : [ns].filter (fun ns => decide ((c.dom (c.sync.fld 4 2)).lastNs < ns + 100)) = [] := by simpa using hlate
  rw [hgone]
  rfl

theorem ClkSys.mem_resyncOuts {c : ClkSys} {n : Nat} (hn : n < 8) :
    n ∈ c.resyncOuts ↔ c.sync.flag (8 + n) = true ∧ (c.cfg n).fld 0 3 = 4 := by
  simp [ClkSys.resyncOuts, hn]

theorem ClkSys.resync_rep (c : ClkSys) : c.resync.rep = c.rep := by
  simp only [ClkSys.resync]
  split <;> rfl

theorem completes_clkoutResync {s : State} {ns : Nat} (hc : s.clocked = true) (hedges : s.clk.syncEdges = [ns])
    (hwf : Memory.wf (fun _ => 0) s.clk.outRestart = true) :
    Completes .clkoutResync s [.clk] fun t =>
      let d := s.dom (s.clk.sync.fld 4 2)
      (d.run = true → 0 < d.next → ns + 100 ≤ d.lastNs → t.clk.syncEdges = [] ∧ t.clk.syncCap = BitVec.ofNat 32 (d.next - 1) ∧
        ∀ n, n < 8 → Memory.get (fun _ => 0) t.clk.outRestart n =
          if s.clk.sync.flag (8 + n) = true ∧ (s.clk.cfg n).fld 0 3 = 4 then d.next - 1 else Memory.get (fun _ => 0) s.clk.outRestart n) ∧
      (d.run = false ∨ d.next = 0 ∨ d.lastNs < ns + 100 → t.clk = s.settle.clk) := by
  have hexec : exec .clkoutResync s = .next (s.withClk ClkSys.resync).settle := done_on rfl hc
  obtain ⟨t, hexec, hclk, hframe⟩ := completes_withClk hexec s.clk.resync_rep
  refine ⟨t, hexec, ⟨fun hrun hnext hlate => ?_, fun h => ?_⟩, hframe⟩
  · rw [hclk, ClkSys.resync_due hedges hrun hnext hlate]
    refine ⟨rfl, rfl, fun n hn => ?_⟩
    refine (Memory.get_foldl_set (fun _ => 0) _ _ hwf n).trans ?_
    exact if_congr (ClkSys.mem_resyncOuts hn) rfl rfl
  · rw [hclk, ClkSys.resync_early hedges h]
    rfl

/-- Settles O40. -/
theorem clockOutputCommands : Obligations.ClockOutputCommands := by
  refine ⟨fun s r n v hwf hr hn hc => ?_, fun s r n v hwf hr hn hc => ?_, fun s falling ns hc => ?_,
    fun s ns hc hedges hwf => completes_clkoutResync hc hedges hwf⟩
  · obtain ⟨t, hexec, ⟨hdiv, hdoms, hsync, hother, hcfg, hhiz, hcref⟩, hframe⟩ := completes_clkoutCfg hwf hr hn hc
    obtain ⟨hen, hinv, h20, h10, h5, h3, hsrc, hfmt, hmult⟩ := outCfgWrite_fields (s.clk.cfg n) v
    rw [← hcfg] at hen hinv h20 h10 h5 h3 hsrc hfmt hmult
    refine ⟨t, hexec, ⟨hdiv, hdoms, hsync, hother, hen, hinv, h20, h10, h5, h3, t.readReg_outCfg hn, hsrc, hfmt, hmult,
      fun hz hoff => ?_, fun hz hon h5 => ?_, fun hz hon h6 => ?_⟩, hframe⟩
    · have hoff' : (t.clk.cfg n).flag 31 = false ∨ (t.clk.cfg n).fld 0 3 = 0 := by
        obtain h | h := hoff
        · exact .inl (hen.trans h)
        · exact .inr (by rw [hsrc, h]; rfl)
      rw [ClkSys.legs_eq n (hhiz.trans hz), ClkSys.outRuns_off hoff']
    · rw [ClkSys.legs_eq n (hhiz.trans hz), ClkSys.outRuns_pulse (hhiz.trans hz) (hen.trans hon) (by rw [hsrc, h5]; rfl)]
    · rw [ClkSys.legs_eq n (hhiz.trans hz), ClkSys.outRuns_cref (hhiz.trans hz) (hen.trans hon) (by rw [hsrc, h6]; rfl), hcref]
  · obtain ⟨t, hexec, ⟨hcfg, hdoms, hother, hdiv⟩, hframe⟩ := completes_clkoutDiv hwf hr hn hc
    obtain ⟨hwhole, hfrac⟩ := outDivWrite_fields (s.clk.div n) v
    rw [← hdiv] at hwhole hfrac
    exact ⟨t, hexec, ⟨hcfg, hdoms, hother, hwhole, hfrac⟩, hframe⟩
  · obtain ⟨t, hexec, ⟨hns, hclk⟩, hframe⟩ := completes_syncInEdge (falling := falling) ns hc
    have hdoms : (s.clk.syncIn falling ns).doms = s.clk.doms ∧ (s.clk.syncIn falling ns).outRestart = s.clk.outRestart := by
      simp only [ClkSys.syncIn]
      split <;> exact ⟨rfl, rfl⟩
    refine ⟨t, hexec, ⟨hns, by rw [hclk]; exact hdoms.1, by rw [hclk]; exact hdoms.2, fun hmode hpol => ?_, fun h => ?_⟩, hframe⟩
    · rw [hclk, ClkSys.syncIn_kept ns hmode hpol]
      refine ⟨rfl, ?_⟩
      by_cases h1 : s.clk.sync.fld 2 2 = 1
      · simp only [h1, if_true]
        exact Word.fld_setFld_mode _
      · simp only [h1, if_false]
    · rw [hclk, ClkSys.syncIn_other ns h]
      rfl

end Sys2Proof.Machine

/-!
SUPPORT. A partition's reset while the release of another waits (R408, R420).
-/

namespace Sys2Proof.Machine

/-- A RELEASE of partition 1, which waits until its graph may be removed (R408). -/
def waitingRelease : Entry := { Entry.none_ 1 0 with op := 2 }

/-- A device whose partition 0 is held through PCIe, while the release of partition 1 waits and no epoch of it is armed. -/
def waitingReleaseDevice : State :=
  { State.reset with
      clk := { ClkSys.reset with coreLock := true }
      host := { HostSys.reset with parts := [(0, { Part.reset with holder := some 0 })] }
      setter := { SetterSys.reset with cleanup := [(1, waitingRelease)] } }

/-- Refutes O48: the reset of partition 0 carries out every removal that waits, so the release of partition 1 completes in partition 1. -/
theorem not_claimCommands : ¬ Obligations.ClaimCommands := by
  unfold Obligations.ClaimCommands
  rintro ⟨-, -, -, -, hpartitionReset, -⟩
  obtain ⟨t, hexec, -, -, hheld⟩ := hpartitionReset waitingReleaseDevice 0 0 rfl (by decide) rfl rfl
  have hreset : exec (.partitionReset 0) waitingReleaseDevice = .next (waitingReleaseDevice.writeBlock 0 0x004 1).settle := done_on rfl rfl
  obtain rfl := Host.Outcome.next.inj (hexec.symm.trans hreset)
  obtain ⟨hothers, -⟩ := hheld rfl
  have hcompl : ((waitingReleaseDevice.writeBlock 0 0x004 1).host.part 1).compl = (waitingReleaseDevice.host.part 1).compl :=
    congrArg Part.compl (hothers 1 (by decide))
  exact absurd hcompl (by decide)

end Sys2Proof.Machine

/-!
SUPPORT. Fields of a word after a write of a field, bit by bit.
-/

namespace Sys2Proof.Machine

theorem Word.flag_eq_testBit (w : Word) (i : Nat) : w.flag i = w.toNat.testBit i := BitVec.testBit_toNat w |>.symm

theorem Word.testBit_fld (w : Word) (lo n i : Nat) : (w.fld lo n).testBit i = (decide (i < n) && w.toNat.testBit (lo + i)) := by
  rw [Word.fld, Sys2Proof.fld, Nat.testBit_mod_two_pow, Nat.testBit_shiftRight]

theorem Word.testBit_setFld {lo n : Nat} (hwidth : lo + n ≤ 32) (w : Word) (v i : Nat) :
    (w.setFld lo n v).toNat.testBit i = if lo ≤ i ∧ i < lo + n then v.testBit (i - lo) else w.toNat.testBit i := by
  have hhigh := Nat.div_add_mod (w.toNat / 2 ^ lo) (2 ^ n)
  have hlow := Nat.div_add_mod w.toNat (2 ^ lo)
  have hpow : 2 ^ (lo + n) * 2 ^ (32 - (lo + n)) = 2 ^ 32 := by rw [← Nat.pow_add, Nat.add_sub_cancel' hwidth]
  set h := w.toNat / 2 ^ lo / 2 ^ n with hh
  set l := w.toNat % 2 ^ lo with hl
  have hl' : l < 2 ^ lo := Nat.mod_lt _ (Nat.two_pow_pos lo)
  have hv : v % 2 ^ n < 2 ^ n := Nat.mod_lt _ (Nat.two_pow_pos n)
  have hold : w.toNat = 2 ^ lo * (2 ^ n * h) + 2 ^ lo * (w.toNat / 2 ^ lo % 2 ^ n) + l := by rw [← Nat.mul_add, hhigh, hlow]
  have hsum : w.toNat - w.toNat / 2 ^ lo % 2 ^ n * 2 ^ lo + v % 2 ^ n * 2 ^ lo = 2 ^ lo * (2 ^ n * h + v % 2 ^ n) + l := by
    rw [Nat.mul_add, Nat.mul_comm _ (2 ^ lo), Nat.mul_comm _ (2 ^ lo)]
    omega
  have hhlt : h < 2 ^ (32 - (lo + n)) := by
    rw [hh, Nat.div_div_eq_div_mul, ← Nat.pow_add, Nat.div_lt_iff_lt_mul (Nat.two_pow_pos _), Nat.mul_comm, hpow]
    exact w.isLt
  have hlt : 2 ^ lo * (2 ^ n * h + v % 2 ^ n) + l < 2 ^ 32 := by
    calc 2 ^ lo * (2 ^ n * h + v % 2 ^ n) + l
        < 2 ^ lo * (2 ^ n * h + v % 2 ^ n + 1) := by rw [Nat.mul_succ]; exact Nat.add_lt_add_left hl' _
      _ ≤ 2 ^ lo * (2 ^ n * (h + 1)) := Nat.mul_le_mul_left _ (by rw [Nat.mul_succ]; omega)
      _ = 2 ^ (lo + n) * (h + 1) := by rw [Nat.pow_add, Nat.mul_assoc]
      _ ≤ 2 ^ (lo + n) * 2 ^ (32 - (lo + n)) := Nat.mul_le_mul_left _ hhlt
      _ = 2 ^ 32 := hpow
  rw [Word.toNat_setFld, hsum, Nat.mod_eq_of_lt hlt, Nat.testBit_two_pow_mul_add _ hl']
  by_cases hi : i < lo
  · rw [if_pos hi, if_neg (by omega), hl, Nat.testBit_mod_two_pow, decide_eq_true hi, Bool.true_and]
  · rw [if_neg hi, Nat.testBit_two_pow_mul_add _ hv]
    by_cases hin : i - lo < n
    · rw [if_pos hin, if_pos ⟨by omega, by omega⟩, Nat.testBit_mod_two_pow, decide_eq_true hin, Bool.true_and]
    · rw [if_neg hin, if_neg (by omega), hh, Nat.testBit_div_two_pow, Nat.testBit_div_two_pow]
      congr 1
      omega

theorem Word.fld_setFld_same {lo n : Nat} (hwidth : lo + n ≤ 32) (w : Word) (v : Nat) : (w.setFld lo n v).fld lo n = v % 2 ^ n := by
  refine Nat.eq_of_testBit_eq fun i => ?_
  rw [Word.testBit_fld, Word.testBit_setFld hwidth, Nat.testBit_mod_two_pow]
  by_cases hi : i < n
  · rw [if_pos ⟨by omega, by omega⟩, Nat.add_sub_cancel_left]
  · simp [hi]

theorem Word.fld_setFld_disjoint {lo n lo' n' : Nat} (hwidth : lo + n ≤ 32) (hapart : lo' + n' ≤ lo ∨ lo + n ≤ lo') (w : Word) (v : Nat) :
    (w.setFld lo n v).fld lo' n' = w.fld lo' n' := by
  refine Nat.eq_of_testBit_eq fun i => ?_
  rw [Word.testBit_fld, Word.testBit_setFld hwidth, Word.testBit_fld]
  by_cases hi : i < n'
  · rw [if_neg (by omega)]
  · simp [hi]

theorem Word.flag_setFld_apart {lo n i : Nat} (hwidth : lo + n ≤ 32) (hapart : i < lo ∨ lo + n ≤ i) (w : Word) (v : Nat) :
    (w.setFld lo n v).flag i = w.flag i := by
  rw [Word.flag_eq_testBit, Word.flag_eq_testBit, Word.testBit_setFld hwidth, if_neg (by omega)]

theorem Word.flag_setFlag_same {i : Nat} (hi : i < 32) (w : Word) (b : Bool) : (w.setFlag i b).flag i = b := by
  rw [Word.flag_eq_testBit, Word.setFlag, Word.testBit_setFld (by omega), if_pos (by omega), Nat.sub_self]
  cases b <;> rfl

theorem Word.flag_setFlag_ne {i j : Nat} (hi : i < 32) (hne : j ≠ i) (w : Word) (b : Bool) : (w.setFlag i b).flag j = w.flag j :=
  Word.flag_setFld_apart (by omega) (by omega) w _

theorem Word.fld_setFlag {i lo n : Nat} (hi : i < 32) (hapart : lo + n ≤ i ∨ i < lo) (w : Word) (b : Bool) :
    (w.setFlag i b).fld lo n = w.fld lo n :=
  Word.fld_setFld_disjoint (by omega) (by omega) w _

/-- A flag is the field of one bit. -/
theorem Word.fld_one (w : Word) (i : Nat) : w.fld i 1 = if w.flag i then 1 else 0 := by
  rw [Word.fld_eq, Word.flag_eq]
  obtain h | h := Nat.mod_two_eq_zero_or_one (w.toNat / 2 ^ i) <;> simp [h]

end Sys2Proof.Machine

/-!
SUPPORT. What the operations of the network ports read and leave: ports, frames sent, reports (R325 to R332), and the frames of their commands.
-/

namespace Sys2Proof.Machine

/-! ### Ports of the network block -/

@[simp] theorem NetSys.setPort_rx (n : NetSys) (i : Nat) (p : NetPort) : (n.setPort i p).rx = n.rx := by rw [NetSys.setPort]; split <;> rfl
@[simp] theorem NetSys.setPort_tx (n : NetSys) (i : Nat) (p : NetPort) : (n.setPort i p).tx = n.tx := by rw [NetSys.setPort]; split <;> rfl
@[simp] theorem NetSys.setPort_od (n : NetSys) (i : Nat) (p : NetPort) : (n.setPort i p).od = n.od := by rw [NetSys.setPort]; split <;> rfl
@[simp] theorem NetSys.setPort_ptp (n : NetSys) (i : Nat) (p : NetPort) : (n.setPort i p).ptp = n.ptp := by rw [NetSys.setPort]; split <;> rfl
@[simp] theorem NetSys.setPort_sent (n : NetSys) (i : Nat) (p : NetPort) : (n.setPort i p).sent = n.sent := by rw [NetSys.setPort]; split <;> rfl
@[simp] theorem NetSys.setPort_rep (n : NetSys) (i : Nat) (p : NetPort) : (n.setPort i p).rep = n.rep := by rw [NetSys.setPort]; split <;> rfl

@[simp] theorem NetSys.port_setPort_same (n : NetSys) (i : Nat) (p : NetPort) : (n.setPort i p).port i = p := by
  rw [NetSys.setPort, NetSys.port]
  split <;> rfl

theorem NetSys.port_setPort_other {i j : Nat} (hi : i < 2) (hj : j < 2) (hne : j ≠ i) (n : NetSys) (p : NetPort) :
    (n.setPort i p).port j = n.port j := by
  obtain rfl | rfl : i = 0 ∨ i = 1 := by omega
  · obtain rfl : j = 1 := by omega
    rfl
  · obtain rfl : j = 0 := by omega
    rfl

@[simp] theorem NetSys.note_port (n : NetSys) (cause cls inst dom : Nat) (clear : Bool) (i : Nat) :
    (n.note cause cls inst dom clear).port i = n.port i := rfl

/-! ### Frames sent -/

@[simp] theorem NetSys.send_rx (n : NetSys) (i : Nat) (f : List Byte) : (n.send i f).rx = n.rx := n.setPort_rx i _
@[simp] theorem NetSys.send_tx (n : NetSys) (i : Nat) (f : List Byte) : (n.send i f).tx = n.tx := n.setPort_tx i _
@[simp] theorem NetSys.send_ptp (n : NetSys) (i : Nat) (f : List Byte) : (n.send i f).ptp = n.ptp := n.setPort_ptp i _
@[simp] theorem NetSys.send_rep (n : NetSys) (i : Nat) (f : List Byte) : (n.send i f).rep = n.rep := n.setPort_rep i _
@[simp] theorem NetSys.send_sent (n : NetSys) (i : Nat) (f : List Byte) : (n.send i f).sent = n.sent ++ [(i, f)] := rfl

@[simp] theorem NetSys.port_send_same (n : NetSys) (i : Nat) (f : List Byte) :
    (n.send i f).port i = { n.port i with txFrames := (n.port i).txFrames + 1 } := n.port_setPort_same i _

theorem NetSys.port_send_other {i j : Nat} (hi : i < 2) (hj : j < 2) (hne : j ≠ i) (n : NetSys) (f : List Byte) :
    (n.send i f).port j = n.port j := n.port_setPort_other hi hj hne _

/-- Frames sent on a port join what it sends, and count there; nothing else changes. -/
theorem NetSys.sendAll_keeps (n : NetSys) (i : Nat) (fs : List (List Byte)) :
    (n.sendAll i fs).rx = n.rx ∧ (n.sendAll i fs).tx = n.tx ∧ (n.sendAll i fs).ptp = n.ptp ∧ (n.sendAll i fs).rep = n.rep ∧
      (n.sendAll i fs).sent = n.sent ++ fs.map (fun f => (i, f)) ∧ (∃ w, (n.sendAll i fs).port i = { n.port i with txFrames := w }) ∧
      (i < 2 → ∀ j, j < 2 → j ≠ i → (n.sendAll i fs).port j = n.port j) := by
  induction fs generalizing n with
  | nil => exact ⟨rfl, rfl, rfl, rfl, (List.append_nil _).symm, ⟨_, rfl⟩, fun _ _ _ _ => rfl⟩
  | cons f r ih =>
    obtain ⟨hrx, htx, hptp, hrep, hsent, ⟨w, hport⟩, hother⟩ := ih (n.send i f)
    refine ⟨hrx.trans (n.send_rx i f), htx.trans (n.send_tx i f), hptp.trans (n.send_ptp i f), hrep.trans (n.send_rep i f), ?_,
      ⟨w, hport.trans (by rw [n.port_send_same])⟩, fun hi j hj hne => (hother hi j hj hne).trans (n.port_send_other hi hj hne f)⟩
    rw [List.map_cons, List.append_cons]
    exact hsent

/-! ### The best master (R350 to R353) changes PTP alone, and may report -/

theorem NetSys.refollow_eq (n : NetSys) : ∃ t r, n.refollow = { n with ptp := t, rep := n.rep ++ r } := by
  rw [NetSys.refollow]
  dsimp only
  split
  · exact ⟨n.ptp, [], by rw [List.append_nil]⟩
  · split
    · exact ⟨n.ptp, [], by rw [List.append_nil]⟩
    · split
      · split
        · exact ⟨n.ptp, [], by rw [List.append_nil]⟩
        · exact ⟨_, [], by rw [List.append_nil]; rfl⟩
      · split
        · exact ⟨_, _, rfl⟩
        · exact ⟨_, [], by rw [List.append_nil]; rfl⟩

theorem NetSys.elect_eq (n : NetSys) (i now : Nat) (timeout : Bool) : ∃ t r, n.elect i now timeout = { n with ptp := t, rep := n.rep ++ r } :=
  NetSys.refollow_eq _

/-! ### Reports and frames of the whole device -/

/-- The report of a network report. -/
def NetRep.report (r : NetRep) : Report := ⟨r.cause, r.cls, r.inst, domOr3 r.dom, r.clear, false, 0⟩

theorem State.mem_flying_of_net {s : State} {r : NetRep} (h : r ∈ s.net.rep) : r.report ∈ s.settle.health.flying := by
  have hr : r.report ∈ s.net.rep.map NetRep.report := List.mem_map_of_mem h
  have hunits : s.settle.health.flying = s.health.flying ++ s.unitReports := rfl
  rw [hunits, State.unitReports]
  simp only [List.mem_append]
  exact .inr (.inl (.inl (.inl (.inl (.inr hr)))))

/-- In a quiet state a command that sends frames alone puts them on the wires. -/
theorem State.settle_out_sent {s x : State} {l : List (Nat × List Byte)} (hq : s.quiet = true) (htx : s.txOn = true) (htxOn : x.txOn = s.txOn)
    (houts : x.host.outs = s.host.outs) (hsent : x.net.sent = s.net.sent ++ l) : x.settle.out = l.map fun f => .netFrame f.1 f.2 := by
  obtain ⟨hout, hnet⟩ := State.quiet_outs hq
  rw [State.settle_out, houts, hout, htxOn, htx, hsent, hnet, if_pos rfl]
  rfl

theorem State.unitReports_withNet {s : State} {f : NetSys → NetSys} (hrep : (f s.net).rep = s.net.rep) :
    (s.withNet f).unitReports = s.unitReports := by
  rw [State.unitReports, State.withNet_net, hrep]
  rfl

/-- A command of the network that may report nothing. -/
theorem completes_withNet {i : Instr} {s : State} {f : NetSys → NetSys} (hexec : exec i s = .next (s.withNet f).settle)
    (hrep : (f s.net).rep = s.net.rep) :
    Completes i s [.net, .out] fun t => t = (s.withNet f).settle :=
  ⟨_, hexec, rfl, (s.within_net f).mono.settle (fun _ => State.unitReports_withNet hrep) fun h => absurd (by decide) h⟩

/-- A command of the network that neither reports nor sends. -/
theorem completes_withNet_silent {i : Instr} {s : State} {f : NetSys → NetSys} (hexec : exec i s = .next (s.withNet f).settle)
    (hrep : (f s.net).rep = s.net.rep) (hsent : (f s.net).sent = s.net.sent) :
    Completes i s [.net] fun t => t = (s.withNet f).settle :=
  ⟨_, hexec, rfl, (s.within_net f).settle (fun _ => State.unitReports_withNet hrep) fun _ => ⟨rfl, rfl, hsent⟩⟩

/-- A command of the network that reports and does not send. -/
theorem completes_withNet_noted {i : Instr} {s : State} {f : NetSys → NetSys} (hexec : exec i s = .next (s.withNet f).settle)
    (hsent : (f s.net).sent = s.net.sent) :
    Completes i s [.net, .reports] fun t => t = (s.withNet f).settle :=
  ⟨_, hexec, rfl, (s.within_net f).mono.settle (fun h => absurd (by decide) h) fun _ => ⟨rfl, rfl, hsent⟩⟩

/-! ### What PTP_OK does to the clock (R302) -/

theorem State.afterPtp_within (s : State) (was : Bool) (es : List Int) (freq : Int) : s.Within [.clk] (s.afterPtp was es freq) :=
  State.Within.ite (fun _ => .refl _ s) fun _ => s.within_clk _

theorem State.afterPtp_net (s : State) (was : Bool) (es : List Int) (freq : Int) : (s.afterPtp was es freq).net = s.net :=
  (s.afterPtp_within was es freq).same .net

/-- While PTP_OK stays as it is the clock does not change. -/
theorem State.afterPtp_same {s : State} {was : Bool} (h : s.ptpOk = was) (es : List Int) (freq : Int) : s.afterPtp was es freq = s :=
  if_pos h

theorem State.netStep_within (s : State) (es : List Int) (freq : Int) (f : NetSys → NetSys) :
    s.Within [.net, .clk] (s.netStep es freq f) :=
  (s.within_net f).mono.trans (State.afterPtp_within ..).mono

theorem State.netStep_net (s : State) (es : List Int) (freq : Int) (f : NetSys → NetSys) : (s.netStep es freq f).net = f s.net :=
  State.afterPtp_net ..

theorem State.txOn_of_within {ps : List Piece} {s t : State} (h : s.Within ps t) (hboot : .boot ∉ ps) (hpower : .power ∉ ps) :
    t.txOn = s.txOn :=
  have hb : t.boot = s.boot := h.2 .boot hboot
  State.txOn_congr (congrArg Boot.at_ hb) (h.2 .power hpower)

end Sys2Proof.Machine

/-!
SUPPORT. Link, cages, ARP and IGMP of a network port (R325, R326, R330, R332).
-/

namespace Sys2Proof.Machine

/-! ### Link (R325) -/

theorem NetSys.mem_note (n : NetSys) (cause cls inst dom : Nat) (clear : Bool) :
    ⟨cause, cls, inst, dom, clear⟩ ∈ (n.note cause cls inst dom clear).rep := by
  simp [NetSys.note]

/-- R325, R330: what a port sends when it gains link. -/
def NetPort.announce (p : NetPort) : List (List Byte) := if p.en = true then [arpRequest p p.ip.toNat] else []

theorem NetSys.linkUp_eq {n : NetSys} {i : Nat} (hlink : (n.port i).link = false) (now : Nat) :
    n.linkUp i now = (((n.setPort i { n.port i with link := true, blkLock := true, hiBer := false, los := false, garp := (n.port i).en }).note
      0x0700 6 i 3 true).sendAll i (n.port i).announce).elect i now false := by
  rw [NetSys.linkUp, NetPort.announce, hlink, if_neg Bool.false_ne_true]
  by_cases hen : (n.port i).en = true
  · simp only [hen, if_true]
    rfl
  · simp only [hen, Bool.false_eq_true, if_false]
    rfl

theorem NetSys.linkUp_becomes {n : NetSys} {i : Nat} (hlink : (n.port i).link = false) (now : Nat) :
    (n.linkUp i now).rx = n.rx ∧ (n.linkUp i now).tx = n.tx ∧ ((n.linkUp i now).port i).link = true ∧
      ((n.linkUp i now).port i).garp = (n.port i).en ∧ (i < 2 → ∀ j, j < 2 → j ≠ i → (n.linkUp i now).port j = n.port j) ∧
      ⟨0x700, 6, i, 3, true⟩ ∈ (n.linkUp i now).rep ∧ (n.linkUp i now).sent = n.sent ++ (n.port i).announce.map fun f => (i, f) := by
  rw [NetSys.linkUp_eq hlink]
  set p := { n.port i with link := true, blkLock := true, hiBer := false, los := false, garp := (n.port i).en } with hp
  obtain ⟨hrx, htx, -, hrep, hsent, ⟨w, hport⟩, hother⟩ := ((n.setPort i p).note 0x0700 6 i 3 true).sendAll_keeps i (n.port i).announce
  have hp' : ((n.setPort i p).note 0x0700 6 i 3 true).port i = p := n.port_setPort_same i p
  rw [hp'] at hport
  obtain ⟨t, r, helect⟩ := (((n.setPort i p).note 0x0700 6 i 3 true).sendAll i (n.port i).announce).elect_eq i now false
  rw [helect]
  refine ⟨hrx.trans (n.setPort_rx i p), htx.trans (n.setPort_tx i p), congrArg NetPort.link hport, congrArg NetPort.garp hport,
    fun hi j hj hne => (hother hi j hj hne).trans (n.port_setPort_other hi hj hne p), ?_, ?_⟩
  · exact List.mem_append_left r (hrep ▸ NetSys.mem_note ..)
  · exact hsent.trans (congrArg (· ++ _) (n.setPort_sent i p))

theorem NetSys.linkDown_becomes {n : NetSys} {i : Nat} {los blk ber : Bool} (hlink : (n.port i).link = true)
    (hcause : los = true ∨ blk = false ∨ ber = true) (now : Nat) :
    (n.linkDown i now los blk ber).rx = n.rx ∧ (n.linkDown i now los blk ber).tx = n.tx ∧ (n.linkDown i now los blk ber).sent = n.sent ∧
      (i < 2 → ∀ j, j < 2 → j ≠ i → (n.linkDown i now los blk ber).port j = n.port j) ∧
      (n.linkDown i now los blk ber).port i =
        { n.port i with link := false, los := los, blkLock := blk, hiBer := ber, garp := false, resend := [], queries := [] } ∧
      ⟨0x700, 6, i, 3, false⟩ ∈ (n.linkDown i now los blk ber).rep := by
  have hc : (los || !blk || ber) = true := by simpa [or_assoc] using hcause
  rw [NetSys.linkDown]
  simp only [hlink, hc, if_true]
  obtain ⟨t, r, helect⟩ := NetSys.elect_eq ((n.setPort i
    { n.port i with link := false, los := los, blkLock := blk, hiBer := ber, garp := false, resend := [], queries := [] }).note 0x0700 6 i 3 false)
    i now false
  rw [helect]
  exact ⟨n.setPort_rx .., n.setPort_tx .., n.setPort_sent .., fun hi j hj hne => n.port_setPort_other hi hj hne _, n.port_setPort_same ..,
    List.mem_append_left r (NetSys.mem_note ..)⟩

theorem NetSys.linkDown_without_cause (n : NetSys) (i now : Nat) : n.linkDown i now false true false = n := rfl

theorem completes_linkUp {s : State} {i : Nat} (hi : i < 2) (hup : s.netUp = true) (hlink : (s.net.port i).link = false) :
    Completes (.linkUp i) s [.net, .clk, .reports, .out] fun t =>
      t.net.rx = s.net.rx ∧ t.net.tx = s.net.tx ∧ (t.net.port i).link = true ∧ (t.net.port i).garp = (s.net.port i).en ∧
        (∀ j, j < 2 → j ≠ i → t.net.port j = s.net.port j) ∧ ⟨0x700, 6, i, 3, true, false, 0⟩ ∈ t.health.flying ∧
        (s.quiet = true → s.txOn = true → t.out = (s.net.port i).announce.map fun f => .netFrame i f) := by
  obtain ⟨hrx, htx, hup', hgarp, hother, hrep, hsent⟩ := NetSys.linkUp_becomes hlink s.us
  have hframe := s.netStep_within s.heldEs s.clk.freq fun n => n.linkUp i s.us
  have hnet : (s.netStep s.heldEs s.clk.freq fun n => n.linkUp i s.us).net = s.net.linkUp i s.us := s.netStep_net ..
  refine ⟨_, done_on (by simp [Instr.wf, hi]) (by simp [hup, hlink]), ⟨?_, ?_, ?_, ?_, fun j hj hne => ?_, ?_, fun hq htxOn => ?_⟩,
    hframe.mono.settle_open⟩
  · exact (congrArg NetSys.rx hnet).trans hrx
  · exact (congrArg NetSys.tx hnet).trans htx
  · exact (congrArg (fun n => (NetSys.port n i).link) hnet).trans hup'
  · exact (congrArg (fun n => (NetSys.port n i).garp) hnet).trans hgarp
  · exact (congrArg (fun n => NetSys.port n j) hnet).trans (hother hi j hj hne)
  · exact State.mem_flying_of_net (r := ⟨0x700, 6, i, 3, true⟩) (by rw [hnet]; exact hrep)
  · have hout := State.settle_out_sent hq htxOn (State.txOn_of_within hframe (by decide) (by decide)) (congrArg HostSys.outs (hframe.same .host))
      ((congrArg NetSys.sent hnet).trans hsent)
    rw [hout, List.map_map]
    rfl

theorem completes_linkDown {s : State} {i : Nat} (los blk ber : Bool) (hi : i < 2) (hup : s.netUp = true) (hlink : (s.net.port i).link = true) :
    Completes (.linkDown i los blk ber) s [.net, .clk, .reports] fun t =>
      t.net.rx = s.net.rx ∧ t.net.tx = s.net.tx ∧ (∀ j, j < 2 → j ≠ i → t.net.port j = s.net.port j) ∧
        (los = true ∨ blk = false ∨ ber = true → (t.net.port i).link = false ∧ (t.net.port i).los = los ∧ (t.net.port i).resend = [] ∧
          (t.net.port i).arp = (s.net.port i).arp ∧ ⟨0x700, 6, i, 3, false, false, 0⟩ ∈ t.health.flying) ∧
        (los = false → blk = true → ber = false → t.net = s.settle.net) := by
  have hframe := s.netStep_within s.heldEs s.clk.freq fun n => n.linkDown i s.us los blk ber
  have hnet : (s.netStep s.heldEs s.clk.freq fun n => n.linkDown i s.us los blk ber).net = s.net.linkDown i s.us los blk ber := s.netStep_net ..
  have hexec : exec (.linkDown i los blk ber) s = .next (s.netStep s.heldEs s.clk.freq fun n => n.linkDown i s.us los blk ber).settle :=
    done_on (by simp [Instr.wf, hi]) (by simp [hup, hlink])
  have hclose (hsent : (s.net.linkDown i s.us los blk ber).sent = s.net.sent) := hframe.mono.settle (ps := [.net, .clk, .reports])
    (fun h => absurd (by decide) h) fun _ => ⟨congrArg HostSys.outs (hframe.same .host), State.txOn_of_within hframe (by decide) (by decide),
      (congrArg NetSys.sent hnet).trans hsent⟩
  by_cases hcause : los = true ∨ blk = false ∨ ber = true
  · obtain ⟨hrx, htx, hsent, hother, hport, hrep⟩ := NetSys.linkDown_becomes hlink hcause s.us
    refine ⟨_, hexec, ⟨(congrArg NetSys.rx hnet).trans hrx, (congrArg NetSys.tx hnet).trans htx,
      fun j hj hne => (congrArg (fun n => NetSys.port n j) hnet).trans (hother hi j hj hne), fun _ => ?_, fun hlos hblk hber => ?_⟩, hclose hsent⟩
    · have hp := (congrArg (fun n => NetSys.port n i) hnet).trans hport
      exact ⟨congrArg NetPort.link hp, congrArg NetPort.los hp, congrArg NetPort.resend hp, (congrArg NetPort.arp hp :),
        State.mem_flying_of_net (r := ⟨0x700, 6, i, 3, false⟩) (by rw [hnet]; exact hrep)⟩
    · simp [hlos, hblk, hber] at hcause
  · obtain ⟨rfl, rfl, rfl⟩ : los = false ∧ blk = true ∧ ber = false := by simpa using hcause
    have hsame : (s.netStep s.heldEs s.clk.freq fun n => n.linkDown i s.us false true false).net = s.net := hnet
    refine ⟨_, hexec, ⟨(congrArg NetSys.rx hsame :), (congrArg NetSys.tx hsame :), fun j _ _ => (congrArg (fun n => NetSys.port n j) hsame :),
      fun h => absurd h hcause, fun _ _ _ => ?_⟩, hclose rfl⟩
    rw [State.settle_net, hsame, State.settle_net]

/-! ### Cages (R326) -/

/-- The fields of NET_I2C, from START to REG and DATA. -/
theorem i2cWord_fields {start nak port rw dev data : Nat} (hstart : start < 2) (hnak : nak < 2) (hport : port < 2) (hrw : rw < 2) (hdev : dev < 128)
    (hdata : data < 65536) :
    let w : Word := BitVec.ofNat 32 (start <<< 31 + nak <<< 30 + port <<< 27 + rw <<< 26 + dev <<< 17 + data)
    w.fld 31 1 = start ∧ w.fld 27 1 = port ∧ w.fld 26 1 = rw ∧ w.fld 17 7 = dev ∧ w.fld 8 8 = data / 256 ∧ w.fld 0 8 = data % 256 := by
  intro w
  have hw : w.toNat = start * 2147483648 + nak * 1073741824 + port * 134217728 + rw * 67108864 + dev * 131072 + data := by
    rw [BitVec.toNat_ofNat]
    simp only [Nat.shiftLeft_eq]
    omega
  simp only [Word.fld_eq, hw, Nat.reducePow]
  refine ⟨?_, ?_, ?_, ?_, ?_, ?_⟩ <;> omega

theorem Word.flag_of_fld_one {v w : Word} {i : Nat} (h : w.fld i 1 = v.fld i 1) : w.flag i = v.flag i := by
  rw [Word.fld_one, Word.fld_one] at h
  cases hw : w.flag i <;> cases hv : v.flag i <;> simp_all

/-- The word that a write of NET_I2C leaves: START, the NAK bit that stays, PORT, RW, DEVICE, and REG with DATA. -/
theorem NetSys.writeI2c_word {n : NetSys} {v : Word} (hidle : n.i2c.flag 31 = false) (hdev : v.fld 17 7 = 0x50 ∨ v.fld 17 7 = 0x51) :
    ∃ w : Word, n.writeI2c v = { n with i2c := w } ∧ w.flag 31 = v.flag 31 ∧ w.fld 27 1 = v.fld 27 1 ∧ w.flag 26 = v.flag 26 ∧
      w.fld 17 7 = v.fld 17 7 ∧ w.fld 8 8 = v.fld 8 8 ∧ w.fld 0 8 = v.fld 0 8 := by
  have hdev' : (decide (v.fld 17 7 = 0x50) || decide (v.fld 17 7 = 0x51)) = true := by simpa using hdev
  have hword : n.writeI2c v = { n with i2c := BitVec.ofNat 32 (v.fld 31 1 <<< 31 + n.i2c.fld 30 1 <<< 30 + v.fld 27 1 <<< 27
      + v.fld 26 1 <<< 26 + v.fld 17 7 <<< 17 + v.fld 0 16) } := by
    rw [NetSys.writeI2c, hidle, if_neg Bool.false_ne_true]
    simp only [hdev', if_true]
  obtain ⟨h31, h27, h26, h17, h8, h0⟩ := i2cWord_fields (Word.fld_lt v 31 1) (Word.fld_lt n.i2c 30 1) (Word.fld_lt v 27 1) (Word.fld_lt v 26 1) (Word.fld_lt v 17 7)
    (Word.fld_lt v 0 16)
  have hhigh : v.fld 0 16 / 256 = v.fld 8 8 := by
    simp only [Word.fld_eq, Nat.reducePow]
    omega
  have hlow : v.fld 0 16 % 256 = v.fld 0 8 := by
    simp only [Word.fld_eq, Nat.reducePow]
    omega
  exact ⟨_, hword, Word.flag_of_fld_one h31, h27, Word.flag_of_fld_one h26, h17, h8.trans hhigh, h0.trans hlow⟩

theorem completes_i2cTransfer {s : State} {r : Nat} (v : Word) (hq : s.quiet = true) (hr : r < 7) (hc : s.commands r = true) :
    Completes (.i2cTransfer r v) s [.net, .out] fun t => t.net.rx = s.net.rx ∧ t.net.n0 = s.net.n0 ∧ t.net.n1 = s.net.n1 ∧
      (s.net.i2c.flag 31 = true → t.net.i2c = s.net.i2c ∧ t.out = []) ∧
      (s.net.i2c.flag 31 = false → v.flag 31 = true → v.fld 17 7 = 0x50 ∨ v.fld 17 7 = 0x51 → t.net.i2c.flag 31 = true ∧
        t.out = [.cage (v.fld 27 1) 0x70 0 (some (v.fld 27 1 + 1)),
          .cage (v.fld 27 1) (v.fld 17 7) (v.fld 8 8) (if v.flag 26 = true then some (v.fld 0 8) else none)]) := by
  obtain ⟨houts, hsent⟩ := State.quiet_outs hq
  have hexec : exec (.i2cTransfer r v) s = .next (s.i2cWrite v).settle := done_on (by simp [Instr.wf, hr]) hc
  have hkeep : ∃ w, s.net.writeI2c v = { s.net with i2c := w } := by
    rw [NetSys.writeI2c]
    split
    · exact ⟨s.net.i2c, rfl⟩
    · exact ⟨_, rfl⟩
  obtain ⟨w, hw⟩ := hkeep
  have hnet : (s.i2cWrite v).net = { s.net with i2c := w } := by
    rw [State.i2cWrite, hw]
    dsimp only
    split <;> rfl
  have hwithin : s.Within [.net, .host] (s.i2cWrite v) := by
    rw [State.i2cWrite]
    exact .ite (fun _ => (s.within_net _).mono.trans (((State.within_host _ _).mono).trans (State.within_host _ _).mono)) fun _ => (s.within_net _).mono
  have hhost : ∃ l, (s.i2cWrite v).host = { s.host with outs := l } := by
    rw [State.i2cWrite]
    dsimp only
    split
    · exact ⟨_, rfl⟩
    · exact ⟨s.host.outs, rfl⟩
  obtain ⟨l, hl⟩ := hhost
  have hreports : (s.i2cWrite v).unitReports = s.unitReports := by
    rw [State.i2cWrite, hw]
    dsimp only
    split <;> rfl
  refine ⟨_, hexec, ⟨(congrArg NetSys.rx hnet :), (congrArg NetSys.n0 hnet :), (congrArg NetSys.n1 hnet :), fun hbusy => ?_, fun hidle hstart hdev => ?_⟩,
    ((hwithin.mono (qs := [.host, .net])).settle_outs hl fun _ => hreports).mono fun _ h => by simpa [or_comm] using h⟩
  · have hsame : s.net.writeI2c v = s.net := by rw [NetSys.writeI2c, if_pos hbusy]
    have hstate : s.i2cWrite v = s := by
      rw [State.i2cWrite, hsame]
      simp only [hbusy, not_true_eq_false, and_false, if_false]
      rfl
    rw [hstate]
    exact ⟨rfl, by simp [houts, hsent]⟩
  · obtain ⟨u, hu, h31, h27, h26, h17, h8, h0⟩ := NetSys.writeI2c_word hidle hdev
    have hstate : s.i2cWrite v = ((s.withNet fun _ => { s.net with i2c := u }).emit (.cage (v.fld 27 1) 0x70 0 (some (v.fld 27 1 + 1)))).emit
        (.cage (v.fld 27 1) (v.fld 17 7) (v.fld 8 8) (if v.flag 26 = true then some (v.fld 0 8) else none)) := by
      rw [State.i2cWrite, hu]
      simp only [h31, hstart, hidle, h27, h26, h17, h8, h0, Bool.false_eq_true, not_false_eq_true, and_self, if_true]
    rw [hstate]
    refine ⟨h31.trans hstart, ?_⟩
    simp [State.emit, houts, hsent, HostSys.emit]

theorem completes_i2cDone {s : State} (ack : Bool) {d : Nat} (hd : d < 256) (hup : s.awake = true) (hbusy : s.net.i2c.flag 31 = true) :
    Completes (.i2cDone ack d) s [.net] fun t => t.net.rx = s.net.rx ∧ t.net.n0 = s.net.n0 ∧ t.net.n1 = s.net.n1 ∧ t.net.i2c.flag 31 = false ∧
      t.net.i2c.flag 30 = !ack ∧ (ack = true → s.net.i2c.flag 26 = false → t.net.i2c.fld 0 8 = d) ∧
      (ack = false → t.net.i2c.fld 0 8 = s.net.i2c.fld 0 8) := by
  have hdone : ∃ w, s.net.i2cDone ack d = { s.net with i2c := w } ∧ w.flag 31 = false ∧ w.flag 30 = !ack ∧
      (ack = true → s.net.i2c.flag 26 = false → w.fld 0 8 = d) ∧ (ack = false → w.fld 0 8 = s.net.i2c.fld 0 8) := by
    rw [NetSys.i2cDone, hbusy]
    simp only [Bool.not_true, Bool.false_eq_true, if_false]
    set w := (s.net.i2c.setFlag 31 false).setFlag 30 (!ack) with hw
    have h31 : w.flag 31 = false := (Word.flag_setFlag_ne (by decide) (by decide) _ _).trans (Word.flag_setFlag_same (by decide) _ _)
    have h30 : w.flag 30 = !ack := Word.flag_setFlag_same (by decide) _ _
    have h26 : w.flag 26 = s.net.i2c.flag 26 :=
      (Word.flag_setFlag_ne (by decide) (by decide) _ _).trans (Word.flag_setFlag_ne (by decide) (by decide) _ _)
    have h0 : w.fld 0 8 = s.net.i2c.fld 0 8 :=
      (Word.fld_setFlag (by decide) (.inl (by decide)) _ _).trans (Word.fld_setFlag (by decide) (.inl (by decide)) _ _)
    refine ⟨_, rfl, ?_, ?_, fun hack hread => ?_, fun hnak => ?_⟩
    · split
      · exact (Word.flag_setFld_apart (by decide) (.inr (by decide)) _ _).trans h31
      · exact h31
    · split
      · exact (Word.flag_setFld_apart (by decide) (.inr (by decide)) _ _).trans h30
      · exact h30
    · rw [if_pos (by simp [hack, h26, hread]), Word.fld_setFld_same (by decide)]
      exact Nat.mod_eq_of_lt hd
    · rw [if_neg (by simp [hnak]), h0]
  obtain ⟨w, hw, h⟩ := hdone
  obtain ⟨t, hexec, rfl, hframe⟩ := completes_withNet_silent (s := s) (i := .i2cDone ack d) (f := fun n => n.i2cDone ack d)
    (done_on (by simp [Instr.wf, hd]) (by simp [hup, hbusy])) (congrArg NetSys.rep hw :) (congrArg NetSys.sent hw :)
  refine ⟨_, hexec, ?_, hframe⟩
  have hnet : (s.withNet fun n => n.i2cDone ack d).settle.net = { s.net with i2c := w, rep := [], sent := [] } := by
    rw [State.settle_net, State.withNet_net, hw]
  dsimp only
  rw [hnet]
  exact ⟨rfl, rfl, rfl, h⟩

/-! ### ARP (R330) -/

theorem NetPort.arpOf_ip {p : NetPort} {ip : Nat} {a : Arp} (h : p.arpOf ip = some a) : a.ip = ip := by
  simpa using List.find?_some h

/-- An entry that is known is replaced where it stands. -/
theorem NetPort.arpOf_setArp {p : NetPort} {ip : Nat} {a b : Arp} (h : p.arpOf ip = some a) (hip : b.ip = ip) : (p.setArp b).arpOf ip = some b := by
  have hknown : (p.arpOf b.ip).isSome = true := by rw [hip, h, Option.isSome_some]
  have hkey : (fun x : Arp => x.ip == ip) ∘ (fun x => if x.ip = b.ip then b else x) = fun x => x.ip == ip := by
    funext x
    by_cases hx : x.ip = ip <;> simp [hx, hip]
  rw [NetPort.setArp, NetPort.arpOf]
  simp only [hknown, if_true]
  rw [List.find?_map, hkey, show p.arp.find? (fun x => x.ip == ip) = some a from h, Option.map_some, if_pos (by rw [hip, NetPort.arpOf_ip h])]

/-- A port sends one ARP request for a known entry, which it keeps as `b`. -/
theorem completes_askArp {c : Instr} {s : State} {f : NetSys → NetSys} {i ip : Nat} {a b : Arp} (hi : i < 2)
    (hexec : exec c s = .next (s.withNet f).settle) (ha : (s.net.port i).arpOf ip = some a) (hb : b.ip = a.ip)
    (hf : f s.net = (s.net.setPort i ((s.net.port i).setArp b)).send i (arpRequest (s.net.port i) ip)) :
    Completes c s [.net, .out] fun t => t.net.rx = s.net.rx ∧ (∀ j, j < 2 → j ≠ i → t.net.port j = s.net.port j) ∧
      (t.net.port i).arpOf ip = some b ∧ (s.quiet = true → s.txOn = true → t.out = [arpRequest (s.net.port i) ip].map fun g => .netFrame i g) := by
  have hrep : (f s.net).rep = s.net.rep := by rw [hf, NetSys.send_rep, NetSys.setPort_rep]
  obtain ⟨t, hexec, rfl, hframe⟩ := completes_withNet hexec hrep
  have hnet : (s.withNet f).net = (s.net.setPort i ((s.net.port i).setArp b)).send i (arpRequest (s.net.port i) ip) := hf
  refine ⟨_, hexec, ⟨?_, fun j hj hne => ?_, ?_, fun hq htx => ?_⟩, hframe⟩
  · exact (congrArg NetSys.rx hnet).trans ((NetSys.send_rx ..).trans (NetSys.setPort_rx ..))
  · exact (congrArg (fun n => NetSys.port n j) hnet).trans ((NetSys.port_send_other hi hj hne ..).trans (NetSys.port_setPort_other hi hj hne ..))
  · have hport : (s.withNet f).settle.net.port i = (f s.net).port i := rfl
    rw [hport, hf, NetSys.port_send_same, NetSys.port_setPort_same]
    exact NetPort.arpOf_setArp ha (hb.trans (NetPort.arpOf_ip ha))
  · exact State.settle_out_sent (x := s.withNet f) hq htx rfl rfl ((congrArg NetSys.sent hnet).trans (congrArg (· ++ _) (NetSys.setPort_sent ..)))

theorem completes_gratuitousArp {s : State} {i : Nat} (hi : i < 2) (hup : s.netUp = true) (hgarp : (s.net.port i).garp = true)
    (hlink : (s.net.port i).link = true) :
    Completes (.gratuitousArp i) s [.net, .out] fun t => t.net.rx = s.net.rx ∧ (∀ j, j < 2 → j ≠ i → t.net.port j = s.net.port j) ∧
      (t.net.port i).garp = false ∧
      (s.quiet = true → s.txOn = true → t.out = [arpRequest (s.net.port i) (s.net.port i).ip.toNat].map fun f => .netFrame i f) := by
  have hf : s.net.garpAgain i = (s.net.setPort i { s.net.port i with garp := false }).send i (arpRequest (s.net.port i) (s.net.port i).ip.toNat) := by
    rw [NetSys.garpAgain]
    exact if_pos (by rw [hgarp, hlink, Bool.and_self])
  have hrep : (s.net.garpAgain i).rep = s.net.rep := by rw [hf, NetSys.send_rep, NetSys.setPort_rep]
  obtain ⟨t, hexec, rfl, hframe⟩ := completes_withNet (s := s) (i := .gratuitousArp i) (f := fun n => n.garpAgain i)
    (done_on (by simp [Instr.wf, hi]) (by simp [hup, hgarp])) hrep
  refine ⟨_, hexec, ⟨?_, fun j hj hne => ?_, ?_, fun hq htx => ?_⟩, hframe⟩
  · exact (congrArg NetSys.rx hf :).trans ((NetSys.send_rx ..).trans (NetSys.setPort_rx ..))
  · exact (congrArg (fun n => NetSys.port n j) hf :).trans ((NetSys.port_send_other hi hj hne ..).trans (NetSys.port_setPort_other hi hj hne ..))
  · have hport : (s.withNet fun n => n.garpAgain i).settle.net.port i = (s.net.garpAgain i).port i := rfl
    rw [hport, hf, NetSys.port_send_same, NetSys.port_setPort_same]
  · exact State.settle_out_sent (x := s.withNet fun n => n.garpAgain i) hq htx rfl rfl ((congrArg NetSys.sent hf :).trans (congrArg (· ++ _) (NetSys.setPort_sent ..)))

theorem completes_arpRefresh {s : State} {i ip : Nat} {a : Arp} (hi : i < 2) (hip : ip < 2 ^ 32) (hup : s.netUp = true)
    (ha : (s.net.port i).arpOf ip = some a) (hmac : a.mac.isSome = true) (hasked : a.asked = none) (hage : a.at_ + 60000000 ≤ s.us) :
    Completes (.arpRefresh i ip) s [.net, .out] fun t => t.net.rx = s.net.rx ∧ (∀ j, j < 2 → j ≠ i → t.net.port j = s.net.port j) ∧
      (t.net.port i).arpOf ip = some { a with asked := some s.us, lastReq := s.us } ∧
      (s.quiet = true → s.txOn = true → t.out = [arpRequest (s.net.port i) ip].map fun g => .netFrame i g) := by
  refine completes_askArp (f := fun n => n.arpRefresh i ip s.us) hi (done_on (by simpa [Instr.wf, hi] using hip) hup) ha rfl ?_
  simp only [NetSys.arpRefresh, ha, hmac, hasked, hage, Option.isNone_none, decide_true, Bool.and_self, if_true]

theorem completes_arpRetry {s : State} {i ip : Nat} {a : Arp} (hi : i < 2) (hip : ip < 2 ^ 32) (hup : s.netUp = true)
    (ha : (s.net.port i).arpOf ip = some a) (hasked : a.asked.isSome = true) (hage : a.lastReq + 1000000 ≤ s.us)
    (hhop : ((s.net.port i).nextHop ip).isSome = true) :
    Completes (.arpRetry i ip) s [.net, .out] fun t => t.net.rx = s.net.rx ∧ (∀ j, j < 2 → j ≠ i → t.net.port j = s.net.port j) ∧
      (t.net.port i).arpOf ip = some { a with lastReq := s.us } ∧
      (s.quiet = true → s.txOn = true → t.out = [arpRequest (s.net.port i) ip].map fun g => .netFrame i g) := by
  refine completes_askArp (f := fun n => n.arpRetry i ip s.us) hi (done_on (by simpa [Instr.wf, hi] using hip) hup) ha rfl ?_
  simp only [NetSys.arpRetry, ha, hasked, hage, hhop, decide_true, Bool.and_self, if_true]

theorem completes_arpUnresolved {s : State} {i ip u : Nat} {a : Arp} (hi : i < 2) (hip : ip < 2 ^ 32) (hup : s.netUp = true)
    (ha : (s.net.port i).arpOf ip = some a) (hasked : a.asked = some u) (hage : u + 3000000 ≤ s.us) (hraised : a.raised = false) :
    Completes (.arpUnresolved i ip) s [.net, .reports] fun t => t.net.rx = s.net.rx ∧ (∀ j, j < 2 → j ≠ i → t.net.port j = s.net.port j) ∧
      (t.net.port i).arpOf ip = some { a with mac := none, raised := true } ∧ ⟨0x701, 6, i, 3, false, false, 0⟩ ∈ t.health.flying := by
  have hf : s.net.arpUnresolved i ip s.us =
      (s.net.setPort i ((s.net.port i).setArp { a with mac := none, raised := true })).note 0x0701 6 i 3 false := by
    simp only [NetSys.arpUnresolved, ha, hasked, hage, hraised, decide_true, Bool.not_false, Bool.and_self, if_true]
  have hsent : (s.net.arpUnresolved i ip s.us).sent = s.net.sent := by
    rw [hf]
    exact NetSys.setPort_sent ..
  obtain ⟨t, hexec, rfl, hframe⟩ := completes_withNet_noted (s := s) (i := .arpUnresolved i ip) (f := fun n => n.arpUnresolved i ip s.us)
    (done_on (by simpa [Instr.wf, hi] using hip) hup) hsent
  refine ⟨_, hexec, ⟨?_, fun j hj hne => ?_, ?_, ?_⟩, hframe⟩
  · exact (congrArg NetSys.rx hf :).trans (NetSys.setPort_rx ..)
  · exact (congrArg (fun n => NetSys.port n j) hf :).trans (NetSys.port_setPort_other hi hj hne ..)
  · have hport : (s.withNet fun n => n.arpUnresolved i ip s.us).settle.net.port i = (s.net.arpUnresolved i ip s.us).port i := rfl
    rw [hport, hf, NetSys.note_port, NetSys.port_setPort_same]
    exact NetPort.arpOf_setArp ha (NetPort.arpOf_ip ha :)
  · exact State.mem_flying_of_net (r := ⟨0x701, 6, i, 3, false⟩) (by rw [State.withNet_net, hf]; exact NetSys.mem_note ..)

/-! ### IGMP (R332) -/

theorem completes_igmpQueryResponse {s : State} {i : Nat} (hi : i < 2) (hup : s.netUp = true) (hqueries : (s.net.port i).queries ≠ []) :
    Completes (.igmpQueryResponse i) s [.net, .out] fun t => t.net.rx = s.net.rx ∧ (∀ j, j < 2 → j ≠ i → t.net.port j = s.net.port j) ∧
      (t.net.port i).queries = (s.net.port i).queries.tail ∧ (t.net.port i).resend = (s.net.port i).resend := by
  obtain ⟨q, r, hqr⟩ := List.exists_cons_of_ne_nil hqueries
  obtain ⟨fs, hf⟩ : ∃ fs, s.net.igmpAnswer i = (s.net.setPort i { s.net.port i with queries := r }).sendAll i fs := by
    rw [NetSys.igmpAnswer]
    simp only [hqr]
    exact ⟨_, rfl⟩
  obtain ⟨hrx, -, -, hrep, -, ⟨w, hport⟩, hother⟩ := (s.net.setPort i { s.net.port i with queries := r }).sendAll_keeps i fs
  rw [NetSys.port_setPort_same] at hport
  obtain ⟨t, hexec, rfl, hframe⟩ := completes_withNet (s := s) (i := .igmpQueryResponse i) (f := fun n => n.igmpAnswer i)
    (done_on (by simp [Instr.wf, hi]) (by simp [hup, hqueries])) (by rw [hf, hrep, NetSys.setPort_rep])
  refine ⟨_, hexec, ⟨?_, fun j hj hne => ?_, ?_, ?_⟩, hframe⟩
  · exact (congrArg NetSys.rx hf :).trans (hrx.trans (NetSys.setPort_rx ..))
  · exact (congrArg (fun n => NetSys.port n j) hf :).trans ((hother hi j hj hne).trans (NetSys.port_setPort_other hi hj hne ..))
  · rw [hqr]
    exact (congrArg (fun n => (NetSys.port n i).queries) hf :).trans (congrArg NetPort.queries hport :)
  · exact (congrArg (fun n => (NetSys.port n i).resend) hf :).trans (congrArg NetPort.resend hport :)

theorem completes_igmpReportRetransmit {s : State} {i : Nat} (hi : i < 2) (hup : s.netUp = true) (hresend : (s.net.port i).resend ≠ []) :
    Completes (.igmpReportRetransmit i) s [.net, .out] fun t => t.net.rx = s.net.rx ∧ (∀ j, j < 2 → j ≠ i → t.net.port j = s.net.port j) ∧
      (t.net.port i).resend = ((s.net.port i).resend.filter fun r => decide (1 < r.left)).map (fun r => { r with left := r.left - 1 }) ∧
      (s.quiet = true → s.txOn = true →
        t.out = (igmpReport (s.net.port i) ((s.net.port i).resend.map fun r => (r.typ, r.grp, r.srcs))).map fun f => .netFrame i f) := by
  set fs := igmpReport (s.net.port i) ((s.net.port i).resend.map fun r => (r.typ, r.grp, r.srcs)) with hfs
  obtain ⟨hrx, -, -, hrep, hsent, ⟨w, hport⟩, hother⟩ := s.net.sendAll_keeps i fs
  have hf : s.net.igmpResend i = (s.net.sendAll i fs).modPort i fun p =>
      { p with resend := (p.resend.filter fun r => 1 < r.left).map fun r => { r with left := r.left - 1 } } := by
    rw [NetSys.igmpResend]
    simp only [List.isEmpty_iff, hresend, if_false]
    rfl
  obtain ⟨t, hexec, rfl, hframe⟩ := completes_withNet (s := s) (i := .igmpReportRetransmit i) (f := fun n => n.igmpResend i)
    (done_on (by simp [Instr.wf, hi]) (by simp [hup, hresend])) (by rw [hf, NetSys.modPort, NetSys.setPort_rep, hrep])
  refine ⟨_, hexec, ⟨?_, fun j hj hne => ?_, ?_, fun hq htx => ?_⟩, hframe⟩
  · exact (congrArg NetSys.rx hf :).trans ((NetSys.setPort_rx ..).trans hrx)
  · exact (congrArg (fun n => NetSys.port n j) hf :).trans ((NetSys.port_setPort_other hi hj hne ..).trans (hother hi j hj hne))
  · have hp : (s.withNet fun n => n.igmpResend i).settle.net.port i = (s.net.igmpResend i).port i := rfl
    rw [hp, hf, NetSys.modPort, NetSys.port_setPort_same, hport]
  · have hout := State.settle_out_sent (x := s.withNet fun n => n.igmpResend i) hq htx rfl rfl
      ((congrArg NetSys.sent hf :).trans ((NetSys.setPort_sent ..).trans hsent))
    rw [hout, List.map_map]
    rfl

theorem completes_igmpCompatTimeout {s : State} {i : Nat} (hi : i < 2) (hup : s.netUp = true) (hcompat : (s.net.port i).compat ≠ none) :
    Completes (.igmpCompatTimeout i) s [.net] fun t => (∀ j, j < 2 → j ≠ i → t.net.port j = s.net.port j) ∧
      t.net.port i = { s.net.port i with compat := none } ∧ t.net.rx = s.net.rx := by
  obtain ⟨t, hexec, rfl, hframe⟩ := completes_withNet_silent (s := s) (i := .igmpCompatTimeout i) (f := fun n => n.igmpCompatEnd i)
    (done_on (by simp [Instr.wf, hi]) (by simp [hup, Option.isSome_iff_ne_none, hcompat])) (NetSys.setPort_rep ..) (NetSys.setPort_sent ..)
  exact ⟨_, hexec, ⟨fun j hj hne => NetSys.port_setPort_other hi hj hne .., NetSys.port_setPort_same .., NetSys.setPort_rx ..⟩, hframe⟩

/-- Settles O41: each command changes its own port, and puts on its wire the frames that the rule names. -/
theorem networkPortCommands : Obligations.NetworkPortCommands := by
  unfold Obligations.NetworkPortCommands
  refine ⟨fun s i hi hup hlink => ?_, fun s i los blk ber hi hup hlink => completes_linkDown los blk ber hi hup hlink,
    fun s r v hq hr hc => completes_i2cTransfer v hq hr hc, fun s ack d hd hup hbusy => completes_i2cDone ack hd hup hbusy,
    fun s i hi hup hgarp hlink => completes_gratuitousArp hi hup hgarp hlink,
    fun s i ip a hi hip hup ha hmac hasked hage => completes_arpRefresh hi hip hup ha hmac hasked hage,
    fun s i ip a hi hip hup ha hasked hage hhop => completes_arpRetry hi hip hup ha hasked hage hhop,
    fun s i ip a u hi hip hup ha hasked hage hraised => completes_arpUnresolved hi hip hup ha hasked hage hraised,
    fun s i hi hup hqueries => completes_igmpQueryResponse hi hup hqueries,
    fun s i hi hup hresend => completes_igmpReportRetransmit hi hup hresend,
    fun s i hi hup hcompat => completes_igmpCompatTimeout hi hup hcompat⟩
  obtain ⟨t, hexec, ⟨hrx, htx, hup', hgarp, hother, hrep, hout⟩, hframe⟩ := completes_linkUp hi hup hlink
  exact ⟨t, hexec, ⟨hrx, htx, hup', hgarp, hother, hrep, hout⟩, hframe⟩

end Sys2Proof.Machine

/-!
SUPPORT. Streams: what a packet puts into a receive context, lost legs and streams, departures (R338, R342 to R347), and frames that reach no
context (R327).
-/

namespace Sys2Proof.Machine

/-! ### Contexts of the network block -/

theorem NetSys.rxc_setRx {n : NetSys} (hwf : Memory.wf (fun _ => RxCtx.reset) n.rx = true) (i j : Nat) (c : RxCtx) :
    (n.setRx i c).rxc j = if j = i then c else n.rxc j := Memory.get_set _ _ _ _ _ hwf

theorem NetSys.txc_setTx {n : NetSys} (hwf : Memory.wf (fun _ => TxCtx.reset) n.tx = true) (i j : Nat) (c : TxCtx) :
    (n.setTx i c).txc j = if j = i then c else n.txc j := Memory.get_set _ _ _ _ _ hwf

theorem State.unitsWf_ctxs {s : State} (h : s.unitsWf = true) :
    Memory.wf (fun _ => RxCtx.reset) s.net.rx = true ∧ Memory.wf (fun _ => TxCtx.reset) s.net.tx = true := by
  simp only [State.unitsWf, Bool.and_eq_true, and_assoc] at h
  obtain ⟨-, -, -, -, -, -, hrx, htx, -⟩ := h
  exact ⟨hrx, htx⟩

/-! ### The buffer of a receive context (R342, R343) -/

/-- R342: the timestamp of sample `k` of a packet. -/
def Rtp.stamp (r : Rtp) (k : Nat) : Nat := (r.ts + k) % 2 ^ 32

/-- Whether the sample of timestamp `t` has arrived. -/
def RxCtx.has (c : RxCtx) (t : Nat) : Bool := (Memory.get (fun _ => none) c.buf t).isSome

/-- R343: the buffer once a packet has arrived: the samples of both legs, of each the first that came. -/
def RxCtx.filled (c : RxCtx) (r : Rtp) : Memory (Option (List Nat)) :=
  (List.range c.ptime).foldl (fun b k =>
    if c.has (r.stamp k) then b else Memory.set (fun _ => none) b (r.stamp k) (some (sampleWords c r.data k))) c.buf

theorem Memory.get_foldl_unless {α : Type} [DecidableEq α] {d : Nat → α} (have_ : Nat → Bool) (at_ : Nat → Nat) (v : Nat → α) (l : List Nat)
    (b : Memory α) {t : Nat} (h : ∀ k ∈ l, at_ k = t → have_ k = true) :
    Memory.get d (l.foldl (fun b k => if have_ k then b else Memory.set d b (at_ k) (v k)) b) t = Memory.get d b t := by
  induction l generalizing b with
  | nil => rfl
  | cons k r ih =>
    rw [List.foldl_cons, ih _ fun j hj => h j (List.mem_cons_of_mem k hj)]
    split
    · rfl
    · next hk => exact Memory.get_set_other _ _ _ _ _ fun ht => hk (h k List.mem_cons_self ht.symm)

theorem Memory.wf_foldl_unless {α : Type} [DecidableEq α] {d : Nat → α} (have_ : Nat → Bool) (at_ : Nat → Nat) (v : Nat → α) (l : List Nat)
    {b : Memory α} (h : Memory.wf d b = true) :
    Memory.wf d (l.foldl (fun b k => if have_ k then b else Memory.set d b (at_ k) (v k)) b) = true := by
  induction l generalizing b with
  | nil => exact h
  | cons k r ih =>
    refine ih ?_
    dsimp only
    split
    · exact h
    · exact Memory.wf_set _ _ _ _ h

/-- A sample that has arrived stays. -/
theorem RxCtx.get_filled_of_has {c : RxCtx} {t : Nat} (r : Rtp) (h : c.has t = true) :
    Memory.get (fun _ => none) (c.filled r) t = Memory.get (fun _ => none) c.buf t :=
  Memory.get_foldl_unless _ r.stamp _ _ _ fun _ _ ht => ht ▸ h

/-- Every sample of the packet stands at its timestamp: the one that was there, or its own. -/
theorem RxCtx.get_filled_stamp {c : RxCtx} (r : Rtp) (hwf : Memory.wf (fun _ => none) c.buf = true) (hptime : c.ptime ≤ 2 ^ 32) {k : Nat}
    (hk : k < c.ptime) :
    Memory.get (fun _ => none) (c.filled r) (r.stamp k) = some ((Memory.get (fun _ => none) c.buf (r.stamp k)).getD (sampleWords c r.data k)) := by
  by_cases hhas : c.has (r.stamp k) = true
  · rw [RxCtx.get_filled_of_has r hhas]
    obtain ⟨ws, hws⟩ := Option.isSome_iff_exists.mp hhas
    rw [hws, Option.getD_some]
  · have hnone : Memory.get (fun _ => none) c.buf (r.stamp k) = none := by simpa [RxCtx.has] using hhas
    obtain ⟨m, hm⟩ : ∃ m, c.ptime = k + 1 + m := ⟨c.ptime - (k + 1), by omega⟩
    have hlast : ∀ j ∈ (List.range m).map (k + 1 + ·), r.stamp j = r.stamp k → c.has (r.stamp j) = true := by
      intro j hj hstamp
      obtain ⟨x, hx, rfl⟩ := List.mem_map.mp hj
      have hxm := List.mem_range.mp hx
      simp only [Rtp.stamp] at hstamp
      omega
    rw [RxCtx.filled, hm, List.range_add, List.foldl_append, Memory.get_foldl_unless _ r.stamp _ _ _ hlast, List.range_succ, List.foldl_append,
      List.foldl_cons, List.foldl_nil, if_neg hhas, Memory.get_set_same _ _ _ _ (Memory.wf_foldl_unless _ r.stamp _ _ hwf), hnone, Option.getD_none]

/-! ### A packet (R338, R341 to R343) -/

/-- What a packet changes of the receive contexts: nothing, or context `n` alone, whose buffer stays or takes the packet. -/
theorem NetSys.rtpRx_rx (s : NetSys) (doms : Nat → Dom) (n i ns : Nat) (r : Rtp) :
    (s.rtpRx doms n i ns r).rx = s.rx ∨
      ∃ c, (s.rtpRx doms n i ns r).rx = (s.setRx n c).rx ∧ (c.buf = (s.rxc n).buf ∨ c.buf = (s.rxc n).filled r) := by
  rw [NetSys.rtpRx]
  refine iteInduction (motive := fun x : NetSys => x.rx = s.rx ∨
    ∃ c, x.rx = (s.setRx n c).rx ∧ (c.buf = (s.rxc n).buf ∨ c.buf = (s.rxc n).filled r)) (fun _ => .inl rfl) fun _ => .inr ?_
  refine iteInduction (motive := fun x : NetSys => ∃ c, x.rx = (s.setRx n c).rx ∧ (c.buf = (s.rxc n).buf ∨ c.buf = (s.rxc n).filled r))
    (fun _ => ⟨_, rfl, .inl rfl⟩) fun _ => ?_
  refine iteInduction (motive := fun x : NetSys => ∃ c, x.rx = (s.setRx n c).rx ∧ (c.buf = (s.rxc n).buf ∨ c.buf = (s.rxc n).filled r))
    (fun _ => ⟨_, rfl, .inl rfl⟩) fun _ => ?_
  dsimp only
  by_cases hpresent : (s.rxc n).present = true
  · rw [if_pos hpresent]
    exact ⟨_, rfl, .inr rfl⟩
  · rw [if_neg hpresent]
    exact ⟨_, rfl, .inr rfl⟩

theorem NetSys.rtpRx_unfit {s : NetSys} {n : Nat} {r : Rtp} (h : (s.rxc n).fits r = false) (doms : Nat → Dom) (i ns : Nat) :
    s.rtpRx doms n i ns r = s := by
  rw [NetSys.rtpRx]
  simp only [h, Bool.not_false, if_true]

/-- R338: whether a packet fits a context. -/
theorem RxCtx.fits_iff {c : RxCtx} {r : Rtp} :
    c.fits r = true ↔ r.pt = c.pt ∧ r.data.length = c.ch * c.ptime * fmtBytes c.fmt ∧ ∀ x, c.ssrc = some x → x = r.ssrc := by
  rw [RxCtx.fits]
  cases c.ssrc <;> simp [and_assoc]

theorem NetSys.rtpRx_keeps_samples {s : NetSys} (hrx : Memory.wf (fun _ => RxCtx.reset) s.rx = true) (doms : Nat → Dom) (n i ns : Nat) (r : Rtp)
    {t : Nat} {ws : List Nat} (h : Memory.get (fun _ => none) (s.rxc n).buf t = some ws) :
    Memory.get (fun _ => none) ((s.rtpRx doms n i ns r).rxc n).buf t = some ws := by
  obtain hsame | ⟨c, hset, hbuf⟩ := s.rtpRx_rx doms n i ns r
  · rw [NetSys.rxc, hsame]
    exact h
  · have hc : (s.rtpRx doms n i ns r).rxc n = c := by
      rw [NetSys.rxc, hset]
      exact (NetSys.rxc_setRx hrx n n c).trans (if_pos rfl)
    obtain hbuf | hbuf := hbuf
    · rw [hc, hbuf, h]
    · rw [hc, hbuf, RxCtx.get_filled_of_has r (by rw [RxCtx.has, h, Option.isSome_some]), h]

/-! ### Frames that reach no context (R327) -/

theorem State.within_at (s : State) (ns : Nat) : s.Within [.time] (s.at_ ns) :=
  ⟨rfl, fun p hp => by cases p <;> simp_all [Piece.same, State.at_]⟩

theorem State.within_stepNs (s : State) (d : Int) : s.Within [.time] (s.stepNs d) :=
  ⟨rfl, fun p hp => by cases p <;> simp_all [Piece.same, State.stepNs]⟩

theorem State.frameReceive_within (s : State) (i ns : Nat) (f : List Byte) (es : List Int) (freq : Int) :
    s.Within [.net, .clk, .time] (s.frameReceive i ns f es freq) := by
  have hstep : s.Within [.net, .clk, .time]
      (((s.at_ ns).withNet fun _ => ((s.at_ ns).net.frameRx (s.at_ ns).dom i (s.at_ ns).us ns f).1).afterPtp (s.at_ ns).ptpOk es freq) :=
    ((s.within_at ns).mono.trans (State.within_net _ _).mono).trans (State.afterPtp_within ..).mono
  exact .ite (fun _ => hstep) fun _ => hstep.trans (State.within_stepNs _ _).mono

/-- A frame that leaves the time core alone. -/
theorem State.frameReceive_plain {s : State} {i ns : Nat} {f : List Byte} {n : NetSys}
    (h : s.net.frameRx s.dom i (s.at_ ns).us ns f = (n, 0)) (hptp : n.ptp = s.net.ptp) (es : List Int) (freq : Int) :
    s.frameReceive i ns f es freq = (s.at_ ns).withNet fun _ => n := by
  have hrx : (s.at_ ns).net.frameRx (s.at_ ns).dom i (s.at_ ns).us ns f = (n, 0) := h
  have hok : ((s.at_ ns).withNet fun _ => n).ptpOk = (s.at_ ns).ptpOk := congrArg PtpSys.ok hptp
  rw [State.frameReceive]
  simp only [hrx, if_true]
  exact State.afterPtp_same hok es freq

theorem exec_frameReceive {s : State} {i : Nat} {es : List Int} (hi : i < 2) (hes : es.length = 3) (hup : s.netUp = true) (ns : Nat) (f : List Byte)
    (freq : Int) : exec (.frameReceive i ns f es freq) s = .next (s.frameReceive i ns f es freq).settle :=
  done_on (by simp [Instr.wf, hi, hes]) hup

theorem NetSys.frameRx_closed {n : NetSys} {i : Nat} (h : (n.port i).en = false ∨ (n.port i).link = false) (doms : Nat → Dom) (now ns : Nat)
    (f : List Byte) : n.frameRx doms i now ns f = (n, 0) := by
  rw [NetSys.frameRx]
  exact if_pos (by simpa using h)

theorem NetSys.frameRx_badFcs {n : NetSys} {i : Nat} {f : List Byte} (hen : (n.port i).en = true) (hlink : (n.port i).link = true)
    (h : parseEth (n.port i) f = .error .fcs) (doms : Nat → Dom) (now ns : Nat) :
    n.frameRx doms i now ns f = (n.setPort i { n.port i with rxFcs := (n.port i).rxFcs + 1 }, 0) := by
  rw [NetSys.frameRx]
  simp only [h]
  exact if_neg (by simp [hen, hlink])

theorem NetSys.frameRx_malformed {n : NetSys} {i : Nat} {f : List Byte} (hen : (n.port i).en = true) (hlink : (n.port i).link = true)
    (h : parseEth (n.port i) f = .error .other) (doms : Nat → Dom) (now ns : Nat) :
    n.frameRx doms i now ns f = (n.setPort i { n.port i with rxDrop := (n.port i).rxDrop + 1 }, 0) := by
  rw [NetSys.frameRx]
  simp only [h]
  exact if_neg (by simp [hen, hlink])

/-! ### Lost legs and streams (R343, R347) -/

theorem NetSys.legLoss_lost {n : NetSys} {k i ns : Nat} (hused : (n.rxc k).used = true) (hok : leg (n.rxc k).legOk i = true)
    (hlost : (n.port i).link = false ∨ leg (n.rxc k).lastNs i + 1000000 ≤ ns) :
    n.legLoss k i ns = n.setRx k { n.rxc k with legOk := setLeg (n.rxc k).legOk i false } := by
  have hcond : (!(n.port i).link || decide (leg (n.rxc k).lastNs i + 1000000 ≤ ns)) = true := by simpa using hlost
  rw [NetSys.legLoss]
  simp only [hused, hok, hcond, Bool.and_self, if_true]

theorem NetSys.streamLoss_lost {n : NetSys} {k ns : Nat} (hused : (n.rxc k).used = true) (hpresent : (n.rxc k).present = true)
    (hlost : max (n.rxc k).lastNs.1 (n.rxc k).lastNs.2 + max (4 * (n.rxc k).ptime * 1000000000 / max 1 (n.rxc k).hz) 1000000 < ns) :
    n.streamLoss k ns = (n.setRx k { n.rxc k with present := false, ssrc := none, legOk := (false, false), lastSeq := none, pkts := [] }).note
      0x0703 8 k (n.rxc k).dom false := by
  have hcond : decide (max (n.rxc k).lastNs.1 (n.rxc k).lastNs.2 + (n.rxc k).holdNs < ns) = true := decide_eq_true hlost
  rw [NetSys.streamLoss]
  simp only [hused, hpresent, hcond, Bool.and_self, if_true]

theorem completes_legLoss {s : State} {n i ns : Nat} (hwf : s.unitsWf = true) (hn : n < 1024) (hi : i < 2) (hup : s.netUp = true)
    (hused : (s.net.rxc n).used = true) (hok : leg (s.net.rxc n).legOk i = true)
    (hlost : (s.net.port i).link = false ∨ leg (s.net.rxc n).lastNs i + 1000000 ≤ ns) :
    Completes (.legLoss n i ns) s [.net, .time] fun t => t.ns = ns ∧
      t.net.rxc n = { s.net.rxc n with legOk := if i = 0 then (false, (s.net.rxc n).legOk.2) else ((s.net.rxc n).legOk.1, false) } ∧
      ∀ m, m ≠ n → t.net.rxc m = s.net.rxc m := by
  have hexec : exec (.legLoss n i ns) s = .next ((s.at_ ns).withNet fun x => x.legLoss n i ns).settle := done_on (by simp [Instr.wf, hn, hi]) hup
  have hnet : s.net.legLoss n i ns = _ := NetSys.legLoss_lost hused hok hlost
  have hrxc (m : Nat) : ((s.at_ ns).withNet fun x => x.legLoss n i ns).settle.net.rxc m =
      if m = n then { s.net.rxc n with legOk := setLeg (s.net.rxc n).legOk i false } else s.net.rxc m :=
    (congrArg (fun x => NetSys.rxc x m) hnet).trans (NetSys.rxc_setRx (State.unitsWf_ctxs hwf).1 n m _)
  refine ⟨_, hexec, ⟨rfl, (hrxc n).trans (if_pos rfl), fun m hm => (hrxc m).trans (if_neg hm)⟩,
    ((s.within_at ns).mono.trans (State.within_net _ _).mono).settle (fun _ => State.unitReports_withNet (s := s.at_ ns) ?_) fun _ => ⟨rfl, rfl, ?_⟩⟩
  · exact (congrArg NetSys.rep hnet :)
  · exact (congrArg NetSys.sent hnet :)

theorem completes_streamLoss {s : State} {n ns : Nat} (hwf : s.unitsWf = true) (hn : n < 1024) (hup : s.netUp = true)
    (hused : (s.net.rxc n).used = true) (hpresent : (s.net.rxc n).present = true)
    (hlost : max (s.net.rxc n).lastNs.1 (s.net.rxc n).lastNs.2 +
      max (4 * (s.net.rxc n).ptime * 1000000000 / max 1 (s.net.rxc n).hz) 1000000 < ns) :
    Completes (.streamLoss n ns) s [.net, .reports, .time] fun t => t.ns = ns ∧ (t.net.rxc n).present = false ∧ (t.net.rxc n).ssrc = none ∧
      (t.net.rxc n).legOk = (false, false) ∧ (t.net.rxc n).buf = (s.net.rxc n).buf ∧ (∀ m, m ≠ n → t.net.rxc m = s.net.rxc m) ∧
      ⟨0x703, 8, n, domOr3 (s.net.rxc n).dom, false, false, 0⟩ ∈ t.health.flying := by
  have hexec : exec (.streamLoss n ns) s = .next ((s.at_ ns).withNet fun x => x.streamLoss n ns).settle := done_on (by simp [Instr.wf, hn]) hup
  have hnet : s.net.streamLoss n ns = _ := NetSys.streamLoss_lost hused hpresent hlost
  have hrxc (m : Nat) : ((s.at_ ns).withNet fun x => x.streamLoss n ns).settle.net.rxc m = if m = n then
      { s.net.rxc n with present := false, ssrc := none, legOk := (false, false), lastSeq := none, pkts := [] } else s.net.rxc m :=
    (congrArg (fun x => NetSys.rxc x m) hnet).trans (NetSys.rxc_setRx (State.unitsWf_ctxs hwf).1 n m _)
  have hn' := (hrxc n).trans (if_pos rfl)
  refine ⟨_, hexec, ⟨rfl, congrArg RxCtx.present hn', congrArg RxCtx.ssrc hn', congrArg RxCtx.legOk hn', (congrArg RxCtx.buf hn' :),
    fun m hm => (hrxc m).trans (if_neg hm), ?_⟩,
    ((s.within_at ns).mono.trans (State.within_net _ _).mono).settle (fun h => absurd (by decide) h) fun _ => ⟨rfl, rfl, ?_⟩⟩
  · exact State.mem_flying_of_net (r := ⟨0x703, 8, n, (s.net.rxc n).dom, false⟩) (by
      rw [State.withNet_net]
      exact hnet ▸ NetSys.mem_note ..)
  · exact (congrArg NetSys.sent hnet :)

end Sys2Proof.Machine

/-!
SUPPORT. The departure of a packet (R338, R344, R345), and the commands of the stream contexts.
-/

namespace Sys2Proof.Machine

/-- R345: the packet `rtp` of context `i`, which is `c`, on leg `l`. -/
def NetSys.departOn (i now : Nat) (on : Bool) (c : TxCtx) (rtp : List Byte) (s : NetSys) (l : Nat) : NetSys :=
  let p := s.port l
  if !c.ports.testBit l then s
  else if !on || !p.en || !p.link then s.setTx i { s.txc i with late := incSat 0xFFFF (s.txc i).late }
  else match p.resolve (leg c.addr l) with
    | some mac => s.send l (ethFrame p mac 0x0800 (ipv4 p (c.dscp * 4) 17 (leg c.addr l) [] (udp p (leg c.addr l) (leg c.udp l) (leg c.udp l) rtp)))
    | none => s.wantArp l (leg c.addr l) now

/-- R338: the RTP packet of a context's packet `k` with sequence number `q`. -/
def TxCtx.rtp (c : TxCtx) (k : TxPkt) (q : Nat) : List Byte :=
  beBytes 1 0x80 ++ beBytes 1 c.pt ++ beBytes 2 q ++ beBytes 4 k.ts ++ beBytes 4 c.ssrc ++ k.payload

/-- R344: a context whose oldest packet has departed with sequence number `q`; `late` counts the packets that left out of time. -/
def TxCtx.departed (c : TxCtx) (rest : List TxPkt) (q late : Nat) : TxCtx := { c with ready := rest, seq := some ((q + 1) % 65536), late := late }

theorem NetSys.depart_eq {n : NetSys} {i q : Nat} {k : TxPkt} {rest : List TxPkt} (hready : (n.txc i).ready = k :: rest)
    (hseq : (n.txc i).seq = some q) (doms : Nat → Dom) (ns now seq0 : Nat) (on : Bool) :
    ∃ late, n.depart doms i ns now seq0 on =
      [0, 1].foldl (NetSys.departOn i now on ((n.txc i).departed rest q late) ((n.txc i).rtp k q)) (n.setTx i ((n.txc i).departed rest q late)) := by
  rw [NetSys.depart]
  simp only [hready, hseq]
  exact ⟨_, rfl⟩

theorem NetSys.wantArp_keeps (n : NetSys) (i dst now : Nat) :
    (n.wantArp i dst now).rx = n.rx ∧ (n.wantArp i dst now).tx = n.tx ∧ (n.wantArp i dst now).rep = n.rep := by
  rw [NetSys.wantArp]
  split
  · split
    · exact ⟨rfl, rfl, rfl⟩
    · exact ⟨(NetSys.send_rx ..).trans (NetSys.setPort_rx ..), (NetSys.send_tx ..).trans (NetSys.setPort_tx ..),
        (NetSys.send_rep ..).trans (NetSys.setPort_rep ..)⟩
  · split
    · exact ⟨rfl, rfl, rfl⟩
    · exact ⟨NetSys.setPort_rx .., NetSys.setPort_tx .., NetSys.setPort_rep ..⟩

/-- What a departure on one leg leaves: receive contexts, reports, the other transmit contexts, and of its own the packets and the sequence
number. -/
structure NetSys.DepartKeeps (i : Nat) (n n' : NetSys) : Prop where
  rx : n'.rx = n.rx
  rep : n'.rep = n.rep
  wf : Memory.wf (fun _ => TxCtx.reset) n.tx = true → Memory.wf (fun _ => TxCtx.reset) n'.tx = true
  other : ∀ m, m ≠ i → n'.txc m = n.txc m
  ready : Memory.wf (fun _ => TxCtx.reset) n.tx = true → (n'.txc i).ready = (n.txc i).ready
  seq : Memory.wf (fun _ => TxCtx.reset) n.tx = true → (n'.txc i).seq = (n.txc i).seq

theorem NetSys.DepartKeeps.of_tx {i : Nat} {n n' : NetSys} (hrx : n'.rx = n.rx) (hrep : n'.rep = n.rep) (htx : n'.tx = n.tx) :
    NetSys.DepartKeeps i n n' := by
  have htxc (m : Nat) : n'.txc m = n.txc m := by rw [NetSys.txc, htx, NetSys.txc]
  exact ⟨hrx, hrep, fun h => by rw [htx]; exact h, fun m _ => htxc m, fun _ => by rw [htxc], fun _ => by rw [htxc]⟩

theorem NetSys.DepartKeeps.trans {i : Nat} {n n' n'' : NetSys} (h : NetSys.DepartKeeps i n n') (h' : NetSys.DepartKeeps i n' n'') :
    NetSys.DepartKeeps i n n'' :=
  ⟨h'.rx.trans h.rx, h'.rep.trans h.rep, fun hw => h'.wf (h.wf hw), fun m hm => (h'.other m hm).trans (h.other m hm),
    fun hw => (h'.ready (h.wf hw)).trans (h.ready hw), fun hw => (h'.seq (h.wf hw)).trans (h.seq hw)⟩

theorem NetSys.departOn_keeps (i now : Nat) (on : Bool) (c : TxCtx) (rtp : List Byte) (n : NetSys) (l : Nat) :
    NetSys.DepartKeeps i n (n.departOn i now on c rtp l) := by
  rw [NetSys.departOn]
  dsimp only
  split
  · exact .of_tx rfl rfl rfl
  · split
    · exact ⟨rfl, rfl, fun hw => Memory.wf_set _ _ _ _ hw, fun m hm => Memory.get_set_other _ _ _ _ _ hm,
        fun hw => (congrArg TxCtx.ready ((NetSys.txc_setTx hw i i _).trans (if_pos rfl)) :),
        fun hw => (congrArg TxCtx.seq ((NetSys.txc_setTx hw i i _).trans (if_pos rfl)) :)⟩
    · split
      · exact .of_tx (NetSys.send_rx ..) (NetSys.send_rep ..) (NetSys.send_tx ..)
      · exact .of_tx (n.wantArp_keeps ..).1 (n.wantArp_keeps ..).2.2 (n.wantArp_keeps ..).2.1

/-- R300: a leg that may not transmit sends nothing. -/
theorem NetSys.departOn_off_sent (i now : Nat) (c : TxCtx) (rtp : List Byte) (n : NetSys) (l : Nat) :
    (n.departOn i now false c rtp l).sent = n.sent := by
  rw [NetSys.departOn]
  dsimp only
  split
  · rfl
  · rfl

/-- R345: on an open leg of a group address the packet leaves to the group's MAC address. -/
theorem NetSys.departOn_group {i now : Nat} {c : TxCtx} {rtp : List Byte} {n : NetSys} {l : Nat} (hleg : c.ports.testBit l = true)
    (hen : (n.port l).en = true) (hlink : (n.port l).link = true) (hgroup : isGroup (leg c.addr l) = true) :
    n.departOn i now true c rtp l = n.send l (ethFrame (n.port l) (groupMac (leg c.addr l)) 0x0800
      (ipv4 (n.port l) (c.dscp * 4) 17 (leg c.addr l) [] (udp (n.port l) (leg c.addr l) (leg c.udp l) (leg c.udp l) rtp))) := by
  have hmac : (n.port l).resolve (leg c.addr l) = some (groupMac (leg c.addr l)) := if_pos hgroup
  rw [NetSys.departOn]
  simp only [hmac, hleg, Bool.not_true, Bool.false_eq_true, if_false]
  exact if_neg (by simp [hen, hlink])

theorem NetSys.departOn_unused {i now : Nat} {on : Bool} {c : TxCtx} {rtp : List Byte} {n : NetSys} {l : Nat} (hleg : c.ports.testBit l = false) :
    n.departOn i now on c rtp l = n := by
  rw [NetSys.departOn]
  simp only [hleg, Bool.not_false, if_true]

theorem completes_packetDeparture {s : State} {n ns q : Nat} {k : TxPkt} {rest : List TxPkt} (hwf : s.unitsWf = true) (hn : n < 1024)
    (hup : s.netUp = true) (hready : (s.net.txc n).ready = k :: rest) (hseq : (s.net.txc n).seq = some q) :
    Completes (.packetDeparture n ns) s [.net, .out, .free, .time] fun t => let c := s.net.txc n
      t.ns = ns ∧ (t.net.txc n).ready = rest ∧ (t.net.txc n).seq = some ((q + 1) % 65536) ∧ t.net.rx = s.net.rx ∧
      (∀ m, m ≠ n → t.net.txc m = s.net.txc m) ∧ (s.quiet = true → s.clk.rescue = true → t.out = []) ∧
      (s.quiet = true → s.txOn = true → s.clk.rescue = false → c.ports = 1 → s.net.n0.en = true → s.net.n0.link = true → isGroup c.addr.1 = true →
        t.out = [.netFrame 0 (ethFrame s.net.n0 (groupMac c.addr.1) 0x0800 (ipv4 s.net.n0 (c.dscp * 4) 17 c.addr.1 []
          (udp s.net.n0 c.addr.1 c.udp.1 c.udp.1 (c.rtp k q))))]) := by
  obtain ⟨late, hdepart⟩ := NetSys.depart_eq hready hseq (s.at_ ns).dom ns (s.at_ ns).us (Config.freeNat s.free) (!s.clk.rescue)
  have hexec : exec (.packetDeparture n ns) s = .next (s.depart n ns).settle := done_on (by simp [Instr.wf, hn]) (by simp [hup, hready])
  set c := (s.net.txc n).departed rest q late with hc
  have hnet : (s.depart n ns).net =
      [0, 1].foldl (NetSys.departOn n (s.at_ ns).us (!s.clk.rescue) c ((s.net.txc n).rtp k q)) (s.net.setTx n c) := hdepart
  have htx := (State.unitsWf_ctxs hwf).2
  have hset (m : Nat) : (s.net.setTx n c).txc m = if m = n then c else s.net.txc m := NetSys.txc_setTx htx n m c
  have hkeeps : NetSys.DepartKeeps n (s.net.setTx n c) (s.depart n ns).net := by
    rw [hnet]
    exact (NetSys.departOn_keeps ..).trans (NetSys.departOn_keeps ..)
  have hsetwf : Memory.wf (fun _ => TxCtx.reset) (s.net.setTx n c).tx = true := Memory.wf_set _ _ _ _ htx
  have hwithin : s.Within [.net, .free, .time] (s.depart n ns) :=
    ((s.within_at ns).mono.trans ((s.at_ ns).take_within 1).mono).trans (State.within_net _ _).mono
  have hreports : (s.depart n ns).unitReports = s.unitReports :=
    State.unitReports_withNet (s := ((s.at_ ns).take 1).2) (f := fun x => x.depart ((s.at_ ns).take 1).2.dom n ns ((s.at_ ns).take 1).2.us
      (Config.freeNat ((s.at_ ns).take 1).1) (!((s.at_ ns).take 1).2.clk.rescue)) hkeeps.rep
  refine ⟨_, hexec, ⟨rfl, ?_, ?_, hkeeps.rx, fun m hm => ?_, fun hq hrescue => ?_, fun hq htxOn hrescue hports hen hlink hgroup => ?_⟩,
    hwithin.mono.settle (fun _ => hreports) fun h => absurd (by decide) h⟩
  · exact (hkeeps.ready hsetwf).trans (congrArg TxCtx.ready ((hset n).trans (if_pos rfl)))
  · exact (hkeeps.seq hsetwf).trans (congrArg TxCtx.seq ((hset n).trans (if_pos rfl)))
  · exact (hkeeps.other m hm).trans ((hset m).trans (if_neg hm))
  · obtain ⟨houts, hsent⟩ := State.quiet_outs hq
    have hnone : (s.depart n ns).net.sent = [] := by
      rw [hnet, hrescue, List.foldl_cons, List.foldl_cons, List.foldl_nil, Bool.not_true, NetSys.departOn_off_sent, NetSys.departOn_off_sent]
      exact hsent
    have hhost : (s.depart n ns).host.outs = [] := houts
    rw [State.settle_out, hnone, hhost]
    split <;> rfl
  · have hbit0 : c.ports.testBit 0 = true := by rw [show c.ports = 1 from hports]; rfl
    have hbit1 : c.ports.testBit 1 = false := by rw [show c.ports = 1 from hports]; rfl
    have hone : (s.depart n ns).net = (s.net.setTx n c).send 0 (ethFrame s.net.n0 (groupMac c.addr.1) 0x0800 (ipv4 s.net.n0 (c.dscp * 4) 17 c.addr.1 []
        (udp s.net.n0 c.addr.1 c.udp.1 c.udp.1 ((s.net.txc n).rtp k q)))) := by
      rw [hnet, hrescue, List.foldl_cons, List.foldl_cons, List.foldl_nil, Bool.not_false, NetSys.departOn_unused hbit1,
        NetSys.departOn_group (n := s.net.setTx n c) hbit0 hen hlink hgroup]
      rfl
    exact State.settle_out_sent hq htxOn (State.txOn_of_within hwithin (by decide) (by decide)) rfl (congrArg NetSys.sent hone)

/-- Settles O42: samples that have arrived stay, and each command changes its own context and sends what the rule names. -/
theorem streamContextCommands : Obligations.StreamContextCommands := by
  unfold Obligations.StreamContextCommands
  refine ⟨fun s i ns f es freq hi hes hup => ?_, fun s doms n i ns r hrx _ => ⟨fun ts ws h => NetSys.rtpRx_keeps_samples hrx doms n i ns r h, fun h => ?_⟩,
    fun s n i ns hwf hn hi hup hused hok hlost => completes_legLoss hwf hn hi hup hused hok hlost,
    fun s n ns hwf hn hup hused hpresent hlost => completes_streamLoss hwf hn hup hused hpresent hlost,
    fun s n ns q k rest hwf hn hup hready hseq => completes_packetDeparture hwf hn hup hready hseq⟩
  · refine ⟨_, exec_frameReceive hi hes hup ns f freq, ⟨fun hclosed => ?_, fun hen hlink hfcs => ?_, fun hen hlink hother => ?_⟩,
      (s.frameReceive_within i ns f es freq).mono.settle_open⟩
    · rw [State.frameReceive_plain (NetSys.frameRx_closed hclosed ..) rfl]
      exact ⟨rfl, rfl, rfl⟩
    · rw [State.frameReceive_plain (NetSys.frameRx_badFcs hen hlink hfcs ..) (NetSys.setPort_ptp ..)]
      exact ⟨NetSys.port_setPort_same .., NetSys.setPort_rx .., NetSys.setPort_ptp .., rfl⟩
    · rw [State.frameReceive_plain (NetSys.frameRx_malformed hen hlink hother ..) (NetSys.setPort_ptp ..)]
      exact ⟨NetSys.port_setPort_same .., NetSys.setPort_rx .., NetSys.setPort_ptp .., rfl⟩
  · have hunfit : (s.rxc n).fits r = false := by
      rw [Bool.eq_false_iff, Ne, RxCtx.fits_iff]
      rintro ⟨hpt, hlength, hssrc⟩
      obtain h | h | ⟨x, hx, hne⟩ := h
      · exact h hpt
      · exact h hlength
      · exact hne (hssrc x hx)
    rw [NetSys.rtpRx_unfit hunfit]
    exact ⟨rfl, rfl⟩

end Sys2Proof.Machine

/-!
SUPPORT. The time core: the servo, the election of a master, the messages of a leader or follower, and the registers that enable them (R348 to
R356).
-/

namespace Sys2Proof.Machine

/-! ### Ports of the time core -/

@[simp] theorem PtpSys.port_setPort_same (t : PtpSys) (i : Nat) (p : PtpPort) : (t.setPort i p).port i = p := by
  rw [PtpSys.setPort, PtpSys.port]
  split <;> rfl

theorem PtpSys.port_setPort_other {i j : Nat} (hi : i < 2) (hj : j < 2) (hne : j ≠ i) (t : PtpSys) (p : PtpPort) :
    (t.setPort i p).port j = t.port j := by
  obtain rfl | rfl : i = 0 ∨ i = 1 := by omega
  · obtain rfl : j = 1 := by omega
    rfl
  · obtain rfl : j = 0 := by omega
    rfl

/-- A port of the time core is written, and nothing else of it. -/
theorem PtpSys.setPort_eq (t : PtpSys) (i : Nat) (p : PtpPort) : ∃ p0 p1, t.setPort i p = { t with p0 := p0, p1 := p1 } := by
  rw [PtpSys.setPort]
  split
  · exact ⟨p, t.p1, rfl⟩
  · exact ⟨t.p0, p, rfl⟩

/-! ### The servo (R350) -/

/-- R350: an offset that does not step the timescale is judged: PTP_OK sets with the sixteenth good one and clears with the eighth bad one. -/
def PtpSys.judged (t : PtpSys) (off : Int) : PtpSys :=
  let t := { t with good := if off.natAbs ≤ 1000 then min 16 (t.good + 1) else 0, bad := if off.natAbs > 10000 then t.bad + 1 else 0 }
  let t := if !t.ok && 16 ≤ t.good then { t with ok := true, bad := 0 } else t
  if t.ok && 8 ≤ t.bad then t.lose else t

/-- The time core of port `i` with an offset taken. -/
def PtpSys.measured (t : PtpSys) (i : Nat) (off : Int) : PtpSys :=
  { t.setPort i { t.port i with offset := off } with offset := off, delay := (t.port i).delay, first := false }

theorem PtpSys.measured_counts (t : PtpSys) (i : Nat) (off : Int) :
    (t.measured i off).ok = t.ok ∧ (t.measured i off).good = t.good ∧ (t.measured i off).bad = t.bad := by
  obtain ⟨p0, p1, h⟩ := t.setPort_eq i { t.port i with offset := off }
  rw [PtpSys.measured, h]
  exact ⟨rfl, rfl, rfl⟩

/-- R350: the offset steps the timescale; the exchanges under way are void. -/
def PtpSys.jumped (t : PtpSys) (off : Int) : PtpSys :=
  let clr := fun (p : PtpPort) => { p with t1t2 := none, dreq := none, sync := none }
  { t with step := -off, stepped := true, good := 0, p0 := clr t.p0, p1 := clr t.p1 }

/-- The servo takes the offset of port `i`, with the port written already. -/
def NetSys.steered (s : NetSys) (t : PtpSys) (i : Nat) (off : Int) : NetSys × Int :=
  if i != t.follow || (t.port i).state != 2 then ({ s with ptp := t }, 0)
  else
    let u := { t with offset := off, delay := (t.port i).delay, first := false }
    if !t.ok && t.first && decide (off.natAbs > 1000) then ({ s with ptp := u.jumped off }, -off) else ({ s with ptp := u.judged off }, 0)

theorem NetSys.measure_eq (n : NetSys) (i : Nat) (off : Int) :
    n.measure i off = n.steered (n.ptp.setPort i { n.ptp.port i with offset := off }) i off := rfl

/-- The servo takes an offset of the port that it follows. -/
theorem NetSys.measure_followed {n : NetSys} {i : Nat} (off : Int) (hi : i = n.ptp.follow) (hstate : (n.ptp.port i).state = 2) :
    n.measure i off = if (!n.ptp.ok && n.ptp.first && decide (off.natAbs > 1000)) = true then
      ({ n with ptp := (n.ptp.measured i off).jumped off }, -off) else ({ n with ptp := (n.ptp.measured i off).judged off }, 0) := by
  have hport := n.ptp.port_setPort_same i { n.ptp.port i with offset := off }
  obtain ⟨p0, p1, hset⟩ := n.ptp.setPort_eq i { n.ptp.port i with offset := off }
  rw [NetSys.measure_eq, PtpSys.measured]
  generalize n.ptp.setPort i { n.ptp.port i with offset := off } = t at hport hset ⊢
  have hfollow : t.follow = i := (congrArg PtpSys.follow hset).trans hi.symm
  have hstate' : (t.port i).state = 2 := (congrArg PtpPort.state hport).trans hstate
  have hdelay : (t.port i).delay = (n.ptp.port i).delay := (congrArg PtpPort.delay hport :)
  have hok : t.ok = n.ptp.ok := (congrArg PtpSys.ok hset :)
  have hfirst : t.first = n.ptp.first := (congrArg PtpSys.first hset :)
  rw [NetSys.steered, if_neg (by simp [hfollow, hstate']), hdelay, hok, hfirst]

theorem NetSys.measure_step {n : NetSys} {i : Nat} {off : Int} (hi : i = n.ptp.follow) (hstate : (n.ptp.port i).state = 2) (hok : n.ptp.ok = false)
    (hfirst : n.ptp.first = true) (hoff : 1000 < off.natAbs) :
    (n.measure i off).2 = -off ∧ (n.measure i off).1.ptp.step = -off ∧ (n.measure i off).1.ptp.stepped = true ∧
      (n.measure i off).1.ptp.ok = false := by
  rw [NetSys.measure_followed off hi hstate, if_pos (by simp [hok, hfirst, hoff])]
  exact ⟨rfl, rfl, rfl, (n.ptp.measured_counts i off).1.trans hok⟩

theorem NetSys.measure_judged {n : NetSys} {i : Nat} {off : Int} (hi : i = n.ptp.follow) (hstate : (n.ptp.port i).state = 2)
    (hstep : n.ptp.ok = true ∨ n.ptp.first = false ∨ off.natAbs ≤ 1000) :
    n.measure i off = ({ n with ptp := (n.ptp.measured i off).judged off }, 0) := by
  rw [NetSys.measure_followed off hi hstate]
  refine if_neg ?_
  obtain h | h | h := hstep
  · simp [h]
  · simp [h]
  · simp [Nat.not_lt.mpr h]

theorem PtpSys.judged_ok_of_good {t : PtpSys} {off : Int} (hgood : t.good = 15) (hbad : off.natAbs ≤ 1000) (hok : t.ok = false) :
    (t.judged off).ok = true := by
  have hsmall : ¬ off.natAbs > 10000 := by omega
  simp [PtpSys.judged, hgood, hbad, hok]

theorem PtpSys.judged_not_ok {t : PtpSys} (hgood : t.good < 15) (hok : t.ok = false) (off : Int) : (t.judged off).ok = false := by
  have hmin : ¬ 16 ≤ if off.natAbs ≤ 1000 then min 16 (t.good + 1) else 0 := by split <;> omega
  simp [PtpSys.judged, hmin, hok]

theorem PtpSys.judged_lost {t : PtpSys} {off : Int} (hok : t.ok = true) (hbad : t.bad = 7) (hoff : 10000 < off.natAbs) : (t.judged off).ok = false := by
  simp [PtpSys.judged, PtpSys.lose, hok, hbad, hoff]

theorem PtpSys.judged_kept {t : PtpSys} {off : Int} (hok : t.ok = true) (h : t.bad < 7 ∨ off.natAbs ≤ 10000) : (t.judged off).ok = true := by
  have hbad : ¬ 8 ≤ if off.natAbs > 10000 then t.bad + 1 else 0 := by split <;> omega
  simp [PtpSys.judged, hok, hbad]

theorem NetSys.measure_ok {n : NetSys} {i : Nat} (off : Int) (hi : i = n.ptp.follow) (hstate : (n.ptp.port i).state = 2) (hok : n.ptp.ok = true) :
    (n.measure i off).2 = 0 ∧ (n.ptp.bad = 7 → 10000 < off.natAbs → (n.measure i off).1.ptp.ok = false) ∧
      (n.ptp.bad < 7 ∨ off.natAbs ≤ 10000 → (n.measure i off).1.ptp.ok = true) := by
  obtain ⟨hok', -, hbad'⟩ := n.ptp.measured_counts i off
  rw [NetSys.measure_judged hi hstate (.inl hok)]
  exact ⟨rfl, fun hbad hoff => PtpSys.judged_lost (hok'.trans hok) (hbad'.trans hbad) hoff,
    fun h => PtpSys.judged_kept (hok'.trans hok) (by rw [hbad']; exact h)⟩

theorem NetSys.measure_stays {n : NetSys} {i : Nat} (off : Int) (hi : i = n.ptp.follow) (hstate : (n.ptp.port i).state = 2) (hok : n.ptp.ok = false)
    (hgood : n.ptp.good < 15) : (n.measure i off).1.ptp.ok = false := by
  obtain ⟨hok', hgood', -⟩ := n.ptp.measured_counts i off
  by_cases hstep : n.ptp.ok = true ∨ n.ptp.first = false ∨ off.natAbs ≤ 1000
  · rw [NetSys.measure_judged hi hstate hstep]
    exact PtpSys.judged_not_ok (by omega) (hok'.trans hok) off
  · simp only [not_or, Bool.not_eq_false, Nat.not_le] at hstep
    exact (NetSys.measure_step hi hstate hok hstep.2.1 hstep.2.2).2.2.2

/-! ### The election (R348, R352, R353) -/

/-- R351: the servo's choice changes no port of the time core, and none of its registers. -/
theorem NetSys.refollow_ptp (n : NetSys) : n.refollow.ptp.p0 = n.ptp.p0 ∧ n.refollow.ptp.p1 = n.ptp.p1 ∧ n.refollow.ptp.ctl = n.ptp.ctl ∧
    n.refollow.ptp.intv = n.ptp.intv := by
  rw [NetSys.refollow]
  split
  · exact ⟨rfl, rfl, rfl, rfl⟩
  · dsimp only
    split
    · exact ⟨rfl, rfl, rfl, rfl⟩
    · refine iteInduction (motive := fun x : NetSys => x.ptp.p0 = n.ptp.p0 ∧ x.ptp.p1 = n.ptp.p1 ∧ x.ptp.ctl = n.ptp.ctl ∧ x.ptp.intv = n.ptp.intv)
        (fun _ => ?_) fun _ => ?_
      · split
        · exact ⟨rfl, rfl, rfl, rfl⟩
        · simp only [NetSys.withPtp]
          split <;> exact ⟨rfl, rfl, rfl, rfl⟩
      · split <;> exact ⟨rfl, rfl, rfl, rfl⟩

theorem NetSys.refollow_port (n : NetSys) (j : Nat) : n.refollow.ptp.port j = n.ptp.port j := by
  obtain ⟨h0, h1, -, -⟩ := n.refollow_ptp
  rw [PtpSys.port, PtpSys.port, h0, h1]

/-- R348, R352: what the election makes of port `i`. -/
def NetSys.elected (s : NetSys) (i now : Nat) (timeout : Bool) : PtpPort :=
  let t := s.ptp
  let p := t.port i
  let n := s.port i
  if !t.en || !n.en || !n.link then { PtpPort.reset with delay := p.delay, offset := p.offset }
  else match p.best (logUs (t.intv.fld 16 8)) now with
    | some a =>
      if t.leaderEn && s.own.better a then { p with state := 3, parent := none }
      else { p with state := 2, parent := some a
                    sync := if p.parent.map Announce.sender = some a.sender then p.sync else none }
    | none =>
      if t.leaderEn && (timeout || p.state = 3) then { p with state := 3, parent := none }
      else { p with state := 1, parent := none }

theorem NetSys.elect_eq_refollow (n : NetSys) (i now : Nat) (timeout : Bool) :
    n.elect i now timeout = (n.withPtp fun t => t.setPort i (n.elected i now timeout)).refollow := rfl

theorem NetSys.elect_port (n : NetSys) (i now : Nat) (timeout : Bool) : (n.elect i now timeout).ptp.port i = n.elected i now timeout :=
  (NetSys.refollow_port _ i).trans (n.ptp.port_setPort_same i _)

theorem NetSys.elect_port_other {i j : Nat} (hi : i < 2) (hj : j < 2) (hne : j ≠ i) (n : NetSys) (now : Nat) (timeout : Bool) :
    (n.elect i now timeout).ptp.port j = n.ptp.port j :=
  (NetSys.refollow_port _ j).trans (n.ptp.port_setPort_other hi hj hne _)

theorem NetSys.elect_regs (n : NetSys) (i now : Nat) (timeout : Bool) :
    (n.elect i now timeout).ptp.ctl = n.ptp.ctl ∧ (n.elect i now timeout).ptp.intv = n.ptp.intv := by
  obtain ⟨-, -, hctl, hintv⟩ := (n.withPtp fun t => t.setPort i (n.elected i now timeout)).refollow_ptp
  obtain ⟨p0, p1, hset⟩ := n.ptp.setPort_eq i (n.elected i now timeout)
  rw [NetSys.elect_eq_refollow, hctl, hintv]
  simp only [NetSys.withPtp, hset, and_self]

/-- The election finds no master where none is known. -/
theorem NetSys.elected_without_senders {n : NetSys} {i : Nat} (h : (n.ptp.port i).foreign = []) (now : Nat) (timeout : Bool) :
    (n.elected i now timeout).foreign = [] ∧ (n.elected i now timeout).state ≠ 2 ∧
      (n.ptp.en = true → (n.port i).en = true → (n.port i).link = true → timeout = true →
        (n.elected i now timeout).state = if n.ptp.leaderEn = true then 3 else 1) := by
  have hbest : (n.ptp.port i).best (logUs (n.ptp.intv.fld 16 8)) now = none := by
    rw [PtpPort.best, h]
    rfl
  rw [NetSys.elected]
  simp only [hbest]
  by_cases hoff : (!n.ptp.en || !(n.port i).en || !(n.port i).link) = true
  · rw [if_pos hoff]
    refine ⟨rfl, (by decide : (0 : Nat) ≠ 2), fun hen hport hlink => ?_⟩
    simp [hen, hport, hlink] at hoff
  · rw [if_neg hoff]
    refine ⟨?_, ?_, fun _ _ _ htimeout => ?_⟩
    · split <;> exact h
    · split
      · exact (by decide : (3 : Nat) ≠ 2)
      · exact (by decide : (1 : Nat) ≠ 2)
    · cases n.ptp.leaderEn <;> simp [htimeout]

/-- A servo that is fixed to a port without a master follows none. -/
theorem NetSys.refollow_idle {n : NetSys} {i : Nat} (hi : i < 2) (hservo : n.ptp.servo = i) (hstate : (n.ptp.port i).state ≠ 2) : n.refollow = n := by
  have hchoice : n.ptp.choice = none := by
    rw [PtpSys.choice, hservo]
    obtain rfl | rfl : i = 0 ∨ i = 1 := by omega
    · exact if_neg (by simpa using hstate)
    · exact if_neg (by simpa using hstate)
  rw [NetSys.refollow]
  simp only [hchoice]

end Sys2Proof.Machine

/-!
SUPPORT. Timeouts, messages and registers of the time core (R350 to R356), and their commands.
-/

namespace Sys2Proof.Machine

/-- A command of the time core that sends nothing. -/
theorem completes_netStep {c : Instr} {s : State} {es : List Int} {freq : Int} {f : NetSys → NetSys}
    (hexec : exec c s = .next (s.netStep es freq f).settle) (hsent : (f s.net).sent = s.net.sent) :
    Completes c s [.net, .clk, .reports] fun t => t = (s.netStep es freq f).settle :=
  have hframe := s.netStep_within es freq f
  ⟨_, hexec, rfl, hframe.mono.settle (fun h => absurd (by decide) h) fun _ => ⟨congrArg HostSys.outs (hframe.same .host),
    State.txOn_of_within hframe (by decide) (by decide), (congrArg NetSys.sent (s.netStep_net es freq f)).trans hsent⟩⟩

/-- While PTP_OK stays as it is a step of the network changes the network alone. -/
theorem State.netStep_same {s : State} {f : NetSys → NetSys} (hok : (f s.net).ptp.ok = s.net.ptp.ok) (es : List Int) (freq : Int) :
    s.netStep es freq f = s.withNet f :=
  have hptp : (s.withNet f).ptpOk = s.ptpOk := hok
  State.afterPtp_same hptp es freq

/-! ### Timeouts (R350, R351, R353) -/

theorem PtpSys.setPort_servo (t : PtpSys) (i : Nat) (p : PtpPort) : (t.setPort i p).servo = t.servo := by
  rw [PtpSys.setPort]
  split <;> rfl

theorem PtpSys.setPort_follow (t : PtpSys) (i : Nat) (p : PtpPort) : (t.setPort i p).follow = t.follow := by
  rw [PtpSys.setPort]
  split <;> rfl

theorem PtpSys.lose_port (t : PtpSys) (j : Nat) : t.lose.port j = t.port j := by
  rw [PtpSys.port, PtpSys.port]
  rfl

theorem NetSys.announceTimeout_disabled {n : NetSys} {i : Nat} (h : (n.ptp.port i).state = 0) (now : Nat) : n.announceTimeout i now = n := if_pos h

theorem NetSys.announceTimeout_becomes {n : NetSys} {i : Nat} (hi : i < 2) (hstate : (n.ptp.port i).state ≠ 0) (now : Nat) :
    (n.announceTimeout i now).sent = n.sent ∧ ((n.announceTimeout i now).ptp.port i).foreign = [] ∧
      (n.ptp.en = true → (n.port i).en = true → (n.port i).link = true →
        ((n.announceTimeout i now).ptp.port i).state = if n.ptp.leaderEn = true then 3 else 1) ∧
      ((n.ptp.port i).state = 2 → n.ptp.follow = i → n.ptp.servo = i → (n.announceTimeout i now).ptp.ok = false) := by
  obtain ⟨p0, p1, hset⟩ := n.ptp.setPort_eq i { n.ptp.port i with foreign := [] }
  set m := n.withPtp fun t => t.setPort i { n.ptp.port i with foreign := [] } with hm
  have hptp : m.ptp = { n.ptp with p0 := p0, p1 := p1 } := hset
  have hforeign : (m.ptp.port i).foreign = [] := congrArg PtpPort.foreign (n.ptp.port_setPort_same i _)
  obtain ⟨hnone, hno, hlead⟩ := NetSys.elected_without_senders hforeign now true
  have helected := m.elect_port i now true
  have heq : n.announceTimeout i now =
      if (decide (i = n.ptp.follow) && decide ((n.ptp.port i).state = 2) && decide ((m.elect i now true).ptp.follow = i)) = true
      then (m.elect i now true).withPtp fun t => t.lose else m.elect i now true := if_neg hstate
  have hport : (n.announceTimeout i now).ptp.port i = m.elected i now true := by
    rw [heq]
    split
    · exact (PtpSys.lose_port _ i).trans helected
    · exact helected
  have hsent : (m.elect i now true).sent = n.sent := by
    obtain ⟨t, r, h⟩ := m.elect_eq i now true
    rw [h]
    rfl
  refine ⟨?_, by rw [hport, hnone], fun hen hport' hlink => ?_, fun hfollower hfollow hservo => ?_⟩
  · rw [heq]
    split
    · exact hsent
    · exact hsent
  · have hen' : m.ptp.en = true := by rw [hptp]; exact hen
    have hleader : m.ptp.leaderEn = n.ptp.leaderEn := by rw [hptp]; rfl
    rw [hport, hlead hen' hport' hlink rfl, hleader]
  · have hidle : m.elect i now true = m.withPtp fun t => t.setPort i (m.elected i now true) := by
      rw [NetSys.elect_eq_refollow]
      refine NetSys.refollow_idle hi ?_ ?_
      · exact (PtpSys.setPort_servo ..).trans ((congrArg PtpSys.servo hptp).trans hservo)
      · rw [NetSys.withPtp, PtpSys.port_setPort_same]
        exact hno
    have hfollow' : (m.elect i now true).ptp.follow = i := by
      rw [hidle]
      exact (PtpSys.setPort_follow ..).trans ((congrArg PtpSys.follow hptp).trans hfollow)
    rw [heq, if_pos (by simp [hfollow, hfollower, hfollow'])]
    rfl

theorem NetSys.syncTimeout_eq (n : NetSys) (i : Nat) : ∃ t, n.syncTimeout i = { n with ptp := t } := by
  rw [NetSys.syncTimeout]
  dsimp only
  split
  · exact ⟨n.ptp, rfl⟩
  · split
    · exact ⟨_, rfl⟩
    · exact ⟨_, rfl⟩

theorem NetSys.syncTimeout_idle {n : NetSys} {i : Nat} (h : i ≠ n.ptp.follow ∨ n.ptp.en = false) : n.syncTimeout i = n := by
  rw [NetSys.syncTimeout]
  exact if_pos (by simpa using h)

theorem NetSys.syncTimeout_lost {n : NetSys} {i : Nat} (hi : i = n.ptp.follow) (hen : n.ptp.en = true) (hservo : n.ptp.servo ≠ 2) :
    n.syncTimeout i = n.withPtp fun t => t.lose := by
  rw [NetSys.syncTimeout]
  refine (if_neg (by simp [hi, hen])).trans (if_neg (by simp [hservo]))

theorem NetSys.syncTimeout_switched {n : NetSys} {i : Nat} (hi : i = n.ptp.follow) (hen : n.ptp.en = true) (hservo : n.ptp.servo = 2)
    (hstate : (n.ptp.port (1 - i)).state = 2) (hgm : (n.ptp.port (1 - i)).parent.map Announce.gm = some n.ptp.gm)
    (hnear : ((n.ptp.port (1 - i)).offset - (n.ptp.port i).offset).natAbs ≤ 1000) :
    n.syncTimeout i = n.withPtp fun t => { t with follow := 1 - i, offset := (n.ptp.port (1 - i)).offset, delay := (n.ptp.port (1 - i)).delay } := by
  rw [NetSys.syncTimeout]
  refine (if_neg (by simp [hi, hen])).trans (if_pos ?_)
  simp only [hstate, hgm, hnear, hservo, decide_true, Bool.and_self]

theorem completes_announceTimeout {s : State} {i : Nat} {es : List Int} (freq : Int) (hi : i < 2) (hes : es.length = 3) (hup : s.netUp = true) :
    Completes (.announceTimeout i es freq) s [.net, .clk, .reports] fun t =>
      ((s.net.ptp.port i).state = 0 → t.net = s.settle.net ∧ t.clk = s.settle.clk) ∧
      ((s.net.ptp.port i).state ≠ 0 → (t.net.ptp.port i).foreign = [] ∧
        (s.net.ptp.en = true → (s.net.port i).en = true → (s.net.port i).link = true →
          (t.net.ptp.port i).state = if s.net.ptp.leaderEn = true then 3 else 1) ∧
        ((s.net.ptp.port i).state = 2 → s.net.ptp.follow = i → s.net.ptp.servo = i → t.net.ptp.ok = false)) := by
  have hexec : exec (.announceTimeout i es freq) s = .next (s.netStep es freq fun n => n.announceTimeout i s.us).settle :=
    done_on (by simp [Instr.wf, hi, hes]) hup
  by_cases hstate : (s.net.ptp.port i).state = 0
  · have hsame : s.net.announceTimeout i s.us = s.net := NetSys.announceTimeout_disabled hstate s.us
    obtain ⟨t, hexec, rfl, hframe⟩ := completes_netStep hexec (congrArg NetSys.sent hsame)
    refine ⟨_, hexec, ⟨fun _ => ?_, fun h => absurd hstate h⟩, hframe⟩
    rw [State.netStep_same (congrArg (fun n => n.ptp.ok) hsame), State.settle_net, State.withNet_net, hsame]
    exact ⟨rfl, rfl⟩
  · obtain ⟨hsent, hrest⟩ := NetSys.announceTimeout_becomes hi hstate s.us
    obtain ⟨t, hexec, rfl, hframe⟩ := completes_netStep hexec hsent
    refine ⟨_, hexec, ⟨fun h => absurd h hstate, fun _ => ?_⟩, hframe⟩
    have hptp : (s.netStep es freq fun n => n.announceTimeout i s.us).settle.net.ptp = (s.net.announceTimeout i s.us).ptp :=
      (congrArg NetSys.ptp (s.netStep_net es freq fun n => n.announceTimeout i s.us) :)
    rw [hptp]
    exact hrest

theorem completes_syncTimeout {s : State} {i : Nat} {es : List Int} (freq : Int) (hi : i < 2) (hes : es.length = 3) (hup : s.netUp = true) :
    Completes (.syncTimeout i es freq) s [.net, .clk, .reports] fun t => t.net.rx = s.net.rx ∧
      (i ≠ s.net.ptp.follow ∨ s.net.ptp.en = false → t.net = s.settle.net ∧ t.clk = s.settle.clk) ∧
      (i = s.net.ptp.follow → s.net.ptp.en = true → s.net.ptp.servo ≠ 2 → t.net.ptp.ok = false ∧ t.net.ptp.first = true) ∧
      (i = s.net.ptp.follow → s.net.ptp.en = true → s.net.ptp.servo = 2 → (s.net.ptp.port (1 - i)).state = 2 →
        (s.net.ptp.port (1 - i)).parent.map Announce.gm = some s.net.ptp.gm →
        ((s.net.ptp.port (1 - i)).offset - (s.net.ptp.port i).offset).natAbs ≤ 1000 →
        t.net.ptp.follow = 1 - i ∧ t.net.ptp.ok = s.net.ptp.ok ∧ t.clk = s.settle.clk) := by
  have hexec : exec (.syncTimeout i es freq) s = .next (s.netStep es freq fun n => n.syncTimeout i).settle :=
    done_on (by simp [Instr.wf, hi, hes]) hup
  obtain ⟨u, hu⟩ := s.net.syncTimeout_eq i
  obtain ⟨t, hexec, rfl, hframe⟩ := completes_netStep hexec (congrArg NetSys.sent hu :)
  have hnet : (s.netStep es freq fun n => n.syncTimeout i).net = s.net.syncTimeout i := s.netStep_net ..
  refine ⟨_, hexec, ⟨?_, fun h => ?_, fun hfollow hen hservo => ?_, fun hfollow hen hservo hstate hgm hnear => ?_⟩, hframe⟩
  · exact (congrArg NetSys.rx hnet).trans (congrArg NetSys.rx hu :)
  · have hsame := NetSys.syncTimeout_idle h
    rw [State.netStep_same (congrArg (fun n => n.ptp.ok) hsame), State.settle_net, State.withNet_net, hsame]
    exact ⟨rfl, rfl⟩
  · have hlost := hnet.trans (NetSys.syncTimeout_lost hfollow hen hservo)
    exact ⟨(congrArg (fun n => n.ptp.ok) hlost :), (congrArg (fun n => n.ptp.first) hlost :)⟩
  · have hswitched := NetSys.syncTimeout_switched hfollow hen hservo hstate hgm hnear
    have hok : (s.net.syncTimeout i).ptp.ok = s.net.ptp.ok := (congrArg (fun n => n.ptp.ok) hswitched :)
    refine ⟨(congrArg (fun n => n.ptp.follow) (hnet.trans hswitched) :), (congrArg (fun n => n.ptp.ok) hnet).trans hok, ?_⟩
    rw [State.netStep_same hok]
    rfl

/-! ### Messages (R348, R352) -/

/-- A port of the time core sends the messages `fs` and keeps `p`. -/
theorem completes_ptpTx {c : Instr} {s : State} {f : NetSys → NetSys} {i ns : Nat} {p : PtpPort} {fs : List (List Byte)} (hq : s.quiet = true)
    (hexec : exec c s = .next ((s.at_ ns).withNet f).settle) (hf : f s.net = (s.net.withPtp fun t => t.setPort i p).sendAll i fs) :
    Completes c s [.net, .out, .time] fun t => t.ns = ns ∧ t.net.rx = s.net.rx ∧ t.net.ptp.port i = p ∧
      (s.txOn = true → t.out = fs.map fun g => .netFrame i g) := by
  obtain ⟨hrx, -, hptp, hrep, hsent, -, -⟩ := (s.net.withPtp fun t => t.setPort i p).sendAll_keeps i fs
  have hwithin : s.Within [.net, .time] ((s.at_ ns).withNet f) := (s.within_at ns).mono.trans (State.within_net _ _).mono
  refine ⟨_, hexec, ⟨rfl, ?_, ?_, fun htx => ?_⟩, hwithin.mono.settle (fun _ => ?_) fun h => absurd (by decide) h⟩
  · exact (congrArg NetSys.rx hf :).trans hrx
  · exact (congrArg (fun n => n.ptp.port i) hf :).trans ((congrArg (fun t => PtpSys.port t i) hptp).trans (s.net.ptp.port_setPort_same i p))
  · have hout := State.settle_out_sent (x := (s.at_ ns).withNet f) hq htx (State.txOn_of_within hwithin (by decide) (by decide)) rfl
      ((congrArg NetSys.sent hf :).trans hsent)
    rw [hout, List.map_map]
    rfl
  · exact State.unitReports_withNet (s := s.at_ ns) (f := f) ((congrArg NetSys.rep hf :).trans hrep)

theorem completes_ptpAnnounceTx {s : State} {i : Nat} (ns : Nat) (hq : s.quiet = true) (hi : i < 2) (hup : s.netUp = true)
    (hstate : (s.net.ptp.port i).state = 3) :
    Completes (.ptpAnnounceTx i ns) s [.net, .out, .time] fun t => t.ns = ns ∧ t.net.rx = s.net.rx ∧
      t.net.ptp.port i = { s.net.ptp.port i with annSeq := ((s.net.ptp.port i).annSeq + 1) % 65536 } ∧
      (s.txOn = true → ∃ b, t.out = [.netFrame i (ptpFrame (s.net.port i) false (ptpMsg 0xB s.net.ptp.domNum 0 (s.net.ident i)
        (s.net.ptp.port i).annSeq 5 (s.net.ptp.intv.fld 16 8) (ptpStamp ns ++ b)))]) := by
  have hf : ∃ b, s.net.announceTx i ns = (s.net.withPtp fun t => t.setPort i
      { s.net.ptp.port i with annSeq := ((s.net.ptp.port i).annSeq + 1) % 65536 }).sendAll i [ptpFrame (s.net.port i) false
        (ptpMsg 0xB s.net.ptp.domNum 0 (s.net.ident i) (s.net.ptp.port i).annSeq 5 (s.net.ptp.intv.fld 16 8) (ptpStamp ns ++ b))] := by
    rw [NetSys.announceTx]
    simp only [List.append_assoc]
    exact ⟨_, if_neg (by simp [hstate])⟩
  obtain ⟨b, hf⟩ := hf
  obtain ⟨t, hexec, ⟨hns, hrx, hport, hout⟩, hframe⟩ := completes_ptpTx (c := .ptpAnnounceTx i ns) (f := fun n => n.announceTx i ns) hq
    (done_on (by simp [Instr.wf, hi]) (by simp [hup, hstate])) hf
  exact ⟨t, hexec, ⟨hns, hrx, hport, fun htx => ⟨b, hout htx⟩⟩, hframe⟩

theorem completes_ptpSyncTx {s : State} {i : Nat} (ns : Nat) (hq : s.quiet = true) (hi : i < 2) (hup : s.netUp = true)
    (hstate : (s.net.ptp.port i).state = 3) :
    Completes (.ptpSyncTx i ns) s [.net, .out, .time] fun t => t.ns = ns ∧ t.net.rx = s.net.rx ∧
      t.net.ptp.port i = { s.net.ptp.port i with syncSeq := ((s.net.ptp.port i).syncSeq + 1) % 65536 } ∧
      (s.txOn = true → t.out =
        [.netFrame i (ptpFrame (s.net.port i) true (ptpMsg 0x0 s.net.ptp.domNum 0x0200 (s.net.ident i) (s.net.ptp.port i).syncSeq 0
          (s.net.ptp.intv.fld 8 8) (ptpStamp 0))),
         .netFrame i (ptpFrame (s.net.port i) false (ptpMsg 0x8 s.net.ptp.domNum 0 (s.net.ident i) (s.net.ptp.port i).syncSeq 2
          (s.net.ptp.intv.fld 8 8) (ptpStamp ns)))]) := by
  refine completes_ptpTx (i := i) (f := fun n => n.syncTx i ns) (fs :=
    [ptpFrame (s.net.port i) true (ptpMsg 0x0 s.net.ptp.domNum 0x0200 (s.net.ident i) (s.net.ptp.port i).syncSeq 0 (s.net.ptp.intv.fld 8 8) (ptpStamp 0)),
      ptpFrame (s.net.port i) false (ptpMsg 0x8 s.net.ptp.domNum 0 (s.net.ident i) (s.net.ptp.port i).syncSeq 2 (s.net.ptp.intv.fld 8 8)
        (ptpStamp ns))]) hq (done_on (by simp [Instr.wf, hi]) (by simp [hup, hstate])) ?_
  rw [NetSys.syncTx]
  exact if_neg (by simp [hstate])

theorem completes_ptpDelayReqTx {s : State} {i : Nat} (ns : Nat) (hq : s.quiet = true) (hi : i < 2) (hup : s.netUp = true)
    (hstate : (s.net.ptp.port i).state = 2) :
    Completes (.ptpDelayReqTx i ns) s [.net, .out, .time] fun t => t.ns = ns ∧ t.net.rx = s.net.rx ∧
      t.net.ptp.port i = { s.net.ptp.port i with dreq := some ((s.net.ptp.port i).dreqSeq, ns), dreqSeq := ((s.net.ptp.port i).dreqSeq + 1) % 65536 } ∧
      (s.txOn = true → t.out = [.netFrame i (ptpFrame (s.net.port i) true (ptpMsg 0x1 s.net.ptp.domNum 0 (s.net.ident i)
        (s.net.ptp.port i).dreqSeq 1 0x7F (ptpStamp 0)))]) := by
  refine completes_ptpTx (i := i) (f := fun n => n.delayReqTx i ns) (fs :=
    [ptpFrame (s.net.port i) true (ptpMsg 0x1 s.net.ptp.domNum 0 (s.net.ident i) (s.net.ptp.port i).dreqSeq 1 0x7F (ptpStamp 0))]) hq (done_on (by simp [Instr.wf, hi]) (by simp [hup, hstate])) ?_
  rw [NetSys.delayReqTx]
  exact if_neg (by simp [hstate])

end Sys2Proof.Machine

/-!
SUPPORT. NET_CTL and PTP_CTL (R355, R356), and the joins that a write of them changes (R332).
-/

namespace Sys2Proof.Machine

/-! ### Joins -/

/-- R332: port `i` reports the joins that changed from `old`. -/
def NetSys.joinsOn (old s : NetSys) (i : Nat) : NetSys :=
  let p := s.port i
  let gs := (old.groups i ++ s.groups i).eraseDups
  let recs := gs.flatMap fun g => changeRecs g (old.joined i g) (s.joined i g)
  if recs.isEmpty || !p.en || !p.link then s
  else
    let s := s.sendAll i (igmpReport p recs)
    let left := p.ipcfg.fld 8 4 - 1
    let kept := p.resend.filter fun r => !(recs.map fun x => x.2.1).contains r.grp
    let more := recs.map fun r => (⟨r.2.1, r.1, r.2.2, left⟩ : IgmpRec)
    if left = 0 then s else s.modPort i fun p => { p with resend := kept ++ more }

theorem NetSys.reportJoins_eq (s old : NetSys) : s.reportJoins old = [0, 1].foldl (NetSys.joinsOn old) s := rfl

/-- What reports of joins leave: contexts and the time core, and of each port all but the reports left to send and the count of frames. -/
structure NetSys.JoinKeeps (n n' : NetSys) : Prop where
  rx : n'.rx = n.rx
  tx : n'.tx = n.tx
  ptp : n'.ptp = n.ptp
  port : ∀ j, j < 2 → ∃ w rs, n'.port j = { n.port j with txFrames := w, resend := rs }

theorem NetSys.JoinKeeps.refl (n : NetSys) : NetSys.JoinKeeps n n := ⟨rfl, rfl, rfl, fun _ _ => ⟨_, _, rfl⟩⟩

theorem NetSys.JoinKeeps.trans {n n' n'' : NetSys} (h : NetSys.JoinKeeps n n') (h' : NetSys.JoinKeeps n' n'') : NetSys.JoinKeeps n n'' := by
  refine ⟨h'.rx.trans h.rx, h'.tx.trans h.tx, h'.ptp.trans h.ptp, fun j hj => ?_⟩
  obtain ⟨w, rs, hp⟩ := h.port j hj
  obtain ⟨w', rs', hp'⟩ := h'.port j hj
  exact ⟨w', rs', by rw [hp', hp]⟩

theorem NetSys.sendAll_joinKeeps {i : Nat} (hi : i < 2) (n : NetSys) (fs : List (List Byte)) : NetSys.JoinKeeps n (n.sendAll i fs) := by
  obtain ⟨hrx, htx, hptp, -, -, ⟨w, hport⟩, hother⟩ := n.sendAll_keeps i fs
  refine ⟨hrx, htx, hptp, fun j hj => ?_⟩
  by_cases hji : j = i
  · subst hji
    exact ⟨w, (n.port j).resend, hport⟩
  · exact ⟨(n.port j).txFrames, (n.port j).resend, hother hi j hj hji⟩

theorem NetSys.setResend_joinKeeps {i : Nat} (hi : i < 2) (n : NetSys) (rs : List IgmpRec) :
    NetSys.JoinKeeps n (n.modPort i fun p => { p with resend := rs }) := by
  refine ⟨NetSys.setPort_rx .., NetSys.setPort_tx .., NetSys.setPort_ptp .., fun j hj => ?_⟩
  by_cases hji : j = i
  · subst hji
    exact ⟨(n.port j).txFrames, rs, NetSys.port_setPort_same ..⟩
  · exact ⟨(n.port j).txFrames, (n.port j).resend, NetSys.port_setPort_other hi hj hji ..⟩

theorem NetSys.joinsOn_keeps {i : Nat} (hi : i < 2) (old n : NetSys) : NetSys.JoinKeeps n (NetSys.joinsOn old n i) := by
  rw [NetSys.joinsOn]
  refine iteInduction (fun _ => .refl n) fun _ => ?_
  exact iteInduction (fun _ => NetSys.sendAll_joinKeeps hi n _) fun _ => (NetSys.sendAll_joinKeeps hi n _).trans (NetSys.setResend_joinKeeps hi _ _)

theorem NetSys.reportJoins_keeps (n old : NetSys) : NetSys.JoinKeeps n (n.reportJoins old) :=
  (NetSys.joinsOn_keeps (by decide) old n).trans (NetSys.joinsOn_keeps (by decide) old _)

/-- A write that changes joins and, through PTP_OK, the clock. -/
theorem completes_joins {c : Instr} {s : State} {f : NetSys → NetSys} {es : List Int} {freq : Int}
    (hexec : exec c s = .next (((s.withNet f).afterJoins s.net).afterPtp s.ptpOk es freq).settle) :
    Completes c s [.net, .clk, .reports, .out] fun t => t.net.rx = (f s.net).rx ∧ t.net.tx = (f s.net).tx ∧ t.net.ptp = (f s.net).ptp ∧
      ∀ j, j < 2 → ∃ w rs, t.net.port j = { (f s.net).port j with txFrames := w, resend := rs } := by
  have hkeeps := (f s.net).reportJoins_keeps s.net
  have hnet : (((s.withNet f).afterJoins s.net).afterPtp s.ptpOk es freq).net = (f s.net).reportJoins s.net := State.afterPtp_net ..
  have hwithin : s.Within [.net, .clk] (((s.withNet f).afterJoins s.net).afterPtp s.ptpOk es freq) :=
    ((s.within_net f).mono.trans (State.within_net _ _).mono).trans (State.afterPtp_within ..).mono
  refine ⟨_, hexec, ⟨?_, ?_, ?_, fun j hj => ?_⟩, hwithin.mono.settle_open⟩
  · exact (congrArg NetSys.rx hnet).trans hkeeps.rx
  · exact (congrArg NetSys.tx hnet).trans hkeeps.tx
  · exact (congrArg NetSys.ptp hnet).trans hkeeps.ptp
  · obtain ⟨w, rs, hp⟩ := hkeeps.port j hj
    exact ⟨w, rs, (congrArg (fun n => NetSys.port n j) hnet).trans hp⟩

/-! ### NET_CTL (R355) -/

theorem netCtlWord_fields {ping speed en : Nat} (hping : ping < 2) (hspeed : speed < 2) (hen : en < 2) :
    let w : Word := BitVec.ofNat 32 (ping <<< 8 + speed <<< 4 + en)
    w.fld 0 1 = en ∧ w.fld 8 1 = ping ∧ w.fld 4 1 = speed := by
  intro w
  have hw : w.toNat = ping * 256 + speed * 16 + en := by
    rw [BitVec.toNat_ofNat]
    simp only [Nat.shiftLeft_eq]
    omega
  simp only [Word.fld_eq, hw, Nat.reducePow]
  refine ⟨?_, ?_, ?_⟩ <;> omega

theorem NetSys.writeCtl_becomes {n : NetSys} {i : Nat} (hi : i < 2) (v : Word) (now : Nat) :
    (n.writeCtl i v now).rx = n.rx ∧ (n.writeCtl i v now).tx = n.tx ∧ ((n.writeCtl i v now).port i).ctl.flag 0 = v.flag 0 ∧
      ((n.writeCtl i v now).port i).ctl.flag 8 = v.flag 8 ∧
      ((n.writeCtl i v now).port i).ctl.flag 4 = (if (n.port i).en = true then (n.port i).ctl.flag 4 else v.flag 4) ∧
      (∀ j, j < 2 → j ≠ i → (n.writeCtl i v now).port j = n.port j) ∧
      ((n.port i).en = true → v.flag 0 = false → ((n.writeCtl i v now).port i).arp = [] ∧ ((n.writeCtl i v now).port i).queries = []) := by
  set speed := if (n.port i).en = true then (n.port i).ctl.fld 4 1 else v.fld 4 1 with hspeed
  have hspeedlt : speed < 2 := by
    rw [hspeed]
    split
    · exact Word.fld_lt _ 4 1
    · exact Word.fld_lt v 4 1
  set w : Word := BitVec.ofNat 32 (v.fld 8 1 <<< 8 + speed <<< 4 + v.fld 0 1) with hw
  obtain ⟨hw0, hw8, hw4⟩ : w.fld 0 1 = v.fld 0 1 ∧ w.fld 8 1 = v.fld 8 1 ∧ w.fld 4 1 = speed :=
    netCtlWord_fields (Word.fld_lt v 8 1) hspeedlt (Word.fld_lt v 0 1)
  obtain ⟨q, hq, hqctl, hqoff⟩ : ∃ q : NetPort, n.writeCtl i v now = (n.setPort i q).elect i now false ∧ q.ctl = w ∧
      ((n.port i).en = true → v.flag 0 = false → q.arp = [] ∧ q.queries = []) := by
    by_cases hoff : ((n.port i).en && !v.flag 0) = true
    · refine ⟨{ n.port i with ctl := w, arp := [], garp := false, resend := [], queries := [] }, ?_, rfl, fun _ _ => ⟨rfl, rfl⟩⟩
      rw [NetSys.writeCtl]
      simp only [hoff, if_true]
      rfl
    · refine ⟨{ n.port i with ctl := w }, ?_, rfl, fun hen hv => absurd (by simp [hen, hv]) hoff⟩
      rw [NetSys.writeCtl]
      simp only [hoff]
      rfl
  obtain ⟨t, r, helect⟩ := (n.setPort i q).elect_eq i now false
  rw [hq, helect]
  have hport : NetSys.port { n.setPort i q with ptp := t, rep := (n.setPort i q).rep ++ r } i = q := n.port_setPort_same i q
  rw [hport, hqctl]
  refine ⟨n.setPort_rx i q, n.setPort_tx i q, Word.flag_of_fld_one hw0, Word.flag_of_fld_one hw8, ?_, fun j hj hne => n.port_setPort_other hi hj hne q,
    hqoff⟩
  split
  · next hen => exact Word.flag_of_fld_one (hw4.trans (if_pos hen))
  · next hen => exact Word.flag_of_fld_one (hw4.trans (if_neg hen))

theorem completes_netPortEnWrite {s : State} {r i : Nat} (v : Word) (hr : r < 7) (hi : i < 2) (hc : s.commands r = true) :
    Completes (.netPortEnWrite r i v) s [.net, .clk, .reports, .out] fun t => t.net.rx = s.net.rx ∧ t.net.tx = s.net.tx ∧
      (t.net.port i).en = v.flag 0 ∧ (t.net.port i).ctl.flag 8 = v.flag 8 ∧
      (t.net.port i).ctl.flag 4 = (if (s.net.port i).en = true then (s.net.port i).ctl.flag 4 else v.flag 4) ∧
      (∀ j, j < 2 → j ≠ i → (t.net.port j).ctl = (s.net.port j).ctl) ∧
      ((s.net.port i).en = true → v.flag 0 = false → (t.net.port i).arp = [] ∧ (t.net.port i).queries = []) := by
  obtain ⟨hrx, htx, h0, h8, h4, hother, hoff⟩ := NetSys.writeCtl_becomes (n := s.net) hi v s.us
  obtain ⟨t, hexec, ⟨hrx', htx', -, hport⟩, hframe⟩ := completes_joins (c := .netPortEnWrite r i v) (s := s) (f := fun n => n.writeCtl i v s.us)
    (es := s.heldEs) (freq := s.clk.freq) (done_on (by simp [Instr.wf, hr, hi]) hc)
  obtain ⟨w, rs, hp⟩ := hport i hi
  refine ⟨t, hexec, ⟨hrx'.trans hrx, htx'.trans htx, ?_, ?_, ?_, fun j hj hne => ?_, ?_⟩, hframe⟩
  · rw [NetPort.en, hp, h0]
  · rw [hp, h8]
  · rw [hp, h4]
  · obtain ⟨w', rs', hp'⟩ := hport j hj
    rw [hp', hother j hj hne]
  · rw [hp]
    exact hoff

/-! ### PTP_CTL (R348, R356) -/

theorem ptpCtlWord_fields {en dom leader servo prof : Nat} (hen : en < 2) (hdom : dom < 256) (hleader : leader < 2) (hservo : servo < 4)
    (hprof : prof < 2) :
    let w : Word := BitVec.ofNat 32 (en <<< 16 + dom <<< 8 + leader <<< 7 + servo <<< 4 + prof)
    w.fld 16 1 = en ∧ w.fld 8 8 = dom ∧ w.fld 7 1 = leader ∧ w.fld 0 1 = prof := by
  intro w
  have hw : w.toNat = en * 65536 + dom * 256 + leader * 128 + servo * 16 + prof := by
    rw [BitVec.toNat_ofNat]
    simp only [Nat.shiftLeft_eq]
    omega
  simp only [Word.fld_eq, hw, Nat.reducePow]
  refine ⟨?_, ?_, ?_, ?_⟩ <;> omega

/-- R356: what stopping PTP clears. -/
def PtpSys.halted (t : PtpSys) (stop : Bool) : PtpSys := if stop then { t.lose with gm := 0 } else t

theorem PtpSys.halted_keeps (t : PtpSys) (stop : Bool) :
    (t.halted stop).ctl = t.ctl ∧ (t.halted stop).intv = t.intv ∧ ∀ j, (t.halted stop).port j = t.port j := by
  rw [PtpSys.halted]
  split
  · exact ⟨rfl, rfl, fun j => t.lose_port j⟩
  · exact ⟨rfl, rfl, fun _ => rfl⟩

/-- R356: the profile that a write of PTP_CTL leaves in force. -/
def PtpSys.nextProfile (t : PtpSys) (v : Word) : Bool := if t.en then t.aes67 else v.flag 0

/-- R356: PTP_CTL and PTP_INTV after a write. -/
def PtpSys.nextRegs (t : PtpSys) (v : Word) : Word × Word :=
  let prof := t.nextProfile v
  let chg := prof != t.aes67
  let dom := if chg then (profileDefaults prof).1 else if t.en then t.domNum else v.fld 8 8
  (BitVec.ofNat 32 ((v.fld 16 1) <<< 16 + dom <<< 8 + (v.fld 7 1) <<< 7 + (if v.fld 4 2 = 3 then t.servo else v.fld 4 2) <<< 4
    + if prof then 1 else 0), if chg then (profileDefaults prof).2 else t.intv)

/-- R356: the time core as a write of PTP_CTL leaves it, before the ports elect their masters. -/
def PtpSys.rewritten (t : PtpSys) (v : Word) : PtpSys :=
  ({ t with ctl := (t.nextRegs v).1, intv := (t.nextRegs v).2 } : PtpSys).halted (t.en && !v.flag 16)

theorem NetSys.writePtpCtl_eq (n : NetSys) (v : Word) (now : Nat) :
    n.writePtpCtl v now = ((({ n with ptp := n.ptp.rewritten v } : NetSys).elect 0 now false).elect 1 now false).withPtp
        (·.halted (n.ptp.en && !v.flag 16)) := rfl

theorem PtpSys.nextRegs_fields (t : PtpSys) (v : Word) :
    (t.nextRegs v).1.flag 16 = v.flag 16 ∧ (t.nextRegs v).1.flag 7 = v.flag 7 ∧ (t.nextRegs v).1.flag 0 = t.nextProfile v ∧
      (t.nextRegs v).1.fld 8 8 =
        if (t.nextProfile v != t.aes67) = true then (profileDefaults (t.nextProfile v)).1 else if t.en = true then t.domNum else v.fld 8 8 := by
  set dom := if (t.nextProfile v != t.aes67) = true then (profileDefaults (t.nextProfile v)).1 else if t.en = true then t.domNum else v.fld 8 8
    with hdom
  have hdomlt : dom < 256 := by
    rw [hdom]
    split
    · cases t.nextProfile v <;> decide
    · split
      · exact Word.fld_lt _ 8 8
      · exact Word.fld_lt v 8 8
  have hservolt : (if v.fld 4 2 = 3 then t.servo else v.fld 4 2) < 4 := by
    split
    · exact Word.fld_lt _ 4 2
    · exact Word.fld_lt v 4 2
  have hproflt : (if t.nextProfile v = true then 1 else 0) < 2 := by split <;> decide
  obtain ⟨h16, h8, h7, h0⟩ := ptpCtlWord_fields (Word.fld_lt v 16 1) hdomlt (Word.fld_lt v 7 1) hservolt hproflt
  refine ⟨Word.flag_of_fld_one h16, Word.flag_of_fld_one h7, ?_, h8⟩
  have hprof := (Word.fld_one _ 0).symm.trans h0
  change (if (t.nextRegs v).1.flag 0 = true then 1 else 0) = _ at hprof
  cases hv : t.nextProfile v <;> cases hf : (t.nextRegs v).1.flag 0 <;> simp_all

theorem NetSys.writePtpCtl_becomes (n : NetSys) (v : Word) (now : Nat) :
    (n.writePtpCtl v now).rx = n.rx ∧ (n.writePtpCtl v now).tx = n.tx ∧ (n.writePtpCtl v now).ptp.ctl = (n.ptp.nextRegs v).1 ∧
      (n.writePtpCtl v now).ptp.intv = (n.ptp.nextRegs v).2 ∧
      (n.ptp.en = true → v.flag 16 = false → (n.writePtpCtl v now).ptp.ok = false ∧ (n.writePtpCtl v now).ptp.gm = 0 ∧
        ((n.writePtpCtl v now).ptp.port 0).state = 0 ∧ ((n.writePtpCtl v now).ptp.port 1).state = 0) := by
  set stop := n.ptp.en && !v.flag 16 with hstop
  set a : NetSys := { n with ptp := n.ptp.rewritten v } with ha
  have hactl : a.ptp.ctl = (n.ptp.nextRegs v).1 := (PtpSys.halted_keeps _ stop).1
  have haintv : a.ptp.intv = (n.ptp.nextRegs v).2 := (PtpSys.halted_keeps _ stop).2.1
  have heq : n.writePtpCtl v now = ((a.elect 0 now false).elect 1 now false).withPtp (·.halted stop) := n.writePtpCtl_eq v now
  obtain ⟨t0, r0, h0⟩ := a.elect_eq 0 now false
  obtain ⟨t1, r1, h1⟩ := (a.elect 0 now false).elect_eq 1 now false
  obtain ⟨hctl0, hintv0⟩ := a.elect_regs 0 now false
  obtain ⟨hctl1, hintv1⟩ := (a.elect 0 now false).elect_regs 1 now false
  obtain ⟨hctl, hintv, hport⟩ := PtpSys.halted_keeps ((a.elect 0 now false).elect 1 now false).ptp stop
  rw [heq]
  refine ⟨?_, ?_, hctl.trans (hctl1.trans (hctl0.trans hactl)), hintv.trans (hintv1.trans (hintv0.trans haintv)), fun hen hv => ?_⟩
  · exact (congrArg NetSys.rx h1 :).trans (congrArg NetSys.rx h0 :)
  · exact (congrArg NetSys.tx h1 :).trans (congrArg NetSys.tx h0 :)
  · have hs : stop = true := by rw [hstop, hen, hv]; rfl
    have hdisabled : ∀ m : NetSys, m.ptp.ctl = (n.ptp.nextRegs v).1 → ∀ i, (m.elected i now false).state = 0 := by
      intro m hm i
      have hen' : m.ptp.en = false := by rw [PtpSys.en, hm, (n.ptp.nextRegs_fields v).1, hv]
      rw [NetSys.elected]
      simp only [hen', Bool.not_false, Bool.true_or, if_true]
      rfl
    have hlast : ((a.elect 0 now false).elect 1 now false).withPtp (·.halted stop) =
        ((a.elect 0 now false).elect 1 now false).withPtp fun t => { t.lose with gm := 0 } := by
      rw [hs]
      rfl
    refine ⟨?_, ?_, ?_, ?_⟩
    · rw [hlast]
      rfl
    · rw [hlast]
      rfl
    · exact (congrArg PtpPort.state ((hport 0).trans ((NetSys.elect_port_other (by decide) (by decide) (by decide) _ now false).trans
        (a.elect_port 0 now false)))).trans (hdisabled a hactl 0)
    · exact (congrArg PtpPort.state ((hport 1).trans (NetSys.elect_port _ 1 now false))).trans (hdisabled _ (hctl0.trans hactl) 1)

theorem completes_ptpCtlWrite {s : State} {r : Nat} {es : List Int} (v : Word) (freq : Int) (hr : r < 7) (hes : es.length = 3)
    (hc : s.commands r = true) :
    Completes (.ptpCtlWrite r v es freq) s [.net, .clk, .reports, .out] fun t => t.net.rx = s.net.rx ∧ t.net.tx = s.net.tx ∧
      t.net.ptp.en = v.flag 16 ∧ t.net.ptp.leaderEn = v.flag 7 ∧ t.net.ptp.aes67 = (if s.net.ptp.en = true then s.net.ptp.aes67 else v.flag 0) ∧
      (s.net.ptp.en = true → t.net.ptp.domNum = s.net.ptp.domNum ∧ t.net.ptp.intv = s.net.ptp.intv) ∧
      (s.net.ptp.en = false → v.flag 0 ≠ s.net.ptp.aes67 →
        t.net.ptp.domNum = (profileDefaults (v.flag 0)).1 ∧ t.net.ptp.intv = (profileDefaults (v.flag 0)).2) ∧
      (s.net.ptp.en = true → v.flag 16 = false → t.net.ptp.ok = false ∧ t.net.ptp.gm = 0 ∧ (t.net.ptp.port 0).state = 0 ∧
        (t.net.ptp.port 1).state = 0) := by
  obtain ⟨hrx, htx, hctl, hintv, hstop⟩ := s.net.writePtpCtl_becomes v s.us
  obtain ⟨h16, h7, h0, h8⟩ := s.net.ptp.nextRegs_fields v
  obtain ⟨t, hexec, ⟨hrx', htx', hptp, -⟩, hframe⟩ := completes_joins (c := .ptpCtlWrite r v es freq) (s := s) (f := fun n => n.writePtpCtl v s.us)
    (es := es) (freq := freq) (done_on (by simp [Instr.wf, hr, hes]) hc)
  refine ⟨t, hexec, ⟨hrx'.trans hrx, htx'.trans htx, ?_, ?_, ?_, fun hen => ?_, fun hen hprof => ?_, ?_⟩, hframe⟩
  · rw [PtpSys.en, hptp, hctl, h16]
  · rw [PtpSys.leaderEn, hptp, hctl, h7]
  · rw [PtpSys.aes67, hptp, hctl, h0, PtpSys.nextProfile]
  · have hkeep : s.net.ptp.nextProfile v = s.net.ptp.aes67 := if_pos hen
    rw [PtpSys.domNum, hptp, hctl, h8, hintv, PtpSys.nextRegs, hkeep, bne_self_eq_false, if_neg Bool.false_ne_true, if_pos hen]
    exact ⟨rfl, rfl⟩
  · have hnew : s.net.ptp.nextProfile v = v.flag 0 := if_neg (by rw [hen]; exact Bool.false_ne_true)
    have hchg : (v.flag 0 != s.net.ptp.aes67) = true := bne_iff_ne.mpr hprof
    rw [PtpSys.domNum, hptp, hctl, h8, hintv, PtpSys.nextRegs, hnew, if_pos hchg]
    simp only [hchg, if_true, and_self]
  · rw [hptp]
    exact hstop

/-- Settles O43: the servo by the counts of good and bad offsets, the election by the senders known, each command by what it writes. -/
theorem timeCoreCommands : Obligations.TimeCoreCommands := by
  unfold Obligations.TimeCoreCommands
  refine ⟨fun n i off hi hfollow hstate => ⟨fun hok hfirst hoff => NetSys.measure_step hfollow hstate hok hfirst hoff, fun hok hgood hoff => ?_,
      fun hok hgood => NetSys.measure_stays off hfollow hstate hok hgood, fun hok => NetSys.measure_ok off hfollow hstate hok⟩,
    fun s i es freq hi hes hup => completes_announceTimeout freq hi hes hup, fun s i es freq hi hes hup => completes_syncTimeout freq hi hes hup,
    fun s i ns hq hi hup hstate => completes_ptpAnnounceTx ns hq hi hup hstate, fun s i ns hq hi hup hstate => completes_ptpSyncTx ns hq hi hup hstate,
    fun s i ns hq hi hup hstate => completes_ptpDelayReqTx ns hq hi hup hstate, fun s r i v hr hi hc => completes_netPortEnWrite v hr hi hc,
    fun s r v es freq hr hes hc => completes_ptpCtlWrite v freq hr hes hc⟩
  obtain ⟨hok', hgood', -⟩ := n.ptp.measured_counts i off
  rw [NetSys.measure_judged hfollow hstate (.inr (.inr hoff))]
  exact ⟨PtpSys.judged_ok_of_good (hgood'.trans hgood) hoff (hok'.trans hok), rfl⟩

end Sys2Proof.Machine

/-!
SUPPORT. Frames that a network port accepts: ARP requests, echo requests, packets of streams (R327 to R343).
-/

namespace Sys2Proof.Machine

/-! ### A packet that a context on a domain takes (R338, R341 to R343) -/

theorem NetSys.ahead_congr {n n' : NetSys} (h : n'.od = n.od) (c : RxCtx) (d : Dom) (ts : Nat) : n'.ahead c d ts = n.ahead c d ts := by
  rw [NetSys.ahead, NetSys.ahead, NetSys.offsetOf, NetSys.offsetOf, h]

theorem NetSys.rtpRx_accepted {s : NetSys} {doms : Nat → Dom} {n ns : Nat} {r : Rtp} (hfits : (s.rxc n).fits r = true) (hdom : (s.rxc n).dom < 3)
    (hahead : 0 < s.ahead (s.rxc n) (doms (s.rxc n).dom) r.ts)
    (htime : (ns : Int) + 4000 ≤ tickNs (doms (s.rxc n).dom) (s.ahead (s.rxc n) (doms (s.rxc n).dom) r.ts))
    (hcap : s.ahead (s.rxc n) (doms (s.rxc n).dom) r.ts + (s.rxc n).ptime - 1 ≤ (s.rxc n).cap) (i : Nat) :
    ∃ dup pkts, s.rtpRx doms n i ns r = (if (s.rxc n).present = true then s else s.note 0x0703 8 n (s.rxc n).dom true).setRx n
      { s.rxc n with ssrc := some r.ssrc, present := true, legOk := setLeg (s.rxc n).legOk i true, lastNs := setLeg (s.rxc n).lastNs i ns
                     dup := dup, buf := (s.rxc n).filled r, pkts := pkts } := by
  have hnot : ¬ (s.rxc n).dom = 3 := by omega
  have hlate : ¬ (decide (s.ahead (s.rxc n) (doms (s.rxc n).dom) r.ts ≤ 0) ||
      decide ((ns : Int) + 4000 > tickNs (doms (s.rxc n).dom) (s.ahead (s.rxc n) (doms (s.rxc n).dom) r.ts))) = true := by
    simp only [Bool.or_eq_true, decide_eq_true_eq, not_or]
    omega
  have hearly : ¬ ((!false || (s.rxc n).heard) &&
      decide (s.ahead (s.rxc n) (doms (s.rxc n).dom) r.ts + (s.rxc n).ptime - 1 > (s.rxc n).cap)) = true := by
    simp only [Bool.and_eq_true, decide_eq_true_eq, not_and]
    omega
  rw [NetSys.rtpRx]
  simp only [hfits, hnot, Bool.not_true, Bool.false_eq_true, if_false]
  exact ⟨_, _, (if_neg hlate).trans (if_neg hearly)⟩

/-! ### Frames by type (R327, R329, R331, R333) -/

theorem NetSys.frameRx_arp {n : NetSys} {i : Nat} {f : List Byte} {l : L2} (hen : (n.port i).en = true) (hlink : (n.port i).link = true)
    (hparse : parseEth (n.port i) f = .ok l) (htype : l.type = 0x0806) (hdst : l.dst = (n.port i).mac ∨ l.dst = bcastMac) (doms : Nat → Dom)
    (now ns : Nat) : n.frameRx doms i now ns f = (n.arpRx i now l.body, 0) := by
  rw [NetSys.frameRx]
  simp only [hparse]
  refine (if_neg (by simp [hen, hlink])).trans ((if_neg ?_).trans (if_pos htype))
  obtain h | h := hdst <;> simp [h, htype]

/-- A datagram to the port's own address, or to a group that it is in, passes the address filters of R327. -/
theorem NetSys.datagram_passes {n : NetSys} {i : Nat} {l : L2} {ip : Ip4}
    (hdst : (l.dst = (n.port i).mac ∧ ip.dst = (n.port i).ip.toNat) ∨ (l.dst = groupMac ip.dst ∧ (n.groups i).contains ip.dst = true)) :
    (l.dst = (n.port i).mac ∨ (allHosts :: n.groups i).any (fun g => l.dst == groupMac g) = true) ∧
      (ip.dst = (n.port i).ip.toNat ∨ ip.dst ∈ n.groups i) := by
  obtain ⟨hmac, hip⟩ | ⟨hmac, hgroup⟩ := hdst
  · exact ⟨.inl hmac, .inl hip⟩
  · have hmem : ip.dst ∈ n.groups i := by simpa using hgroup
    exact ⟨.inr (List.any_eq_true.mpr ⟨ip.dst, List.mem_cons_of_mem _ hmem, by simp [hmac]⟩), .inr hmem⟩

theorem NetSys.frameRx_icmp {n : NetSys} {i : Nat} {f : List Byte} {l : L2} {ip : Ip4} (hen : (n.port i).en = true) (hlink : (n.port i).link = true)
    (hparse : parseEth (n.port i) f = .ok l) (htype : l.type = 0x0800) (hip : parseIp l.body = some ip) (hmac : l.dst = (n.port i).mac)
    (hdst : ip.dst = (n.port i).ip.toNat) (hproto : ip.proto = 1) (doms : Nat → Dom) (now ns : Nat) :
    n.frameRx doms i now ns f = (n.icmpRx i now l.src ip, 0) := by
  rw [NetSys.frameRx]
  simp only [hparse, hip, hproto]
  exact (if_neg (by simp [hen, hlink])).trans ((if_neg (by simp [hmac])).trans ((if_neg (by simp [htype])).trans (if_neg (by simp [hdst]))))

/-- A packet that one context takes. -/
theorem NetSys.frameRx_rtp {n : NetSys} {i k dport : Nat} {f data : List Byte} {l : L2} {ip : Ip4} {r : Rtp} (hen : (n.port i).en = true)
    (hlink : (n.port i).link = true) (hparse : parseEth (n.port i) f = .ok l) (htype : l.type = 0x0800) (hip : parseIp l.body = some ip)
    (hdst : (l.dst = (n.port i).mac ∧ ip.dst = (n.port i).ip.toNat) ∨ (l.dst = groupMac ip.dst ∧ (n.groups i).contains ip.dst = true))
    (hproto : ip.proto = 17) (hudp : parseUdp ip = some (dport, data)) (hevent : dport ≠ 319) (hgeneral : dport ≠ 320)
    (hctx : n.ctxsFor i ip dport = [k]) (hrtp : parseRtp data = some r) (hfits : (n.rxc k).fits r = true) (doms : Nat → Dom) (now ns : Nat) :
    n.frameRx doms i now ns f = ((n.modPort i fun p => { p with rxFrames := p.rxFrames + 1 }).rtpRx doms k i ns r, 0) := by
  obtain ⟨hframe, haddr⟩ := NetSys.datagram_passes hdst
  rw [NetSys.frameRx]
  simp only [hparse, hip, hproto, hudp, hctx, hrtp]
  refine (if_neg (by simp [hen, hlink])).trans ((if_neg ?_).trans ((if_neg (by simp [htype])).trans ((if_neg ?_).trans ((if_neg (by simp [hevent, hgeneral])).trans (if_pos (by simp [hfits]))))))
  · obtain h | h := hframe
    · simp [h]
    · rw [h]
      simp
  · obtain h | h := haddr <;> simp [h]

/-! ### ARP and echo requests (R329, R330, R333) -/

theorem NetSys.arpRx_request {n : NetSys} {i : Nat} {b : List Byte} (hlen : 28 ≤ b.length) (hhw : be b 0 2 = 1) (hpro : be b 2 2 = 0x0800)
    (hsizes : be b 4 2 = 0x0604) (hop : be b 6 2 = 1) (htarget : be b 24 4 = (n.port i).ip.toNat) (hsender : be b 14 4 ≠ (n.port i).ip.toNat)
    (hnew : (n.port i).arpOf (be b 14 4) = none) (now : Nat) :
    n.arpRx i now b = (n.setPort i { n.port i with rxFrames := (n.port i).rxFrames + 1 }).send i
      (ethFrame (n.port i) (be b 8 6) 0x0806 (arpBody (n.port i) 2 (be b 8 6) (be b 14 4))) := by
  have hcache : ∀ w, ({ n.port i with rxFrames := w } : NetPort).arpOf (be b 14 4) = none := fun _ => hnew
  rw [NetSys.arpRx]
  simp [hhw, hpro, hsizes, hop, htarget, hsender, Nat.not_lt.mpr hlen, NetSys.modPort, hcache]

theorem NetSys.icmpRx_echo {n : NetSys} {i now src : Nat} {ip : Ip4} (hping : (n.port i).ctl.flag 8 = true) (htype : be ip.payload 0 2 = 0x0800)
    (hsum : inetOk ip.payload = true) (hmin : 8 ≤ ip.payload.length) (hmax : ip.payload.length ≤ 1480) (hdst : ip.dst = (n.port i).ip.toNat)
    (hrecent : (n.port i).icmp = []) :
    n.icmpRx i now src ip = (n.setPort i { n.port i with icmp := [now], rxFrames := (n.port i).rxFrames + 1 }).send i
      (ethFrame (n.port i) src 0x0800 (ipv4 (n.port i) 0 1 ip.src []
        (beBytes 2 0 ++ beBytes 2 (inetSum (beBytes 2 0 ++ beBytes 2 0 ++ ip.payload.drop 4)) ++ ip.payload.drop 4))) := by
  rw [NetSys.icmpRx]
  simp [hping, htype, hsum, hmin, hmax, hdst, hrecent, NetSys.modPort]

/-! ### What an accepted frame leaves -/

theorem leg_setLeg_same {α : Type} (p : α × α) (i : Nat) (x : α) : leg (setLeg p i x) i = x := by
  rw [leg, setLeg]
  split <;> rfl

/-- A port that answers a frame with one of its own. -/
theorem completes_frameAnswered {s : State} {i ns : Nat} {f g : List Byte} {es : List Int} {p : NetPort} (hi : i < 2) (hes : es.length = 3)
    (hup : s.netUp = true) (hrx : s.net.frameRx s.dom i (s.at_ ns).us ns f = ((s.net.setPort i p).send i g, 0)) (freq : Int) :
    Completes (.frameReceive i ns f es freq) s [.net, .clk, .reports, .out, .time] fun t =>
      (t.ns = ns ∧ t.net.ptp = s.net.ptp ∧ t.net.tx = s.net.tx ∧ ∀ j, j < 2 → j ≠ i → t.net.port j = s.net.port j) ∧ t.net.rx = s.net.rx ∧
        t.net.port i = { p with txFrames := p.txFrames + 1 } ∧ (s.quiet = true → s.txOn = true → t.out = [.netFrame i g]) := by
  have hplain := State.frameReceive_plain hrx (by simp) es freq
  refine ⟨_, exec_frameReceive hi hes hup ns f freq, ?_, (s.frameReceive_within i ns f es freq).mono.settle_open⟩
  rw [hplain]
  refine ⟨⟨rfl, ?_, ?_, fun j hj hne => ?_⟩, ?_, ?_, fun hq htx => State.settle_out_sent (l := [(i, g)]) hq htx rfl rfl ?_⟩
  · exact (NetSys.send_ptp _ i g).trans (NetSys.setPort_ptp ..)
  · exact (NetSys.send_tx _ i g).trans (NetSys.setPort_tx ..)
  · exact (NetSys.port_send_other hi hj hne _ g).trans (NetSys.port_setPort_other hi hj hne _ _)
  · exact (NetSys.send_rx _ i g).trans (NetSys.setPort_rx ..)
  · exact (NetSys.port_send_same _ i g).trans (by rw [NetSys.port_setPort_same])
  · exact congrArg (· ++ [(i, g)]) (NetSys.setPort_sent s.net i p)

theorem NetSys.note_if_keeps (n : NetSys) (b : Bool) (cause cls inst dom : Nat) (clear : Bool) :
    (if b = true then n else n.note cause cls inst dom clear).rx = n.rx ∧ (if b = true then n else n.note cause cls inst dom clear).tx = n.tx ∧
      (if b = true then n else n.note cause cls inst dom clear).ptp = n.ptp ∧
      ∀ j, (if b = true then n else n.note cause cls inst dom clear).port j = n.port j := by
  cases b <;> exact ⟨rfl, rfl, rfl, fun _ => rfl⟩

/-- R338, R341 to R343: what a packet leaves that a context on a domain takes, neither late nor early. -/
theorem NetSys.rtpRx_takes {m : NetSys} {doms : Nat → Dom} {n ns : Nat} {r : Rtp} (hrxwf : Memory.wf (fun _ => RxCtx.reset) m.rx = true)
    (hfits : (m.rxc n).fits r = true) (hdom : (m.rxc n).dom < 3) (hahead : 0 < m.ahead (m.rxc n) (doms (m.rxc n).dom) r.ts)
    (htime : (ns : Int) + 4000 ≤ tickNs (doms (m.rxc n).dom) (m.ahead (m.rxc n) (doms (m.rxc n).dom) r.ts))
    (hcap : m.ahead (m.rxc n) (doms (m.rxc n).dom) r.ts + (m.rxc n).ptime - 1 ≤ (m.rxc n).cap) (i : Nat) :
    let x := m.rtpRx doms n i ns r
    let c := x.rxc n
    x.tx = m.tx ∧ x.ptp = m.ptp ∧ (∀ j, x.port j = m.port j) ∧ (∀ k, k ≠ n → x.rxc k = m.rxc k) ∧ c.present = true ∧ c.ssrc = some r.ssrc ∧
      leg c.legOk i = true ∧ leg c.lastNs i = ns ∧ c.late = (m.rxc n).late ∧ c.early = (m.rxc n).early ∧ c.buf = (m.rxc n).filled r ∧
      ((m.rxc n).present = false → ⟨0x0703, 8, n, (m.rxc n).dom, true⟩ ∈ x.rep) := by
  obtain ⟨dup, pkts, htaken⟩ := NetSys.rtpRx_accepted hfits hdom hahead htime hcap i
  obtain ⟨hmrx, hmtx, hmptp, hmport⟩ := m.note_if_keeps (m.rxc n).present 0x0703 8 n (m.rxc n).dom true
  have hrxc := NetSys.rxc_setRx (hmrx ▸ hrxwf) n
  have hn := fun c => (hrxc n c).trans (if_pos rfl)
  dsimp only
  rw [htaken]
  refine ⟨hmtx, hmptp, hmport, fun k hk => (hrxc k _).trans ((if_neg hk).trans ?_), (congrArg RxCtx.present (hn _) :), (congrArg RxCtx.ssrc (hn _) :),
    (congrArg (fun c => leg c.legOk i) (hn _) :).trans (leg_setLeg_same ..), (congrArg (fun c => leg c.lastNs i) (hn _) :).trans (leg_setLeg_same ..),
    (congrArg RxCtx.late (hn _) :), (congrArg RxCtx.early (hn _) :), (congrArg RxCtx.buf (hn _) :), fun hpresent => ?_⟩
  · exact congrArg (Memory.get (fun _ => RxCtx.reset) · k) hmrx
  · rw [if_neg (by rw [hpresent]; decide)]
    exact NetSys.mem_note ..

/-- Settles O44: an ARP and an echo request are answered by one frame, a packet that one context takes is put into its buffer. -/
theorem frameReceiveAccepted : Obligations.FrameReceiveAccepted := by
  unfold Obligations.FrameReceiveAccepted
  dsimp only
  refine ⟨fun s i ns f es freq l ⟨hi, hup, hen, hlink⟩ hes hparse htype hdst hlen hhw hpro hsizes hop htarget hsender hnew => ?_,
    fun s i ns f es freq l ip ⟨hi, hup, hen, hlink⟩ hes hparse htype hmac hip hdst hproto hping hicmp hsum hmin hmax hrecent => ?_,
    fun s i ns n dport f data es freq l ip r hwf ⟨hi, hup, hen, hlink⟩ hes hparse htype hip hdst hproto hudp hevent hgeneral hctx hrtp hbuf hdom
      hptime hpt hlength hssrc hahead htime hcap => ?_⟩
  · exact completes_frameAnswered hi hes hup ((NetSys.frameRx_arp hen hlink hparse htype hdst ..).trans
      (congrArg (·, 0) (NetSys.arpRx_request hlen hhw hpro hsizes hop htarget hsender hnew _))) freq
  · obtain ⟨t, hexec, ⟨hrest, hrx, hport, hout⟩, honly⟩ := completes_frameAnswered hi hes hup
      ((NetSys.frameRx_icmp hen hlink hparse htype hip hmac hdst hproto ..).trans
        (congrArg (·, 0) (NetSys.icmpRx_echo hping hicmp hsum hmin hmax hdst hrecent))) freq
    exact ⟨t, hexec, ⟨hrest, hrx, by rw [hport], hout⟩, honly⟩
  · have hfits : (s.net.rxc n).fits r = true := by
      refine RxCtx.fits_iff.mpr ⟨hpt, hlength, fun x hx => ?_⟩
      obtain h | h := hssrc
      · exact absurd (h.symm.trans hx) (by simp)
      · exact Option.some.inj (hx.symm.trans h)
    have hcount := NetSys.setPort_rx s.net i { s.net.port i with rxFrames := (s.net.port i).rxFrames + 1 }
    have hrxc : ∀ k, (s.net.modPort i fun p => { p with rxFrames := p.rxFrames + 1 }).rxc k = s.net.rxc k := fun k =>
      congrArg (Memory.get (fun _ => RxCtx.reset) · k) hcount
    have hod : (s.net.modPort i fun p => { p with rxFrames := p.rxFrames + 1 }).od = s.net.od := NetSys.setPort_od ..
    obtain ⟨htx, hptp, hport, hother, hpresent, hlatch, hleg, hlast, hlate, hearly, hfilled, hclear⟩ :=
      NetSys.rtpRx_takes (m := s.net.modPort i fun p => { p with rxFrames := p.rxFrames + 1 }) (doms := s.dom) (n := n) (ns := ns) (r := r)
        (hcount ▸ (State.unitsWf_ctxs hwf).1) (by rw [hrxc]; exact hfits) (by rw [hrxc]; exact hdom)
        (by rw [hrxc, NetSys.ahead_congr hod]; exact hahead) (by rw [hrxc, NetSys.ahead_congr hod]; exact htime)
        (by rw [hrxc, NetSys.ahead_congr hod]; exact hcap) i
    rw [hrxc] at hlate hearly hfilled hclear
    refine ⟨_, exec_frameReceive hi hes hup ns f freq, ?_, (s.frameReceive_within i ns f es freq).mono.settle_open⟩
    rw [State.frameReceive_plain (NetSys.frameRx_rtp hen hlink hparse htype hip hdst hproto hudp hevent hgeneral hctx hrtp hfits s.dom (s.at_ ns).us ns)
      (hptp.trans (NetSys.setPort_ptp ..))]
    refine ⟨⟨rfl, hptp.trans (NetSys.setPort_ptp ..), htx.trans (NetSys.setPort_tx ..), fun j hj hne =>
      (hport j).trans (NetSys.port_setPort_other hi hj hne ..)⟩, ?_, fun k hk => (hother k hk).trans (hrxc k), hpresent, hlatch, hleg, hlast, hlate, hearly,
      fun k hk => ?_, fun hpre => ?_⟩
    · exact (congrArg NetPort.rxFrames ((hport i).trans (NetSys.port_setPort_same ..)) :)
    · exact (congrArg (Memory.get (fun _ => none) · (r.stamp k)) hfilled :).trans (RxCtx.get_filled_stamp r hbuf hptime.le hk)
    · exact State.mem_flying_of_net (r := ⟨0x0703, 8, n, (s.net.rxc n).dom, true⟩) (hclear hpre)

end Sys2Proof.Machine

/-!
SUPPORT. Ports of the serial block: what a write of one port leaves, reports of ports, and the commands that change one port (R367 to R370).
-/

namespace Sys2Proof.Machine

/-! ### One port -/

theorem State.unitsWf_ports {s : State} (h : s.unitsWf = true) : Memory.wf SerPort.reset s.ports.ports = true := by
  simp only [State.unitsWf, Bool.and_eq_true, and_assoc] at h
  obtain ⟨-, -, -, -, hports, -⟩ := h
  exact hports

theorem Serial.port_setPort {x : Serial} (hwf : Memory.wf SerPort.reset x.ports = true) (p o : Nat) (q : SerPort) :
    (x.setPort p q).port o = if o = p then q else x.port o := Memory.get_set _ _ _ _ _ hwf

theorem Serial.port_setPort_same {x : Serial} (hwf : Memory.wf SerPort.reset x.ports = true) (p : Nat) (q : SerPort) :
    (x.setPort p q).port p = q := Memory.get_set_same _ _ _ _ hwf

theorem Serial.port_setPort_other {p o : Nat} (h : o ≠ p) (x : Serial) (q : SerPort) : (x.setPort p q).port o = x.port o :=
  Memory.get_set_other _ _ _ _ _ h

@[simp] theorem Serial.setPort_rep (x : Serial) (p : Nat) (q : SerPort) : (x.setPort p q).rep = x.rep := rfl
@[simp] theorem Serial.note_port (x : Serial) (p cause : Nat) (clear : Bool) (o : Nat) : (x.note p cause clear).port o = x.port o := rfl

theorem Serial.setPort_wf {x : Serial} (hwf : Memory.wf SerPort.reset x.ports = true) (p : Nat) (q : SerPort) :
    Memory.wf SerPort.reset (x.setPort p q).ports = true := Memory.wf_set _ _ _ _ hwf

theorem Serial.mem_note (x : Serial) (p cause : Nat) (clear : Bool) : (p, cause, clear) ∈ (x.note p cause clear).rep := by simp [Serial.note]

/-- One port has become `q`; the others are as they were, and no report is lost. -/
structure Serial.Becomes (p : Nat) (q : SerPort) (x y : Serial) : Prop where
  wf : Memory.wf SerPort.reset y.ports = true
  port : y.port p = q
  other : ∀ o, o ≠ p → y.port o = x.port o
  rep : ∀ r ∈ x.rep, r ∈ y.rep

namespace Serial.Becomes

variable {p : Nat} {q q' : SerPort} {x y z : Serial}

theorem refl (hwf : Memory.wf SerPort.reset x.ports = true) : x.Becomes p (x.port p) x := ⟨hwf, rfl, fun _ _ => rfl, fun _ h => h⟩

theorem set (h : x.Becomes p q y) (q' : SerPort) : x.Becomes p q' (y.setPort p q') :=
  ⟨Serial.setPort_wf h.wf p q', Serial.port_setPort_same h.wf p q', fun o ho => (Serial.port_setPort_other ho y q').trans (h.other o ho), h.rep⟩

theorem note (h : x.Becomes p q y) (o cause : Nat) (clear : Bool) : x.Becomes p q (y.note o cause clear) :=
  ⟨h.wf, h.port, h.other, fun r hr => List.mem_append_left _ (h.rep r hr)⟩

theorem trans (h : x.Becomes p q y) (h' : y.Becomes p q' z) : x.Becomes p q' z :=
  ⟨h'.wf, h'.port, fun o ho => (h'.other o ho).trans (h.other o ho), fun r hr => h'.rep r (h.rep r hr)⟩

end Serial.Becomes

/-! ### Reports of ports -/

/-- The report of a report of the serial block. -/
def Serial.report (x : Serial) (r : Nat × Nat × Bool) : Report :=
  let who := if r.2.1 = 0x303 ∨ r.2.1 = 0x304 then (7, r.1) else (portClass r.1, portInst r.1)
  ⟨r.2.1, who.1, who.2, domOr3 (x.port r.1).dom, r.2.2, false, 0⟩

theorem State.mem_flying_of_ports {s : State} {r : Nat × Nat × Bool} (h : r ∈ s.ports.rep) : s.ports.report r ∈ s.settle.health.flying := by
  have hr : s.ports.report r ∈ s.ports.rep.map s.ports.report := List.mem_map_of_mem h
  have hunits : s.settle.health.flying = s.health.flying ++ s.unitReports := rfl
  rw [hunits, State.unitReports]
  simp only [List.mem_append]
  exact .inr (.inl (.inl (.inr hr)))

theorem State.unitReports_withPorts {s : State} {f : Serial → Serial} (hrep : (f s.ports).rep = s.ports.rep)
    (hctl : ∀ p, ((f s.ports).port p).ctl = (s.ports.port p).ctl) : (s.withPorts f).unitReports = s.unitReports := by
  have hreport : (f s.ports).rep.map (f s.ports).report = s.ports.rep.map s.ports.report := by
    rw [hrep]
    refine List.map_congr_left fun r _ => ?_
    simp only [Serial.report, SerPort.dom, hctl]
  simp only [State.unitReports, State.withPorts_facets, State.withPorts_tiles, State.withPorts_mem, State.withPorts_dram, State.withPorts_net,
    State.withPorts_clk, State.withPorts_ports, State.withPorts_links, State.withPorts_host]
  exact congrArg (fun l => _ ++ l ++ _ ++ _) hreport

/-! ### Commands that change ports alone -/

/-- A command of the ports that may report. -/
theorem completes_withPorts_noted {i : Instr} {s : State} {f : Serial → Serial} (hexec : exec i s = .next (s.withPorts f).settle) :
    Completes i s [.ports, .reports] fun t => t = (s.withPorts f).settle :=
  ⟨_, hexec, rfl, (s.within_ports f).mono.settle (fun h => absurd (by decide) h) fun _ => ⟨rfl, rfl, rfl⟩⟩

/-- A command of the ports that reports nothing and leaves every CTL as it is. -/
theorem completes_withPorts_silent {i : Instr} {s : State} {f : Serial → Serial} (hexec : exec i s = .next (s.withPorts f).settle)
    (hrep : (f s.ports).rep = s.ports.rep) (hctl : ∀ p, ((f s.ports).port p).ctl = (s.ports.port p).ctl) :
    Completes i s [.ports] fun t => t = (s.withPorts f).settle :=
  ⟨_, hexec, rfl, (s.within_ports f).settle (fun _ => State.unitReports_withPorts hrep hctl) fun _ => ⟨rfl, rfl, rfl⟩⟩

/-- A command that changes one port, and may report of it. -/
theorem completes_becomes {i : Instr} {s : State} {f : Serial → Serial} {p : Nat} {q : SerPort} (hexec : exec i s = .next (s.withPorts f).settle)
    (hb : s.ports.Becomes p q (f s.ports)) :
    Completes i s [.ports, .reports] fun t => (∀ o, o ≠ p → t.ports.port o = s.ports.port o) ∧ t.ports.port p = q ∧
      ∀ cause clear, cause ≠ 0x303 → cause ≠ 0x304 → (p, cause, clear) ∈ (f s.ports).rep →
        ⟨cause, portClass p, portInst p, domOr3 q.dom, clear, false, 0⟩ ∈ t.health.flying := by
  obtain ⟨t, hnext, rfl, honly⟩ := completes_withPorts_noted hexec
  refine ⟨_, hnext, ⟨hb.other, hb.port, fun cause clear hin hout hmem => ?_⟩, honly⟩
  have hflying := State.mem_flying_of_ports (s := s.withPorts f) hmem
  rwa [Serial.report, if_neg (by simp [hin, hout]), State.withPorts_ports, hb.port] at hflying

/-- A command that changes one port but for its CTL, and reports nothing. -/
theorem completes_becomes_silent {i : Instr} {s : State} {f : Serial → Serial} {p : Nat} {q : SerPort} (hexec : exec i s = .next (s.withPorts f).settle)
    (hb : s.ports.Becomes p q (f s.ports)) (hrep : (f s.ports).rep = s.ports.rep) (hctl : q.ctl = (s.ports.port p).ctl) :
    Completes i s [.ports] fun t => (∀ o, o ≠ p → t.ports.port o = s.ports.port o) ∧ t.ports.port p = q := by
  have hctls : ∀ o, ((f s.ports).port o).ctl = (s.ports.port o).ctl := fun o => by
    by_cases ho : o = p
    · rw [ho, hb.port, hctl]
    · rw [hb.other o ho]
  obtain ⟨t, hnext, rfl, honly⟩ := completes_withPorts_silent hexec hrep hctls
  exact ⟨_, hnext, ⟨hb.other, hb.port⟩, honly⟩

/-! ### Losses and recoveries (R369, R370) -/

theorem hasInput_of_lt {p : Nat} (hp : p < 28) : hasInput p = true := by
  rw [hasInput, portKind]
  split_ifs <;> rfl

/-- R369: a port whose input is lost. -/
def SerPort.lost (q : SerPort) : SerPort :=
  { q with loss := true, rate := 0, gap := false, stable := 0, csBits := [], fade := if q.gap then q.fade else q.fade.start }

theorem Serial.lose_eq {x : Serial} {p : Nat} (hinput : hasInput p = true) (hslave : isMaster p (x.port p) = false) (hloss : (x.port p).loss = false)
    (hrun : (x.port p).run = .running) : x.lose p = (x.setPort p (x.port p).lost).note p 0x0800 false :=
  if_neg (by simp [hinput, hslave, hloss, hrun])

theorem completes_inputLoss {s : State} {p : Nat} (hwf : s.unitsWf = true) (hp : p < 28) (hup : s.blockUp 2 = true)
    (hslave : isMaster p (s.ports.port p) = false) (hloss : (s.ports.port p).loss = false) (hrun : (s.ports.port p).run = .running) :
    Completes (.inputLoss p) s [.ports, .reports] fun t => (∀ o, o ≠ p → t.ports.port o = s.ports.port o) ∧
      t.ports.port p = (s.ports.port p).lost ∧
      ⟨0x800, portClass p, portInst p, domOr3 (s.ports.port p).dom, false, false, 0⟩ ∈ t.health.flying := by
  have hexec : exec (.inputLoss p) s = .next (s.withPorts fun x => x.lose p).settle := done_on (by simp [Instr.wf]; omega) hup
  have hlose := Serial.lose_eq (hasInput_of_lt hp) hslave hloss hrun
  have hb : s.ports.Becomes p (s.ports.port p).lost (s.ports.lose p) :=
    hlose ▸ ((Serial.Becomes.refl (State.unitsWf_ports hwf)).set _).note p 0x0800 false
  obtain ⟨t, hnext, ⟨hother, hport, hreport⟩, honly⟩ := completes_becomes hexec hb
  exact ⟨t, hnext, ⟨hother, hport, hreport 0x800 false (by decide) (by decide) (hlose ▸ Serial.mem_note ..)⟩, honly⟩

/-- R369, R370: a port whose LOSS clears. -/
def SerPort.regained (q : SerPort) : SerPort := ({ q with loss := false, await := false, stable := 0 } : SerPort).recover

theorem Serial.regain_eq {x : Serial} {p : Nat} (hloss : (x.port p).loss = true) (hstable : 256 + (x.port p).queue.length ≤ (x.port p).stable) :
    x.regain p = (x.note p 0x0800 true).setPort p (x.port p).regained := by
  rw [Serial.regain]
  simp only [hloss, if_true]
  exact if_pos (by simp [hstable])

theorem SerPort.recover_loss (q : SerPort) : q.recover.loss = q.loss ∧ q.recover.stable = q.stable ∧ q.recover.dom = q.dom := by
  rw [SerPort.recover]
  split <;> exact ⟨rfl, rfl, rfl⟩

theorem completes_lossRecovery {s : State} {p : Nat} (hwf : s.unitsWf = true) (hp : p < 36) (hup : s.blockUp 2 = true)
    (hloss : (s.ports.port p).loss = true) (hstable : 256 + (s.ports.port p).queue.length ≤ (s.ports.port p).stable) :
    Completes (.lossRecovery p) s [.ports, .reports] fun t => (∀ o, o ≠ p → t.ports.port o = s.ports.port o) ∧
      t.ports.port p = (s.ports.port p).regained ∧
      ⟨0x800, portClass p, portInst p, domOr3 (s.ports.port p).dom, true, false, 0⟩ ∈ t.health.flying := by
  have hexec : exec (.lossRecovery p) s = .next (s.withPorts fun x => x.regain p).settle := done_on (by simpa [Instr.wf] using hp) hup
  have hregain := Serial.regain_eq hloss hstable
  have hb : s.ports.Becomes p (s.ports.port p).regained (s.ports.regain p) :=
    hregain ▸ ((Serial.Becomes.refl (State.unitsWf_ports hwf)).note p 0x0800 true).set _
  obtain ⟨t, hnext, ⟨hother, hport, hreport⟩, honly⟩ := completes_becomes hexec hb
  refine ⟨t, hnext, ⟨hother, hport, ?_⟩, honly⟩
  have hmem := hreport 0x800 true (by decide) (by decide) (hregain ▸ Serial.mem_note ..)
  rwa [SerPort.regained, (SerPort.recover_loss _).2.2] at hmem

/-! ### The end of a fade (R368) -/

/-- The end of a fade-out, or of a ramp-back, of a port in a rate domain. -/
def SerPort.faded (q : SerPort) (back : Bool) : SerPort :=
  { q with fade := if back = true then q.fade.endBack else q.fade.endOut, outFade := if back = true then q.outFade.endBack else q.outFade.endOut }

theorem Serial.fadeEnd_eq {x : Serial} {p : Nat} {back : Bool} (h : back = true ∨ (x.port p).dom ≠ 3) :
    x.fadeEnd p back = x.setPort p ((x.port p).faded back) := by
  rw [Serial.fadeEnd, SerPort.faded]
  obtain rfl | hdom := h
  · rfl
  · cases back
    · simp [hdom]
    · rfl

theorem completes_fadeEnd {i : Instr} {s : State} {p : Nat} {back : Bool} (hwf : s.unitsWf = true)
    (hexec : exec i s = .next (s.withPorts fun x => x.fadeEnd p back).settle) (h : back = true ∨ (s.ports.port p).dom ≠ 3) :
    Completes i s [.ports] fun t => (∀ o, o ≠ p → t.ports.port o = s.ports.port o) ∧ t.ports.port p = (s.ports.port p).faded back := by
  have heq := Serial.fadeEnd_eq h
  have hb : s.ports.Becomes p ((s.ports.port p).faded back) (s.ports.fadeEnd p back) :=
    heq ▸ (Serial.Becomes.refl (State.unitsWf_ports hwf)).set _
  exact completes_becomes_silent hexec hb (congrArg Serial.rep heq :) rfl

/-! ### Rates (R367, R369) -/

/-- R369: whether a port with rate `r` has more than 200 ppm to the rate of its domain, and no mismatch yet. -/
def SerPort.strays (p : Nat) (q : SerPort) (r dr : Nat) : Bool :=
  r != 0 && q.dom != 3 && !isMaster p q && decide ((if r < dr then dr - r else r - dr) * 1000000 > 200 * dr) && !q.mis

/-- R369: the mismatch of a port that strays. -/
def Serial.stray (y : Serial) (p r dr : Nat) : Serial :=
  if (y.port p).strays p r dr = true then (y.setPort p { y.port p with mis := true, fade := (y.port p).fade.start }).note p 0x0802 false else y

/-- R365: the BCLK limit of a port on its own clock. -/
def Serial.judgeOwn (y : Serial) (p r : Nat) : Serial := if (y.port p).dom = 3 then y.setPort p ((y.port p).judge p r) else y

/-- R367: a port that shows a rate, with what it says of a change. -/
def SerPort.shown (q : SerPort) (r : Nat) (c : Bool) (rr : Nat) : SerPort := { q with rate := r, chg := c, repRate := rr }

/-- R367: the rate shown, and the report of a rate that has changed. -/
def Serial.showRate (x : Serial) (p r : Nat) : Serial :=
  let q := x.port p
  if r != 0 && q.rband != 0 && (if r < q.repRate then q.repRate - r else r - q.repRate) > q.rband then
    (x.setPort p (q.shown r true r)).note p 0x0803 false
  else x.setPort p (q.shown r q.chg q.repRate)

theorem Serial.rateUpdate_eq {x : Serial} {p : Nat} (hen : (x.port p).en = true) (hinput : hasInput p = true) (hrun : (x.port p).run ≠ .off)
    (rate dr : Nat) :
    x.rateUpdate p rate dr = ((x.showRate p (if (x.port p).loss = true then 0 else rate)).stray p
      (if (x.port p).loss = true then 0 else rate) dr).judgeOwn p (if (x.port p).loss = true then 0 else rate) := by
  rw [Serial.rateUpdate]
  refine (if_neg (by simp [hen, hinput, hrun])).trans ?_
  simp only [Serial.judgeOwn, Serial.stray, Serial.showRate, SerPort.shown, SerPort.strays, bne, Bool.and_eq_true, decide_eq_true_eq]

theorem Serial.becomes_showRate {x : Serial} (hwf : Memory.wf SerPort.reset x.ports = true) (p r : Nat) :
    ∃ c rr, x.Becomes p ((x.port p).shown r c rr) (x.showRate p r) :=
  have hx := Serial.Becomes.refl (p := p) hwf
  iteInduction (motive := fun y => ∃ c rr, x.Becomes p ((x.port p).shown r c rr) y) (fun _ => ⟨_, _, (hx.set _).note p 0x0803 false⟩)
    fun _ => ⟨_, _, hx.set _⟩

theorem Serial.Becomes.strayed {x y : Serial} {p r dr : Nat} {q : SerPort} (h : x.Becomes p q y) (hs : q.strays p r dr = true) :
    x.Becomes p { q with mis := true, fade := q.fade.start } (y.stray p r dr) ∧ (p, 0x0802, false) ∈ (y.stray p r dr).rep := by
  rw [Serial.stray, h.port, if_pos hs]
  exact ⟨(h.set _).note p 0x0802 false, Serial.mem_note ..⟩

theorem Serial.stray_of_not {y : Serial} {p r dr : Nat} (h : (y.port p).strays p r dr = false) : y.stray p r dr = y :=
  if_neg (by simp [h])

theorem SerPort.judge_rate (p : Nat) (q : SerPort) (r : Nat) : (q.judge p r).rate = q.rate := by
  rw [SerPort.judge]
  split <;> rfl

theorem Serial.Becomes.judged {x y : Serial} {p : Nat} {q : SerPort} (h : x.Becomes p q y) (r : Nat) :
    x.Becomes p (if q.dom = 3 then q.judge p r else q) (y.judgeOwn p r) ∧ (y.judgeOwn p r).rep = y.rep := by
  rw [Serial.judgeOwn, h.port]
  split
  · exact ⟨h.set _, rfl⟩
  · exact ⟨h, rfl⟩

theorem completes_rateUpdate {s : State} {p rate dr : Nat} (hwf : s.unitsWf = true) (hp : p < 28) (hup : s.blockUp 2 = true)
    (hen : (s.ports.port p).en = true) (hrun : (s.ports.port p).run ≠ .off) :
    Completes (.rateUpdate p rate dr) s [.ports, .reports] fun t => (∀ o, o ≠ p → t.ports.port o = s.ports.port o) ∧
      (t.ports.port p).rate = (if (s.ports.port p).loss = true then 0 else rate) ∧
      ((s.ports.port p).dom ≠ 3 → isMaster p (s.ports.port p) = false → (s.ports.port p).loss = false → (s.ports.port p).mis = false → rate ≠ 0 →
        (200 * dr < (if rate < dr then dr - rate else rate - dr) * 1000000 → (t.ports.port p).mis = true ∧
          (t.ports.port p).fade = (s.ports.port p).fade.start ∧
          ⟨0x802, portClass p, portInst p, domOr3 (s.ports.port p).dom, false, false, 0⟩ ∈ t.health.flying) ∧
        ((if rate < dr then dr - rate else rate - dr) * 1000000 ≤ 200 * dr → (t.ports.port p).mis = false ∧
          (t.ports.port p).fade = (s.ports.port p).fade)) := by
  have hexec : exec (.rateUpdate p rate dr) s = .next (s.withPorts fun x => x.rateUpdate p rate dr).settle :=
    done_on (by simp [Instr.wf]; omega) hup
  have heq := Serial.rateUpdate_eq hen (hasInput_of_lt hp) hrun rate dr
  generalize hr : (if (s.ports.port p).loss = true then 0 else rate) = r at heq
  obtain ⟨c, rr, hshown⟩ := Serial.becomes_showRate (State.unitsWf_ports hwf) p r
  have hstrays : ((s.ports.port p).shown r c rr).strays p r dr = (s.ports.port p).strays p r dr := rfl
  cases hs : (s.ports.port p).strays p r dr
  · rw [Serial.stray_of_not (by rw [hshown.port, hstrays, hs])] at heq
    have hb := (hshown.judged r).1
    rw [← heq] at hb
    obtain ⟨t, hnext, ⟨hother, hport, -⟩, honly⟩ := completes_becomes hexec hb
    refine ⟨t, hnext, ⟨hother, ?_, fun hdom hslave hloss hmis hrate => ⟨fun hoff => absurd hs ?_, fun _ => ?_⟩⟩, honly⟩
    · rw [hport]
      split
      · exact SerPort.judge_rate ..
      · rfl
    · obtain rfl : rate = r := by simpa [hloss] using hr
      have hfar : decide ((if rate < dr then dr - rate else rate - dr) * 1000000 > 200 * dr) = true := decide_eq_true hoff
      rw [SerPort.strays, hfar]
      simp [hrate, hdom, hslave, hmis]
    · have hplain := hport.trans (if_neg hdom)
      exact ⟨(congrArg SerPort.mis hplain).trans hmis, (congrArg SerPort.fade hplain :)⟩
  · obtain ⟨hmis, hnote⟩ := hshown.strayed (hstrays.trans hs)
    obtain ⟨hb, hrep⟩ := hmis.judged r
    rw [← heq] at hb hrep
    have hdom : (s.ports.port p).dom ≠ 3 := by
      simp only [SerPort.strays, Bool.and_eq_true, bne_iff_ne] at hs
      exact hs.1.1.1.2
    obtain ⟨t, hnext, ⟨hother, hport, hreport⟩, honly⟩ := completes_becomes hexec hb
    have hplain := hport.trans (if_neg hdom)
    refine ⟨t, hnext, ⟨hother, congrArg SerPort.rate hplain, fun _ _ hloss _ _ => ⟨fun _ => ⟨congrArg SerPort.mis hplain, congrArg SerPort.fade hplain, ?_⟩,
      fun hnear => ?_⟩⟩, honly⟩
    · have hmem := hreport 0x802 false (by decide) (by decide) (hrep ▸ hnote)
      rw [← hport, hplain] at hmem
      exact hmem
    · obtain rfl : rate = r := by simpa [hloss] using hr
      simp only [SerPort.strays, Bool.and_eq_true, decide_eq_true_eq] at hs
      omega

end Sys2Proof.Machine

/-!
SUPPORT. A frame that a serial port receives: its input, and the outputs that follow it (R361, R369); the frames of the commands of the inputs.
-/

namespace Sys2Proof.Machine

/-! ### The frame of a running TDM slave in a rate domain (R361, R369) -/

/-- R361: a TDM slave in a rate domain that runs, with no loss, underrun or recovery under way, whose frames last `len`. -/
structure SerPort.Steady (q : SerPort) (len : Nat) : Prop where
  en : q.en = true
  run : q.run = .running
  slave : q.bit8 = false
  dom : q.dom < 3
  loss : q.loss = false
  await : q.await = false
  gap : q.gap = false
  ref : q.refLen = len
  len : len ≠ 0

theorem portKind_tdm {p : Nat} (hp : p < 16) : portKind p = .tdm := if_pos hp

theorem offHalf_self (n : Nat) : offHalf n n = false := by simp [offHalf]

theorem Serial.frameRx_good {x : Serial} {p : Nat} {f : RxFrame} (hwf : Memory.wf SerPort.reset x.ports = true) (hp : p < 16)
    (hq : (x.port p).Steady f.len) (hgood : f.count = (x.port p).act.slots * (x.port p).act.width) (hroom : (x.port p).queue.length < portDepth) :
    ∃ q, x.Becomes p q (x.frameRx p f) ∧ q.ctl = (x.port p).ctl ∧ q.queue = (x.port p).queue ++ [inChannels p (x.port p) f.words] ∧
      q.slip = (x.port p).slip ∧ q.fade = (x.port p).fade := by
  obtain ⟨hen, hrun, hslave, hdom, hloss, hawait, hgap, href, hlen⟩ := hq
  have hk := portKind_tdm hp
  have hdom3 : (x.port p).ctl.fld 4 2 ≠ 3 := ne_of_lt hdom
  rw [Serial.frameRx]
  simp [hasInput, hk, hen, hrun, hloss, hawait, hgap, href, hgood, hroom, hdom3, SerPort.dom, fixParity, offHalf_self, Serial.port_setPort_same, hwf,
    Serial.setPort_wf, wantCount]
  exact ⟨_, (((Serial.Becomes.refl hwf).set _).set _).set _, rfl, rfl, rfl, rfl⟩

theorem Serial.frameRx_bad {x : Serial} {p : Nat} {f : RxFrame} (hwf : Memory.wf SerPort.reset x.ports = true) (hp : p < 16)
    (hq : (x.port p).Steady f.len) (hbad : f.count ≠ (x.port p).act.slots * (x.port p).act.width) (hslip : (x.port p).slip = false) :
    ∃ q, x.Becomes p q (x.frameRx p f) ∧ q.ctl = (x.port p).ctl ∧ q.queue = (x.port p).queue ∧ q.slip = true ∧ q.fade = (x.port p).fade.start ∧
      (p, 0x0801, false) ∈ (x.frameRx p f).rep := by
  obtain ⟨hen, hrun, hslave, hdom, hloss, hawait, hgap, href, hlen⟩ := hq
  have hk := portKind_tdm hp
  have hdom3 : (x.port p).ctl.fld 4 2 ≠ 3 := ne_of_lt hdom
  rw [Serial.frameRx]
  have hslave8 : (x.port p).ctl.flag 8 = false := hslave
  simp [hasInput, hk, hen, hrun, hslave8, hslip, hloss, hawait, hgap, href, hbad, hdom3, SerPort.dom, SerPort.bit8, isMaster, offHalf_self,
    Serial.port_setPort_same, hwf, wantCount]
  exact ⟨_, ⟨((((Serial.Becomes.refl hwf).set _).set _).set _).note p 0x0801 false, rfl, rfl, rfl, rfl, Serial.mem_note ..⟩⟩

theorem SerPort.recover_ctl (q : SerPort) : q.recover.ctl = q.ctl := by
  rw [SerPort.recover]
  split <;> rfl

theorem Serial.frameRx_full {x : Serial} {p : Nat} {f : RxFrame} (hwf : Memory.wf SerPort.reset x.ports = true) (hp : p < 16)
    (hq : (x.port p).Steady f.len) (hgood : f.count = (x.port p).act.slots * (x.port p).act.width) (hfull : ¬ (x.port p).queue.length < portDepth) :
    ∃ q, x.Becomes p q (x.frameRx p f) ∧ q.ctl = (x.port p).ctl := by
  obtain ⟨hen, hrun, hslave, hdom, hloss, hawait, hgap, href, hlen⟩ := hq
  have hk := portKind_tdm hp
  have hdom3 : (x.port p).ctl.fld 4 2 ≠ 3 := ne_of_lt hdom
  rw [Serial.frameRx]
  simp [hasInput, hk, hen, hrun, hloss, hawait, hgap, href, hgood, hfull, hdom3, SerPort.dom, offHalf_self, Serial.port_setPort_same, hwf,
    Serial.setPort_wf, wantCount]
  exact ⟨_, ((((Serial.Becomes.refl hwf).set _).set _).set _).note p 0x0303 false |>.note p 0x0804 false, SerPort.recover_ctl _⟩

theorem Serial.frameRx_slipped {x : Serial} {p : Nat} {f : RxFrame} (hwf : Memory.wf SerPort.reset x.ports = true) (hp : p < 16)
    (hq : (x.port p).Steady f.len) (hbad : f.count ≠ (x.port p).act.slots * (x.port p).act.width) (hslip : (x.port p).slip = true) :
    ∃ q, x.Becomes p q (x.frameRx p f) ∧ q.ctl = (x.port p).ctl := by
  obtain ⟨hen, hrun, hslave, hdom, hloss, hawait, hgap, href, hlen⟩ := hq
  have hk := portKind_tdm hp
  have hdom3 : (x.port p).ctl.fld 4 2 ≠ 3 := ne_of_lt hdom
  have hslave8 : (x.port p).ctl.flag 8 = false := hslave
  rw [Serial.frameRx]
  simp [hasInput, hk, hen, hrun, hslave8, hslip, hloss, hawait, hgap, href, hbad, hdom3, SerPort.dom, SerPort.bit8, isMaster, offHalf_self,
    Serial.port_setPort_same, hwf, wantCount]
  exact ⟨_, ((Serial.Becomes.refl hwf).set _).set _, rfl⟩

theorem Serial.frameRx_becomes {x : Serial} {p : Nat} {f : RxFrame} (hwf : Memory.wf SerPort.reset x.ports = true) (hp : p < 16)
    (hq : (x.port p).Steady f.len) : ∃ q, x.Becomes p q (x.frameRx p f) ∧ q.ctl = (x.port p).ctl := by
  by_cases hgood : f.count = (x.port p).act.slots * (x.port p).act.width
  · by_cases hroom : (x.port p).queue.length < portDepth
    · obtain ⟨q, hb, hctl, -⟩ := Serial.frameRx_good hwf hp hq hgood hroom
      exact ⟨q, hb, hctl⟩
    · exact Serial.frameRx_full hwf hp hq hgood hroom
  · cases hslip : (x.port p).slip
    · obtain ⟨q, hb, hctl, -⟩ := Serial.frameRx_bad hwf hp hq hgood hslip
      exact ⟨q, hb, hctl⟩
    · exact Serial.frameRx_slipped hwf hp hq hgood hslip

/-! ### Outputs that follow an input (R361, R373, R385) -/

/-- What the input side of a port keeps while its output moves on. -/
structure Serial.InputKept (p : Nat) (x y : Serial) : Prop where
  wf : Memory.wf SerPort.reset y.ports = true
  other : ∀ o, o ≠ p → y.port o = x.port o
  rep : ∀ r ∈ x.rep, r ∈ y.rep
  ctl : (y.port p).ctl = (x.port p).ctl
  queue : (y.port p).queue = (x.port p).queue
  slip : (y.port p).slip = (x.port p).slip
  fade : (y.port p).fade = (x.port p).fade

namespace Serial.InputKept

variable {p : Nat} {x y z : Serial}

theorem refl (hwf : Memory.wf SerPort.reset x.ports = true) : x.InputKept p x := ⟨hwf, fun _ _ => rfl, fun _ h => h, rfl, rfl, rfl, rfl⟩

theorem trans (h : x.InputKept p y) (h' : y.InputKept p z) : x.InputKept p z :=
  ⟨h'.wf, fun o ho => (h'.other o ho).trans (h.other o ho), fun r hr => h'.rep r (h.rep r hr), h'.ctl.trans h.ctl, h'.queue.trans h.queue,
    h'.slip.trans h.slip, h'.fade.trans h.fade⟩

theorem set (h : x.InputKept p y) {q : SerPort} (hctl : q.ctl = (y.port p).ctl := by rfl) (hqueue : q.queue = (y.port p).queue := by rfl)
    (hslip : q.slip = (y.port p).slip := by rfl) (hfade : q.fade = (y.port p).fade := by rfl) : x.InputKept p (y.setPort p q) := by
  have hq := Serial.port_setPort_same h.wf p q
  refine h.trans ⟨Serial.setPort_wf h.wf p q, fun o ho => Serial.port_setPort_other ho y q, fun _ hr => hr, ?_, ?_, ?_, ?_⟩ <;> rw [hq]
  · exact hctl
  · exact hqueue
  · exact hslip
  · exact hfade

theorem note (h : x.InputKept p y) (o cause : Nat) (clear : Bool) : x.InputKept p (y.note o cause clear) :=
  ⟨h.wf, h.other, fun r hr => List.mem_append_left _ (h.rep r hr), h.ctl, h.queue, h.slip, h.fade⟩

theorem ite {c : Prop} [Decidable c] (hy : x.InputKept p y) (hz : x.InputKept p z) : x.InputKept p (if c then y else z) := by
  split
  · exact hy
  · exact hz

end Serial.InputKept

theorem Serial.ownOutput_keeps {x : Serial} (hwf : Memory.wf SerPort.reset x.ports = true) (p : Nat) : x.InputKept p (x.ownOutput p).2 := by
  have hx := Serial.InputKept.refl (p := p) hwf
  rw [Serial.ownOutput]
  dsimp only
  split
  · exact hx
  · split
    · exact hx.set
    · split
      · exact hx
      · exact .ite hx.set ((hx.set.note p 0x0304 false).note p 0x0805 false)

/-- The pieces that an output on its own clock changes, and the outputs that it sends. -/
def State.Sends (ps : List Piece) (s t : State) : Prop := s.Within (.host :: ps) t ∧ ∃ l, t.host = { s.host with outs := l }

namespace State.Sends

variable {ps : List Piece} {s t u : State}

theorem of_within (h : s.Within ps t) (hhost : .host ∉ ps := by decide) : s.Sends ps t :=
  ⟨⟨h.1, fun p hp => h.2 p fun hmem => hp (List.mem_cons_of_mem _ hmem)⟩, s.host.outs, h.2 .host hhost⟩

theorem trans (h : s.Sends ps t) (h' : t.Sends ps u) : s.Sends ps u :=
  have ⟨hst, _, hl⟩ := h
  have ⟨htu, l', hl'⟩ := h'
  ⟨hst.trans htu, l', hl'.trans (by rw [hl])⟩

theorem foldl {α : Type} {f : State → α → State} (h : ∀ (s : State) x, s.Sends ps (f s x)) (hhost : .host ∉ ps) (l : List α) (s : State) :
    s.Sends ps (l.foldl f s) := by
  induction l generalizing s with
  | nil => exact of_within (.refl ps s) hhost
  | cons x r ih => exact (h s x).trans (ih (f s x))

theorem emit (s : State) (o : Out) : s.Sends ps (s.emit o) :=
  ⟨(s.within_host _).mono (by simp), s.host.outs ++ [o], rfl⟩

end State.Sends

/-- What an output on its own clock changes. -/
abbrev ownPieces : List Piece := [.ports, .links, .clasp, .free]

theorem State.within_ownLanes (s : State) (o : Nat) : s.Within ownPieces (s.ownLanes o) := by
  have htake : s.Within ownPieces { (s.take laneFree).2 with links := ((s.take laneFree).2.links.ownFrame o (s.take laneFree).1 s.ns).2 } :=
    (s.take_within _).mono.trans (State.within_links (s.take laneFree).2 fun _ => _).mono
  exact .ite (fun _ => htake) fun _ => htake.trans (State.within_ports _ _).mono

/-- Output `o` moves on: its input side, the other ports and everything outside `ownPieces` but the outputs stay. -/
def State.Follows (o : Nat) (s t : State) : Prop :=
  s.Sends ownPieces t ∧ (Memory.wf SerPort.reset s.ports.ports = true → s.ports.InputKept o t.ports)

namespace State.Follows

variable {o : Nat} {s t u : State}

theorem refl (o : Nat) (s : State) : s.Follows o s := ⟨.of_within (.refl _ s), .refl⟩

theorem trans (h : s.Follows o t) (h' : t.Follows o u) : s.Follows o u :=
  ⟨h.1.trans h'.1, fun hwf => (h.2 hwf).trans (h'.2 (h.2 hwf).wf)⟩

theorem ports {f : Serial → Serial} (h : Memory.wf SerPort.reset s.ports.ports = true → s.ports.InputKept o (f s.ports)) : s.Follows o (s.withPorts f) :=
  ⟨.of_within (s.within_ports f).mono, h⟩

theorem of_within {ps : List Piece} (h : s.Within ps t) (hports : t.ports = s.ports) (hsub : ∀ p ∈ ps, p ∈ ownPieces := by decide) : s.Follows o t :=
  ⟨.of_within (h.mono hsub), fun hwf => by rw [hports]; exact .refl hwf⟩

theorem foldl {f : State → Nat → State} {l : List Nat} (h : ∀ x ∈ l, ∀ s : State, s.Follows o (f s x)) (s : State) : s.Follows o (l.foldl f s) := by
  induction l generalizing s with
  | nil => exact refl o s
  | cons x r ih =>
    exact (h x List.mem_cons_self s).trans (ih (fun y hy => h y (List.mem_cons_of_mem x hy)) _)

end State.Follows

theorem State.alignBlock_follows (s : State) (o : Nat) (src : SerPort) : s.Follows o (s.alignBlock o src) := by
  refine .ports fun hwf => ?_
  dsimp only
  split
  · exact (Serial.InputKept.refl hwf).set
  · exact .refl hwf

theorem State.ownLanes_follows (s : State) (o : Nat) : s.Follows o (s.ownLanes o) := by
  refine ⟨.of_within (s.within_ownLanes o), fun hwf => ?_⟩
  rw [State.ownLanes]
  dsimp only
  split
  · exact .refl hwf
  · exact (Serial.InputKept.refl hwf).set

theorem State.mergeOut_follows (s : State) (k o : Nat) (slots : List (Option Nat)) : s.Follows o (s.mergeOut k o slots).1 := by
  have hmerge := State.Follows.of_within (o := o) (s.within_clasp fun _ => (s.clasp.merge o (s.covered k o) (s.rescueSilence k) slots).1) rfl
  rw [State.mergeOut]
  dsimp only
  split
  · exact hmerge.trans (.ports fun hwf => (Serial.InputKept.refl hwf).set)
  · exact hmerge

theorem State.emit_follows (s : State) (o : Nat) (x : Out) : s.Follows o (s.emit x) := ⟨.emit s x, fun hwf => .refl hwf⟩

theorem State.ownOutput_follows (s : State) (o : Nat) : s.Follows o { s with ports := (s.ports.ownOutput o).2 } :=
  State.Follows.ports (f := fun x => (x.ownOutput o).2) fun hwf => Serial.ownOutput_keeps hwf o

theorem State.emitOwn_follows (s : State) (src : SerPort) (o : Nat) : s.Follows o (s.emitOwn src o) := by
  rw [State.emitOwn]
  split
  · exact .refl o s
  · refine (s.alignBlock_follows o src).trans ((State.Follows.trans ?_ (State.mergeOut_follows ..)).trans (State.emit_follows ..))
    split
    · exact .ports fun hwf => (Serial.InputKept.refl hwf).set
    · dsimp only
      refine State.Follows.trans ?_ (State.ownOutput_follows _ o)
      split
      · exact .refl ..
      · exact State.ownLanes_follows ..

/-! ### PORT_FRAME_RX -/

/-- What a frame received may change but for outputs. -/
abbrev framePieces : List Piece := [.ports, .links, .clasp, .free, .time, .reports]

/-- R361, R385: a frame received, before the outputs that follow the port emit theirs. -/
def State.frameIn (s : State) (p : Nat) (f : RxFrame) : State :=
  ((((if (s.ports.port p).loss ∧ (s.ports.port p).stable = 0 then (s.followers p).foldl State.ownBack s else s).at_ f.ns).withPorts
    fun x => x.frameRx p f)).ownInput p f.ns

theorem State.portFrame_eq (s : State) (p : Nat) (f : RxFrame) :
    s.portFrame p f = ((s.frameIn p f).followers p).foldl (fun u o => u.emitOwn (s.ports.port p) o) (s.frameIn p f) := rfl

theorem State.within_ownInput (s : State) (p ns : Nat) : s.Within [.ports, .links] (s.ownInput p ns) :=
  .ite (fun _ => (s.within_links _).mono.trans (State.within_ports _ _).mono) fun _ => .refl _ s

theorem State.within_frameIn (s : State) (p : Nat) (f : RxFrame) : s.Within [.ports, .links, .time] (s.frameIn p f) := by
  have hback : s.Within [.links] (if (s.ports.port p).loss ∧ (s.ports.port p).stable = 0 then (s.followers p).foldl State.ownBack s else s) :=
    .ite (fun _ => .foldl (fun u o => u.within_links _) _ s) fun _ => .refl _ s
  exact hback.mono.trans (((State.within_at _ f.ns).mono.trans (State.within_ports _ _).mono).trans (State.within_ownInput _ p f.ns).mono)

theorem State.frameIn_ns (s : State) (p : Nat) (f : RxFrame) : (s.frameIn p f).ns = f.ns :=
  ((State.within_ownInput _ p f.ns).same .time).2

theorem State.portFrame_follows (s : State) (p : Nat) (f : RxFrame) : (s.frameIn p f).Sends ownPieces (s.portFrame p f) :=
  .foldl (fun u o => (u.emitOwn_follows (s.ports.port p) o).1) (by decide) _ _

theorem State.portFrame_sends (s : State) (p : Nat) (f : RxFrame) : s.Sends framePieces (s.portFrame p f) := by
  obtain ⟨hwithin, hhost⟩ := s.portFrame_follows p f
  exact (State.Sends.of_within (s.within_frameIn p f).mono).trans ⟨hwithin.mono, hhost⟩

theorem State.portFrame_ns (s : State) (p : Nat) (f : RxFrame) : (s.portFrame p f).ns = f.ns :=
  ((s.portFrame_follows p f).1.same .time).2.trans (s.frameIn_ns p f)

theorem State.followers_tdm {s : State} {p o : Nat} (hp : p < 16) (h : o ∈ s.followers p) : o = p := by
  simp only [State.followers, List.mem_filter, Bool.and_eq_true] at h
  obtain ⟨-, -, hkind⟩ := h
  split at hkind
  · simp only [Bool.and_eq_true, beq_iff_eq] at hkind
    exact hkind.1.1
  · simp only [Bool.and_eq_true, beq_iff_eq] at hkind
    exact hkind.1
  · simp only [Bool.and_eq_true, beq_iff_eq] at hkind
    omega
  · exact absurd hkind (by decide)

/-- R361: a frame of a TDM port in a rate domain whose input is not lost enters its queue, and the port's own output follows. -/
theorem State.portFrame_tdm {s : State} {p : Nat} {f : RxFrame} {q : SerPort} (hp : p < 16) (hloss : (s.ports.port p).loss = false)
    (hdom : q.dom ≠ 3) (hb : s.ports.Becomes p q (s.ports.frameRx p f)) :
    (s.ports.frameRx p f).InputKept p (s.portFrame p f).ports := by
  have hin : (s.frameIn p f).ports = s.ports.frameRx p f := by
    rw [State.frameIn, if_neg (by simp [hloss]), State.ownInput]
    exact congrArg State.ports (if_neg (hb.port ▸ hdom))
  rw [State.portFrame_eq, ← hin]
  refine (State.Follows.foldl (fun o ho u => ?_) _).2 (hin ▸ hb.wf)
  obtain rfl := State.followers_tdm hp ho
  exact u.emitOwn_follows _ _

theorem exec_portFrameRx {s : State} {p : Nat} (f : RxFrame) (hp : p < 36) (hup : s.blockUp 2 = true) :
    exec (.portFrameRx p f) s = .next (s.portFrame p f).settle := done_on (by simpa [Instr.wf] using hp) hup

theorem State.portFrame_only (s : State) (p : Nat) (f : RxFrame) :
    OnlyChanges [.ports, .links, .clasp, .free, .time, .reports, .out] s (s.portFrame p f).settle := by
  obtain ⟨hwithin, l, hhost⟩ := s.portFrame_sends p f
  exact (hwithin.settle_outs hhost fun h => absurd (by decide) h).mono (by decide)

theorem portClass_tdm {p : Nat} (hp : p < 16) : portClass p = 12 := by rw [portClass, portKind_tdm hp]
theorem portInst_tdm {p : Nat} (hp : p < 16) : portInst p = p := if_pos hp

/-- Settles O46: each command changes the port that it names, and of the other ports none. -/
theorem portInputCommands : Obligations.PortInputCommands := by
  unfold Obligations.PortInputCommands
  dsimp only
  refine ⟨fun s p f hwf hp hup => ?_, fun s p hwf hp hup hslave hloss hrun => ?_, fun s p hwf hp hup hloss hstable => ?_,
    fun s p hwf hp hup hdom hphase => ?_, fun s p hwf hp hup hphase => ?_, fun s p rate dr hwf hp hup hen hrun =>
      completes_rateUpdate hwf hp hup hen hrun⟩
  · refine ⟨_, exec_portFrameRx f hp hup, ⟨s.portFrame_ns p f, fun hp hen hrun hslave hdom hloss hawait hgap href hlen => ?_⟩, s.portFrame_only p f⟩
    have hports := State.unitsWf_ports hwf
    have hsteady : (s.ports.port p).Steady f.len := ⟨hen, hrun, hslave, hdom, hloss, hawait, hgap, href, hlen⟩
    have hdom3 : ∀ q : SerPort, q.ctl = (s.ports.port p).ctl → q.dom ≠ 3 := fun q hctl => by
      rw [SerPort.dom, hctl]
      exact ne_of_lt hdom
    refine ⟨fun o ho => ?_, fun hgood hroom => ?_, fun hbad hslip => ?_⟩
    · obtain ⟨q, hb, hctl⟩ := Serial.frameRx_becomes hports hp hsteady
      exact ((State.portFrame_tdm hp hloss (hdom3 q hctl) hb).other o ho).trans (hb.other o ho)
    · obtain ⟨q, hb, hctl, hqueue, hslip, hfade⟩ := Serial.frameRx_good hports hp hsteady hgood hroom
      have hk := State.portFrame_tdm hp hloss (hdom3 q hctl) hb
      refine ⟨hk.queue.trans ?_, hk.slip.trans ?_, hk.fade.trans ?_⟩ <;> rw [hb.port]
      · exact hqueue
      · exact hslip
      · exact hfade
    · obtain ⟨q, hb, hctl, hqueue, hslipped, hfade, hnote⟩ := Serial.frameRx_bad hports hp hsteady hbad hslip
      have hk := State.portFrame_tdm hp hloss (hdom3 q hctl) hb
      have hflying := State.mem_flying_of_ports (hk.rep _ hnote)
      have hdomq : ((s.portFrame p f).ports.port p).dom = (s.ports.port p).dom := by
        rw [SerPort.dom, hk.ctl, hb.port, hctl]
        rfl
      rw [Serial.report, if_neg (by simp), hdomq, domOr3, if_pos hdom, portClass_tdm hp, portInst_tdm hp] at hflying
      refine ⟨hk.slip.trans ?_, hk.queue.trans ?_, hk.fade.trans ?_, hflying⟩ <;> rw [hb.port]
      · exact hslipped
      · exact hqueue
      · exact hfade
  · obtain ⟨t, hnext, ⟨hother, hport, hreport⟩, honly⟩ := completes_inputLoss hwf hp hup hslave hloss hrun
    refine ⟨t, hnext, ⟨hother, congrArg SerPort.loss hport, congrArg SerPort.rate hport, (congrArg SerPort.queue hport :), fun hgap => ?_, hreport⟩, honly⟩
    exact (congrArg SerPort.fade hport).trans (if_neg (by simp [hgap]))
  · obtain ⟨t, hnext, ⟨hother, hport, hreport⟩, honly⟩ := completes_lossRecovery hwf hp hup hloss hstable
    obtain ⟨hcleared, hzero, -⟩ := SerPort.recover_loss { s.ports.port p with loss := false, await := false, stable := 0 }
    refine ⟨t, hnext, ⟨hother, (congrArg SerPort.loss hport).trans hcleared, (congrArg SerPort.stable hport).trans hzero, fun hlatched => ?_,
      fun hslip hmis => ?_, hreport⟩, honly⟩
    · rw [hport, SerPort.regained, SerPort.recover, if_pos (by simpa using hlatched)]
    · rw [hport, SerPort.regained, SerPort.recover, if_neg (by simp [hslip, hmis])]
  · have hexec : exec (.portFadeOutEnd p) s = .next (s.withPorts fun x => x.fadeEnd p false).settle := done_on (by simpa [Instr.wf] using hp) hup
    obtain ⟨t, hnext, ⟨hother, hport⟩, honly⟩ := completes_fadeEnd hwf hexec (.inr hdom)
    have hfade : (t.ports.port p).fade = (s.ports.port p).fade.endOut := congrArg SerPort.fade hport
    refine ⟨t, hnext, ⟨hother, (congrArg SerPort.run hport :), (congrArg SerPort.loss hport :), ?_⟩, honly⟩
    rw [hfade, Fade.endOut, hphase]
    exact ⟨rfl, rfl⟩
  · have hexec : exec (.portRampBackEnd p) s = .next (s.withPorts fun x => x.fadeEnd p true).settle := done_on (by simpa [Instr.wf] using hp) hup
    obtain ⟨t, hnext, ⟨hother, hport⟩, honly⟩ := completes_fadeEnd hwf hexec (.inl rfl)
    have hfade : (t.ports.port p).fade = (s.ports.port p).fade.endBack := congrArg SerPort.fade hport
    refine ⟨t, hnext, ⟨hother, (congrArg SerPort.run hport :), (congrArg SerPort.loss hport :), ?_⟩, honly⟩
    rw [hfade, Fade.endBack, hphase]
    rfl

end Sys2Proof.Machine

/-!
SUPPORT. Commits, restarts, the common start event and the control registers of the serial ports (R360, R365, R366, R369, R372).
-/

namespace Sys2Proof.Machine

/-! ### Commits (R365) -/

/-- R365: a port that takes the shadow at once, one that arms it, and one that puts an armed format in force. -/
def SerPort.inForce (q : SerPort) (c : TdmCfg) : SerPort := { q with act := c, armed := none, applied := q.frame }
def SerPort.arming (q : SerPort) : SerPort := { q with armed := some q.shadow }
def SerPort.refused (q : SerPort) : SerPort := { q with armed := none, cfgBad := true }

/-- What a commit does to a port. -/
def SerPort.committed (q : SerPort) (rate : Nat) : SerPort :=
  if !q.en then q.inForce q.shadow
  else if q.cfgStop then
    if q.shadow.fits rate then { q.inForce q.shadow with cfgStop := false, cfgBad := false } else { q with cfgBad := true }
  else q.arming

theorem Serial.commit_eq {x : Serial} {p : Nat} (hp : p < 16) (rate : Nat) : x.commit p rate = x.setPort p ((x.port p).committed rate) := by
  have hk : ¬ (portKind p != .tdm) = true := by rw [portKind_tdm hp]; decide
  rw [Serial.commit, SerPort.committed]
  simp only [apply_ite (x.setPort p)]
  exact if_neg hk

theorem SerPort.committed_ctl (q : SerPort) (rate : Nat) : (q.committed rate).ctl = q.ctl := by
  rw [SerPort.committed]
  split_ifs <;> rfl

theorem completes_tdmCommit {s : State} {r p : Nat} (hwf : s.unitsWf = true) (hr : r < 7) (hp : p < 16) (hcmd : s.commands r = true) :
    Completes (.tdmCommit r p) s [.ports] fun t => (∀ o, o ≠ p → t.ports.port o = s.ports.port o) ∧
      t.ports.port p = (s.ports.port p).committed (s.portRate p) := by
  have hexec : exec (.tdmCommit r p) s = .next (s.withPorts fun x => x.commit p (s.portRate p)).settle := done_on (by simp [Instr.wf, hr, hp]) hcmd
  have heq := Serial.commit_eq (x := s.ports) hp (s.portRate p)
  exact completes_becomes_silent hexec (heq ▸ (Serial.Becomes.refl (State.unitsWf_ports hwf)).set _) (congrArg Serial.rep heq :) (SerPort.committed_ctl ..)

/-- What the first frame start after a commit does to a port that has armed `c`. -/
def SerPort.takeArmed (q : SerPort) (c : TdmCfg) (rate : Nat) : SerPort := if rate = 0 ∨ c.fits rate = true then q.inForce c else q.refused

theorem Serial.commitApply_eq {x : Serial} {p : Nat} {c : TdmCfg} (h : (x.port p).armed = some c) (rate : Nat) :
    x.commitApply p rate = x.setPort p ((x.port p).takeArmed c rate) := by
  rw [Serial.commitApply, SerPort.takeArmed]
  simp only [h, Bool.or_eq_true, decide_eq_true_eq]
  split <;> rfl

theorem SerPort.takeArmed_ctl (q : SerPort) (c : TdmCfg) (rate : Nat) : (q.takeArmed c rate).ctl = q.ctl := by
  rw [SerPort.takeArmed]
  split <;> rfl

theorem TdmCfg.fits_iff {c : TdmCfg} {rate : Nat} : c.fits rate = true ↔ c.slots * c.width * rate ≤ 4915200000 := decide_eq_true_iff

/-- R436: a declared port whose format changes is released in the Clasp; nothing else but the port changes. -/
theorem State.tdmApply_eq (s : State) (p : Nat) :
    (s.tdmApply p).ports = s.ports.commitApply p (s.portRate p) ∧
      (s.tdmApply p).unitReports = (s.withPorts fun x => x.commitApply p (s.portRate p)).unitReports ∧ s.Within [.ports, .clasp] (s.tdmApply p) := by
  have hports := s.within_ports fun x => x.commitApply p (s.portRate p)
  rw [State.tdmApply]
  split
  · exact ⟨rfl, rfl, hports.mono.trans (State.within_clasp _ _).mono⟩
  · exact ⟨rfl, rfl, hports.mono⟩

theorem completes_tdmCommitApply {s : State} {p : Nat} {c : TdmCfg} (hwf : s.unitsWf = true) (hp : p < 16) (hup : s.blockUp 2 = true)
    (harmed : (s.ports.port p).armed = some c) :
    Completes (.tdmCommitApply p) s [.ports, .clasp] fun t => (∀ o, o ≠ p → t.ports.port o = s.ports.port o) ∧
      t.ports.port p = (s.ports.port p).takeArmed c (s.portRate p) := by
  have hexec : exec (.tdmCommitApply p) s = .next (s.tdmApply p).settle := done_on (by simp [Instr.wf, hp]) (by simp [hup, harmed])
  have heq := Serial.commitApply_eq harmed (s.portRate p)
  have hb : s.ports.Becomes p ((s.ports.port p).takeArmed c (s.portRate p)) (s.ports.commitApply p (s.portRate p)) :=
    heq ▸ (Serial.Becomes.refl (State.unitsWf_ports hwf)).set _
  have hctls : ∀ o, ((s.ports.commitApply p (s.portRate p)).port o).ctl = (s.ports.port o).ctl := fun o => by
    by_cases ho : o = p
    · rw [ho, hb.port, SerPort.takeArmed_ctl]
    · rw [hb.other o ho]
  have happlied := State.unitReports_withPorts (s := s) (f := fun x => x.commitApply p (s.portRate p)) (congrArg Serial.rep heq :) hctls
  obtain ⟨hports, hreports, hwithin⟩ := State.tdmApply_eq s p
  refine ⟨_, hexec, ⟨fun o ho => ?_, ?_⟩, hwithin.settle (fun _ => hreports.trans happlied) fun _ => ?_⟩
  · exact (congrArg (fun x => Serial.port x o) hports).trans (hb.other o ho)
  · exact (congrArg (fun x => Serial.port x p) hports).trans hb.port
  · have hhost : (s.tdmApply p).host = s.host := hwithin.same .host
    exact ⟨congrArg HostSys.outs hhost, State.txOn_of_within hwithin (by decide) (by decide), congrArg NetSys.sent (hwithin.same .net)⟩

/-! ### RESTART and the common start event (R366, R369) -/

/-- R369: a port that is not in mismatch any more where its rate is near `dr`. -/
def SerPort.rechecked (q : SerPort) (dr : Nat) : SerPort :=
  { q with mis := q.mis && !(decide ((if q.rate < dr then dr - q.rate else q.rate - dr) * 1000000 ≤ 200 * dr) && q.rate != 0) }

/-- R369: what RESTART does to a port, whose domain runs at `dr`. -/
def SerPort.restarted (q : SerPort) (dr : Nat) : SerPort :=
  if q.slip then { q.rechecked dr with slip := false, await := true, stable := 0 }
  else if q.mis && !(q.rechecked dr).mis then (q.rechecked dr).recover else q.rechecked dr

theorem Serial.restart_eq (x : Serial) (p dr : Nat) : x.restart p dr = x.setPort p ((x.port p).restarted dr) := rfl

theorem SerPort.restarted_ctl (q : SerPort) (dr : Nat) : (q.restarted dr).ctl = q.ctl := by
  rw [SerPort.restarted]
  split
  · rfl
  · split
    · exact SerPort.recover_ctl (q.rechecked dr)
    · rfl

theorem SerPort.restarted_of_slip {q : SerPort} (h : q.slip = true) (dr : Nat) :
    (q.restarted dr).slip = false ∧ (q.restarted dr).await = true ∧ (q.restarted dr).stable = 0 ∧ (q.restarted dr).fade = q.fade := by
  rw [SerPort.restarted, if_pos h]
  exact ⟨rfl, rfl, rfl, rfl⟩

theorem SerPort.rechecked_of_not {q : SerPort} (hmis : q.mis = false) (dr : Nat) : q.rechecked dr = q := by
  rw [SerPort.rechecked, hmis, Bool.false_and, ← hmis]

theorem SerPort.restarted_of_not {q : SerPort} (hslip : q.slip = false) (hmis : q.mis = false) (dr : Nat) : q.restarted dr = q := by
  rw [SerPort.restarted, if_neg (by simp [hslip]), if_neg (by simp [hmis]), SerPort.rechecked_of_not hmis]

theorem completes_portRestart {s : State} {r p : Nat} (hwf : s.unitsWf = true) (hr : r < 7) (hp : p < 36) (hcmd : s.commands r = true) :
    Completes (.portRestart r p) s [.ports] fun t => (∀ o, o ≠ p → t.ports.port o = s.ports.port o) ∧
      t.ports.port p = (s.ports.port p).restarted (s.portDomRate p) := by
  have hexec : exec (.portRestart r p) s = .next (s.withPorts fun x => x.restart p (s.portDomRate p)).settle := done_on (by simp [Instr.wf, hr, hp]) hcmd
  have heq := Serial.restart_eq s.ports p (s.portDomRate p)
  exact completes_becomes_silent hexec (heq ▸ (Serial.Becomes.refl (State.unitsWf_ports hwf)).set _) (congrArg Serial.rep heq :)
    (SerPort.restarted_ctl ..)

/-- A command of the ports that changes no port. -/
theorem completes_withPorts_same {i : Instr} {s : State} {f : Serial → Serial} (hexec : exec i s = .next (s.withPorts f).settle)
    (hrep : (f s.ports).rep = s.ports.rep) (hports : (f s.ports).ports = s.ports.ports) :
    Completes i s [.ports] fun t => t = (s.withPorts f).settle :=
  completes_withPorts_silent hexec hrep fun p => congrArg (fun m => SerPort.ctl (Memory.get SerPort.reset m p)) hports

theorem Serial.writeStart_keeps (x : Serial) (v : Word) (past : Bool) :
    (x.writeStart v past).rep = x.rep ∧ (x.writeStart v past).ports = x.ports := by
  rw [Serial.writeStart]
  dsimp only
  split <;> exact ⟨rfl, rfl⟩

/-- The bits of TDM_START_CTL. -/
theorem startWord_fields (late arm : Bool) {d m : Nat} (hd : d < 4) (hm : m < 4) :
    let w : Word := BitVec.ofNat 32 ((if late then 512 else 0) + (if arm then 256 else 0) + d <<< 4 + m)
    w.flag 8 = arm ∧ w.fld 0 2 = m ∧ w.fld 4 2 = d := by
  intro w
  have hw : w.toNat = late.toNat * 512 + arm.toNat * 256 + d * 16 + m := by
    rw [BitVec.toNat_ofNat, Nat.shiftLeft_eq]
    cases late <;> cases arm <;> simp only [Bool.toNat_false, Bool.toNat_true, Bool.false_eq_true, if_true, if_false] <;> omega
  have harm := arm.toNat_le
  simp only [Word.flag_eq, Word.fld_eq, hw, Nat.reducePow]
  refine ⟨?_, by omega, by omega⟩
  have hbit : (late.toNat * 512 + arm.toNat * 256 + d * 16 + m) / 256 % 2 = arm.toNat := by omega
  rw [hbit]
  cases arm <;> rfl

theorem Serial.writeStart_valid {x : Serial} {v : Word} (hmode : v.fld 0 2 ≠ 3) (hdom : v.fld 4 2 ≠ 3) (past : Bool) :
    ((x.writeStart v past).start.flag 8 = (x.start.flag 8 || v.flag 8)) ∧ (x.writeStart v past).start.fld 0 2 = v.fld 0 2 ∧
      (x.writeStart v past).start.fld 4 2 = v.fld 4 2 ∧ (x.writeStart v past).edge = if v.flag 8 = true then none else x.edge := by
  obtain ⟨harm, hm, hd⟩ := startWord_fields (x.start.flag 9 && !v.flag 9 || (v.flag 8 && v.fld 0 2 == 1 && past)) (x.start.flag 8 || v.flag 8)
    (Word.fld_lt v 4 2) (Word.fld_lt v 0 2)
  rw [Serial.writeStart]
  dsimp only
  rw [if_neg (by simp [hmode, hdom])]
  exact ⟨harm, hm, hd, rfl⟩

theorem Serial.writeStart_discarded {x : Serial} {v : Word} (h : v.fld 0 2 = 3 ∨ v.fld 4 2 = 3) (past : Bool) : x.writeStart v past = x :=
  if_pos (by simpa [or_comm] using h)

theorem completes_startArm {s : State} {r : Nat} {v : Word} (hr : r < 7) (hcmd : s.commands r = true) :
    Completes (.startArm r v) s [.ports] fun t => t.ports.ports = s.ports.ports ∧
      (v.fld 0 2 = 3 ∨ v.fld 4 2 = 3 → t.ports = s.settle.ports) ∧
      (v.fld 0 2 ≠ 3 → v.fld 4 2 ≠ 3 → t.ports.start.flag 8 = (s.ports.start.flag 8 || v.flag 8) ∧ t.ports.start.fld 0 2 = v.fld 0 2 ∧
        t.ports.start.fld 4 2 = v.fld 4 2 ∧ t.ports.edge = (if v.flag 8 = true then none else s.ports.edge)) := by
  have hexec : exec (.startArm r v) s = .next (s.startCtl v).settle := done_on (by simpa [Instr.wf] using hr) hcmd
  have hkeeps := s.ports.writeStart_keeps v (setHi (setLo 0 s.ports.startLo) s.ports.startHi < (s.dom (v.fld 4 2)).next)
  obtain ⟨t, hnext, rfl, honly⟩ := completes_withPorts_same (f := fun x =>
    x.writeStart v (setHi (setLo 0 x.startLo) x.startHi < (s.dom (v.fld 4 2)).next)) hexec hkeeps.1 hkeeps.2
  refine ⟨_, hnext, ⟨hkeeps.2, fun h => ?_, fun hmode hdom => Serial.writeStart_valid hmode hdom _⟩, honly⟩
  exact congrArg (fun x : Serial => { x with rep := [] }) (Serial.writeStart_discarded h _)

theorem Serial.audStart_eq (x : Serial) (ns : Nat) :
    x.audStart ns = { x with edge := if x.start.flag 8 = true ∧ x.start.fld 0 2 = 2 ∧ x.edge = none then some ns else x.edge } := by
  rw [Serial.audStart]
  by_cases h : x.start.flag 8 = true ∧ x.start.fld 0 2 = 2 ∧ x.edge = none
  · obtain ⟨harm, hmode, hedge⟩ := h
    rw [if_pos (by simp [harm, hmode, hedge]), if_pos ⟨harm, hmode, hedge⟩]
  · rw [if_neg (by simpa [and_assoc] using h), if_neg h]

theorem completes_audStartEdge {s : State} {ns : Nat} (hup : s.blockUp 2 = true) :
    Completes (.audStartEdge ns) s [.ports, .time] fun t => t.ns = ns ∧ t.ports.ports = s.ports.ports ∧ t.ports.start = s.ports.start ∧
      t.ports.edge = (if s.ports.start.flag 8 = true ∧ s.ports.start.fld 0 2 = 2 ∧ s.ports.edge = none then some ns else s.ports.edge) := by
  have hexec : exec (.audStartEdge ns) s = .next ((s.at_ ns).withPorts fun x => x.audStart ns).settle := done_on rfl hup
  have heq := s.ports.audStart_eq ns
  have hreports := State.unitReports_withPorts (s := s.at_ ns) (f := fun x => x.audStart ns) (congrArg Serial.rep heq :)
    fun p => (congrArg (fun x => (Serial.port x p).ctl) heq :)
  refine ⟨_, hexec, ⟨rfl, (congrArg Serial.ports heq :), (congrArg Serial.start heq :), (congrArg Serial.edge heq :)⟩,
    ((s.within_at ns).mono.trans (State.within_ports _ _).mono).settle (fun _ => hreports) fun _ => ⟨rfl, rfl, rfl⟩⟩

/-! ### Control registers (R360, R372, R376, R377) -/

/-- EN and DOMAIN of a control register. -/
theorem portCtlWord_fields {e d m : Nat} (he : e < 4) (hd : d < 4) (hm : m < 8) :
    let w : Word := BitVec.ofNat 32 (e + d <<< 4 + m <<< 8)
    w.flag 0 = decide (e % 2 = 1) ∧ w.fld 4 2 = d := by
  intro w
  have hw : w.toNat = e + d * 16 + m * 256 := by
    rw [BitVec.toNat_ofNat, Nat.shiftLeft_eq, Nat.shiftLeft_eq]
    omega
  simp only [Word.flag_eq, Word.fld_eq, hw, Nat.reducePow]
  refine ⟨?_, by omega⟩
  have hbit : (e + d * 16 + m * 256) / 1 % 2 = e % 2 := by omega
  rw [hbit]

theorem Word.flag_zero_of_fld (v : Word) : decide (v.fld 0 2 % 2 = 1) = v.flag 0 := by
  rw [Word.fld_eq, Word.flag_eq]
  have hbit : v.toNat / 2 ^ 0 % 2 ^ 2 % 2 = v.toNat / 2 ^ 0 % 2 := by omega
  rw [hbit]

theorem portCtlWrite_input {p : Nat} (hp : p < 28) (old v : Word) (setter : Bool) :
    ∃ c, portCtlWrite p old v setter = some c ∧ c.flag 0 = v.flag 0 ∧ c.fld 4 2 = if setter = true then v.fld 4 2 else old.fld 4 2 := by
  have hdom : (if setter = true then v.fld 4 2 else old.fld 4 2) < 4 := by
    split
    · exact Word.fld_lt v 4 2
    · exact Word.fld_lt old 4 2
  have hword : ∀ m, m < 8 → _ := fun m hm => portCtlWord_fields (Word.fld_lt v 0 2) hdom hm
  rw [Word.flag_zero_of_fld] at hword
  have hone : ∀ w : Word, w.fld 8 1 < 8 := fun w => lt_of_lt_of_le (Word.fld_lt w 8 1) (by decide)
  rw [portCtlWrite]
  dsimp only
  split
  · refine ⟨_, rfl, hword _ ?_⟩
    split
    · exact hone old
    · exact hone v
  · refine ⟨_, rfl, hword _ ?_⟩
    split
    · exact Word.fld_lt old 8 3
    · exact Word.fld_lt v 8 3
  · exact ⟨_, rfl, hword 0 (by decide)⟩
  next hk =>
    rw [portKind] at hk
    split_ifs at hk

theorem SerPort.judge_ctl (p : Nat) (q : SerPort) (r : Nat) : (q.judge p r).ctl = q.ctl := by
  rw [SerPort.judge]
  split <;> rfl

/-- R366: a start clears START_ARM and leaves the rest of CTL. -/
theorem SerPort.begin_ctl (p : Nat) (q : SerPort) (hz : Nat) : (q.begin p hz).ctl = q.ctl.setFlag 1 false := SerPort.judge_ctl ..

theorem Serial.Becomes.startOwn {x y : Serial} {p : Nat} {q : SerPort} (h : x.Becomes p q y) :
    ∃ q', x.Becomes p q' (y.startOwn p) ∧ q'.en = q.en ∧ q'.dom = q.dom := by
  rw [Serial.startOwn]
  split
  · refine ⟨_, h.set _, ?_, ?_⟩
    · rw [SerPort.en, SerPort.begin_ctl, h.port]
      exact Word.flag_setFlag_ne (by decide) (by decide) q.ctl false
    · rw [SerPort.dom, SerPort.begin_ctl, h.port]
      exact Word.fld_setFlag (by decide) (by decide) q.ctl false
  · exact ⟨q, h, rfl, rfl⟩

/-- R372: a port that is disabled. -/
theorem Serial.Becomes.disabled {x y : Serial} {p : Nat} {q : SerPort} (h : x.Becomes p q y) :
    ∃ q', x.Becomes p q' (y.disable p) ∧ q'.ctl = q.ctl ∧ q'.run = .off ∧ q'.queue = [] ∧ q'.loss = false ∧ q'.armed = none := by
  rw [Serial.disable, h.port]
  split
  · exact ⟨_, (h.note p 0x0800 true).set _, rfl, rfl, rfl, rfl, rfl⟩
  · exact ⟨_, h.set _, rfl, rfl, rfl, rfl, rfl⟩

/-- What a write of the control register of a port with an input leaves. -/
theorem Serial.becomes_writeCtl {x : Serial} (hwf : Memory.wf SerPort.reset x.ports = true) {p : Nat} (hp : p < 28) (v : Word) (setter : Bool) :
    ∃ q, x.Becomes p q (x.writeCtl p v setter) ∧ q.en = v.flag 0 ∧ q.dom = (if setter = true then v.fld 4 2 else (x.port p).dom) ∧
      ((x.port p).en = true → v.flag 0 = false → q.run = .off ∧ q.queue = [] ∧ q.loss = false ∧ q.armed = none) := by
  obtain ⟨c, hwrite, hen, hdom⟩ := portCtlWrite_input hp (x.port p).ctl v setter
  have hset := (Serial.Becomes.refl (p := p) hwf).set { x.port p with ctl := c }
  rw [Serial.writeCtl]
  simp only [hwrite]
  by_cases hoff : ((x.port p).en && !c.flag 0) = true
  · rw [if_pos hoff]
    obtain ⟨q, hb, hctl, hrun, hqueue, hloss, harmed⟩ := hset.disabled
    refine ⟨q, hb, ?_, ?_, fun _ _ => ⟨hrun, hqueue, hloss, harmed⟩⟩
    · rw [SerPort.en, hctl]
      exact hen
    · rw [SerPort.dom, hctl]
      exact hdom
  · rw [if_neg hoff]
    have hnot : (x.port p).en = true → v.flag 0 = false → False := fun h h' => hoff (by rw [h, hen, h']; rfl)
    obtain ⟨q, hb, hctl⟩ : ∃ q, x.Becomes p q (if ((x.port p).en && setter && c.fld 4 2 != (x.port p).dom && (x.port p).mis) = true then
        (x.setPort p { x.port p with ctl := c }).setPort p
          ({ (x.setPort p { x.port p with ctl := c }).port p with mis := false } : SerPort).recover
        else x.setPort p { x.port p with ctl := c }) ∧ q.ctl = c := by
      split
      · refine ⟨_, hset.set _, (SerPort.recover_ctl _).trans ?_⟩
        exact congrArg SerPort.ctl hset.port
      · exact ⟨_, hset, rfl⟩
    obtain ⟨q', hb', hen', hdom'⟩ := hb.startOwn
    refine ⟨q', hb', hen'.trans ?_, hdom'.trans ?_, fun h h' => absurd (hnot h h') id⟩
    · rw [SerPort.en, hctl]
      exact hen
    · rw [SerPort.dom, hctl]
      exact hdom

theorem completes_portEnWrite {s : State} {r p : Nat} {v : Word} (hwf : s.unitsWf = true) (hr : r < 7) (hp : p < 28) (hcmd : s.commands r = true) :
    Completes (.portEnWrite r p v) s [.ports, .reports] fun t => (∀ o, o ≠ p → t.ports.port o = s.ports.port o) ∧ (t.ports.port p).en = v.flag 0 ∧
      (t.ports.port p).dom = (if r = 6 then v.fld 4 2 else (s.ports.port p).dom) ∧
      ((s.ports.port p).en = true → v.flag 0 = false → (t.ports.port p).run = .off ∧ (t.ports.port p).queue = [] ∧ (t.ports.port p).loss = false ∧
        (t.ports.port p).armed = none) := by
  have hexec : exec (.portEnWrite r p v) s = .next (s.withPorts fun x => x.writeCtl p v (r == 6)).settle :=
    done_on (by simp [Instr.wf, hr]; omega) hcmd
  obtain ⟨q, hb, hen, hdom, hoff⟩ := Serial.becomes_writeCtl (State.unitsWf_ports hwf) hp v (r == 6)
  obtain ⟨t, hnext, ⟨hother, hport, -⟩, honly⟩ := completes_becomes hexec hb
  refine ⟨t, hnext, ⟨hother, (congrArg SerPort.en hport).trans hen, (congrArg SerPort.dom hport).trans (hdom.trans (by simp)), fun h h' => ?_⟩, honly⟩
  rw [hport]
  exact hoff h h'

end Sys2Proof.Machine

/-!
SUPPORT. Lanes of the Link: slips, unlocks and locks (R381 to R387).
-/

namespace Sys2Proof.Machine

/-! ### One lane -/

theorem State.unitsWf_lanes {s : State} (h : s.unitsWf = true) : Memory.wf (fun _ => Lane.reset) s.links.lanes = true := by
  simp only [State.unitsWf, Bool.and_eq_true, and_assoc] at h
  obtain ⟨-, -, -, -, -, hlanes, -⟩ := h
  exact hlanes

theorem LinkSys.lane_setLane {x : LinkSys} (hwf : Memory.wf (fun _ => Lane.reset) x.lanes = true) (n m : Nat) (l : Lane) :
    (x.setLane n l).lane m = if m = n then l else x.lane m := Memory.get_set _ _ _ _ _ hwf

/-- The report of a report of the Link. -/
def LinkSys.report (x : LinkSys) (r : Nat × Nat) : Report :=
  ⟨r.2, 15, r.1, if (x.lane r.1).outDom < 3 then (x.lane r.1).outDom else domOr3 (x.lane r.1).inDom, false, false, 0⟩

theorem State.mem_flying_of_links {s : State} {r : Nat × Nat} (h : r ∈ s.links.rep) : s.links.report r ∈ s.settle.health.flying := by
  have hr : s.links.report r ∈ s.links.rep.map s.links.report := List.mem_map_of_mem h
  have hunits : s.settle.health.flying = s.health.flying ++ s.unitReports := rfl
  rw [hunits, State.unitReports]
  simp only [List.mem_append]
  exact .inr (.inl (.inr hr))

theorem State.unitReports_withLinks {s : State} {f : LinkSys → LinkSys} (hrep : (f s.links).rep = s.links.rep)
    (hdoms : ∀ n, ((f s.links).lane n).outDom = (s.links.lane n).outDom ∧ ((f s.links).lane n).inDom = (s.links.lane n).inDom) :
    (s.withLinks f).unitReports = s.unitReports := by
  simp only [State.unitReports, State.withLinks_facets, State.withLinks_tiles, State.withLinks_mem, State.withLinks_dram, State.withLinks_net,
    State.withLinks_clk, State.withLinks_ports, State.withLinks_links, State.withLinks_host, hrep, hdoms]

/-- A command that changes one lane and reports of it. -/
theorem completes_lane_noted {i : Instr} {s : State} {f : LinkSys → LinkSys} {n cause : Nat} {l : Lane} (hwf : s.unitsWf = true)
    (hexec : exec i s = .next (s.withLinks f).settle) (hf : f s.links = (s.links.setLane n l).note n cause) :
    Completes i s [.links, .reports] fun t => (∀ m, m ≠ n → t.links.lane m = s.links.lane m) ∧ t.links.lane n = l ∧
      ∃ d, ⟨cause, 15, n, d, false, false, 0⟩ ∈ t.health.flying := by
  have hlane : ∀ m, (f s.links).lane m = if m = n then l else s.links.lane m := fun m =>
    (congrArg (fun x => LinkSys.lane x m) hf :).trans (LinkSys.lane_setLane (State.unitsWf_lanes hwf) n m l)
  refine ⟨_, hexec, ⟨fun m hm => (hlane m).trans (if_neg hm), (hlane n).trans (if_pos rfl), _, State.mem_flying_of_links (r := (n, cause)) ?_⟩,
    (s.within_links f).mono.settle (fun h => absurd (by decide) h) fun _ => ⟨rfl, rfl, rfl⟩⟩
  rw [State.withLinks_links, hf, LinkSys.note]
  simp

/-- A command that changes one lane but for its domains, and reports nothing. -/
theorem completes_lane_silent {i : Instr} {s : State} {f : LinkSys → LinkSys} {n : Nat} {l : Lane} (hwf : s.unitsWf = true)
    (hexec : exec i s = .next (s.withLinks f).settle) (hf : f s.links = s.links.setLane n l)
    (hout : l.outDom = (s.links.lane n).outDom) (hin : l.inDom = (s.links.lane n).inDom) :
    Completes i s [.links] fun t => (∀ m, m ≠ n → t.links.lane m = s.links.lane m) ∧ t.links.lane n = l := by
  have hlane : ∀ m, (f s.links).lane m = if m = n then l else s.links.lane m := fun m =>
    (congrArg (fun x => LinkSys.lane x m) hf :).trans (LinkSys.lane_setLane (State.unitsWf_lanes hwf) n m l)
  have hdoms : ∀ m, ((f s.links).lane m).outDom = (s.links.lane m).outDom ∧ ((f s.links).lane m).inDom = (s.links.lane m).inDom := fun m => by
    rw [hlane]
    split
    next hm => exact hm ▸ ⟨hout, hin⟩
    · exact ⟨rfl, rfl⟩
  exact ⟨_, hexec, ⟨fun m hm => (hlane m).trans (if_neg hm), (hlane n).trans (if_pos rfl)⟩,
    (s.within_links f).settle (fun _ => State.unitReports_withLinks (congrArg LinkSys.rep hf :) hdoms) fun _ => ⟨rfl, rfl, rfl⟩⟩

theorem Lane.active_of {l : Lane} (hused : l.used = true) (hretired : l.st ≠ .retired) (hidle : l.st ≠ .idle) : l.active = true := by
  simp [Lane.active, hused, hretired, hidle]

theorem LinkSys.slip_eq {x : LinkSys} {n : Nat} (hactive : (x.lane n).active = true) (hsync : (x.lane n).async = false) :
    x.slip n = (x.setLane n { (x.lane n).fadeFor .slip with slips := incSat 0xFFFF (x.lane n).slips }).note n 0x0901 :=
  if_neg (by simp [hactive, hsync])

theorem LinkSys.unlock_eq {x : LinkSys} {n : Nat} {fill : Bool} (hactive : (x.lane n).active = true) (hfill : fill = false ∨ (x.lane n).async = true) :
    x.unlock n fill = (x.setLane n ((x.lane n).fadeFor (if fill then .fill else .input))).note n 0x0900 :=
  if_neg (by obtain h | h := hfill <;> simp [hactive, h])

/-- R384: what a lane that has acquired becomes. -/
def Lane.lockedTo (l : Lane) (phase : Int) : Lane :=
  if (l.lockTo phase).fresh then
    { l.lockTo phase with st := .locked, why := .none, fresh := false, fade := { (l.lockTo phase).fade with phase := .live } }
  else { l.lockTo phase with st := .ramping, why := .none, fade := { (l.lockTo phase).fade with phase := .rampBack 0 } }

theorem LinkSys.lockedAt_eq {x : LinkSys} {n : Nat} (hused : (x.lane n).used = true) (hst : (x.lane n).st = .acquiring) (phase : Int) :
    x.lockedAt n phase = x.setLane n ((x.lane n).lockedTo phase) := by
  rw [LinkSys.lockedAt, Lane.lockedTo, apply_ite (x.setLane n)]
  exact if_pos (by simp [hused, hst])

theorem Lane.lockTo_keeps (l : Lane) (phase : Int) :
    (l.lockTo phase).fresh = l.fresh ∧ (l.lockTo phase).outDom = l.outDom ∧ (l.lockTo phase).inDom = l.inDom := by
  rw [Lane.lockTo]
  split <;> exact ⟨rfl, rfl, rfl⟩

theorem Lane.lockedTo_doms (l : Lane) (phase : Int) : (l.lockedTo phase).outDom = l.outDom ∧ (l.lockedTo phase).inDom = l.inDom := by
  rw [Lane.lockedTo]
  split <;> exact (l.lockTo_keeps phase).2

/-- Settles O47: each command changes one port or one lane, and the frames hold. -/
theorem portControlAndLaneCommands : Obligations.PortControlAndLaneCommands := by
  unfold Obligations.PortControlAndLaneCommands
  dsimp only
  refine ⟨fun s r p hwf hr hp hcmd => ?_, fun s p c hwf hp hup harmed => ?_, fun s r p hwf hr hp hcmd => ?_,
    fun s r v hr hcmd => completes_startArm hr hcmd, fun s ns hup => completes_audStartEdge hup,
    fun s r p v hwf hr hp hcmd => completes_portEnWrite hwf hr hp hcmd, fun s n hwf hn hwork hup hused hretired hidle hsync => ?_,
    fun s n fill hwf hn hwork hup hused hretired hidle hfill => ?_, fun s n hwf hn hwork hup hused hst => ?_⟩
  · obtain ⟨t, hnext, ⟨hother, hport⟩, honly⟩ := completes_tdmCommit hwf hr hp hcmd
    refine ⟨t, hnext, ⟨hother, fun hen => hport.trans (if_pos (by simp [hen])), fun hen hstop => ?_⟩, honly⟩
    exact hport.trans ((if_neg (by simp [hen])).trans (if_neg (by simp [hstop])))
  · obtain ⟨t, hnext, ⟨hother, hport⟩, honly⟩ := completes_tdmCommitApply hwf hp hup harmed
    refine ⟨t, hnext, ⟨hother, ?_, ?_, fun hfits => ?_, fun hrate hover => ?_⟩, honly⟩
    · rw [hport, SerPort.takeArmed]
      split <;> rfl
    · rw [hport, SerPort.takeArmed]
      split <;> rfl
    · rw [hport, SerPort.takeArmed, if_pos (by rwa [TdmCfg.fits_iff])]
      exact ⟨rfl, rfl, rfl⟩
    · rw [hport, SerPort.takeArmed, if_neg (by rw [TdmCfg.fits_iff]; omega)]
      exact ⟨rfl, rfl⟩
  · obtain ⟨t, hnext, ⟨hother, hport⟩, honly⟩ := completes_portRestart hwf hr hp hcmd
    refine ⟨t, hnext, ⟨hother, fun hslip => ?_, fun hslip hmis => hport.trans (SerPort.restarted_of_not hslip hmis _)⟩, honly⟩
    rw [hport]
    exact SerPort.restarted_of_slip hslip _
  · have hexec : exec (.linkSlip n) s = .next (s.withLinks fun l => l.slip n).settle := done_on (by simpa [Instr.wf] using hn) (by simp [hwork, hup])
    obtain ⟨t, hnext, ⟨hother, hlane, hreport⟩, honly⟩ := completes_lane_noted hwf hexec (LinkSys.slip_eq (Lane.active_of hused hretired hidle) hsync)
    refine ⟨t, hnext, ⟨hother, (congrArg Lane.st hlane :), (congrArg Lane.why hlane :), (congrArg Lane.fade hlane :),
      (congrArg Lane.slips hlane).trans (incSat_eq_min ..), hreport⟩, honly⟩
  · have hexec : exec (.linkUnlock n fill) s = .next (s.withLinks fun l => l.unlock n fill).settle :=
      done_on (by simpa [Instr.wf] using hn) (by simp [hwork, hup])
    obtain ⟨t, hnext, ⟨hother, hlane, hreport⟩, honly⟩ := completes_lane_noted hwf hexec (LinkSys.unlock_eq (Lane.active_of hused hretired hidle) hfill)
    refine ⟨t, hnext, ⟨hother, (congrArg Lane.st hlane :), (congrArg Lane.why hlane :), (congrArg Lane.fade hlane :),
      (congrArg Lane.relock hlane).trans (incSat_eq_min ..), hreport⟩, honly⟩
  · have hexec : exec (.laneLocked n) s = .next (s.withLinks fun l => l.lockedAt n (s.lanePhase n)).settle :=
      done_on (by simpa [Instr.wf] using hn) (by simp [hwork, hup])
    have hdoms := (s.links.lane n).lockedTo_doms (s.lanePhase n)
    have hkeeps := ((s.links.lane n).lockTo_keeps (s.lanePhase n)).1
    obtain ⟨t, hnext, ⟨hother, hlane⟩, honly⟩ := completes_lane_silent hwf hexec (LinkSys.lockedAt_eq hused hst _) hdoms.1 hdoms.2
    refine ⟨t, hnext, ⟨hother, fun hfresh => ?_, fun hfresh => ?_⟩, honly⟩
    · rw [hlane, Lane.lockedTo, if_pos (hkeeps.trans hfresh)]
      exact ⟨rfl, rfl, rfl⟩
    · rw [hlane, Lane.lockedTo, if_neg (by simp [hkeeps, hfresh])]
      exact ⟨rfl, rfl⟩

end Sys2Proof.Machine

/-!
SUPPORT. Rings and taps of a partition: what doorbells and writes of their CFG leave (R395, R404, R409, R413, R419).
-/

namespace Sys2Proof.Machine

/-! ### Rings and taps -/

/-- The rings of one kind. -/
def Part.rings (q : Part) (sq : Bool) : Memory Ring := if sq then q.sq else q.cq

theorem Part.ring_setRing {q : Part} {sq : Bool} (hwf : Memory.wf (fun _ => Ring.reset) (q.rings sq) = true) (r m : Nat) (v : Ring) :
    (q.setRing sq r v).ring sq m = if m = r then v else q.ring sq m := by
  cases sq <;> exact Memory.get_set _ _ _ _ _ hwf

theorem Part.ring_setRing_not (q : Part) (sq : Bool) (r m : Nat) (v : Ring) : (q.setRing sq r v).ring (!sq) m = q.ring (!sq) m := by
  cases sq <;> rfl

theorem Part.setRing_ringErr (q : Part) (sq : Bool) (r : Nat) (v : Ring) : (q.setRing sq r v).ringErr = q.ringErr := by cases sq <;> rfl
theorem Part.setRing_fr (q : Part) (sq : Bool) (r : Nat) (v : Ring) : (q.setRing sq r v).fr = q.fr := by cases sq <;> rfl

theorem Part.tap_setTap {q : Part} (hwf : Memory.wf (fun _ => Tap.reset) q.taps = true) (k j : Nat) (v : Tap) :
    (q.setTap k v).tap j = if j = k then v else q.tap j := Memory.get_set _ _ _ _ _ hwf

theorem Word.testBit_toNat_or (v w : Word) (i : Nat) : (v ||| w).flag i = (v.flag i || w.flag i) := by
  rw [Word.flag_eq_testBit, Word.flag_eq_testBit, Word.flag_eq_testBit, BitVec.toNat_or, Nat.testBit_or]

theorem Word.one_flag {i : Nat} (hi : i < 32) : (Word.one i).flag i = true := by
  rw [Word.flag_eq_testBit, Word.one, BitVec.toNat_ofNat, Nat.mod_eq_of_lt (Nat.pow_lt_pow_right (by decide) hi), Nat.testBit_two_pow_self]

theorem Word.or_one_flag (v : Word) {i : Nat} (hi : i < 32) : (v ||| Word.one i).flag i = true := by
  rw [Word.testBit_toNat_or, Word.one_flag hi, Bool.or_true]

/-! ### Doorbells (R404, R409, R419) -/

theorem Part.doorbell_sq {q : Part} (hwf : Memory.wf (fun _ => Ring.reset) q.sq = true) {n : Nat} (hn : n < 8) (v : Nat) :
    (∀ m, m ≠ n → (q.doorbell 0 n v).ring true m = q.ring true m) ∧
      (v < (q.ring true n).size → (q.doorbell 0 n v).ring true n = { q.ring true n with host := v } ∧ (q.doorbell 0 n v).ringErr = q.ringErr) ∧
      ((q.ring true n).size ≤ v → (q.doorbell 0 n v).ring true n = q.ring true n ∧ (q.doorbell 0 n v).ringErr.flag n = true) := by
  have hset := Part.ring_setRing (q := q) (sq := true) hwf n
  by_cases hv : v < (q.ring true n).size
  · have heq : q.doorbell 0 n v = q.setRing true n { q.ring true n with host := v } := if_pos hv
    rw [heq]
    refine ⟨fun m hm => (hset m _).trans (if_neg hm), fun _ => ⟨(hset n _).trans (if_pos rfl), rfl⟩, fun hle => absurd hv (by omega)⟩
  · have heq : q.doorbell 0 n v = { q with ringErr := q.ringErr ||| Word.one n } := if_neg hv
    rw [heq]
    exact ⟨fun _ _ => rfl, fun hlt => absurd hlt hv, fun _ => ⟨rfl, Word.or_one_flag _ (by omega)⟩⟩

/-- R409: a completion ring whose host has consumed up to `v`. -/
def Ring.consumed (g : Ring) (v : Nat) : Ring := { g with host := v, since := g.since.drop (g.since.length - Ring.used v g.dev g.size) }

theorem Part.doorbell_cq {q : Part} (hwf : Memory.wf (fun _ => Ring.reset) q.cq = true) {n : Nat} (hn : n < 8) (v : Nat) :
    (∀ m, m ≠ n → (q.doorbell 1 n v).ring false m = q.ring false m) ∧
      (v < (q.ring false n).size → (q.doorbell 1 n v).ring false n =
        (q.ring false n).consumed v) ∧
      ((q.ring false n).size ≤ v → (q.doorbell 1 n v).ring false n = q.ring false n ∧ (q.doorbell 1 n v).ringErr.flag (8 + n) = true) := by
  have hset := Part.ring_setRing (q := q) (sq := false) hwf n
  by_cases hv : v < (q.ring false n).size
  · have heq : q.doorbell 1 n v = q.setRing false n ((q.ring false n).consumed v) := if_pos hv
    rw [heq]
    exact ⟨fun m hm => (hset m _).trans (if_neg hm), fun _ => (hset n _).trans (if_pos rfl), fun hle => absurd hv (by omega)⟩
  · have heq : q.doorbell 1 n v = { q with ringErr := q.ringErr ||| Word.one (8 + n) } := if_neg hv
    rw [heq]
    exact ⟨fun _ _ => rfl, fun hlt => absurd hlt hv, fun _ => ⟨rfl, Word.or_one_flag _ (by omega)⟩⟩

theorem Part.doorbell_fr (q : Part) (v : Nat) :
    (v < q.fr.size → (q.doorbell 2 0 v).fr = { q.fr with host := v }) ∧
      (q.fr.size ≤ v → (q.doorbell 2 0 v).fr = q.fr ∧ (q.doorbell 2 0 v).ringErr.flag 16 = true) := by
  by_cases hv : v < q.fr.size
  · have heq : q.doorbell 2 0 v = { q with fr := { q.fr with host := v } } := if_pos hv
    rw [heq]
    exact ⟨fun _ => rfl, fun hle => absurd hv (by omega)⟩
  · have heq : q.doorbell 2 0 v = { q with ringErr := q.ringErr ||| Word.one 16 } := if_neg hv
    rw [heq]
    exact ⟨fun hlt => absurd hlt hv, fun _ => ⟨rfl, Word.or_one_flag _ (by decide)⟩⟩

/-! ### CFG of a ring (R395, R404) -/

/-- The ring of kind `k` (0 submission, 1 completion, 2 fault) with number `n`. -/
def Part.ringOf (q : Part) (k n : Nat) : Ring := if k = 2 then q.fr else q.ring (k == 0) n

/-- The bits of a ring's CFG that exist. -/
def ringMask (k : Nat) : Word := match k with
  | 0 => 0x8000070F
  | 1 => 0xBFFFF00F
  | _ => 0xBF00000F

/-- R395, R404: the CFG that a write leaves. -/
def Ring.cfgFor (g : Ring) (k : Nat) (v : Word) (iface : Nat) : Word :=
  let m := v &&& ringMask k
  let okK := 1 ≤ m.fld 0 4 && m.fld 0 4 ≤ 10
  let m := if g.en then m.setFld 0 4 (g.cfg.fld 0 4) else m
  if m.flag 31 && !g.en && (!okK || (iface != 0 && !spaceOf g.lo)) then m.setFlag 31 false else m

/-- R404: the ring that a write of its CFG leaves. -/
def Ring.configured (g : Ring) (k : Nat) (v : Word) (iface : Nat) : Ring :=
  let c := g.cfgFor k v iface
  let g' := { g with cfg := c }
  if !g.en && c.flag 31 then
    { g' with phase := true, dev := if k = 0 then g'.dev else 0, host := if k = 0 then g'.host else 0, since := [] }
  else if g.en && !c.flag 31 then g'.disable (k == 0) else g'

theorem Part.writeRingCfg_eq (q : Part) {k : Nat} (hk : k < 3) (n : Nat) (v : Word) (iface : Nat) :
    q.writeRingCfg k n v iface =
      if k = 2 then { q with fr := (q.ringOf k n).configured k v iface } else q.setRing (k == 0) n ((q.ringOf k n).configured k v iface) := by
  obtain rfl | rfl | rfl : k = 0 ∨ k = 1 ∨ k = 2 := by omega
  · rfl
  · rfl
  · rfl

theorem Word.flag_and (v w : Word) (i : Nat) : (v &&& w).flag i = (v.flag i && w.flag i) := by
  rw [Word.flag_eq_testBit, Word.flag_eq_testBit, Word.flag_eq_testBit, BitVec.toNat_and, Nat.testBit_and]

/-- The mask leaves EN and SIZE_LOG2 of what is written. -/
theorem ringMask_keeps {k : Nat} (hk : k < 3) (v : Word) : (v &&& ringMask k).flag 31 = v.flag 31 ∧ (v &&& ringMask k).fld 0 4 = v.fld 0 4 := by
  have hen : (ringMask k).flag 31 = true := by
    obtain rfl | rfl | rfl : k = 0 ∨ k = 1 ∨ k = 2 := by omega
    all_goals decide
  have hsize : ∀ i, i < 4 → (ringMask k).toNat.testBit i = true := by
    obtain rfl | rfl | rfl : k = 0 ∨ k = 1 ∨ k = 2 := by omega
    all_goals decide
  refine ⟨by rw [Word.flag_and, hen, Bool.and_true], Nat.eq_of_testBit_eq fun i => ?_⟩
  rw [Word.testBit_fld, Word.testBit_fld, BitVec.toNat_and, Nat.testBit_and, Nat.zero_add]
  by_cases hi : i < 4
  · simp [hsize i hi]
  · simp [hi]

theorem Ring.cfgFor_off {g : Ring} (hen : g.en = false) {k : Nat} (v : Word) (iface : Nat) :
    g.cfgFor k v iface = if ((v &&& ringMask k).flag 31 && (!(1 ≤ (v &&& ringMask k).fld 0 4 && (v &&& ringMask k).fld 0 4 ≤ 10) ||
      (iface != 0 && !spaceOf g.lo))) = true then (v &&& ringMask k).setFlag 31 false else v &&& ringMask k := by
  simp [Ring.cfgFor, hen]

theorem Ring.disable_base (g : Ring) (sq : Bool) : (g.disable sq).lo = g.lo ∧ (g.disable sq).hi = g.hi := by
  simp only [Ring.disable, and_self]

theorem Ring.configured_base (g : Ring) (k : Nat) (v : Word) (iface : Nat) :
    (g.configured k v iface).lo = g.lo ∧ (g.configured k v iface).hi = g.hi := by
  rw [Ring.configured]
  generalize g.cfgFor k v iface = c
  split
  · exact ⟨rfl, rfl⟩
  · split
    · exact Ring.disable_base { g with cfg := c } (k == 0)
    · exact ⟨rfl, rfl⟩

/-- R404: a ring of 2 to 1,024 entries that the write enables. -/
theorem Ring.configured_enabled {g : Ring} {k : Nat} {v : Word} {iface : Nat} (hk : k < 3) (hen : g.en = false) (hv : v.flag 31 = true)
    (hmin : 1 ≤ v.fld 0 4) (hmax : v.fld 0 4 ≤ 10) (hspace : iface = 0 ∨ spaceOf g.lo = true) :
    let h := g.configured k v iface
    h.en = true ∧ h.phase = true ∧ h.size = 2 ^ v.fld 0 4 ∧ (k ≠ 0 → h.dev = 0 ∧ h.host = 0) ∧ (k = 0 → h.dev = g.dev ∧ h.host = g.host) := by
  obtain ⟨hflag, hfld⟩ := ringMask_keeps hk v
  have hcfg : g.cfgFor k v iface = v &&& ringMask k := by
    rw [Ring.cfgFor_off hen, if_neg]
    rw [hfld]
    obtain h | h := hspace <;> simp [h, hmin, hmax]
  have heq : g.configured k v iface = { g with
      cfg := v &&& ringMask k, phase := true, dev := if k = 0 then g.dev else 0, host := if k = 0 then g.host else 0, since := [] } := by
    rw [Ring.configured]
    simp only [hcfg]
    exact if_pos (by rw [hen, hflag, hv]; rfl)
  dsimp only
  rw [heq]
  refine ⟨hflag.trans hv, rfl, congrArg (2 ^ ·) hfld, fun h => ⟨if_neg h, if_neg h⟩, fun h => ⟨if_pos h, if_pos h⟩⟩

/-- R404: a size out of range leaves a disabled ring disabled. -/
theorem Ring.configured_refused {g : Ring} {k : Nat} {v : Word} (hk : k < 3) (hen : g.en = false) (hsize : v.fld 0 4 = 0 ∨ 10 < v.fld 0 4) (iface : Nat) :
    (g.configured k v iface).en = false := by
  obtain ⟨hflag, hfld⟩ := ringMask_keeps hk v
  have hcfg : (g.cfgFor k v iface).flag 31 = false := by
    have hbad : (!(1 ≤ (v &&& ringMask k).fld 0 4 && (v &&& ringMask k).fld 0 4 ≤ 10)) = true := by
      rw [hfld]
      simp
      omega
    rw [Ring.cfgFor_off hen, hbad, Bool.true_or, Bool.and_true]
    split
    · exact Word.flag_setFlag_same (by decide) _ _
    next h => exact Bool.eq_false_iff.mpr h
  rw [Ring.configured]
  simp only [hcfg, hen]
  exact hcfg

/-- R404: a ring that the write disables. -/
theorem Ring.configured_disabled {g : Ring} {k : Nat} {v : Word} (hk : k < 3) (hen : g.en = true) (hv : v.flag 31 = false) (iface : Nat) :
    (g.configured k v iface).en = false ∧ (g.configured k v iface).since = [] ∧ (k = 0 → (g.configured k v iface).dev = g.host) := by
  obtain ⟨hflag, -⟩ := ringMask_keeps hk v
  have hcfg : (g.cfgFor k v iface).flag 31 = false := by
    rw [Ring.cfgFor]
    simp only [hen, if_true, Bool.not_true, Bool.and_false, Bool.false_and, Bool.false_eq_true, if_false]
    rw [Word.flag_setFld_apart (by decide) (by decide), hflag, hv]
  have heq : g.configured k v iface = Ring.disable { g with cfg := g.cfgFor k v iface } (k == 0) := by
    rw [Ring.configured]
    simp only [hcfg, hen]
    rfl
  rw [heq]
  refine ⟨Word.flag_setFlag_same (by decide) _ _, rfl, fun h => ?_⟩
  rw [h]
  rfl

/-! ### CFG of a tap (R395, R413) -/

/-- EN and BLK of a tap's CFG. -/
theorem tapCfgWord_fields (en : Bool) {vec blk : Nat} (hvec : vec < 64) (hblk : blk < 2048) :
    let w : Word := BitVec.ofNat 32 ((if en then 2 ^ 31 else 0) + vec <<< 24 + blk)
    w.flag 31 = en ∧ w.fld 0 11 = blk := by
  intro w
  have hen := en.toNat_le
  have hw : w.toNat = en.toNat * 2147483648 + vec * 16777216 + blk := by
    rw [BitVec.toNat_ofNat, Nat.shiftLeft_eq]
    cases en <;> simp only [Bool.toNat_false, Bool.toNat_true, Bool.false_eq_true, if_true, if_false] <;> omega
  simp only [Word.flag_eq, Word.fld_eq, hw, Nat.reducePow]
  refine ⟨?_, by omega⟩
  have hbit : (en.toNat * 2147483648 + vec * 16777216 + blk) / 2147483648 % 2 = en.toNat := by omega
  rw [hbit]
  cases en <;> rfl

/-- R395, R413: the CFG that a write by a PCIe holder leaves. -/
def Tap.cfgFor (t : Tap) (v : Word) : Word :=
  BitVec.ofNat 32 ((if v.flag 31 then 2 ^ 31 else 0) + (v.fld 24 6) <<< 24 + if 1 ≤ v.fld 0 11 && v.fld 0 11 ≤ 1024 then v.fld 0 11 else t.blk)

theorem Tap.cfgFor_fields (t : Tap) (v : Word) :
    (t.cfgFor v).flag 31 = v.flag 31 ∧ (1 ≤ v.fld 0 11 → v.fld 0 11 ≤ 1024 → (t.cfgFor v).fld 0 11 = v.fld 0 11) := by
  have hblk : (if (1 ≤ v.fld 0 11 && v.fld 0 11 ≤ 1024) = true then v.fld 0 11 else t.blk) < 2048 := by
    split
    · exact Word.fld_lt v 0 11
    · exact Word.fld_lt t.cfg 0 11
  obtain ⟨hen, hfld⟩ := tapCfgWord_fields (v.flag 31) (Word.fld_lt v 24 6) hblk
  exact ⟨hen, fun hmin hmax => hfld.trans (if_pos (by simp [hmin, hmax]))⟩

theorem Tap.write_cfg_eq (t : Tap) (v : Word) :
    t.write 0 v 0 = if t.en && !v.flag 31 then ({ t with cfg := t.cfgFor v } : Tap).stop else { t with cfg := t.cfgFor v } := by
  have hen : (v.flag 31 && (t.en || (0 : Nat) == 0 || spaceOf t.lo)) = v.flag 31 := by simp
  rw [Tap.write, Tap.cfgFor]
  simp only [hen]

theorem Tap.write_cfg (t : Tap) (v : Word) :
    let y := t.write 0 v 0
    y.en = v.flag 31 ∧ y.lo = t.lo ∧ y.hi = t.hi ∧ y.hostIdx = t.hostIdx ∧ y.devIdx = t.devIdx ∧
      (1 ≤ v.fld 0 11 → v.fld 0 11 ≤ 1024 → y.blk = v.fld 0 11) ∧
      (t.en = true → v.flag 31 = false → y.run = false ∧ y.block = [] ∧ y.done = [] ∧ y.frames = []) ∧ (t.en = false → y.run = t.run) := by
  obtain ⟨hen, hblk⟩ := t.cfgFor_fields v
  dsimp only
  rw [Tap.write_cfg_eq]
  generalize t.cfgFor v = c at hen hblk
  by_cases hstop : (t.en && !v.flag 31) = true
  · rw [if_pos hstop]
    simp only [Bool.and_eq_true, Bool.not_eq_true'] at hstop
    rw [Tap.stop]
    exact ⟨(Word.flag_setFlag_same (by decide) _ _).trans hstop.2.symm, rfl, rfl, rfl, rfl,
      fun hmin hmax => (Word.fld_setFlag (by decide) (by decide) _ _).trans (hblk hmin hmax), fun _ _ => ⟨rfl, rfl, rfl, rfl⟩,
      fun h => absurd (hstop.1.symm.trans h) (by decide)⟩
  · rw [if_neg hstop]
    exact ⟨hen, rfl, rfl, rfl, rfl, hblk, fun h h' => absurd (by simp [h, h']) hstop, fun _ => rfl⟩

/-! ### The registers of the rings and taps -/

theorem exec_writeBlock {i : Instr} {s : State} {r p o : Nat} {v : Word} (hexec : exec i s = .next (s.writeBlock r o v).settle)
    (hview : s.host.view r = some p) : exec i s = .next (s.writePart r p o v).settle := by
  rw [hexec, State.writeBlock, hview]

/-- A register of the partition block that only the holder may write, and that does nothing but change a field. -/
theorem State.writePart_plain {s : State} {r o : Nat} (hholds : s.host.holds r = true) (hlo : 0x180 ≤ o) (p : Nat) (v : Word) :
    s.writePart r p o v = s.withHost fun h => h.modPart p fun q => q.writePlain o v (ifaceOf r) := by
  rw [State.writePart, if_neg (by omega), if_neg (by omega), if_neg (by omega), if_neg (by simp [hholds]), if_neg (by omega)]

theorem State.writePart_sqCfg {s : State} {r n : Nat} (hholds : s.host.holds r = true) (hn : n < 8) (p : Nat) (v : Word) :
    s.writePart r p (0x108 + 16 * n) v = s.withHost fun h => h.modPart p fun q => q.writePlain (0x108 + 16 * n) v (ifaceOf r) := by
  rw [State.writePart, if_neg (by omega), if_neg (by omega), if_neg (by omega), if_neg (by simp [hholds]), if_neg (by omega)]

theorem Part.writePlain_ringCfg {k n : Nat} (hk : k < 3) (hn : n < 8) (q : Part) (v : Word) (iface : Nat) :
    q.writePlain (ringCfgAt k n) v iface = q.writeRingCfg k (if k = 2 then 0 else n) v iface := by
  obtain rfl | rfl | rfl : k = 0 ∨ k = 1 ∨ k = 2 := by omega
  · have hr : (0x108 + 16 * n) / 16 % 8 = n := by omega
    have ho : (0x108 + 16 * n) % 16 = 8 := by omega
    have hsq : 0x108 + 16 * n < 0x180 := by omega
    have hat : ringCfgAt 0 n = 0x108 + 16 * n := if_pos rfl
    rw [hat]
    unfold Part.writePlain
    rw [if_pos (by simp; omega)]
    simp only [hr, ho, hsq]
    rfl
  · have hr : (0x188 + 16 * n) / 16 % 8 = n := by omega
    have ho : (0x188 + 16 * n) % 16 = 8 := by omega
    have hsq : ¬ 0x188 + 16 * n < 0x180 := by omega
    have hat : ringCfgAt 1 n = 0x188 + 16 * n := rfl
    rw [hat]
    unfold Part.writePlain
    rw [if_pos (by simp; omega)]
    simp only [hr, ho, hsq]
    rfl
  · rfl

theorem Part.writePlain_cqBell {n : Nat} (hn : n < 8) (q : Part) (v : Word) (iface : Nat) :
    q.writePlain (0x18C + 16 * n) v iface = q.doorbell 1 n (v.fld 0 16) := by
  have hr : (0x18C + 16 * n) / 16 % 8 = n := by omega
  have ho : (0x18C + 16 * n) % 16 = 12 := by omega
  have hsq : ¬ 0x18C + 16 * n < 0x180 := by omega
  unfold Part.writePlain
  rw [if_pos (by simp; omega)]
  simp only [hr, ho, hsq]
  rfl

theorem Part.writePlain_tapCfg {k : Nat} (hk : k < 64) (q : Part) (v : Word) (iface : Nat) :
    q.writePlain (0x400 + 0x20 * k) v iface = q.setTap k ((q.tap k).write 0 v iface) := by
  have hi : (0x400 + 0x20 * k - 0x400) / 0x20 = k := by omega
  have ho : (0x400 + 0x20 * k) % 0x20 = 0 := by omega
  unfold Part.writePlain
  rw [if_neg (by simp; omega), if_pos (by simp; omega)]
  simp only [hi, ho]

end Sys2Proof.Machine

/-!
SUPPORT. The commands that write registers of rings and taps (R404, R405, R409, R413, R419, R463).
-/

namespace Sys2Proof.Machine

theorem HostSys.view_pcie {h : HostSys} {r : Nat} (hr : r < 4) : h.view r = some r := if_pos hr

theorem State.hostWrites_of {s : State} {r : Nat} (hr : r < 6) (hw : s.writable = true) : s.hostWrites r = true := by
  simp [State.hostWrites, hr, hw]

theorem State.writable_of_run {s : State} (hserved : s.served = true) (hphase : s.power.phase = .run) : s.writable = true := by
  simp [State.writable, hserved, State.awake, Power.awake, hphase]

theorem Word.ofNat_fld_low {v : Nat} (hv : v < 2 ^ 16) : Word.fld (BitVec.ofNat 32 v) 0 16 = v := by
  rw [Word.fld_eq, BitVec.toNat_ofNat]
  omega

/-- A doorbell that `f` answers in the power unit. -/
def State.doorbellWith (s : State) (f : Power → Power) (r p kind ring v : Nat) : State :=
  let s := if kind = 0 then s.withPower f else s
  if s.host.holds r then s.withHost fun h => h.modPart p fun q => q.doorbell kind ring v else s

theorem State.doorbell_eq (s : State) (r p kind ring v : Nat) :
    s.doorbell r p kind ring v = s.doorbellWith (fun x => x.reload s.us) r p kind ring v := by
  rw [State.doorbell, State.doorbellWith]

/-- R404, R463: a submission doorbell of the holder, where `f` starts the idle timer anew. -/
def State.belled (s : State) (f : Power → Power) (p n v : Nat) : State := (s.withPower f).withHost fun h => h.modPart p fun q => q.doorbell 0 n v

theorem State.doorbellWith_sq {s : State} {f : Power → Power} {r : Nat} (hholds : s.host.holds r = true) (p n v : Nat) :
    s.doorbellWith f r p 0 n v = s.belled f p n v := by
  rw [State.doorbellWith, if_pos rfl]
  exact if_pos hholds

theorem State.sqBell_run {s : State} {r p n v : Nat} (hw : s.writable = true) (hphase : s.power.phase = .run) (hview : s.host.view r = some p)
    (hholds : s.host.holds r = true) : s.sqBell r n v = s.belled (fun x => x.reload s.us) p n v := by
  have hawake : s.bellWake r = s := if_neg (by simp [hphase])
  rw [State.sqBell, hawake]
  simp only [hw, hview, if_true]
  rw [State.doorbell_eq, State.doorbellWith_sq hholds]

theorem State.belled_host (s : State) (f : Power → Power) (p n v : Nat) :
    (s.belled f p n v).host = s.host.modPart p fun q => q.doorbell 0 n v := rfl

theorem State.belled_only {s : State} {f : Power → Power} (hphase : (f s.power).phase = s.power.phase) (hstopped : (f s.power).stopped = s.power.stopped)
    (p n v : Nat) : OnlyChanges [.host, .power] s (s.belled f p n v).settle := by
  have hreports := State.unitReports_withHost (s.withPower f) (fun h => h.modPart p fun q => q.doorbell 0 n v) rfl
  have hwithin : s.Within [.host, .power] (s.belled f p n v) := (s.within_power f).mono.trans (State.within_host _ _).mono
  refine hwithin.settle (fun _ => hreports) fun _ => ⟨rfl, ?_, rfl⟩
  have hpower : (s.belled f p n v).power = f s.power := rfl
  have hboot : (s.belled f p n v).boot = s.boot := rfl
  rw [State.txOn, State.txOn, Power.awake, Power.awake, hpower, hboot, hphase, hstopped]

theorem completes_belled {i : Instr} {s : State} {f : Power → Power} {p n v : Nat} (hwf : s.unitsWf = true)
    (hphase : (f s.power).phase = s.power.phase) (hstopped : (f s.power).stopped = s.power.stopped)
    (hexec : exec i s = .next (s.belled f p n v).settle) :
    Completes i s [.host, .power] fun t => t.power = f s.power ∧ t.host.part p = (s.host.part p).doorbell 0 n v ∧
      ∀ q, q ≠ p → t.host.part q = s.host.part q :=
  ⟨_, hexec, ⟨rfl, s.host.part_modPart_same p (fun q => q.doorbell 0 n v) (State.unitsWf_parts hwf),
    fun _ hq => s.host.part_modPart_other (fun q => q.doorbell 0 n v) hq⟩, State.belled_only hphase hstopped p n v⟩

theorem completes_sqDoorbell {s : State} {r p n v : Nat} (hwf : s.unitsWf = true) (hr : r < 6) (hn : n < 8) (hv : v < 2 ^ 16)
    (hserved : s.served = true) (hphase : s.power.phase = .run) (hview : s.host.view r = some p) (hholds : s.host.holds r = true) :
    Completes (.sqDoorbell r n v) s [.host, .power] fun t => t.power = s.power.reload s.us ∧ t.host.part p = (s.host.part p).doorbell 0 n v ∧
      ∀ q, q ≠ p → t.host.part q = s.host.part q := by
  have hw := State.writable_of_run hserved hphase
  have hexec : exec (.sqDoorbell r n v) s = .next (s.sqBell r n v).settle :=
    done_on (by simp [Instr.wf, hn]; omega) (by simp [State.readable_of_writable hw, hr])
  rw [State.sqBell_run hw hphase hview hholds] at hexec
  exact completes_belled (f := fun x => x.reload s.us) hwf (Power.reload_phase ..) (Power.reload_stopped ..) hexec

/-- A command of the holder that writes a register which changes its partition alone. -/
theorem completes_plainWrite {i : Instr} {s : State} {r p o : Nat} {v : Word} (hwf : s.unitsWf = true)
    (hexec : exec i s = .next (s.writeBlock r o v).settle) (hview : s.host.view r = some p)
    (hwrite : s.writePart r p o v = s.withHost fun h => h.modPart p fun q => q.writePlain o v (ifaceOf r)) :
    Completes i s [.host] fun t => t.host.part p = (s.host.part p).writePlain o v (ifaceOf r) ∧ ∀ q, q ≠ p → t.host.part q = s.host.part q := by
  obtain ⟨t, hnext, ⟨hpart, hother, -⟩, honly⟩ := completes_modPart (fun q => q.writePlain o v (ifaceOf r)) hwf
    (by rw [exec_writeBlock hexec hview, hwrite])
  exact ⟨t, hnext, ⟨hpart, hother⟩, honly⟩

theorem completes_cqDoorbell {s : State} {r p n v : Nat} (hwf : s.unitsWf = true) (hr : r < 6) (hn : n < 8) (hv : v < 2 ^ 16)
    (hw : s.writable = true) (hview : s.host.view r = some p) (hholds : s.host.holds r = true) :
    Completes (.cqDoorbell r n v) s [.host] fun t => t.host.part p = (s.host.part p).doorbell 1 n v ∧ ∀ q, q ≠ p → t.host.part q = s.host.part q := by
  have hexec : exec (.cqDoorbell r n v) s = .next (s.writeBlock r (0x18C + 16 * n) (BitVec.ofNat 32 v)).settle :=
    done_on (by simp [Instr.wf, hn]; omega) (State.hostWrites_of hr hw)
  obtain ⟨t, hnext, ⟨hpart, hother⟩, honly⟩ := completes_plainWrite hwf hexec hview (State.writePart_plain hholds (by omega) p _)
  exact ⟨t, hnext, ⟨hpart.trans (by rw [Part.writePlain_cqBell hn, Word.ofNat_fld_low hv]), hother⟩, honly⟩

theorem completes_frDoorbell {s : State} {r p v : Nat} (hwf : s.unitsWf = true) (hr : r < 6) (hv : v < 2 ^ 16)
    (hw : s.writable = true) (hview : s.host.view r = some p) (hholds : s.host.holds r = true) :
    Completes (.frDoorbell r v) s [.host] fun t => t.host.part p = (s.host.part p).doorbell 2 0 v ∧ ∀ q, q ≠ p → t.host.part q = s.host.part q := by
  have hexec : exec (.frDoorbell r v) s = .next (s.writeBlock r 0x20C (BitVec.ofNat 32 v)).settle :=
    done_on (by simp [Instr.wf]; omega) (State.hostWrites_of hr hw)
  obtain ⟨t, hnext, ⟨hpart, hother⟩, honly⟩ := completes_plainWrite hwf hexec hview (State.writePart_plain hholds (by omega) p _)
  have hplain : (s.host.part p).writePlain 0x20C (BitVec.ofNat 32 v) (ifaceOf r) = (s.host.part p).doorbell 2 0 (Word.fld (BitVec.ofNat 32 v) 0 16) := rfl
  exact ⟨t, hnext, ⟨hpart.trans (by rw [hplain, Word.ofNat_fld_low hv]), hother⟩, honly⟩

theorem completes_ringEnWrite {s : State} {r p k n : Nat} {v : Word} (hwf : s.unitsWf = true) (hr : r < 6) (hk : k < 3) (hn : n < 8)
    (hw : s.writable = true) (hview : s.host.view r = some p) (hholds : s.host.holds r = true) :
    Completes (.ringEnWrite r k n v) s [.host] fun t => t.host.part p = (s.host.part p).writeRingCfg k (if k = 2 then 0 else n) v (ifaceOf r) ∧
      ∀ q, q ≠ p → t.host.part q = s.host.part q := by
  have hexec : exec (.ringEnWrite r k n v) s = .next (s.writeBlock r (ringCfgAt k n) v).settle :=
    done_on (by simp [Instr.wf, hn, hk]; omega) (State.hostWrites_of hr hw)
  have hwrite : s.writePart r p (ringCfgAt k n) v = s.withHost fun h => h.modPart p fun q => q.writePlain (ringCfgAt k n) v (ifaceOf r) := by
    obtain rfl | rfl | rfl : k = 0 ∨ k = 1 ∨ k = 2 := by omega
    · exact State.writePart_sqCfg hholds hn p v
    · exact State.writePart_plain hholds (Nat.le_add_right_of_le (by decide)) p v
    · exact State.writePart_plain (o := 0x208) hholds (by decide) p v
  obtain ⟨t, hnext, ⟨hpart, hother⟩, honly⟩ := completes_plainWrite hwf hexec hview hwrite
  exact ⟨t, hnext, ⟨hpart.trans (Part.writePlain_ringCfg hk hn _ v _), hother⟩, honly⟩

theorem completes_tapEnWrite {s : State} {r k : Nat} {v : Word} (hwf : s.unitsWf = true) (hr : r < 4) (hk : k < 64) (hw : s.writable = true)
    (hholds : s.host.holds r = true) :
    Completes (.tapEnWrite r k v) s [.host] fun t => t.host.part r = (s.host.part r).setTap k (((s.host.part r).tap k).write 0 v 0) ∧
      ∀ q, q ≠ r → t.host.part q = s.host.part q := by
  have hexec : exec (.tapEnWrite r k v) s = .next (s.writeBlock r (0x400 + 0x20 * k) v).settle :=
    done_on (by simp [Instr.wf, hk]; omega) (State.hostWrites_of (by omega) hw)
  have hiface : ifaceOf r = 0 := if_pos hr
  obtain ⟨t, hnext, ⟨hpart, hother⟩, honly⟩ := completes_plainWrite hwf hexec (HostSys.view_pcie hr) (State.writePart_plain hholds (by omega) r _)
  exact ⟨t, hnext, ⟨hpart.trans (by rw [Part.writePlain_tapCfg hk, hiface]), hother⟩, honly⟩

end Sys2Proof.Machine

/-!
SUPPORT. The fetch of submission entries (R405 to R407).
-/

namespace Sys2Proof.Machine

/-! ### Reads of the Exchange RAM -/

theorem MemSys.fetch_banks (m : MemSys) (e : EccMem) (i : Nat) (who : Requester) : (m.fetch e i who).1.banks = m.banks := by
  simp only [MemSys.fetch]
  split
  · rfl
  · rfl
  · simp [MemSys.found, MemSys.note, apply_ite MemSys.banks]

/-- A read leaves the words of the Exchange RAM and of the banks. -/
theorem State.xramRead_mem (s : State) (p a n : Nat) :
    ∃ m : MemSys, (s.xramRead p a n).1 = (s.withMem fun _ => m) ∧ m.xram = s.mem.xram ∧ m.banks = s.mem.banks := by
  have hfold : ∀ (l : List Nat) (r : State × List Byte), (∃ m : MemSys, r.1 = (s.withMem fun _ => m) ∧ m.xram = s.mem.xram ∧ m.banks = s.mem.banks) →
      ∃ m : MemSys, (l.foldl (fun (r : State × List Byte) k =>
        ((r.1.withMem fun _ => (r.1.mem.fetch .xram ((a / 4 + k) % xramWords) (.dma p)).1),
          r.2 ++ bytesOfWord (r.1.mem.fetch .xram ((a / 4 + k) % xramWords) (.dma p)).2)) r).1 = (s.withMem fun _ => m) ∧
        m.xram = s.mem.xram ∧ m.banks = s.mem.banks := by
    intro l
    induction l with
    | nil => exact fun r h => h
    | cons k l ih =>
      intro r ⟨m, hr, hxram, hbanks⟩
      refine ih _ ⟨(m.fetch .xram ((a / 4 + k) % xramWords) (.dma p)).1, ?_, (MemSys.fetch_xram ..).trans hxram, (MemSys.fetch_banks ..).trans hbanks⟩
      dsimp only
      rw [hr]
      rfl
  exact hfold _ (s, []) ⟨s.mem, rfl, rfl, rfl⟩

/-! ### The data read of an entry (R405) -/

/-- What an entry keeps while its data is read. -/
def Entry.sameAs (e f : Entry) : Prop := e.part = f.part ∧ e.sq = f.sq ∧ e.op = f.op ∧ e.cmdId = f.cmdId ∧ e.session = f.session

/-- The last entry of intake has its read issued. -/
theorem State.issueRead_last {v : State} {l : List Entry} {e : Entry} (h : v.setter.intake = l ++ [e]) :
    ∃ e' o, e'.sameAs e ∧ (v.issueRead l.length).setter = { v.setter with intake := l ++ [e'] } ∧
      (v.issueRead l.length).host = { v.host with outs := o } ∧ (v.issueRead l.length).mem.xram = v.mem.xram ∧
      (v.issueRead l.length).mem.banks = v.mem.banks ∧ v.Within [.host, .setter, .mem] (v.issueRead l.length) := by
  have hself : v.setter = { v.setter with intake := l ++ [e] } := by rw [← h]
  have hput : ∀ f : Entry, (l ++ [e]).set l.length f = l ++ [f] := fun f => by simp
  have hget : v.setter.intake[l.length]? = some e := by simp [h]
  rw [State.issueRead]
  simp only [hget]
  have hsame : ∀ d w, ({ e with data := d, wait := w } : Entry).sameAs e := fun _ _ => ⟨rfl, rfl, rfl, rfl, rfl⟩
  have hset : ∀ (u : State) (f : Entry), u.setter = v.setter →
      (u.withSetter fun x => { x with intake := x.intake.set l.length f }).setter = { v.setter with intake := l ++ [f] } := fun u f hu => by
    rw [State.withSetter_setter, hu, h, hput]
  split
  · exact ⟨e, v.host.outs, ⟨rfl, rfl, rfl, rfl, rfl⟩, hself, rfl, rfl, rfl, .refl _ v⟩
  · split
    · exact ⟨_, v.host.outs, hsame _ _, hset v _ rfl, rfl, rfl, rfl, (v.within_setter _).mono⟩
    · split
      · obtain ⟨m, hm, hxram, hbanks⟩ := v.xramRead_mem e.part (e.addr / 8 * 8 % 2 ^ 18) e.len
        simp only [hm]
        exact ⟨_, v.host.outs, hsame _ _, hset (v.withMem fun _ => m) _ rfl, rfl, hxram, hbanks,
          (v.within_mem fun _ => m).mono.trans (State.within_setter _ _).mono⟩
      · split
        · exact ⟨_, _, hsame _ _, hset v _ rfl, rfl, rfl, rfl, (v.within_setter _).mono.trans (State.within_host _ _).mono⟩
        · exact ⟨e, v.host.outs, ⟨rfl, rfl, rfl, rfl, rfl⟩, hself, rfl, rfl, rfl, .refl _ v⟩

/-! ### One fetch (R405, R406) -/

/-- R405: a partition of whose ring `r` an entry has been fetched. -/
def Part.fetched (q : Part) (r : Nat) : Part :=
  { q.setRing true r { q.ring true r with dev := ((q.ring true r).dev + 1) % (q.ring true r).size } with lastSq := r }

/-- R420: a partition with one completion more, if the session is still the entry's. -/
def Part.posted (q : Part) (session : Nat) (c : Compl) : Part := if q.session = session then { q with compl := q.compl ++ [c] } else q

/-- The 64 bytes that a fetch from ring `r` reads: of the Exchange RAM, or those that the host answers. -/
def State.entryBytes (s : State) (p r : Nat) (b : List Byte) : List Byte :=
  if spaceOf ((s.host.part p).ring true r).lo then
    (s.xramRead p (xramBase ((s.host.part p).ring true r).lo + 64 * ((s.host.part p).ring true r).dev) 64).2
  else b

/-- The fetch up to the entry: the read, and HEAD. -/
theorem State.fetch_eq {s : State} {p r : Nat} (hring : s.host.nextRing p = some r) (b : List Byte) :
    ∃ m : MemSys, m.xram = s.mem.xram ∧ m.banks = s.mem.banks ∧
      s.fetch p b = (let u := (s.withMem fun _ => m).withHost fun h => h.fetched p r
        let e := entryOf p r (s.host.part p) (s.entryBytes p r b)
        if opcodes.contains e.op then
          let v := u.withSetter fun x => { x with intake := x.intake ++ [e] }
          if e.op = 0x01 then v else v.issueRead (v.setter.intake.length - 1)
        else u.completeWith e 0x40) := by
  obtain ⟨m, hm, hxram, hbanks⟩ := s.xramRead_mem p (xramBase ((s.host.part p).ring true r).lo + 64 * ((s.host.part p).ring true r).dev) 64
  cases hspace : spaceOf ((s.host.part p).ring true r).lo
  · refine ⟨s.mem, rfl, rfl, ?_⟩
    have hat : (s.host.part p).entryAt r = (false, hostBase ((s.host.part p).ring true r).lo ((s.host.part p).ring true r).hi +
        64 * ((s.host.part p).ring true r).dev) := if_neg (by simp [hspace])
    have hbytes : s.entryBytes p r b = b := if_neg (by simp [hspace])
    rw [State.fetch, hbytes]
    simp only [hring, hat]
    rfl
  · refine ⟨m, hxram, hbanks, ?_⟩
    have hat : (s.host.part p).entryAt r = (true, xramBase ((s.host.part p).ring true r).lo + 64 * ((s.host.part p).ring true r).dev) :=
      if_pos hspace
    have hbytes : s.entryBytes p r b = _ := if_pos hspace
    rw [State.fetch, hbytes]
    simp only [hring, hat, if_true, hm]

theorem State.fetch_known {s : State} {p r : Nat} {b : List Byte} (hring : s.host.nextRing p = some r)
    (hop : opcodes.contains (le (s.entryBytes p r b) 0 1) = true) :
    ∃ e o, e.sameAs (entryOf p r (s.host.part p) (s.entryBytes p r b)) ∧ (s.fetch p b).setter = { s.setter with intake := s.setter.intake ++ [e] } ∧
      (s.fetch p b).host = { s.host.fetched p r with outs := o } ∧ (s.fetch p b).mem.xram = s.mem.xram ∧ (s.fetch p b).mem.banks = s.mem.banks ∧
      s.Within [.host, .setter, .mem] (s.fetch p b) := by
  obtain ⟨m, hxram, hbanks, heq⟩ := State.fetch_eq hring b
  have hknown : opcodes.contains (entryOf p r (s.host.part p) (s.entryBytes p r b)).op = true := hop
  rw [heq]
  dsimp only
  rw [if_pos hknown]
  generalize entryOf p r (s.host.part p) (s.entryBytes p r b) = e
  have hwithin : s.Within [.host, .setter, .mem]
      (((s.withMem fun _ => m).withHost fun h => h.fetched p r).withSetter fun x => { x with intake := x.intake ++ [e] }) :=
    ((s.within_mem _).mono.trans (State.within_host _ _).mono).trans (State.within_setter _ _).mono
  split
  · exact ⟨e, s.host.outs, ⟨rfl, rfl, rfl, rfl, rfl⟩, rfl, rfl, hxram, hbanks, hwithin⟩
  · obtain ⟨e', o, hsame, hsetter, hhost, hx, hb, hw⟩ := State.issueRead_last
      (v := ((s.withMem fun _ => m).withHost fun h => h.fetched p r).withSetter fun x => { x with intake := x.intake ++ [e] }) (l := s.setter.intake)
      (e := e) rfl
    have hlast : (((s.withMem fun _ => m).withHost fun h => h.fetched p r).withSetter fun x =>
        { x with intake := x.intake ++ [e] }).setter.intake.length - 1 = s.setter.intake.length := by
      rw [State.withSetter_setter]
      simp
    rw [hlast]
    exact ⟨e', o, hsame, hsetter, hhost, hx.trans hxram, hb.trans hbanks, hwithin.trans hw⟩

theorem State.fetch_unknown {s : State} {p r : Nat} {b : List Byte} (hring : s.host.nextRing p = some r)
    (hop : opcodes.contains (le (s.entryBytes p r b) 0 1) = false) :
    let e := entryOf p r (s.host.part p) (s.entryBytes p r b)
    (s.fetch p b).setter = s.setter ∧ (s.fetch p b).mem.xram = s.mem.xram ∧ (s.fetch p b).mem.banks = s.mem.banks ∧
      (∃ c : Compl, c.status = 0x40 ∧ c.sq = r ∧ c.cmdId = e.cmdId ∧ c.cq = e.cq ∧
        (s.fetch p b).host = (s.host.fetched p r).modPart p fun q => q.posted (s.host.part p).session c) ∧ s.Within [.host, .mem] (s.fetch p b) := by
  obtain ⟨m, hxram, hbanks, heq⟩ := State.fetch_eq hring b
  have hnot : ¬ (entryOf p r (s.host.part p) (s.entryBytes p r b)).op = 1 := by
    intro h
    have hle : le (s.entryBytes p r b) 0 1 = 1 := h
    rw [hle] at hop
    exact absurd hop (by decide)
  dsimp only
  rw [heq]
  dsimp only
  have hunknown : ¬ opcodes.contains (entryOf p r (s.host.part p) (s.entryBytes p r b)).op = true := Bool.eq_false_iff.mp hop
  rw [if_neg hunknown]
  refine ⟨rfl, hxram, hbanks,
    ⟨{ complOf (entryOf p r (s.host.part p) (s.entryBytes p r b)) 0x40 with epoch := (s.setter.part p).epoch }, rfl, rfl, rfl, rfl, ?_⟩, ((s.within_mem _).mono.trans (State.within_host _ _).mono).trans (State.within_host _ _).mono⟩
  rw [State.completeWith, State.complete]
  simp only [hnot, if_false]
  rfl

/-! ### The fetches of a cycle (R24) -/

/-- The turn of partition `k` among the fetches of a cycle. -/
def State.fetchTurn (s : State) (l : List (Nat × List Byte)) (k : Nat) : State :=
  match l.find? (·.1 == k) with
  | some x => if s.mayFetch k then s.fetch k x.2 else s
  | none => s

theorem State.fetchAll_turns (s : State) (l : List (Nat × List Byte)) : s.fetchAll l = [0, 1, 2, 3].foldl (fun u k => u.fetchTurn l k) s := rfl

theorem State.fetchTurn_absent {l : List (Nat × List Byte)} {k : Nat} (h : l.find? (·.1 == k) = none) (s : State) : s.fetchTurn l k = s := by
  rw [State.fetchTurn, h]

theorem State.fetchTurn_present {l : List (Nat × List Byte)} {k j : Nat} {b : List Byte} (h : l.find? (·.1 == k) = some (j, b)) {s : State}
    (hmay : s.mayFetch k = true) : s.fetchTurn l k = s.fetch k b := by
  rw [State.fetchTurn, h]
  exact if_pos hmay

theorem State.fetchAll_one {s : State} {p : Nat} (hp : p < 4) {b : List Byte} (hmay : s.mayFetch p = true) : s.fetchAll [(p, b)] = s.fetch p b := by
  have hown : [(p, b)].find? (·.1 == p) = some (p, b) := by simp
  have hother : ∀ k, k ≠ p → ∀ u : State, u.fetchTurn [(p, b)] k = u := fun k hk u => State.fetchTurn_absent (by simp [Ne.symm hk]) u
  rw [State.fetchAll_turns]
  obtain rfl | rfl | rfl | rfl : p = 0 ∨ p = 1 ∨ p = 2 ∨ p = 3 := by omega
  all_goals simp [hother, State.fetchTurn_present hown hmay]

/-- Of two fetches of a cycle the lower partition's comes first. -/
theorem State.fetchAll_two {s : State} {p q : Nat} (hpq : p < q) (hq : q < 4) {bp bq : List Byte} {l : List (Nat × List Byte)}
    (hfindp : l.find? (·.1 == p) = some (p, bp)) (hfindq : l.find? (·.1 == q) = some (q, bq))
    (hnone : ∀ k, k ≠ p → k ≠ q → l.find? (·.1 == k) = none) (hmay : s.mayFetch p = true) (hmay' : (s.fetch p bp).mayFetch q = true) :
    s.fetchAll l = (s.fetch p bp).fetch q bq := by
  have hturnp := State.fetchTurn_present hfindp hmay
  have hturnq := State.fetchTurn_present hfindq hmay'
  have hother : ∀ k, k ≠ p → k ≠ q → ∀ u : State, u.fetchTurn l k = u := fun k hkp hkq u => State.fetchTurn_absent (hnone k hkp hkq) u
  rw [State.fetchAll_turns]
  have hcases : (p = 0 ∧ q = 1) ∨ (p = 0 ∧ q = 2) ∨ (p = 0 ∧ q = 3) ∨ (p = 1 ∧ q = 2) ∨ (p = 1 ∧ q = 3) ∨ (p = 2 ∧ q = 3) := by omega
  obtain ⟨rfl, rfl⟩ | ⟨rfl, rfl⟩ | ⟨rfl, rfl⟩ | ⟨rfl, rfl⟩ | ⟨rfl, rfl⟩ | ⟨rfl, rfl⟩ := hcases
  all_goals simp [hother, hturnp, hturnq]

theorem HostSys.nextRing_congr {h h' : HostSys} {q : Nat} (hpart : h'.part q = h.part q) (hpcie : h'.pcie = h.pcie) :
    h'.nextRing q = h.nextRing q := by
  simp only [HostSys.nextRing, HostSys.reach, hpart, hpcie]

theorem HostSys.part_outs (h : HostSys) (o : List Out) (q : Nat) : ({ h with outs := o } : HostSys).part q = h.part q := rfl

theorem HostSys.fetched_part_other (h : HostSys) {p q : Nat} (hq : q ≠ p) (r : Nat) : (h.fetched p r).part q = h.part q :=
  HostSys.part_modPart_other h _ hq

theorem HostSys.fetched_part_same {h : HostSys} (hwf : Memory.wf (fun _ => Part.reset) h.parts = true) (p r : Nat) :
    (h.fetched p r).part p = (h.part p).fetched r :=
  HostSys.part_modPart_same h p _ hwf

/-- A fetch of one partition leaves those of the others as they were. -/
theorem State.mayFetch_after {s : State} {p q r : Nat} {b : List Byte} (hring : s.host.nextRing p = some r)
    (hop : opcodes.contains (le (s.entryBytes p r b) 0 1) = true) (hq : q ≠ p) :
    (s.fetch p b).mayFetch q = s.mayFetch q ∧ (s.fetch p b).host.part q = s.host.part q ∧
      (s.fetch p b).host.nextRing q = s.host.nextRing q := by
  obtain ⟨e, o, hsame, hsetter, hhost, -⟩ := State.fetch_known hring hop
  obtain ⟨hpart, -⟩ := hsame
  have hepart : e.part = p := hpart
  have hp : (s.fetch p b).host.part q = s.host.part q := by
    rw [hhost]
    exact s.host.fetched_part_other hq r
  have hnext : (s.fetch p b).host.nextRing q = s.host.nextRing q := HostSys.nextRing_congr hp (by rw [hhost]; rfl)
  refine ⟨?_, hp, hnext⟩
  rw [State.mayFetch, State.mayFetch, State.fetchPaused, State.fetchPaused, hnext, hp, hsetter]
  simp [List.filter_append, hepart, Ne.symm hq]

theorem exec_entryFetched {s : State} {p : Nat} {b : List Byte} {tie : List (Nat × List Byte)}
    (hwf : (Instr.entryFetched p b tie).wf = true) (hup : s.dmaUp = true) (hmay : s.mayFetch p = true) :
    exec (.entryFetched p b tie) s = .next (s.fetchAll ((p, b) :: tie)).settle := done_on hwf (by simp [hup, hmay])

theorem State.mayFetch_of {s : State} {p r : Nat} (hpaused : s.fetchPaused p = false) (hring : s.host.nextRing p = some r) : s.mayFetch p = true := by
  simp [State.mayFetch, hpaused, hring]

theorem completes_entryFetched {s : State} {p r : Nat} {b0 : List Byte} (hwf : s.unitsWf = true)
    (hsq : Memory.wf (fun _ => Ring.reset) (s.host.part p).sq = true) (hp : p < 4) (hlen : b0.length = 64) (hup : s.dmaUp = true)
    (hpaused : s.fetchPaused p = false) (hring : s.host.nextRing p = some r) :
    Completes (.entryFetched p b0 []) s [.host, .setter, .mem, .reports, .out] fun t =>
      t.mem.xram = s.mem.xram ∧ t.mem.banks = s.mem.banks ∧ (∀ q, q ≠ p → t.host.part q = s.host.part q) ∧
      (t.host.part p).ring true r =
        { (s.host.part p).ring true r with dev := (((s.host.part p).ring true r).dev + 1) % ((s.host.part p).ring true r).size } ∧
      (t.host.part p).lastSq = r ∧
      (opcodes.contains (le (s.entryBytes p r b0) 0 1) = true → (t.host.part p).compl = (s.host.part p).compl ∧
        ∃ e : Entry, t.setter = { s.setter with intake := s.setter.intake ++ [e] } ∧ e.part = p ∧ e.sq = r ∧ e.op = le (s.entryBytes p r b0) 0 1 ∧
          e.cmdId = le (s.entryBytes p r b0) 2 2 ∧ e.session = (s.host.part p).session) ∧
      (opcodes.contains (le (s.entryBytes p r b0) 0 1) = false → t.setter = s.setter ∧
        ∃ c : Compl, (t.host.part p).compl = (s.host.part p).compl ++ [c] ∧ c.status = 0x40 ∧ c.sq = r ∧ c.cmdId = le (s.entryBytes p r b0) 2 2 ∧
          c.cq = ((s.host.part p).ring true r).cfg.fld 8 3) := by
  have hmay := State.mayFetch_of hpaused hring
  have hexec := exec_entryFetched (s := s) (p := p) (b := b0) (tie := []) (by simp [Instr.wf, hp, hlen]) hup hmay
  rw [State.fetchAll_one hp hmay] at hexec
  have hparts := State.unitsWf_parts hwf
  have hfetched := HostSys.fetched_part_same hparts p r
  have hringset := Part.ring_setRing (q := s.host.part p) (sq := true) hsq r r
    { (s.host.part p).ring true r with dev := (((s.host.part p).ring true r).dev + 1) % ((s.host.part p).ring true r).size }
  rw [if_pos rfl] at hringset
  cases hop : opcodes.contains (le (s.entryBytes p r b0) 0 1)
  · obtain ⟨hsetter, hxram, hbanks, ⟨c, hstatus, hcsq, hcmd, hcq, hhost⟩, hwithin⟩ := State.fetch_unknown hring hop
    have hpart : (s.fetch p b0).host.part p = { (s.host.part p).fetched r with compl := (s.host.part p).compl ++ [c] } := by
      rw [hhost, HostSys.part_modPart_same _ p _ (Memory.wf_set _ _ _ _ hparts), hfetched]
      exact if_pos rfl
    refine ⟨_, hexec, ⟨hxram, hbanks, fun q hq => ?_, (congrArg (fun q => Part.ring q true r) hpart :).trans hringset, (congrArg Part.lastSq hpart :),
      fun h => absurd h (by decide), fun _ => ⟨hsetter, c, (congrArg Part.compl hpart :), hstatus, hcsq, hcmd, hcq⟩⟩, hwithin.mono.settle_open⟩
    have hother : (s.fetch p b0).host.part q = s.host.part q := by
      rw [hhost]
      exact (HostSys.part_modPart_other _ _ hq).trans (s.host.fetched_part_other hq r)
    exact hother
  · obtain ⟨e, o, hsame, hsetter, hhost, hxram, hbanks, hwithin⟩ := State.fetch_known hring hop
    obtain ⟨hepart, hesq, heop, hecmd, hesession⟩ := hsame
    have hpart : (s.fetch p b0).host.part p = (s.host.part p).fetched r := by
      rw [hhost]
      exact hfetched
    refine ⟨_, hexec, ⟨hxram, hbanks, fun q hq => ?_, (congrArg (fun q => Part.ring q true r) hpart :).trans hringset, (congrArg Part.lastSq hpart :),
      fun _ => ⟨(congrArg Part.compl hpart :), e, hsetter, hepart, hesq, heop, hecmd, hesession⟩, fun h => absurd h (by decide)⟩,
      hwithin.mono.settle_open⟩
    have hother : (s.fetch p b0).host.part q = s.host.part q := by
      rw [hhost]
      exact s.host.fetched_part_other hq r
    exact hother

theorem exec_entryFetched_tie {s : State} {p q : Nat} {bp bq : List Byte} (hpq : p < q) (hq : q < 4) (hlenp : bp.length = 64) (hlenq : bq.length = 64)
    (hup : s.dmaUp = true) (hmayp : s.mayFetch p = true) (hmayq : s.mayFetch q = true)
    (hspace : ∀ k r, k = p ∨ k = q → s.host.nextRing k = some r → spaceOf ((s.host.part k).ring true r).lo = false)
    (hopp : opcodes.contains (le bp 0 1) = true) (hopq : opcodes.contains (le bq 0 1) = true) :
    ∃ t, exec (.entryFetched p bp [(q, bq)]) s = .next t ∧ exec (.entryFetched q bq [(p, bp)]) s = .next t ∧
      t.setter.intake.map (·.part) = s.setter.intake.map (·.part) ++ [p, q] := by
  have hring : ∀ k, s.mayFetch k = true → ∃ r, s.host.nextRing k = some r := fun k hk => by
    simp only [State.mayFetch, Bool.and_eq_true] at hk
    exact Option.isSome_iff_exists.mp hk.2
  obtain ⟨rp, hringp⟩ := hring p hmayp
  obtain ⟨rq, hringq⟩ := hring q hmayq
  have hbytesp : s.entryBytes p rp bp = bp := if_neg (by simp [hspace p rp (.inl rfl) hringp])
  have hknownp : opcodes.contains (le (s.entryBytes p rp bp) 0 1) = true := by rw [hbytesp]; exact hopp
  obtain ⟨hmay', hpart', hnext'⟩ := State.mayFetch_after hringp hknownp (show q ≠ p by omega)
  have hbytesq : (s.fetch p bp).entryBytes q rq bq = bq := if_neg (by rw [hpart']; simp [hspace q rq (.inr rfl) hringq])
  obtain ⟨ep, op, hsamep, hsetterp, -⟩ := State.fetch_known hringp hknownp
  obtain ⟨eq, oq, hsameq, hsetterq, -⟩ := State.fetch_known (s := s.fetch p bp) (b := bq) (hnext'.trans hringq) (by rw [hbytesq]; exact hopq)
  have hne : q ≠ p := by omega
  have hone : s.fetchAll [(p, bp), (q, bq)] = (s.fetch p bp).fetch q bq :=
    State.fetchAll_two hpq hq (by simp) (by simp [hne.symm]) (fun k hkp hkq => by simp [hkp.symm, hkq.symm]) hmayp (hmay'.trans hmayq)
  have htwo : s.fetchAll [(q, bq), (p, bp)] = (s.fetch p bp).fetch q bq :=
    State.fetchAll_two hpq hq (by simp [hne]) (by simp) (fun k hkp hkq => by simp [hkp.symm, hkq.symm]) hmayp (hmay'.trans hmayq)
  have hintake : ((s.fetch p bp).fetch q bq).settle.setter.intake = s.setter.intake ++ [ep] ++ [eq] := by
    rw [State.settle_setter, hsetterq, hsetterp]
  refine ⟨((s.fetch p bp).fetch q bq).settle, ?_, ?_, ?_⟩
  · rw [exec_entryFetched (by simp [Instr.wf, hlenp, hlenq, hne.symm]; omega) hup hmayp, hone]
  · rw [exec_entryFetched (by simp [Instr.wf, hlenp, hlenq, hne]; omega) hup hmayq, htwo]
  · have hpp : ep.part = p := hsamep.1
    have hqq : eq.part = q := hsameq.1
    rw [hintake]
    simp [hpp, hqq]

end Sys2Proof.Machine

/-!
SUPPORT. What the device sends to a host interface: writes, interrupts and messages (R409 to R412), and the writes into the Exchange RAM.
-/

namespace Sys2Proof.Machine

/-! ### Signals to one partition's interface -/

/-- Partition `p` has sent or held writes and messages, or raised interrupts; nothing else of the host block changed. -/
structure HostSys.Signals (p : Nat) (h h' : HostSys) : Prop where
  wf : Memory.wf (fun _ => Part.reset) h'.parts = true
  rep : h'.rep = h.rep
  pcie : h'.pcie = h.pcie
  other : ∀ q, q ≠ p → h'.part q = h.part q
  part : ∃ b w x, h'.part p = { h.part p with pba := b, waits := w, irqStat := x }
  irq : ∀ b, (h.part p).irqStat.flag b = true → (h'.part p).irqStat.flag b = true
  outs : ∃ l, h'.outs = h.outs ++ l

namespace HostSys.Signals

variable {p : Nat} {h h' h'' : HostSys}

theorem refl (hwf : Memory.wf (fun _ => Part.reset) h.parts = true) (p : Nat) : h.Signals p h :=
  ⟨hwf, rfl, rfl, fun _ _ => rfl, ⟨_, _, _, rfl⟩, fun _ h => h, [], (List.append_nil _).symm⟩

theorem trans (a : h.Signals p h') (b : h'.Signals p h'') : h.Signals p h'' := by
  obtain ⟨b1, w1, x1, hpart1⟩ := a.part
  obtain ⟨b2, w2, x2, hpart2⟩ := b.part
  obtain ⟨l1, hl1⟩ := a.outs
  obtain ⟨l2, hl2⟩ := b.outs
  exact ⟨b.wf, b.rep.trans a.rep, b.pcie.trans a.pcie, fun q hq => (b.other q hq).trans (a.other q hq), ⟨b2, w2, x2, by rw [hpart2, hpart1]⟩,
    fun i hi => b.irq i (a.irq i hi), l1 ++ l2, by rw [hl2, hl1, List.append_assoc]⟩

theorem emit (hwf : Memory.wf (fun _ => Part.reset) h.parts = true) (p : Nat) (o : Out) : h.Signals p (h.emit o) :=
  ⟨hwf, rfl, rfl, fun _ _ => rfl, ⟨_, _, _, rfl⟩, fun _ h => h, [o], rfl⟩

theorem setPart (hwf : Memory.wf (fun _ => Part.reset) h.parts = true) {q : Part} (hq : ∃ b w x, q = { h.part p with pba := b, waits := w, irqStat := x })
    (hirq : ∀ b, (h.part p).irqStat.flag b = true → q.irqStat.flag b = true) : h.Signals p (h.setPart p q) := by
  have hsame : (h.setPart p q).part p = q := Memory.get_set_same _ _ _ _ hwf
  refine ⟨Memory.wf_set _ _ _ _ hwf, rfl, rfl, fun r hr => Memory.get_set_other _ _ _ _ _ hr, ?_, fun b hb => ?_, [], (List.append_nil _).symm⟩
  · rw [hsame]
    exact hq
  · rw [hsame]
    exact hirq b hb

theorem send (hwf : Memory.wf (fun _ => Part.reset) h.parts = true) (p : Nat) (o : Out) : h.Signals p (h.send p o) := by
  rw [HostSys.send]
  split
  · exact emit hwf p o
  · exact setPart hwf ⟨_, _, _, rfl⟩ fun _ hb => hb

theorem msi (hwf : Memory.wf (fun _ => Part.reset) h.parts = true) (p v : Nat) : h.Signals p (h.msi p v) := by
  rw [HostSys.msi]
  dsimp only
  split
  · exact refl hwf p
  · split
    · exact setPart hwf ⟨_, _, _, rfl⟩ fun _ hb => hb
    · exact send hwf p _

theorem raise (hwf : Memory.wf (fun _ => Part.reset) h.parts = true) (p b : Nat) : h.Signals p (h.irq p b) :=
  setPart hwf ⟨_, _, _, rfl⟩ fun i hi => by
    rw [Word.testBit_toNat_or, hi, Bool.true_or]

theorem put (hwf : Memory.wf (fun _ => Part.reset) h.parts = true) (p : Nat) (lo hi : Word) (off : Nat) (bs : List Byte) :
    h.Signals p (h.put p lo hi off bs).1 := by
  rw [HostSys.put]
  split
  · exact refl hwf p
  · exact send hwf p _

end HostSys.Signals

theorem HostSys.send_reached {h : HostSys} {p : Nat} (hbme : h.pcie.bme.testBit p = true) (o : Out) : h.send p o = h.emit o := if_pos hbme

theorem HostSys.irq_flag {h : HostSys} (hwf : Memory.wf (fun _ => Part.reset) h.parts = true) (p : Nat) {b : Nat} (hb : b < 32) :
    ((h.irq p b).part p).irqStat.flag b = true := by
  have hsame : (h.irq p b).part p = _ := HostSys.part_modPart_same h p _ hwf
  rw [hsame]
  exact Word.or_one_flag _ hb

/-! ### Writes into the Exchange RAM -/

theorem MemSys.putBytes_rep (m : MemSys) (a : Nat) (bs : List Byte) (k : Nat) : (m.putBytes a bs k).rep = m.rep := rfl

theorem State.putXram_rep (s : State) (ws : List (Nat × List Byte)) : (s.putXram ws).mem.rep = s.mem.rep := by
  rw [State.putXram, State.withMem_mem]
  refine foldl_keeps MemSys.rep _ (fun m w => ?_) ws s.mem
  exact foldl_keeps MemSys.rep _ (fun m k => m.putBytes_rep w.1 w.2 (w.1 / 4 + k)) _ m

theorem State.hostPut_within (s : State) (f : HostSys → HostSys × List (Nat × List Byte)) : s.Within [.host, .mem] (s.hostPut f) :=
  (s.within_host fun _ => (f s.host).1).mono.trans (State.within_mem _ _).mono

theorem State.hostPut_unitReports {s : State} {f : HostSys → HostSys × List (Nat × List Byte)} (hrep : (f s.host).1.rep = s.host.rep) :
    (s.hostPut f).unitReports = s.unitReports := by
  have hmem : (s.hostPut f).mem.rep = s.mem.rep := State.putXram_rep _ _
  have hhost : (s.hostPut f).host.rep = s.host.rep := hrep
  rw [State.unitReports, hmem, hhost]
  rfl

/-- A host-block operation that makes no report. -/
theorem completes_hostPut {i : Instr} {s : State} {f : HostSys → HostSys × List (Nat × List Byte)} (hexec : exec i s = .next (s.hostPut f).settle)
    (hrep : (f s.host).1.rep = s.host.rep) : Completes i s [.host, .mem, .out] fun t => t = (s.hostPut f).settle :=
  ⟨_, hexec, rfl, (s.hostPut_within f).mono.settle (fun _ => State.hostPut_unitReports hrep) fun h => absurd (by decide) h⟩

/-- The outputs of a quiet state that sends no frame are those of the host block. -/
theorem State.settle_out_host {s t : State} (hq : s.quiet = true) (hnet : t.net = s.net) : t.settle.out = t.host.outs := by
  obtain ⟨-, hsent⟩ := State.quiet_outs hq
  rw [State.settle_out, hnet, hsent]
  simp

/-! ### Completions (R409 to R411) -/

/-- R409: a completion ring with one entry more, written at uptime `now`. -/
def Ring.advanced (g : Ring) (now : Nat) : Ring :=
  { g with dev := (g.dev + 1) % g.size, phase := if (g.dev + 1) % g.size = 0 then !g.phase else g.phase
           since := g.since ++ [if g.cfg.fld 16 8 = 0 then none else some now] }

/-- R409: a completion that can be written. -/
def HostSys.writable (h : HostSys) (p : Nat) (c : Compl) : Bool :=
  ((h.part p).ring false c.cq).room && h.reach p ((h.part p).ring false c.cq).lo

/-- The partition after completion `c` has been written. -/
def Part.written (q : Part) (c : Compl) (now : Nat) : Part :=
  { q.setRing false c.cq ((q.ring false c.cq).advanced now) with compl := q.compl.erase c }

/-- The submission head that a completion carries. -/
def Part.headFor (q : Part) (c : Compl) : Nat := if c.sq < 8 then (q.ring true c.sq).dev else 0

theorem HostSys.writeCompl_none {h : HostSys} {p : Nat} (hnone : (h.part p).compl.find? (h.writable p) = none) (now : Nat) :
    h.writeCompl p now = (h, []) := by
  have hfind : ((h.part p).compl.find? fun c => let g := (h.part p).ring false c.cq; g.room && h.reach p g.lo) = none := hnone
  rw [HostSys.writeCompl]
  simp only [hfind]

theorem HostSys.writeCompl_some {h : HostSys} {p : Nat} {c : Compl} (hsome : (h.part p).compl.find? (h.writable p) = some c) (now : Nat) :
    let g := (h.part p).ring false c.cq
    let h1 := h.setPart p ((h.part p).written c now)
    let h3 := (h1.put p g.lo g.hi (64 * g.dev) (c.bytes g.phase ((h.part p).headFor c))).1.irq p c.cq
    ∃ due : Bool, (h.writeCompl p now).1 = if due then h3.msi p (g.cfg.fld 24 6) else h3 := by
  have hfind : ((h.part p).compl.find? fun c => let g := (h.part p).ring false c.cq; g.room && h.reach p g.lo) = some c := hsome
  dsimp only
  rw [HostSys.writeCompl]
  simp only [hfind]
  exact ⟨_, rfl⟩

/-- What the write of a completion leaves of the host block. -/
theorem HostSys.writeCompl_becomes {h : HostSys} {p : Nat} {c : Compl} (hwf : Memory.wf (fun _ => Part.reset) h.parts = true)
    (hsome : (h.part p).compl.find? (h.writable p) = some c) (now : Nat) :
    let g := (h.part p).ring false c.cq
    let h' := (h.writeCompl p now).1
    h'.rep = h.rep ∧ (∀ q, q ≠ p → h'.part q = h.part q) ∧ (∃ b w x, h'.part p = { (h.part p).written c now with pba := b, waits := w, irqStat := x }) ∧
      (c.cq < 32 → (h'.part p).irqStat.flag c.cq = true) ∧
      (spaceOf g.lo = false → ∃ l, h'.outs = h.outs ++ .busWrite p (hostBase g.lo g.hi + 64 * g.dev) (c.bytes g.phase ((h.part p).headFor c)) :: l) := by
  obtain ⟨due, heq⟩ := HostSys.writeCompl_some hsome now
  have hwf1 : Memory.wf (fun _ => Part.reset) (h.setPart p ((h.part p).written c now)).parts = true := Memory.wf_set _ _ _ _ hwf
  have hpart1 : (h.setPart p ((h.part p).written c now)).part p = (h.part p).written c now := Memory.get_set_same _ _ _ _ hwf
  have hother1 : ∀ q, q ≠ p → (h.setPart p ((h.part p).written c now)).part q = h.part q := fun q hq => Memory.get_set_other _ _ _ _ _ hq
  have hput := HostSys.Signals.put hwf1 p ((h.part p).ring false c.cq).lo ((h.part p).ring false c.cq).hi (64 * ((h.part p).ring false c.cq).dev)
    (c.bytes ((h.part p).ring false c.cq).phase ((h.part p).headFor c))
  have hirq := HostSys.Signals.raise hput.wf p c.cq
  have hflag := fun hcq : c.cq < 32 => HostSys.irq_flag hput.wf p hcq
  dsimp only
  rw [heq]
  generalize hh2 : (HostSys.put (h.setPart p ((h.part p).written c now)) p ((h.part p).ring false c.cq).lo ((h.part p).ring false c.cq).hi
    (64 * ((h.part p).ring false c.cq).dev) (c.bytes ((h.part p).ring false c.cq).phase ((h.part p).headFor c))).1 = h2 at hput hirq hflag ⊢
  have hlast : (h2.irq p c.cq).Signals p (if due = true then (h2.irq p c.cq).msi p (((h.part p).ring false c.cq).cfg.fld 24 6) else h2.irq p c.cq) := by
    split
    · exact .msi hirq.wf p _
    · exact .refl hirq.wf p
  generalize (if due = true then (h2.irq p c.cq).msi p (((h.part p).ring false c.cq).cfg.fld 24 6) else h2.irq p c.cq) = h4 at hlast ⊢
  have hall := hput.trans (hirq.trans hlast)
  refine ⟨hall.rep, fun q hq => (hall.other q hq).trans (hother1 q hq), hpart1 ▸ hall.part, fun hcq => hlast.irq _ (hflag hcq), fun hspace => ?_⟩
  have hbme : h.pcie.bme.testBit p = true := by
    have hreach := List.find?_some hsome
    simp only [HostSys.writable, HostSys.reach, hspace, Bool.and_eq_true, Bool.false_or] at hreach
    exact hreach.2
  have hsent : h2.outs = h.outs ++ [.busWrite p (hostBase ((h.part p).ring false c.cq).lo ((h.part p).ring false c.cq).hi +
      64 * ((h.part p).ring false c.cq).dev) (c.bytes ((h.part p).ring false c.cq).phase ((h.part p).headFor c))] := by
    have hbme1 : (h.setPart p ((h.part p).written c now)).pcie.bme.testBit p = true := hbme
    rw [← hh2, HostSys.put, if_neg (by simp [hspace]), HostSys.send_reached hbme1]
    rfl
  obtain ⟨l, hl⟩ := (hirq.trans hlast).outs
  exact ⟨l, by rw [hl, hsent, List.append_assoc]; rfl⟩

theorem Part.written_ring {q : Part} (hcq : Memory.wf (fun _ => Ring.reset) q.cq = true) (c : Compl) (now : Nat) :
    (q.written c now).ring false c.cq = (q.ring false c.cq).advanced now :=
  (Part.ring_setRing (q := q) (sq := false) hcq c.cq c.cq _).trans (if_pos rfl)

theorem completes_completionWrite {s : State} {p : Nat} (hwf : s.unitsWf = true) (hcq : Memory.wf (fun _ => Ring.reset) (s.host.part p).cq = true)
    (hquiet : s.quiet = true) (hp : p < 4) (hup : s.dmaUp = true) :
    Completes (.completionWrite p) s [.host, .mem, .out] fun t =>
      ((s.host.part p).compl.find? (s.host.writable p) = none → t.host = s.settle.host ∧ t.out = []) ∧
      (∀ c, (s.host.part p).compl.find? (s.host.writable p) = some c → c.cq < 8 → let g := (s.host.part p).ring false c.cq
        (∀ q, q ≠ p → t.host.part q = s.host.part q) ∧ (t.host.part p).compl = (s.host.part p).compl.erase c ∧
        (t.host.part p).irqStat.flag c.cq = true ∧ ((t.host.part p).ring false c.cq).dev = (g.dev + 1) % g.size ∧
        ((t.host.part p).ring false c.cq).phase = (if (g.dev + 1) % g.size = 0 then !g.phase else g.phase) ∧
        (spaceOf g.lo = false → ∃ l, t.out = .busWrite p (hostBase g.lo g.hi + 64 * g.dev) (c.bytes g.phase ((s.host.part p).headFor c)) :: l)) := by
  have hparts := State.unitsWf_parts hwf
  have hexec : exec (.completionWrite p) s = .next (s.hostPut fun h => h.writeCompl p s.us).settle := done_on (by simpa [Instr.wf] using hp) hup
  obtain ⟨houts, -⟩ := State.quiet_outs hquiet
  have hout : (s.hostPut fun h => h.writeCompl p s.us).settle.out = (s.host.writeCompl p s.us).1.outs := State.settle_out_host hquiet rfl
  have hrep : (s.host.writeCompl p s.us).1.rep = s.host.rep := by
    cases hfind : (s.host.part p).compl.find? (s.host.writable p) with
    | none => rw [HostSys.writeCompl_none hfind]
    | some c => exact (HostSys.writeCompl_becomes hparts hfind s.us).1
  obtain ⟨t, hnext, rfl, honly⟩ := completes_hostPut hexec hrep
  refine ⟨_, hnext, ⟨fun hnone => ?_, fun c hsome hcqlt => ?_⟩, honly⟩
  · have hsame : (s.host.writeCompl p s.us).1 = s.host := by rw [HostSys.writeCompl_none hnone]
    exact ⟨congrArg (fun h : HostSys => { h with rep := [], outs := [] }) hsame, hout.trans (by rw [hsame, houts])⟩
  · obtain ⟨-, hother, ⟨b, w, x, hpart⟩, hflag, hwrite⟩ := HostSys.writeCompl_becomes hparts hsome s.us
    have hring : ((s.host.writeCompl p s.us).1.part p).ring false c.cq = ((s.host.part p).ring false c.cq).advanced s.us := by
      rw [hpart]
      exact Part.written_ring hcq c s.us
    refine ⟨hother, (congrArg Part.compl hpart :), hflag (by omega), (congrArg Ring.dev hring :), (congrArg Ring.phase hring :), fun hspace => ?_⟩
    obtain ⟨l, hl⟩ := hwrite hspace
    exact ⟨l, hout.trans (hl.trans (by rw [houts]; rfl))⟩

/-! ### Coalescing (R411) -/

/-- R411: the message of a vector that is not masked, to a PCIe holder whose Bus Master Enable is 1. -/
theorem HostSys.msi_sent {h : HostSys} {p v : Nat} {q : Part} (hpart : h.part p = q) (hholder : q.holder = some 0)
    (hbme : h.pcie.bme.testBit p = true) (hmask : (Memory.get msixReset q.msix (4 * v + 3)).flag 0 = false) :
    h.msi p v = h.emit (.msix p ((Memory.get msixReset q.msix (4 * v + 1)).toNat <<< 32 + (Memory.get msixReset q.msix (4 * v + 0)).toNat)
      (Memory.get msixReset q.msix (4 * v + 2))) := by
  rw [HostSys.msi, hpart]
  dsimp only
  rw [if_neg (by simp [hholder]), if_neg (by simp [hmask]), HostSys.send_reached hbme]

theorem completes_coalesce {s : State} {p n t0 : Nat} {rest : List (Option Nat)} (hwf : s.unitsWf = true)
    (hcq : Memory.wf (fun _ => Ring.reset) (s.host.part p).cq = true) (hquiet : s.quiet = true) (hp : p < 4) (hn : n < 8) (hup : s.dmaUp = true)
    (hen : ((s.host.part p).ring false n).en = true) (hsince : ((s.host.part p).ring false n).since = some t0 :: rest)
    (hdue : t0 + ((s.host.part p).ring false n).cfg.fld 16 8 ≤ s.us) :
    Completes (.interruptCoalesceTimeout p n) s [.host, .out] fun t => (∀ q, q ≠ p → t.host.part q = s.host.part q) ∧
      (t.host.part p).ring false n = { (s.host.part p).ring false n with since := none :: rest } ∧
      (let g := (s.host.part p).ring false n
       let w := fun k : Nat => Memory.get msixReset (s.host.part p).msix (4 * g.cfg.fld 24 6 + k)
       (s.host.part p).holder = some 0 → s.host.pcie.bme.testBit p = true → (w 3).flag 0 = false →
         t.out = [.msix p ((w 1).toNat <<< 32 + (w 0).toNat) (w 2)]) := by
  have hparts := State.unitsWf_parts hwf
  have hexec : exec (.interruptCoalesceTimeout p n) s = .next (s.withHost fun h => h.coalesce p n s.us).settle :=
    done_on (by simp [Instr.wf, hp, hn]) hup
  let g := (s.host.part p).ring false n
  let h1 := s.host.modPart p fun q => q.setRing false n { g with since := none :: rest }
  have hcoalesce : s.host.coalesce p n s.us = h1.msi p (g.cfg.fld 24 6) := by
    rw [HostSys.coalesce]
    simp only [hsince]
    exact if_pos (by simp [hen, hdue])
  have hwf1 : Memory.wf (fun _ => Part.reset) h1.parts = true := Memory.wf_set _ _ _ _ hparts
  have hpart1 : h1.part p = (s.host.part p).setRing false n { g with since := none :: rest } := s.host.part_modPart_same p _ hparts
  have hsignals := HostSys.Signals.msi hwf1 p (g.cfg.fld 24 6)
  obtain ⟨b, w, x, hpart⟩ := hsignals.part
  have hpartAll : (s.host.coalesce p n s.us).part p = _ := (congrArg (fun h => HostSys.part h p) hcoalesce).trans (hpart.trans (by rw [hpart1]))
  refine ⟨_, hexec, ⟨fun q hq => ?_, ?_, fun hholder hbme hmask => ?_⟩, (s.within_host _).mono.settle
    (fun _ => State.unitReports_withHost s _ ?_) fun h => absurd (by decide) h⟩
  · exact (congrArg (fun h => HostSys.part h q) hcoalesce).trans ((hsignals.other q hq).trans (s.host.part_modPart_other _ hq))
  · exact (congrArg (fun q => Part.ring q false n) hpartAll :).trans ((Part.ring_setRing (q := s.host.part p) (sq := false) hcq n n _).trans (if_pos rfl))
  · obtain ⟨houts, -⟩ := State.quiet_outs hquiet
    have hout : (s.withHost fun h => h.coalesce p n s.us).settle.out = (s.host.coalesce p n s.us).outs := State.settle_out_host hquiet rfl
    rw [hout, hcoalesce, HostSys.msi_sent hpart1 hholder hbme hmask]
    exact congrArg (· ++ [_]) houts
  · rw [hcoalesce]
    exact hsignals.rep

end Sys2Proof.Machine

/-!
The obligation on the rings and taps of a partition (R404 to R413, R419, R463).
-/

namespace Sys2Proof.Machine

theorem Part.writeRingCfg_ring {q : Part} (hsq : Memory.wf (fun _ => Ring.reset) q.sq = true) (hcq : Memory.wf (fun _ => Ring.reset) q.cq = true) {k : Nat}
    (hk : k < 3) (n : Nat) (v : Word) (iface : Nat) :
    (q.writeRingCfg k (if k = 2 then 0 else n) v iface).ringOf k n = (q.ringOf k n).configured k v iface := by
  rw [Part.writeRingCfg_eq q hk]
  obtain rfl | rfl | rfl : k = 0 ∨ k = 1 ∨ k = 2 := by omega
  · exact (Part.ring_setRing (q := q) (sq := true) hsq n n _).trans (if_pos rfl)
  · exact (Part.ring_setRing (q := q) (sq := false) hcq n n _).trans (if_pos rfl)
  · rfl

/-- Settles O49: each clause is what one command leaves of the partition that it names. -/
theorem ringCommands : Obligations.RingCommands := by
  unfold Obligations.RingCommands
  dsimp only
  refine ⟨fun s r p n v hwf hsq hr hn hv hserved hphase hview hholds => ?_, fun s r p n v hwf hcq hr hn hv hw hview hholds => ?_,
    fun s r p v hwf hr hv hw hview hholds => ?_, fun s r p k n v hwf hsq hcq hr hk hn hw hview hholds => ?_,
    fun s r k v hwf htaps hr hk hw hholds => ?_, fun s p r b0 hwf hsq hp hlen hup hpaused hring =>
      completes_entryFetched hwf hsq hp hlen hup hpaused hring,
    fun s p q bp bq hwf hpq hq hlenp hlenq hup hmayp hmayq hspace hopp hopq =>
      exec_entryFetched_tie hpq hq hlenp hlenq hup hmayp hmayq hspace hopp hopq,
    fun s p hwf hcq hquiet hp hup => completes_completionWrite hwf hcq hquiet hp hup,
    fun s p n t0 rest hwf hcq hquiet hp hn hup hen hsince hdue => completes_coalesce hwf hcq hquiet hp hn hup hen hsince hdue⟩
  · obtain ⟨t, hnext, ⟨hpower, hpart, hother⟩, honly⟩ := completes_sqDoorbell hwf hr hn hv hserved hphase hview hholds
    obtain ⟨hrings, hin, hover⟩ := Part.doorbell_sq hsq hn v
    rw [← hpart] at hrings hin hover
    exact ⟨t, hnext, ⟨hother, hpower, hrings, hin, hover⟩, honly⟩
  · obtain ⟨t, hnext, ⟨hpart, hother⟩, honly⟩ := completes_cqDoorbell hwf hr hn hv hw hview hholds
    obtain ⟨hrings, hin, hover⟩ := Part.doorbell_cq hcq hn v
    rw [← hpart] at hrings hin hover
    exact ⟨t, hnext, ⟨hother, hrings, hin, hover⟩, honly⟩
  · obtain ⟨t, hnext, ⟨hpart, hother⟩, honly⟩ := completes_frDoorbell hwf hr hv hw hview hholds
    obtain ⟨hin, hover⟩ := (s.host.part p).doorbell_fr v
    rw [← hpart] at hin hover
    exact ⟨t, hnext, ⟨hother, hin, hover⟩, honly⟩
  · obtain ⟨t, hnext, ⟨hpart, hother⟩, honly⟩ := completes_ringEnWrite hwf hr hk hn hw hview hholds
    have hcfg := Part.writeRingCfg_ring hsq hcq hk n v (ifaceOf r)
    rw [← hpart] at hcfg
    obtain ⟨hlo, hhi⟩ := ((s.host.part p).ringOf k n).configured_base k v (ifaceOf r)
    have hon := fun hen hv hmin hmax hspace =>
      Ring.configured_enabled (g := (s.host.part p).ringOf k n) (v := v) (iface := ifaceOf r) hk hen hv hmin hmax hspace
    have hrefused := fun hen hsize => Ring.configured_refused (g := (s.host.part p).ringOf k n) (v := v) hk hen hsize (ifaceOf r)
    have hoff := fun hen hv => Ring.configured_disabled (g := (s.host.part p).ringOf k n) (v := v) hk hen hv (ifaceOf r)
    rw [← hcfg] at hlo hhi hrefused hoff
    simp only [← hcfg] at hon
    exact ⟨t, hnext, ⟨hother, hlo, hhi, hon, hrefused, hoff⟩, honly⟩
  · obtain ⟨t, hnext, ⟨hpart, hother⟩, honly⟩ := completes_tapEnWrite hwf hr hk hw hholds
    have htap : ∀ j, (t.host.part r).tap j = if j = k then ((s.host.part r).tap k).write 0 v 0 else (s.host.part r).tap j := fun j => by
      rw [hpart]
      exact Part.tap_setTap htaps k j _
    have hwrite := ((s.host.part r).tap k).write_cfg v
    rw [← (htap k).trans (if_pos rfl)] at hwrite
    exact ⟨t, hnext, ⟨hother, fun j hj => (htap j).trans (if_neg hj), hwrite⟩, honly⟩

end Sys2Proof.Machine

/-!
SUPPORT. The ends of host DMA reads (R405, R412, R416).
-/

namespace Sys2Proof.Machine

/-! ### Reads for a command at intake (R412) -/

theorem State.commandRead_none {s : State} {p : Nat} (h : s.setter.reading p = none) (d : Option (List Byte)) : s.commandRead p d = s := by
  rw [State.commandRead, State.withSetter, h]

theorem completes_commandRead_none {s : State} {p : Nat} {d : Option (List Byte)} (hp : p < 4) (hup : s.dmaUp = true)
    (hnone : s.setter.reading p = none) (hd : d = none ∨ d = some []) : Completes (.dmaReadComplete p 64 d) s [] fun _ => True := by
  have hguard : (s.dmaUp && d.all fun b => b.length == s.readLen p 64) = true := by
    obtain rfl | rfl := hd <;> simp [hup, State.readLen, hnone]
  have hsame : s.readEnds p 64 d = s := State.commandRead_none hnone d
  exact completes_of_settle ((done_on (by simp [Instr.wf, hp]) hguard).trans (by rw [hsame]))

theorem completes_commandRead {s : State} {p n : Nat} {e : Entry} {d : Option (List Byte)} (hp : p < 4) (hup : s.dmaUp = true)
    (hreading : s.setter.reading p = some n) (hentry : s.setter.intake[n]? = some e) (hlen : ∀ b, d = some b → b.length = e.len) :
    Completes (.dmaReadComplete p 64 d) s [.setter] fun t =>
      t.setter = { s.setter with intake := s.setter.intake.set n { e with data := d, fail := d.isNone } } := by
  have hreadLen : s.readLen p 64 = e.len := by simp [State.readLen, hreading, hentry]
  have hguard : (s.dmaUp && d.all fun b => b.length == s.readLen p 64) = true := by
    rw [hup, hreadLen]
    cases d with
    | none => rfl
    | some b => simpa using hlen b rfl
  have hmodify : s.setter.intake.modify n (fun e => { e with data := d, fail := d.isNone }) =
      s.setter.intake.set n { e with data := d, fail := d.isNone } := by
    rw [List.modify_eq_set_getElem?, hentry]
    rfl
  refine ⟨_, done_on (by simp [Instr.wf, hp]) hguard, ?_, (s.within_setter _).settle (fun _ => rfl) fun _ => ⟨rfl, rfl, rfl⟩⟩
  change (match s.setter.reading p with | none => s.setter | some i => _) = _
  rw [hreading]
  exact congrArg (fun l => ({ s.setter with intake := l } : SetterSys)) hmodify

/-! ### A ring fetch that fails (R405) -/

/-- R405: a partition whose submission ring `r` has failed a fetch. -/
def Part.fetchFailed (q : Part) (r : Nat) : Part :=
  { q.setRing true r ((q.ring true r).disable true) with ringErr := q.ringErr ||| Word.one r, lastSq := r }

theorem HostSys.nextRing_lt {h : HostSys} {p r : Nat} (hnext : h.nextRing p = some r) : r < 8 := by
  obtain ⟨i, -, hi⟩ := List.mem_map.mp (List.mem_of_find?_eq_some hnext)
  omega

theorem Ring.disable_off (g : Ring) (sq : Bool) : (g.disable sq).en = false := by
  simp only [Ring.disable, Ring.en]
  exact Word.flag_setFlag_same (by decide) _ _

/-- Both ways in which a read can fail come to one end. -/
theorem exec_readFails {s : State} {p tap : Nat} (hp : p < 4) (htap : tap ≤ 65) (hup : s.dmaUp = true) :
    ∀ i ∈ [Instr.dmaReadComplete p tap none, .dmaTimeout p tap], exec i s = .next (s.readEnds p tap none).settle := by
  have hwf : ∀ i ∈ [Instr.dmaReadComplete p tap none, .dmaTimeout p tap], i.wf = true := by simp [Instr.wf, hp, htap]
  simp only [List.mem_cons, List.not_mem_nil, or_false, forall_eq_or_imp, forall_eq] at hwf ⊢
  exact ⟨done_on hwf.1 (by simp [hup]), done_on hwf.2 hup⟩

theorem completes_fetchFails {s : State} {p r : Nat} {i : Instr} (hwf : s.unitsWf = true)
    (hsq : Memory.wf (fun _ => Ring.reset) (s.host.part p).sq = true) (hp : p < 4) (hup : s.dmaUp = true)
    (hi : i ∈ [Instr.dmaReadComplete p 65 none, .dmaTimeout p 65]) (hring : s.host.nextRing p = some r) :
    Completes i s [.host] fun t => (∀ q, q ≠ p → t.host.part q = s.host.part q) ∧ ((t.host.part p).ring true r).en = false ∧
      (t.host.part p).ringErr.flag r = true ∧ ((t.host.part p).ring true r).dev = ((t.host.part p).ring true r).host ∧
      ∀ k, k ≠ r → (t.host.part p).ring true k = (s.host.part p).ring true k := by
  have hends : s.readEnds p 65 none = s.withHost fun h => h.modPart p fun q => q.fetchFailed r := by
    simp only [State.readEnds, hring]
    rfl
  have hrings : ∀ k, ((s.host.part p).fetchFailed r).ring true k = if k = r then ((s.host.part p).ring true r).disable true else (s.host.part p).ring true k :=
    fun k => Part.ring_setRing (q := s.host.part p) (sq := true) hsq r k _
  obtain ⟨t, hnext, ⟨hpart, hother, -⟩, honly⟩ := completes_modPart (fun q => q.fetchFailed r) hwf
    ((exec_readFails hp (by decide) hup i hi).trans (by rw [hends]))
  refine ⟨t, hnext, ⟨hother, ?_, ?_, ?_, fun k hk => ?_⟩, honly⟩
  · rw [hpart, hrings, if_pos rfl, Ring.disable_off]
  · rw [hpart]
    exact Word.or_one_flag _ (by have := HostSys.nextRing_lt hring; omega)
  · rw [hpart, hrings, if_pos rfl]
    rfl
  · rw [hpart, hrings, if_neg hk]

theorem completes_fetchFails_none {s : State} {p : Nat} {i : Instr} (hp : p < 4) (hup : s.dmaUp = true)
    (hi : i ∈ [Instr.dmaReadComplete p 65 none, .dmaTimeout p 65]) (hring : s.host.nextRing p = none) : Completes i s [] fun _ => True := by
  have hends : s.readEnds p 65 none = s := by simp [State.readEnds, hring]
  exact completes_of_settle ((exec_readFails hp (by decide) hup i hi).trans (by rw [hends]))

/-! ### Play blocks (R416) -/

/-- Tap `k` of partition `p` becomes `u`. -/
def State.putTap (s : State) (p k : Nat) (u : Tap) : State := s.withHost fun h => h.modPart p fun q => q.setTap k u

theorem State.putTap_part {s : State} (hwf : s.unitsWf = true) (p k : Nat) (u : Tap) :
    (s.putTap p k u).host.part p = (s.host.part p).setTap k u := s.host.part_modPart_same p _ (State.unitsWf_parts hwf)

theorem State.putTap_other (s : State) {p q : Nat} (hq : q ≠ p) (k : Nat) (u : Tap) : (s.putTap p k u).host.part q = s.host.part q :=
  s.host.part_modPart_other _ hq

theorem completes_playFails {s : State} {p k : Nat} {b : Nat × Nat} {rest : List (Nat × Nat)} {i : Instr} (hwf : s.unitsWf = true)
    (htaps : Memory.wf (fun _ => Tap.reset) (s.host.part p).taps = true) (hp : p < 4) (hk : k < 64) (hup : s.dmaUp = true)
    (hreads : ((s.host.part p).tap k).reads = b :: rest) (hi : i ∈ [Instr.dmaReadComplete p k none, .dmaTimeout p k]) :
    Completes i s [.host] fun t => (∀ q, q ≠ p → t.host.part q = s.host.part q) ∧
      (∀ j, j ≠ k → (t.host.part p).tap j = (s.host.part p).tap j) ∧
      (t.host.part p).tap k = { (s.host.part p).tap k with reads := rest, dmaErr := true } ∧ (t.host.part p).irqStat.flag 9 = true := by
  have hends : s.readEnds p k none = (s.putTap p k ((s.host.part p).tap k).readFail).withHost fun h => h.irq p 9 := by
    unfold State.readEnds
    rw [if_pos hk, State.tapReadEnds]
    dsimp only
    rw [if_neg (by simp [hreads])]
    rfl
  have hsignals := HostSys.Signals.raise (h := (s.putTap p k ((s.host.part p).tap k).readFail).host)
    (Memory.wf_set _ _ _ _ (State.unitsWf_parts hwf)) p 9
  obtain ⟨bits, waits, stat, hpart⟩ := hsignals.part
  have htap : ∀ j, ((s.readEnds p k none).host.part p).tap j = if j = k then ((s.host.part p).tap k).readFail else (s.host.part p).tap j := fun j => by
    rw [hends]
    exact (congrArg (fun q => Part.tap q j) hpart :).trans
      ((congrArg (fun q => Part.tap q j) (State.putTap_part hwf p k _) :).trans (Part.tap_setTap htaps k j _))
  refine ⟨_, exec_readFails hp (by omega) hup i hi, ⟨fun q hq => ?_, fun j hj => (htap j).trans (if_neg hj), ?_, ?_⟩, ?_⟩
  · rw [hends]
    exact (hsignals.other q hq).trans (s.putTap_other hq k _)
  · rw [State.settle_host]
    refine (htap k).trans ((if_pos rfl).trans ?_)
    rw [Tap.readFail, hreads]
    rfl
  · rw [hends]
    exact HostSys.irq_flag (Memory.wf_set _ _ _ _ (State.unitsWf_parts hwf)) p (by decide)
  · rw [hends]
    exact ((s.within_host _).trans (State.within_host _ _)).settle
      (fun _ => (State.unitReports_withHost _ _ rfl).trans (State.unitReports_withHost _ _ rfl)) fun _ => ⟨rfl, rfl, rfl⟩

/-! A play block that arrives -/

/-- R416: the frames of a block of a play tap that lie below the noted index, each sample in the tap's format. -/
def Tap.blockFrames (x : Tap) (nd : TapNode) (f0 lim : Nat) (bs : List Byte) : List (Nat × List Word) :=
  ((List.range x.blk).filter fun i => 0 < hostAhead lim (f0 + i)).map fun i =>
    (f0 + i, (List.range nd.sids.length).map fun j => tapIn nd.fmt (bs.drop ((i * nd.sids.length + j) * tapBytes nd.fmt)))

theorem Tap.readDone_eq {x : Tap} {f0 lim : Nat} {rest : List (Nat × Nat)} {nd : TapNode} (hreads : x.reads = (f0, lim) :: rest)
    (hnode : x.node = some nd) (bs : List Byte) :
    x.readDone bs = { x with reads := rest, frames := x.frames ++ x.blockFrames nd f0 lim bs } := by
  rw [Tap.readDone, hreads, hnode]
  rfl

theorem Tap.playLate_keeps (x : Tap) (n : Nat) : (x.playLate n).2.reads = x.reads ∧ (x.playLate n).2.dmaErr = x.dmaErr := by
  rw [Tap.playLate]
  split
  · exact ⟨rfl, rfl⟩
  · exact ⟨rfl, rfl⟩

theorem Tap.playLate_idle {x : Tap} (hwait : x.wait = false) (n : Nat) : x.playLate n = ([], x) := by
  have hnone : x.frames.find? (fun y => x.wait && y.1 == n - x.n0) = none := by simp [hwait]
  rw [Tap.playLate, hnone]

theorem State.within_writeSid (s : State) (k kind inst sid : Nat) (v : Word) : s.Within [.plane, .reports] (s.writeSid k kind inst sid v) := by
  unfold State.writeSid
  refine .ite (fun _ => .refl _ s) fun _ => ?_
  have hplane : ∀ m, s.Within [.plane] { s with plane := m } := fun _ => ⟨rfl, fun p hp => by cases p <;> simp_all [Piece.same]⟩
  dsimp only
  split
  · exact (hplane _).mono
  · exact .ite (fun _ => (hplane _).mono) fun _ => (hplane _).mono.trans (State.within_notes _ _).mono

theorem completes_playBlock {s : State} {p k f0 lim : Nat} {rest : List (Nat × Nat)} {nd : TapNode} {bs : List Byte} (hwf : s.unitsWf = true)
    (htaps : Memory.wf (fun _ => Tap.reset) (s.host.part p).taps = true) (hp : p < 4) (hk : k < 64) (hup : s.dmaUp = true)
    (hreads : ((s.host.part p).tap k).reads = (f0, lim) :: rest) (hnode : ((s.host.part p).tap k).node = some nd)
    (hlen : bs.length = ((s.host.part p).tap k).blk * ((s.host.part p).tap k).frameLen) :
    Completes (.dmaReadComplete p k (some bs)) s [.host, .plane, .reports] fun t => (∀ q, q ≠ p → t.host.part q = s.host.part q) ∧
      (∀ j, j ≠ k → (t.host.part p).tap j = (s.host.part p).tap j) ∧ ((t.host.part p).tap k).reads = rest ∧
      ((t.host.part p).tap k).dmaErr = ((s.host.part p).tap k).dmaErr ∧
      (((s.host.part p).tap k).wait = false → t.plane = s.plane ∧
        ((t.host.part p).tap k).frames = ((s.host.part p).tap k).frames ++ ((s.host.part p).tap k).blockFrames nd f0 lim bs) := by
  let x := (s.host.part p).tap k
  let r := (x.readDone bs).playLate (s.period nd.dom)
  let u := ((nd.sids.map (·.b)).zip r.1).foldl (fun s w => s.writeSid nd.dom 8 p w.1 w.2) (s.putTap p k r.2)
  have hends : s.readEnds p k (some bs) = u := by
    unfold State.readEnds
    rw [if_pos hk, State.tapReadEnds]
    dsimp only
    rw [if_neg (by simp [hreads])]
    simp only [hnode]
    rfl
  have hguard : (s.dmaUp && (some bs).all fun b => b.length == s.readLen p k) = true := by simp [hup, State.readLen, hk, hlen]
  have hplays : (s.putTap p k r.2).Within [.plane, .reports] u := .foldl (fun v _ => v.within_writeSid ..) _ _
  have hhost : u.host = (s.putTap p k r.2).host := hplays.same .host
  have htap : ∀ j, (u.host.part p).tap j = if j = k then r.2 else (s.host.part p).tap j := fun j => by
    rw [hhost, State.putTap_part hwf]
    exact Part.tap_setTap htaps k j _
  have hdone := Tap.readDone_eq hreads hnode bs
  obtain ⟨hkeepReads, hkeepErr⟩ := (x.readDone bs).playLate_keeps (s.period nd.dom)
  have hwithin : s.Within [.host, .plane, .reports] u := (s.within_host _).mono.trans hplays.mono
  refine ⟨u.settle, (done_on (by simp [Instr.wf, hp]; omega) hguard).trans (by rw [hends]), ⟨fun q hq => ?_, fun j hj => (htap j).trans (if_neg hj), ?_, ?_,
    fun hwait => ⟨?_, ?_⟩⟩, hwithin.settle (fun h => absurd (by decide) h) fun _ => ⟨(congrArg HostSys.outs hhost :), ?_, ?_⟩⟩
  · exact (congrArg (fun h => HostSys.part h q) hhost :).trans (s.putTap_other hq k _)
  · exact (congrArg Tap.reads ((htap k).trans (if_pos rfl)) :).trans (hkeepReads.trans (congrArg Tap.reads hdone :))
  · exact (congrArg Tap.dmaErr ((htap k).trans (if_pos rfl)) :).trans (hkeepErr.trans (congrArg Tap.dmaErr hdone :))
  · have hidle : r.1 = [] := congrArg Prod.fst (Tap.playLate_idle ((congrArg Tap.wait hdone :).trans hwait) _)
    simp only [u, hidle, List.zip_nil_right]
    rfl
  · have hidle : r.2 = x.readDone bs := congrArg Prod.snd (Tap.playLate_idle ((congrArg Tap.wait hdone :).trans hwait) _)
    exact (congrArg Tap.frames ((htap k).trans (if_pos rfl)) :).trans ((congrArg Tap.frames hidle :).trans (congrArg Tap.frames hdone :))
  · exact State.txOn_of_within hwithin (by decide) (by decide)
  · exact congrArg NetSys.sent (hwithin.same .net)

end Sys2Proof.Machine

/-!
SUPPORT. What host DMA writes: blocks of record taps (R417) and records of meters (R415).
-/

namespace Sys2Proof.Machine

theorem leBytes_length (n v : Nat) : (leBytes n v).length = n := by
  induction n generalizing v with
  | zero => rfl
  | succ n ih => exact congrArg (· + 1) (ih (v / 256))

theorem MemSys.putBytes_banks (m : MemSys) (a : Nat) (bs : List Byte) (k : Nat) : (m.putBytes a bs k).banks = m.banks := rfl

/-- The Exchange RAM is no shared bank. -/
theorem State.putXram_banks (s : State) (ws : List (Nat × List Byte)) : (s.putXram ws).mem.banks = s.mem.banks := by
  rw [State.putXram, State.withMem_mem]
  refine foldl_keeps MemSys.banks _ (fun m w => ?_) ws s.mem
  exact foldl_keeps MemSys.banks _ (fun m k => m.putBytes_banks w.1 w.2 (w.1 / 4 + k)) _ m

theorem State.hostPut_keep {s : State} {f : HostSys → HostSys × List (Nat × List Byte)} (h : f s.host = (s.host, [])) : s.hostPut f = s := by
  rw [State.hostPut, h]
  rfl

theorem HostSys.put_host {h : HostSys} {p : Nat} {lo : Word} (hspace : spaceOf lo = false) (hbme : h.pcie.bme.testBit p = true) (hi : Word)
    (off : Nat) (bs : List Byte) : h.put p lo hi off bs = (h.emit (.busWrite p (hostBase lo hi + off) bs), []) := by
  rw [HostSys.put, if_neg (by simp [hspace]), HostSys.send_reached hbme]

theorem HostSys.put_host_writes {h : HostSys} {p : Nat} {lo : Word} (hspace : spaceOf lo = false) (hi : Word) (off : Nat) (bs : List Byte) :
    (h.put p lo hi off bs).2 = [] := by
  rw [HostSys.put, if_neg (by simp [hspace])]

/-! ### Record blocks (R417) -/

/-- R417: a record tap whose oldest block, which ends before frame `f1`, has been written. -/
def Tap.recorded (x : Tap) (f1 : Nat) (rest : List (Nat × List Byte)) : Tap :=
  { x with done := rest, devIdx := f1 % 2 ^ 32, ovr := x.ovr || decide (hostAhead x.hostIdx f1 < -x.frames_) }

/-- Where the block that ends before frame `f1` stands in the buffer. -/
def Tap.blockOffset (x : Tap) (f1 : Nat) : Nat := ((f1 - x.blk) % x.frames_) * x.frameLen

theorem HostSys.writeBlock_none {h : HostSys} {p k : Nat} (hnone : ((h.part p).tap k).done = [] ∨ h.reach p ((h.part p).tap k).lo = false) :
    h.writeBlock p k = (h, []) := by
  rw [HostSys.writeBlock]
  cases hdone : ((h.part p).tap k).done with
  | nil => rfl
  | cons b rest =>
    have hreach := hnone.resolve_left (by simp [hdone])
    exact if_pos (by simp [hreach])

theorem HostSys.writeBlock_some {h : HostSys} {p k f1 : Nat} {bs : List Byte} {rest : List (Nat × List Byte)}
    (hdone : ((h.part p).tap k).done = (f1, bs) :: rest) (hreach : h.reach p ((h.part p).tap k).lo = true) :
    let x := (h.part p).tap k
    let r := (h.setPart p ((h.part p).setTap k (x.recorded f1 rest))).put p x.lo x.hi (x.blockOffset f1) bs
    h.writeBlock p k = ((r.1.irq p 9).msi p (x.cfg.fld 24 6), r.2) := by
  dsimp only
  rw [HostSys.writeBlock]
  simp only [hdone]
  exact if_neg (by simp [hreach])

theorem completes_recordBlock {s : State} {p k f1 : Nat} {bs : List Byte} {rest : List (Nat × List Byte)} (hwf : s.unitsWf = true)
    (htaps : Memory.wf (fun _ => Tap.reset) (s.host.part p).taps = true) (hquiet : s.quiet = true) (hp : p < 4) (hk : k < 64)
    (hup : s.dmaUp = true) (hdone : ((s.host.part p).tap k).done = (f1, bs) :: rest)
    (hreach : s.host.reach p ((s.host.part p).tap k).lo = true) :
    Completes (.recordTapBlockWrite p k) s [.host, .mem, .out] fun t => let x := (s.host.part p).tap k
      (∀ q, q ≠ p → t.host.part q = s.host.part q) ∧ (∀ j, j ≠ k → (t.host.part p).tap j = (s.host.part p).tap j) ∧
      (t.host.part p).tap k = x.recorded f1 rest ∧ (t.host.part p).irqStat.flag 9 = true ∧
      (spaceOf x.lo = false → t.mem.xram = s.mem.xram ∧ ∃ l, t.out = .busWrite p (hostBase x.lo x.hi + x.blockOffset f1) bs :: l) ∧
      (spaceOf x.lo = true → t.mem.banks = s.mem.banks) := by
  have hparts := State.unitsWf_parts hwf
  let x := (s.host.part p).tap k
  let h1 := s.host.setPart p ((s.host.part p).setTap k (x.recorded f1 rest))
  let h2 := (h1.put p x.lo x.hi (x.blockOffset f1) bs).1
  have hblock : s.host.writeBlock p k = ((h2.irq p 9).msi p (x.cfg.fld 24 6), _) := HostSys.writeBlock_some hdone hreach
  have hwf1 : Memory.wf (fun _ => Part.reset) h1.parts = true := Memory.wf_set _ _ _ _ hparts
  have hpart1 : h1.part p = (s.host.part p).setTap k (x.recorded f1 rest) := Memory.get_set_same _ _ _ _ hparts
  have hput : h1.Signals p h2 := .put hwf1 p x.lo x.hi (x.blockOffset f1) bs
  have hmsi : (h2.irq p 9).Signals p ((h2.irq p 9).msi p (x.cfg.fld 24 6)) := .msi (HostSys.Signals.raise hput.wf p 9).wf p _
  have hall : h1.Signals p (s.host.writeBlock p k).1 := hblock ▸ hput.trans ((HostSys.Signals.raise hput.wf p 9).trans hmsi)
  obtain ⟨b, w, y, hpart⟩ := hall.part
  have htap : ∀ j, ((s.host.writeBlock p k).1.part p).tap j = if j = k then x.recorded f1 rest else (s.host.part p).tap j := fun j => by
    rw [hpart]
    exact (congrArg (fun q => Part.tap q j) hpart1 :).trans (Part.tap_setTap htaps k j _)
  have hexec : exec (.recordTapBlockWrite p k) s = .next (s.hostPut fun h => h.writeBlock p k).settle := done_on (by simp [Instr.wf, hp, hk]) hup
  obtain ⟨t, hnext, rfl, honly⟩ := completes_hostPut hexec hall.rep
  refine ⟨_, hnext, ⟨fun q hq => (hall.other q hq).trans (Memory.get_set_other _ _ _ _ _ hq), fun j hj => (htap j).trans (if_neg hj),
    (htap k).trans (if_pos rfl), ?_, fun hspace => ⟨?_, ?_⟩, fun _ => State.putXram_banks _ _⟩, honly⟩
  · have hflag := hmsi.irq 9 (HostSys.irq_flag hput.wf p (by decide))
    exact (congrArg (fun r => (HostSys.part (Prod.fst r) p).irqStat.flag 9) hblock :).trans hflag
  · have hnone : (s.host.writeBlock p k).2 = [] := hblock ▸ HostSys.put_host_writes hspace _ _ _
    change (({ s with host := (s.host.writeBlock p k).1 } : State).putXram (s.host.writeBlock p k).2).mem.xram = _
    rw [hnone]
    rfl
  · have hbme : s.host.pcie.bme.testBit p = true := by simpa [HostSys.reach, hspace] using hreach
    have hsent : h2.outs = s.host.outs ++ [.busWrite p (hostBase x.lo x.hi + x.blockOffset f1) bs] :=
      congrArg (fun r => HostSys.outs (Prod.fst r)) (HostSys.put_host (h := h1) hspace hbme x.hi (x.blockOffset f1) bs)
    obtain ⟨l, hl⟩ := hmsi.outs
    obtain ⟨houts, -⟩ := State.quiet_outs hquiet
    have hout : (s.hostPut fun h => h.writeBlock p k).settle.out = (s.host.writeBlock p k).1.outs := State.settle_out_host hquiet rfl
    refine ⟨l, hout.trans ((congrArg (fun r => HostSys.outs (Prod.fst r)) hblock :).trans (hl.trans ?_))⟩
    change h2.outs ++ l = _
    rw [hsent, houts]
    rfl

theorem completes_recordBlock_none {s : State} {p k : Nat} (hp : p < 4) (hk : k < 64) (hup : s.dmaUp = true)
    (hnone : ((s.host.part p).tap k).done = [] ∨ s.host.reach p ((s.host.part p).tap k).lo = false) :
    Completes (.recordTapBlockWrite p k) s [.host] fun t => t.host.parts = s.host.parts := by
  have hexec : exec (.recordTapBlockWrite p k) s = .next (s.hostPut fun h => h.writeBlock p k).settle := done_on (by simp [Instr.wf, hp, hk]) hup
  rw [State.hostPut_keep (HostSys.writeBlock_none hnone)] at hexec
  exact ⟨_, hexec, rfl, (onlyChanges_settle s).mono (by decide)⟩

/-! ### Records of meters (R415) -/

/-- One channel of a meter's record. -/
def Meter.channel (m : Meter) (ns c u : Nat) : List Byte := leBytes 4 (m.value c u).toNat ++ leBytes 4 ((m.count + 1) % 2 ^ 32) ++ leBytes 8 ns

/-- R415: the record of a window, one entry of 16 bytes per channel. -/
def Meter.record (m : Meter) (ns : Nat) (u : Nat → Nat) : List Byte := (List.range m.sids.length).flatMap fun c => m.channel ns c (u c)

/-- A meter after the end of its window. -/
def Meter.next (m : Meter) : Meter := { m with count := (m.count + 1) % 2 ^ 32, n := 0, peak := [], sumSq := [] }

theorem Meter.channel_length (m : Meter) (ns c u : Nat) : (m.channel ns c u).length = 16 := by
  simp [Meter.channel, leBytes_length]

theorem slice_append {a b c : List Byte} {o n : Nat} (ha : a.length = o) (hb : b.length = n) : slice (a ++ b ++ c) o n = b := by
  subst ha hb
  simp [slice, List.append_assoc]

theorem flatMap_range_length {g : Nat → List Byte} {w : Nat} (hw : ∀ c, (g c).length = w) (n : Nat) :
    ((List.range n).flatMap g).length = w * n := by
  simp [List.length_flatMap, hw, Nat.mul_comm]

/-- Entry `c` of a record of entries of equal length. -/
theorem flatMap_range_split {g : Nat → List Byte} {n c : Nat} (hc : c < n) :
    ∃ l, (List.range n).flatMap g = (List.range c).flatMap g ++ (g c ++ l) := by
  obtain ⟨d, rfl⟩ : ∃ d, n = c + (d + 1) := ⟨n - c - 1, by omega⟩
  refine ⟨((List.range d).map (c + 1 + ·)).flatMap g, ?_⟩
  rw [List.range_add, List.range_succ_eq_map, List.flatMap_append, List.map_cons, List.flatMap_cons, Nat.add_zero, List.map_map]
  have hshift : ((c + ·) ∘ Nat.succ) = (c + 1 + ·) := funext fun i => by simp only [Function.comp_apply]; omega
  rw [hshift]

/-- R415: where the parts of channel `c` stand in a record. -/
theorem Meter.record_slices (m : Meter) (ns : Nat) (u : Nat → Nat) {c : Nat} (hc : c < m.sids.length) :
    slice (m.record ns u) (16 * c) 4 = leBytes 4 (m.value c (u c)).toNat ∧ slice (m.record ns u) (16 * c + 4) 4 = leBytes 4 ((m.count + 1) % 2 ^ 32) ∧
      slice (m.record ns u) (16 * c + 8) 8 = leBytes 8 ns := by
  obtain ⟨l, hl⟩ := flatMap_range_split (g := fun c => m.channel ns c (u c)) hc
  have hbefore : ((List.range c).flatMap fun c => m.channel ns c (u c)).length = 16 * c := flatMap_range_length (fun c => m.channel_length ns c (u c)) c
  rw [Meter.record, hl, Meter.channel]
  generalize ((List.range c).flatMap fun c => m.channel ns c (u c)) = a at hbefore
  refine ⟨?_, ?_, ?_⟩
  · rw [List.append_assoc, List.append_assoc, ← List.append_assoc a]
    exact slice_append hbefore (leBytes_length ..)
  · rw [List.append_assoc, List.append_assoc, ← List.append_assoc a, ← List.append_assoc]
    exact slice_append (by simp [hbefore, leBytes_length]) (leBytes_length ..)
  · rw [List.append_assoc, ← List.append_assoc a, ← List.append_assoc]
    exact slice_append (by simp [hbefore, leBytes_length]) (leBytes_length ..)

/-- A linear peak is written exactly. -/
theorem Meter.value_peak {m : Meter} (hkind : m.kind = 0) (c u : Nat) : (m.value c u).toNat = min 0x7FFFFFFF (m.peak.getD c 0) := by
  rw [Meter.value, hkind]
  exact (BitVec.toNat_ofNat ..).trans (Nat.mod_eq_of_lt (by omega))

theorem HostSys.meterEnd_none {h : HostSys} {p j : Nat} (hnone : (h.part p).meters[j]? = none) (ns : Nat) (u : Nat → Nat) :
    h.meterEnd p j ns u = (h, []) := by
  rw [HostSys.meterEnd, hnone]

theorem HostSys.meterEnd_some {h : HostSys} {p j : Nat} {m : Meter} (hsome : (h.part p).meters[j]? = some m) (ns : Nat) (u : Nat → Nat) :
    let q := h.part p
    let h1 := h.setPart p { q with meters := q.meters.set j m.next }
    h.meterEnd p j ns u = if q.mtrCfg.flag 31 && m.n != 0 then h1.put p q.mtrLo q.mtrHi (16 * m.block) (m.record ns u) else (h1, []) := by
  rw [HostSys.meterEnd, hsome]
  rfl

theorem completes_meterEnd_none {s : State} {p j : Nat} (hp : p < 4) (hup : s.dmaUp = true) (hnone : (s.host.part p).meters[j]? = none) :
    Completes (.meterWindowEnd p j) s [.host] fun t => t.host.parts = s.host.parts := by
  have hends : s.meterEnds p j = s := by
    rw [State.meterEnds, hnone]
    exact State.hostPut_keep (HostSys.meterEnd_none hnone _ _)
  have hexec : exec (.meterWindowEnd p j) s = .next (s.meterEnds p j).settle := done_on (by simp [Instr.wf, hp]) hup
  rw [hends] at hexec
  exact ⟨_, hexec, rfl, (onlyChanges_settle s).mono (by decide)⟩

theorem completes_meterEnd {s : State} {p j : Nat} {m : Meter} (hwf : s.unitsWf = true) (hquiet : s.quiet = true) (hp : p < 4) (hup : s.dmaUp = true)
    (hsome : (s.host.part p).meters[j]? = some m) :
    Completes (.meterWindowEnd p j) s [.host, .mem, .out, .free] fun t => let q := s.host.part p
      (∀ r, r ≠ p → t.host.part r = s.host.part r) ∧ (t.host.part p).meters = q.meters.set j m.next ∧
      (q.mtrCfg.flag 31 = true → spaceOf q.mtrLo = false → s.host.pcie.bme.testBit p = true → m.n ≠ 0 →
        ∃ u, t.out = [.busWrite p (hostBase q.mtrLo q.mtrHi + 16 * m.block) (m.record s.ns u)]) := by
  have hparts := State.unitsWf_parts hwf
  let v := (s.take m.sids.length).2
  let u := fun c => Config.freeNat (s.free + c)
  let f := fun h : HostSys => h.meterEnd p j s.ns u
  have hends : s.meterEnds p j = v.hostPut f := by
    rw [State.meterEnds, hsome]
    rfl
  have hexec : exec (.meterWindowEnd p j) s = .next (s.meterEnds p j).settle := done_on (by simp [Instr.wf, hp]) hup
  rw [hends] at hexec
  let q := s.host.part p
  let h1 := s.host.setPart p { q with meters := q.meters.set j m.next }
  have hwf1 : Memory.wf (fun _ => Part.reset) h1.parts = true := Memory.wf_set _ _ _ _ hparts
  have hpart1 : h1.part p = { q with meters := q.meters.set j m.next } := Memory.get_set_same _ _ _ _ hparts
  have heq : f s.host = if q.mtrCfg.flag 31 && m.n != 0 then h1.put p q.mtrLo q.mtrHi (16 * m.block) (m.record s.ns u) else (h1, []) :=
    HostSys.meterEnd_some hsome s.ns u
  have hall : h1.Signals p (f s.host).1 := by
    rw [heq]
    split
    · exact .put hwf1 p _ _ _ _
    · exact .refl hwf1 p
  obtain ⟨b, w, y, hpart⟩ := hall.part
  have hwithin : s.Within [.host, .mem, .out, .free] (v.hostPut f) := (s.take_within _).mono.trans (v.hostPut_within f).mono
  refine ⟨_, hexec, ⟨fun r hr => (hall.other r hr).trans (Memory.get_set_other _ _ _ _ _ hr), ?_, fun hen hspace hbme hn => ⟨u, ?_⟩⟩,
    hwithin.settle (fun _ => State.hostPut_unitReports (s := v) hall.rep) fun h => absurd (by decide) h⟩
  · exact (congrArg Part.meters hpart :).trans (congrArg Part.meters hpart1 :)
  · have hout : (v.hostPut f).settle.out = (f s.host).1.outs := State.settle_out_host hquiet rfl
    obtain ⟨houts, -⟩ := State.quiet_outs hquiet
    have hwrites : (q.mtrCfg.flag 31 && m.n != 0) = true := Bool.and_eq_true_iff.mpr ⟨hen, bne_iff_ne.mpr hn⟩
    rw [hout, heq, if_pos hwrites, HostSys.put_host (h := h1) hspace hbme]
    exact congrArg (· ++ [_]) houts

end Sys2Proof.Machine

/-!
SUPPORT. Bus Master Enable, FLR and PERST_N (R392, R412, R420, R467).
-/

namespace Sys2Proof.Machine

/-! ### Bus Master Enable -/

theorem bmeBit (w n : Nat) (on : Bool) (m : Nat) :
    (if on then w ||| 2 ^ n else if w.testBit n then w - 2 ^ n else w).testBit m = if m = n then on else w.testBit m := by
  cases on with
  | true =>
    rw [if_pos rfl, Nat.testBit_or, Nat.testBit_two_pow]
    by_cases hm : m = n
    · simp [hm]
    · simp [hm, Ne.symm hm]
  | false =>
    rw [if_neg (by decide)]
    split
    · rw [testBit_sub_two_pow ‹_›]
      by_cases hm : m = n <;> simp [hm]
    · split
      · subst m
        exact Bool.eq_false_iff.mpr ‹_›
      · rfl

theorem HostSys.setBme_bit (h : HostSys) (n : Nat) (on : Bool) (m : Nat) :
    (h.setBme n on).pcie.bme.testBit m = if m = n then on else h.pcie.bme.testBit m := by
  have hbit := bmeBit h.pcie.bme n on m
  cases on <;> exact hbit

theorem HostSys.setBme_off (h : HostSys) (n : Nat) :
    (h.setBme n false).parts = h.parts ∧ (h.setBme n false).pol = h.pol ∧ (h.setBme n false).outs = h.outs := ⟨rfl, rfl, rfl⟩

theorem HostSys.setBme_rep (h : HostSys) (n : Nat) (on : Bool) : (h.setBme n on).rep = h.rep := by cases on <;> rfl

theorem HostSys.setBme_outs (h : HostSys) (n : Nat) : (h.setBme n true).outs = h.outs ++ (h.part n).waits := rfl

theorem HostSys.setBme_part {h : HostSys} (hwf : Memory.wf (fun _ => Part.reset) h.parts = true) (n : Nat) (on : Bool) (q : Nat) :
    (h.setBme n on).part q = if on = true ∧ q = n then { h.part q with waits := [] } else h.part q := by
  cases on with
  | false => exact (if_neg (by simp)).symm
  | true =>
    by_cases hq : q = n
    · subst hq
      rw [if_pos ⟨rfl, rfl⟩]
      exact HostSys.part_modPart_same _ q (fun q => { q with waits := [] }) hwf
    · rw [if_neg (by simp [hq])]
      exact HostSys.part_modPart_other _ (fun q => { q with waits := [] }) hq

/-! ### The reads that waited (R412) -/

/-- Reads of entries at intake have been issued or made; no entry came or went. -/
structure State.Issues (s t : State) : Prop where
  setter : t.setter = { s.setter with intake := t.setter.intake }
  length : t.setter.intake.length = s.setter.intake.length
  host : ∃ l, t.host = { s.host with outs := s.host.outs ++ l }
  xram : t.mem.xram = s.mem.xram
  banks : t.mem.banks = s.mem.banks
  within : s.Within [.host, .setter, .mem] t

namespace State.Issues

variable {s t u : State}

theorem refl (s : State) : s.Issues s := ⟨rfl, rfl, ⟨[], by rw [List.append_nil]⟩, rfl, rfl, .refl _ s⟩

theorem trans (a : s.Issues t) (b : t.Issues u) : s.Issues u := by
  obtain ⟨k, hk⟩ := a.host
  obtain ⟨l, hl⟩ := b.host
  refine ⟨b.setter.trans ?_, b.length.trans a.length, ⟨k ++ l, ?_⟩, b.xram.trans a.xram, b.banks.trans a.banks, a.within.trans b.within⟩
  · rw [a.setter]
  · rw [hl, hk, List.append_assoc]

theorem outs (a : s.Issues t) {o : Out} (ho : o ∈ s.host.outs) : o ∈ t.host.outs := by
  obtain ⟨l, hl⟩ := a.host
  rw [hl]
  exact List.mem_append_left _ ho

theorem bme (a : s.Issues t) : t.host.pcie = s.host.pcie := by
  obtain ⟨l, hl⟩ := a.host
  rw [hl]

/-- Entry `n` of intake is replaced; the host interfaces send `l`, the memories count their accesses. -/
theorem set {n : Nat} {f : Entry} {l : List Out} (hsetter : t.setter = { s.setter with intake := s.setter.intake.set n f })
    (hhost : t.host = { s.host with outs := s.host.outs ++ l }) (hxram : t.mem.xram = s.mem.xram) (hbanks : t.mem.banks = s.mem.banks)
    (hwithin : s.Within [.host, .setter, .mem] t) : s.Issues t :=
  ⟨by rw [hsetter], by rw [hsetter, List.length_set], ⟨l, hhost⟩, hxram, hbanks, hwithin⟩

end State.Issues

/-- An entry whose read of host memory is yet to be issued. -/
structure Entry.Awaits (e : Entry) : Prop where
  reads : e.reads = true
  wait : e.wait = false
  fail : e.fail = false
  data : e.data = none
  len : e.len ≠ 0
  addr : e.addr % 2 = 0

/-- What `issueRead` does with one entry. -/
structure State.ReadOf (s t : State) (n : Nat) (e : Entry) : Prop where
  issues : s.Issues t
  other : ∀ m, m ≠ n → t.setter.intake[m]? = s.setter.intake[m]?
  idle : e.reads = false ∨ e.wait = true → t.setter.intake[n]? = some e
  issued : e.Awaits → t.setter.intake[n]? = some { e with wait := s.host.pcie.bme.testBit e.part } ∧
    (s.host.pcie.bme.testBit e.part = true → .busRead e.part (e.addr / 8 * 8) e.len ∈ t.host.outs)

theorem State.issueRead_of {s : State} {n : Nat} {e : Entry} (hget : s.setter.intake[n]? = some e) : s.ReadOf (s.issueRead n) n e := by
  obtain ⟨hn, -⟩ := List.getElem?_eq_some_iff.mp hget
  have hset : ∀ (f : Entry) m, m ≠ n → (s.setter.intake.set n f)[m]? = s.setter.intake[m]? := fun f m hm => List.getElem?_set_ne hm.symm
  have hself : ∀ f : Entry, (s.setter.intake.set n f)[n]? = some f := fun f => by rw [List.getElem?_set_self hn]
  rw [State.issueRead]
  simp only [hget]
  by_cases hdone : (!e.reads || e.wait || e.fail || e.data.isSome) = true
  · rw [if_pos hdone]
    refine ⟨.refl s, fun _ _ => rfl, fun _ => hget, fun ha => ?_⟩
    simp [ha.reads, ha.wait, ha.fail, ha.data] at hdone
  rw [if_neg hdone]
  have hopen : e.reads = true ∧ e.wait = false := by
    simp only [Bool.or_eq_true, not_or, Bool.not_eq_true, Bool.not_eq_false'] at hdone
    exact ⟨hdone.1.1.1, hdone.1.1.2⟩
  have hnotIdle : ¬ (e.reads = false ∨ e.wait = true) := by simp [hopen]
  by_cases hlen : e.len = 0
  · rw [if_pos hlen]
    exact ⟨.set (l := []) rfl (by rw [List.append_nil]; rfl) rfl rfl (s.within_setter _).mono, hset _, fun h => absurd h hnotIdle,
      fun ha => absurd hlen ha.len⟩
  rw [if_neg hlen]
  by_cases hodd : e.addr % 2 = 1
  · rw [if_pos hodd]
    obtain ⟨m, hm, hxram, hbanks⟩ := s.xramRead_mem e.part (e.addr / 8 * 8 % 2 ^ 18) e.len
    rw [hm]
    exact ⟨.set (l := []) rfl (by rw [List.append_nil]; rfl) hxram hbanks ((s.within_mem fun _ => m).mono.trans (State.within_setter _ _).mono), hset _,
      fun h => absurd h hnotIdle, fun ha => absurd ha.addr (by omega)⟩
  rw [if_neg hodd]
  cases hbme : s.host.pcie.bme.testBit e.part with
  | true =>
    rw [if_pos rfl]
    exact ⟨.set rfl rfl rfl rfl ((s.within_setter _).mono.trans (State.within_host _ _).mono), hset _, fun h => absurd h hnotIdle,
      fun _ => ⟨hbme ▸ hself _, fun _ => List.mem_append_right _ (List.mem_singleton_self _)⟩⟩
  | false =>
    rw [if_neg (by decide)]
    refine ⟨.refl s, fun _ _ => rfl, fun h => absurd h hnotIdle, fun ha => ⟨?_, fun h => by simp [hbme] at h⟩⟩
    rw [hget, hbme, ← ha.wait]

/-- R412: the turn of entry `n` when the Bus Master Enable of function `pf` is set. -/
def State.bmeTurn (pf : Nat) (s : State) (n : Nat) : State :=
  if s.setter.intake[n]?.any fun e => e.part == pf && e.op != 0x01 then s.issueRead n else s

theorem State.bmeTurn_issues (pf : Nat) (s : State) (n : Nat) :
    s.Issues (s.bmeTurn pf n) ∧ ∀ m, m ≠ n → (s.bmeTurn pf n).setter.intake[m]? = s.setter.intake[m]? := by
  rw [State.bmeTurn]
  split
  · obtain ⟨e, hget, -⟩ := (Option.any_eq_true ..).mp ‹_›
    exact ⟨(State.issueRead_of hget).issues, (State.issueRead_of hget).other⟩
  · exact ⟨.refl s, fun _ _ => rfl⟩

theorem State.bmeTurns_issues (pf : Nat) (l : List Nat) (s : State) :
    s.Issues (l.foldl (State.bmeTurn pf) s) ∧ ∀ m, m ∉ l → (l.foldl (State.bmeTurn pf) s).setter.intake[m]? = s.setter.intake[m]? := by
  induction l generalizing s with
  | nil => exact ⟨.refl s, fun _ _ => rfl⟩
  | cons n l ih =>
    obtain ⟨hhead, hother⟩ := s.bmeTurn_issues pf n
    obtain ⟨htail, hrest⟩ := ih (s.bmeTurn pf n)
    exact ⟨hhead.trans htail, fun m hm => (hrest m fun h => hm (List.mem_cons_of_mem _ h)).trans (hother m fun h => hm (h ▸ List.mem_cons_self))⟩

/-- Each entry has its own turn, in which it is as it was before. -/
theorem State.bmeTurns_entry {pf n k : Nat} {e : Entry} {s : State} (hget : s.setter.intake[n]? = some e) (hn : n < k) :
    let t := (List.range k).foldl (State.bmeTurn pf) s
    (e.part ≠ pf ∨ e.op = 1 ∨ e.reads = false ∨ e.wait = true → t.setter.intake[n]? = some e) ∧
      (e.part = pf → e.op ≠ 1 → e.Awaits → t.setter.intake[n]? = some { e with wait := s.host.pcie.bme.testBit pf } ∧
        (s.host.pcie.bme.testBit pf = true → .busRead pf (e.addr / 8 * 8) e.len ∈ t.host.outs)) := by
  obtain ⟨d, rfl⟩ : ∃ d, k = n + (d + 1) := ⟨k - n - 1, by omega⟩
  dsimp only
  rw [List.range_add, List.range_succ_eq_map, List.foldl_append, List.map_cons, List.foldl_cons, Nat.add_zero]
  obtain ⟨hbefore, hkept⟩ := State.bmeTurns_issues pf (List.range n) s
  generalize (List.range n).foldl (State.bmeTurn pf) s = u at hbefore hkept ⊢
  obtain ⟨hafter, hlater⟩ := State.bmeTurns_issues pf (((List.range d).map Nat.succ).map (n + ·)) (u.bmeTurn pf n)
  have hlater := hlater n (by simp)
  have hget' : u.setter.intake[n]? = some e := (hkept n (by simp)).trans hget
  have hread := State.issueRead_of hget'
  rw [hlater]
  by_cases hturn : e.part = pf ∧ e.op ≠ 1
  · have hstep : u.bmeTurn pf n = u.issueRead n := if_pos (by simp [hget', hturn])
    rw [hstep] at hafter ⊢
    obtain ⟨rfl, hop⟩ := hturn
    rw [← hbefore.bme]
    refine ⟨fun h => hread.idle ?_, fun _ _ ha => ⟨(hread.issued ha).1, fun hbme => hafter.outs ((hread.issued ha).2 hbme)⟩⟩
    exact (h.resolve_left (by simp)).resolve_left hop
  · have hstep : u.bmeTurn pf n = u := if_neg (by simp only [hget', Option.any_some]; simpa using hturn)
    rw [hstep]
    exact ⟨fun _ => hget', fun hpart hop => absurd ⟨hpart, hop⟩ hturn⟩

theorem completes_busMaster {s : State} {p : Nat} (on : Bool) (hwf : s.unitsWf = true) (hp : p < 4) (hread : s.readable = true) :
    Completes (.busMasterEnable p on) s [.host, .setter, .mem, .reports, .out] fun t =>
      (on = false → t.host.parts = s.host.parts) ∧
      (∀ q, t.host.part q = if on = true ∧ q = p then { s.host.part q with waits := [] } else s.host.part q) ∧
      (on = true → s.host.outs ++ (s.host.part p).waits <+: t.out) ∧ t.mem.xram = s.mem.xram ∧ t.mem.banks = s.mem.banks ∧
      t.host.pcie.bme.testBit p = on ∧ (∀ q, q ≠ p → t.host.pcie.bme.testBit q = s.host.pcie.bme.testBit q) ∧
      t.setter.parts = s.setter.parts ∧ t.setter.intake.length = s.setter.intake.length ∧
      ∀ (n : Nat) (e : Entry), s.setter.intake[n]? = some e →
        (e.part ≠ p ∨ e.op = 1 ∨ e.reads = false ∨ e.wait = true → t.setter.intake[n]? = some e) ∧
        (e.part = p → e.op ≠ 1 → e.Awaits → t.setter.intake[n]? = some { e with wait := on } ∧ (on = true → .busRead p (e.addr / 8 * 8) e.len ∈ t.out)) := by
  let u := s.withHost fun h => h.setBme p on
  let t := (List.range s.setter.intake.length).foldl (State.bmeTurn p) u
  have hexec : exec (.busMasterEnable p on) s = .next t.settle := done_on (by simp [Instr.wf, hp]) hread
  obtain ⟨hissues, -⟩ := State.bmeTurns_issues p (List.range s.setter.intake.length) u
  have houts : ∀ o, o ∈ t.host.outs → o ∈ t.settle.out := fun o ho => List.mem_append_left _ ho
  obtain ⟨l, hhost⟩ := hissues.host
  have hpart : ∀ q, t.host.part q = u.host.part q := fun q => (congrArg (fun h => HostSys.part h q) hhost :)
  have hbit : ∀ q, t.host.pcie.bme.testBit q = if q = p then on else s.host.pcie.bme.testBit q := fun q => by
    rw [hissues.bme]
    exact s.host.setBme_bit p on q
  have hentry : ∀ (n : Nat) (e : Entry), s.setter.intake[n]? = some e → _ := fun n e hget =>
    State.bmeTurns_entry (pf := p) (s := u) hget (List.getElem?_eq_some_iff.mp hget).1
  have hon : u.host.pcie.bme.testBit p = on := (s.host.setBme_bit p on p).trans (if_pos rfl)
  rw [hon] at hentry
  refine ⟨_, hexec, ⟨fun hoff => ?_, fun q => (hpart q).trans (s.host.setBme_part (State.unitsWf_parts hwf) p on q), fun hset => ?_, hissues.xram, hissues.banks,
    (hbit p).trans (if_pos rfl), fun q hq => (hbit q).trans (if_neg hq), (congrArg SetterSys.parts hissues.setter :), hissues.length, fun n e hget => ?_⟩,
    ((s.within_host _).mono.trans hissues.within.mono).settle_open⟩
  · subst hoff
    exact (congrArg HostSys.parts hhost :)
  · subst hset
    have hsent : t.host.outs = (s.host.outs ++ (s.host.part p).waits) ++ l := (congrArg HostSys.outs hhost :)
    rw [State.settle_out, hsent, List.append_assoc]
    exact List.prefix_append _ _
  · obtain ⟨hidle, hissued⟩ := hentry n e hget
    exact ⟨hidle, fun hpart hop ha => ⟨(hissued hpart hop ha).1, fun h => houts _ ((hissued hpart hop ha).2 h)⟩⟩

/-! ### FLR and PERST_N (R420) -/

/-- A property of every value that a memory lists, and of the values that it does not list. -/
theorem Memory.get_of_all {α : Type} {P : α → Prop} {d : Nat → α} {m : Memory α} (hd : ∀ a, P (d a)) (hm : ∀ e ∈ m, P e.2) (a : Nat) :
    P (Memory.get d m a) := by
  induction m with
  | nil => exact hd a
  | cons e m ih =>
    obtain ⟨k, v⟩ := e
    rw [Memory.get]
    split
    · exact hm _ List.mem_cons_self
    · exact ih fun e he => hm e (List.mem_cons_of_mem _ he)

/-- R420: a partition whose session `q` has ended. -/
structure Part.Ended (q r : Part) : Prop where
  session : r.session = q.session + 1
  compl : r.compl = []
  irqStat : r.irqStat = 0
  rings : ∀ n, (r.ring true n).en = false ∧ (r.ring false n).en = false ∧ (r.tap n).en = false
  fr : r.fr.en = false
  rptLen : r.rptLen = 0

theorem mem_filter_map {α : Type} {P : α → Prop} {f : α → α} {m : Memory α} {c : Nat × α → Bool} (hf : ∀ v, P (f v)) :
    ∀ e ∈ (m.map fun e => (e.1, f e.2)).filter c, P e.2 := by
  intro e he
  obtain ⟨x, -, rfl⟩ := List.mem_map.mp (List.mem_filter.mp he).1
  exact hf x.2

theorem Tap.stop_off (x : Tap) : x.stop.en = false := by
  simp only [Tap.stop, Tap.en]
  exact Word.flag_setFlag_same (by decide) _ _

theorem HostSys.sessionReset_ended {h : HostSys} (hwf : Memory.wf (fun _ => Part.reset) h.parts = true) (p : Nat) :
    (h.part p).Ended ((h.sessionReset p).part p) := by
  have hpart : (h.sessionReset p).part p = _ := HostSys.part_modPart_same h p _ hwf
  have hring : ∀ (sq : Bool) (m : Memory Ring) (n : Nat),
      (Memory.get (fun _ => Ring.reset) ((m.map fun e => (e.1, e.2.disable sq)).filter fun e => e.2 != Ring.reset) n).en = false := fun sq _ n =>
    Memory.get_of_all (P := fun g : Ring => g.en = false) (fun _ => rfl) (mem_filter_map (P := fun g : Ring => g.en = false) (f := fun g => g.disable sq) fun g => g.disable_off sq) n
  have htap : ∀ (m : Memory Tap) (n : Nat),
      (Memory.get (fun _ => Tap.reset) ((m.map fun e => (e.1, e.2.stop)).filter fun e => e.2 != Tap.reset) n).en = false := fun _ n =>
    Memory.get_of_all (P := fun x : Tap => x.en = false) (fun _ => rfl) (mem_filter_map (P := fun x : Tap => x.en = false) Tap.stop_off) n
  rw [hpart]
  exact ⟨rfl, rfl, rfl, fun n => ⟨hring true _ n, hring false _ n, htap _ n⟩, (h.part p).fr.disable_off false, rfl⟩

theorem HostSys.endSession_part {h : HostSys} (hwf : Memory.wf (fun _ => Part.reset) h.parts = true) (p : Nat) :
    (h.endSession p).part p = { (h.sessionReset p).part p with holder := none } :=
  HostSys.part_modPart_same _ p _ (Memory.wf_set _ _ _ _ hwf)

theorem HostSys.endSession_ended {h : HostSys} (hwf : Memory.wf (fun _ => Part.reset) h.parts = true) (p : Nat) :
    ((h.endSession p).part p).holder = none ∧ (h.part p).Ended ((h.endSession p).part p) := by
  obtain ⟨hsession, hcompl, hirq, hrings, hfr, hrpt⟩ := HostSys.sessionReset_ended hwf p
  rw [HostSys.endSession_part hwf]
  exact ⟨rfl, hsession, hcompl, hirq, hrings, hfr, hrpt⟩

theorem HostSys.sessionReset_other (h : HostSys) {p q : Nat} (hq : q ≠ p) : (h.sessionReset p).part q = h.part q := h.part_modPart_other _ hq

theorem HostSys.endSession_other (h : HostSys) {p q : Nat} (hq : q ≠ p) : (h.endSession p).part q = h.part q :=
  (HostSys.part_modPart_other _ _ hq).trans (h.sessionReset_other hq)

theorem HostSys.flr_holder {h : HostSys} {p : Nat} (hholder : (h.part p).holder = some 0) : h.flr p = (h.endSession p).setBme p false :=
  congrArg (fun k => HostSys.setBme k p false) (if_pos hholder)

theorem HostSys.flr_free {h : HostSys} {p : Nat} (hholder : (h.part p).holder ≠ some 0) : h.flr p = (h.sessionReset p).setBme p false :=
  congrArg (fun k => HostSys.setBme k p false) (if_neg hholder)

/-- What FLR leaves of the host block beside its partition. -/
theorem HostSys.flr_frame (h : HostSys) (p : Nat) : (∀ q, q ≠ p → (h.flr p).part q = h.part q) ∧ (h.flr p).pol = h.pol ∧ (h.flr p).rep = h.rep ∧
    (h.flr p).outs = h.outs ∧ ∀ q, (h.flr p).pcie.bme.testBit q = if q = p then false else h.pcie.bme.testBit q := by
  by_cases hholder : (h.part p).holder = some 0
  · rw [HostSys.flr_holder hholder]
    exact ⟨fun _ hq => h.endSession_other hq, rfl, rfl, rfl, HostSys.setBme_bit _ p false⟩
  · rw [HostSys.flr_free hholder]
    exact ⟨fun _ hq => h.sessionReset_other hq, rfl, rfl, rfl, HostSys.setBme_bit _ p false⟩

theorem completes_flr {s : State} {p : Nat} (hwf : s.unitsWf = true) (hp : p < 4) (hread : s.readable = true) :
    Completes (.flr p) s [.host] fun t => (∀ q, q ≠ p → t.host.part q = s.host.part q) ∧ t.host.pol = s.host.pol ∧
      t.host.pcie.bme.testBit p = false ∧ (∀ q, q ≠ p → t.host.pcie.bme.testBit q = s.host.pcie.bme.testBit q) ∧
      ((s.host.part p).holder = some 0 → (t.host.part p).holder = none ∧ (s.host.part p).Ended (t.host.part p)) ∧
      ((s.host.part p).holder ≠ some 0 → t.host.part p = (s.host.sessionReset p).part p) := by
  obtain ⟨hother, hpol, hrep, houts, hbit⟩ := s.host.flr_frame p
  refine ⟨_, done_on (by simp [Instr.wf, hp]) hread, ⟨hother, hpol, (hbit p).trans (if_pos rfl), fun q hq => (hbit q).trans (if_neg hq), fun hholder => ?_,
    fun hholder => ?_⟩, onlyChanges_withHost_silent s _ hrep houts⟩
  · have hended := HostSys.endSession_ended (State.unitsWf_parts hwf) p
    have hpart : (s.host.flr p).part p = (s.host.endSession p).part p := by rw [HostSys.flr_holder hholder]; rfl
    rw [← hpart] at hended
    exact hended
  · exact (congrArg (fun h => HostSys.part h p) (HostSys.flr_free hholder) :)

/-! PERST_N -/

/-- R420: PERST_N reaches the session of partition `n`. -/
def HostSys.perstTurn (h : HostSys) (n : Nat) : HostSys := if (h.part n).holder = some 0 then h.endSession n else h

theorem HostSys.perstTurn_frame {h : HostSys} (hwf : Memory.wf (fun _ => Part.reset) h.parts = true) (n : Nat) :
    Memory.wf (fun _ => Part.reset) (h.perstTurn n).parts = true ∧ (∀ q, q ≠ n → (h.perstTurn n).part q = h.part q) ∧
      (h.perstTurn n).pol = h.pol ∧ (h.perstTurn n).rep = h.rep ∧ (h.perstTurn n).outs = h.outs := by
  rw [HostSys.perstTurn]
  split
  · exact ⟨Memory.wf_set _ _ _ _ (Memory.wf_set _ _ _ _ hwf), fun _ hq => h.endSession_other hq, rfl, rfl, rfl⟩
  · exact ⟨hwf, fun _ _ => rfl, rfl, rfl, rfl⟩

theorem HostSys.perstTurn_part {h : HostSys} (hwf : Memory.wf (fun _ => Part.reset) h.parts = true) (n : Nat) :
    ((h.part n).holder = some 0 → ((h.perstTurn n).part n).holder = none ∧ (h.part n).Ended ((h.perstTurn n).part n)) ∧
      ((h.part n).holder ≠ some 0 → (h.perstTurn n).part n = h.part n) := by
  rw [HostSys.perstTurn]
  refine ⟨fun hholder => ?_, fun hholder => by rw [if_neg hholder]⟩
  rw [if_pos hholder]
  exact HostSys.endSession_ended hwf n

/-- Every partition has its own turn. -/
theorem HostSys.perstTurns {l : List Nat} (hl : l.Nodup) {h : HostSys} (hwf : Memory.wf (fun _ => Part.reset) h.parts = true) :
    let h' := l.foldl HostSys.perstTurn h
    h'.pol = h.pol ∧ h'.rep = h.rep ∧ h'.outs = h.outs ∧ (∀ q, q ∉ l → h'.part q = h.part q) ∧
      ∀ q, q ∈ l → ((h.part q).holder = some 0 → (h'.part q).holder = none ∧ (h.part q).Ended (h'.part q)) ∧
        ((h.part q).holder ≠ some 0 → h'.part q = h.part q) := by
  induction l generalizing h with
  | nil => exact ⟨rfl, rfl, rfl, fun _ _ => rfl, fun _ h => absurd h List.not_mem_nil⟩
  | cons n l ih =>
    obtain ⟨hn, hrest⟩ := List.nodup_cons.mp hl
    obtain ⟨hwf', hother, hpol, hrep, houts⟩ := HostSys.perstTurn_frame hwf n
    obtain ⟨ipol, irep, iouts, iout, iin⟩ := ih hrest hwf'
    refine ⟨ipol.trans hpol, irep.trans hrep, iouts.trans houts, fun q hq => ?_, fun q hq => ?_⟩
    · exact (iout q fun h => hq (List.mem_cons_of_mem _ h)).trans (hother q fun h => hq (h ▸ List.mem_cons_self))
    · obtain rfl | hq := List.mem_cons.mp hq
      · rw [List.foldl_cons, iout q hn]
        exact HostSys.perstTurn_part hwf q
      · have hturn := iin q hq
        rw [hother q fun h => hn (h ▸ hq)] at hturn
        exact hturn

theorem completes_perst {s : State} {width speed : Nat} (hwf : s.unitsWf = true) (hwidth : width ∈ [0, 1, 2, 4]) (hspeed : speed ≤ 4)
    (hrun : s.power.phase = .run) : Completes (.perstN width speed) s [.host, .power] fun t =>
      t.host.pol = s.host.pol ∧ t.host.pcie = ⟨0, 0, width, speed⟩ ∧ t.power = { s.power with wakeOut := false } ∧
      ∀ p, p < 4 → ((s.host.part p).holder = some 0 → (t.host.part p).holder = none ∧ (s.host.part p).Ended (t.host.part p)) ∧
        ((s.host.part p).holder ≠ some 0 → t.host.part p = s.host.part p) := by
  have hwake : s.wake 2 = s := by
    unfold State.wake
    simp only [hrun]
  let u := (s.withHost fun h => h.perst width speed).withPower fun p => { p with wakeOut := false }
  have hexec : exec (.perstN width speed) s = .next u.settle := by
    refine (done_on (by simpa [Instr.wf, hspeed, or_assoc] using hwidth) (by simp [State.powered, hrun])).trans ?_
    rw [hwake]
  have hperst : s.host.perst width speed = { (List.range 4).foldl HostSys.perstTurn s.host with pcie := ⟨0, 0, width, speed⟩ } := rfl
  have hhost : u.host = s.host.perst width speed := rfl
  obtain ⟨hpol, hrep, houts, -, hpart⟩ := HostSys.perstTurns (l := List.range 4) (by decide) (State.unitsWf_parts hwf)
  generalize (List.range 4).foldl HostSys.perstTurn s.host = h' at hperst hpol hrep houts hpart
  have hwithin : s.Within [.host, .power] u := (s.within_host _).mono.trans (State.within_power _ _).mono
  refine ⟨_, hexec, ⟨?_, ?_, rfl, fun p hp => ?_⟩, hwithin.settle (fun _ => ?_) fun _ => ⟨?_, rfl, rfl⟩⟩
  · rw [State.settle_host, hhost, hperst]
    exact hpol
  · rw [State.settle_host, hhost, hperst]
  · have hsame : u.settle.host.part p = h'.part p := by
      rw [State.settle_host, hhost, hperst]
      rfl
    rw [hsame]
    exact hpart p (List.mem_range.mpr hp)
  · refine State.unitReports_withHost s (fun h => h.perst width speed) ?_
    rw [hperst]
    exact hrep
  · rw [hhost, hperst]
    exact houts

/-! ### The obligation (R392, R405, R411 to R417, R420, R467) -/

/-- Settles O52: each clause is what one command leaves of the partition, or of the intake, that it names. -/
theorem dmaAndEndpointCommands : Obligations.DmaAndEndpointCommands := by
  unfold Obligations.DmaAndEndpointCommands
  dsimp only
  refine ⟨fun s p d hp hup => ⟨fun hnone hd => completes_commandRead_none hp hup hnone hd,
      fun n e hreading hentry hlen => completes_commandRead hp hup hreading hentry hlen⟩,
    fun s p hwf hsq hp hup i hi => ⟨fun hnone => completes_fetchFails_none hp hup hi hnone,
      fun r hring => completes_fetchFails hwf hsq hp hup hi hring⟩,
    fun s p k b rest hwf htaps hp hk hup hreads i hi => completes_playFails hwf htaps hp hk hup hreads hi,
    fun s p k f0 lim rest nd bs hwf htaps hp hk hup hreads hnode hlen => completes_playBlock hwf htaps hp hk hup hreads hnode hlen,
    fun s p k hwf htaps hquiet hp hk hup => ⟨fun hnone => completes_recordBlock_none hp hk hup hnone,
      fun f1 bs rest hdone hreach => completes_recordBlock hwf htaps hquiet hp hk hup hdone hreach⟩,
    fun s p j hwf hquiet hp hup => ⟨fun hnone => completes_meterEnd_none hp hup hnone, fun m hsome => ?_⟩,
    fun s p on hwf hp hread => ?_, fun s p hwf hp hread => ?_, fun s width speed hwf hwidth hspeed hrun => ?_⟩
  · obtain ⟨t, hnext, ⟨hother, hmeters, hout⟩, honly⟩ := completes_meterEnd hwf hquiet hp hup hsome
    refine ⟨t, hnext, ⟨hother, hmeters, fun hen hspace hbme hn => ?_⟩, honly⟩
    obtain ⟨u, hu⟩ := hout hen hspace hbme hn
    refine ⟨_, hu, flatMap_range_length (fun c => m.channel_length s.ns c (u c)) _, fun c hc => ?_⟩
    obtain ⟨hvalue, hcount, htime⟩ := m.record_slices s.ns u hc
    exact ⟨hcount, htime, fun hkind => hvalue.trans (by rw [Meter.value_peak hkind])⟩
  · obtain ⟨t, hnext, ⟨hparts, hpart, hsent, hxram, hbanks, hon, hbits, hsetter, hlength, hentry⟩, honly⟩ := completes_busMaster on hwf hp hread
    refine ⟨t, hnext, ⟨hparts, hpart, hsent, hxram, hbanks, hon, hbits, hsetter, hlength, fun n e hget => ?_⟩, honly⟩
    obtain ⟨hidle, hissued⟩ := hentry n e hget
    exact ⟨hidle, fun hpart hop hreads hwait hfail hdata hlen haddr => hissued hpart hop ⟨hreads, hwait, hfail, hdata, hlen, haddr⟩⟩
  · obtain ⟨t, hnext, ⟨hother, hpol, hoff, hbits, hended, hfree⟩, honly⟩ := completes_flr hwf hp hread
    refine ⟨t, hnext, ⟨hother, hpol, hoff, hbits, fun hholder => ?_, hfree⟩, honly⟩
    obtain ⟨hnone, hsession, hcompl, hirq, hrings, hfr, hrpt⟩ := hended hholder
    exact ⟨hnone, hsession, hcompl, hirq, hrings, hfr, hrpt⟩
  · obtain ⟨t, hnext, ⟨hpol, hpcie, hpower, hparts⟩, honly⟩ := completes_perst hwf hwidth hspeed hrun
    refine ⟨t, hnext, ⟨hpol, hpcie, hpower, fun p hp => ⟨fun hholder => ?_, (hparts p hp).2⟩⟩, honly⟩
    obtain ⟨hnone, hsession, hcompl, hirq, hrings, hfr, hrpt⟩ := (hparts p hp).1 hholder
    exact ⟨hnone, hsession, hcompl, hirq, hrings, hfr, hrpt⟩

end Sys2Proof.Machine

/-!
SUPPORT. Flash operations, and a command of P0 at the front of intake (R399, R407, R412).
-/

namespace Sys2Proof

/-- A cleared range reads as unlisted. -/
theorem Memory.get_clearRun {α : Type} (d : Nat → α) (m : Memory α) (a n i : Nat) :
    Memory.get d (Memory.clearRun m a n) i = if a ≤ i ∧ i < a + n then d i else Memory.get d m i := by
  have hkeep : ∀ e : Nat × α, (decide (e.1 < a) || decide (a + n ≤ e.1)) = !decide (a ≤ e.1 ∧ e.1 < a + n) := fun e => by
    by_cases h : a ≤ e.1 ∧ e.1 < a + n
    · simp [h]
    · simp only [h, decide_false, Bool.not_false, Bool.or_eq_true, decide_eq_true_eq]
      omega
  induction m with
  | nil => exact (ite_self _).symm
  | cons e m ih =>
    obtain ⟨k, v⟩ := e
    rw [Memory.clearRun, List.filter_cons, hkeep]
    change Memory.get d (if _ then (k, v) :: Memory.clearRun m a n else Memory.clearRun m a n) i = _
    by_cases hk : k = i
    · subst hk
      by_cases hin : a ≤ k ∧ k < a + n
      · rw [if_neg (by simp [hin]), ih, if_pos hin, if_pos hin]
      · rw [if_pos (by simp [hin]), if_neg hin]
        simp [Memory.get]
    · rw [Memory.get, if_neg hk]
      split
      · rw [Memory.get, if_neg hk, ih]
      · exact ih

end Sys2Proof

namespace Sys2Proof.Machine

/-! ### Flash (R451, R457) -/

theorem Boot.erase_get (b : Boot) (a n i : Nat) :
    Memory.get erased (b.erase a n).flash i = if a ≤ i ∧ i < a + n then 0xFF else Memory.get erased b.flash i :=
  Memory.get_clearRun erased b.flash a n i

/-- Programming clears bits. -/
theorem Boot.program_get {b : Boot} (hwf : Memory.wf erased b.flash = true) (a : Nat) (bs : List Byte) (i : Nat) :
    Memory.get erased (b.program a bs).flash i =
      if a ≤ i ∧ i < a + bs.length then bs.getD (i - a) 0 &&& Memory.get erased b.flash i else Memory.get erased b.flash i := by
  have hread : (b.read a bs.length).length = bs.length := by simp [Boot.read, Memory.getRun]
  split
  · obtain ⟨k, rfl⟩ : ∃ k, i = a + k := ⟨i - a, by omega⟩
    have hk : k < bs.length := by omega
    refine Memory.get_setRun_at erased b.flash a _ hwf ?_
    have hold : (b.read a bs.length)[k]? = some (Memory.get erased b.flash (a + k)) := by simp [Boot.read, Memory.getRun, hk]
    rw [Nat.add_sub_cancel_left, List.getElem?_map, List.getElem?_zip_eq_some (z := (bs[k], _)) |>.mpr ⟨List.getElem?_eq_getElem hk, hold⟩]
    simp [hk]
  · refine Memory.get_setRun_other erased b.flash a _ ?_
    rw [List.length_map, List.length_zip, hread]
    omega

theorem Boot.addRecord_at (b : Boot) (r : Ledger) : (b.addRecord r).at_ = b.at_ :=
  foldl_keeps Boot.at_ _ (fun b c => by split <;> rfl) _ b

theorem Boot.advance_at (b : Boot) (slot n : Nat) : (b.advance slot n).at_ = b.at_ :=
  foldl_keeps Boot.at_ _ (fun b c => by split <;> rfl) _ b

theorem Boot.appendRec_at (b : Boot) (s : Nat) (r : KRec) : (b.appendRec s r).1.at_ = b.at_ := by
  unfold Boot.appendRec
  dsimp only
  split <;> rfl

theorem Boot.writeTxn_at (b : Boot) (rs : List (Nat × Bool × List Byte)) : (b.writeTxn rs).at_ = b.at_ :=
  foldl_keeps (fun w : Boot × Nat => w.1.at_) _ (fun w r => w.1.appendRec_at w.2 r) _ (b, lastSector b.journal)

theorem Boot.reclaim_at (n : Nat) (b : Boot) : (Boot.reclaim n b).at_ = b.at_ := by
  induction n generalizing b with
  | zero => rfl
  | succ n ih =>
    rw [Boot.reclaim]
    split
    · split
      · rfl
      · refine (ih _).trans ?_
        change (if _ then b else b.writeTxn _ : Boot).at_ = b.at_
        split
        · rfl
        · exact b.writeTxn_at _
    · rfl

theorem Boot.del_at (b : Boot) (key : Nat) : (b.del key).at_ = b.at_ := (Boot.writeTxn_at _ _).trans (Boot.reclaim_at _ b)

theorem Boot.put_at {b c : Boot} {key : Nat} {v : List Byte} (h : b.put key v = some c) : c.at_ = b.at_ := by
  rw [Boot.put] at h
  split at h
  · cases h
  · obtain rfl := Option.some.inj h
    exact (Boot.writeTxn_at _ _).trans (Boot.reclaim_at _ b)

theorem Boot.storeKey_at {b c : Boot} {p : Nat} {k iv : List Byte} (h : b.storeKey p k iv = some c) : c.at_ = b.at_ := by
  rw [Boot.storeKey] at h
  split at h
  · exact Boot.put_at h
  · cases h

/-! ### The command at the front of intake -/

/-- Command `op` is entry `e` at the front of intake, and its data is there or failed. -/
structure State.Front (s : State) (op : Nat) (e : Entry) : Prop where
  wf : s.unitsWf = true
  awake : s.awake = true
  s2 : s.s2Runs = true
  builds : s.setter.builds = []
  head : s.setter.intake.head? = some e
  op : e.op = op
  data : e.reads = true → e.fail = true ∨ e.data.isSome = true

theorem State.Front.intake {s : State} {op : Nat} {e : Entry} (h : s.Front op e) : ∃ l, s.setter.intake = e :: l := by
  have hhead := h.head
  cases hl : s.setter.intake with
  | nil => simp [hl] at hhead
  | cons f l => exact ⟨l, by simpa [hl] using hhead⟩

theorem State.Front.ready {s : State} {op : Nat} {e : Entry} (h : s.Front op e) : s.ready op = true := by
  obtain ⟨l, hl⟩ := h.intake
  have hdata := h.data
  rw [State.ready, hl]
  cases hreads : e.reads <;> simp_all [h.awake, h.s2, h.builds, h.op]

/-- P0 may perform its commands. -/
theorem State.Front.perform {s : State} {op : Nat} {e : Entry} (h : s.Front op e) (hpart : e.part = 0) (hfail : e.fail = false)
    (f : State → Entry → State) : s.perform true f = f s.popIntake e := by
  obtain ⟨l, hl⟩ := h.intake
  rw [State.perform, hl]
  dsimp only
  rw [if_neg (by simp [hpart]), if_neg (by simp [hfail])]

theorem State.Front.perform_refused {s : State} {op : Nat} {e : Entry} (h : s.Front op e) (hrefused : e.part ≠ 0 ∨ e.fail = true)
    (f : State → Entry → State) : s.perform true f = s.popIntake.completeWith e (if e.part ≠ 0 then 0x41 else 0x42) := by
  obtain ⟨l, hl⟩ := h.intake
  rw [State.perform, hl]
  dsimp only
  by_cases hpart : e.part = 0
  · rw [if_neg (by simp [hpart]), if_pos (hrefused.resolve_left (by simp [hpart])), if_neg (by simp [hpart])]
  · rw [if_pos ⟨rfl, hpart⟩, if_pos hpart]

/-! ### Its completion -/

/-- The front entry has left intake and completion `c` waits for its partition, where the session that gave the command lasts. -/
def State.Answers (s t : State) (e : Entry) (c : Compl) : Prop :=
  t.setter.intake = s.setter.intake.drop 1 ∧ (∀ q, q ≠ e.part → t.host.part q = s.host.part q) ∧
    (t.host.part e.part).compl = (s.host.part e.part).compl ++ (if (s.host.part e.part).session = e.session then [c] else [])

/-- The completion of a command that ends with a status alone. -/
def State.ending (s : State) (e : Entry) (st : Nat) : Compl := { complOf e st with epoch := (s.setter.part e.part).epoch }

/-- A partition to which completion `c` of entry `e` has come. -/
def Part.answered (q : Part) (e : Entry) (c : Compl) : Part := (if e.op = 1 then { q with lastTag := c.tag } else q).posted e.session c

theorem State.complete_eq (s : State) (e : Entry) (c : Compl) : s.complete e c = s.withHost fun h => h.modPart e.part fun q => q.answered e c := rfl

theorem Part.answered_compl (q : Part) (e : Entry) (c : Compl) :
    (q.answered e c).compl = q.compl ++ if q.session = e.session then [c] else [] := by
  have hsame : (if e.op = 1 then { q with lastTag := c.tag } else q).session = q.session ∧
      (if e.op = 1 then { q with lastTag := c.tag } else q).compl = q.compl := by split <;> exact ⟨rfl, rfl⟩
  obtain ⟨hsession, hcompl⟩ := hsame
  rw [Part.answered, Part.posted, hsession]
  split
  · exact congrArg (· ++ [c]) hcompl
  · exact hcompl.trans (List.append_nil _).symm

theorem State.complete_answers {s u : State} {e : Entry} (hwf : s.unitsWf = true) (hsetter : u.setter = s.popIntake.setter)
    (hparts : u.host.parts = s.host.parts) (c : Compl) : s.Answers (u.complete e c).settle e c := by
  have hpart : ∀ q, u.host.part q = s.host.part q := fun q => congrArg (fun m => Memory.get (fun _ => Part.reset) m q) hparts
  have hself : (u.complete e c).settle.host.part e.part = (s.host.part e.part).answered e c := by
    rw [← hpart]
    exact HostSys.part_modPart_same u.host e.part (fun q => q.answered e c) (hparts ▸ State.unitsWf_parts hwf)
  refine ⟨(congrArg SetterSys.intake hsetter :), fun q hq => ?_, by rw [hself, Part.answered_compl]⟩
  rw [← hpart]
  exact u.host.part_modPart_other (fun q => q.answered e c) hq

/-- The command at the front changes `ps`, its partition's completions and intake. -/
theorem completes_answer {i : Instr} {s u : State} {e : Entry} {c : Compl} {ps : List Piece} (hwf : s.unitsWf = true)
    (hexec : exec i s = .next (u.complete e c).settle) (hwithin : s.popIntake.Within (.host :: ps) u) (hsetter : u.setter = s.popIntake.setter)
    (hparts : u.host.parts = s.host.parts) (hrep : u.unitReports = s.unitReports)
    (hout : .out ∉ ps → u.host.outs = s.host.outs ∧ u.txOn = s.txOn ∧ u.net.sent = s.net.sent) :
    Completes i s (.host :: .setter :: ps) fun t => s.Answers t e c ∧ t = (u.complete e c).settle := by
  have hall : s.Within (.host :: .setter :: ps) (u.complete e c) :=
    ((s.within_setter _).mono (by simp)).trans ((hwithin.mono (by simp +contextual)).trans ((u.within_host _).mono (by simp)))
  exact ⟨_, hexec, ⟨State.complete_answers hwf hsetter hparts c, rfl⟩,
    hall.settle (fun _ => (State.unitReports_withHost u _ rfl).trans hrep) fun h => hout (by simp_all)⟩

section Ending

variable {i : Instr} {s : State} {e : Entry} {f : State → Entry → State} {op : Nat} {b : Boot} {st : Nat}

/-- Completion alone. -/
theorem completes_ending (hwf : s.unitsWf = true) (hexec : exec i s = .next (s.popIntake.completeWith e st).settle) :
    Completes i s [.host, .setter] fun t => s.Answers t e (s.ending e st) ∧ t.boot = s.boot := by
  obtain ⟨t, hnext, ⟨hans, rfl⟩, honly⟩ := completes_answer (ps := []) hwf hexec (.refl _ _) rfl rfl rfl fun _ => ⟨rfl, rfl, rfl⟩
  exact ⟨_, hnext, ⟨hans, rfl⟩, honly⟩

/-- A change of the boot block and a completion `c`. -/
theorem completes_bootAnswer {c : Compl} (hwf : s.unitsWf = true)
    (hexec : exec i s = .next (({ s.popIntake with boot := b } : State).complete e c).settle) (hat : b.at_ = s.boot.at_) :
    Completes i s [.host, .setter, .boot] fun t => s.Answers t e c ∧ t.boot = b := by
  obtain ⟨t, hnext, ⟨hans, rfl⟩, honly⟩ := completes_answer (ps := [.boot]) hwf hexec (State.within_boot _ fun _ => b).mono rfl rfl rfl
    fun _ => ⟨rfl, State.txOn_congr hat rfl, rfl⟩
  exact ⟨_, hnext, ⟨hans, rfl⟩, honly⟩

/-- The same, of a command that also draws values that are left open. -/
theorem completes_bootAnswer_free {c : Compl} {n : Nat} (hwf : s.unitsWf = true)
    (hexec : exec i s = .next (({ (s.popIntake.take n).2 with boot := b } : State).complete e c).settle) (hat : b.at_ = s.boot.at_) :
    Completes i s [.host, .setter, .boot, .free] fun t => s.Answers t e c ∧ t.boot = b := by
  have hwithin : s.popIntake.Within [.host, .boot, .free] ({ (s.popIntake.take n).2 with boot := b } : State) :=
    (State.take_within _ n).mono.trans (State.within_boot _ fun _ => b).mono
  obtain ⟨t, hnext, ⟨hans, rfl⟩, honly⟩ := completes_answer hwf hexec hwithin rfl rfl rfl fun _ => ⟨rfl, State.txOn_congr hat rfl, rfl⟩
  exact ⟨_, hnext, ⟨hans, rfl⟩, honly⟩

/-- A command that draws open values and only completes. -/
theorem completes_ending_free {n : Nat} (hwf : s.unitsWf = true) (hexec : exec i s = .next ((s.popIntake.take n).2.completeWith e st).settle) :
    Completes i s [.host, .setter, .boot, .free] fun t => s.Answers t e (s.ending e st) ∧ t.boot = s.boot :=
  completes_bootAnswer_free (b := s.boot) (n := n) hwf hexec rfl

end Ending

end Sys2Proof.Machine

/-!
SUPPORT. The image, fuse and key commands of P0 (R399, R428, R444, R451, R453 to R458).
-/

namespace Sys2Proof.Machine

theorem State.Front.exec {i : Instr} {s : State} {op : Nat} {e : Entry} {f : State → Entry → State} (h : s.Front op e) (hpart : e.part = 0)
    (hfail : e.fail = false) (hdone : exec i s = .next (s.perform true f).settle) : exec i s = .next (f s.popIntake e).settle := by
  rw [hdone, h.perform hpart hfail]

/-! ### Commands that write flash, or answer that they cannot -/

/-- The end of a command whose outcome is a new boot block, or none and status `st`. -/
def State.landed (s : State) (e : Entry) (st : Nat) (b : Option Boot) : State :=
  match b with
  | some b => ({ s with boot := b } : State).completeWith e 0
  | none => s.completeWith e st

theorem State.imaged_eq (s : State) (e : Entry) (b : Option Boot) : s.imaged e b = s.landed e 0x50 b := by cases b <;> rfl

theorem State.stored_eq (s : State) (e : Entry) (b : Option Boot) : s.stored e b = s.landed e 0x54 b := by cases b <;> rfl

section Landed

variable {i : Instr} {s : State} {e : Entry} {st : Nat} {b : Option Boot}

theorem completes_landed (hwf : s.unitsWf = true) (hexec : exec i s = .next (s.popIntake.landed e st b).settle)
    (hat : ∀ c, b = some c → c.at_ = s.boot.at_) :
    Completes i s [.host, .setter, .boot] fun t =>
      (b = none → s.Answers t e (s.ending e st) ∧ t.boot = s.boot) ∧ ∀ c, b = some c → s.Answers t e (s.ending e 0) ∧ t.boot = c := by
  cases b with
  | none =>
    obtain ⟨t, hnext, hans, honly⟩ := completes_ending hwf hexec
    exact ⟨t, hnext, ⟨fun _ => hans, fun _ h => nomatch h⟩, honly.mono (by decide)⟩
  | some c =>
    obtain ⟨t, hnext, hans, honly⟩ := completes_bootAnswer hwf hexec (hat c rfl)
    exact ⟨t, hnext, ⟨fun h => (nomatch h), fun _ h => Option.some.inj h ▸ hans⟩, honly⟩

theorem completes_landed_free {n : Nat} (hwf : s.unitsWf = true) (hexec : exec i s = .next ((s.popIntake.take n).2.landed e st b).settle)
    (hat : ∀ c, b = some c → c.at_ = s.boot.at_) :
    Completes i s [.host, .setter, .boot, .free] fun t =>
      (b = none → s.Answers t e (s.ending e st) ∧ t.boot = s.boot) ∧ ∀ c, b = some c → s.Answers t e (s.ending e 0) ∧ t.boot = c := by
  cases b with
  | none =>
    obtain ⟨t, hnext, hans, honly⟩ := completes_ending_free hwf hexec
    exact ⟨t, hnext, ⟨fun _ => hans, fun _ h => nomatch h⟩, honly⟩
  | some c =>
    obtain ⟨t, hnext, hans, honly⟩ := completes_bootAnswer_free hwf hexec (hat c rfl)
    exact ⟨t, hnext, ⟨fun h => (nomatch h), fun _ h => Option.some.inj h ▸ hans⟩, honly⟩

end Landed

/-! ### Who may command (R399, R412) -/

/-- Each of these commands is P0's and acts through `perform`. -/
theorem p0Commands_perform : ∀ x ∈ [(Instr.imgBegin, 0x20), (.imgData, 0x21), (.imgFinish, 0x22), (.imgActivate, 0x23), (.ksPut, 0x26), (.ksDel, 0x27),
      (.earlyWrite, 0x28), (.hmExtend, 0x29), (.logRead, 0x2A), (.keySet, 0x2B)] ++
        [(true, true), (true, false), (false, true), (false, false)].flatMap (fun v => [(.rollbackRaise v.1 v.2, 0x24), (.lcAdvance v.1 v.2, 0x25)]),
    ∀ s : State, s.ready x.2 = true → (x.2 = 0x2A → s.canWrite = true) → ∃ f, exec x.1 s = .next (s.perform true f).settle := by
  rw [List.forall_mem_append]
  simp only [List.forall_mem_cons]
  refine ⟨⟨fun s h _ => ⟨_, done_on rfl h⟩, fun s h _ => ⟨_, done_on rfl h⟩, fun s h _ => ⟨_, done_on rfl h⟩, fun s h _ => ⟨_, done_on rfl h⟩,
    fun s h _ => ⟨_, done_on rfl h⟩, fun s h _ => ⟨_, done_on rfl h⟩, fun s h _ => ⟨_, done_on rfl h⟩, fun s h _ => ⟨_, done_on rfl h⟩,
    fun s h hw => ⟨_, done_on rfl (Bool.and_eq_true_iff.mpr ⟨h, hw trivial⟩)⟩, fun s h _ => ⟨_, done_on rfl h⟩, fun x hx => absurd hx List.not_mem_nil⟩,
    fun x hx s h _ => ?_⟩
  obtain ⟨v, -, hx⟩ := List.mem_flatMap.mp hx
  simp only [List.mem_cons, List.not_mem_nil, or_false] at hx
  obtain rfl | rfl := hx
  · exact ⟨_, done_on rfl h⟩
  · exact ⟨_, done_on rfl h⟩

theorem completes_refused {i : Instr} {s : State} {op : Nat} {e : Entry} {f : State → Entry → State} (h : s.Front op e)
    (hdone : exec i s = .next (s.perform true f).settle) (hrefused : e.part ≠ 0 ∨ e.fail = true) :
    Completes i s [.host, .setter] fun t => s.Answers t e (s.ending e (if e.part ≠ 0 then 0x41 else 0x42)) := by
  obtain ⟨t, hnext, ⟨hans, -⟩, honly⟩ := completes_ending (e := e) h.wf (hdone.trans (by rw [h.perform_refused hrefused]))
  exact ⟨t, hnext, hans, honly⟩

section Commands

variable {s : State} {e : Entry}

/-! ### Images (R451) -/

theorem completes_imgBegin (h : s.Front 0x20 e) (hpart : e.part = 0) (hfail : e.fail = false) :
    Completes .imgBegin s [.host, .setter, .boot] fun t => let n := e.arg 0x18 4
      (slotSize < n → s.Answers t e (s.ending e 0x43) ∧ t.boot = s.boot) ∧
      (n ≤ slotSize → s.boot.upd ≠ none → s.Answers t e (s.ending e 0x50) ∧ t.boot = s.boot) ∧
      (n ≤ slotSize → s.boot.upd = none → s.Answers t e (s.ending e 0) ∧
        t.boot = { s.boot.erase (slotBase s.boot.updateSlot) slotSize with upd := some ⟨s.boot.updateSlot, n, 0⟩ }) := by
  have hdone : exec .imgBegin s = .next (s.perform true fun s e =>
      if slotSize < e.arg 0x18 4 then s.completeWith e 0x43 else s.imaged e (s.boot.imgBegin (e.arg 0x18 4))).settle := done_on rfl h.ready
  have hexec : exec .imgBegin s = .next (if slotSize < e.arg 0x18 4 then s.popIntake.completeWith e 0x43
      else s.popIntake.imaged e (s.boot.imgBegin (e.arg 0x18 4))).settle := (h.exec hpart hfail hdone :)
  by_cases hlarge : slotSize < e.arg 0x18 4
  · rw [if_pos hlarge] at hexec
    obtain ⟨t, hnext, hans, honly⟩ := completes_ending h.wf hexec
    exact ⟨t, hnext, ⟨fun _ => hans, fun hn => absurd hn (by omega), fun hn => absurd hn (by omega)⟩, honly.mono (by decide)⟩
  · rw [if_neg hlarge, State.imaged_eq] at hexec
    have hbusy : s.boot.upd ≠ none → s.boot.imgBegin (e.arg 0x18 4) = none := fun hupd => by
      obtain ⟨u, hu⟩ := Option.ne_none_iff_exists'.mp hupd
      rw [Boot.imgBegin, hu]
    have hfree : s.boot.upd = none → s.boot.imgBegin (e.arg 0x18 4) =
        some { s.boot.erase (slotBase s.boot.updateSlot) slotSize with upd := some ⟨s.boot.updateSlot, e.arg 0x18 4, 0⟩ } := fun hupd => by
      rw [Boot.imgBegin, hupd]
    obtain ⟨t, hnext, ⟨hnone, hsome⟩, honly⟩ := completes_landed h.wf hexec fun c hc => by
      cases hupd : s.boot.upd with
      | some u => rw [hbusy (by simp [hupd])] at hc; cases hc
      | none => rw [hfree hupd] at hc; exact Option.some.inj hc ▸ rfl
    exact ⟨t, hnext, ⟨fun hn => absurd hn hlarge, fun _ hupd => hnone (hbusy hupd), fun _ hupd => hsome _ (hfree hupd)⟩, honly⟩

/-- R451: the next bytes of an image in turn. -/
def Boot.imgNext (b : Boot) (u : Update) (off : Nat) (bs : List Byte) : Boot :=
  { b.program (slotBase u.slot + off) bs with upd := some { u with written := u.written + bs.length } }

theorem completes_imgData (h : s.Front 0x21 e) (hpart : e.part = 0) (hfail : e.fail = false) :
    Completes .imgData s [.host, .setter, .boot] fun t => let off := e.arg 0x18 4
      (s.boot.upd = none → s.Answers t e (s.ending e 0x50) ∧ t.boot = s.boot) ∧ ∀ u, s.boot.upd = some u →
        (¬ (off = u.written ∧ u.written + e.bytes.length ≤ u.len) → s.Answers t e (s.ending e 0x50) ∧ t.boot = s.boot) ∧
        (off = u.written ∧ u.written + e.bytes.length ≤ u.len → s.Answers t e (s.ending e 0) ∧ t.boot = s.boot.imgNext u off e.bytes) := by
  have hdone : exec .imgData s = .next (s.perform true fun s e => s.imaged e (s.boot.imgData (e.arg 0x18 4) e.bytes)).settle := done_on rfl h.ready
  have hexec : exec .imgData s = .next (s.popIntake.imaged e (s.boot.imgData (e.arg 0x18 4) e.bytes)).settle := (h.exec hpart hfail hdone :)
  have hdata : s.boot.imgData (e.arg 0x18 4) e.bytes = s.boot.upd.bind fun u =>
      if e.arg 0x18 4 = u.written ∧ u.written + e.bytes.length ≤ u.len then some (s.boot.imgNext u (e.arg 0x18 4) e.bytes) else none := by
    rw [Boot.imgData]
    cases s.boot.upd <;> rfl
  rw [State.imaged_eq, hdata] at hexec
  obtain ⟨t, hnext, ⟨hnone, hsome⟩, honly⟩ := completes_landed h.wf hexec fun c hc => by
    obtain ⟨u, -, hc⟩ := Option.bind_eq_some_iff.mp hc
    obtain ⟨-, hc⟩ := Option.ite_none_right_eq_some.mp hc
    exact Option.some.inj hc ▸ rfl
  refine ⟨t, hnext, ⟨fun hupd => hnone (by rw [hupd]; rfl), fun u hupd => ⟨fun hturn => hnone ?_, fun hturn => hsome _ ?_⟩⟩, honly⟩
  · rw [hupd]
    exact if_neg hturn
  · rw [hupd]
    exact if_pos hturn

theorem Boot.advance_upd (b : Boot) (slot n : Nat) : (b.advance slot n).upd = b.upd :=
  foldl_keeps Boot.upd _ (fun b c => by split <;> rfl) _ b

/-- R451: record `r` of a finished image is written, and no update is under way. -/
def Boot.finishing (b : Boot) (r : Ledger) : Boot := { b.addRecord r with upd := none }

theorem Boot.finishing_at (b : Boot) (r : Ledger) : (b.finishing r).at_ = b.at_ := by
  simp only [Boot.finishing, Boot.addRecord_at]

theorem Boot.imgFinish_full {b : Boot} {u : Update} (hupd : b.upd = some u) (hfull : u.written = u.len) :
    ∃ r : Ledger, b.imgFinish = match (b.finishing r).imageFault u.slot with
      | some o => some (b.finishing r, some o)
      | none => some ((b.finishing r).advance u.slot 2, none) := by
  unfold Boot.imgFinish
  rw [hupd]
  dsimp only
  rw [if_pos hfull]
  generalize (Ledger.mk u.slot 1 (b.topSeq + 1) u.len _ 0) = r
  refine ⟨r, ?_⟩
  unfold Boot.finishing
  generalize ({ b.addRecord r with upd := none } : Boot) = c
  cases c.imageFault u.slot <;> rfl

/-- A finished image is judged, and no update is under way. -/
theorem Boot.imgFinish_done {b : Boot} {u : Update} (hupd : b.upd = some u) (hfull : u.written = u.len) :
    ∃ c o, b.imgFinish = some (c, o) ∧ c.upd = none ∧ c.at_ = b.at_ := by
  obtain ⟨r, hr⟩ := Boot.imgFinish_full hupd hfull
  rw [hr]
  split
  · exact ⟨_, _, rfl, rfl, b.finishing_at r⟩
  · exact ⟨_, _, rfl, Boot.advance_upd _ _ _, (Boot.advance_at _ _ _).trans (b.finishing_at r)⟩

theorem Boot.imgFinish_early {b : Boot} (hearly : ∀ u, b.upd = some u → u.written ≠ u.len) : b.imgFinish = none := by
  rw [Boot.imgFinish]
  split
  · exact if_neg (hearly _ ‹_›)
  · rfl

/-- R451: the outcome of IMG_FINISH. -/
def State.finished (s : State) (e : Entry) : Option (Boot × Option Nat) → State
  | none => s.completeWith e 0x50
  | some (b, none) => ({ s with boot := b } : State).completeWith e 0
  | some (b, some o) => ({ s with boot := b } : State).complete e { s.ending e 0x51 with errOff := o }

theorem completes_imgFinish (h : s.Front 0x22 e) (hpart : e.part = 0) (hfail : e.fail = false) :
    Completes .imgFinish s [.host, .setter, .boot] fun t =>
      ((∀ u, s.boot.upd = some u → u.written ≠ u.len) → s.Answers t e (s.ending e 0x50) ∧ t.boot = s.boot) ∧
      (∀ u, s.boot.upd = some u → u.written = u.len → t.boot.upd = none ∧ t.setter.intake = s.setter.intake.drop 1 ∧
        ∃ b o, s.boot.imgFinish = some (b, o) ∧ t.boot = b ∧ (o = none → s.Answers t e (s.ending e 0)) ∧
          (∀ off, o = some off → s.Answers t e { s.ending e 0x51 with errOff := off })) := by
  have hdone : exec .imgFinish s = .next (s.perform true fun s e => match s.boot.imgFinish with
      | none => s.completeWith e 0x50
      | some (b, none) => ({ s with boot := b } : State).completeWith e 0
      | some (b, some o) => ({ s with boot := b } : State).complete e
          { complOf e 0x51 with epoch := (s.setter.part e.part).epoch, errOff := o }).settle := done_on rfl h.ready
  have hexec : exec .imgFinish s = .next (s.popIntake.finished e s.boot.imgFinish).settle := (h.exec hpart hfail hdone :)
  by_cases hearly : ∀ u, s.boot.upd = some u → u.written ≠ u.len
  · rw [Boot.imgFinish_early hearly] at hexec
    obtain ⟨t, hnext, hans, honly⟩ := completes_ending h.wf hexec
    exact ⟨t, hnext, ⟨fun _ => hans, fun u hupd hfull => absurd hfull (hearly u hupd)⟩, honly.mono (by decide)⟩
  · obtain ⟨u, hupd, hfull⟩ : ∃ u, s.boot.upd = some u ∧ u.written = u.len := by simpa using hearly
    obtain ⟨b, o, hfinish, hbupd, hat⟩ := Boot.imgFinish_done hupd hfull
    rw [hfinish] at hexec
    cases o with
    | none =>
      obtain ⟨t, hnext, ⟨hans, hboot⟩, honly⟩ := completes_bootAnswer h.wf hexec hat
      exact ⟨t, hnext, ⟨fun hno => absurd hno hearly, fun _ _ _ => ⟨hboot ▸ hbupd, hans.1, b, none, hfinish, hboot, fun _ => hans, fun _ h => nomatch h⟩⟩, honly⟩
    | some off =>
      obtain ⟨t, hnext, ⟨hans, hboot⟩, honly⟩ := completes_bootAnswer h.wf hexec hat
      exact ⟨t, hnext, ⟨fun hno => absurd hno hearly, fun _ _ _ => ⟨hboot ▸ hbupd, hans.1, b, some off, hfinish, hboot, fun h => (nomatch h),
        fun _ h => Option.some.inj h ▸ hans⟩⟩, honly⟩

/-- R451: the slot that was updated is in turn, and the one that booted is not. -/
def Boot.activated (b : Boot) : Boot := if (b.advance b.updateSlot 3).source < 2 then (b.advance b.updateSlot 3).advance (b.advance b.updateSlot 3).source 4
  else b.advance b.updateSlot 3

theorem completes_imgActivate (h : s.Front 0x23 e) (hpart : e.part = 0) (hfail : e.fail = false) :
    Completes .imgActivate s [.host, .setter, .boot] fun t =>
      let ok := s.boot.upd = none ∧ ∃ r, s.boot.current s.boot.updateSlot = some r ∧ r.state = 2
      (¬ ok → s.Answers t e (s.ending e 0x50) ∧ t.boot = s.boot) ∧ (ok → s.Answers t e (s.ending e 0) ∧ t.boot = s.boot.activated) := by
  have hdone : exec .imgActivate s = .next (s.perform true fun s e => s.imaged e s.boot.imgActivate).settle := done_on rfl h.ready
  have hexec : exec .imgActivate s = .next (s.popIntake.imaged e s.boot.imgActivate).settle := (h.exec hpart hfail hdone :)
  have hact : s.boot.imgActivate = (s.boot.current s.boot.updateSlot).bind fun r =>
      if r.state = 2 ∧ s.boot.upd = none then some s.boot.activated else none := by
    unfold Boot.imgActivate Boot.activated
    dsimp only
    cases s.boot.current s.boot.updateSlot <;> rfl
  rw [State.imaged_eq, hact] at hexec
  obtain ⟨t, hnext, ⟨hnone, hsome⟩, honly⟩ := completes_landed h.wf hexec fun c hc => by
    obtain ⟨r, -, hc⟩ := Option.bind_eq_some_iff.mp hc
    obtain ⟨-, hc⟩ := Option.ite_none_right_eq_some.mp hc
    obtain rfl := Option.some.inj hc
    rw [Boot.activated]
    split
    · exact (Boot.advance_at _ _ _).trans (Boot.advance_at _ _ _)
    · exact Boot.advance_at _ _ _
  refine ⟨t, hnext, ⟨fun hno => hnone ?_, fun ⟨hupd, r, hr, hstate⟩ => hsome _ ?_⟩, honly⟩
  · refine Option.bind_eq_none_iff.mpr fun r hr => if_neg fun hturn => hno ⟨hturn.2, r, hr, hturn.1⟩
  · rw [hr]
    exact if_pos ⟨hstate, hupd⟩

end Commands

end Sys2Proof.Machine

/-!
SUPPORT. The fuse, Keepsake, Hallmark and key commands of P0 (R399, R428, R444, R453 to R458), and the obligation on P0's commands.
-/

namespace Sys2Proof.Machine

section Commands

variable {s : State} {e : Entry}

/-! ### Fuses (R453, R455) -/

/-- The boot block with its OTP replaced. -/
def Boot.withOtp (b : Boot) (o : Otp) : Boot := { b with otp := o }

/-- Fuses blown from `old` towards `want`, which of them is open. -/
theorem partlyBlown_testBit (old want x i : Nat) (hold : ∀ j, old.testBit j = true → want.testBit j = true) :
    (old.testBit i = true → (old ||| (want &&& x)).testBit i = true) ∧ ((old ||| (want &&& x)).testBit i = true → want.testBit i = true) := by
  rw [Nat.testBit_or, Nat.testBit_and]
  refine ⟨fun h => by rw [h, Bool.true_or], fun h => ?_⟩
  obtain h | h := Bool.or_eq_true_iff.mp h
  · exact hold i h
  · exact (Bool.and_eq_true_iff.mp h).1

theorem testBit_or_left (a b : Nat) : ∀ j, a.testBit j = true → (a ||| b).testBit j = true := fun j h => by rw [Nat.testBit_or, h, Bool.true_or]

theorem completes_rollbackRaise (votp readback : Bool) (h : s.Front 0x24 e) (hpart : e.part = 0) (hfail : e.fail = false) :
    Completes (.rollbackRaise votp readback) s [.host, .setter, .boot, .free] fun t =>
      let o := s.boot.otp
      let want := o.fuses ||| (2 ^ s.boot.svn - 1)
      (votp = false → s.Answers t e (s.ending e 0x53) ∧ t.boot = s.boot) ∧
      (votp = true → readback = true → t.boot = s.boot.withOtp { o with fuses := want } ∧ s.Answers t e { s.ending e 0 with need := t.boot.otp.count }) ∧
      (votp = true → readback = false → ∃ x, t.boot = s.boot.withOtp { o with fuses := o.fuses ||| (want &&& x) } ∧ s.Answers t e (s.ending e 0x56)) := by
  have hdone : exec (.rollbackRaise votp readback) s = .next (s.perform true fun s e => s.rollback e votp readback).settle := done_on rfl h.ready
  have hexec : exec (.rollbackRaise votp readback) s = .next (s.popIntake.rollback e votp readback).settle := (h.exec hpart hfail hdone :)
  cases votp with
  | false =>
    obtain ⟨t, hnext, hans, honly⟩ := completes_ending h.wf hexec
    exact ⟨t, hnext, ⟨fun _ => hans, fun h => (nomatch h), fun h => nomatch h⟩, honly.mono (by decide)⟩
  | true =>
    cases readback with
    | true =>
      obtain ⟨t, hnext, ⟨hans, hboot⟩, honly⟩ := completes_bootAnswer (b := s.boot.withOtp (s.boot.otp.raise s.boot.svn)) h.wf hexec rfl
      exact ⟨t, hnext, ⟨fun h => (nomatch h), fun _ _ => ⟨hboot, hboot ▸ hans⟩, fun _ h => nomatch h⟩, honly.mono (by decide)⟩
    | false =>
      obtain ⟨t, hnext, ⟨hans, hboot⟩, honly⟩ := completes_bootAnswer_free (n := 1)
        (b := s.boot.withOtp { s.boot.otp with fuses := s.boot.otp.fuses ||| ((s.boot.otp.raise s.boot.svn).fuses &&& Config.freeNat s.free) }) h.wf hexec rfl
      exact ⟨t, hnext, ⟨fun h => (nomatch h), fun _ h => (nomatch h), fun _ _ => ⟨_, hboot, hans⟩⟩, honly⟩

/-- R455: a next life-cycle pair that the command may not name. -/
def State.farState (s : State) (e : Entry) : Prop := e.arg 0x18 1 ≠ s.boot.otp.state + 1 ∨ 4 ≤ s.boot.otp.state

/-- R455, R454: the life cycle has advanced, the Locket is wiped and the device restarts. -/
def State.advanced (s : State) : State := ((s.withBoot fun b => { b with otp := s.boot.otp.advance }).withMem fun m => m.wipe false).restart false

theorem State.restart_pieces (s : State) : (s.restart false).mem = s.mem.restart ∧ (s.restart false).boot = s.boot.restart ∧
    (s.restart false).setter = SetterSys.reset ∧ (s.restart false).pending = s.pending :=
  ⟨(State.pinConfig_within _).same .mem, (State.pinConfig_within _).same .boot, (State.pinConfig_within _).same .setter, (State.pinConfig_within _).1⟩

theorem State.advanced_pieces (s : State) : s.advanced.boot.otp = s.boot.otp.advance ∧ s.advanced.mem.locket = [] ∧ s.advanced.mem.locked = true ∧
    s.advanced.boot.at_ = .wait ∧ s.advanced.setter.intake = [] ∧ s.advanced.clasp.stage = s.clasp.stage ∧ s.advanced.pending = s.pending := by
  obtain ⟨hmem, hboot, hsetter, hpending⟩ :=
    State.restart_pieces ((s.withBoot fun b => { b with otp := s.boot.otp.advance }).withMem fun m => m.wipe false)
  have hclasp : s.advanced.clasp = s.clasp.takeBack (fun _ => true) s.clk.crefLost := State.restart_clasp _ false
  refine ⟨congrArg Boot.otp hboot, congrArg MemSys.locket hmem, congrArg MemSys.locked hmem, congrArg Boot.at_ hboot, congrArg SetterSys.intake hsetter, ?_, hpending⟩
  rw [hclasp]
  rfl

theorem exec_lcAdvance (votp readback : Bool) (h : s.Front 0x25 e) (hpart : e.part = 0) (hfail : e.fail = false) :
    ∃ t, exec (.lcAdvance votp readback) s = .next t ∧ t.pending = s.pending ∧
      let o := s.boot.otp
      let same := OnlyChanges [.host, .setter, .boot, .free] s t
      (s.farState e → same ∧ s.Answers t e (s.ending e 0x52) ∧ t.boot = s.boot) ∧
      (¬ s.farState e → e.arg 0x1C 4 ≠ o.devId % 2 ^ 32 → same ∧ s.Answers t e (s.ending e 0x43) ∧ t.boot = s.boot) ∧
      (¬ s.farState e → e.arg 0x1C 4 = o.devId % 2 ^ 32 → votp = false → same ∧ s.Answers t e (s.ending e 0x53) ∧ t.boot = s.boot) ∧
      (¬ s.farState e → e.arg 0x1C 4 = o.devId % 2 ^ 32 → votp = true → readback = true → t = s.popIntake.advanced.settle) ∧
      (¬ s.farState e → e.arg 0x1C 4 = o.devId % 2 ^ 32 → votp = true → readback = false → same ∧ s.Answers t e (s.ending e 0x56) ∧
        ∃ x, t.boot = s.boot.withOtp { o with lc := o.lc ||| (o.advance.lc &&& x) }) := by
  have hdone : exec (.lcAdvance votp readback) s = .next (s.perform true fun s e => s.lcAdvance e votp readback).settle := done_on rfl h.ready
  have hexec : exec (.lcAdvance votp readback) s = .next (s.popIntake.lcAdvance e votp readback).settle := (h.exec hpart hfail hdone :)
  have hsub : ∀ {t : State}, OnlyChanges [.host, .setter] s t → OnlyChanges [.host, .setter, .boot, .free] s t := fun h => h.mono (by decide)
  rw [State.lcAdvance] at hexec
  dsimp only at hexec
  by_cases hfar : s.farState e
  · rw [if_pos (show e.arg 0x18 1 ≠ s.popIntake.boot.otp.state + 1 ∨ 4 ≤ s.popIntake.boot.otp.state from hfar)] at hexec
    obtain ⟨t, hnext, hans, honly⟩ := completes_ending h.wf hexec
    exact ⟨t, hnext, honly.1, fun _ => ⟨hsub honly, hans⟩, fun h => absurd hfar h, fun h => absurd hfar h, fun h => absurd hfar h, fun h => absurd hfar h⟩
  rw [if_neg (show ¬ (e.arg 0x18 1 ≠ s.popIntake.boot.otp.state + 1 ∨ 4 ≤ s.popIntake.boot.otp.state) from hfar)] at hexec
  by_cases hid : e.arg 0x1C 4 ≠ s.boot.otp.devId % 2 ^ 32
  · rw [if_pos (show e.arg 0x1C 4 ≠ s.popIntake.boot.otp.devId % 2 ^ 32 from hid)] at hexec
    obtain ⟨t, hnext, hans, honly⟩ := completes_ending h.wf hexec
    exact ⟨t, hnext, honly.1, fun h => absurd h hfar, fun _ _ => ⟨hsub honly, hans⟩, fun _ h => absurd h hid, fun _ h => absurd h hid, fun _ h => absurd h hid⟩
  rw [if_neg (show ¬ e.arg 0x1C 4 ≠ s.popIntake.boot.otp.devId % 2 ^ 32 from hid)] at hexec
  cases votp with
  | false =>
    obtain ⟨t, hnext, hans, honly⟩ := completes_ending h.wf hexec
    exact ⟨t, hnext, honly.1, fun h => absurd h hfar, fun _ h => absurd h hid, fun _ _ _ => ⟨hsub honly, hans⟩, fun _ _ h => (nomatch h),
      fun _ _ h => nomatch h⟩
  | true =>
    cases readback with
    | true =>
      exact ⟨_, hexec, (State.advanced_pieces s.popIntake).2.2.2.2.2.2, fun h => absurd h hfar, fun _ h => absurd h hid, fun _ _ h => (nomatch h),
        fun _ _ _ _ => rfl, fun _ _ _ h => nomatch h⟩
    | false =>
      obtain ⟨t, hnext, ⟨hans, hboot⟩, honly⟩ := completes_bootAnswer_free (n := 1)
        (b := s.boot.withOtp { s.boot.otp with lc := s.boot.otp.lc ||| (s.boot.otp.advance.lc &&& Config.freeNat s.free) }) h.wf hexec rfl
      exact ⟨t, hnext, honly.1, fun h => absurd h hfar, fun _ h => absurd h hid, fun _ _ h => (nomatch h), fun _ _ _ h => (nomatch h),
        fun _ _ _ _ => ⟨honly, hans, _, hboot⟩⟩

/-! ### Keepsake (R457, R458) -/

theorem hostKey_iff (k : Nat) : hostKey k = true ↔ 0x5000 ≤ k ∧ k < 0xF000 := by simp [hostKey]

theorem completes_ksPut (h : s.Front 0x26 e) (hpart : e.part = 0) (hfail : e.fail = false) :
    Completes .ksPut s [.host, .setter, .boot] fun t => let k := e.arg 0x18 2
      (hostKey k = false → s.Answers t e (s.ending e 0x55) ∧ t.boot = s.boot) ∧
      (hostKey k = true → 4064 < e.len → s.Answers t e (s.ending e 0x43) ∧ t.boot = s.boot) ∧
      (hostKey k = true → e.len ≤ 4064 → (s.boot.put k e.bytes = none → s.Answers t e (s.ending e 0x54) ∧ t.boot = s.boot) ∧
        ∀ b, s.boot.put k e.bytes = some b → s.Answers t e (s.ending e 0) ∧ t.boot = b) := by
  have hdone : exec .ksPut s = .next (s.perform true fun s e => if !hostKey (e.arg 0x18 2) then s.completeWith e 0x55
      else if 4064 < e.len then s.completeWith e 0x43 else s.stored e (s.boot.put (e.arg 0x18 2) e.bytes)).settle := done_on rfl h.ready
  have hexec : exec .ksPut s = .next (if !hostKey (e.arg 0x18 2) then s.popIntake.completeWith e 0x55
      else if 4064 < e.len then s.popIntake.completeWith e 0x43 else s.popIntake.stored e (s.boot.put (e.arg 0x18 2) e.bytes)).settle :=
    (h.exec hpart hfail hdone :)
  cases hkey : hostKey (e.arg 0x18 2) with
  | false =>
    rw [hkey, if_pos (by decide)] at hexec
    obtain ⟨t, hnext, hans, honly⟩ := completes_ending h.wf hexec
    exact ⟨t, hnext, ⟨fun _ => hans, fun h => (nomatch hkey.symm.trans h), fun h => nomatch hkey.symm.trans h⟩, honly.mono (by decide)⟩
  | true =>
    rw [hkey, if_neg (by decide)] at hexec
    by_cases hlen : 4064 < e.len
    · rw [if_pos hlen] at hexec
      obtain ⟨t, hnext, hans, honly⟩ := completes_ending h.wf hexec
      exact ⟨t, hnext, ⟨fun h => (nomatch hkey.symm.trans h), fun _ _ => hans, fun _ h => absurd h (by omega)⟩, honly.mono (by decide)⟩
    · rw [if_neg hlen, State.stored_eq] at hexec
      obtain ⟨t, hnext, hans, honly⟩ := completes_landed h.wf hexec fun c hc => Boot.put_at hc
      exact ⟨t, hnext, ⟨fun h => (nomatch hkey.symm.trans h), fun _ h => absurd h hlen, fun _ _ => hans⟩, honly⟩

theorem completes_ksDel (h : s.Front 0x27 e) (hpart : e.part = 0) (hfail : e.fail = false) :
    Completes .ksDel s [.host, .setter, .boot] fun t => let k := e.arg 0x18 2
      (hostKey k = false → s.Answers t e (s.ending e 0x55) ∧ t.boot = s.boot) ∧
      (hostKey k = true → s.Answers t e (s.ending e 0) ∧ t.boot = s.boot.del k) := by
  have hdone : exec .ksDel s = .next (s.perform true fun s e => if !hostKey (e.arg 0x18 2) then s.completeWith e 0x55
      else s.stored e (some (s.boot.del (e.arg 0x18 2)))).settle := done_on rfl h.ready
  have hexec : exec .ksDel s = .next (if !hostKey (e.arg 0x18 2) then s.popIntake.completeWith e 0x55
      else s.popIntake.stored e (some (s.boot.del (e.arg 0x18 2)))).settle := (h.exec hpart hfail hdone :)
  cases hkey : hostKey (e.arg 0x18 2) with
  | false =>
    rw [hkey, if_pos (by decide)] at hexec
    obtain ⟨t, hnext, hans, honly⟩ := completes_ending h.wf hexec
    exact ⟨t, hnext, ⟨fun _ => hans, fun h => nomatch hkey.symm.trans h⟩, honly.mono (by decide)⟩
  | true =>
    rw [hkey, if_neg (by decide), State.stored_eq] at hexec
    obtain ⟨t, hnext, ⟨-, hans⟩, honly⟩ := completes_landed h.wf hexec fun c hc => Option.some.inj hc ▸ s.boot.del_at _
    exact ⟨t, hnext, ⟨fun h => (nomatch hkey.symm.trans h), fun _ => hans _ rfl⟩, honly⟩

/-! ### The early block (R428) -/

theorem completes_earlyWrite (h : s.Front 0x28 e) (hpart : e.part = 0) (hfail : e.fail = false) :
    Completes .earlyWrite s [.host, .setter, .boot] fun t =>
      let b := earlyStamp e.bytes s.clasp.seq
      let a := 0x100000 + 4096 * (1 - s.clasp.copy)
      (earlyValid b = false → s.Answers t e (s.ending e 0x43) ∧ t.boot = s.boot) ∧
      (earlyValid b = true → s.Answers t e (s.ending e 0) ∧ t.boot = (s.boot.erase a 4096).program a b) := by
  have hdone : exec .earlyWrite s = .next (s.perform true State.earlyWrite).settle := done_on rfl h.ready
  have hexec := h.exec hpart hfail hdone
  rw [State.earlyWrite] at hexec
  dsimp only at hexec
  cases hvalid : earlyValid (earlyStamp e.bytes s.clasp.seq) with
  | false =>
    rw [if_neg (by simp [State.popIntake, hvalid])] at hexec
    obtain ⟨t, hnext, hans, honly⟩ := completes_ending h.wf hexec
    exact ⟨t, hnext, ⟨fun _ => hans, fun h => nomatch hvalid.symm.trans h⟩, honly.mono (by decide)⟩
  | true =>
    rw [if_pos (by simp [State.popIntake, hvalid])] at hexec
    obtain ⟨t, hnext, hans, honly⟩ := completes_bootAnswer
      (b := (s.boot.erase (0x100000 + 4096 * (1 - s.clasp.copy)) 4096).program (0x100000 + 4096 * (1 - s.clasp.copy)) (earlyStamp e.bytes s.clasp.seq)) h.wf hexec rfl
    exact ⟨t, hnext, ⟨fun h => (nomatch hvalid.symm.trans h), fun _ => hans⟩, honly⟩

/-! ### Hallmark (R444) -/

theorem Boot.extend_effect {b : Boot} (hwf : Memory.wf hmReset b.hm = true) (k : Nat) (m : List Byte) (us event : Nat) :
    let v := if m.length ≤ 48 then m else sha384 m
    (b.extend k m us event).at_ = b.at_ ∧ (b.extend k m us event).hmOf k = sha384 (b.hmOf k ++ v) ∧
      (∀ j, j ≠ k → (b.extend k m us event).hmOf j = b.hmOf j) ∧
      (b.log.length < 4096 → (b.extend k m us event).log.length = b.log.length + 1 ∧ (b.extend k m us event).trunc = b.trunc) ∧
      (4096 ≤ b.log.length → (b.extend k m us event).log = b.log ∧ (b.extend k m us event).trunc = true) := by
  have hv : (if m.length > 48 then sha384 m else m) = if m.length ≤ 48 then m else sha384 m := by
    by_cases h : m.length ≤ 48
    · rw [if_neg (by omega), if_pos h]
    · rw [if_pos (by omega), if_neg h]
  dsimp only
  rw [← hv]
  have hset := fun j => Memory.get_set hmReset b.hm k j (sha384 (b.hmOf k ++ if m.length > 48 then sha384 m else m)) hwf
  unfold Boot.extend
  dsimp only
  by_cases hlog : b.log.length < 4096
  · rw [if_pos hlog]
    exact ⟨rfl, (hset k).trans (if_pos rfl), fun j hj => (hset j).trans (if_neg hj), fun _ => ⟨List.length_append, rfl⟩, fun h => absurd hlog (by omega)⟩
  · rw [if_neg hlog]
    exact ⟨rfl, (hset k).trans (if_pos rfl), fun j hj => (hset j).trans (if_neg hj), fun h => absurd h hlog, fun _ => ⟨rfl, rfl⟩⟩

theorem completes_hmExtend (h : s.Front 0x29 e) (hpart : e.part = 0) (hfail : e.fail = false) (hwf : Memory.wf hmReset s.boot.hm = true) :
    Completes .hmExtend s [.host, .setter, .boot, .free] fun t =>
      s.Answers t e (s.ending e 0) ∧ ∃ event, t.boot = s.boot.extend 7 e.bytes s.us event := by
  have hdone : exec .hmExtend s = .next (s.perform true State.hmExtend).settle := done_on rfl h.ready
  have hexec := h.exec hpart hfail hdone
  obtain ⟨t, hnext, ⟨hans, hboot⟩, honly⟩ := completes_bootAnswer_free (n := 1) (b := s.boot.extend 7 e.bytes s.us (Config.freeNat s.free)) h.wf hexec
    (Boot.extend_effect hwf 7 e.bytes s.us _).1
  exact ⟨t, hnext, ⟨hans, _, hboot⟩, honly⟩

/-! ### The log (R451, R458) -/

theorem State.putXram_r (s : State) (ws : List (Nat × List Byte)) : (s.putXram ws).mem.r = s.mem.r := by
  rw [State.putXram, State.withMem_mem]
  refine foldl_keeps MemSys.r _ (fun m w => ?_) ws s.mem
  exact foldl_keeps MemSys.r _ (fun m k => (rfl : (m.putBytes w.1 w.2 (w.1 / 4 + k)).r = m.r)) _ m

/-- R458: the bytes of the log that LEN takes. -/
def State.logBytes (s : State) (e : Entry) : List Byte := (s.boot.log.flatMap HmRec.bytes).take e.len

theorem completes_logRead (h : s.Front 0x2A e) (hpart : e.part = 0) (hfail : e.fail = false) (hwrite : s.canWrite = true) :
    Completes .logRead s [.host, .setter, .mem, .out] fun t => s.Answers t e (s.ending e 0) ∧ t.mem.r = s.mem.r ∧ t.mem.banks = s.mem.banks ∧
      (e.addr % 2 = 0 ∨ s.logBytes e = [] → t.mem.xram = s.mem.xram) ∧
      (e.addr % 2 = 0 → s.logBytes e ≠ [] → ∃ l r, t.out = l ++ [.busWrite 0 (e.addr / 8 * 8) (s.logBytes e)] ++ r) := by
  have hdone : exec .logRead s = .next (s.perform true State.logRead).settle := done_on rfl (by rw [h.ready, hwrite]; rfl)
  have hexec : exec .logRead s = .next ((if (s.logBytes e).isEmpty then s.popIntake
      else if e.addr % 2 = 1 then s.popIntake.putXram [(e.addr / 8 * 8 % 2 ^ 18, s.logBytes e)]
      else s.popIntake.emit (.busWrite e.part (e.addr / 8 * 8) (s.logBytes e))).completeWith e 0).settle := (h.exec hpart hfail hdone :)
  cases hempty : (s.logBytes e).isEmpty with
  | true =>
    rw [hempty, if_pos rfl] at hexec
    obtain ⟨t, hnext, ⟨hans, rfl⟩, honly⟩ := completes_answer (ps := []) h.wf hexec (.refl _ _) rfl rfl rfl fun _ => ⟨rfl, rfl, rfl⟩
    exact ⟨_, hnext, ⟨hans, rfl, rfl, fun _ => rfl, fun _ hne => absurd (List.isEmpty_iff.mp hempty) hne⟩, honly.mono (by decide)⟩
  | false =>
    have hne : s.logBytes e ≠ [] := fun h => by simp [h] at hempty
    rw [hempty, if_neg (by decide)] at hexec
    by_cases hodd : e.addr % 2 = 1
    · rw [if_pos hodd] at hexec
      obtain ⟨t, hnext, ⟨hans, rfl⟩, honly⟩ := completes_answer (ps := [.mem, .out]) h.wf hexec (State.within_mem _ _).mono rfl rfl
        (congrArg (fun x => State.unitReports (s.withMem fun m => { m with rep := x })) (State.putXram_rep _ _)) fun h => absurd (by decide) h
      exact ⟨_, hnext, ⟨hans, State.putXram_r _ _, State.putXram_banks _ _, fun h => absurd (h.resolve_right hne) (by omega), fun h => absurd h (by omega)⟩, honly⟩
    · rw [if_neg hodd] at hexec
      obtain ⟨t, hnext, ⟨hans, rfl⟩, honly⟩ := completes_answer (ps := [.mem, .out]) h.wf hexec (State.within_host _ _).mono rfl rfl rfl
        fun h => absurd (by decide) h
      exact ⟨_, hnext, ⟨hans, rfl, rfl, fun _ => rfl, fun _ _ => ⟨s.host.outs, _, by rw [State.settle_out, hpart]; rfl⟩⟩, honly⟩

/-! ### Keys (R399, R454) -/

theorem completes_keySet (h : s.Front 0x2B e) (hpart : e.part = 0) (hfail : e.fail = false) :
    Completes .keySet s [.host, .setter, .boot, .free] fun t => let p := e.arg 0x18 1
      (e.len ≠ 32 ∨ 4 ≤ p → s.Answers t e (s.ending e 0x43) ∧ t.boot = s.boot) ∧
      (e.len = 32 → p < 4 → s.mem.locked = true ∨ s.boot.devKey = none → s.Answers t e (s.ending e 0x59) ∧ t.boot = s.boot) ∧
      (e.len = 32 → p < 4 → s.mem.locked = false → s.boot.devKey ≠ none → ∃ iv : List Byte, iv.length = 12 ∧
        (s.boot.storeKey p e.bytes iv = none → s.Answers t e (s.ending e 0x54) ∧ t.boot = s.boot) ∧
        ∀ b, s.boot.storeKey p e.bytes iv = some b → s.Answers t e (s.ending e 0) ∧ t.boot = b) := by
  have hdone : exec .keySet s = .next (s.perform true State.keySet).settle := done_on rfl h.ready
  have hexec : exec .keySet s = .next (if e.len ≠ 32 ∨ 4 ≤ e.arg 0x18 1 then s.popIntake.completeWith e 0x43
      else if s.mem.locked ∨ s.boot.devKey.isNone then s.popIntake.completeWith e 0x59
      else (s.popIntake.take 1).2.stored e (s.boot.storeKey (e.arg 0x18 1) e.bytes (leBytes 12 (Config.freeNat s.free)))).settle :=
    (h.exec hpart hfail hdone :)
  by_cases hbad : e.len ≠ 32 ∨ 4 ≤ e.arg 0x18 1
  · rw [if_pos hbad] at hexec
    obtain ⟨t, hnext, hans, honly⟩ := completes_ending h.wf hexec
    exact ⟨t, hnext, ⟨fun _ => hans, fun hlen hp => absurd hbad (by omega), fun hlen hp => absurd hbad (by omega)⟩, honly.mono (by decide)⟩
  rw [if_neg hbad] at hexec
  by_cases hlocked : s.mem.locked = true ∨ s.boot.devKey.isNone = true
  · rw [if_pos hlocked] at hexec
    obtain ⟨t, hnext, hans, honly⟩ := completes_ending h.wf hexec
    refine ⟨t, hnext, ⟨fun h => absurd h hbad, fun _ _ _ => hans, fun _ _ hopen hkey => ?_⟩, honly.mono (by decide)⟩
    exact absurd hlocked (by simp [hopen, hkey])
  · rw [if_neg hlocked, State.stored_eq] at hexec
    obtain ⟨t, hnext, hans, honly⟩ := completes_landed_free h.wf hexec fun c hc => Boot.storeKey_at hc
    refine ⟨t, hnext, ⟨fun h => absurd h hbad, fun _ _ hlock => ?_, fun _ _ _ _ => ⟨_, leBytes_length _ _, hans⟩⟩, honly⟩
    exact absurd hlock (by simpa using hlocked)

end Commands

/-! ### The obligation -/

/-- The hypotheses of the obligation's clauses, taken together. -/
theorem State.front_of {s : State} {op : Nat} {e : Entry} (h : s.unitsWf = true ∧ s.awake = true ∧ s.s2Runs = true ∧ s.setter.builds = [] ∧
    s.setter.intake.head? = some e ∧ e.op = op ∧ (e.reads = true → e.fail = true ∨ e.data.isSome = true)) : s.Front op e := by
  obtain ⟨hwf, hawake, hs2, hbuilds, hhead, hop, hdata⟩ := h
  exact ⟨hwf, hawake, hs2, hbuilds, hhead, hop, hdata⟩

theorem State.ramsWf_flash {s : State} (h : s.ramsWf = true) : Memory.wf erased s.boot.flash = true := by
  simp only [State.ramsWf, Bool.and_eq_true] at h
  exact h.2

/-- The completion of a command of P0 whose session lasts. -/
theorem State.Answers.posted {s t : State} {e : Entry} {c : Compl} (h : s.Answers t e c) (hpart : e.part = 0)
    (hsession : (s.host.part 0).session = e.session) : (t.host.part 0).compl = (s.host.part 0).compl ++ [c] := by
  obtain ⟨-, -, hcompl⟩ := h
  rw [hpart, if_pos hsession] at hcompl
  exact hcompl

/-- The epoch that a completion of P0 carries. -/
theorem State.ending_zero (s : State) {e : Entry} (hpart : e.part = 0) (st : Nat) : s.ending e st = { complOf e st with epoch := (s.setter.part 0).epoch } := by
  rw [State.ending, hpart]

/-- Settles O51: who may command first, then one clause per command, each from what the command does to flash, fuses or the log. -/
theorem imageAndKeyCommands : Obligations.ImageAndKeyCommands := by
  unfold Obligations.ImageAndKeyCommands
  dsimp only
  refine ⟨fun x hx s e hfront hwrite hrefused => ?_, fun s e hfront hpart hfail hrams => ?_, fun s e hfront hpart hfail hrams => ?_,
    fun s e hfront hpart hfail => ?_, fun s e hfront hpart hfail => completes_imgActivate (State.front_of hfront) hpart hfail,
    fun s e votp readback hfront hpart hfail => ?_, fun s e votp readback hfront hpart hfail => ?_, fun s e hfront hpart hfail => ?_,
    fun s e hfront hpart hfail => ?_, fun s e hfront hpart hfail => completes_earlyWrite (State.front_of hfront) hpart hfail,
    fun s e hfront hpart hfail hhm => ?_, fun s e hfront hpart hfail hwrite => completes_logRead (State.front_of hfront) hpart hfail hwrite,
    fun s e hfront hpart hfail => completes_keySet (State.front_of hfront) hpart hfail⟩
  · have h := State.front_of hfront
    obtain ⟨f, hdone⟩ := p0Commands_perform x hx s h.ready hwrite
    exact completes_refused h hdone hrefused
  · obtain ⟨t, hnext, ⟨hlarge, hbusy, hfree⟩, honly⟩ := completes_imgBegin (State.front_of hfront) hpart hfail
    refine ⟨t, hnext, ⟨hlarge, hbusy, fun hn hupd => ?_⟩, honly⟩
    obtain ⟨hans, hboot⟩ := hfree hn hupd
    exact ⟨hans, by rw [hboot], fun n => by rw [hboot]; exact s.boot.erase_get (slotBase s.boot.updateSlot) slotSize n⟩
  · obtain ⟨t, hnext, ⟨hnone, hsome⟩, honly⟩ := completes_imgData (State.front_of hfront) hpart hfail
    refine ⟨t, hnext, ⟨hnone, fun u hupd => ⟨(hsome u hupd).1, fun hturn => ?_⟩⟩, honly⟩
    obtain ⟨hans, hboot⟩ := (hsome u hupd).2 hturn
    exact ⟨hans, by rw [hboot, Boot.imgNext], fun n => by rw [hboot]; exact Boot.program_get (State.ramsWf_flash hrams) _ _ n⟩
  · obtain ⟨t, hnext, ⟨hearly, hdone⟩, honly⟩ := completes_imgFinish (State.front_of hfront) hpart hfail
    refine ⟨t, hnext, ⟨hearly, fun u hupd hfull => ?_⟩, honly⟩
    obtain ⟨hnone, hintake, b, o, hfinish, hboot, hok, hfault⟩ := hdone u hupd hfull
    refine ⟨hnone, hintake, b, o, hfinish, hboot, hok, fun off hoff hsession => ?_⟩
    rw [(hfault off hoff).posted hpart hsession, State.ending_zero s hpart]
  · obtain ⟨t, hnext, ⟨hno, hraised, hpartly⟩, honly⟩ := completes_rollbackRaise votp readback (State.front_of hfront) hpart hfail
    refine ⟨t, hnext, ⟨hno, fun hv => ?_, fun hv hr => ?_, fun hv hr => ?_⟩, honly⟩
    · cases readback with
      | true => exact (hraised hv rfl).1.trans (by rw [(hraised hv rfl).1]; rfl)
      | false =>
        obtain ⟨x, hboot, -⟩ := hpartly hv rfl
        exact hboot.trans (by rw [hboot]; rfl)
    · obtain ⟨hboot, hans⟩ := hraised hv hr
      refine ⟨by rw [hboot]; rfl, hans.1, fun hsession => ?_⟩
      rw [hans.posted hpart hsession, State.ending_zero s hpart]
    · obtain ⟨x, hboot, hans⟩ := hpartly hv hr
      refine ⟨hans, fun n => ?_⟩
      rw [hboot]
      exact partlyBlown_testBit _ _ x n (testBit_or_left _ _)
  · obtain ⟨t, hnext, hpending, hfar, hid, hno, hadvanced, hpartly⟩ := exec_lcAdvance votp readback (State.front_of hfront) hpart hfail
    refine ⟨t, hnext, hpending, hfar, hid, hno, fun hnear hdev hv hr => ?_, fun hnear hdev hv hr => ?_⟩
    · obtain rfl := hadvanced hnear hdev hv hr
      obtain ⟨hotp, hlocket, hlocked, hat, hintake, hstage, -⟩ := s.popIntake.advanced_pieces
      exact ⟨hotp, hlocket, hlocked, hat, hintake, hstage⟩
    · obtain ⟨hsame, hans, x, hboot⟩ := hpartly hnear hdev hv hr
      refine ⟨hsame, hans, hboot.trans (by rw [hboot]; rfl), fun n => ?_⟩
      rw [hboot]
      exact partlyBlown_testBit _ _ x n (testBit_or_left _ _)
  · obtain ⟨t, hnext, ⟨hforeign, hlong, hput⟩, honly⟩ := completes_ksPut (State.front_of hfront) hpart hfail
    refine ⟨t, hnext, ⟨fun hk => hforeign ?_, fun hk => hlong ((hostKey_iff _).mpr hk), fun hk => hput ((hostKey_iff _).mpr hk)⟩, honly⟩
    exact Bool.eq_false_iff.mpr fun hkey => hk ((hostKey_iff _).mp hkey)
  · obtain ⟨t, hnext, ⟨hforeign, hdel⟩, honly⟩ := completes_ksDel (State.front_of hfront) hpart hfail
    refine ⟨t, hnext, ⟨fun hk => hforeign ?_, fun hlo hhi => hdel ((hostKey_iff _).mpr ⟨hlo, hhi⟩)⟩, honly⟩
    refine Bool.eq_false_iff.mpr fun hkey => ?_
    obtain ⟨hlo, hhi⟩ := (hostKey_iff _).mp hkey
    omega
  · obtain ⟨t, hnext, ⟨hans, event, hboot⟩, honly⟩ := completes_hmExtend (State.front_of hfront) hpart hfail hhm
    obtain ⟨-, hself, hother, hroom, hfull⟩ := Boot.extend_effect hhm 7 e.bytes s.us event
    rw [← hboot] at hself hother hroom hfull
    exact ⟨t, hnext, ⟨hans, hself, hother, hroom, hfull⟩, honly⟩

end Sys2Proof.Machine

/-!
SUPPORT. GPIO conditioning (R484 to R486).
-/

namespace Sys2Proof

/-- Writing the value that is there changes nothing. -/
theorem Memory.set_get {α : Type} [DecidableEq α] {d : Nat → α} {m : Memory α} (hwf : Memory.wf d m = true) (a : Nat) :
    Memory.set d m a (Memory.get d m a) = m := by
  induction m with
  | nil => exact if_pos rfl
  | cons e m ih =>
    obtain ⟨k, v⟩ := e
    rw [Memory.wf_cons] at hwf
    obtain ⟨hv, habove, hwf⟩ := hwf
    have ih := ih hwf
    rw [Memory.set] at ih ⊢
    rw [Memory.get]
    by_cases hk : k = a
    · subst hk
      rw [if_pos rfl, if_neg hv, Memory.insert, if_neg (by omega), if_pos rfl]
    · rw [if_neg hk]
      by_cases hdef : Memory.get d m a = d a
      · rw [if_pos hdef] at ih ⊢
        rw [Memory.erase, if_neg hk, ih]
      · have hlt : k < a := by
          by_contra hle
          exact hdef (Memory.get_of_above d m a k habove (by omega))
        rw [if_neg hdef] at ih ⊢
        rw [Memory.insert, if_neg (by omega), if_neg (fun h => hk h.symm), ih]

end Sys2Proof

namespace Sys2Proof.Machine

/-! ### Pins -/

theorem State.unitsWf_gpio {s : State} (h : s.unitsWf = true) : Memory.wf (fun _ => Gpio.reset) s.gpio = true := by
  simp only [State.unitsWf, Bool.and_eq_true, and_assoc] at h
  obtain ⟨-, -, hgpio, -⟩ := h
  exact hgpio

/-- The reports of a GPIO, each a cause and its CLEAR bit. -/
def pinReports (n : Nat) (rs : List (Nat × Bool)) : List Report := rs.map fun x => ⟨x.1, 20, n, 3, x.2, false, 0⟩

theorem mem_pinReports {n cause : Nat} {clear : Bool} {rs : List (Nat × Bool)} (h : (cause, clear) ∈ rs) :
    (⟨cause, 20, n, 3, clear, false, 0⟩ : Report) ∈ pinReports n rs := List.mem_map.mpr ⟨_, h, rfl⟩

theorem State.onPin_within (s : State) (n : Nat) (r : Gpio × List (Nat × Bool)) : s.Within [.gpio, .reports] (s.onPin n r) := by
  have hset : s.Within [.gpio] (s.setPin n r.1) := ⟨rfl, fun p hp => by cases p <;> simp_all [Piece.same, State.setPin]⟩
  exact hset.mono.trans (State.within_notes _ _).mono

theorem State.onPin_pin {s : State} (hwf : Memory.wf (fun _ => Gpio.reset) s.gpio = true) (n : Nat) (r : Gpio × List (Nat × Bool)) (m : Nat) :
    (s.onPin n r).pin m = if m = n then r.1 else s.pin m := Memory.get_set _ _ _ _ _ hwf

theorem State.onPin_gpio_wf {s : State} (hwf : Memory.wf (fun _ => Gpio.reset) s.gpio = true) (n : Nat) (r : Gpio × List (Nat × Bool)) :
    Memory.wf (fun _ => Gpio.reset) (s.onPin n r).gpio = true := Memory.wf_set _ _ _ _ hwf

theorem State.onPin_flying (s : State) (n : Nat) (r : Gpio × List (Nat × Bool)) :
    (s.onPin n r).health.flying = s.health.flying ++ pinReports n r.2 := rfl

theorem State.onPin_same {s : State} (hwf : s.unitsWf = true) (n : Nat) : s.onPin n (s.pin n, []) = s := by
  have hgpio : Memory.set (fun _ => Gpio.reset) s.gpio n (s.pin n) = s.gpio := Memory.set_get (State.unitsWf_gpio hwf) n
  have hpin : s.setPin n (s.pin n) = s := by rw [State.setPin, hgpio]
  rw [State.onPin, hpin, State.notes, List.map_nil]
  simp only [List.append_nil]
  rfl

/-- One GPIO changes and its reports go out. -/
theorem completes_onPin {i : Instr} {s : State} {n : Nat} {r : Gpio × List (Nat × Bool)} (hwf : s.unitsWf = true)
    (hexec : exec i s = .next (s.onPin n r).settle) :
    Completes i s [.gpio, .reports] fun t => t.pin n = r.1 ∧ (∀ m, m ≠ n → t.pin m = s.pin m) ∧
      (r.2 = [] → t.health.flying = s.settle.health.flying) ∧ ∀ x ∈ pinReports n r.2, x ∈ t.health.flying := by
  have hpin := fun m => State.onPin_pin (State.unitsWf_gpio hwf) n r m
  refine ⟨_, hexec, ⟨(hpin n).trans (if_pos rfl), fun m hm => (hpin m).trans (if_neg hm), fun hnone => ?_, fun x hx => ?_⟩,
    (s.onPin_within n r).settle (fun h => absurd (by decide) h) fun _ => ⟨rfl, rfl, rfl⟩⟩
  · rw [State.settle_health, State.settle_health]
    change (s.health.flying ++ pinReports n r.2) ++ _ = _
    rw [hnone, pinReports, List.map_nil, List.append_nil]
    rfl
  · exact List.mem_append_left _ (List.mem_append_right _ hx)

/-- A report of GPIO `n` on the report network. -/
def State.tells (t : State) (n cause : Nat) (clear : Bool) : Prop := ∃ r ∈ t.health.flying, r.cause = cause ∧ r.cls = 20 ∧ r.inst = n ∧ r.clear = clear

theorem State.tells_of {t : State} {n cause : Nat} {clear : Bool} {rs : List (Nat × Bool)} (h : ∀ x ∈ pinReports n rs, x ∈ t.health.flying)
    (hmem : (cause, clear) ∈ rs) : t.tells n cause clear := ⟨_, h _ (mem_pinReports hmem), rfl, rfl, rfl, rfl⟩

/-! ### GPIO_ACCEPT (R484, R485) -/

/-- The accepted changes that the chatter window holds, the present one last. -/
def Gpio.edgesAt (g : Gpio) (now : Nat) : List Nat := (g.edges.filter fun x => decide (now < x + g.lim.fld 8 8 * 1000)) ++ [now]

/-- An input with a new level. -/
def Gpio.moved (g : Gpio) (level : Bool) (now : Nat) : Gpio := { g with level := level, since := now, edges := g.edgesAt now }

/-- Whether a change to `active` is delivered. -/
def Gpio.delivers (g : Gpio) (active : Bool) : Bool := (if active then g.cfg.flag 28 else g.cfg.flag 29) || (g.stuck && !active)

/-- An input that does not chatter, after its change to `active`. -/
def Gpio.settled (g : Gpio) (level active : Bool) (now : Nat) : Gpio := { g.moved level now with stuck := g.stuck && active }

theorem Gpio.moved_active {g : Gpio} (hen : g.en = true) (level : Bool) (now : Nat) : (g.moved level now).active = (level != g.cfg.flag 30) := by
  have hsame : (g.moved level now).en = true := hen
  rw [Gpio.active, hsame, Bool.true_and]
  rfl

theorem Gpio.accept_idle {g : Gpio} {level : Bool} (h : g.en = false ∨ level = g.level) (now : Nat) : g.accept level now = (g, []) :=
  if_pos (by obtain h | h := h <;> simp [h])

/-- What an input does that does not chatter: it settles, and tells what EDGE selects. -/
def Gpio.arrive (g : Gpio) (level active : Bool) (now : Nat) : Gpio × List (Nat × Bool) :=
  (if g.delivers active then (g.settled level active now).tell else g.settled level active now,
    (if g.delivers active then [(0xC00, false)] else []) ++ if g.stuck && !active then [(0xC02, true)] else [])

theorem Gpio.accept_eq {g : Gpio} {level : Bool} (hen : g.en = true) (hlevel : level ≠ g.level) (now : Nat) :
    g.accept level now = if g.masked then (g.moved level now, [])
      else if g.lim.fld 0 8 ≠ 0 ∧ (g.edgesAt now).length > g.lim.fld 0 8 then ({ g.moved level now with masked := true }, [(0xC01, false)])
      else g.arrive level (level != g.cfg.flag 30) now := by
  have heq : g.accept level now = if !g.en || level == g.level then (g, []) else if g.masked then (g.moved level now, [])
      else if g.lim.fld 0 8 ≠ 0 ∧ (g.edgesAt now).length > g.lim.fld 0 8 then ({ g.moved level now with masked := true }, [(0xC01, false)])
      else g.arrive level (g.moved level now).active now := rfl
  rw [heq, if_neg (by simp [hen, hlevel]), Gpio.moved_active hen]

theorem Gpio.arrive_pin (g : Gpio) (level active : Bool) (now : Nat) :
    (g.arrive level active now).1.level = level ∧ (g.arrive level active now).1.since = now ∧ (g.arrive level active now).1.cfg = g.cfg ∧
      (g.arrive level active now).1.edges = g.edgesAt now ∧ (g.arrive level active now).1.masked = g.masked ∧
      (g.arrive level active now).1.stuck = (g.stuck && active) ∧
      (g.arrive level active now).1.events = if g.delivers active then incSat 65535 g.events else g.events := by
  rw [Gpio.arrive]
  cases g.delivers active <;> exact ⟨rfl, rfl, rfl, rfl, rfl, rfl, rfl⟩

/-- The reports of an input that does not chatter. -/
theorem Gpio.arrive_reports (g : Gpio) (level active : Bool) (now : Nat) :
    (g.delivers active = true → (0xC00, false) ∈ (g.arrive level active now).2) ∧
      (g.stuck = true → active = false → (0xC02, true) ∈ (g.arrive level active now).2) ∧
      (g.delivers active = false → (g.arrive level active now).2 = []) := by
  rw [Gpio.arrive]
  refine ⟨fun h => by simp [h], fun hs ha => by simp [hs, ha], fun h => ?_⟩
  have hfree : (g.stuck && !active) = false := (Bool.or_eq_false_iff.mp h).2
  simp [h, hfree]

theorem completes_gpioAccept_idle {s : State} {n : Nat} {level : Bool} (hwf : s.unitsWf = true) (hn : n < 16)
    (hidle : s.gpioUp n = false ∨ (s.pin n).en = false ∨ level = (s.pin n).level) : Completes (.gpioAccept n level) s [] fun _ => True := by
  have hinstr : (Instr.gpioAccept n level).wf = true := by simpa [Instr.wf] using hn
  cases hup : s.gpioUp n with
  | false => exact completes_of_settle (done_off (by rw [hup, Bool.and_false]))
  | true =>
    have hexec : exec (.gpioAccept n level) s = .next (s.onPin n ((s.pin n).accept level s.us)).settle := done_on hinstr hup
    rw [Gpio.accept_idle (hidle.resolve_left (by simp [hup])), State.onPin_same hwf] at hexec
    exact completes_of_settle hexec

theorem completes_gpioAccept {s : State} {n : Nat} {level : Bool} (hwf : s.unitsWf = true) (hn : n < 16) (hup : s.gpioUp n = true)
    (hen : (s.pin n).en = true) (hlevel : level ≠ (s.pin n).level) :
    Completes (.gpioAccept n level) s [.gpio, .reports] fun t => let g := s.pin n
      let active := level != g.cfg.flag 30
      (∀ m, m ≠ n → t.pin m = s.pin m) ∧ (t.pin n).level = level ∧ (t.pin n).since = s.us ∧ (t.pin n).cfg = g.cfg ∧ (t.pin n).edges = g.edgesAt s.us ∧
      (g.masked = true → (t.pin n).events = g.events ∧ (t.pin n).masked = true ∧ t.health.flying = s.settle.health.flying) ∧
      (g.masked = false → g.lim.fld 0 8 ≠ 0 → g.lim.fld 0 8 < (g.edgesAt s.us).length →
        (t.pin n).masked = true ∧ (t.pin n).events = g.events ∧ t.tells n 0xC01 false) ∧
      (g.masked = false → g.lim.fld 0 8 = 0 ∨ (g.edgesAt s.us).length ≤ g.lim.fld 0 8 →
        (t.pin n).masked = false ∧ (t.pin n).stuck = (g.stuck && active) ∧
        (t.pin n).events = (if g.delivers active then incSat 65535 g.events else g.events) ∧ (g.delivers active = true → t.tells n 0xC00 false) ∧
        (g.stuck = true → active = false → t.tells n 0xC02 true) ∧ (g.delivers active = false → t.health.flying = s.settle.health.flying)) := by
  have hexec : exec (.gpioAccept n level) s = .next (s.onPin n ((s.pin n).accept level s.us)).settle :=
    done_on (by simpa [Instr.wf] using hn) hup
  obtain ⟨t, hnext, ⟨hpin, hother, hquiet, htells⟩, honly⟩ := completes_onPin hwf hexec
  have heq := Gpio.accept_eq hen hlevel s.us
  cases hmasked : (s.pin n).masked with
  | true =>
    rw [if_pos hmasked] at heq
    rw [heq] at hpin hquiet
    refine ⟨t, hnext, ⟨hother, ?_, ?_, ?_, ?_, fun _ => ⟨?_, ?_, hquiet rfl⟩, fun h => (nomatch hmasked.symm.trans h), fun h => nomatch hmasked.symm.trans h⟩, honly⟩
    all_goals rw [hpin]
    case refine_6 => exact hmasked
    all_goals rfl
  | false =>
    rw [if_neg (by simp [hmasked])] at heq
    by_cases hchatter : (s.pin n).lim.fld 0 8 ≠ 0 ∧ ((s.pin n).edgesAt s.us).length > (s.pin n).lim.fld 0 8
    · rw [if_pos hchatter] at heq
      rw [heq] at hpin htells
      refine ⟨t, hnext, ⟨hother, ?_, ?_, ?_, ?_, fun h => (nomatch hmasked.symm.trans h),
        fun _ _ _ => ⟨?_, ?_, State.tells_of htells List.mem_cons_self⟩, fun _ hcalm => absurd hchatter ?_⟩, honly⟩
      case refine_7 => omega
      case refine_5 => rw [hpin]
      all_goals
        rw [hpin]
        rfl
    · rw [if_neg hchatter] at heq
      rw [heq] at hpin hquiet htells
      obtain ⟨alevel, asince, acfg, aedges, amasked, astuck, aevents⟩ := (s.pin n).arrive_pin level (level != (s.pin n).cfg.flag 30) s.us
      obtain ⟨rtell, rfreed, rnone⟩ := (s.pin n).arrive_reports level (level != (s.pin n).cfg.flag 30) s.us
      rw [← hpin] at alevel asince acfg aedges amasked astuck aevents
      exact ⟨t, hnext, ⟨hother, alevel, asince, acfg, aedges, fun h => (nomatch hmasked.symm.trans h), fun _ hmax hlen => absurd ⟨hmax, hlen⟩ hchatter,
        fun _ _ => ⟨amasked.trans hmasked, astuck, aevents, fun h => State.tells_of htells (rtell h), fun hs ha => State.tells_of htells (rfreed hs ha),
          fun h => hquiet (rnone h)⟩⟩, honly⟩

/-! ### GPIO_STUCK (R486) -/

/-- Whether an input has stayed active for STUCK_MS at uptime `now`. -/
def Gpio.ripe (g : Gpio) (now : Nat) : Prop :=
  g.lim.fld 16 16 ≠ 0 ∧ g.active = true ∧ g.masked = false ∧ g.stuck = false ∧ g.since + g.lim.fld 16 16 * 1000 ≤ now

theorem Gpio.goStuck_ripe {g : Gpio} {now : Nat} (h : g.ripe now) : g.goStuck now = ({ g with stuck := true }, [(0xC02, false)]) := by
  obtain ⟨hms, hactive, hmasked, hstuck, hdue⟩ := h
  exact if_pos ⟨hms, hactive, by simp [hmasked], by simp [hstuck], hdue⟩

theorem Gpio.goStuck_not {g : Gpio} {now : Nat} (h : ¬ g.ripe now) : g.goStuck now = (g, []) :=
  if_neg fun ⟨hms, hactive, hmasked, hstuck, hdue⟩ => h ⟨hms, hactive, by simpa using hmasked, by simpa using hstuck, hdue⟩

theorem completes_gpioStuck {s : State} {n : Nat} (hwf : s.unitsWf = true) (hn : n < 16) (hup : s.gpioUp n = true) (hripe : (s.pin n).ripe s.us) :
    Completes (.gpioStuck n) s [.gpio, .reports] fun t => t.pin n = { s.pin n with stuck := true } ∧ (∀ m, m ≠ n → t.pin m = s.pin m) ∧
      t.tells n 0xC02 false := by
  have hexec : exec (.gpioStuck n) s = .next (s.onPin n ((s.pin n).goStuck s.us)).settle := done_on (by simpa [Instr.wf] using hn) hup
  rw [Gpio.goStuck_ripe hripe] at hexec
  obtain ⟨t, hnext, ⟨hpin, hother, -, htells⟩, honly⟩ := completes_onPin hwf hexec
  exact ⟨t, hnext, ⟨hpin, hother, State.tells_of htells List.mem_cons_self⟩, honly⟩

theorem completes_gpioStuck_not {s : State} {n : Nat} (hwf : s.unitsWf = true) (hn : n < 16) (hnot : ¬ (s.gpioUp n = true ∧ (s.pin n).ripe s.us)) :
    Completes (.gpioStuck n) s [] fun _ => True := by
  have hinstr : (Instr.gpioStuck n).wf = true := by simpa [Instr.wf] using hn
  cases hup : s.gpioUp n with
  | false => exact completes_of_settle (done_off (by rw [hup, Bool.and_false]))
  | true =>
    have hexec : exec (.gpioStuck n) s = .next (s.onPin n ((s.pin n).goStuck s.us)).settle := done_on hinstr hup
    rw [Gpio.goStuck_not fun h => hnot ⟨hup, h⟩, State.onPin_same hwf] at hexec
    exact completes_of_settle hexec

/-! ### GPIO_REARM (R485) -/

theorem Gpio.rearm_unmasked {g : Gpio} (h : g.masked = false) (now : Nat) : g.rearm now = (g, []) := if_neg (by simp [h])

theorem Gpio.rearm_masked {g : Gpio} (h : g.masked = true) (now : Nat) :
    (g.rearm now).1.masked = false ∧ (g.rearm now).1.edges = [] ∧ (g.rearm now).1.level = g.level ∧ (g.rearm now).1.told = g.level ∧
      (g.rearm now).1.events = (if g.level = g.told then g.events else incSat 65535 g.events) ∧ (g.level ≠ g.told → (0xC00, false) ∈ (g.rearm now).2) := by
  rw [Gpio.rearm, if_pos h]
  dsimp only
  by_cases htold : g.level = g.told
  · rw [if_neg (by simp [htold]), if_pos htold]
    exact ⟨rfl, rfl, rfl, htold.symm, rfl, fun hne => absurd htold hne⟩
  · rw [if_pos (by simp [htold]), if_neg htold]
    exact ⟨rfl, rfl, rfl, rfl, rfl, fun _ => by simp [htold]⟩

/-- The turn of GPIO `n` in a re-arm. -/
def State.rearmTurn (s : State) (n : Nat) : State := s.onPin n ((s.pin n).rearm s.us)

/-- Each GPIO has its own turn, and the reports of all go out. -/
theorem State.rearmTurns {l : List Nat} (hl : l.Nodup) {s : State} (hwf : Memory.wf (fun _ => Gpio.reset) s.gpio = true) :
    let t := l.foldl State.rearmTurn s
    (∀ n, n ∉ l → t.pin n = s.pin n) ∧ (∀ x ∈ s.health.flying, x ∈ t.health.flying) ∧
      ∀ n, n ∈ l → t.pin n = ((s.pin n).rearm s.us).1 ∧ ∀ x ∈ pinReports n ((s.pin n).rearm s.us).2, x ∈ t.health.flying := by
  induction l generalizing s with
  | nil => exact ⟨fun _ _ => rfl, fun _ h => h, fun _ h => absurd h List.not_mem_nil⟩
  | cons n l ih =>
    obtain ⟨hn, hrest⟩ := List.nodup_cons.mp hl
    obtain ⟨iout, ifly, iin⟩ := ih hrest (s := s.rearmTurn n) (State.onPin_gpio_wf hwf n _)
    have hpin : ∀ m, (s.rearmTurn n).pin m = if m = n then ((s.pin n).rearm s.us).1 else s.pin m := State.onPin_pin hwf n _
    refine ⟨fun m hm => ?_, fun x hx => ifly x (List.mem_append_left _ hx), fun m hm => ?_⟩
    · exact (iout m fun h => hm (List.mem_cons_of_mem _ h)).trans ((hpin m).trans (if_neg fun (h : m = n) => hm (h ▸ List.mem_cons_self)))
    · obtain rfl | hm := List.mem_cons.mp hm
      · exact ⟨(iout m hn).trans ((hpin m).trans (if_pos rfl)), fun x hx => ifly x (List.mem_append_right _ hx)⟩
      · have hturn := iin m hm
        rw [(hpin m).trans (if_neg fun (h : m = n) => hn (h ▸ hm))] at hturn
        exact hturn

theorem State.rearmTurns_within (l : List Nat) (s : State) : s.Within [.gpio, .reports] (l.foldl State.rearmTurn s) :=
  .foldl (fun u n => u.onPin_within n _) l s

theorem completes_gpioRearm {s : State} {r mask : Nat} (hwf : s.unitsWf = true) (hr : r < 7) (hmask : mask < 2 ^ 16) (hc : s.commands r = true) :
    Completes (.gpioRearm r mask) s [.gpio, .reports] fun t => ∀ n, n < 16 → let g := s.pin n
      (mask.testBit n = false ∨ g.masked = false → t.pin n = g) ∧
      (mask.testBit n = true → g.masked = true → (t.pin n).masked = false ∧ (t.pin n).edges = [] ∧ (t.pin n).level = g.level ∧ (t.pin n).told = g.level ∧
        (t.pin n).events = (if g.level = g.told then g.events else incSat 65535 g.events) ∧ (g.level ≠ g.told → t.tells n 0xC00 false)) := by
  let l := (List.range 16).filter mask.testBit
  let u := l.foldl State.rearmTurn s
  have hexec : exec (.gpioRearm r mask) s = .next u.settle := done_on (by simp [Instr.wf, hr]; omega) hc
  have hwithin := State.rearmTurns_within l s
  have hl : ∀ n, n ∈ l ↔ n < 16 ∧ mask.testBit n = true := fun n => by simp [l]
  obtain ⟨hout, -, hin⟩ := State.rearmTurns (l := l) (List.nodup_range.filter _) (State.unitsWf_gpio hwf)
  refine ⟨_, hexec, fun n hn => ⟨fun hkeep => ?_, fun hbit hmasked => ?_⟩, hwithin.settle (fun h => absurd (by decide) h) fun _ =>
    ⟨congrArg HostSys.outs (hwithin.same .host), State.txOn_of_within hwithin (by decide) (by decide), congrArg NetSys.sent (hwithin.same .net)⟩⟩
  · by_cases hmem : n ∈ l
    · have hmasked := hkeep.resolve_left (by simp [((hl n).mp hmem).2])
      exact (hin n hmem).1.trans (congrArg Prod.fst (Gpio.rearm_unmasked hmasked s.us))
    · exact hout n hmem
  · obtain ⟨hpin, htells⟩ := hin n ((hl n).mpr ⟨hn, hbit⟩)
    obtain ⟨rmasked, redges, rlevel, rtold, revents, rtells⟩ := Gpio.rearm_masked hmasked s.us
    rw [← hpin] at rmasked redges rlevel rtold revents
    exact ⟨rmasked, redges, rlevel, rtold, revents, fun hne => State.tells_of (fun x hx => List.mem_append_left _ (htells x hx)) (rtells hne)⟩

end Sys2Proof.Machine

/-!
SUPPORT. Arrival, records and delivery of reports (R473 to R483), and the obligation on the health unit and GPIO.
-/

namespace Sys2Proof.Machine

/-! ### What arrivals leave of the health unit -/

/-- Records and the counts of suppressed reports have changed, nothing else of the health unit. -/
structure Health.Files (h h' : Health) : Prop where
  eq : ∃ recs supp ovf, h' = { h with openRecs := recs, supp := supp, ovf := ovf }
  wf : Memory.wf zeroN h.supp = true → Memory.wf zeroN h'.supp = true

namespace Health.Files

variable {h h' h'' : Health}

theorem refl (h : Health) : h.Files h := ⟨⟨_, _, _, rfl⟩, fun hwf => hwf⟩

theorem trans (a : h.Files h') (b : h'.Files h'') : h.Files h'' := by
  obtain ⟨recs, supp, ovf, rfl⟩ := a.eq
  obtain ⟨recs', supp', ovf', rfl⟩ := b.eq
  exact ⟨⟨recs', supp', ovf', rfl⟩, fun hwf => b.wf (a.wf hwf)⟩

theorem foldl {α : Type} {f : Health → α → Health} (hf : ∀ (h : Health) x, h.Files (f h x)) (l : List α) (h : Health) : h.Files (l.foldl f h) := by
  induction l generalizing h with
  | nil => exact refl h
  | cons x l ih => exact (hf h x).trans (ih (f h x))

theorem records (h : Health) (recs : List Open) : h.Files { h with openRecs := recs } := ⟨⟨recs, h.supp, h.ovf, rfl⟩, fun hwf => hwf⟩

theorem suppressed (h : Health) (c n : Nat) : h.Files { h with supp := bump h.supp c n } := ⟨⟨h.openRecs, _, h.ovf, rfl⟩, fun hwf => Memory.wf_set _ _ _ _ hwf⟩

end Health.Files

/-- One record of a withdrawal (R479). -/
def Health.withdrawFrom (s : HScope) (p : Report) (h : Health) (o : Open) : Health :=
  let keep := o.reps.filter fun a => !s.covers p o.cause o.cls a.inst o.dom
  let h := { h with supp := if keep.length = o.reps.length then h.supp else bump h.supp o.cause (o.reps.length - keep.length) }
  if keep.isEmpty then h else { h with openRecs := h.openRecs ++ [{ o with reps := keep }] }

theorem Health.withdrawFrom_files (s : HScope) (p : Report) (h : Health) (o : Open) : h.Files (Health.withdrawFrom s p h o) := by
  have hsupp : ∀ c n : Nat, ∀ keep : Prop, [Decidable keep] → h.Files { h with supp := if keep then h.supp else bump h.supp c n } := fun c n keep _ => by
    split
    · exact .refl h
    · exact .suppressed h c n
  unfold Health.withdrawFrom
  dsimp only
  split
  · exact hsupp _ _ _
  · exact (hsupp _ _ _).trans (.records _ _)

theorem Health.withdraw_files (h : Health) (s : HScope) (p : Report) : h.Files (h.withdraw s p) :=
  (Health.Files.records h []).trans (.foldl (fun h o => Health.withdrawFrom_files s p h o) h.openRecs _)

theorem Health.hold_files (h : Health) (r : Report) (dom now : Nat) (a : Arrived) : h.Files (h.hold r dom now a) := by
  rw [Health.hold]
  split
  · exact .records h _
  · split
    · exact .records h _
    · exact ⟨⟨h.openRecs, _, true, rfl⟩, fun hwf => Memory.wf_set _ _ _ _ hwf⟩

/-- R479: the parents in force withdraw what lies in their scope. -/
theorem State.screened_files (s : State) : s.health.Files s.screened.health := .foldl (fun h p => h.withdraw_files s.scope p) _ _

/-! ### Counts (R483) -/

theorem bump_same {m : Memory Nat} (hwf : Memory.wf zeroN m = true) (c n : Nat) :
    Memory.get zeroN (bump m c n) c = min (2 ^ 32 - 1) (Memory.get zeroN m c + n) := Memory.get_set_same _ _ _ _ hwf

theorem bump_other (m : Memory Nat) {c d : Nat} (hd : d ≠ c) (n : Nat) : Memory.get zeroN (bump m c n) d = Memory.get zeroN m d :=
  Memory.get_set_other _ _ _ _ _ hd

/-! ### One arrival (R473 to R480) -/

theorem joinRec_none {ripe : Open → Bool} {r : Report} {dom : Nat} (a : Arrived) {l : List Open} (h : ∀ o ∈ l, o.takes r dom = false) :
    joinRec ripe r dom a l = none := by
  induction l with
  | nil => rfl
  | cons o l ih =>
    rw [joinRec, if_neg (by simp [h o List.mem_cons_self]), ih fun o ho => h o (List.mem_cons_of_mem _ ho)]
    rfl

/-- The record that a report opens. -/
def Open.ofReport (r : Report) (dom now : Nat) (a : Arrived) : Open :=
  ⟨r.cause, r.cls, dom, if r.cls = 15 then r.inst / 1024 else 0, r.clear, r.cause == 0xC00, now, [a]⟩

theorem Health.hold_new {h : Health} {r : Report} {dom : Nat} (now : Nat) (a : Arrived) (hnew : ∀ o ∈ h.openRecs, o.takes r dom = false) :
    h.hold r dom now a = if h.openRecs.length < 256 then { h with openRecs := h.openRecs ++ [.ofReport r dom now a] }
      else { h with ovf := true, supp := bump h.supp r.cause 1 } := by
  rw [Health.hold, joinRec_none a hnew]
  rfl

/-- The counts and the latch after an arrival. -/
def Health.counted (h : Health) (r : Report) (a : Arrived) : Health := { h with total := bump h.total r.cause 1, fault := h.fault || (a.c0 && !r.clear) }

/-- R475, R477: the state causes in force after an arrival. -/
def Health.tracked (h : Health) (r : Report) (a : Arrived) : Health :=
  if stateCauses.contains r.cause then
    { h with started := if r.clear then h.started.filter fun s => !(s.cause == r.cause && s.cls == r.cls && s.inst == r.inst)
        else (h.started.filter fun s => !(s.cause == r.cause && s.cls == r.cls && s.inst == r.inst)) ++ [⟨r.cause, r.cls, r.inst, false, a.c0⟩] }
  else h

theorem Health.tracked_keeps (h : Health) (r : Report) (a : Arrived) :
    ∃ st, h.tracked r a = { h with started := st } ∧ (stateCauses.contains r.cause = false → st = h.started) := by
  rw [Health.tracked]
  split
  · exact ⟨_, rfl, fun hno => by simp_all⟩
  · exact ⟨h.started, rfl, fun _ => rfl⟩

/-- Whether a report is covered by a parent in force. -/
def coveredBy (s : HScope) (active : List Report) (r : Report) (dom : Nat) : Bool :=
  active.any fun p => s.covers p r.cause r.cls r.inst (if r.dom < 3 then r.dom else dom)

section Arrive

variable {h : Health} {s : HScope} {active : List Report} {r : Report} {dom now : Nat} {a : Arrived}

theorem Health.arrive_quiet (hq : r.quiet = true) : h.arrive s active r dom now a = h.counted r a := if_pos hq

theorem Health.arrive_loud (hq : r.quiet = false) : h.arrive s active r dom now a =
    let k := if parentCauses.contains r.cause && !r.clear then ((h.counted r a).tracked r a).withdraw s r else (h.counted r a).tracked r a
    if coveredBy s active r dom || (r.clear && !h.startShown r) then { k with supp := bump k.supp r.cause 1 } else k.hold r dom now a :=
  if_neg (by simp [hq])

/-- What every arrival leaves of the health unit. -/
theorem Health.arrive_books : ∃ k : Health, k.Files (h.arrive s active r dom now a) ∧
    ∃ st, k = { h.counted r a with started := st } ∧ (stateCauses.contains r.cause = false → st = h.started) := by
  cases hq : r.quiet with
  | true => exact ⟨h.counted r a, by rw [Health.arrive_quiet hq]; exact .refl _, h.started, rfl, fun _ => rfl⟩
  | false =>
    refine ⟨(h.counted r a).tracked r a, ?_, (h.counted r a).tracked_keeps r a⟩
    rw [Health.arrive_loud hq]
    dsimp only
    have hparent : ((h.counted r a).tracked r a).Files
        (if parentCauses.contains r.cause && !r.clear then ((h.counted r a).tracked r a).withdraw s r else (h.counted r a).tracked r a) := by
      split
      · exact Health.withdraw_files _ s r
      · exact .refl _
    split
    · exact hparent.trans (.suppressed _ _ _)
    · exact hparent.trans (Health.hold_files _ r dom now a)

theorem Health.arrive_hidden (hq : r.quiet = false) (hparent : parentCauses.contains r.cause = false) (hhidden : coveredBy s active r dom = true) :
    (h.arrive s active r dom now a).openRecs = h.openRecs ∧ (h.arrive s active r dom now a).supp = bump h.supp r.cause 1 := by
  obtain ⟨st, htracked, -⟩ := (h.counted r a).tracked_keeps r a
  rw [Health.arrive_loud hq, hparent, hhidden]
  dsimp only [Bool.false_and, Bool.true_or, if_true]
  rw [htracked]
  exact ⟨rfl, rfl⟩

theorem Health.arrive_new (hq : r.quiet = false) (hparent : parentCauses.contains r.cause = false) (hseen : coveredBy s active r dom = false)
    (hstart : r.clear = false) (hnew : ∀ o ∈ h.openRecs, o.takes r dom = false) :
    (h.openRecs.length < 256 → (h.arrive s active r dom now a).openRecs = h.openRecs ++ [.ofReport r dom now a] ∧
        (h.arrive s active r dom now a).supp = h.supp) ∧
      (256 ≤ h.openRecs.length → (h.arrive s active r dom now a).openRecs = h.openRecs ∧ (h.arrive s active r dom now a).ovf = true ∧
        (h.arrive s active r dom now a).supp = bump h.supp r.cause 1) := by
  obtain ⟨st, htracked, -⟩ := (h.counted r a).tracked_keeps r a
  have heq : h.arrive s active r dom now a = ({ h.counted r a with started := st } : Health).hold r dom now a := by
    rw [Health.arrive_loud hq, hparent, hseen, hstart]
    dsimp only [Bool.false_and, Bool.or_self]
    rw [htracked]
    rfl
  rw [heq, Health.hold_new (h := { h.counted r a with started := st }) now a hnew]
  refine ⟨fun hroom => ?_, fun hfull => ?_⟩
  · have hlt : ({ h.counted r a with started := st } : Health).openRecs.length < 256 := hroom
    rw [if_pos hlt]
    exact ⟨rfl, rfl⟩
  · have hge : ¬ ({ h.counted r a with started := st } : Health).openRecs.length < 256 := by
      change ¬ h.openRecs.length < 256
      omega
    rw [if_neg hge]
    exact ⟨rfl, rfl, rfl⟩

end Arrive

/-! REPORT_ARRIVAL -/

/-- What is noted of report `r` when it arrives. -/
def State.noted (s : State) (r : Report) : Arrived :=
  ⟨r.inst, s.ns, if s.recordDom r < 3 then s.period (s.recordDom r) else 0, (s.affects r).map (·.1), s.c0Cause r⟩

theorem State.screened_eq (s : State) : s.screened = s.withHealth fun _ => s.screened.health := rfl

/-- The withdrawal of records leaves the parents in force. -/
theorem State.screened_parents (s : State) : s.screened.activeParents = s.activeParents := by
  obtain ⟨recs, supp, ovf, heq⟩ := s.screened_files.eq
  rw [s.screened_eq, heq]
  rfl

theorem State.reportArrives_eq {s : State} {r : Report} {l : List Report} (hflying : s.health.flying = r :: l) :
    s.reportArrives = s.withHealth fun _ => ({ s.screened.health with flying := l } : Health).arrive s.scope s.activeParents r (s.recordDom r) s.us (s.noted r) := by
  unfold State.reportArrives
  rw [hflying]
  dsimp only
  rw [s.screened_parents]
  rfl

theorem completes_reportArrival_none {s : State} (h : s.healthRuns = false ∨ s.health.flying = []) : Completes .reportArrival s [] fun _ => True :=
  completes_of_settle (done_off (by obtain h | h := h <;> simp [h]))

/-- The report that is oldest on the network arrives. -/
theorem completes_reportArrival {s : State} {r : Report} {l : List Report} (hruns : s.healthRuns = true) (hflying : s.health.flying = r :: l) :
    Completes .reportArrival s [.health, .reports] fun t => ∃ k : Health,
      k = ({ s.screened.health with flying := l } : Health).arrive s.scope s.activeParents r (s.recordDom r) s.us (s.noted r) ∧
      t.health = { k with flying := l ++ s.unitReports } := by
  have hexec : exec .reportArrival s = .next s.reportArrives.settle := done_on rfl (by simp [hruns, hflying])
  rw [State.reportArrives_eq hflying] at hexec
  refine ⟨_, hexec, ⟨_, rfl, ?_⟩, (s.within_health _).settle (fun h => absurd (by decide) h) fun _ => ⟨rfl, rfl, rfl⟩⟩
  obtain ⟨k, hfiles, st, rfl, -⟩ := Health.arrive_books (h := { s.screened.health with flying := l }) (s := s.scope) (active := s.activeParents) (r := r)
    (dom := s.recordDom r) (now := s.us) (a := s.noted r)
  obtain ⟨recs, supp, ovf, heq⟩ := hfiles.eq
  rw [State.settle_health, State.withHealth_health, heq]
  rfl

/-! ### Records (R474, R480, R481) -/

theorem Open.bytes_length (o : Open) : o.bytes.length = 48 := by
  simp only [Open.bytes, List.length_append, leBytes_length]

theorem Open.affected_zero (o : Open) : 0 ∈ o.affected := List.mem_filter.mpr ⟨by decide, rfl⟩

theorem Open.affected_nodup (o : Open) : o.affected.Nodup := List.nodup_range.filter _

/-- A fault of partition `p` was numbered, and written where its fault ring takes it. -/
structure HostSys.Numbered (p : Nat) (h h' : HostSys) : Prop where
  wf : Memory.wf (fun _ => Part.reset) h'.parts = true
  rep : h'.rep = h.rep
  other : ∀ q, q ≠ p → h'.part q = h.part q
  frSeq : (h'.part p).frSeq = (h.part p).frSeq + 1
  holder : (h'.part p).holder = (h.part p).holder

theorem HostSys.Numbered.setPart {h : HostSys} {p : Nat} {q : Part} (hwf : Memory.wf (fun _ => Part.reset) h.parts = true)
    (hseq : q.frSeq = (h.part p).frSeq + 1) (hholder : q.holder = (h.part p).holder) : h.Numbered p (h.setPart p q) := by
  have hpart : (h.setPart p q).part p = q := Memory.get_set_same _ _ _ _ hwf
  exact ⟨Memory.wf_set _ _ _ _ hwf, rfl, fun _ hq => Memory.get_set_other _ _ _ _ _ hq, by rw [hpart, hseq], by rw [hpart, hholder]⟩

theorem HostSys.Numbered.signals {h h' h'' : HostSys} {p : Nat} (a : h.Numbered p h') (b : h'.Signals p h'') : h.Numbered p h'' := by
  obtain ⟨_, _, _, hpart⟩ := b.part
  exact ⟨b.wf, b.rep.trans a.rep, fun q hq => (b.other q hq).trans (a.other q hq), (congrArg Part.frSeq hpart :).trans a.frSeq,
    (congrArg Part.holder hpart :).trans a.holder⟩

/-- The fault is written, and its interrupt and message follow. -/
theorem HostSys.Numbered.announced {h h' : HostSys} {p : Nat} (a : h.Numbered p h') (lo hi : Word) (off : Nat) (bs : List Byte) (b v : Nat) :
    h.Numbered p (((h'.put p lo hi off bs).1.irq p b).msi p v) := by
  have hput : h'.Signals p (h'.put p lo hi off bs).1 := .put a.wf p lo hi off bs
  have hirq := HostSys.Signals.raise hput.wf p b
  exact a.signals (hput.trans (hirq.trans (.msi hirq.wf p v)))

/-- A partition with one fault more, its fault ring `g`. -/
def Part.faulted (q : Part) (g : Ring) (ovf : Nat) : Part := { q with fr := g, frSeq := q.frSeq + 1, frOvf := ovf }

/-- A fault ring after one record more. -/
def Ring.next (g : Ring) : Ring :=
  { g with dev := (g.dev + 1) % g.size, phase := if (g.dev + 1) % g.size = 0 then !g.phase else g.phase }

/-- R481: the 64 bytes of a record in a fault ring. -/
def Part.faultBytes (q : Part) (rec : List Byte) : List Byte :=
  rec.take 48 ++ leBytes 8 q.frSeq ++ leBytes 1 (if q.fr.phase then 1 else 0) ++ leBytes 7 0

theorem HostSys.putFault_eq (h : HostSys) (p : Nat) (rec : List Byte) : (h.putFault p rec).1 =
    if !(h.part p).fr.en then h.setPart p ((h.part p).faulted (h.part p).fr (h.part p).frOvf)
    else if !(h.part p).fr.room then h.setPart p ((h.part p).faulted (h.part p).fr (incSat 0xFF (h.part p).frOvf))
    else (((h.setPart p ((h.part p).faulted (h.part p).fr.next (h.part p).frOvf)).put p (h.part p).fr.lo (h.part p).fr.hi
      (64 * (h.part p).fr.dev) ((h.part p).faultBytes rec)).1.irq p 8).msi p ((h.part p).fr.cfg.fld 24 6) := by
  rw [HostSys.putFault]
  dsimp only
  split
  · rfl
  · split
    · rfl
    · rfl

theorem HostSys.putFault_numbered {h : HostSys} (hwf : Memory.wf (fun _ => Part.reset) h.parts = true) (p : Nat) (rec : List Byte) :
    h.Numbered p (h.putFault p rec).1 := by
  have hset : ∀ g ovf, h.Numbered p (h.setPart p ((h.part p).faulted g ovf)) := fun _ _ => .setPart hwf rfl rfl
  rw [HostSys.putFault_eq]
  split
  · exact hset _ _
  · split
    · exact hset _ _
    · exact (hset _ _).announced _ _ _ _ _ _

/-- A record goes to the fault ring of partition `p`. -/
def State.faultTurn (bs : List Byte) (s : State) (p : Nat) : State := s.hostPut fun h => h.putFault p bs

/-- Each affected partition has its own turn. -/
theorem State.faultTurns (bs : List Byte) {l : List Nat} (hl : l.Nodup) {s : State} (hwf : Memory.wf (fun _ => Part.reset) s.host.parts = true) :
    let t := l.foldl (State.faultTurn bs) s
    t.unitReports = s.unitReports ∧ t.mem.banks = s.mem.banks ∧ t.health = s.health ∧ (∀ q, q ∉ l → t.host.part q = s.host.part q) ∧
      ∀ q, q ∈ l → (t.host.part q).frSeq = (s.host.part q).frSeq + 1 ∧ (t.host.part q).holder = (s.host.part q).holder := by
  induction l generalizing s with
  | nil => exact ⟨rfl, rfl, rfl, fun _ _ => rfl, fun _ h => absurd h List.not_mem_nil⟩
  | cons p l ih =>
    obtain ⟨hp, hrest⟩ := List.nodup_cons.mp hl
    have hturn := HostSys.putFault_numbered hwf p bs
    obtain ⟨irep, ibanks, ihealth, iout, iin⟩ := ih hrest (s := s.faultTurn bs p) hturn.wf
    refine ⟨irep.trans (State.hostPut_unitReports hturn.rep), ibanks.trans (State.putXram_banks _ _), ihealth, fun q hq => ?_, fun q hq => ?_⟩
    · exact (iout q fun h => hq (List.mem_cons_of_mem _ h)).trans (hturn.other q fun h => hq (h ▸ List.mem_cons_self))
    · obtain rfl | hq := List.mem_cons.mp hq
      · have hself := iout q hp
        exact ⟨(congrArg Part.frSeq hself :).trans hturn.frSeq, (congrArg Part.holder hself :).trans hturn.holder⟩
      · have hlater := iin q hq
        have hother : (s.faultTurn bs p).host.part q = s.host.part q := hturn.other q fun h => hp (h ▸ hq)
        rw [hother] at hlater
        exact hlater

/-- The health unit without record `o`, its bytes in the global ring, `st` the state causes. -/
def Health.closed (h : Health) (o : Open) (st : List Started) : Health :=
  { h with
    openRecs := h.openRecs.erase o
    ring := Memory.set (fun _ => []) h.ring (h.seq % 1024) o.bytes
    seq := (h.seq + 1) % 2 ^ 32
    started := st }

theorem Health.close_some {h : Health} {o : Open} {now : Nat} (hdue : h.due now = some o) : ∃ st, h.close now = h.closed o st := by
  rw [Health.close, hdue]
  exact ⟨_, rfl⟩

theorem State.recordCloses_eq {s : State} {o : Open} (hdue : s.screened.health.due s.us = some o) :
    s.recordCloses = o.affected.foldl (State.faultTurn o.bytes) (s.withHealth fun _ => s.screened.health.close s.us) := by
  have hdue' : s.screened.health.due s.screened.us = some o := hdue
  rw [State.recordCloses, hdue']
  rfl

theorem completes_recordClose {s : State} {o : Open} (hwf : s.unitsWf = true) (hruns : s.healthRuns = true)
    (hdue : s.screened.health.due s.us = some o) :
    Completes .recordClose s [.health, .host, .mem, .out] fun t =>
      t.health = { s.screened.health.close s.us with flying := s.settle.health.flying } ∧ t.mem.banks = s.mem.banks ∧
      ∀ p, (t.host.part p).frSeq = (s.host.part p).frSeq + (if p ∈ o.affected then 1 else 0) ∧
        (t.host.part p).holder = (s.host.part p).holder ∧ (p ∉ o.affected → t.host.part p = s.host.part p) := by
  have hexec : exec .recordClose s = .next s.recordCloses.settle := done_on rfl (by rw [hruns, hdue]; rfl)
  rw [State.recordCloses_eq hdue] at hexec
  obtain ⟨hrep, hbanks, hhealth, hout, hin⟩ := State.faultTurns o.bytes o.affected_nodup
    (s := s.withHealth fun _ => s.screened.health.close s.us) (State.unitsWf_parts hwf)
  have hturns : (s.withHealth fun _ => s.screened.health.close s.us).Within [.host, .mem]
      (o.affected.foldl (State.faultTurn o.bytes) (s.withHealth fun _ => s.screened.health.close s.us)) := .foldl (fun u p => u.hostPut_within _) _ _
  generalize o.affected.foldl (State.faultTurn o.bytes) (s.withHealth fun _ => s.screened.health.close s.us) = u at *
  obtain ⟨recs, supp, ovf, hscreened⟩ := s.screened_files.eq
  obtain ⟨st, hclose⟩ := Health.close_some hdue
  have hflying : u.health.flying = s.health.flying := by
    rw [hhealth, State.withHealth_health, hclose, hscreened]
    rfl
  have hclosed : s.Within [.health] (s.withHealth fun _ => s.screened.health.close s.us) :=
    ⟨rfl, fun p hp => by cases p <;> simp_all [Piece.same]⟩
  refine ⟨_, hexec, ⟨?_, hbanks, fun p => ?_⟩, (hclosed.mono.trans hturns.mono).settle (fun _ => hrep) fun h => absurd (by decide) h⟩
  · rw [State.settle_health, hflying, hrep, hhealth]
    rfl
  · by_cases hp : p ∈ o.affected
    · rw [if_pos hp]
      exact ⟨(hin p hp).1, (hin p hp).2, fun h => absurd hp h⟩
    · rw [if_neg hp]
      have hsame : u.settle.host.part p = s.host.part p := hout p hp
      exact ⟨congrArg Part.frSeq hsame, congrArg Part.holder hsame, fun _ => hsame⟩

theorem completes_recordClose_none {s : State} (h : s.healthRuns = false ∨ s.screened.health.due s.us = none) :
    Completes .recordClose s [] fun _ => True := by
  have hguard : (s.healthRuns && (s.screened.health.due s.us).isSome) = false := by
    obtain h | h := h
    · rw [h, Bool.false_and]
    · rw [h, Option.isSome_none, Bool.and_false]
  exact completes_of_settle (done_off (by rw [hguard, Bool.and_false]))

end Sys2Proof.Machine

/-!
The obligation on the health unit and GPIO (R473 to R486).
-/

namespace Sys2Proof.Machine

theorem State.c0Cause_start (s : State) (r : Report) : (s.c0Cause r && !r.clear) = s.c0Cause r := by
  rw [State.c0Cause]
  cases r.clear <;> simp

/-- The counts, the latch, the global ring and the state causes after an arrival. -/
theorem Health.arrive_counts {h : Health} {s : State} {r : Report} (hwf : Memory.wf zeroN h.total = true) :
    let k := h.arrive s.scope s.activeParents r (s.recordDom r) s.us (s.noted r)
    Memory.get zeroN k.total r.cause = min (2 ^ 32 - 1) (Memory.get zeroN h.total r.cause + 1) ∧
      (∀ c, c ≠ r.cause → Memory.get zeroN k.total c = Memory.get zeroN h.total c) ∧ k.fault = (h.fault || s.c0Cause r) ∧ k.seq = h.seq ∧
      k.ring = h.ring ∧ (stateCauses.contains r.cause = false → k.started = h.started) := by
  obtain ⟨k, hfiles, st, rfl, hst⟩ := Health.arrive_books (h := h) (s := s.scope) (active := s.activeParents) (r := r) (dom := s.recordDom r)
    (now := s.us) (a := s.noted r)
  obtain ⟨recs, supp, ovf, heq⟩ := hfiles.eq
  dsimp only
  rw [heq]
  refine ⟨bump_same hwf _ _, fun c hc => bump_other _ hc _, ?_, rfl, rfl, hst⟩
  exact congrArg (h.fault || ·) (s.c0Cause_start r)

/-- Settles O59: the health unit first, by what one arrival and one closing record leave of it, then the three commands of GPIO. -/
theorem healthAndGpioCommands : Obligations.HealthAndGpioCommands := by
  unfold Obligations.HealthAndGpioCommands
  dsimp only
  refine ⟨fun s h => completes_reportArrival_none h, fun s r l htotal hsupp hruns hflying => ?_, Open.bytes_length,
    fun s h => completes_recordClose_none h, fun s o hwf hring hruns hdue => ?_, fun s r hr => ⟨fun hc => ?_, fun hc => ?_⟩,
    fun s n level hwf hn => ⟨fun hidle => completes_gpioAccept_idle hwf hn hidle, fun hup hen hlevel => completes_gpioAccept hwf hn hup hen hlevel⟩,
    fun s n hwf hn => ⟨fun hnot => completes_gpioStuck_not hwf hn hnot, fun ⟨hup, hripe⟩ => completes_gpioStuck hwf hn hup hripe⟩,
    fun s r mask hwf hr hmask => ⟨fun hc => ?_, fun hc => completes_gpioRearm hwf hr hmask hc⟩⟩
  · obtain ⟨t, hnext, ⟨k, hk, hhealth⟩, honly⟩ := completes_reportArrival hruns hflying
    obtain ⟨recs, supp, ovf, hscreened⟩ := s.screened_files.eq
    have htotal' : Memory.wf zeroN s.screened.health.total = true := by
      rw [hscreened]
      exact htotal
    have hsupp' : Memory.wf zeroN s.screened.health.supp = true := s.screened_files.wf hsupp
    obtain ⟨ctotal, cother, cfault, cseq, cring, cstarted⟩ :=
      Health.arrive_counts (h := { s.screened.health with flying := l }) (s := s) (r := r) htotal'
    rw [← hk] at ctotal cother cfault cseq cring cstarted
    refine ⟨t, hnext, ?_, honly⟩
    dsimp only
    rw [hhealth]
    refine ⟨rfl, ctotal, cother, cfault, cseq, cring, cstarted, fun hquiet => ?_, fun hquiet hparent hhidden => ?_,
      fun hquiet hparent hseen hstart hnew => ⟨fun hroom => ?_, fun hfull => ?_⟩⟩
    · rw [hk, Health.arrive_quiet hquiet]
      exact ⟨rfl, rfl, rfl⟩
    · obtain ⟨hrecs, hcount⟩ := Health.arrive_hidden (h := { s.screened.health with flying := l }) (now := s.us) (a := s.noted r) hquiet hparent hhidden
      rw [← hk] at hrecs hcount
      exact ⟨hrecs, (congrArg (Memory.get zeroN · r.cause) hcount).trans (bump_same hsupp' _ _)⟩
    · obtain ⟨hrecs, hcount⟩ := (Health.arrive_new (h := { s.screened.health with flying := l }) (now := s.us) (a := s.noted r) hquiet hparent hseen hstart
        hnew).1 hroom
      rw [← hk] at hrecs hcount
      exact ⟨_, hrecs, ⟨rfl, rfl, rfl, rfl, rfl, beq_iff_eq, rfl, rfl⟩, hcount⟩
    · obtain ⟨hrecs, hovf, hcount⟩ := (Health.arrive_new (h := { s.screened.health with flying := l }) (now := s.us) (a := s.noted r) hquiet hparent hseen
        hstart hnew).2 hfull
      rw [← hk] at hrecs hovf hcount
      exact ⟨hrecs, hovf, (congrArg (Memory.get zeroN · r.cause) hcount).trans (bump_same hsupp' _ _)⟩
  · obtain ⟨t, hnext, ⟨hhealth, hbanks, hparts⟩, honly⟩ := completes_recordClose hwf hruns hdue
    obtain ⟨recs, supp, ovf, hscreened⟩ := s.screened_files.eq
    obtain ⟨st, hclose⟩ := Health.close_some hdue
    have hseq : s.screened.health.seq = s.health.seq := by rw [hscreened]
    have hringSame : s.screened.health.ring = s.health.ring := by rw [hscreened]
    rw [hclose] at hhealth
    have htring : t.health.ring = Memory.set (fun _ => []) s.health.ring (s.health.seq % 1024) o.bytes := by
      rw [← hseq, ← hringSame, hhealth]
      rfl
    refine ⟨t, hnext, ⟨o.affected_zero, (congrArg Health.openRecs hhealth :), ?_, ?_, fun n hn => ?_, ?_, ?_, hbanks, fun p _ => hparts p⟩, honly⟩
    · rw [← hseq, hhealth]
      rfl
    · rw [htring]
      exact Memory.get_set_same _ _ _ _ hring
    · rw [htring]
      exact Memory.get_set_other _ _ _ _ _ hn
    · have htotal : t.health.total = s.screened.health.total := (congrArg Health.total hhealth :)
      rw [htotal, hscreened]
    · have hfault : t.health.fault = s.screened.health.fault := (congrArg Health.fault hhealth :)
      rw [hfault, hscreened]
  · exact completes_of_settle (done_off (by rw [hc, Bool.and_false]))
  · have hexec : exec (.faultClear r) s = .next (s.withHealth Health.clearFault).settle := done_on (by simpa [Instr.wf] using hr) hc
    have hwithin : s.Within [.health] (s.withHealth Health.clearFault) := ⟨rfl, fun p hp => by cases p <;> simp_all [Piece.same, Health.clearFault]⟩
    exact ⟨_, hexec, rfl, hwithin.settle (fun _ => rfl) fun _ => ⟨rfl, rfl, rfl⟩⟩
  · exact completes_of_settle (done_off (by rw [hc, Bool.and_false]))

end Sys2Proof.Machine
